-- ==== Sys2Proof/Word.lean ====
section
/-! DEFINITION. The word types of the LW24 (R5, R10): bytes, 32-bit registers and 64-bit counters, and
the index types of its numbered things: 4,096 wards, 16 cells, 4 redundancy groups, 2 capture ports. -/

namespace Sys2Proof

/-- One byte; bit 0 is the least significant bit (R10). -/
abbrev Byte := BitVec 8

/-- One 32-bit setup register (R402). -/
abbrev Word := BitVec 32

/-- One 64-bit counter, address or time value (R36, R355). -/
abbrev DWord := BitVec 64

/-- A run of bytes in ascending address order. -/
abbrev Bytes := List Byte

/-- A ward identifier, 0x000 to 0xFFF (R21). -/
abbrev WardId := Fin 4096

/-- A cell port number, CELL_0 to CELL_15. -/
abbrev CellId := Fin 16

/-- A redundancy group number, 0 to 3 (R182). -/
abbrev GroupId := Fin 4

/-- A capture port number (R193). -/
abbrev PortId := Fin 2

end Sys2Proof
end

