-- ==== Sys2Proof/Syntax.lean ====
section
/-! DEFINITION. The commands of the LW24: one constructor of `Instr` per row of spec/opcode_table.json, in
the table's order, and the plain data their operands carry. The table gives its rows no operand fields and
no bits; the operands below are what the row's rule says arrives from outside the die (a written value, a
fetched entry, a frame, a sector as the read channel delivers it, the outcome of a physical check). -/

namespace Sys2Proof

/-- A context that owns a submission and a completion ring (R124): the admin context or a ward. -/
inductive Ctx where
  | admin
  | ward (w : WardId)
deriving DecidableEq, Repr

/-- What a failed self-test was (R82, R83, R92): the power-on test of execution order `t` + 1, or a
continuous health test on fresh samples. -/
inductive TestFail where
  | test (t : Fin 10)
  | repetition
  | adaptive
deriving DecidableEq, Repr

/-- What the start-up sequence meets on its way (R96, R98, R99, R244): the physical outcomes that no state
of the die decides (DESIGN CHOICE, log 39). -/
structure Boot where
  /-- Fuse words with a corrected single-bit error (R98). -/
  fuseFixed : Nat
  /-- A fuse word has an uncorrectable error (R98). -/
  fuseBad : Bool
  /-- Counted beats at which the stages FUSE, ZEROIZE and SELFTEST end (R96). -/
  fuseEnd : Word
  zeroEnd : Word
  testEnd : Word
  /-- The power-on test that fails, if one does, or the health test that fails as the DRBG is seeded (R80, R82). -/
  test : Option TestFail
  /-- Index in key order of the first live Ledger record that fails its GCM tag (R99). -/
  scanBad : Option Nat
  /-- The scan cannot finish within its bound (R99). -/
  scanLate : Bool
  /-- Wards whose context entry or configuration fails its integrity check (R240, R56). -/
  badWards : List WardId
  /-- The admin context entry fails its tag (R240). -/
  adminBad : Bool
  /-- The two copies of the vote table disagree at the wake (R347). -/
  voteBad : Bool
  /-- Counted beats from 0 to the end of the sequence (SYS.BOOT_BEATS, R108). -/
  beats : Word
deriving DecidableEq, Repr

/-- The registers of configuration space that the manual gives a meaning, by name: R109 leaves where a capability stands to
the PCI Express specification (R109–R112, R117–R122, R125, R127, R129) (PRESUMED, log 5). -/
inductive CfgReg where
  /-- Vendor ID [15:0] and Device ID [31:16]. -/
  | ids
  /-- Command [15:0]. -/
  | command
  /-- Revision ID [7:0] and Class Code [31:8]. -/
  | classRev
  /-- BAR registers 0–5. -/
  | bar (i : Fin 6)
  /-- Subsystem Vendor ID [15:0] and Subsystem ID [31:16]. -/
  | subsystem
  /-- Interrupt Pin [15:8]. -/
  | interrupt
  /-- The Device Serial Number capability, lower and upper half. -/
  | serial (hi : Bool)
  /-- Device Capabilities: the Max Payload Size the function supports. -/
  | devCap
  /-- Device Control: payload and request sizes, relaxed ordering, Initiate FLR. -/
  | devCtl
  /-- Device Control 2: completion timeout and 10-bit tags. -/
  | devCtl2
  /-- Link Control: the ASPM field. -/
  | linkCtl
  /-- MSI-X Message Control [31:16]. -/
  | msixCtl
  /-- Power Management Control and Status. -/
  | pmCsr
  /-- AER uncorrectable error status. -/
  | aerUncorr
  /-- AER correctable error status. -/
  | aerCorr
  /-- AER capabilities and control: the ECRC enables. -/
  | aerCtl
deriving DecidableEq, Repr

/-- A configuration request: a read, or a write of 4 bytes (R125). -/
structure CfgReq where
  write : Bool
  reg : CfgReg
  value : Word
deriving DecidableEq, Repr

/-- Why a received TLP is not acted on (R122). -/
inductive TlpError where
  | lcrc
  | ecrc
  | poisoned
  | malformed
deriving DecidableEq, Repr

/-- How a read that the device issued fails (R122). -/
inductive ReadFail where
  | timeout
  | unsupported
  | abort
  | poisoned
  | ecrc
deriving DecidableEq, Repr

/-- One access to the doorbell aperture (R115). -/
structure Bar2 where
  write : Bool
  offset : Nat
  size : Nat
  value : DWord
deriving DecidableEq, Repr

/-- A frame as it ends on a capture port (R196): its bytes from destination MAC through FCS, and what the PCS and the FEC
found. -/
structure Frame where
  bytes : Bytes
  /-- A block or control character in it failed to decode, or it contains /E/. -/
  codeErr : Bool
  /-- A codeword that carried it was uncorrectable, or its FEC block failed. -/
  fecBad : Bool
deriving DecidableEq, Repr

/-- What a capture port's receive side meets in one beat (R183, R196, R198, R209) (DESIGN CHOICE, log 44). -/
inductive RxEvent where
  /-- The SFD is detected; `fixed` says that the codeword which carries it was a corrected one. -/
  | sfd (fixed : Bool)
  /-- The EtherType has been received; `head` holds the frame's bytes so far. -/
  | key (head : Bytes)
  /-- `n` FEC codewords have been corrected. -/
  | corrected (n : Nat)
  /-- The frame ends. -/
  | ends (f : Frame)
deriving DecidableEq, Repr

/-- What a capture port's PCS gains or loses (R195, R210). -/
inductive PcsPart where
  | block
  | marker
  | ber
  | whole
deriving DecidableEq, Repr

/-- What a tick meets: the pauses of grid hinges before its boundary (R32), the samples it takes (R367), and whether the vote
table's copies disagree (R347). -/
structure TickEnv where
  /-- Each pause: the beats that pass before it, and the receiving island in the order of R359. -/
  hinges : List (Nat × Fin 6)
  /-- Die temperature, signed, 0.125 °C. -/
  temp : BitVec 16
  /-- VDD_CORE, VDD_SERDES, VDDA_CELL and VDDIO in mV. -/
  core : BitVec 16
  serdes : BitVec 16
  cellv : BitVec 16
  io : BitVec 16
  voteBad : Bool
deriving DecidableEq, Repr

/-- One sub-block of a stripe: group, stripe number, column and sub-block 0–15 (R251). -/
structure SubAddr where
  group : GroupId
  stripe : Nat
  column : Nat
  sub : Nat
deriving DecidableEq, Repr

/-- A media sector: 4,096 bytes, the 48-byte covered part of the block tag and its sector part (R256). -/
structure Sector where
  data : Bytes
  cov : Bytes
  kind : Byte
  group : Byte
  column : Byte
  sub : Byte
  pboot : Word
  pserial : DWord
deriving DecidableEq, Repr

/-- What the read channel delivers for one pass over a sector (R290–R293): the decoded sector, if it
decodes, and what the pass counted (DESIGN CHOICE, log 10). -/
structure SectorObs where
  img : Option Sector
  /-- Sync mark B was used (R292). -/
  markB : Bool
  /-- Reed–Solomon symbols corrected (R290). -/
  corrected : Nat
  /-- Second pulses dropped in a bit (R293). -/
  doubles : Nat
  /-- The off-track limit broke or the estimate became unknown during the read (R315). -/
  offTrack : Bool
deriving DecidableEq, Repr

/-- What the read of one column of a row delivers (R258, R263, R273): the first pass, and, where that is not verified, what
the averaging retry yields before the parity path does (DESIGN CHOICE, log 10). -/
structure RowRead where
  first : SectorObs
  retry : Option Sector
deriving DecidableEq, Repr

/-- What the data head reads in one wedge window (R304–R306). -/
structure WedgeObs where
  mark : Bool
  parityOk : Bool
  index : Nat
  track : Int
  burstA : Nat
  burstB : Nat
deriving DecidableEq, Repr

/-- What the surface-0 head reads of one Colzor frame (R302, R303): sync, frame-0 index sync, band code, and
the interval tB − tF of each timed chevron pair in 1/64 cycle. -/
structure ColzorObs where
  sync : Bool
  index : Bool
  codeOk : Bool
  band : Nat
  pairs : List Int
deriving DecidableEq, Repr

/-- A Stripe Cache error that SEC-DED or tag parity detects (R223). -/
inductive EccKind where
  | corrected
  | uncorrectable
  | tagParity
deriving DecidableEq, Repr

/-- A host-link reset's source (R93, R94). -/
inductive LinkReset where
  | hotReset
  | dlDown
  | perst
deriving DecidableEq, Repr

/-- The commands the LW24 takes, one constructor per row of the operation table (DESIGN CHOICE, log 1). -/
inductive Instr where
  -- supplies and pins
  | powerOn (b : Boot)
  | supplyLoss (rail : Fin 4) (mv : Nat)
  | pfNAssert (ends : List CellId)
  | pfNDeassert (b : Boot)
  | wakeN (b : Boot)
  | perstN (low : Bool) (b : Boot)
  | zeroN (whole : Bool) (test : Option (Fin 10)) (b : Boot)
  | lpOverload (b : Boot)
  -- host link
  | hostLinkReset (r : LinkReset)
  | linkTrained (speed : Nat) (width : Nat)
  | flr
  | flrCaptureResume
  | flrDone
  | d3hotEntry
  | d0Return
  | l1Entry (partner : Bool)
  | msixEnable
  | msixUnmask (v : Option (Fin 256))
  | coalesceTime (v : Fin 256)
  | tlpDiscard (e : TlpError)
  -- apertures
  | bar0ReadAbort (offset : Nat) (len : Nat)
  | bar2Stray (a : Bar2)
  | bar4Read (offset : Nat) (len : Nat)
  | bar4Write (offset : Nat) (len : Nat)
  | registerWrite (offset : Nat) (size : Nat) (full : Bool) (value : DWord)
  | cfgRejectClear
  | beatLoRead
  | taiLoRead
  | wardHighLoRead
  | serialLoRead
  -- clock and time
  | srcPll
  | srcOscillator
  | setNow
  | setAtPps
  | setAtPpsTimeout
  | taiRateWrite (v : Word)
  | ppsCtrlWrite (v : Word)
  | ppsEdge (wait : Nat)
  | taiSlew
  | holdover
  | ppsOutRise
  | ppsOutFall
  | pllLock
  | pllLoss
  | tick (e : TickEnv)
  | imagePublish
  -- timeouts and limits
  | officerIdle
  | officerLockoutEnd
  | officerLockout
  | lockout (w : WardId)
  | malformedRate (w : WardId)
  | mediaStall
  | appendAge (w : WardId)
  | destageAge (a : SubAddr)
  | idlePark (c : CellId)
  | chainWaitTimeout (c : Ctx)
  | drbgReseed
  | noiseHealthFail (adaptive : Bool)
  -- register writes with their own behaviour
  | coldRestart (key : BitVec 16) (ends : List CellId) (b : Boot)
  | voteSet (v : Word)
  | voteClr (v : Word)
  | sleepVote
  | transitionEnd (b : Boot)
  | holdRelease (key : BitVec 16)
  | adminEnable
  | adminDisable
  | evlogHeadWrite (v : Word)
  | ratBWrite (i : Fin 16) (v : Word)
  | upCfgWrite (n : Fin 32) (v : Word)
  | pinSwitchSettle (n : Fin 32)
  -- rings
  | adminFetch
  | roundaboutTurn
  | entryArrival (c : Ctx) (entry : Bytes)
  | ringReadFail (c : Ctx) (why : ReadFail)
  | ringReadRetry (c : Ctx)
  | dmaAbort (job : Nat) (why : ReadFail)
  | jobBegin (job : Nat)
  | heldCommandEval (job : Nat)
  -- ward commands
  | read (job : Nat) (tagFail : Option Nat)
  | write (job : Nat)
  | trim (job : Nat)
  | openWard (job : Nat) (intact : Bool)
  | sealWard (job : Nat)
  | setCredential (job : Nat) (intact : Bool)
  | wardInfo (job : Nat)
  -- admin commands
  | identify (job : Nat)
  | officerAuth (job : Nat)
  | officerLogout (job : Nat)
  | setOfficerCredential (job : Nat) (whole : Bool)
  | setTelemetryKey (job : Nat)
  | runSelfTest (job : Nat) (fail : Option TestFail)
  | zeroize (job : Nat) (whole : Bool) (test : Option (Fin 10))
  | createWard (job : Nat)
  | destroyWard (job : Nat)
  | resetWard (job : Nat)
  | resizeWard (job : Nat)
  | setWardRings (job : Nat)
  | setWardSched (job : Nat)
  | flushQueue (job : Nat)
  | tumblerWrite (job : Nat)
  | groupSetCreate (job : Nat)
  | groupSetSetSpare (job : Nat)
  | groupSetDelete (job : Nat)
  | rebuildCtrlStart (job : Nat)
  | rebuildCtrlStop (job : Nat)
  | scrubCtrlStart (job : Nat)
  | scrubCtrlStop (job : Nat)
  | wayRestore (job : Nat)
  | eventLogSetEnable (job : Nat)
  | eventLogSetDisable (job : Nat)
  -- ledger and cache
  | intentReserve
  | ledgerRound (bad : List Nat) (tagFail : Option Nat)
  | kccUnwrap (intact : Bool)
  | cacheFill (a : SubAddr)
  | destageStart (a : SubAddr) (tagFail : Option Nat)
  | sectorWriteDone (c : CellId) (k : Nat)
  | scacheEccError (way : Fin 16) (kind : EccKind)
  | wayRetired (way : Fin 16) (kind : EccKind)
  | deferredDelta (serial : Nat) (old : Option Sector) (tagFail : Option Nat)
  | replay (media : List (Option Sector)) (rows : List (List (Option Sector))) (tagFail : Option Nat)
  -- capture
  | captureFrame (wait : Nat) (e0 e1 : Option RxEvent)
  | capLinkLost (p : PortId) (what : PcsPart) (got : Nat)
  | eventRecord
  -- media
  | sectorRead (k : Nat) (o : SectorObs)
  | retryPass (k : Nat) (o : SectorObs)
  | repairRewrite (k : Nat)
  | tornRewrite (c : CellId) (k : Nat)
  | armLinkResponse (c : CellId) (frame : Word)
  | armLinkLost (c : CellId)
  | presentAbsent (c : CellId)
  | spinUpTimeout (c : CellId)
  | clockLockLoss (c : CellId)
  | colzorFrame (c : CellId) (o : ColzorObs)
  | wedge (c : CellId) (o : WedgeObs)
  | reacquisition (c : CellId)
  | seekFail (c : CellId)
  | headLoadFail (c : CellId)
  | servoDoubt (c : CellId) (cause : BitVec 3)
  | initStripe (g : GroupId)
  | rebuildStripe (g : GroupId) (rows : List (List RowRead))
  | scrubRow (g : GroupId) (row : List RowRead)
  -- pins
  | jtagIdcode
  | jtagBypass (code : BitVec 4)
  | jtagExtest
  | jtagSamplePreload
  | smbReadWord (addr : BitVec 7) (cmd : Byte) (pec : Bool)
  | smbUnsupported
  | uartXoff
  | uartXon
  | capLinkUp (p : PortId) (what : PcsPart)
  | clockLock (c : CellId)
  | dataFetch (job : Nat) (data : Bytes)
  | busMasterEnable (q : CfgReq)
  | l1Exit
  | powerRemoval
  | parkTimeout (c : Option CellId)
  | gpioInChange (n : Fin 32) (level : Bool)
deriving DecidableEq, Repr

end Sys2Proof
end

