-- ==== Sys2Proof/Decode.lean ====
section
/-! DEFINITION. The operation table gives its rows no bits: the LW24 takes its commands at its pins, links and registers,
and no word spells one. The formats that do arrive as bytes (entries, register words, arm-link frames) are read where the
command that carries them has its meaning. -/

namespace Sys2Proof

/-- The command that a word of the table spells: none, for no row of the table has bits (DESIGN CHOICE, log 1). -/
def decodeTableWord (_nbits _w : Nat) : Option Instr := none

end Sys2Proof
end

