-- ==== Sys2Proof/Machine/Bits.lean ====
section
/-! DEFINITION. Byte-order helpers (R10, R11), the CRCs the manual names (R205, R256, R278), the field GF(2^8)
of R254 and small arithmetic on registers. -/

namespace Sys2Proof.Machine

/-- `v` as `n` little-endian bytes (R10). -/
def leBytes : Nat → Nat → Bytes
  | 0, _ => []
  | n + 1, v => BitVec.ofNat 8 v :: leBytes n (v / 256)

/-- The number that little-endian bytes hold (R10). -/
def ofLe : Bytes → Nat
  | [] => 0
  | b :: t => b.toNat + 256 * ofLe t

/-- `v` as `n` big-endian bytes (R11). -/
def beBytes (n v : Nat) : Bytes := (leBytes n v).reverse

/-- The number that big-endian bytes hold (R11). -/
def ofBe (b : Bytes) : Nat := ofLe b.reverse

/-- `len` bytes from offset `off`. -/
def slice (off len : Nat) (b : Bytes) : Bytes := (b.drop off).take len

/-- The little-endian field of `len` bytes at offset `off`. -/
def fieldAt (off len : Nat) (b : Bytes) : Nat := ofLe (slice off len b)

/-- The byte at offset `off`; past the end it reads zero. -/
def byteAt (off : Nat) (b : Bytes) : Byte := b.getD off 0

/-- `n` zero bytes. -/
def zeros (n : Nat) : Bytes := List.replicate n 0

/-- Exactly `n` bytes: cut, or filled with zeros. -/
def fit (n : Nat) (b : Bytes) : Bytes := (b ++ zeros n).take n

/-- 0 or 1. -/
def bit (b : Bool) : Nat := if b then 1 else 0

/-- Bits `hi` to `lo` of a word. -/
def bits (lo len : Nat) (w : Word) : Nat := w.toNat / 2 ^ lo % 2 ^ len

/-- A word from its fields (value, lowest bit). -/
def packWord (l : List (Nat × Nat)) : Word := BitVec.ofNat 32 (l.foldl (fun a p => a + p.1 * 2 ^ p.2) 0)

/-- The first offset at or after `off` whose byte is nonzero. -/
def firstNonzero : Nat → Bytes → Option Nat
  | _, [] => none
  | off, b :: t => if b = 0 then firstNonzero (off + 1) t else some off

/-- All bytes equal (the credential check of R72). -/
def allEqual : Bytes → Bool
  | [] => true
  | b :: t => t.all (· == b)

/-- Bytewise exclusive or. -/
def xorBytes (a b : Bytes) : Bytes := List.zipWith (· ^^^ ·) a b

/-- `n` shifts of a CRC register that shifts left by one with polynomial 0x07. -/
def crc8Shift : Nat → Byte → Byte
  | 0, c => c
  | n + 1, c => crc8Shift n (if c.getLsbD 7 then (c <<< 1) ^^^ 0x07 else c <<< 1)

/-- CRC-8, polynomial 0x07, initial value 0xFF, over bits [31:8] of an arm-link frame (R278). -/
def crc8 (frame : Word) : Byte :=
  (beBytes 3 (frame.toNat / 256)).foldl (fun c b => crc8Shift 8 (c ^^^ b)) 0xFF

/-- `n` shifts of the reflected Castagnoli register. -/
def crc32cShift : Nat → Word → Word
  | 0, c => c
  | n + 1, c => crc32cShift n (if c.getLsbD 0 then (c >>> 1) ^^^ 0x82F63B78 else c >>> 1)

/-- CRC-32C (Castagnoli) (R205, R256). -/
def crc32c (b : Bytes) : Word :=
  (b.foldl (fun c x => crc32cShift 8 (c ^^^ (x.setWidth 32))) 0xFFFFFFFF) ^^^ 0xFFFFFFFF

/-- `n` shifts of the reflected IEEE 802.3 register. -/
def crc32Shift : Nat → Word → Word
  | 0, c => c
  | n + 1, c => crc32Shift n (if c.getLsbD 0 then (c >>> 1) ^^^ 0xEDB88320 else c >>> 1)

/-- The frame check sequence of IEEE 802.3 (R368; PRESUMED, log 5). -/
def crc32 (b : Bytes) : Word :=
  (b.foldl (fun c x => crc32Shift 8 (c ^^^ (x.setWidth 32))) 0xFFFFFFFF) ^^^ 0xFFFFFFFF

/-- Multiplication by g = 0x02 in GF(2^8) modulo 0x11D (R254). -/
def gfDouble (a : Byte) : Byte := if a.getLsbD 7 then (a <<< 1) ^^^ 0x1D else a <<< 1

/-- The product in GF(2^8) over the low `n` bits of `b` (R254). -/
def gfMulBits : Nat → Byte → Byte → Byte
  | 0, _, _ => 0
  | n + 1, a, b => (if b.getLsbD 0 then a else 0) ^^^ gfMulBits n (gfDouble a) (b >>> 1)

/-- The product in GF(2^8) (R254). -/
def gfMul (a b : Byte) : Byte := gfMulBits 8 a b

/-- g to the power `n` (R254). -/
def gfPow : Nat → Byte
  | 0 => 1
  | n + 1 => gfDouble (gfPow n)

/-- The inverse in GF(2^8): the `n`-th power of `a` from below reaches a^254. -/
def gfPowOf (a : Byte) : Nat → Byte
  | 0 => 1
  | n + 1 => gfMul a (gfPowOf a n)

/-- The multiplicative inverse in GF(2^8); 0 for 0. -/
def gfInv (a : Byte) : Byte := gfPowOf a 254

/-- A byte string times a coefficient. -/
def gfScale (c : Byte) (b : Bytes) : Bytes := b.map (gfMul c)

/-- A number as bits, least significant first. -/
def natBits (len v : Nat) : List Bool := (List.range len).map (fun i => v / 2 ^ i % 2 = 1)

/-- Division that rounds toward zero (R307, R308). -/
def tdiv (a b : Int) : Int := Int.tdiv a b

/-- Clamp to ±`m`. -/
def clamp (m v : Int) : Int := if v < -m then -m else if m < v then m else v

/-- A 16-bit two's-complement value. -/
def signed16 (w : BitVec 16) : Int := w.toInt

/-- Replace the first element that satisfies `p`. -/
def listUpd {α : Type} (p : α → Bool) (f : α → α) : List α → List α
  | [] => []
  | x :: t => if p x then f x :: t else x :: listUpd p f t

/-- Remove the first element that satisfies `p`. -/
def listDrop {α : Type} (p : α → Bool) : List α → List α
  | [] => []
  | x :: t => if p x then t else x :: listDrop p t

end Sys2Proof.Machine
end

