-- ==== Sys2Proof/Config.lean ====
section
/-! DEFINITION. What one LW24 die fixes and what the manual names without defining: the identity fuses, the
PUF root, the approved algorithms of R73 (each defined by a standard outside the manual) and the values the
manual leaves open. Every one of them is opaque: no proof can see a value, so a claim holds whatever it is. -/

namespace Sys2Proof.Config

/-- SYS.LOT_LO as the fuses hold it (R100, R108). -/
opaque fuseLotLo : BitVec 30
/-- SYS.LOT_HI as the fuses hold it (R100, R108). -/
opaque fuseLotHi : BitVec 12
/-- Wafer number (R108). -/
opaque fuseWafer : BitVec 5
/-- Die column on the wafer (R108). -/
opaque fuseDieX : BitVec 7
/-- Die row on the wafer (R108). -/
opaque fuseDieY : BitVec 7
/-- Week of wafer test (R108). -/
opaque fuseTestWeek : BitVec 6
/-- Year of wafer test minus 2000 (R108). -/
opaque fuseTestYear : BitVec 7
/-- The stepping byte of the identity fuses: B0 reads 0x10 (R1, R100). -/
def fuseStepping : BitVec 8 := 0x10

/-- The corrected PUF root (the section "Key hierarchy" of 04). -/
opaque pufRoot : BitVec 256

/-- SHA-256 (R73, FIPS 180-4). -/
opaque sha256 : Bytes → BitVec 256
/-- HMAC-SHA-256 under a 256-bit key (R73, FIPS 198-1). -/
opaque hmac : BitVec 256 → Bytes → BitVec 256
/-- The SP 800-108 counter-mode KDF with HMAC-SHA-256 of R75: key-derivation key and fixed input. -/
opaque kdf : BitVec 256 → Bytes → BitVec 256
/-- AES-256 KW wrapping under a key (R73, SP 800-38F). -/
opaque kwWrap : BitVec 256 → Bytes → Bytes
/-- AES-256 KW unwrapping of an intact wrapped key (R73, SP 800-38F): 64 bytes for a ward key pair. -/
opaque kwUnwrap : BitVec 256 → Bytes → BitVec 512
/-- AES-256-XTS encryption of one data unit: data key, tweak key, tweak, plaintext (R73, R74). -/
opaque xtsEncrypt : BitVec 256 → BitVec 256 → Bytes → Bytes → Bytes
/-- AES-256-XTS decryption of one data unit (R73, R74). -/
opaque xtsDecrypt : BitVec 256 → BitVec 256 → Bytes → Bytes → Bytes
/-- AES-256-GCM: key, nonce, additional authenticated data and plaintext give the ciphertext (R73, R233). -/
opaque gcmCipher : BitVec 256 → Bytes → Bytes → Bytes → Bytes
/-- The GCM tag of the same inputs (R233). -/
opaque gcmTag : BitVec 256 → Bytes → Bytes → Bytes → BitVec 128
/-- The `n`-th 256-bit output of the CTR_DRBG (R73, R81): no rule states a value. -/
opaque drbg : Nat → BitVec 256

/-- A free 32-bit value, a fresh one for each index (the manual states no value) (DESIGN CHOICE, log 4). -/
opaque freeWord : Nat → BitVec 32
/-- A free choice of what comes next, a fresh one for each index (the manual states no order). -/
opaque freePick : Nat → Nat

end Sys2Proof.Config
end

