-- ==== Sys2Proof/Machine/Tab.lean ====
section
/-! DEFINITION. Sparse tables: the model's one way to hold a numbered family of like things (wards, cells,
Tumbler entries, counters, cache lines, scratch words). A table is a list of (index, value) pairs in one
canonical form, indexes strictly rising and no entry equal to what an unlisted index reads as, so that
equal tables are equal data. -/

namespace Sys2Proof.Machine

/-- A sparse table. What an unlisted index reads as is given where the table is read (DESIGN CHOICE, log 42). -/
abbrev Tab (α : Type) := List (Nat × α)

/-- The value at index `k`; an unlisted index reads as `d`. -/
def Tab.get {α : Type} (d : α) : Tab α → Nat → α
  | [], _ => d
  | (j, v) :: t, k => if k = j then v else if k < j then d else Tab.get d t k

/-- The table with index `k` removed from the listing, so that it reads as the default. -/
def Tab.drop {α : Type} : Tab α → Nat → Tab α
  | [], _ => []
  | (j, v) :: t, k => if k = j then t else if k < j then (j, v) :: t else (j, v) :: Tab.drop t k

/-- The table with `v` listed at index `k`. -/
def Tab.put {α : Type} : Tab α → Nat → α → Tab α
  | [], k, v => [(k, v)]
  | (j, w) :: t, k, v =>
    if k = j then (k, v) :: t else if k < j then (k, v) :: (j, w) :: t else (j, w) :: Tab.put t k v

/-- Write `v` at index `k`; writing what an unlisted index reads as removes the listing. -/
def Tab.set {α : Type} [DecidableEq α] (d : α) (t : Tab α) (k : Nat) (v : α) : Tab α :=
  if v = d then t.drop k else t.put k v

/-- Change the value at index `k` by `f`. -/
def Tab.upd {α : Type} [DecidableEq α] (d : α) (t : Tab α) (k : Nat) (f : α → α) : Tab α :=
  t.set d k (f (t.get d k))

/-- Change every listed value by `f`, keeping the canonical form. -/
def Tab.mapAll {α : Type} [DecidableEq α] (d : α) (f : Nat → α → α) : Tab α → Tab α
  | [] => []
  | (j, v) :: t => if f j v = d then Tab.mapAll d f t else (j, f j v) :: Tab.mapAll d f t

/-- The indexes listed. -/
def Tab.keys {α : Type} (t : Tab α) : List Nat := t.map Prod.fst

/-- Every listed index is above `lo`, the indexes rise strictly, and no value equals what an unlisted index
`k` reads as, `d k`. -/
def Tab.wfFrom {α : Type} [DecidableEq α] (d : Nat → α) : Option Nat → Tab α → Bool
  | _, [] => true
  | lo, (j, v) :: t =>
    (match lo with
     | none => true
     | some l => decide (l < j)) && decide (v ≠ d j) && Tab.wfFrom d (some j) t

/-- The canonical form of a table whose unlisted index `k` reads as `d k` (DESIGN CHOICE, log 42). -/
def Tab.wf {α : Type} [DecidableEq α] (d : Nat → α) (t : Tab α) : Bool := Tab.wfFrom d none t

end Sys2Proof.Machine
end

