-- ==== Sys2Proof/Machine/State.lean ====
section
/-! DEFINITION. The state of the LW24 as plain data: one structure per block of R114 and per unit the manual
gives state to, each field with its value at reset, and the reasons a step can stop. A trailing comment on a
field names the rule, the section file and the reset value. -/

namespace Sys2Proof.Machine

/-- The six modes (R20), encoded in PWR.MODE.MODE as in R354. -/
inductive Mode where
  | deepStandby
  | retentionSleep
  | provisioning
  | management
  | service
  | safeHold
deriving DecidableEq, Repr

/-- The six ward states (R49). -/
inductive WardState where
  | unprovisioned
  | sealed
  | opened
  | faulted
  | resetting
  | destroyed
deriving DecidableEq, Repr

/-- A running mode transition (R334). -/
inductive Transition where
  /-- R336. -/
  | enterService
  /-- Steps 1–3 of R337 done; step 4 awaited. -/
  | leaveService
  /-- R339. -/
  | enterStandby
  /-- R341. -/
  | enterSleep
  /-- Steps 1–3 of R87 done; steps 4–6 awaited. -/
  | zeroize
deriving DecidableEq, Repr

/-- An event as it waits for the log (R364, R365). -/
structure Event where
  code : BitVec 16
  late : Bool := false
  replayed : Bool := false
  taiValid : Bool := false
  boot : Word := 0
  beat : DWord := 0
  tai : DWord := 0
  index : BitVec 16 := 0
  arg0 : BitVec 16 := 0
  arg1 : Word := 0
deriving DecidableEq, Repr

/-- What the block sends on its host link (R65). -/
inductive Out where
  /-- Read data, with its Relaxed Ordering attribute (R119). -/
  | data (addr : DWord) (bytes : Bytes) (relaxed : Bool)
  | completion (addr : DWord) (bytes : Bytes)
  | event (addr : DWord) (bytes : Bytes)
  | msix (vector : Nat)
  | read (addr : DWord) (len : Nat)
deriving DecidableEq, Repr

/-- A completion entry on its way to the ring (R136): what stands in it but the beat and the submission head, which are
those of the beat it is written in. -/
structure Entry where
  ctx : Ctx
  addr : DWord
  tag : Nat
  status : Nat
  orig : Nat
  detail : Nat
  phase : Bool
  chained : Bool
deriving DecidableEq, Repr

/-- Output that waits until the function may issue DMA (R127). -/
inductive Held where
  | data (addr : DWord) (bytes : Bytes)
  | entry (e : Entry)
deriving DecidableEq, Repr

/-- The answer to the last read, configuration request, JTAG or SMBus access from outside. -/
inductive Resp where
  | none
  | bytes (b : Bytes)
  | abort
  | unsupported
  /-- Configuration Request Retry Status (R125). -/
  | retry
  | nack
deriving DecidableEq, Repr

/-- The start-up, identity and rejection registers (R108, R330, R407, R408). -/
structure SysBlk where
  stage : BitVec 4 := 1             -- R108 05 | 0x1
  source : BitVec 4 := 0            -- R108 05 | 0x0
  zeroizedAtWake : Bool := false    -- R108 05 | 0
  fuseCorrected : BitVec 4 := 0     -- R108 05 | 0
  bootBeats : Word := 0             -- R108 05 | 0
  stalled : Bool := false           -- R330 15 | 0
  irqTick : Bool := false           -- R408 19 | 0
  rejAddr : BitVec 18 := 0          -- R407 19 | 0
  rejMore : BitVec 6 := 0           -- R407 19 | 0
  rejValid : Bool := false          -- R407 19 | 0
  rejValue : Word := 0              -- R407 19 | 0
  rejBeat : DWord := 0              -- R407 19 | DESIGN CHOICE 0, log 3
  rejNow : List (BitVec 18 × Word) := [] -- R407 19 | none: the rejections of beat rejBeat, ascending in address
  rejFresh : Bool := true           -- R407 19 | DESIGN CHOICE true, log 3: VALID was 0 as beat rejBeat began, or was cleared in it
  stallNoWrite : Nat := 0           -- R329 15 | 0, whole ticks with a queued sub-block and no sector write (DESIGN CHOICE 0, log 3)
  stallNoRelease : Nat := 0         -- R329 15 | 0, whole ticks at the cap with no unit released (DESIGN CHOICE 0, log 3)
  wroteThisTick : Bool := false     -- R329 15 | DESIGN CHOICE false, log 3
  releasedThisTick : Bool := false  -- R329 15 | DESIGN CHOICE false, log 3
  boot : Option Boot := none        -- R96 05 | none: no start-up in progress; what a running one meets (log 39)
  zeroInBoot : Bool := false        -- R87 04 | DESIGN CHOICE false, log 3: Z fell within the running start-up
deriving DecidableEq, Repr

/-- The clock, the beat counter, TAI and PPS (R36–R46). -/
structure ClkBlk where
  beat : DWord := 0                 -- R36 02 | 0
  tickDone : Nat := 0               -- R3 00 | 0, the last tick whose boundary actions are done
  due : List DWord := []            -- R3 00 | none: boundary beats reached whose actions have not run, oldest first
  src : Bool := false               -- R46 02 | 0
  srcActive : Bool := false         -- R46 02 | 0
  lock : Bool := false              -- R46 02 | 0
  pllEnabled : Bool := false        -- R96 05 | DESIGN CHOICE false, log 3
  taiValid : Bool := false          -- R46 02 | 0
  holdover : Bool := false          -- R46 02 | 0
  ppsFar : Bool := false            -- R46 02 | 0
  switchRefused : Bool := false     -- R46 02 | 0
  taiRefused : Bool := false        -- R46 02 | 0
  pllLoss : Bool := false           -- R46 02 | 0
  beatLatch : Word := 0             -- R46 02 | 0
  taiLatch : Word := 0              -- R46 02 | 0
  taiQ : BitVec 96 := 0             -- R38 02 | 0, TAI in units of 2^-32 ns
  setAtPps : Option DWord := none   -- R40 02 | 0 (not pending); the beat the wait began
  setPrior : Bool := false          -- R8 00 | DESIGN CHOICE false, log 3: another was pending when the pending SET_AT_PPS was written
  ppsEdge : DWord := 0              -- R46 02 | 0
  ppsError : Word := 0              -- R46 02 | 0
  lastEdge : Option DWord := none   -- R43 02 | none in this life
  leftOff : DWord := 0              -- R43 02 | DESIGN CHOICE 0, log 3
  slewLeft : Int := 0               -- R42 02 | DESIGN CHOICE 0 (no slew), log 3
  slewDue : DWord := 0              -- R42 02 | DESIGN CHOICE 0, log 3
  ppsOut : Bool := false            -- R44 02 | low (both enabling bits are 0)
  ppsOutFrom : DWord := 0           -- R44 02 | DESIGN CHOICE 0, log 3
deriving DecidableEq, Repr

/-- The four device keys (R75). -/
structure Keys where
  kek : BitVec 256
  ledger : BitVec 256
  verify : BitVec 256
  slot : BitVec 256
deriving DecidableEq, Repr

/-- Roles, keys, self-tests and zeroization (R69–R92), with the CSPs held in MRAM. -/
structure SecBlk where
  provisioned : Bool := false               -- R92 04 | 0
  session : Bool := false                   -- R92 04 | 0
  error : Bool := false                     -- R92 04 | 0
  zeroizePending : Bool := false            -- R92 04 | 0
  jtagLocked : Bool := false                -- R92 04 | 0
  officerLocked : Bool := false             -- R92 04 | 0
  errorCause : Byte := 0                    -- R92 04 | 0x00
  selftest : Word := 0                      -- R92 04 | 0
  officerFails : BitVec 4 := 0              -- R92 04 | 0
  zeroCount : Word := 0                     -- R92 04 | 0
  lockoutLeft : Nat := 0                    -- R70 04 | DESIGN CHOICE 0, log 3
  idleTicks : Nat := 0                      -- R71 04 | DESIGN CHOICE 0, log 3
  fetchedThisTick : Bool := false           -- R71 04 | DESIGN CHOICE false, log 3: an admin entry was fetched, or the session opened, in the running tick
  salt : Option (BitVec 256) := none        -- R75 04 | none, fresh from the factory (provisioning section)
  verifier : Option (BitVec 256) := none    -- R78 04 | none, as salt
  staging : Option (BitVec 256 × BitVec 256) := none -- R105 05 | none
  keys : Option Keys := none                -- R75 04 | none before derivation
  telemetry : Option Bytes := none          -- R79 04 | none (DZ_NO_KEY reads 1, R371)
  drbgReady : Bool := false                 -- R81 04 | DESIGN CHOICE false, log 3
  drbgIndex : Nat := 0                      -- R81 04 | the model's own index of DRBG outputs, DESIGN CHOICE 0, log 4
  drbgSince : Nat := 0                      -- R81 04 | DESIGN CHOICE 0, log 3
  bootCount : Word := 0                     -- R74 04 | DESIGN CHOICE 0, log 3
deriving DecidableEq, Repr

/-- A wake event latched in AON (R344). -/
structure WakeEvent where
  source : BitVec 4
  beat : DWord
  late : Bool
  boot : Word
deriving DecidableEq, Repr

/-- Domains, votes and modes (R331–R354), and the pins AON watches. -/
structure PwrBlk where
  powered : Bool := false                     -- R331 16 | AON switch; false: the part before its first power-on, log 2
  pfLow : Bool := true                        -- R380 18 | asserted before power-on
  perstLow : Bool := false                    -- R388 18 | DESIGN CHOICE false, log 3
  votes : BitVec 24 := 1                      -- R354 16 | 0x0000_0001
  votesInv : BitVec 24 := 0xFFFFFE            -- R346 16 | complement of the table
  sleepVote : Bool := false                   -- R354 16 | 0
  mode : Mode := .management                  -- R354 16 | 0b011
  transition : Option Transition := none      -- R354 16 | 0 (none)
  transBeat : DWord := 0                      -- R337 16 | DESIGN CHOICE 0, log 3
  domains : BitVec 7 := 0                     -- R354 16 | 0
  voteRefused : Bool := false                 -- R354 16 | 0
  refuseCause : BitVec 3 := 0                 -- R354 16 | 0
  refusedSlot : BitVec 5 := 0                 -- R354 16 | 0
  slept : Option DWord := none                -- R353 16 | none: the beat of the sleep vote last taken
  released : Option (DWord × BitVec 7) := none -- R353 16 | none: the beat of the last release and the causes it cleared
  lpOverload : Bool := false                  -- R354 16 | vote bank: DESIGN CHOICE false, log 3
  priorInvalid : Bool := false                -- R354 16 | 0
  aonLost : Byte := 0                         -- R354 16 | 0
  holdCause : BitVec 7 := 0                   -- R354 16 | 0
  priorVotes : BitVec 24 := 0                 -- R354 16 | vote bank: DESIGN CHOICE 0, log 3
  lastStop : BitVec 3 := 0                    -- R354 16 | vote bank: DESIGN CHOICE 0 (none), log 3
  scratch : Tab Word := []                    -- R346 16 | wake bank: DESIGN CHOICE all words 0, log 3
  aonEvents : List Event := []                -- R346 16 | DESIGN CHOICE empty, log 3
  coldDue : Option (BitVec 4) := none         -- R340 16 | DESIGN CHOICE none, log 3 (a cold source that waits for PF_N)
  wakes : List WakeEvent := []                -- R344 16 | DESIGN CHOICE none latched, log 3
  zeroLatched : Bool := false                 -- R86 04 | DESIGN CHOICE false, log 3
  wakeCause : BitVec 4 := 0                   -- R346 16 | wake bank: DESIGN CHOICE 0, log 3
  wakeStamp : DWord := 0                      -- R346 16 | wake bank: DESIGN CHOICE 0, log 3
  wakeLate : Bool := false                    -- R346 16 | wake bank: DESIGN CHOICE false, log 3
  wakeBoot : Word := 0                        -- R346 16 | wake bank: DESIGN CHOICE 0, log 3
deriving DecidableEq, Repr

/-- A completion or event record that waits for its vector's message (R118). -/
structure Pend where
  ctx : Ctx
  vector : Nat
  count : Byte
  time : Byte
  beat : DWord
deriving DecidableEq, Repr

/-- One ring-entry read on its way (R122, R142). -/
structure RingRead where
  ctx : Ctx
  slot : Nat
  /-- 0: on its way; 1: failed once and not yet read again; 2: read again. -/
  tries : Nat := 0
  /-- The beat of the first failure, from which the 1 µs to the retry runs. -/
  failed : DWord := 0
  /-- The beat it was issued in, from which the completion timeout runs (R121). -/
  sent : DWord := 0
deriving DecidableEq, Repr

/-- The PCIe endpoint (R109–R131) (PRESUMED, log 5). -/
structure HostBlk where
  speed : BitVec 4 := 0               -- R131 06 | 0
  width : BitVec 4 := 0               -- R131 06 | 0
  inL1 : Bool := false                -- R131 06 | 0
  d3hot : Bool := false               -- R131 06 | 0
  bar0Partial : Bool := false         -- R131 06 | 0
  bar2Stray : Bool := false           -- R131 06 | 0
  bar4Write : Bool := false           -- R131 06 | 0
  adminHalt : Bool := false           -- R131 06 | 0
  dmaAbort : Bool := false            -- R131 06 | 0
  bar4Span : Bool := false            -- R131 06 | 0
  mse : Bool := false                 -- R122 06 | PRESUMED 0 (PCI Command register), log 5
  bme : Bool := false                 -- R127 06 | PRESUMED 0 (PCI Command register), log 5
  msixEnable : Bool := false          -- R117 06 | PRESUMED 0 (PCI MSI-X capability), log 5
  msixMask : Bool := false            -- R120 06 | PRESUMED 0 (PCI MSI-X capability), log 5
  bars : Tab Word := []               -- R112 06 | PRESUMED 0 (PCI base address registers), log 5
  devCtl : BitVec 16 := 0x2810        -- R109 06 | PRESUMED 0x2810 (PCI Express: 128 B payload, 512 B read request, No Snoop and Relaxed Ordering enabled), log 5
  devCtl2 : BitVec 16 := 0            -- R121 06 | PRESUMED 0 (PCI Express: the default completion timeout, 10-bit tags off), log 5
  linkCtl : BitVec 16 := 0            -- R129 06 | PRESUMED 0 (PCI Express: ASPM off), log 5
  aerUncorr : Word := 0               -- R122 06 | PRESUMED 0 (PCI Express: no error logged), log 5
  aerCorr : Word := 0                 -- R122 06 | PRESUMED 0 (PCI Express: no error logged), log 5
  aerCtl : Word := 0                  -- R109 06 | PRESUMED 0 (PCI Express: ECRC off), log 5
  barFrom : DWord := 0                -- R127 06 | DESIGN CHOICE 0, log 3: the beat from which BAR accesses are accepted
  pba : BitVec 256 := 0               -- R403 19 | 0
  pend : List Pend := []              -- R118 06 | DESIGN CHOICE empty, log 3
  flr : Option DWord := none          -- R125 06 | none running; the beat F
  capPaused : Bool := false           -- R125 06 | DESIGN CHOICE false, log 3
  reads : List RingRead := []         -- R142 07 | DESIGN CHOICE none outstanding, log 3
  out : List Out := []                -- R65 04 | what has been sent, newest last (the model's own), empty
  held : List Held := []              -- R127 06 | DESIGN CHOICE empty, log 3
  resp : Resp := .none                -- R113 06 | the model's own: the answer to the last outside read
deriving DecidableEq, Repr

/-- A chain whose LAST entry has not been fetched (R145). -/
structure Chain where
  first : Bytes
  rest : List Bytes := []
  bad : Option Nat := none
deriving DecidableEq, Repr

/-- One context's submission and completion ring (R132–R137). -/
structure Ring where
  sqBase : DWord := 0           -- R134 07 | 0
  cqBase : DWord := 0           -- R134 07 | 0
  sqLog : Nat := 0              -- R161 07 | 0
  cqLog : Nat := 0              -- R161 07 | 0
  sqHead : Nat := 0             -- R161 07 | 0
  sqTail : Nat := 0             -- R161 07 | 0
  cqHead : Nat := 0             -- R161 07 | 0
  cqTail : Nat := 0             -- R161 07 | 0
  phase : Bool := false         -- R161 07 | 0
  reserved : Nat := 0           -- R143 07 | 0
  next : Nat := 0               -- R142 07 | next slot to request, the model's own, 0
  rangeBit : Bool := false      -- R161 07 | 0
  aheadBit : Bool := false      -- R161 07 | 0
  chain : Option Chain := none  -- R161 07 | none (CHAIN_OPEN 0)
  chainTicks : Nat := 0         -- R148 07 | 0
deriving DecidableEq, Repr

/-- A FLUSH_QUEUE in progress on a ward (R154). -/
structure Flush where
  job : Nat
  tail : Nat
  /-- The beat X in which it was executed. -/
  at_ : DWord := 0
  sqBell : Option (BitVec 16) := none
  cqBell : Option (BitVec 16) := none
  aborted : Nat := 0
  torn : Nat := 0
deriving DecidableEq, Repr

/-- An extent: a group and at most 16 runs (start, units) of data units (R253). -/
structure Extent where
  group : GroupId := 0
  runs : List (Nat × Nat) := []
deriving DecidableEq, Repr

/-- A ward's open append block (R206). -/
structure OpenBlk where
  stream : Bytes := []
  /-- Offset in the stream just past the last record byte, without the padding to 8 bytes. -/
  last : Nat := 0
  firstOff : Option Nat := none
  count : Nat := 0
  firstSeq : DWord := 0
  ticks : Nat := 0
deriving DecidableEq, Repr

/-- What a doorbell did in the running beat (R137a, R139): whether the status bit it set was set before. -/
inductive BellDone where
  | taken
  | range (was : Bool)
  | ahead (was : Bool)
deriving DecidableEq, Repr

/-- One ward (R48–R64, R77, R134, R161, R240). -/
structure Ward where
  state : WardState := .unprovisioned           -- R64 03 | 0
  enrol : Bool := false                         -- R64 03 | 0
  lastFault : BitVec 2 := 0                     -- R64 03 | 0
  fails : Nat := 0                              -- R64 03 | 0
  appendFull : Bool := false                    -- R64 03 | 0
  epoch : Word := 0                             -- R64 03 | 0
  high : BitVec 48 := 0                         -- R64 03 | 0
  window : List (BitVec 48 × Byte) := []        -- R240 11 | empty
  winOldest : Nat := 0                          -- R240 11 | 0, WIN_OLDEST
  block : Extent := {}                          -- R64 03 | 0 units
  append : Extent := {}                         -- R64 03 | 0 units
  malformedLimit : BitVec 16 := 64              -- R64 03 | 64
  malformed : Nat := 0                          -- R56 03 | 0
  wrapped : Bytes := []                         -- R77 04 | no key
  verifier : BitVec 256 := 0                    -- R77 04 | DESIGN CHOICE 0, log 3
  keyPresent : Bool := false                    -- R77 04 | no key
  writePos : Nat := 0                           -- R240 11 | 0
  openPos : Nat := 0                            -- R206 09 | block number of the next append block to open, 0
  nextSeq : DWord := 0                          -- R205 09 | 0
  shedGap : Word := 0                           -- R205 09 | 0
  pendingLoss : Nat := 0                        -- R208 09 | 0
  lossSeq : DWord := 0                          -- R208 09 | 0, the first SEQ of the records lost
  seqKept : DWord := 0                          -- R240 11 | 0, NEXT_SEQ as the context entry holds it
  gapKept : Word := 0                           -- R240 11 | 0, SHED_GAP as the context entry holds it
  openBlk : Option OpenBlk := none              -- R206 09 | none
  trims : List (Nat × Nat) := []                -- R170 08 | none (start, count)
  configured : Bool := false                    -- R161 07 | 0
  ring : Ring := {}                             -- R161 07 | 0
  weight : Byte := 0                            -- R161 07 | 0
  burst : Nat := 0                              -- R161 07 | 0
  credit : Nat := 0                             -- R161 07 | 0
  vector : Byte := 0                            -- R131 06 | 0
  coalCount : Byte := 0                         -- R131 06 | 0
  coalTime : Byte := 0                          -- R131 06 | 0
  flush : Option Flush := none                  -- R161 07 | 0 (not flushing)
  sched : Option (Byte × Nat) := none           -- R151 07 | none: weight and burst that wait for the ward's next turn
  bellBeat : DWord := 0                         -- R139 07 | DESIGN CHOICE 0, log 3
  bells : List BellDone := []                   -- R139 07 | none: what the doorbells that landed in beat bellBeat did
deriving DecidableEq, Repr

/-- How one block of a READ stands (R168, R187). -/
inductive BlkRes where
  | wait
  /-- It missed, the RAT gave this policy, and it waits for a way or for the fill of its line; `counted` says that it has
  been counted as a hit (R219, R220). -/
  | blocked (policy : Nat) (counted : Bool)
  | zero
  | plain (data : Bytes)
  | parity (data : Bytes)
  | retried (data : Bytes)
  | unrecoverable
  | integrity
deriving DecidableEq, Repr

/-- Where a fetched job stands. -/
inductive JobPhase where
  /-- An INDIRECT job whose fragment table is being read (R146). -/
  | needTable
  /-- Held on an equal unfinished intent number (R158). -/
  | heldIntent
  /-- Checks of R149 passed; may run. -/
  | ready
  /-- Waits on an earlier job (R189–R191) or on Service (R338). -/
  | waiting
  /-- Held on a RESETTING ward or a running flush (R51, R156, R179, R180). -/
  | heldReset
  /-- Write data requested from the host (R169). -/
  | needData
  /-- Write data on die. -/
  | dataIn
  /-- Waits for the Key Context Cache (R227). -/
  | needKey
  /-- Waits to reserve its intent (R238, R239). -/
  | intake
  /-- Its INTENT is in the Ledger's hands (R235). -/
  | journal
  /-- A READ that waits for media (R168). -/
  | media
  /-- A RESET_WARD, DESTROY_WARD, FLUSH_QUEUE, ZEROIZE or WAY_RESTORE in progress. -/
  | running
deriving DecidableEq, Repr

/-- One fetched and unfinished job (R145, R149). `id` is the model's own fetch number. -/
structure Job where
  id : Nat
  ctx : Ctx
  entry : Bytes
  segs : List (DWord × Nat) := []
  chained : Bool := false
  phase : JobPhase := .ready
  data : Bytes := []
  blks : List BlkRes := []
  /-- The beat in which its last entry was fetched (R71, R139). -/
  at_ : DWord := 0
  /-- The beat in which it came to wait for its intent (R22). -/
  since : DWord := 0
  /-- Reads of its table or data that are out, and those that wait for a tag (R121). -/
  asked : Nat := 0
  toAsk : List (DWord × Nat) := []
deriving DecidableEq, Repr

/-- The admin context and the Roundabout (R124, R150–R153, R161–R163). -/
structure RingBlk where
  enable : Bool := false               -- R161 07 | 0
  fetching : Bool := false             -- R161 07 | 0 (RUNNING)
  applying : Bool := false             -- R162 07 | none: a placement waits for the old ring's jobs
  placed : Bool := false               -- R162 07 | none: a placement has been applied
  admin : Ring := { sqLog := 4, cqLog := 4 }  -- R161 07 | 0x0000_0404 sizes, indices 0
  adminHigh : BitVec 48 := 0           -- R174 08 | 0
  adminWindow : List (BitVec 48 × Byte) := [] -- R174 08 | empty
  adminOldest : Nat := 0               -- R240 11 | 0, WIN_OLDEST of the admin context
  highLatch : BitVec 16 := 0           -- R64 03 | 0
  lastServed : Nat := 4095             -- R151 07 | DESIGN CHOICE 0xFFF (the scan starts at 0x000), log 3
  turn : Option WardId := none         -- R152 07 | none
  turnLeft : Nat := 0                  -- R152 07 | 0
  turnPast : Bool := false             -- R152 07 | false: the turn has gone past its burst
  adminTaken : Nat := 0                -- R153 07 | 0, admin entries requested since the last ward turn began
  stopping : Bool := false             -- R162 07 | false: fetch was active as ENABLE was cleared
  jobs : List Job := []                -- R149 07 | none fetched
  nextJob : Nat := 0                   -- R191 08 | the model's own fetch number, 0
deriving DecidableEq, Repr

/-- One Tumbler entry (R199, R203, R204): its image, its sampling count and its token bucket in 1/65,536 byte
as of beat `at`. -/
structure TumbEntry where
  image : Bytes := []
  count : BitVec 16 := 0
  level : Nat := 0
  at_ : DWord := 0
deriving DecidableEq, Repr

/-- What the Tumbler has made of a frame in reception (R183, R202). -/
inductive RxClass where
  /-- Its EtherType has not been received. -/
  | waits
  | unmatched
  /-- Entry `idx` won, `tie` says over another of its priority; `old` is that entry as it stood, where a TUMBLER_WRITE has
  replaced it since (R183). -/
  | won (idx : Nat) (tie : Bool) (old : Option TumbEntry)
deriving DecidableEq, Repr

/-- A frame in reception (R195, R198): TAI at its SFD, or the beat counter where TAI was not valid, whether a codeword
carrying it was corrected, and its classification. -/
structure Rx where
  stamp : DWord
  valid : Bool
  fixed : Bool := false
  cls : RxClass := .waits
deriving DecidableEq, Repr

/-- One capture port (R195, R210). STATUS.LINK_UP follows from the three lock bits. -/
structure Port where
  blockLock : Bool := false   -- R210 09 | 0
  amLock : Bool := false      -- R210 09 | 0
  hiBer : Bool := false       -- R210 09 | 0
  linkLost : Bool := false    -- R210 09 | 0
  fecUncorr : Bool := false   -- R210 09 | 0
  rx : Option Rx := none      -- R195 09 | none in reception
deriving DecidableEq, Repr

/-- A sealed append block that waits for intake (R207, R239). -/
structure SealedBlk where
  id : Nat
  /-- The beat it was sealed in (R22). -/
  at_ : DWord
  ward : WardId
  block : Nat
  plain : Bytes
  records : Nat
  firstSeq : DWord
  nextSeq : DWord
deriving DecidableEq, Repr

/-- Capture (R193–R210). -/
structure CapBlk where
  ports : Tab Port := []            -- R210 09 | 0
  tumbler : Tab TumbEntry := []     -- R210 09 | 0, no entry valid
  tumbGen : Word := 0               -- R210 09 | 0
  queue : List SealedBlk := []      -- R320 15 | DESIGN CHOICE empty, log 3
deriving DecidableEq, Repr

/-- One cached sub-block with its 64-byte tag (R212, R257). -/
structure Sub where
  sector : Sector
  dirty : Bool := false
  policy : BitVec 3 := 0
  age : Nat := 0
  queued : Bool := false
deriving DecidableEq, Repr

/-- One Stripe Cache line (R211, R212). -/
structure Line where
  group : GroupId := 0
  stripe : Nat := 0
  column : Nat := 0
  cls : BitVec 3 := 0
  busy : Bool := false
  used : Nat := 0
  subs : Tab (Option Sub) := []
deriving DecidableEq, Repr

/-- The Stripe Cache (R211–R229). -/
structure CacheBlk where
  ready : Bool := false         -- R229 10 | 0
  wayRetired : Bool := false    -- R229 10 | 0
  retired : BitVec 16 := 0      -- R229 10 | MRAM: DESIGN CHOICE 0 (no way retired), log 3
  lines : Tab Line := []        -- R212 10 | every line invalid (R102)
  clock : Nat := 0              -- R220 10 | the model's own LRU count, 0
  errors : Tab Nat := []        -- R223 10 | 0 in the tick
  ratRange : Tab (Nat × Nat) := [] -- R218 10 | (0, 0): the WARD_LO and WARD_HI in effect, per RAT entry
  drain : List (Nat × SubAddr) := []  -- R224 10 | none (DRAINING 0)
  retBeat : DWord := 0          -- R225 10 | DESIGN CHOICE 0, log 3
  retNow : BitVec 16 := 0       -- R225 10 | 0: the ways retired in beat retBeat
  waits : List (Nat × SubAddr × Nat) := [] -- R220 10 | none: committed sub-blocks that wait for a way: class, address, policy
deriving DecidableEq, Repr

/-- One Key Context Cache entry (R226). -/
structure KccEntry where
  ward : WardId
  epoch : Word
  keys : BitVec 512
deriving DecidableEq, Repr

/-- The Key Context Cache (R226–R229): entries oldest-used first, and the wards whose misses wait in order. -/
structure KccBlk where
  ready : Bool := false              -- R229 10 | 0
  busyUntil : DWord := 0             -- R102 05 | DESIGN CHOICE 0 (no invalidation running), log 3
  entries : List KccEntry := []      -- R229 10 | none valid
  misses : List WardId := []         -- R227 10 | none
deriving DecidableEq, Repr

/-- A Ledger DATA record (R234) and the first of its slots (R230). -/
structure DataRec where
  serial : DWord
  addr : SubAddr
  sector : Sector
  slot : Nat := 0
  live : Bool := true
deriving DecidableEq, Repr

/-- A Ledger PARITY_DELTA record (R234): ciphertext delta (or whole parity) and covered-part delta; the first of its slots,
and the payload unit reserved for it, in which a deferred one is resolved (R238). -/
structure ParRec where
  serial : DWord
  addr : SubAddr
  kind : BitVec 2
  full : Bool
  deferred : Option Nat
  delta : Bytes
  covDelta : Bytes
  slot : Nat := 0
  unit : Nat := 0
  live : Bool := true
deriving DecidableEq, Repr

/-- What a state-changing command without payload does as its COMMIT is written (R157, R235). -/
inductive Effect where
  | none
  /-- What the opcode and the CMD bytes of the entry say. -/
  | entry
  | verifier (w : WardId) (v : BitVec 256)
  | officer (v : BitVec 256)
  | telemetry (key : Bytes)
  | create (w : WardId) (x : Ward)
  | resize (w : WardId) (block append : Extent)
  | tumbler (first : Nat) (images : List Bytes)
  /-- The end of a RESET_WARD, or of a DESTROY_WARD. -/
  | reset (w : WardId) (destroy : Bool)
deriving DecidableEq, Repr

/-- How far an intent has come (R235). -/
inductive IntentPhase where
  | intent
  | records
  /-- Every record is written; the COMMIT waits for the end of a ward reset (R59). -/
  | held
  | commit
  | committed
deriving DecidableEq, Repr

/-- One live Ledger intent with its records (R232–R237). -/
structure Intent where
  serial : DWord
  boot : Word
  ctx : Ctx
  capture : Bool := false
  job : Option Nat := none
  number : BitVec 48 := 0
  op : Byte := 0
  space : Byte := 0
  block : Nat := 0
  count : Nat := 0
  group : GroupId := 0
  firstSeq : DWord := 0
  records : Nat := 0
  datas : List DataRec := []
  parities : List ParRec := []
  phase : IntentPhase := .intent
  nextSeq : DWord := 0
  /-- Payload records written so far. -/
  written : Nat := 0
  /-- Written in an earlier life and waiting for replay (R245), and whether replay has taken its records up. -/
  replay : Bool := false
  applied : Bool := false
  /-- The INTENT's slot, and serial and slot of its COMMIT and of those of its resolved deltas. -/
  slot : Nat := 0
  commits : List (DWord × Nat) := []
  /-- The resolved records of deferred deltas on their way, by index (R236). -/
  resolving : List (Nat × ParRec) := []
  /-- ARGS (R234). -/
  args : Bytes := []
  /-- DETAIL of the completion and of the COMMIT, and what the COMMIT brings. -/
  detail : Nat := 0
  effect : Effect := .none
  /-- The write policy its parity is kept under (R217). -/
  policy : Nat := 2
deriving DecidableEq, Repr

/-- What one queued slot run of the Ledger port carries (R231). -/
inductive PortItem where
  | intent (serial : DWord)
  | data (serial : DWord) (index : Nat)
  | parity (serial : DWord) (index : Nat)
  | commit (serial : DWord)
  /-- The resolved record of deferred delta `index`, and its COMMIT (R236). -/
  | resolved (serial : DWord) (index : Nat)
  | recommit (serial : DWord) (index : Nat)
  /-- A TYPE = 0 write into a head slot; `unit` says that it frees a payload unit. -/
  | release (slot : Nat) (unit : Bool)
  /-- The INTENT_MARK in this slot. -/
  | mark (slot : Nat)
deriving DecidableEq, Repr

/-- The INTENT_MARK records (R234). -/
inductive MarkKind where
  | sealed (beat tai : DWord) (cause : Nat)
  /-- Ward, records of its open block, its SHED_GAP and the block's first SEQ. -/
  | appendOpen (l : List ((WardId × Nat) × (Word × DWord)))
  | zeroizePending
  | torn (cell : CellId) (a : SubAddr)
deriving DecidableEq, Repr

/-- A live INTENT_MARK record. -/
structure Mark where
  kind : MarkKind
  boot : Word
  serial : DWord
  slot : Nat
deriving DecidableEq, Repr

/-- The Ledger (R230–R247). -/
structure LedgerBlk where
  sealedAtStop : Bool := false        -- R247 11 | 0
  replaying : Bool := false           -- R247 11 | 0
  atCap : Bool := false               -- R247 11 | 0
  tagFail : Bool := false             -- R247 11 | 0
  slotRetired : Bool := false         -- R247 11 | 0
  nextSerial : DWord := 0             -- R247 11 | 0 before start-up; 1 in a life (R232)
  serialLatch : Word := 0             -- R247 11 | 0
  slots : Tab Bytes := []             -- R230 11 | MRAM: DESIGN CHOICE every slot FREE, log 3; what was last written to each slot
  retired : List Nat := []            -- R246 11 | wear records in MRAM: DESIGN CHOICE no slot retired, log 3
  port : List (PortItem × Nat) := []  -- R231 11 | empty: item, slots left to write
  waits : List (PortItem × Nat) := [] -- R320 15 | none: COMMITs, releases and marks that wait for room at the port
  intents : List Intent := []         -- R234 11 | no live record
  marks : List Mark := []             -- R234 11 | no live INTENT_MARK
  hostTurns : Nat := 0                -- R324 15 | host jobs taken since the last capture block, 0
  owed : Option Nat := none           -- R239 11 | none: the arrival number of the intent that a release has let reserve
deriving DecidableEq, Repr

/-- A rebuild or a scrub of a group (R268–R274). -/
structure Work where
  member : Nat := 0       -- R274 12 | 0
  active : Bool := false  -- R274 12 | 0
  copy : Bool := false    -- R274 12 | 0
  pending : Bool := false -- R274 12 | 0
  rate : Nat := 0         -- R274 12 | 0
  front : Nat := 0        -- R274 12 | 0
  sub : Nat := 0          -- R273 12 | 0
  credit : Nat := 0       -- R270 12 | 0
  paused : Bool := false  -- R272 12 | DESIGN CHOICE false, log 3
deriving DecidableEq, Repr

/-- One redundancy group (R248–R274). -/
structure Group where
  defined : Bool := false          -- R274 12 | 0
  level : Nat := 0                 -- R274 12 | 0
  members : List CellId := []      -- R274 12 | 0 members
  spare : Option CellId := none    -- R274 12 | 0 (none)
  failed : List Nat := []          -- R274 12 | 0, failed member indices
  down : Bool := false             -- R249 12 | 0 (state FAILED)
  stripes : Nat := 0               -- R274 12 | 0
  initFront : Nat := 0             -- R274 12 | 0
  rebuild : Work := {}             -- R274 12 | 0
  scrub : Work := {}               -- R274 12 | 0
deriving DecidableEq, Repr

/-- What one media read is for (R213, R263). -/
inductive ReadFor where
  | fill
  | oldParity
  | verify
deriving DecidableEq, Repr

/-- One media read on its way (R258). -/
structure MediaRead where
  key : Nat
  addr : SubAddr
  cell : CellId
  why : ReadFor
  cls : BitVec 3
  /-- A parity-path read of recovery `key` (R264). -/
  path : Option Nat := none
  /-- A read miss under WRITE_AROUND: the sector goes to the host and no line takes it (R217). -/
  around : Bool := false
  /-- The verified sector, once read. -/
  img : Option Sector := none
deriving DecidableEq, Repr

/-- One dual-path recovery (R263–R267). -/
structure Recovery where
  key : Nat
  addr : SubAddr
  cell : CellId
  why : ReadFor
  cls : BitVec 3
  around : Bool := false
  pass : Nat := 0
  retry : Bool := true
  parity : Bool := true
  got : List (Nat × Sector) := []
  lost : List Nat := []
  /-- Copies recovered so far; the covered part of one whose tag checks and data fail, where all were so. -/
  copies : Nat := 0
  bad : Option Bytes := none
  /-- The member was FAILED as it began: there is no retry path (R260). -/
  degraded : Bool := false
  /-- What the parity path has yielded, and the beat in which it did (R265). -/
  won : Option (DWord × Sector) := none
deriving DecidableEq, Repr

/-- One sector write in a cell's queue (R320). -/
structure QWrite where
  addr : SubAddr
  sector : Sector
  key : Nat
  torn : Bool := false
  repair : Bool := false
  /-- A retired way's destage (R224). -/
  drain : Bool := false
deriving DecidableEq, Repr

/-- How far a cell's bring-up has come (R282, R311). -/
inductive Bring where
  | off
  | pages
  | queued
  | spinning
  | loading
  | acquiring
  | ready
deriving DecidableEq, Repr

/-- The arm link of a cell port (R277–R280). -/
structure ArmLink where
  up : Bool := false           -- R300 13 | 0
  sent : Option Word := none   -- R277 13 | no frame sent
  seq : BitVec 2 := 0          -- R278 13 | DESIGN CHOICE 0, log 3
  badRun : Nat := 0            -- R279 13 | 0
  badTick : Nat := 0           -- R279 13 | 0
  page : Nat := 0              -- R280 13 | DESIGN CHOICE 0, log 3
  queue : List (BitVec 4 × BitVec 18) := [] -- R277 13 | none
  parking : Bool := false      -- R279 13 | 0: PARK goes in every slot
  sentLog : List Word := []    -- R277 13 | frames sent, newest last (the model's own), empty
deriving DecidableEq, Repr

/-- The servo loop of a cell (R301–R319). -/
structure Servo where
  loaded : Bool := false        -- R319 14 | 0
  tracking : Bool := false      -- R319 14 | 0
  writeSettled : Bool := false  -- R319 14 | 0
  seeking : Bool := false       -- R319 14 | 0
  reacquiring : Bool := false   -- R319 14 | 0
  run : Nat := 0                -- R319 14 | 0
  doubt : BitVec 3 := 0         -- R319 14 | 0
  inhibit : Bool := false       -- R319 14 | 0
  degradedStop : Bool := false  -- R319 14 | 0
  seekFail : Bool := false      -- R319 14 | 0
  estimate : Option Int := none -- R319 14 | POSITION 0; none: unknown
  position : Int := 0           -- R319 14 | 0
  target : Int := 0             -- R319 14 | 0
  err : Int := 0                -- R319 14 | 0
  wedge : Nat := 0              -- R319 14 | 0
  degraded : Bool := false      -- R319 14 | 0
  unknown : Bool := false       -- R319 14 | 0
  surface : Nat := 1            -- R313 14 | DESIGN CHOICE 1, log 3
  offsets : Tab Int := []       -- R307 14 | 0 (R319), key 12 × surface + zone
  refs : List Nat := []         -- R306 14 | none, newest first
  frames : List Int := []       -- R303 14 | none since the last wedge
  missed : Nat := 0             -- R317 14 | 0
  unknownRun : Nat := 0         -- R316 14 | 0
  goodRun : Nat := 0            -- R314 14 | 0
  goodBefore : Nat := 0         -- R314 14 | good wedges before the current run, 0
  readRun : Nat := 0            -- R313 14 | 0
  writeRun : Nat := 0           -- R313 14 | 0
  reacqWedges : Nat := 0        -- R316 14 | 0
  seekFails : Nat := 0          -- R317 14 | 0
  integral : Int := 0           -- R308 14 | 0
  prevErr : Int := 0            -- R308 14 | 0
  demand : Int := 0             -- R308 14 | DESIGN CHOICE 0, log 3
  acq : Nat := 0                -- R311 14 | 0, wedges of the refresh revolutions done
  seekAt : DWord := 0           -- R313 14 | DESIGN CHOICE 0, log 3
  heard : Bool := false         -- R311 14 | DESIGN CHOICE false, log 3: a Colzor frame has decoded since the load
deriving DecidableEq, Repr

/-- One cell port (R276–R300). -/
structure Cell where
  ready : Bool := false             -- R300 13 | 0
  atSpeed : Bool := false           -- R300 13 | 0
  clockLock : Bool := false         -- R300 13 | 0
  parked : Bool := false            -- R300 13 | 0
  fault : BitVec 3 := 0             -- R300 13 | 0b000
  torn : Bool := false              -- R300 13 | 0
  remapFull : Bool := false         -- R300 13 | 0
  temp : BitVec 16 := 0             -- R300 13 | 0
  ident : BitVec 16 := 0            -- R300 13 | 0
  serial : Word := 0                -- R300 13 | 0
  storedSerial : Word := 0          -- R282 13 | DESIGN CHOICE 0, log 3
  remap : Tab Nat := []             -- R288 13 | 0 used: cell block to spare sector number + 1
  remapUsed : Nat := 0              -- R300 13 | 0
  chan : Word × Byte := (0, 0)      -- R294 13 | DESIGN CHOICE 0, log 3: ZONE_SET and GAIN_INIT of the sector last begun
  hot : Nat := 0                    -- R281 13 | readings at the limit in a row, 0
  bring : Bring := .off             -- R282 13 | not begun
  since : DWord := 0                -- R282 13 | DESIGN CHOICE 0, log 3, the beat the stage of bring-up began
  arm : ArmLink := {}               -- R277 13 |
  servo : Servo := {}               -- R319 14 |
  wg : Bool := false                -- R345 16 | low
  queue : List QWrite := []         -- R320 15 | empty
  writing : Option Nat := none      -- R295 13 | no write in progress
  gateDue : Option DWord := none    -- R350 16 | none: the beat by which the gate falls
  retry : Option Nat := none        -- R297 13 | RETRY_BUSY 0
  retryWait : List Nat := []        -- R297 13 | none
  idle : Nat := 0                   -- R312 14 | 0 ticks
  high : Nat := 0                   -- R396 18 | high PRESENT samples in a row, 0
  low : Nat := 0                    -- R396 18 | low PRESENT samples in a row, 0
  absent : Bool := false            -- R396 18 | false (present)
  closing : Option DWord := none    -- R333 16 | not closing
deriving DecidableEq, Repr

/-- One published or building image (R358, R359). -/
structure Image where
  seqBegin : DWord := 0
  seqEnd : DWord := 0
  head : Bytes := []
  counters : Tab DWord := []
deriving DecidableEq, Repr

/-- A counter checkpoint in MRAM (R356). -/
structure Checkpoint where
  boot : Word
  beat : DWord
  counters : Tab DWord
  /-- Written at an orderly entry to Deep Standby. -/
  final : Bool := false
deriving DecidableEq, Repr

/-- Counters, images, the event log, sensors and Dezia (R355–R371). -/
structure ObsBlk where
  counters : Tab DWord := []              -- R355 17 | every counter 0, key: image offset
  image0 : Image := {}                    -- R361 17 | none published
  image1 : Image := {}                    -- R361 17 | none published
  generation : DWord := 0                 -- R361 17 | 0
  active : Bool := false                  -- R360 17 | 0
  shown : DWord := 0                      -- R360 17 | 0, GENERATION of the directory
  shownTick : DWord := 0                  -- R360 17 | 0
  publishing : Bool := false              -- R361 17 | no image in progress
  checkpoint : Option Checkpoint := none  -- R356 17 | none, the newest complete one
  checkOld : Option Checkpoint := none    -- R356 17 | none, the other one
  gap : Bool := false                     -- R356 17 | 0
  gapSent : Bool := false                 -- R356 17 | 0
  events : List Event := []               -- R365 17 | empty
  lost : Nat := 0                         -- R365 17 | 0 not yet reported
  eventsLost : Bool := false              -- R371 17 | 0
  enabled : Bool := false                 -- R371 17 | 0
  placed : Bool := false                  -- R363 17 | no ring placed
  logBase : DWord := 0                    -- R363 17 | DESIGN CHOICE 0, log 3
  logLog : Nat := 7                       -- R363 17 | DESIGN CHOICE 7, log 3
  head : BitVec 16 := 0                   -- R371 17 | 0
  tail : BitVec 16 := 0                   -- R371 17 | 0
  phase : Bool := false                   -- R371 17 | 0
  headBad : Bool := false                 -- R371 17 | 0
  tempWarn : Bool := false                -- R371 17 | 0
  supplyWarn : Bool := false              -- R371 17 | 0
  temp : BitVec 16 := 0                   -- R371 17 | 0
  tempMax : BitVec 16 := 0                -- R371 17 | 0
  volts : Tab (BitVec 16) := []           -- R371 17 | 0, VDD_CORE, VDD_SERDES, VDDA_CELL, VDDIO
  sampled : Bool := false                 -- R367 17 | no sample taken in this life
  slice : BitVec 10 := 0                  -- R371 17 | 0
  dezia : List Bytes := []                -- R368 17 | frames sent, newest last (the model's own), empty
  hwSet : List (Nat × Nat) := []          -- R7 00 | none: the W1C bits (BAR0 address, bit) that the die set in beat hwBeat
  hwBeat : DWord := 0                     -- R7 00 | DESIGN CHOICE 0, log 3
  media : List (CellId × Nat × Sector) := [] -- R295 13 | sector writes done, newest last (the model's own), empty
deriving DecidableEq, Repr

/-- A pin that is switching functions (R394, R395). -/
structure PinSwitch where
  start : DWord
  next : Option Word := none
deriving DecidableEq, Repr

/-- Utility pins, SMBus, UART and JTAG (R391–R401). -/
structure PinBlk where
  cfg : Tab Word := []                  -- R401 18 | 0x0000_0000 each (stored in MRAM under R393)
  switching : Tab (Option PinSwitch) := [] -- R401 18 | 0
  gpioIn : Word := 0                    -- R401 18 | 0
  levels : Word := 0                    -- R387 18 | pin levels as last reported, DESIGN CHOICE 0, log 3
  uart : List Bytes := []               -- R398 18 | empty console queue
  uartOut : List Bytes := []            -- R398 18 | lines sent (the model's own), empty
  uartSent : Nat := 0                   -- R398 18 | characters of the first line sent, 0
  uartAcc : Nat := 0                    -- R398 18 | beats towards the next character, 0
  uartPaused : Bool := false            -- R398 18 | not paused
  uartDrops : Byte := 0                 -- R401 18 | 0
  smbAbort : Bool := false              -- R401 18 | 0
  smbAt : Option DWord := none          -- R395 18 | DESIGN CHOICE none, log 3: the beat of the last SMBus transaction
  keeper : Word := 0                    -- R394 18 | DESIGN CHOICE 0, log 3: the level each switching pin was left at
  jtag : BitVec 4 := 1                  -- R391 18 | PRESUMED IDCODE after reset (IEEE 1149.1), log 5
deriving DecidableEq, Repr

/-- Why a step stops. A closed list. -/
inductive Fault where
  /-- Raised by SUPPLY_LOSS when a rail exceeds its absolute maximum: R377 says that no statement of the manual
  binds the part from then on. Safe: the model stops where the manual says nothing. -/
  | ratingExceeded
deriving DecidableEq, Repr

/-- Why a step is refused. A closed list. -/
inductive Refusal where
  /-- Raised by the dispatcher for a command that has no meaning yet. Safe. -/
  | notModelled (mnemonic : String)
deriving DecidableEq, Repr

/-- The whole machine (DESIGN CHOICE, log 3). -/
structure State where
  sys : SysBlk := {}
  clk : ClkBlk := {}
  sec : SecBlk := {}
  pwr : PwrBlk := {}
  host : HostBlk := {}
  ring : RingBlk := {}
  wards : Tab Ward := []
  cap : CapBlk := {}
  cache : CacheBlk := {}
  kcc : KccBlk := {}
  ledger : LedgerBlk := {}
  groups : Tab Group := []
  cells : Tab Cell := []
  reads : List MediaRead := []            -- R263 12 | none
  recoveries : List Recovery := []        -- R263 12 | none
  nextRead : Nat := 0                     -- R263 12 | the model's own number, 0
  obs : ObsBlk := {}
  pin : PinBlk := {}
  regs : Tab Word := []                   -- R403 19 | every plain RW register, keyed by BAR0 address, at its R403 reset value (those of R404 keep their value over a cold source)
  fresh : Nat := 0                        -- the MODEL's own field: index of the next free value, DESIGN CHOICE 0, log 4
  pending : List Instr := []              -- the queue of waiting commands, empty
deriving DecidableEq, Repr

/-- The machine right after reset: a factory-fresh part, every register at its reset value (R403)
(DESIGN CHOICE, log 2 and 3). -/
def State.reset : State := {}

end Sys2Proof.Machine
end

