-- ==== Sys2Proof/Machine/Regs.lean ====
section
/-! DEFINITION. The register index (R402–R406): for each plain RW register its BAR0 address, the bits that hold
a value, its reset value and whether MRAM stores it; and the legal values of the checked fields. -/

namespace Sys2Proof.Machine

/-- The 16 bytes of SYS.LOT_LO, SYS.LOT_HI, SYS.DIE and SYS.REV (R101, R108). -/
def lotLo : Word := Config.fuseLotLo.setWidth 32
/-- SYS.LOT_HI (R108). -/
def lotHi : Word := Config.fuseLotHi.setWidth 32
/-- SYS.DIE (R108). -/
def dieWord : Word :=
  packWord [(Config.fuseWafer.toNat, 0), (Config.fuseDieX.toNat, 8), (Config.fuseDieY.toNat, 16)]
/-- SYS.REV (R108). -/
def revWord : Word :=
  packWord [(Config.fuseStepping.toNat, 0), (Config.fuseTestWeek.toNat, 8), (Config.fuseTestYear.toNat, 16)]
/-- The identity digest (R101). -/
def identityDigest : BitVec 256 :=
  Config.sha256 (leBytes 4 lotLo.toNat ++ leBytes 4 lotHi.toNat ++ leBytes 4 dieWord.toNat ++ leBytes 4 revWord.toNat)
/-- The digest's 32 bytes, first byte first. -/
def digestBytes : Bytes := beBytes 32 identityDigest.toNat

/-- A plain RW register: the bits that hold a value, the reset value, and whether R404 stores it. -/
structure RegInfo where
  mask : Word
  reset : Word
  stored : Bool

/-- Offset and instance of an address in an instanced block of stride 0x400. -/
def inBlock (base count a : Nat) : Option (Nat × Nat) :=
  if base ≤ a ∧ a < base + 0x400 * count then some ((a - base) / 0x400, (a - base) % 0x400) else none

/-- The reset masks of the eight requester classes (R213). -/
def classReset (c : Nat) : Word :=
  [0x003F, 0x03C0, 0x1C00, 0x6000, 0x4000, 0xFFFF, 0x8000, 0x8000].getD c 0

/-- The plain RW registers of a cell port and of its servo (R300, R319). -/
def cellReg (off : Nat) : Option RegInfo :=
  if off = 0x004 then some ⟨0x7F, 0x18, true⟩
  else if 0x008 ≤ off ∧ off ≤ 0x018 ∧ off % 4 = 0 then some ⟨0xFF, 0x50, true⟩
  else if off = 0x020 then some ⟨0xFF, 0x41, true⟩
  else if 0x100 ≤ off ∧ off < 0x130 ∧ off % 4 = 0 then some ⟨0x0FF7FFFF, 0x04528669, true⟩
  else none

/-- The plain RW registers of a servo instance (R319). -/
def servoReg (off : Nat) : Option RegInfo :=
  if off = 0x010 then some ⟨0xFFFFFF, 0x0002A030, true⟩
  else if off = 0x014 then some ⟨0xFFFFF, 0x00061914, true⟩
  else if off = 0x018 then some ⟨0xF7, 0x1, false⟩
  else if off = 0x020 then some ⟨0xFFFF, 0, true⟩
  else none

/-- The MSI-X table words (R403): message address, data and vector control; the bits that hold a value are the
PCI Express specification's (PRESUMED, log 5). -/
def msixReg (off : Nat) : RegInfo :=
  if off % 16 = 0 then ⟨0xFFFFFFFC, 0, false⟩
  else if off % 16 = 12 then ⟨1, 1, false⟩
  else ⟨0xFFFFFFFF, 0, false⟩

/-- The plain RW registers outside the instanced cell and group blocks (R403, R404). -/
def topReg (a : Nat) : Option RegInfo :=
  if a = 0x0001C then some ⟨0xFFFF, 0x3E8, true⟩
  else if a = 0x01020 then some ⟨0x7FF, 0, false⟩
  else if a = 0x02000 then some ⟨0x2, 0, false⟩
  else if a = 0x02018 ∨ a = 0x0201C ∨ a = 0x02024 then some ⟨0xFFFFFFFF, 0, false⟩
  else if a = 0x02028 then some ⟨0x3, 0, false⟩
  else if a = 0x0300C then some ⟨0xFFFFFFFF, 0x493E0, true⟩
  else if a = 0x04004 then some ⟨0xFF, 0x20, false⟩
  else if a = 0x04008 then some ⟨0xFFFF, 0, false⟩
  else if a = 0x08000 ∨ a = 0x08008 then some ⟨0xFFFFF000, 0, false⟩
  else if a = 0x08004 ∨ a = 0x0800C then some ⟨0xFFFFFFFF, 0, false⟩
  else if a = 0x08010 then some ⟨0x1F1F, 0x404, false⟩
  else if a = 0x08030 then some ⟨0xFF, 0xA, false⟩
  else if a = 0x08400 then some ⟨0xFFF, 0, false⟩
  else if a = 0x0C000 ∨ a = 0x0C400 then some ⟨0xF, 0x4, true⟩
  else if a = 0x0C008 ∨ a = 0x0C408 then some ⟨0xFFFF, 0, true⟩
  else if a = 0x0C800 then some ⟨0xFF, 0xA, true⟩
  else if a = 0x0D000 then some ⟨0x1FFF, 0, false⟩
  else if a = 0x0E00C then some ⟨0xFFFFFF, 0x00326080, true⟩
  else if a = 0x0E010 then some ⟨0x7, 0, true⟩
  else if 0x0E040 ≤ a ∧ a < 0x0E060 then some ⟨0xFFFF, classReset ((a - 0x0E040) / 4), true⟩
  else if 0x0E100 ≤ a ∧ a < 0x0E180 then
    if a % 8 = 0 then some ⟨0x0FFF0FFF, 0, true⟩ else some ⟨0x3FFF, 0, true⟩
  else if a = 0x1A014 then some ⟨0xFF, 0x64, true⟩
  else if a = 0x1A020 then some ⟨0x3, 0, true⟩
  else if a = 0x1A024 then some ⟨0xFFFFFFFF, 0xFFFFFFFF, true⟩
  else if a = 0x1A028 then some ⟨0xFFFF, 0xFFFF, true⟩
  else if a = 0x1A02C then some ⟨0xFFFFFFFF, packWord [(2, 0), (ofLe (digestBytes.take 3), 8)], true⟩
  else if a = 0x1A030 then some ⟨0xFFFF, packWord [(ofLe (slice 3 2 digestBytes), 0)], true⟩
  else if a = 0x1B080 then some ⟨0xFFFFFFFF, 0, false⟩
  else if a = 0x1B08C then some ⟨0x7F, 0x5C, true⟩
  else none

/-- The plain RW register at a BAR0 address, if there is one (R403). -/
def regInfo (a : Nat) : Option RegInfo :=
  if a % 4 ≠ 0 then none
  else if 0x06000 ≤ a ∧ a < 0x07000 then some (msixReg (a - 0x06000))
  else match inBlock 0x11000 4 a with
  | some (_, off) => if off = 0x028 then some ⟨0x3FF, 0, true⟩ else none
  | none => match inBlock 0x12000 16 a with
    | some (_, off) => cellReg off
    | none => match inBlock 0x16000 16 a with
      | some (_, off) => servoReg off
      | none => topReg a

/-- The value a plain RW register holds at reset (R403); 0 where there is none. -/
def regReset (a : Nat) : Word := match regInfo a with | some i => i.reset | none => 0

/-- Whether R404 stores the register in MRAM. -/
def regStored (a : Nat) : Bool := match regInfo a with | some i => i.stored | none => false

/-- The value a plain RW register holds. -/
def State.reg (s : State) (a : Nat) : Word := s.regs.get (regReset a) a

/-- Write a plain RW register: reserved bits are ignored (R6). -/
def State.setReg (s : State) (a : Nat) (v : Word) : State :=
  match regInfo a with
  | some i => { s with regs := s.regs.set i.reset a (v &&& i.mask) }
  | none => s

/-- A cold source returns every register that R404 does not store to its reset value. -/
def coldRegs (t : Tab Word) : Tab Word := t.filter (fun p => regStored p.1)

/-- What an FLR or a host-link reset does to the HOST registers, the MSI-X table and the admin RING registers
(R125 step 5, R161). -/
def linkRegs (t : Tab Word) : Tab Word :=
  t.filter (fun p => !((0x04000 ≤ p.1 ∧ p.1 < 0x08000) || (0x08000 ≤ p.1 ∧ p.1 ≤ 0x08010)))

/-- `lo ≤ v ≤ hi`. -/
def within (lo hi v : Nat) : Bool := decide (lo ≤ v) && decide (v ≤ hi)

/-- The legal values of the checked fields (R406) of a plain RW register. -/
def regLegal (s : State) (a : Nat) (v : Word) : Bool :=
  if a = 0x0001C then within 100 60000 (bits 0 16 v)
  else if a = 0x02028 then within 0 2 (bits 0 2 v)
  else if a = 0x08010 then within 4 16 (bits 0 5 v) && within 4 16 (bits 8 5 v)
  else if a = 0x0C000 ∨ a = 0x0C400 then within 0 4 (bits 1 3 v)
  else if a = 0x0E00C then decide (bits 8 8 v < bits 0 8 v) && decide (bits 0 8 v ≤ 160)
  else if a = 0x0E010 then within 0 3 (bits 0 3 v)
  else if 0x0E040 ≤ a ∧ a < 0x0E060 then decide (bits 0 16 v ≠ 0)
  else if 0x0E100 ≤ a ∧ a < 0x0E180 ∧ a % 8 = 4 then
    within 0 3 (bits 1 3 v) &&
      (bits 0 1 v == 0 ||
        (decide (bits 0 12 (s.reg (a - 4)) ≤ bits 16 12 (s.reg (a - 4))) &&
          decide (bits 8 4 v ≠ 0) && decide (bits 12 2 v ≠ 0)))
  else if a = 0x1A014 then within 60 114 (bits 0 8 v)
  else if a = 0x1B08C then within 0x08 0x77 (bits 0 7 v)
  else match inBlock 0x11000 4 a with
  | some (_, off) => if off = 0x028 then within 0 1000 (bits 0 10 v) else true
  | none => match inBlock 0x12000 16 a with
    | some (_, off) =>
      if off = 0x004 then within 0 72 (bits 0 7 v)
      else if off = 0x020 then within 0 80 (bits 0 8 v)
      else if 0x100 ≤ off ∧ off < 0x130 then
        within 30 200 (bits 0 8 v) && within 0 12 (bits 8 4 v) && within 10 90 (bits 12 7 v)
      else true
    | none => match inBlock 0x16000 16 a with
      | some (_, off) =>
        if off = 0x014 then
          within 5 40 (bits 0 8 v) && within 10 50 (bits 8 8 v) && within 2 15 (bits 16 4 v)
        else if off = 0x018 then within 1 5 (bits 0 3 v) && within 0 11 (bits 4 4 v)
        else true
      | none => true

/-- The rejections of this beat so far (R407). -/
def State.rejections (s : State) : List (BitVec 18 × Word) := if s.sys.rejBeat = s.clk.beat then s.sys.rejNow else []
/-- The first of a beat's rejections is latched, MORE counts the others (R407). -/
def latchReject (l : List (BitVec 18 × Word)) (s : State) : State :=
  match l with
  | [] => s
  | p :: t => { s with sys := { s.sys with
      rejValid := true, rejMore := BitVec.ofNat 6 (min 63 t.length), rejAddr := p.1, rejValue := p.2 } }
/-- A configuration rejection (R407): one that finds VALID at 0 as its beat begins is latched, the first of the beat in
ascending address; any other is counted in MORE. -/
def reject (a : Nat) (v : Word) (s : State) : State :=
  let k := BitVec.ofNat 18 a
  let l := s.rejections
  let fresh := if s.sys.rejBeat = s.clk.beat then s.sys.rejFresh else !s.sys.rejValid
  let now := l.filter (fun p => decide (p.1 ≤ k)) ++ (k, v) :: l.filter (fun p => decide (k < p.1))
  let s1 := { s with sys := { s.sys with rejBeat := s.clk.beat, rejNow := now, rejFresh := fresh } }
  if fresh then latchReject now s1
  else { s1 with sys := { s1.sys with rejMore := if s.sys.rejMore = 63 then 63 else s.sys.rejMore + 1 } }

end Sys2Proof.Machine
end

