-- ==== Sys2Proof/Machine/Ops.lean ====
section
/-! DEFINITION. The named operations every meaning is built from: access to wards, groups, cells and ports,
counters, the passage of time, events, MSI-X messages, completions and intent numbers. -/

namespace Sys2Proof.Machine

/-! Access to the instanced parts. -/

/-- Ward `w` as it stands. -/
def State.ward (s : State) (w : WardId) : Ward := s.wards.get {} w.val
/-- Replace ward `w`. -/
def State.setWard (s : State) (w : WardId) (x : Ward) : State := { s with wards := s.wards.set {} w.val x }
/-- Group `g` as it stands. -/
def State.group (s : State) (g : GroupId) : Group := s.groups.get {} g.val
/-- Replace group `g`. -/
def State.setGroup (s : State) (g : GroupId) (x : Group) : State := { s with groups := s.groups.set {} g.val x }
/-- Cell port `c` as it stands. -/
def State.cell (s : State) (c : CellId) : Cell := s.cells.get {} c.val
/-- Replace cell port `c`. -/
def State.setCell (s : State) (c : CellId) (x : Cell) : State := { s with cells := s.cells.set {} c.val x }
/-- Capture port `p` as it stands. -/
def State.port (s : State) (p : PortId) : Port := s.cap.ports.get {} p.val
/-- Replace capture port `p`. -/
def State.setPort (s : State) (p : PortId) (x : Port) : State :=
  { s with cap := { s.cap with ports := s.cap.ports.set {} p.val x } }
/-- Tumbler entry `i` as it stands. -/
def State.tumb (s : State) (i : Nat) : TumbEntry := s.cap.tumbler.get {} i
/-- Replace Tumbler entry `i`. -/
def State.setTumb (s : State) (i : Nat) (e : TumbEntry) : State :=
  { s with cap := { s.cap with tumbler := s.cap.tumbler.set {} i e } }

/-- Change ward `w` by `f`. -/
def State.updWard (s : State) (w : WardId) (f : Ward → Ward) : State := s.setWard w (f (s.ward w))
/-- Change cell `c` by `f`. -/
def State.updCell (s : State) (c : CellId) (f : Cell → Cell) : State := s.setCell c (f (s.cell c))
/-- Change the servo of cell `c` by `f`. -/
def State.updServo (s : State) (c : CellId) (f : Servo → Servo) : State :=
  s.updCell c (fun x => { x with servo := f x.servo })
/-- Change the arm link of cell `c` by `f`. -/
def State.updArm (s : State) (c : CellId) (f : ArmLink → ArmLink) : State :=
  s.updCell c (fun x => { x with arm := f x.arm })
/-- Change group `g` by `f`. -/
def State.updGroup (s : State) (g : GroupId) (f : Group → Group) : State := s.setGroup g (f (s.group g))

/-- Every ward identifier. -/
def allWards : List WardId := List.finRange 4096
/-- The wards that differ from an unused one. -/
def State.usedWards (s : State) : List WardId :=
  s.wards.filterMap (fun p => if h : p.1 < 4096 then some ⟨p.1, h⟩ else none)
/-- The cells in ascending order. -/
def allCells : List CellId := List.finRange 16
/-- The groups in ascending order. -/
def allGroups : List GroupId := List.finRange 4

/-- The ward identifier in a number's low 12 bits. -/
def wardOf (n : Nat) : WardId := ⟨n % 4096, Nat.mod_lt _ (by decide)⟩
/-- The cell in a number's low 4 bits. -/
def cellOf (n : Nat) : CellId := ⟨n % 16, Nat.mod_lt _ (by decide)⟩
/-- The group in a number's low 2 bits. -/
def groupOf (n : Nat) : GroupId := ⟨n % 4, Nat.mod_lt _ (by decide)⟩

/-! Modes. -/

/-- MGMT is powered and clocked: the four modes R94 names. -/
def State.awake (s : State) : Bool :=
  s.pwr.powered && decide (s.pwr.mode ≠ .deepStandby) && decide (s.pwr.mode ≠ .retentionSleep)

/-- The device is in Service. -/
def State.inService (s : State) : Bool := s.pwr.powered && decide (s.pwr.mode = .service)
/-- The device is in Safe Hold. -/
def State.inHold (s : State) : Bool := decide (s.pwr.mode = .safeHold)
/-- The start-up sequence has handed off or stopped at ERROR or LEDGER_FAIL (R96, R99). -/
def State.handedOff (s : State) : Bool :=
  s.awake && decide (5 ≤ s.sys.stage.toNat) && decide (s.sys.stage ≠ 0x8)
/-- Configuration space is served and the link may train (R96, R103): from the end of the stage FUSE. -/
def State.linkOpen (s : State) : Bool := s.awake && decide (s.sys.stage ≠ 1)
/-- Safe Hold cause LEDGER_FAIL is set (R349): nothing further is written to the Ledger. -/
def State.ledgerDead (s : State) : Bool := s.pwr.holdCause.getLsbD 2
/-- The function answers accesses to its BARs (R122, R127): Memory Space Enable is set, and it is in D0 and has been for
50 µs since a return to it. -/
def State.barsOn (s : State) : Bool := s.host.mse && !s.host.d3hot && decide (s.host.barFrom ≤ s.clk.beat)
/-- Accesses to the BARs reach the function (R122, R127) (DEDUCED, log 29). -/
def State.hostOpen (s : State) : Bool := s.linkOpen && decide (s.host.speed ≠ 0) && s.barsOn
/-- The link is up, but a request to a BAR is an Unsupported Request (R122). -/
def State.hostShut (s : State) : Bool := s.linkOpen && decide (s.host.speed ≠ 0) && !s.barsOn
/-- A register write reaches its block (R103): the host is there and the sequence has handed off (DEDUCED, log 29). -/
def State.regOpen (s : State) : Bool := s.hostOpen && s.handedOff
/-- DMA may be issued (R121, R125 step 1, R127). -/
def State.dmaOpen (s : State) : Bool :=
  s.awake && decide (s.host.speed ≠ 0) && s.host.bme && !s.host.d3hot && s.host.flr.isNone

/-! W1C bits that the die sets (R7). -/

/-- The die has set W1C bit `k` of the register at `a` in this beat (R7). -/
def mark (a k : Nat) (s : State) : State :=
  { s with obs := { s.obs with
    hwBeat := s.clk.beat
    hwSet := (a, k) :: (if s.obs.hwBeat = s.clk.beat then s.obs.hwSet.filter (fun p => p != (a, k)) else []) } }
/-- What set the bit in this beat is taken back (R139). -/
def unmark (a k : Nat) (s : State) : State :=
  { s with obs := { s.obs with hwSet := s.obs.hwSet.filter (fun p => p != (a, k)) } }
/-- What a write of `v` to the W1C bits of the register at `a` clears: not a bit that the die sets in the same beat (R7). -/
def clearing (a : Nat) (v : Word) (s : State) : Word :=
  if s.obs.hwBeat = s.clk.beat then
    s.obs.hwSet.foldl (fun v p => if p.1 = a then v &&& ~~~(1#32 <<< p.2) else v) v
  else v

/-! Counters (R355): keyed by their offset in the image (R358, R359). -/

/-- Add `n` to the counter at image offset `off`, modulo 2^64. -/
def bump (off n : Nat) (s : State) : State :=
  { s with obs := { s.obs with counters := s.obs.counters.upd 0 off (· + BitVec.ofNat 64 n) } }
/-- The counter at image offset `off`. -/
def State.counter (s : State) (off : Nat) : DWord := s.obs.counters.get 0 off

/-- Ward `w`'s counter at offset `o` of its block. -/
def cWard (w : WardId) (o : Nat) : Nat := 0x023000 + 0x80 * w.val + o
/-- A context's queue counter: 0 RANGE_DOORBELLS, 1 HEAD_AHEAD, 2 DOORBELL_ORPHAN, 3 FETCHED, 4 COMPLETED,
5 ABORTED, 6 TORN. -/
def cQueue (c : Ctx) (i : Nat) : Nat :=
  match c with
  | .admin => 0x200 + 8 * i
  | .ward w => cWard w (8 * i)
/-- Device counter `i` in the order of R359. -/
def cDev (i : Nat) : Nat := 0x080 + 8 * i
/-- Port `p`'s counter `i`: RX_FRAMES, ERR_RUNT, ERR_GIANT, ERR_FCS, ERR_CODE, ERR_FEC, FEC_CORRECTED, UNMATCHED. -/
def cPort (p : PortId) (i : Nat) : Nat := 0x400 + 0x80 * p.val + 8 * i
/-- Group `g`'s counter `i`. -/
def cGroup (g : GroupId) (i : Nat) : Nat := 0x800 + 0x80 * g.val + 8 * i
/-- RAT entry `e`'s counter `i`. -/
def cRat (e i : Nat) : Nat := 0xA00 + 0x10 * e + 8 * i
/-- Way `v`'s counter `i`. -/
def cWay (v i : Nat) : Nat := 0xC00 + 0x40 * v + 8 * i
/-- Cell `c`'s counter at offset `o`. -/
def cCell (c : CellId) (o : Nat) : Nat := 0x1000 + 0x200 * c.val + o
/-- Tumbler entry `e`'s counter `i`. -/
def cTumb (e i : Nat) : Nat := 0x3000 + 0x10 * e + 8 * i

/-! Time. -/

/-- CLK.TAI_RATE as a signed number (R46). -/
def State.taiRate (s : State) : Int := (s.reg 0x02024).toInt
/-- TAI in nanoseconds (R38). -/
def State.tai (s : State) : DWord := (s.clk.taiQ >>> 32).setWidth 64
/-- TAI where it is valid, else 0 (R364). -/
def State.taiOr0 (s : State) : DWord := if s.clk.taiValid then s.tai else 0
/-- Beats one clock period counts (R27, R36). -/
def State.period (s : State) : Nat := if s.clk.srcActive then 1 else 5

/-- Slew steps that fall due within the next `n` beats (R42). -/
def slewSteps (s : State) (n : Nat) : Nat :=
  if s.clk.slewLeft = 0 then 0
  else if s.clk.slewDue.toNat ≤ s.clk.beat.toNat + n then
    min s.clk.slewLeft.natAbs ((s.clk.beat.toNat + n - s.clk.slewDue.toNat) / 10000 + 1)
  else 0

/-- TAI after `n` beats with `k` slew steps (R38, R42); it never decreases. A beat that removes a nanosecond adds what
R38's sum then leaves, the fraction of TAI_RATE, where that is positive (DESIGN CHOICE, log 43). -/
def taiAfter (s : State) (n k : Nat) : BitVec 96 :=
  let beat : Int := 4294967296 + s.taiRate
  let move : Int :=
    if s.clk.slewLeft > 0 then ((n : Int) - k) * beat + k * max 0 s.taiRate else n * beat + k * 4294967296
  s.clk.taiQ + BitVec.ofNat 96 move.toNat

/-- Buffers the record assembler holds (R320): one per open append block and one per sealed block in the queue. -/
def State.buffers (s : State) : Nat :=
  (s.wards.filter (fun p => p.2.openBlk.isSome)).length + s.cap.queue.length
/-- The opcode of a job (R135). -/
def Job.op (j : Job) : Byte := byteAt 0 j.entry
/-- A state-changing ward job fetched and not yet taken into the Ledger (R320). -/
def Job.inIntake (j : Job) : Bool :=
  decide (j.ctx ≠ .admin) && (j.op == 2 || j.op == 3 || j.op == 6) && decide (j.phase ≠ .journal)
/-- State-changing ward jobs in host intake (R320). -/
def State.intake (s : State) : Nat := (s.ring.jobs.filter Job.inIntake).length
/-- Blocks of the host read buffer reserved by READ jobs (R320). -/
def State.readBlocks (s : State) : Nat :=
  ((s.ring.jobs.filter (fun j => decide (j.phase = .media))).map (fun j => j.blks.length)).sum
/-- Slots waiting at the Ledger port (R231). -/
def State.portSlots (s : State) : Nat := (s.ledger.port.map Prod.snd).sum
/-- Sub-blocks queued for destage that no cell write queue holds yet (R320). -/
def Line.queuedSubs (l : Line) : Nat :=
  (l.subs.filter (fun p => match p.2 with | some x => x.queued | none => false)).length
/-- Destage contexts in use (R320). -/
def State.destaging (s : State) : Nat := (s.cache.lines.map (fun p => p.2.queuedSubs)).sum

/-- The full-beat counters of the stages that hold no free slot (R330, R359): counter offsets. -/
def fullStages (s : State) : List Nat :=
  (if 1024 ≤ s.buffers then [0x140] else []) ++
  (if 2 ≤ s.intake then [0x148] else []) ++
  (if 512 ≤ s.readBlocks then [0x150] else []) ++
  (if 15 ≤ s.destaging then [0x160] else []) ++
  (if 56 ≤ s.portSlots then [0x168] else []) ++
  (s.cells.filter (fun p => decide (63 ≤ p.2.queue.length))).map (fun p => 0x180 + 8 * p.1)

/-- A pin holds this function and is not switching (R392, R394). -/
def PinBlk.holds (p : PinBlk) (f : Nat) : Bool :=
  p.cfg.any (fun q => bits 0 4 q.2 == f && (p.switching.get none q.1).isNone)
/-- The console after `n` beats: 86,805.6 beats a character, 73 characters a line (R398). It pauses after XOFF, and
while no pin holds UART_TXD (R392). -/
def uartAfter (n : Nat) (p : PinBlk) : PinBlk :=
  if p.uart = [] ∨ p.uartPaused ∨ !(p.holds 0x4) then { p with uartAcc := 0 }
  else
    let acc := p.uartAcc + n * 115200
    let chars := p.uartSent + acc / 10000000000
    let lines := min (chars / 73) p.uart.length
    { p with
      uartAcc := acc % 10000000000
      uartSent := if lines = p.uart.length then 0 else chars % 73
      uartOut := p.uartOut ++ p.uart.take lines
      uart := p.uart.drop lines }

/-- PPS_OUT after TAI has moved from `t0` to the state's TAI (R44). A step of TAI makes no
rise, and a pulse in progress ends where TAI reaches its old start + 100,000,000 ns (DESIGN CHOICE, log 43). -/
def ppsOutAfter (t0 : DWord) (s : State) : State :=
  if !(s.clk.taiValid && (s.reg 0x02000).getLsbD 1) then { s with clk := { s.clk with ppsOut := false } }
  else
    let t := s.tai
    let sec := t.toNat / 1000000000
    if t0.toNat / 1000000000 < sec then
      { s with clk := { s.clk with
          ppsOutFrom := BitVec.ofNat 64 (sec * 1000000000)
          ppsOut := decide (t.toNat < sec * 1000000000 + 100000000) } }
    else if s.clk.ppsOut ∧ s.clk.ppsOutFrom.toNat + 100000000 ≤ t.toNat then
      { s with clk := { s.clk with ppsOut := false } }
    else s

/-- The boundary beats that counting `n` beats in steps of `p` from beat `b` reaches (R3): for each multiple of 1,000,000
passed, the first counted value at or above it. -/
def boundaries (p b n : Nat) : List DWord :=
  (List.range ((b + n) / 1000000 - b / 1000000)).map (fun i =>
    BitVec.ofNat 64 (b + ((b / 1000000 + 1 + i) * 1000000 - b + (p - 1)) / p * p))

/-- `n` beats pass, counted in steps of `p` (R3, R27, R36, R38, R42, R44, R330, R398). Nothing counts while no island is
clocked (DESIGN CHOICE, log 6). -/
def elapseBy (p n : Nat) (s : State) : State :=
  if s.awake then
    let k := slewSteps s n
    let t0 := s.tai
    let s1 := (fullStages s).foldl (fun a o => bump o n a) s
    ppsOutAfter t0
      { s1 with
        pin := uartAfter n s1.pin
        clk := { s1.clk with
          taiQ := taiAfter s n k
          beat := s1.clk.beat + BitVec.ofNat 64 n
          due := s1.clk.due ++ boundaries p s1.clk.beat.toNat n
          slewLeft := if s1.clk.slewLeft > 0 then s1.clk.slewLeft - k else s1.clk.slewLeft + k
          slewDue := s1.clk.slewDue + BitVec.ofNat 64 (10000 * k) } }
  else s

/-- `n` beats pass on the running source (R27, R36). -/
def elapse (n : Nat) (s : State) : State := elapseBy s.period n s

/-- Counted beats from the present one to the first counted value at or above `b` (R27); 0 when it has passed. -/
def State.upTo (s : State) (b : Nat) : Nat := (b - s.clk.beat.toNat + (s.period - 1)) / s.period * s.period

/-- The first counted value at or above `b` is reached (R27, R102); nothing when it has passed
(DESIGN CHOICE, log 8). -/
def elapseTo (b : Nat) (s : State) : State := elapse (s.upTo b) s

/-- `n` beats pass; on the oscillator up to the next counted value (R27). -/
def wait (n : Nat) (s : State) : State := elapseTo (s.clk.beat.toNat + n) s

/-! Events (R363–R366). -/

/-- One console line (R398): 8 groups of 8 uppercase hexadecimal digits, CR LF. -/
def hexDigit (n : Nat) : Byte := BitVec.ofNat 8 (if n < 10 then 48 + n else 55 + n)
/-- The hexadecimal digits of bytes. -/
def hexBytes (b : Bytes) : Bytes := b.flatMap (fun x => [hexDigit (x.toNat / 16), hexDigit (x.toNat % 16)])
/-- The 32 bytes of an event record (R364). -/
def Event.bytes (e : Event) (phase : Bool) : Bytes :=
  leBytes 2 e.code.toNat ++
  [BitVec.ofNat 8 (bit phase + 2 * bit e.late + 4 * bit e.replayed + 8 * bit e.taiValid), 0] ++
  leBytes 4 e.boot.toNat ++ leBytes 8 e.beat.toNat ++ leBytes 8 e.tai.toNat ++
  leBytes 2 e.index.toNat ++ leBytes 2 e.arg0.toNat ++ leBytes 4 e.arg1.toNat
/-- The console line of an event record (R398). -/
def Event.line (e : Event) : Bytes :=
  let b := e.bytes false
  ((List.range 8).flatMap (fun i => hexBytes (slice (4 * i) 4 b) ++ (if i = 7 then [13, 10] else [32])))

/-- Queue an event's console line, or count it dropped (R398). -/
def console (e : Event) (s : State) : State :=
  if s.pin.uart.length < 32 then { s with pin := { s.pin with uart := s.pin.uart ++ [e.line] } }
  else { s with pin := { s.pin with
    uartDrops := if s.pin.uartDrops = 255 then 255 else s.pin.uartDrops + 1 } }

/-- Put an event into the queue at position `i` from its front, or count it lost (R365). -/
def insertEvent (i : Nat) (e : Event) (s : State) : State :=
  if s.obs.events.length < 512 then
    console e { s with obs := { s.obs with events := s.obs.events.take i ++ e :: s.obs.events.drop i } }
  else
    bump (cDev 1) 1 (mark 0x1A000 10 { s with obs := { s.obs with lost := s.obs.lost + 1, eventsLost := true } })

/-- An event stamped with the beat it is logged in. -/
def mkEvent (s : State) (code index arg0 arg1 : Nat) : Event :=
  { code := BitVec.ofNat 16 code, taiValid := s.clk.taiValid, boot := s.sec.bootCount, beat := s.clk.beat,
    tai := s.taiOr0, index := BitVec.ofNat 16 index, arg0 := BitVec.ofNat 16 arg0, arg1 := BitVec.ofNat 32 arg1 }

/-- Event `x`, logged in the same beat as `e`, stands behind it (R365): events of one beat join in ascending CODE, then INDEX. -/
def Event.after (x e : Event) : Bool :=
  x.beat == e.beat && x.boot == e.boot && !x.replayed && x.code != 0x0201 && x.code != 0x0301 &&
  (decide (e.code < x.code) || (x.code == e.code && decide (e.index < x.index)))
/-- Put an event behind those that join before it (R365). -/
def joinEvent (e : Event) (s : State) : State :=
  insertEvent (s.obs.events.length - (s.obs.events.reverse.takeWhile (fun x => x.after e)).length) e s
/-- Log an event at the queue's tail (R365). -/
def logEvent (code index arg0 arg1 : Nat) (s : State) : State := joinEvent (mkEvent s code index arg0 arg1) s

/-! The host link's output (R118–R127). -/

/-- The four bytes of a word. -/
def wordBytes (w : Word) : Bytes := leBytes 4 w.toNat

/-- The answer to the last access from outside. -/
def answer (r : Resp) (s : State) : State := { s with host := { s.host with resp := r } }

/-- Send (R118–R121). What is sent takes the link out of L1 (R129). -/
def emit (o : Out) (s : State) : State :=
  { s with host := { s.host with out := s.host.out ++ [o], inL1 := false } }

/-- The largest write the device issues: Max Payload Size of Device Control, at most 512 B (R109, R121)
(PRESUMED, log 5). -/
def State.maxPayload (s : State) : Nat := min 512 (128 * 2 ^ ((s.host.devCtl >>> 5).toNat % 8))
/-- The largest read the device issues: Max Read Request Size of Device Control, at most 4,096 B (R109, R121)
(PRESUMED, log 5). -/
def State.maxRequest (s : State) : Nat := min 4096 (128 * 2 ^ ((s.host.devCtl >>> 12).toNat % 8))
/-- Enable Relaxed Ordering of Device Control (R119) (PRESUMED, log 5). -/
def State.relaxed (s : State) : Bool := s.host.devCtl.getLsbD 4

/-- The MSI-X vector a context signals on; 0 for a ward means none (R117). -/
def vectorOf (c : Ctx) (s : State) : Nat :=
  match c with
  | .admin => 0
  | .ward w => (s.ward w).vector.toNat
/-- The coalescing pair of a context (R118). -/
def coalOf (c : Ctx) (s : State) : Byte × Byte :=
  match c with
  | .admin => ((s.reg 0x04008).setWidth 8, ((s.reg 0x04008) >>> 8).setWidth 8)
  | .ward w => ((s.ward w).coalCount, (s.ward w).coalTime)

/-- Some context on the vector meets R118 now. -/
def vectorDue (v : Nat) (s : State) : Bool :=
  let on := s.host.pend.filter (fun p => p.vector == v)
  on.any (fun p => p.time == 0 || decide (p.beat.toNat + p.time.toNat * 1000 ≤ s.clk.beat.toNat)) ||
  on.any (fun p =>
    let mine := on.filter (fun q => decide (q.ctx = p.ctx))
    match mine.getLast? with
    | some q => decide ((if q.count = 0 then 1 else q.count.toNat) ≤ mine.length)
    | none => false)

/-- Vector `v` or the function is masked (R120). -/
def masked (v : Nat) (s : State) : Bool := s.host.msixMask || (s.reg (0x06000 + 16 * v + 12)).getLsbD 0

/-- Send vector `v`'s message and clear the pending state of every context on it (R118). -/
def sendMsix (v : Nat) (s : State) : State :=
  emit (.msix v) { s with host := { s.host with
    pend := s.host.pend.filter (fun p => p.vector != v)
    pba := s.host.pba &&& ~~~(1#256 <<< v) } }

/-- Vector `v`'s message is due if R118 says so: sent, or its PBA bit set while masked (R117, R120). None is sent while no
DMA may be issued (R125, R127); at the start-up stage ERROR only vector 0 sends (R103). -/
def fireVector (v : Nat) (s : State) : State :=
  if s.host.msixEnable && vectorDue v s && s.dmaOpen && (s.sys.stage != 7 || v == 0) then
    if masked v s then { s with host := { s.host with pba := s.host.pba ||| (1#256 <<< v) } }
    else sendMsix v s
  else s

/-- A completion or event record of `c` that has been written becomes pending on its vector, with the pair in force in this
beat (R118). A ward without a vector signals on none (R117). -/
def joinPend (c : Ctx) (s : State) : State :=
  if decide (c ≠ .admin) && vectorOf c s == 0 then s
  else
    { s with host := { s.host with
      pend := s.host.pend ++ [⟨c, vectorOf c s, (coalOf c s).1, (coalOf c s).2, s.clk.beat⟩] } }
/-- It becomes pending, and its vector sends where R118 says so. -/
def addPend (c : Ctx) (s : State) : State := fireVector (vectorOf c s) (joinPend c s)
/-- What is pending for the contexts `gone` picks is dropped: a ring whose configuration is cleared signals on no vector
(R117). -/
def dropPend (gone : Ctx → Bool) (s : State) : State :=
  { s with host := { s.host with pend := s.host.pend.filter (fun p => !gone p.ctx) } }

/-! Rings (R132–R137). -/

/-- A context's rings. -/
def State.ringOf (s : State) (c : Ctx) : Ring :=
  match c with
  | .admin => s.ring.admin
  | .ward w => (s.ward w).ring
/-- Replace a context's rings. -/
def State.setRing (s : State) (c : Ctx) (r : Ring) : State :=
  match c with
  | .admin => { s with ring := { s.ring with admin := r } }
  | .ward w => s.updWard w (fun x => { x with ring := r })
/-- The context has rings: applied for the admin context, configured for a ward. -/
def State.ringUp (s : State) (c : Ctx) : Bool :=
  match c with
  | .admin => s.ring.placed
  | .ward w => (s.ward w).configured
/-- Submission ring size (R132). -/
def Ring.sqSize (r : Ring) : Nat := 2 ^ r.sqLog
/-- Completion ring size (R132). -/
def Ring.cqSize (r : Ring) : Nat := 2 ^ r.cqLog
/-- `(a - b)` modulo the size. -/
def modSub (a b size : Nat) : Nat := (a + size - b % size) % size
/-- Free completion slots that no fetched entry has reserved (R143). -/
def Ring.free (r : Ring) : Nat := (r.cqSize - 1) - modSub r.cqTail r.cqHead r.cqSize - r.reserved

/-- The 16 bytes of a completion entry (R136). -/
def complBytes (tag status orig sqHead detail beat : Nat) (phase chained : Bool) : Bytes :=
  leBytes 2 tag ++ [BitVec.ofNat 8 status, BitVec.ofNat 8 orig] ++ leBytes 2 sqHead ++
  [BitVec.ofNat 8 (bit phase + 2 * bit chained), 0] ++ leBytes 4 detail ++ leBytes 4 beat

/-- A write of `b` at `a` cut into pieces of at most `m` bytes that cross no multiple of `m` (R121). -/
def pieces (m : Nat) : Nat → DWord → Bytes → List (DWord × Bytes)
  | 0, _, _ => []
  | k + 1, a, b =>
    if b = [] then []
    else
      let n := m - a.toNat % m
      (a, b.take n) :: pieces m k (a + BitVec.ofNat 64 n) (b.drop n)
/-- A read of `n` bytes at `a` cut into requests of at most `m` bytes that cross no multiple of `m` (R121). -/
def requests (m : Nat) : Nat → DWord → Nat → List (DWord × Nat)
  | 0, _, _ => []
  | k + 1, a, n =>
    if n = 0 then []
    else
      let q := min n (m - a.toNat % m)
      (a, q) :: requests m k (a + BitVec.ofNat 64 q) (n - q)
/-- The requests for `n` bytes at `a` (R121). -/
def State.requestsFor (s : State) (a : DWord) (n : Nat) : List (DWord × Nat) := requests s.maxRequest (n / s.maxRequest + 2) a n
/-- Non-posted reads the function keeps outstanding (R121): 256, and 512 with the 10-bit tags of Device Control 2
(PRESUMED, log 5). -/
def State.tagLimit (s : State) : Nat := if s.host.devCtl2.getLsbD 12 then 512 else 256
/-- Non-posted reads that are out (R121). -/
def State.readsOut (s : State) : Nat := s.host.reads.length + (s.ring.jobs.map Job.asked).sum
/-- The completion timeout of Device Control 2 in beats (R121): 10 ms by default, else the shortest of the range
(PRESUMED, log 5). -/
def State.timeout (s : State) : Nat :=
  match s.host.devCtl2.toNat % 16 with
  | 1 => 50000
  | 2 => 1000000
  | 5 => 16000000
  | 6 => 65000000
  | 9 => 260000000
  | 10 => 1000000000
  | 13 => 4000000000
  | 14 => 17000000000
  | _ => 10000000
/-- An error is reported through AER (R122): bit `k` of the uncorrectable error status (PRESUMED, log 5). -/
def aer (k : Nat) (s : State) : State :=
  { s with host := { s.host with aerUncorr := s.host.aerUncorr ||| (1#32 <<< k) } }
/-- The bit of a read that fails (R122): a UR or CA completion is the completer's to report (PRESUMED, log 5). -/
def aerRead (w : ReadFail) (s : State) : State :=
  match w with
  | .timeout => aer 14 s
  | .poisoned => aer 12 s
  | .ecrc => aer 19 s
  | .unsupported => s
  | .abort => s

/-- Write held output, without its message (R119, R121, R136): a completion entry carries the beat and the submission head
of the beat it is written in. -/
def putOut (h : Held) (s : State) : State :=
  match h with
  | .data a b =>
    (pieces s.maxPayload (b.length / s.maxPayload + 2) a b).foldl (fun t p => emit (.data p.1 p.2 s.relaxed) t) s
  | .entry e =>
    joinPend e.ctx (emit (.completion e.addr (complBytes e.tag e.status e.orig (s.ringOf e.ctx).sqHead e.detail
      (s.clk.beat.toNat % 2 ^ 32) e.phase e.chained)) s)
/-- Write, or hold while the function may not issue DMA (R127); a written completion entry signals (R118). -/
def send (h : Held) (s : State) : State :=
  if s.dmaOpen then
    match h with
    | .data _ _ => putOut h s
    | .entry e => fireVector (vectorOf e.ctx s) (putOut h s)
  else { s with host := { s.host with held := s.host.held ++ [h] } }

/-- A ward becomes FAULTED (R50, R56), or, while RESETTING, only its cause is recorded (R51). On a ward that is FAULTED already
LAST_FAULT keeps the first cause, and on a RESETTING ward a trigger in any beat of the reset is recorded, not in the first alone
(DESIGN CHOICE, log 46). -/
def faultWard (w : WardId) (cause : BitVec 2) (s : State) : State :=
  match (s.ward w).state with
  | .sealed | .opened =>
    logEvent 0x0401 w.val cause.toNat 0 (s.updWard w (fun x => { x with state := .faulted, lastFault := cause }))
  | .resetting => s.updWard w (fun x => { x with lastFault := cause })
  | _ => s

/-- The completions that count toward MALFORMED_RATE (R56). -/
def countsMalformed (status : Nat) : Bool := status == 0x20 || status == 0x21 || status == 0x22 || status == 0x23

/-- Count a malformed completion; the one past the limit faults the ward (R56): a completion that takes the count to
MALFORMED_LIMIT + 1 exactly. Where the limit is lowered below the count of the tick, the next one does not (DESIGN CHOICE,
log 46). -/
def countMalformed (c : Ctx) (status : Nat) (s : State) : State :=
  match c with
  | .admin => s
  | .ward w =>
    if countsMalformed status then
      let n := (s.ward w).malformed + 1
      let s1 := s.updWard w (fun x => { x with malformed := n })
      if (s.ward w).malformedLimit.toNat ≠ 0 ∧ n = (s.ward w).malformedLimit.toNat + 1 then faultWard w 2 s1 else s1
    else s

/-- Write one completion entry into its reserved slot (R136, R137, R143). -/
def postCompletion (c : Ctx) (tag status orig detail : Nat) (chained : Bool) (s : State) : State :=
  if s.ringUp c then
    let r := s.ringOf c
    let tail := (r.cqTail + 1) % r.cqSize
    let s1 := s.setRing c { r with
      cqTail := tail, phase := if tail = 0 then !r.phase else r.phase, reserved := r.reserved - 1 }
    let s2 := bump (cQueue c 4) 1 s1
    let s3 := if status = 0x10 then bump (cQueue c 5) 1 s2 else if status = 0x11 then bump (cQueue c 6) 1 s2 else s2
    countMalformed c status
      (send (.entry ⟨c, r.cqBase + BitVec.ofNat 64 (16 * r.cqTail), tag, status, orig, detail, r.phase, chained⟩) s3)
  else s

/-! Jobs. -/

/-- The TAG of a job's FIRST entry (R136). -/
def Job.tag (j : Job) : Nat := fieldAt 2 2 j.entry
/-- The intent number of a job (R135). -/
def Job.intent (j : Job) : BitVec 48 := BitVec.ofNat 48 (fieldAt 8 6 j.entry)
/-- The FENCE flag of a job (R135). -/
def Job.fence (j : Job) : Bool := (byteAt 1 j.entry).getLsbD 3
/-- A CMD field: `len` bytes at entry offset `off`. -/
def Job.cmd (j : Job) (off len : Nat) : Nat := fieldAt off len j.entry
/-- The ward an admin job names (R178). -/
def Job.named (j : Job) : WardId := wardOf (j.cmd 0x20 2)

/-- The job with fetch number `id`. -/
def State.job (s : State) (id : Nat) : Option Job := s.ring.jobs.find? (fun j => j.id == id)
/-- Replace a job. -/
def State.setJob (s : State) (j : Job) : State :=
  { s with ring := { s.ring with jobs := listUpd (fun x => x.id == j.id) (fun _ => j) s.ring.jobs } }
/-- Remove a job. -/
def State.dropJob (s : State) (id : Nat) : State :=
  { s with ring := { s.ring with jobs := listDrop (fun x => x.id == id) s.ring.jobs } }

/-- The admin placement takes effect (R134, R162): indices 0, write phase 1, and admin fetch starts. -/
def applyAdmin (s : State) : State :=
  { s with ring := { s.ring with
    applying := false, fetching := true, placed := true
    admin := {
      sqBase := (s.reg 0x08004) ++ (s.reg 0x08000), cqBase := (s.reg 0x0800C) ++ (s.reg 0x08008)
      sqLog := bits 0 5 (s.reg 0x08010), cqLog := bits 8 5 (s.reg 0x08010), phase := true
      rangeBit := s.ring.admin.rangeBit, aheadBit := s.ring.admin.aheadBit } } }
/-- A placement that waits is applied once no admin job is left (R162). -/
def applyWhenClear (s : State) : State :=
  if s.ring.applying && !(s.ring.jobs.any (fun j => decide (j.ctx = .admin))) then applyAdmin s else s

/-- A job completes once (R136, R149): its entry leaves the die and its completion is written. -/
def finish (j : Job) (status orig detail : Nat) (s : State) : State :=
  applyWhenClear (postCompletion j.ctx j.tag status orig detail j.chained (s.dropJob j.id))

/-- The job with fetch number `id`, if it carries opcode `op` for context kind `admin`. -/
def State.jobFor (s : State) (id : Nat) (op : Nat) (admin : Bool) : Option Job :=
  match s.job id with
  | some j => if j.op.toNat = op ∧ decide (j.ctx = .admin) = admin then some j else none
  | none => none

/-! Intent numbers and the Ledger's context entries (R157, R158, R240). -/

/-- The high mark and the window of a context. -/
def State.highOf (s : State) (c : Ctx) : BitVec 48 :=
  match c with
  | .admin => s.ring.adminHigh
  | .ward w => (s.ward w).high
/-- The outcome window of a context, oldest first. -/
def State.windowOf (s : State) (c : Ctx) : List (BitVec 48 × Byte) :=
  match c with
  | .admin => s.ring.adminWindow
  | .ward w => (s.ward w).window

/-- A window after one more commit: the oldest of 16 is displaced (R240). -/
def pushWindow (n : BitVec 48) (st : Byte) (l : List (BitVec 48 × Byte)) : List (BitVec 48 × Byte) :=
  (if l.length < 16 then l else l.drop 1) ++ [(n, st)]

/-- A commit enters its number and status into the context entry and raises the high mark (R240). -/
def recordCommit (c : Ctx) (n : BitVec 48) (status : Nat) (s : State) : State :=
  let hi := if s.highOf c < n then n else s.highOf c
  let win := pushWindow n (BitVec.ofNat 8 status) (s.windowOf c)
  let next := fun (k : Nat) => if (s.windowOf c).length < 16 then k else (k + 1) % 16
  match c with
  | .admin => { s with ring := { s.ring with
      adminHigh := hi, adminWindow := win, adminOldest := next s.ring.adminOldest } }
  | .ward w => s.updWard w (fun x => { x with
      high := hi, window := win, winOldest := next x.winOldest, gapKept := x.shedGap })

/-- What step 8 of R149 finds for intent number `n` (R158): none when it is executed, otherwise ORIG_STATUS. -/
def dupCheck (high : BitVec 48) (win : List (BitVec 48 × Byte)) (n : BitVec 48) : Option Byte :=
  if high < n then none
  else match win.find? (fun p => p.1 == n) with
  | some p => some p.2
  | none => if win.length < 16 ∨ win.any (fun p => decide (p.1 ≤ n)) then some 0xFF else some 0xFE

/-- An admin job that needs an officer session and has not begun (R68). -/
def Job.needsSession (j : Job) : Bool :=
  decide (j.ctx = .admin) && j.op != 0x40 && j.op != 0x41 &&
  (decide (j.phase = .ready) || decide (j.phase = .waiting) || decide (j.phase = .heldReset) || decide (j.phase = .heldIntent))
/-- The session ends (R71). An admin entry fetched in the same beat is evaluated without it (R68). -/
def endSession (s : State) : State :=
  let late := s.ring.jobs.filter (fun j => s.sec.session && j.needsSession && decide (j.at_ = s.clk.beat))
  late.foldl (fun s j => finish j 0x33 0 0 s) { s with sec := { s.sec with session := false, idleTicks := 0 } }

/-- Write `d` at the data segments of a job in order (R145, R146). -/
def scatter : List (DWord × Nat) → Bytes → State → State
  | [], _, s => s
  | (a, n) :: t, d, s => if d = [] then s else scatter t (d.drop n) (send (.data a (d.take n)) s)

/-- A fresh free value (the manual states none) (DESIGN CHOICE, log 4). -/
def freeWord (s : State) : Word × State := (Config.freeWord s.fresh, { s with fresh := s.fresh + 1 })

end Sys2Proof.Machine
end

