-- ==== Sys2Proof/Machine/Operands.lean ====
section
/-! DEFINITION. The operand forms of a command: what each opcode of R166 and R173 carries, which bytes of its
entry are reserved (R135, R164, R167–R182), and the checks of R149 in their order. -/

namespace Sys2Proof.Machine

/-- FLAGS of an entry (R135). -/
def entFirst (e : Bytes) : Bool := (byteAt 1 e).getLsbD 0
/-- LAST (R135). -/
def entLast (e : Bytes) : Bool := (byteAt 1 e).getLsbD 1
/-- INDIRECT (R135). -/
def entIndirect (e : Bytes) : Bool := (byteAt 1 e).getLsbD 2
/-- DATA_PTR (R135). -/
def entPtr (e : Bytes) : Nat := fieldAt 0x10 8 e
/-- DATA_LEN (R135). -/
def entLen (e : Bytes) : Nat := fieldAt 0x18 4 e

/-- The opcode is defined for its kind of context (R166, R173). -/
def opDefined (admin : Bool) (op : Nat) : Bool :=
  if admin then within 0x40 0x55 op && op != 0x47 && op != 0x4F else within 0x01 0x07 op

/-- The opcode carries an intent number (R166, R173). -/
def opIntent (op : Nat) : Bool :=
  op == 0x02 || op == 0x03 || op == 0x06 || op == 0x43 || op == 0x44 || within 0x48 0x55 op

/-- The transfer length of an entry's opcode in bytes; 0 moves no data (R165, R166, R173). -/
def transferLen (e : Bytes) : Nat :=
  let op := (byteAt 0 e).toNat
  if op = 0x01 ∨ op = 0x02 then fieldAt 0x28 4 e * 4096
  else if op = 0x07 then 64
  else if op = 0x40 then 256
  else if op = 0x48 then 32
  else if op = 0x50 then fieldAt 0x22 2 e * 64
  else 0

/-- The opcode moves data (R166, R173). -/
def opMoves (op : Nat) : Bool :=
  op == 0x01 || op == 0x02 || op == 0x07 || op == 0x40 || op == 0x48 || op == 0x50

/-- Data flows from the host (R166, R173). -/
def opFromHost (op : Nat) : Bool := op == 0x02 || op == 0x48 || op == 0x50

/-- First offset past the CMD bytes an opcode defines when those are contiguous from 0x20 (R167–R182). -/
def cmdEnd (op : Nat) : Nat :=
  if op = 0x01 ∨ op = 0x02 ∨ op = 0x03 then 0x2D
  else if op = 0x04 ∨ op = 0x06 ∨ op = 0x41 ∨ op = 0x43 ∨ op = 0x44 then 0x40
  else if op = 0x46 then 0x24
  else if op = 0x48 then 0x2C
  else if op = 0x49 ∨ op = 0x4A ∨ op = 0x4E then 0x22
  else if op = 0x4B then 0x2C
  else if op = 0x4C then 0x39
  else if op = 0x4D then 0x27
  else if op = 0x50 then 0x24
  else if op = 0x51 then 0x26
  else if op = 0x52 ∨ op = 0x53 then 0x26
  else if op = 0x54 then 0x22
  else if op = 0x55 then 0x2A
  else 0x20

/-- Reserved CMD bytes inside that range: RESIZE_WARD 0x22–0x23; REBUILD_CTRL 0x23; SCRUB_CTRL 0x22–0x23
(R178, R182). -/
def cmdGaps (op : Nat) : List Nat :=
  if op = 0x4B then [0x22, 0x23] else if op = 0x52 then [0x23] else if op = 0x53 then [0x22, 0x23] else []

/-- The opcode carries WARD at 0x20 (R178, R181). -/
def opNamesWard (op : Nat) : Bool := within 0x48 0x4E op

/-- The reserved bits of byte `i` of an entry, as a mask (R135, R145, R157, R164). -/
def reservedBits (op : Nat) (first : Bool) (i : Nat) : Byte :=
  if i = 0x01 then 0xF0
  else if within 0x04 0x07 i || within 0x0E 0x0F i || within 0x1C 0x1F i then 0xFF
  else if within 0x08 0x0D i then (if first && opIntent op then 0 else 0xFF)
  else if 0x20 ≤ i then
    (if !first then 0xFF
     else if cmdEnd op ≤ i || (cmdGaps op).contains i then 0xFF
     else if i = 0x21 && opNamesWard op then 0xF0
     else 0)
  else 0

/-- The first byte of an entry with a reserved bit set (R149 step 5). -/
def reservedByte (op : Nat) (first : Bool) (e : Bytes) : Option Nat :=
  (List.range 64).find? (fun i => byteAt i e &&& reservedBits op first i ≠ 0)

/-- The first reserved byte over all entries of a job, counted in 64-byte steps (R149, R188). -/
def reservedOver (op : Nat) : Nat → List Bytes → Option Nat
  | _, [] => none
  | k, e :: t =>
    match reservedByte op (k == 0) e with
    | some i => some (64 * k + i)
    | none => reservedOver op (k + 1) t

/-- A value that lies beyond a limit of its opcode (R164): OUT_OF_RANGE at step 9, whatever else the job asks (R167, R182)
(DEDUCED, log 16). -/
def pastLimit (e : Bytes) : Bool :=
  let op := (byteAt 0 e).toNat
  let b := fun i => (byteAt i e).toNat
  let rate := decide (b 0x21 = 1) && !within 1 1000 (fieldAt 0x24 2 e)
  if op = 0x01 ∨ op = 0x02 then decide (256 < fieldAt 0x28 4 e)
  else if op = 0x03 then decide (65536 < fieldAt 0x28 4 e)
  else if op = 0x50 then decide (256 < fieldAt 0x22 2 e)
  else if op = 0x51 then decide (3 < b 0x20)
  else if op = 0x52 then decide (3 < b 0x20) || decide (0x0F < b 0x22) || rate
  else if op = 0x53 then decide (3 < b 0x20) || rate
  else if op = 0x55 then decide (b 0x29 = 1) && !within 7 16 (b 0x28)
  else false

/-- A reserved encoding, a zero count or a value that R181 calls MALFORMED in the CMD bytes: the offset of the field
(R164, R167, R176, R178, R181, R182, R184) (DEDUCED, log 16). -/
def cmdBreach (e : Bytes) : Option Nat :=
  let op := (byteAt 0 e).toNat
  let b := fun i => (byteAt i e).toNat
  let bad := fun (l : List (Bool × Nat)) => (l.find? (fun p => p.1)).map Prod.snd
  let count := fieldAt 0x28 4 e
  let ringsClear := (e.drop 0x22).all (· == 0)
  if op = 0x01 ∨ op = 0x02 then bad [(count = 0, 0x28), (1 < b 0x2C, 0x2C)]
  else if op = 0x03 then bad [(count = 0, 0x28), (1 < b 0x2C, 0x2C)]
  else if op = 0x46 then bad [(fieldAt 0x20 4 e ≠ 0x5A45524F, 0x20)]
  else if op = 0x48 then
    bad [(3 < b 0x22 ∨ (fieldAt 0x24 4 e = 0 ∧ b 0x22 ≠ 0), 0x22),
         (3 < b 0x23 ∨ (fieldAt 0x28 4 e = 0 ∧ b 0x23 ≠ 0), 0x23)]
  else if op = 0x4C then
    if ringsClear then none
    else bad [(!within 4 16 (b 0x22), 0x22), (!within 4 16 (b 0x23), 0x23), (!within 1 64 (b 0x25), 0x25),
              (b 0x26 = 0, 0x26), (fieldAt 0x28 8 e % 4096 ≠ 0, 0x28), (fieldAt 0x30 8 e % 4096 ≠ 0, 0x30)]
  else if op = 0x4D then bad [(!within 1 64 (b 0x23), 0x23), (b 0x24 = 0, 0x24)]
  else if op = 0x50 then bad [(fieldAt 0x22 2 e = 0, 0x22)]
  else if op = 0x51 then
    bad [(!within 1 3 (b 0x21), 0x21),
         (3 < b 0x22 ∨ (b 0x21 = 1 ∧ b 0x22 = 0) ∨ (b 0x21 = 2 ∧ b 0x22 ≠ 0), 0x22),
         (0x0F < b 0x23 ∧ b 0x23 ≠ 0xFF, 0x23),
         (b 0x21 = 2 ∧ fieldAt 0x24 2 e ≠ 0, 0x24)]
  else if op = 0x52 ∨ op = 0x53 then bad [(!within 1 2 (b 0x21), 0x21)]
  else if op = 0x55 then
    bad [(b 0x29 = 1 ∧ fieldAt 0x20 8 e % 4096 ≠ 0, 0x20), (1 < b 0x29, 0x29)]
  else none

/-- A breach of step 6 in one entry (R145–R147, R157): its byte, counted from the entry. A standalone entry whose DATA_LEN is
not the transfer length breaks it there, unless its count is 0 (DEDUCED, log 16). -/
def formBreach (op : Nat) (standalone : Bool) (first : Bool) (e : Bytes) : Option Nat :=
  let seg := decide (entPtr e % 4 = 0)
  let len := decide (entLen e ≠ 0) && decide (entLen e % 4 = 0)
  let bad := fun (l : List (Bool × Nat)) => (l.find? (fun p => p.1)).map Prod.snd
  match bad [
    (entIndirect e && (!standalone || !opMoves op), 0x01),
    (first && opIntent op && fieldAt 0x08 6 e == 0, 0x08),
    (!opMoves op && entPtr e != 0, 0x10),
    (!entIndirect e && opMoves op && !seg, 0x10),
    (!opMoves op && entLen e != 0, 0x18),
    (!entIndirect e && opMoves op && !len, 0x18),
    (standalone && !entIndirect e && opMoves op && transferLen e != 0 && entLen e != transferLen e, 0x18)] with
  | some i => some i
  | none => if first then cmdBreach e else none

/-- The first breach of step 6 over a job's entries (R149). -/
def formOver (op : Nat) (standalone : Bool) : Nat → List Bytes → Option Nat
  | _, [] => none
  | k, e :: t =>
    match formBreach op standalone (k == 0) e with
    | some i => some (64 * k + i)
    | none => formOver op standalone (k + 1) t

/-- What the checks of R149 decide. -/
inductive Verdict where
  | error (status : Nat) (detail : Option Nat)
  | table
  | pass
deriving DecidableEq, Repr

/-- Steps 1 to 4 of R149 for a ward job. -/
def wardGate (w : WardId) (op : Nat) (s : State) : Option Nat :=
  let x := s.ward w
  if s.inHold then some 0x12
  else match x.state with
  | .faulted => some 0x31
  | .sealed => if op = 0x04 ∨ op = 0x07 then none else some 0x30
  | .opened =>
    if x.enrol ∧ !(within 0x04 0x07 op) then some 0x30
    else if opDefined false op then none else some 0x20
  | _ => some 0x30

/-- Steps 1 to 4 of R149 for an admin job (R68, R85, R104, R173). -/
def adminGate (op : Nat) (s : State) : Option Nat :=
  if s.inHold ∧ within 0x51 0x53 op then some 0x12
  else if s.sec.error ∧ op ≠ 0x40 ∧ op ≠ 0x46 then some 0x12
  else if !s.sec.session ∧ op ≠ 0x40 ∧ op ≠ 0x41 ∧ !(op = 0x43 ∧ s.pwr.mode = .provisioning) then some 0x33
  else if opDefined true op then none else some 0x20

/-- Steps 1 to 4 of R149 (DEDUCED, log 15). -/
def gate (c : Ctx) (op : Nat) (s : State) : Option Nat :=
  match c with
  | .admin => adminGate op s
  | .ward w => wardGate w op s

/-- The earlier of two bytes in ring order (R149). -/
def firstByte (a b : Option Nat) : Option Nat :=
  match a, b with
  | some i, some j => some (min i j)
  | some i, none => some i
  | none, j => j
/-- The fragment table an entry names can be read (R138, R147): 1 to 256 entries, 4 B aligned, within one 4 KiB page. An
address that is not aligned is the bad address of step 7 (DEDUCED, log 16). -/
def tableOk (e : Bytes) : Bool :=
  within 1 256 (entLen e) && decide (entPtr e % 4 = 0) && decide (entPtr e % 4096 + 16 * entLen e ≤ 4096)
/-- Steps 6 and 7 of R149 on the entries: the chain's own breach (R148) is one of step 6; the first byte in ring order is
named. A chain whose lengths do not add up names none (DEDUCED, log 16). -/
def checkForm (bad : Option Nat) (es : List Bytes) : Verdict :=
  let e := es.headD []
  let op := (byteAt 0 e).toNat
  match firstByte bad (formOver op (es.length == 1) 0 es) with
  | some i => .error 0x21 (some i)
  | none =>
    if entIndirect e then (if tableOk e then .table else .error 0x23 (some 0))
    else if opMoves op ∧ (es.map entLen).sum ≠ transferLen e then .error 0x21 none
    else .pass

/-- Steps 1 to 7 of R149. Since a reserved field of a fragment table is one of step 5, the table of an entry that may be
indirect is read before step 6 is judged (DEDUCED, log 15). -/
def checkEntries (c : Ctx) (bad : Option Nat) (es : List Bytes) (s : State) : Verdict :=
  let e := es.headD []
  let op := (byteAt 0 e).toNat
  match gate c op s with
  | some st => .error st none
  | none =>
    match reservedOver op 0 es with
    | some i => .error 0x22 (some i)
    | none =>
      if es.length = 1 ∧ bad = none ∧ entIndirect e ∧ opMoves op ∧ tableOk e then .table
      else checkForm bad es

/-- The data segments of a job that is not indirect (R145). -/
def segsOf (es : List Bytes) : List (DWord × Nat) :=
  if opMoves (byteAt 0 (es.headD [])).toNat then es.map (fun e => (BitVec.ofNat 64 (entPtr e), entLen e)) else []

/-- The entries of a fragment table (R138). -/
def fragments : Nat → Bytes → List (Nat × Nat × Nat)
  | 0, _ => []
  | n + 1, b => (fieldAt 0 8 b, fieldAt 8 4 b, fieldAt 12 4 b) :: fragments n (b.drop 16)

/-- Steps 5 to 7 on a fragment table that has arrived, and on its entry (R138, R147, R149). -/
def checkTable (e : Bytes) (l : List (Nat × Nat × Nat)) : Verdict :=
  if l.any (fun f => f.2.2 != 0) then .error 0x22 none
  else match checkForm none [e] with
  | .error st d => .error st d
  | _ =>
  if l.any (fun f => f.1 % 4 != 0 || f.2.1 == 0 || f.2.1 % 4 != 0) then .error 0x23 (some 0)
  else if (l.map (fun f => f.2.1)).sum ≠ transferLen e then .error 0x23 (some 0)
  else .pass

/-- A fetched and unfinished job of the same context that carries an intent number and was fetched before `j`. -/
def priorIntents (j : Job) (s : State) : List Job :=
  s.ring.jobs.filter (fun k => decide (k.ctx = j.ctx) && decide (k.id < j.id) && opIntent k.op.toNat)
/-- Step 8 of R149 has not been made on this job (R192): its table is still being read, or it waited for such a job and no
longer for an equal number. -/
def unjudged (k : Job) (s : State) : Bool :=
  decide (k.phase = .needTable) ||
  (decide (k.phase = .heldIntent) && !(priorIntents k s).any (fun x => x.intent == k.intent))
/-- Step 8 of R149 for a job that passed steps 1 to 7 (R158, R192): it is held behind an equal number, or behind an earlier
job whose step 8 is still to come, or it is a duplicate, or may run (DEDUCED, log 15). -/
def stepEight (j : Job) (s : State) : JobPhase ⊕ Nat :=
  if !opIntent j.op.toNat then .inl .ready
  else if (priorIntents j s).any (fun k => k.intent == j.intent || unjudged k s) then .inl .heldIntent
  else match dupCheck (s.highOf j.ctx) (s.windowOf j.ctx) j.intent with
  | some o => .inr o.toNat
  | none => .inl .ready

/-- DETAIL for a verdict: the byte it names, 0 for a status without one, or a free value where the manual
states none (R188) (DEDUCED, log 16). -/
def verdictDetail (status : Nat) (d : Option Nat) (s : State) : Nat × State :=
  if status ≠ 0x21 ∧ status ≠ 0x22 then (0, s)
  else match d with
  | some i => (i, s)
  | none => ((freeWord s).1.toNat, (freeWord s).2)

/-- Complete a job with a MALFORMED or RESERVED_SET status whose byte may be left open (DEDUCED, log 16). -/
def failWith (j : Job) (status : Nat) (d : Option Nat) (s : State) : State :=
  finish j status 0 (verdictDetail status d s).1 (verdictDetail status d s).2

/-- An admin command that waits for a running reset or flush of the ward it names (R51, R156, R179, R180)
(DEDUCED, log 13). -/
def holds (j : Job) (s : State) : Bool :=
  decide (j.ctx = .admin) &&
  ((within 0x48 0x4D j.op.toNat && decide ((s.ward j.named).state = .resetting)) ||
   (j.op == 0x4E && (s.ward j.named).flush.isSome))

/-- A job that passed steps 1 to 7 goes on to step 8: it runs, is held, or completes ALREADY_DONE
(DEDUCED, log 13). -/
def admitJob (j : Job) (s : State) : State :=
  match stepEight j s with
  | .inl p => s.setJob { j with phase := if p = .ready ∧ holds j s then .heldReset else p }
  | .inr o => finish j 0x03 o 0 s

end Sys2Proof.Machine
end

