-- ==== Sys2Proof/Machine/Records.lean ====
section
/-! DEFINITION. The MRAM byte for byte (R230): Ledger slots and who holds them (R230, R238), the records laid out, encrypted
and authenticated (R232–R234), context entries (R240) and key slots (R77). -/

namespace Sys2Proof.Machine

/-- The 64-byte block tag of a sector (R256). -/
def sectorTag (x : Sector) : Bytes :=
  fit 48 x.cov ++ [x.kind, x.group, x.column, x.sub] ++ leBytes 4 x.pboot.toNat ++ leBytes 8 x.pserial.toNat

/-! Slots. -/

/-- Insert a run (first, length) by its first. -/
def insertRun (r : Nat × Nat) : List (Nat × Nat) → List (Nat × Nat)
  | [] => [r]
  | q :: t => if r.1 ≤ q.1 then r :: q :: t else q :: insertRun r t
/-- The free runs below `limit` between held runs in ascending order, from `at_` on. -/
def gaps (limit : Nat) : Nat → List (Nat × Nat) → List (Nat × Nat)
  | at_, [] => if at_ < limit then [(at_, limit - at_)] else []
  | at_, (start, n) :: t =>
    let top := min start limit
    (if at_ < top then [(at_, top - at_)] else []) ++ gaps limit (max at_ (start + n)) t

/-- The first slot of the seal reserve: the last 360 of the 49,152 (R230, R238) (DESIGN CHOICE, log 45). -/
def sealReserve : Nat := 48792
/-- Slots that an intent's records hold: INTENT, COMMITs, live records, units reserved for deferred deltas. -/
def Intent.runs (i : Intent) : List (Nat × Nat) :=
  (i.slot, 1) :: (i.commits.map (fun c => (c.2, 1)) ++
    (i.datas.filter (·.live)).map (fun d => (d.slot, 17)) ++
    (i.parities.filter (·.live)).flatMap (fun p =>
      if p.deferred.isSome then [(p.slot, 1), (p.unit, 17)] else [(p.slot, 17)]))
/-- Slots whose release waits to be written. -/
def releaseRuns (l : List (PortItem × Nat)) : List (Nat × Nat) :=
  l.filterMap (fun p => match p.1 with
    | .release slot unit => some (slot, if unit then 17 else 1)
    | _ => none)
/-- Every run of slots that is held: by live records, by releases that wait, by retirement (R238, R246). -/
def State.heldSlots (s : State) : List (Nat × Nat) :=
  s.ledger.intents.flatMap Intent.runs ++ s.ledger.marks.map (fun m => (m.slot, 1)) ++
    releaseRuns s.ledger.port ++ releaseRuns s.ledger.waits ++ s.ledger.retired.map (fun n => (n, 1))
/-- The free runs outside the seal reserve and `extra`, ascending. -/
def State.freeRuns (s : State) (extra : List (Nat × Nat)) : List (Nat × Nat) :=
  gaps sealReserve 0 ((extra ++ s.heldSlots).foldr insertRun [])
/-- Free slots outside the seal reserve (R247). -/
def State.slotsFree (s : State) : Nat := ((s.freeRuns []).map Prod.snd).sum
/-- Slots the INTENT and COMMIT pool has left (R238): 5,272 less retired slots and the single slots in use. A deferred delta
and its COMMIT take theirs from it (DESIGN CHOICE, log 45). -/
def State.poolFree (s : State) : Nat :=
  5272 - (s.heldSlots.filter (fun r => r.2 == 1 && decide (r.1 < sealReserve))).length
/-- `n` single slots, the highest that are free (DESIGN CHOICE, log 45). -/
def State.singles (s : State) (n : Nat) : List Nat :=
  ((s.freeRuns []).reverse.flatMap (fun r => (List.range (min r.2 n)).map (fun k => r.1 + r.2 - 1 - k))).take n
/-- `n` runs of 17 slots for payload records, the lowest that are free beside `extra` (DESIGN CHOICE, log 45). -/
def State.units17 (s : State) (extra : List (Nat × Nat)) (n : Nat) : List Nat :=
  ((s.freeRuns extra).flatMap (fun r => (List.range (min (r.2 / 17) n)).map (fun k => r.1 + 17 * k))).take n

/-! Records. -/

/-- The header of a head slot (R232). -/
structure Head where
  kind : Nat
  slots : Nat
  context : Nat
  boot : Word
  serial : DWord
  owner : DWord
  index : Nat
/-- Its 32 bytes. -/
def Head.bytes (h : Head) : Bytes :=
  [BitVec.ofNat 8 h.kind, BitVec.ofNat 8 h.slots] ++ leBytes 2 h.context ++ leBytes 4 h.boot.toNat ++
  leBytes 8 h.serial.toNat ++ leBytes 8 h.owner.toNat ++ leBytes 2 h.index ++ zeros 6
/-- CONTEXT (R232). -/
def contextCode (c : Ctx) (capture : Bool) : Nat :=
  (match c with | .admin => 4096 | .ward w => w.val) + 8192 * bit capture
/-- The GCM nonce of a record (R74, R233): BOOT, then SERIAL. -/
def nonce (h : Head) : Bytes := slice 4 12 h.bytes
/-- A record in its slots (R232, R233): header in clear, BODY and payload encrypted, the tag at 0xF0 of the head slot. -/
def recordBytes (key : BitVec 256) (h : Head) (body payload : Bytes) : Bytes :=
  let plain := fit 208 body ++ payload
  let c := fit plain.length (Config.gcmCipher key (nonce h) h.bytes plain)
  h.bytes ++ c.take 208 ++ beBytes 16 (Config.gcmTag key (nonce h) h.bytes plain).toNat ++ c.drop 208

/-- BODY of an INTENT (R234). -/
def intentBody (i : Intent) : Bytes :=
  leBytes 6 i.number.toNat ++ [i.op, i.space] ++ leBytes 8 i.block ++ leBytes 4 i.count ++
  leBytes 2 i.datas.length ++ leBytes 2 i.parities.length ++ leBytes 8 (if i.capture then i.firstSeq.toNat else 0) ++
  leBytes 2 i.records ++ [BitVec.ofNat 8 i.group.val, 0] ++ fit 32 i.args
/-- GROUP, COLUMN, SUB and STRIPE of a body, with the byte at 0x03 (R234). -/
def placeBody (a : SubAddr) (b : Byte) : Bytes :=
  [BitVec.ofNat 8 a.group.val, BitVec.ofNat 8 a.column, BitVec.ofNat 8 a.sub, b] ++ zeros 4 ++ leBytes 8 a.stripe
/-- BODY of a DATA record (R234). -/
def dataBody (d : DataRec) : Bytes := placeBody d.addr 0 ++ sectorTag d.sector
/-- BODY of a PARITY_DELTA record (R234). -/
def parityBody (p : ParRec) : Bytes :=
  placeBody p.addr (BitVec.ofNat 8 (p.kind.toNat + 4 * bit p.full + 8 * bit p.deferred.isSome)) ++
  leBytes 2 (p.deferred.getD 0)
/-- Payload of a PARITY_DELTA record (R234). -/
def parityPayload (p : ParRec) : Bytes := if p.deferred.isSome then [] else fit 4096 p.delta
/-- BODY of a COMMIT (R234). -/
def commitBody (i : Intent) : Bytes :=
  leBytes 6 i.number.toNat ++ [0, 0] ++ leBytes 4 i.detail ++ zeros 4 ++
  (if i.capture then leBytes 8 (i.block + 1) ++ leBytes 8 i.nextSeq.toNat else [])
/-- One entry of APPEND_OPEN (R234). -/
def openEntry (e : (WardId × Nat) × (Word × DWord)) : Bytes :=
  leBytes 2 e.1.1.val ++ leBytes 2 e.1.2 ++ leBytes 4 e.2.1.toNat ++ leBytes 8 e.2.2.toNat
/-- Subtype of an INTENT_MARK (R234). -/
def MarkKind.code : MarkKind → Nat
  | .sealed _ _ _ => 1
  | .appendOpen _ => 2
  | .zeroizePending => 3
  | .torn _ _ => 4
/-- BODY of an INTENT_MARK (R234). -/
def MarkKind.body : MarkKind → Bytes
  | .sealed beat tai cause => leBytes 8 beat.toNat ++ leBytes 8 tai.toNat ++ [BitVec.ofNat 8 cause]
  | .appendOpen l => l.flatMap openEntry ++ (List.replicate (12 - l.length) ([0xFF, 0xFF] ++ zeros 14)).flatten
  | .zeroizePending => []
  | .torn c a => BitVec.ofNat 8 c.val :: ([BitVec.ofNat 8 a.group.val, BitVec.ofNat 8 a.column, BitVec.ofNat 8 a.sub] ++
      zeros 4 ++ leBytes 8 a.stripe)
/-- An INTENT_MARK in its slot (R232, R234). -/
def Mark.bytes (key : BitVec 256) (m : Mark) : Bytes :=
  recordBytes key ⟨5, 1, 0, m.boot, m.serial, 0, m.kind.code⟩ m.kind.body []
/-- A record of intent `i` with this type, length in slots, serial and index. -/
def Intent.record (key : BitVec 256) (i : Intent) (kind slots : Nat) (serial : DWord) (index : Nat) (body payload : Bytes) :
    Bytes :=
  recordBytes key ⟨kind, slots, contextCode i.ctx i.capture, i.boot, serial, i.serial, index⟩ body payload

/-- Change the live intent whose INTENT has this serial and belongs to this life. -/
def State.updIntent (s : State) (n : DWord) (f : Intent → Intent) : State :=
  { s with ledger := { s.ledger with intents := listUpd (fun i => i.serial == n && !i.replay) f s.ledger.intents } }
/-- The live intent with this serial in this life. -/
def State.intentOf (s : State) (n : DWord) : Option Intent := s.ledger.intents.find? (fun i => i.serial == n && !i.replay)
/-- The resolved record of deferred delta `k` of an intent. -/
def Intent.resolvedOf (i : Intent) (k : Nat) : Option ParRec := (i.resolving.find? (fun p => p.1 == k)).map Prod.snd

/-- Where a port item is written and what it writes (R231–R234); none where its record is gone. -/
def itemBytes (key : BitVec 256) (it : PortItem) (s : State) : Option (Nat × Bytes) :=
  match it with
  | .intent n => (s.intentOf n).map (fun i => (i.slot, i.record key 1 1 i.serial 0 (intentBody i) []))
  | .data n k => (s.intentOf n).bind (fun i => (i.datas[k]?).map (fun d =>
      (d.slot, i.record key 2 17 d.serial k (dataBody d) (fit 4096 d.sector.data))))
  | .parity n k => (s.intentOf n).bind (fun i => (i.parities[k]?).map (fun p =>
      (p.slot, i.record key 3 (if p.deferred.isSome then 1 else 17) p.serial (i.datas.length + k) (parityBody p)
        (parityPayload p))))
  | .commit n => (s.intentOf n).bind (fun i => (i.commits.head?).map (fun c =>
      (c.2, i.record key 4 1 c.1 0 (commitBody i) [])))
  | .resolved n k => (s.intentOf n).bind (fun i => (i.resolvedOf k).map (fun p =>
      (p.slot, i.record key 3 17 p.serial (i.datas.length + k) (parityBody p) (fit 4096 p.delta))))
  | .recommit n k => (s.intentOf n).bind (fun i => (i.resolvedOf k).bind (fun p =>
      (i.commits.find? (fun c => c.1 == p.serial + 1)).map (fun c => (c.2, i.record key 4 1 c.1 0 (commitBody i) []))))
  | .release slot _ => some (slot, 0 :: ((s.ledger.slots.get [] slot).drop 1))
  | .mark slot => (s.ledger.marks.find? (fun m => m.slot == slot)).map (fun m => (slot, m.bytes key))

/-- Write bytes into consecutive slots (R230). -/
def putSlots : Nat → Nat → Bytes → State → State
  | 0, _, _, s => s
  | n + 1, slot, b, s =>
    putSlots n (slot + 1) (b.drop 256)
      { s with ledger := { s.ledger with slots := s.ledger.slots.set [] slot (fit 256 b) } }
/-- A record's run moves to another place in the Ledger (R246). -/
def moveRun (old new : Nat) (s : State) : State :=
  let go := fun (n : Nat) => if n = old then new else n
  let par := fun (p : ParRec) => { p with
    slot := go p.slot, unit := if p.deferred.isNone then go p.unit else p.unit }
  { s with ledger := { s.ledger with
    marks := s.ledger.marks.map (fun m => { m with slot := go m.slot })
    intents := s.ledger.intents.map (fun i => { i with
      slot := go i.slot
      commits := i.commits.map (fun c => (c.1, go c.2))
      datas := i.datas.map (fun d => { d with slot := go d.slot })
      parities := i.parities.map par
      resolving := i.resolving.map (fun p => (p.1, par p.2)) }) } }

/-! Context entries and key slots. -/

/-- The outcome window in its 16 slots (R240): the oldest entry lies in slot `oldest`. -/
def windowBytes (oldest : Nat) (l : List (BitVec 48 × Byte)) : Bytes :=
  (List.range 16).flatMap (fun k =>
    match l[(k + 16 - oldest) % 16]? with
    | some p => leBytes 6 p.1.toNat ++ [p.2, 0]
    | none => zeros 8)
/-- Bytes 0x00–0x9F of a context entry (R240). -/
def contextHead (high : BitVec 48) (win : List (BitVec 48 × Byte)) (oldest pos : Nat) (seq : DWord) (gap : Word) : Bytes :=
  leBytes 6 high.toNat ++ [BitVec.ofNat 8 win.length, BitVec.ofNat 8 oldest] ++ windowBytes oldest win ++
  leBytes 8 pos ++ leBytes 8 seq.toNat ++ leBytes 4 gap.toNat ++ zeros 4
/-- The 192 bytes of the context entry at an index under the slot key (R240). -/
def contextBytes (key : BitVec 256) (index : Nat) (head : Bytes) : Bytes :=
  head ++ beBytes 16 ((Config.hmac key (leBytes 2 index ++ head)).toNat / 2 ^ 128) ++ zeros 16
/-- The context table as MRAM holds it (R240): wards at their number, the admin context at 4,096. A ward's entry holds what
its last write gave it. -/
def contextEntry (key : BitVec 256) (c : Ctx) (s : State) : Bytes :=
  match c with
  | .admin => contextBytes key 4096 (contextHead s.ring.adminHigh s.ring.adminWindow s.ring.adminOldest 0 0 0)
  | .ward w =>
    let x := s.ward w
    contextBytes key w.val (contextHead x.high x.window x.winOldest x.writePos x.seqKept x.gapKept)
/-- The 128-byte key slot of a ward under the slot key (R77). -/
def keySlot (key : BitVec 256) (w : WardId) (s : State) : Bytes :=
  let x := s.ward w
  let b := fit 72 x.wrapped ++ beBytes 32 x.verifier.toNat ++ leBytes 4 x.epoch.toNat ++ leBytes 2 w.val ++
    [BitVec.ofNat 8 x.fails, BitVec.ofNat 8 (bit x.keyPresent + 2 * bit x.enrol)]
  b ++ beBytes 16 ((Config.hmac key (leBytes 2 w.val ++ leBytes 4 x.epoch.toNat ++ b)).toNat / 2 ^ 128)

end Sys2Proof.Machine
end

