-- ==== Sys2Proof/Machine/Store.lean ====
section
/-! DEFINITION. Shared operations of the media side: stripe geometry (R251–R253), block tags (R256), the Stripe
Cache (R211–R224), Ledger releases (R235), torn sectors and parking (R296, R312), member and group failure
(R250, R262), and the Safe Hold trigger (R350). -/

namespace Sys2Proof.Machine

/-- CELL_BLOCKS of a format 0x01 cell (R287). -/
def cellBlocks : Nat := 449741120

/-! Geometry. -/

/-- Members of a group. -/
def Group.n (g : Group) : Nat := g.members.length
/-- Data columns (R248). -/
def Group.d (g : Group) : Nat := g.n - g.level
/-- The rotation of stripe `s` (R252). -/
def Group.rot (g : Group) (s : Nat) : Nat := (s + s / g.n) % g.n
/-- The member that holds column `c` of stripe `s` (R252). -/
def Group.memberOf (g : Group) (s c : Nat) : Nat := (g.rot s + g.level + c) % g.n
/-- The rebuild front has passed the stripe of this member (R269). -/
def Group.rebuilt (g : Group) (s m : Nat) : Bool :=
  (g.rebuild.active || g.rebuild.paused) && g.rebuild.member == m && decide (s < g.rebuild.front)
/-- The cell that holds column `c` of stripe `s` (R252, R269). -/
def Group.cellOf (g : Group) (s c : Nat) : CellId :=
  let m := g.memberOf s c
  match g.rebuilt s m, g.spare with
  | true, some x => x
  | _, _ => g.members.getD m 0
/-- Column `c` of stripe `s` lies on a FAILED member (R260). -/
def Group.lostCol (g : Group) (s c : Nat) : Bool :=
  let m := g.memberOf s c
  g.failed.contains m && !g.rebuilt s m
/-- The group state (R249): 0 OPTIMAL, 1 DEGRADED, 2 REBUILDING, 3 FAILED. -/
def Group.state (g : Group) : Nat :=
  if g.down then 3 else if g.rebuild.active then 2 else if g.failed = [] then 0 else 1

/-- Units of an extent. -/
def Extent.units (e : Extent) : Nat := (e.runs.map Prod.snd).sum
/-- The data unit that holds unit `ui` of an extent (R253). -/
def runUnit : List (Nat × Nat) → Nat → Option Nat
  | [], _ => none
  | (start, units) :: t, ui => if ui < units then some (start + ui) else runUnit t (ui - units)
/-- The extent of a ward's space (R253): 0 block space, 1 append stream. -/
def Ward.extent (x : Ward) (space : Nat) : Extent := if space = 0 then x.block else x.append
/-- Where a block lies (R253). -/
def locate (w : WardId) (space block : Nat) (s : State) : Option SubAddr :=
  let e := (s.ward w).extent space
  let d := (s.group e.group).d
  match runUnit e.runs (block / 16) with
  | some u => if d = 0 then none else some ⟨e.group, u / d, u % d, block % 16⟩
  | none => none

/-! Block tags. -/

/-- The covered part of a data sub-block's tag (R256). -/
def coverOf (space : Nat) (w : WardId) (epoch : Word) (block : Nat) (boot : Word) (serial : DWord)
    (data : Bytes) : Bytes :=
  let head := [1, BitVec.ofNat 8 space] ++ leBytes 2 w.val ++ leBytes 4 epoch.toNat ++ leBytes 8 block ++
    leBytes 4 boot.toNat ++ zeros 4 ++ leBytes 8 serial.toNat ++ leBytes 4 (crc32c data).toNat ++ zeros 8
  head ++ leBytes 4 (crc32c head).toNat
/-- A data sector at an address (R256). -/
def dataSector (a : SubAddr) (data cov : Bytes) : Sector :=
  ⟨data, cov, 0, BitVec.ofNat 8 a.group.val, BitVec.ofNat 8 a.column, BitVec.ofNat 8 a.sub, 0, 0⟩
/-- A parity sector of kind `k` (1 P, 2 Q, 3 R) at an address (R256). -/
def paritySector (a : SubAddr) (k : Nat) (data cov : Bytes) (boot : Word) (serial : DWord) : Sector :=
  ⟨data, cov, BitVec.ofNat 8 k, BitVec.ofNat 8 a.group.val, BitVec.ofNat 8 a.column, BitVec.ofNat 8 a.sub, boot, serial⟩
/-- The WRITTEN flag (R256). -/
def secWritten (x : Sector) : Bool := (byteAt 0 x.cov).getLsbD 0
/-- The record key of a sector (R256): (BOOT, SERIAL) for data, (PBOOT, PSERIAL) for parity. -/
def secKey (x : Sector) : Nat × Nat :=
  if x.kind = 0 then (fieldAt 0x10 4 x.cov, fieldAt 0x18 8 x.cov) else (x.pboot.toNat, x.pserial.toNat)
/-- Keys are ordered by BOOT, then SERIAL (R233). -/
def keyLt (a b : Nat × Nat) : Bool := decide (a.1 < b.1) || (a.1 == b.1 && decide (a.2 < b.2))
/-- DATA_CRC checks (R258). -/
def secCrcOk (x : Sector) : Bool := fieldAt 0x20 4 x.cov == (crc32c x.data).toNat
/-- TAG_CRC checks (R258). -/
def secTagOk (x : Sector) : Bool := fieldAt 0x2C 4 x.cov == (crc32c (x.cov.take 0x2C)).toNat
/-- The sector read is verified at this address (R258). -/
def verified (d : Nat) (a : SubAddr) (x : Sector) : Bool :=
  x.group.toNat == a.group.val && x.column.toNat == a.column && x.sub.toNat == a.sub &&
  (if a.column < d then
    x.kind == 0 &&
      (if secWritten x then secTagOk x && secCrcOk x else x.data.all (· == 0) && x.cov.all (· == 0))
   else x.kind.toNat == a.column - d + 1)

/-! Parity arithmetic. -/

/-- The coefficient of column `c` for parity kind `k` (0 P, 1 Q, 2 R) (R254). -/
def coef (k c : Nat) : Byte := gfPow (k * c)
/-- Every byte's sum, over data columns in order, of coefficient times byte (R254). -/
def paritySum (k len : Nat) (cols : List (Nat × Bytes)) : Bytes :=
  cols.foldl (fun acc p => xorBytes acc (gfScale (coef k p.1) p.2)) (zeros len)
/-- One elimination step on equations (coefficients, right-hand side): make the pivot row's leading entry 1
and clear that column from the rest. -/
def eliminate (p : List Byte × Bytes) (rows : List (List Byte × Bytes)) : List (List Byte × Bytes) :=
  let inv := gfInv (p.1.headD 0)
  let head := p.1.map (gfMul inv)
  let rhs := gfScale inv p.2
  rows.map (fun r => (xorBytes r.1.tail (gfScale (r.1.headD 0) head.tail), xorBytes r.2 (gfScale (r.1.headD 0) rhs)))
/-- Solve `n` unknown byte strings from `n` equations over GF(2^8) (R254: any p lost columns can be solved). -/
def gfSolve : Nat → List (List Byte × Bytes) → List Bytes
  | 0, _ => []
  | n + 1, rows =>
    match rows.find? (fun r => r.1.headD 0 != 0) with
    | none => []
    | some p =>
      let rest := eliminate p (listDrop (fun r => r == p) rows)
      let xs := gfSolve n rest
      let inv := gfInv (p.1.headD 0)
      let known := List.zipWith gfScale p.1.tail xs
      (gfScale inv (known.foldl xorBytes p.2)) :: xs
/-- The protected bytes of a sector (R254). -/
def secProt (x : Sector) : Bytes := x.data ++ x.cov
/-- Rebuild the lost data columns of a row from what was read (R260): protected bytes, by lost column. -/
def rebuildRow (d : Nat) (lost : List Nat) (got : List (Nat × Sector)) : List (Nat × Bytes) :=
  let have_ := got.filter (fun p => decide (p.1 < d))
  let pars := (got.filter (fun p => decide (d ≤ p.1))).take lost.length
  let eqs := pars.map (fun p =>
    let k := p.1 - d
    (lost.map (coef k), xorBytes (secProt p.2) (paritySum k 4144 (have_.map (fun q => (q.1, secProt q.2))))))
  List.zip lost (gfSolve lost.length eqs)

/-! The Stripe Cache. -/

/-- The set of a stripe unit (R211). -/
def cacheSet (a : SubAddr) : Nat := (16 * a.stripe + a.column + 8 * a.group.val) % 32
/-- A line with no valid sub-block is invalid. -/
def Line.valid (l : Line) : Bool := decide (l.subs ≠ []) || l.busy
/-- Line `k` (16 × set + way). -/
def State.line (s : State) (k : Nat) : Line := s.cache.lines.get {} k
/-- Replace line `k`. -/
def State.setLine (s : State) (k : Nat) (l : Line) : State :=
  { s with cache := { s.cache with lines := s.cache.lines.set {} k l } }
/-- The line key that holds a stripe unit, in a way in service (R213, R224). -/
def findLine (a : SubAddr) (s : State) : Option Nat :=
  (List.range 16).findSome? (fun v =>
    let k := 16 * cacheSet a + v
    let l := s.line k
    if l.valid && !s.cache.retired.getLsbD v && l.group == a.group && l.stripe == a.stripe && l.column == a.column
    then some k else none)
/-- The cached sub-block at an address (R213). -/
def cached (a : SubAddr) (s : State) : Option Sub :=
  match findLine a s with
  | some k => (s.line k).subs.get none a.sub
  | none => none
/-- A line becomes the most recently used (R220). -/
def touch (k : Nat) (s : State) : State :=
  { (s.setLine k { s.line k with used := s.cache.clock + 1 }) with
    cache := { (s.setLine k { s.line k with used := s.cache.clock + 1 }).cache with clock := s.cache.clock + 1 } }
/-- The class mask register (R213). -/
def State.classMask (s : State) (c : Nat) : BitVec 16 := (s.reg (0x0E040 + 4 * c)).setWidth 16
/-- The ways a class may allocate in, borrowing as R214 says. -/
def classWays (c : Nat) (s : State) : BitVec 16 :=
  let own := s.classMask c &&& ~~~s.cache.retired
  let spare := s.classMask 7 &&& ~~~s.cache.retired
  if own ≠ 0 then own else if spare ≠ 0 then spare else ~~~s.cache.retired
/-- The classes that borrow (R214). -/
def State.borrow (s : State) : BitVec 8 :=
  BitVec.ofNat 8 ((List.range 8).map (fun c =>
    if s.classMask c &&& ~~~s.cache.retired = 0 then 2 ^ c else 0)).sum
/-- A line has a dirty sub-block. -/
def Line.dirty (l : Line) : Bool := l.subs.any (fun p => match p.2 with | some x => x.dirty | none => false)
/-- The way a class takes for a new line of a set (R220): an invalid way, else the least recently used clean
line that is not BUSY. -/
def victim (c set : Nat) (s : State) : Option Nat :=
  let ways := (List.range 16).filter (fun v => (classWays c s).getLsbD v)
  match ways.find? (fun v => !(s.line (16 * set + v)).valid) with
  | some v => some v
  | none =>
    let clean := ways.filter (fun v => !(s.line (16 * set + v)).dirty && !(s.line (16 * set + v)).busy)
    clean.foldl (fun best v =>
      match best with
      | none => some v
      | some b => if (s.line (16 * set + v)).used < (s.line (16 * set + b)).used then some v else best) none
/-- Queue every dirty sub-block of a line for destage (R221). -/
def Line.queueAll (l : Line) : Line :=
  { l with subs := l.subs.map (fun p => (p.1, p.2.map (fun x => if x.dirty then { x with queued := true } else x))) }
/-- No way qualifies: the destage of the least recently used dirty line is started (R220). -/
def startEviction (c set : Nat) (s : State) : State :=
  let ways := (List.range 16).filter (fun v => (classWays c s).getLsbD v && (s.line (16 * set + v)).dirty)
  match ways.foldl (fun best v =>
      match best with
      | none => some v
      | some b => if (s.line (16 * set + v)).used < (s.line (16 * set + b)).used then some v else best) none with
  | some v => s.setLine (16 * set + v) (s.line (16 * set + v)).queueAll
  | none => s
/-- Put a sub-block into the cache for class `c`: into its line, or into a line allocated for it (R219, R220).
Where no way qualifies an eviction is started, and a committed data block waits with its class and policy (R220). -/
def install (c : Nat) (a : SubAddr) (x : Sub) (s : State) : State :=
  match findLine a s with
  | some k => touch k (s.setLine k { s.line k with subs := (s.line k).subs.set none a.sub (some x) })
  | none =>
    match victim c (cacheSet a) s with
    | some v =>
      let k := 16 * cacheSet a + v
      let s1 := if (s.line k).valid then bump (cWay v 3) 1 s else s
      let l : Line := { group := a.group, stripe := a.stripe, column := a.column, cls := BitVec.ofNat 3 c,
                        subs := Tab.set none [] a.sub (some x) }
      bump (cWay v 2) 1 (touch k (s1.setLine k l))
    | none =>
      let s1 := startEviction c (cacheSet a) s
      if x.dirty && decide (a.column < (s.group a.group).d) && !(s.cache.waits.any (fun w => w.2.1 == a)) then
        { s1 with cache := { s1.cache with waits := s1.cache.waits ++ [(c, a, x.policy.toNat)] } }
      else s1
/-- Change the cached sub-block at an address. -/
def updCached (a : SubAddr) (f : Sub → Option Sub) (s : State) : State :=
  match findLine a s, cached a s with
  | some k, some x => s.setLine k { s.line k with subs := (s.line k).subs.set none a.sub (f x) }
  | _, _ => s
/-- Count a hit on the way that holds an address. -/
def countHit (a : SubAddr) (s : State) : State :=
  match findLine a s with
  | some k => touch k (bump (cWay (k % 16) 0) 1 s)
  | none => s

/-- The live committed DATA record with the newest key at an address (R224, R245). -/
def ledgerData (a : SubAddr) (s : State) : Option Sector :=
  (s.ledger.intents.filter (fun i => decide (i.phase = .committed))).foldl (fun acc i =>
    i.datas.foldl (fun acc d => if d.live && d.addr == a then some d.sector else acc) acc) none
/-- A committed data block that found no way takes one, in its class and under its policy (R219, R220). -/
def retryWait (w : Nat × SubAddr × Nat) (s : State) : State :=
  let a := w.2.1
  let s1 := { s with cache := { s.cache with waits := s.cache.waits.filter (fun v => v.2.1 != a) } }
  match cached a s, ledgerData a s with
  | none, some x =>
    install w.1 a { sector := x, dirty := true, policy := BitVec.ofNat 3 w.2.2, queued := decide (w.2.2 ≠ 0) } s1
  | _, _ => s1
/-- Every block that waits for a way asks again, in ascending class (R219, R220). -/
def retryWaits (s : State) : State :=
  (List.range 8).foldl (fun s c => (s.cache.waits.filter (fun w => w.1 == c)).foldl (fun s w => retryWait w s) s) s
/-- The sub-block a read is served from without media: the cache, else its DATA record (R221, R224, R245). -/
def onDie (a : SubAddr) (s : State) : Option Sector :=
  match cached a s with
  | some x => some x.sector
  | none => ledgerData a s

/-- The policy the Region Attribute Table gives a block (R216), with the RAT counters it changes. -/
def ratMatches (g : GroupId) (space : Nat) (w : WardId) (s : State) : List (Nat × Nat) :=
  (List.range 16).filterMap (fun i =>
    let b := s.reg (0x0E104 + 8 * i)
    let r := s.cache.ratRange.get (0, 0) i
    if b.getLsbD 0 && b.getLsbD (8 + g.val) && b.getLsbD (12 + space) && decide (r.1 ≤ w.val) && decide (w.val ≤ r.2)
    then some (i, bits 4 4 b) else none)
/-- The winner among (index, priority) pairs in ascending index: highest priority, then lowest index. -/
def bestOf : List (Nat × Nat) → Option (Nat × Nat)
  | [] => none
  | p :: t => match bestOf t with
    | none => some p
    | some q => if p.2 < q.2 then some q else some p
/-- The write policy of a block (R216, R217). -/
def policyOf (g : GroupId) (space : Nat) (w : WardId) (s : State) : Nat × State :=
  let m := ratMatches g space w s
  match bestOf m with
  | none => (bits 0 3 (s.reg 0x0E010), s)
  | some (i, pr) =>
    let s1 := bump (cRat i 0) 1 s
    let s2 := if 1 < (m.filter (fun q => q.2 == pr)).length then bump (cRat i 1) 1 s1 else s1
    (bits 1 3 (s.reg (0x0E104 + 8 * i)), s2)

/-! Ledger releases. -/

/-- A port item releases a payload unit. -/
def freesUnit (p : PortItem × Nat) : Bool :=
  match p.1 with
  | .release _ unit => unit
  | _ => false
/-- Payload units reserved (R238, R247): those of live records, and those whose release is not yet written. -/
def State.units (s : State) : Nat :=
  (s.ledger.intents.map (fun i => (i.datas.filter (·.live)).length + (i.parities.filter (·.live)).length)).sum +
    (s.ledger.port.filter freesUnit).length + (s.ledger.waits.filter freesUnit).length
/-- Parity rows a list of sub-blocks touches: one per stripe and sub-block number. -/
def rowsOf (l : List SubAddr) : List (Nat × Nat) := (l.map (fun a => (a.stripe, a.sub))).eraseDups
/-- The sub-blocks of a job's or a capture block's range, in block order. -/
def blocksOf (w : WardId) (space first count : Nat) (s : State) : List SubAddr :=
  (List.range count).filterMap (fun i => locate w space (first + i) s)
/-- Payload units an intent over these sub-blocks needs (R238). -/
def unitsFor (g : Group) (l : List SubAddr) : Nat := l.length + (rowsOf l).length * g.level

/-- The intents waiting to reserve (R239), oldest first: a WRITE job, or a sealed append block. -/
inductive Waiting where
  | job (j : Job)
  | block (b : SealedBlk)

/-- The waiting intent's arrival number. -/
def Waiting.id : Waiting → Nat
  | .job j => j.id
  | .block b => b.id
/-- The sub-blocks a waiting intent writes. -/
def Waiting.blocks (x : Waiting) (s : State) : List SubAddr :=
  match x with
  | .job j => match j.ctx with
    | .ward w => if j.op = 2 then blocksOf w 0 (j.cmd 0x20 8) (j.cmd 0x28 4) s else []
    | .admin => []
  | .block b => blocksOf b.ward 1 b.block 1 s
/-- The group a waiting intent writes to. -/
def Waiting.group (x : Waiting) (s : State) : GroupId :=
  match x with
  | .job j => match j.ctx with
    | .ward w => (s.ward w).block.group
    | .admin => 0
  | .block b => (s.ward b.ward).append.group
/-- Jobs waiting for intake, in fetch order. -/
def hostWaiting (s : State) : List Job := s.ring.jobs.filter (fun j => decide (j.phase = .intake))
/-- The oldest of the two sources. -/
def oldestWaiting (s : State) : Option Waiting :=
  match hostWaiting s, s.cap.queue with
  | [], [] => none
  | j :: _, [] => some (.job j)
  | [], b :: _ => some (.block b)
  | j :: _, b :: _ => if j.id < b.id then some (.job j) else some (.block b)
/-- It can reserve its payload units and its pool slots (R238): INTENT and COMMIT, and one for each delta that may be
deferred (DESIGN CHOICE, log 45). -/
def canReserve (x : Waiting) (s : State) : Bool :=
  let n := unitsFor (s.group (x.group s)) (x.blocks s)
  decide (s.units + n ≤ 2560) && decide (2 + (n - (x.blocks s).length) ≤ s.poolFree) &&
  decide ((s.units17 [] n).length = n)
/-- AT_CAP as R239 and R325 say: it is set while the oldest waiting intent cannot reserve; where a release has let it
reserve, it comes next, and the bit stays while others wait. -/
def refreshCap (s : State) : State :=
  match oldestWaiting s with
  | none => { s with ledger := { s.ledger with atCap := false, owed := none } }
  | some x =>
    if canReserve x s then
      { s with ledger := { s.ledger with
        atCap := s.ledger.atCap && decide (1 < (hostWaiting s).length + s.cap.queue.length)
        owed := if s.ledger.atCap then some x.id else s.ledger.owed } }
    else { s with ledger := { s.ledger with atCap := true } }

/-- The port slots open to an item (R320): the last 8 take COMMITs and releases only. -/
def portLimit : PortItem → Nat
  | .commit _ => 64
  | .recommit _ _ => 64
  | .release _ _ => 64
  | _ => 56
/-- What waits for room at the port joins its queue where it fits (R231, R320). -/
def pumpPort (s : State) : State :=
  let r := s.ledger.waits.foldl (fun (acc : List (PortItem × Nat) × List (PortItem × Nat)) it =>
    if (acc.1.map Prod.snd).sum + it.2 ≤ portLimit it.1 then (acc.1 ++ [it], acc.2) else (acc.1, acc.2 ++ [it]))
    (s.ledger.port, [])
  { s with ledger := { s.ledger with port := r.1, waits := r.2 } }
/-- Hand items to the Ledger port (R231); under LEDGER_FAIL none is written (R246, R350). -/
def toPort (l : List (PortItem × Nat)) (s : State) : State :=
  if s.ledgerDead then s else pumpPort { s with ledger := { s.ledger with waits := s.ledger.waits ++ l } }
/-- Write an INTENT_MARK (R234): its serial, its slot, and its place at the port. -/
def addMark (k : MarkKind) (s : State) : State :=
  let slot := (s.singles 1).headD 0
  toPort [(.mark slot, 1)] { s with ledger := { s.ledger with
    marks := s.ledger.marks ++ [⟨k, s.sec.bootCount, s.ledger.nextSerial, slot⟩], nextSerial := s.ledger.nextSerial + 1 } }
/-- Release the marks that `f` picks. -/
def dropMarks (f : Mark → Bool) (s : State) : State :=
  if s.ledgerDead then s
  else toPort ((s.ledger.marks.filter f).map (fun m => (.release m.slot false, 1)))
    { s with ledger := { s.ledger with marks := s.ledger.marks.filter (fun m => !f m) } }

/-- Every record the intent owns has been released (R235). -/
def Intent.done (i : Intent) : Bool :=
  decide (i.phase = .committed) && i.datas.all (fun d => !d.live) && i.parities.all (fun p => !p.live)
/-- The releases of an intent's INTENT and COMMITs. -/
def Intent.freeHeads (i : Intent) : List (PortItem × Nat) :=
  (.release i.slot false, 1) :: i.commits.map (fun c => (.release c.2 false, 1))
/-- Release the INTENT and COMMIT of intents that own nothing more (R235 rule 6). -/
def pruneIntents (s : State) : State :=
  if s.ledgerDead then s
  else
    toPort ((s.ledger.intents.filter Intent.done).flatMap Intent.freeHeads)
      { s with ledger := { s.ledger with intents := s.ledger.intents.filter (fun i => !i.done) } }
/-- The release of a DATA or a PARITY_DELTA record: a deferred one holds a slot of the pool. -/
def DataRec.free (d : DataRec) : PortItem × Nat := (.release d.slot true, 1)
/-- The release of a PARITY_DELTA record. -/
def ParRec.free (p : ParRec) : PortItem × Nat := (.release p.slot p.deferred.isNone, 1)
/-- Release the records that `f` and `h` pick (R235, R261, R262). -/
def releaseWhere (f : Intent → DataRec → Bool) (h : Intent → ParRec → Bool) (s : State) : State :=
  let gone := s.ledger.intents.flatMap (fun i =>
    (i.datas.filter (fun d => d.live && f i d)).map DataRec.free ++
    (i.parities.filter (fun p => p.live && h i p)).map ParRec.free)
  let is := s.ledger.intents.map (fun i => { i with
    datas := i.datas.map (fun d => if f i d then { d with live := false } else d)
    parities := i.parities.map (fun p => if h i p then { p with live := false } else p) })
  if s.ledgerDead then s else pruneIntents (toPort gone { s with ledger := { s.ledger with intents := is } })

/-! Cells. -/

/-- Send a frame in the next free slot of an arm link (R277). -/
def armSend (c : CellId) (cmd arg : Nat) (s : State) : State :=
  s.updArm c (fun a => { a with queue := a.queue ++ [(BitVec.ofNat 4 cmd, BitVec.ofNat 18 arg)] })
/-- Park a loaded cell (R312): PARK in every slot until PARKED reads 1. -/
def parkCell (c : CellId) (s : State) : State :=
  let x := s.cell c
  if x.servo.loaded && !x.arm.parking then
    bump (cCell c 0xD0) 1 (s.setCell c { x with
      arm := { x.arm with parking := true },
      servo := { x.servo with tracking := false, writeSettled := false, seeking := false } })
  else s
/-- The cell parks as soon as its write has ended, where that was asked. -/
def parkAfter (c : CellId) (due : Option DWord) (s : State) : State := if due.isSome then parkCell c s else s
/-- The write gate falls; a sector cut this way is torn (R296): TORN is set and counted, and the mark is
written unless nothing more may be written to the Ledger (R350). -/
def dropGate (c : CellId) (s : State) : State :=
  let x := s.cell c
  match x.writing with
  | none => s.setCell c { x with wg := false, gateDue := none }
  | some k =>
    let a := (x.queue.find? (fun q => q.key == k)).map QWrite.addr
    let s1 := mark (0x12000 + 0x400 * c.val) 16 (bump (cCell c 0x38) 1 (s.setCell c { x with
      wg := false, writing := none, torn := true, gateDue := none
      queue := x.queue.map (fun q => if q.key = k then { q with torn := true } else q) }))
    parkAfter c x.gateDue (match a with
    | some a => if s.ledgerDead then s1 else addMark (.torn c a) s1
    | none => s1)
/-- No further sector write; the one in progress ends or is cut at beat `due`, and the cell then parks (R87, R337, R350). -/
def endAndPark (due : DWord) (c : CellId) (s : State) : State :=
  if (s.cell c).writing.isSome then s.updCell c (fun x => { x with gateDue := some due })
  else parkCell c (dropGate c s)
/-- A cell's gate falls when its beat has come. -/
def lateGate (s : State) (c : CellId) : State :=
  match (s.cell c).gateDue with
  | some b => if b ≤ s.clk.beat then dropGate c s else s
  | none => s
/-- Every gate whose beat has come falls (R87, R350). -/
def lateGates (s : State) : State := allCells.foldl lateGate s
/-- The retry path on a cell is cancelled and the buffer freed (R267, R299). -/
def cancelRetries (c : CellId) (s : State) : State :=
  { (s.updCell c (fun x => { x with retry := none, retryWait := [] })) with
    recoveries := s.recoveries.map (fun r => if r.cell = c then { r with retry := false } else r) }

/-- Abort a rebuild (R272). -/
def abortRebuild (g : GroupId) (s : State) : State :=
  if (s.group g).rebuild.active || (s.group g).rebuild.paused then
    logEvent 0x0708 g.val 0 0 (s.updGroup g (fun x => { x with rebuild := {} }))
  else s

/-- The group enters FAILED (R262): background work stops and the records that no ONLINE member can take are
released and counted. -/
def groupDown (g : GroupId) (s : State) : State :=
  let x := s.group g
  let keep := fun (a : SubAddr) => a.group != g || (decide (a.column < x.d) && !x.lostCol a.stripe a.column)
  let n := (s.ledger.intents.map (fun i => (i.datas.filter (fun d => d.live && !keep d.addr)).length +
    (i.parities.filter (fun p => p.live && p.addr.group == g)).length)).sum
  let s1 := logEvent 0x0704 g.val 0 0 (s.updGroup g (fun x => { x with down := true, scrub := { x.scrub with active := false } }))
  let s2 := bump (cGroup g 11) n (releaseWhere (fun _ d => !keep d.addr) (fun _ p => p.addr.group == g) (abortRebuild g s1))
  { s2 with cache := { s2.cache with
      drain := s2.cache.drain.filter (fun p => keep p.2)
      waits := s2.cache.waits.filter (fun w => keep w.2.1)
      lines := s2.cache.lines.mapAll {} (fun _ l =>
        if l.group = g then { l with subs := l.subs.map (fun p =>
          (p.1, p.2.map (fun y => if keep ⟨g, l.stripe, l.column, p.1⟩ then y else { y with dirty := false, queued := false }))) }
        else l) } }
/-- The writes queued on a cell leave it, and its torn-sector marks: their sub-blocks are queued for destage again (R261,
R262, R296) (DEDUCED, log 24). -/
def requeue (c : CellId) (s : State) : State :=
  ((s.cell c).queue.filter (fun q => !q.repair)).foldl
    (fun s q => updCached q.addr (fun y => some { y with queued := y.dirty }) s)
    (dropMarks (fun m => match m.kind with | .torn d _ => d == c | _ => false)
      (s.updCell c (fun x => { x with queue := [], writing := none })))

/-- A rebuild starts (R268). -/
def startRebuild (g : GroupId) (m rate : Nat) (copy : Bool) (s : State) : State :=
  s.updGroup g (fun x =>
    { x with rebuild :=
      if x.rebuild.paused && x.rebuild.member == m then { x.rebuild with paused := false, active := true, rate := rate, copy := copy }
      else { member := m, active := true, copy := copy, rate := rate } })

/-- Member `m` of group `g` becomes FAILED (R250, R260–R262, R268). -/
def failMember (g : GroupId) (m : Nat) (s : State) : State :=
  let x := s.group g
  if x.failed.contains m then s
  else
    let s1 := logEvent 0x0701 g.val m 0 (s.updGroup g (fun x => { x with failed := x.failed ++ [m] }))
    if x.level < x.failed.length + 1 then (if x.down then s1 else groupDown g s1)
    else
      let auto := bits 0 10 (s.reg (0x11028 + 0x400 * g.val))
      if x.rebuild.active && x.rebuild.member == m then s1.updGroup g (fun y => { y with rebuild := { y.rebuild with copy := false } })
      else if auto ≠ 0 ∧ x.spare.isSome ∧ !x.rebuild.active ∧ s.inService then startRebuild g m auto false s1
      else s1

/-- A lost cell leaves group `g`: its member becomes FAILED, or the spare leaves. -/
def cellGone (c : CellId) (s : State) (g : GroupId) : State :=
  let x := s.group g
  if !x.defined then s
  else match x.members.findIdx? (· == c) with
  | some m => failMember g m (requeue c s)
  | none =>
    if x.spare = some c then
      logEvent 0x0702 g.val c.val 0 ((abortRebuild g s).updGroup g (fun y => { y with spare := none }))
    else s
/-- The cell meets a cell-scope fault or is absent (R250): its member becomes FAILED, or the spare leaves. -/
def cellLost (c : CellId) (s : State) : State := allGroups.foldl (cellGone c) (cancelRetries c s)

/-- A cell-scope fault (R279, R281, R317): the gate falls, PARK goes in every slot, FAULT is recorded, and the
member fails. -/
def cellFault (c : CellId) (code : BitVec 3) (s : State) : State :=
  let s := if (s.cell c).servo.loaded && !(s.cell c).arm.parking then bump (cCell c 0xD0) 1 s else s
  cellLost c ((dropGate c s).updCell c (fun x => { x with
    fault := code, ready := false
    arm := { x.arm with parking := true }
    servo := { x.servo with tracking := false, writeSettled := false, seeking := false, reacquiring := false } }))

/-! The arm link and bring-up. -/

/-- A command frame (R278): CMD, SEQ, ARG and the CRC over bits 31 to 8. -/
def armFrame (cmd : Nat) (seq : BitVec 2) (arg : Nat) : Word :=
  let w := BitVec.ofNat 32 (cmd % 16 * 2 ^ 28 + seq.toNat * 2 ^ 26 + arg % 2 ^ 18 * 2 ^ 8)
  w ||| (crc8 w).setWidth 32

/-- The command may be sent: in Safe Hold only STATUS and PARK are (R350), and SPINDLE brake follows PARK, which waits for the
end of a sector write (R333, R337). -/
def armOpen (hold writing : Bool) (p : BitVec 4 × BitVec 18) : Bool :=
  (!hold || p.1 == 4 || p.1 == 6) && !(writing && p == (3, 2))
/-- The command of the next slot (R277, R279): PARK while parking, else the oldest command that waits and may be sent,
else the next STATUS page of 0 to 2. -/
def nextArm (hold writing : Bool) (a : ArmLink) : (Nat × Nat) × ArmLink :=
  if a.parking then ((4, 0), a)
  else match a.queue.find? (armOpen hold writing) with
  | some (cmd, arg) => ((cmd.toNat, arg.toNat), { a with queue := listDrop (armOpen hold writing) a.queue })
  | none => ((6, a.page), { a with page := (a.page + 1) % 3 })

/-- One slot begins: its command frame is sent (R277) (DESIGN CHOICE, log 27). -/
def armSlot (c : CellId) (s : State) : State :=
  s.updArm c (fun a =>
    let r := nextArm s.inHold (s.cell c).writing.isSome a
    let f := armFrame r.1.1 (a.seq + 1) r.1.2
    { r.2 with seq := a.seq + 1, sent := some f, sentLog := a.sentLog ++ [f] })

/-- The cell's vote slot is held (R332). -/
def State.slotHeld (s : State) (c : CellId) : Bool := s.pwr.votes.getLsbD (8 + c.val)
/-- The MEDIA domain is powered. -/
def State.mediaOn (s : State) : Bool := s.pwr.domains.getLsbD 6

/-- Bring-up begins (R282 step 1): AL_CLK starts and STATUS pages 3 to 5 are read. It waits for the slot, for MEDIA and
for a cell whose PRESENT pin reports it absent (R396). -/
def bringUp (c : CellId) (s : State) : State :=
  let x := s.cell c
  if s.slotHeld c && s.mediaOn && decide (x.bring = .off) && !x.absent && x.closing.isNone then
    armSlot c (s.setCell c { x with
      bring := .pages
      arm := { x.arm with queue := [(6, 3), (6, 4), (6, 5)], parking := false, badRun := 0, badTick := 0 } })
  else s
/-- Bring every cell up whose slot is held (R282, R336). -/
def bringUpAll (s : State) : State := allCells.foldl (fun s c => bringUp c s) s

/-! Safe Hold. -/

/-- Every media read and recovery stops, and the lines they filled are no longer BUSY (R267, R350). -/
def dropMedia (s : State) : State :=
  { s with
    reads := [], recoveries := []
    cells := s.cells.mapAll {} (fun _ x => { x with retry := none, retryWait := [] })
    cache := { s.cache with lines := s.cache.lines.mapAll {} (fun _ l =>
      if l.subs = [] then {} else { l with busy := false }) } }

/-- Work stops for as long as the device is not in Service (R245, R272, R273): it goes on at the next entry. -/
def pauseWork (s : State) : State :=
  { s with ledger := { s.ledger with replaying := false }, groups := s.groups.mapAll {} (fun _ g => { g with
    rebuild := if g.rebuild.active then { g.rebuild with active := false, paused := true, pending := true, sub := 0 } else g.rebuild
    scrub := if g.scrub.active then { g.scrub with active := false, pending := true } else g.scrub }) }
/-- Whether a fetched job completes HELD at a Safe Hold trigger (step 4 of R350): a ward job whose INTENT is not in the
Ledger, and under LEDGER_FAIL every ward job and every job whose COMMIT is still to come. -/
def heldAtHold (dead : Bool) (j : Job) : Bool :=
  if decide (j.ctx = .admin) then dead && (decide (j.phase = .journal) || decide (j.phase = .running))
  else dead || decide (j.phase ≠ .journal)
/-- Complete the jobs that `f` picks with one status. -/
def finishWhere (f : Job → Bool) (status : Nat) (s : State) : State :=
  (s.ring.jobs.filter f).foldl (fun s j => finish j status 0 0 s) s
/-- Record a refused vote (R335): the slot, the cause and the event. -/
def refuseVote (slot cause : Nat) (s : State) : State :=
  logEvent 0x0904 slot cause 0 (mark 0x01010 0 { s with pwr := { s.pwr with
    voteRefused := true, refuseCause := BitVec.ofNat 3 cause, refusedSlot := BitVec.ofNat 5 slot } })
/-- The events of this beat with one code, and their console lines, are taken back. -/
def takeBack (code : BitVec 16) (s : State) : State :=
  let out := s.obs.events.filter (fun e => e.code == code && e.beat == s.clk.beat && !e.replayed)
  { s with
    obs := { s.obs with events := s.obs.events.filter (fun e => !(out.contains e)) }
    pin := { s.pin with uart := s.pin.uart.filter (fun l => !(out.any (fun e => e.line == l))) } }
/-- A Safe Hold trigger wins over a sleep vote and over a release of the same beat (R353): the vote is refused, and the release
too, its causes standing again. -/
def holdWins (s : State) : State :=
  let s1 := if s.pwr.slept = some s.clk.beat then refuseVote 24 3 { s with pwr := { s.pwr with slept := none } } else s
  match s1.pwr.released with
  | some (b, causes) =>
    if b = s1.clk.beat then
      logEvent 0x0903 0 0 0 (takeBack 0x0902 { s1 with pwr := { s1.pwr with
        released := none, holdCause := s1.pwr.holdCause ||| causes } })
    else s1
  | none => s1
/-- Safe Hold is triggered with these cause bits (R349, R350, R353): causes accumulate, every switched domain is
powered, gates fall at the end of their sector or after 5 µs, loaded cells park, the arm link of every cell whose slot is
held opens, work pauses, ward jobs that have not begun complete HELD, and the event is logged. -/
def safeHold (cause : BitVec 7) (s : State) : State :=
  let s0 := holdWins s
  let s1 := { s0 with pwr := { s0.pwr with
    holdCause := s0.pwr.holdCause ||| cause
    mode := .safeHold
    domains := 0x7F
    sleepVote := false
    transition := if s0.pwr.transition = some .enterStandby ∨ s0.pwr.transition = some .zeroize then s0.pwr.transition else none } }
  let s2 := bringUpAll (allCells.foldl (fun s c => endAndPark (s.clk.beat + 5000) c s) (pauseWork s1))
  let s3 := finishWhere (heldAtHold s1.ledgerDead) 0x12 s2
  let s4 := dropMedia { s3 with ring := { s3.ring with turn := none, turnLeft := 0, turnPast := false } }
  logEvent 0x0901 0 cause.toNat 0 s4

end Sys2Proof.Machine
end

