-- ==== Sys2Proof/Machine/Capture.lean ====
section
/-! DEFINITION. Capture: frame acceptance (R196), the Tumbler (R201, R202), sampling, policing and admission
(R203, R204), records and append blocks (R205–R207), and the port rows. -/

namespace Sys2Proof.Machine

/-- The timestamp latency of a mode in beats (R193). -/
def modeLatency (m : Nat) : Nat := [42, 88, 31, 79, 247].getD m 0

/-- CAP_PORT_n.CTRL. -/
def portCtrl (p : PortId) (s : State) : Word := s.reg (0x0C000 + 0x400 * p.val)
/-- CAP_PORT_n.CTRL.MODE. -/
def portMode (p : PortId) (s : State) : Nat := bits 1 3 (portCtrl p s)
/-- CAP_PORT_n.STATUS.LINK_UP (R195). -/
def linkUp (p : PortId) (s : State) : Bool :=
  (s.port p).blockLock && !(s.port p).hiBer && ((s.port p).amLock || portMode p s != 4)

/-- What a port's transmit lane sends (R194): continuous idles at a line rate in kBd, in the clause of its FEC if it has one,
with alignment markers in mode 0b100 alone. -/
structure TxLine where
  kilobaud : Nat
  fec : Option Nat
  markers : Bool
deriving DecidableEq, Repr
/-- The lines of the modes (R193). -/
def modeLine (m : Nat) : TxLine :=
  ⟨if m < 2 then 10312500 else 25781250, if m = 4 then some 108 else if m % 2 = 1 then some 74 else none, m == 4⟩
/-- What port `p` transmits (R194): idles while ENABLE is set and CAPTURE is powered, else nothing. -/
def transmits (p : PortId) (s : State) : Option TxLine :=
  if s.awake && s.pwr.domains.getLsbD 3 && (portCtrl p s).getLsbD 0 then some (modeLine (portMode p s)) else none

/-- The FCS checks (R196): the last four bytes are the CRC of those before them, least significant byte first (PRESUMED,
log 5). -/
def fcsOk (b : Bytes) : Bool :=
  b.drop (b.length - 4) == leBytes 4 (crc32 (b.take (b.length - 4))).toNat

/-- The error that decides a frame's counter (R196): 1 runt, 2 giant, 3 FCS, 4 code, 5 FEC. -/
def frameError (mode : Nat) (f : Frame) : Option Nat :=
  if f.bytes.length < 64 then some 1
  else if 9216 < f.bytes.length then some 2
  else if !fcsOk f.bytes then some 3
  else if f.codeErr then some 4
  else if f.fecBad && (mode == 1 || mode == 3 || mode == 4) then some 5
  else none

/-- A frame's key fields (section "The Tumbler"): outer TCI, inner TCI and EtherType, in network order. -/
def frameKey (b : Bytes) : Option Nat × Option Nat × Nat :=
  let t := ofBe (slice 12 2 b)
  if t = 0x88A8 ∨ t = 0x8100 then
    if ofBe (slice 16 2 b) = 0x8100 then (some (ofBe (slice 14 2 b)), some (ofBe (slice 18 2 b)), ofBe (slice 20 2 b))
    else (some (ofBe (slice 14 2 b)), none, ofBe (slice 16 2 b))
  else (none, none, t)

/-- A tag's presence meets its requirement (R199): 0 any, 1 absent, 2 present. -/
def tagMeets (req : Nat) (t : Option Nat) : Bool := req == 0 || (req == 1 && t.isNone) || (req == 2 && t.isSome)
/-- (field AND mask) = (value AND mask) (R201). -/
def maskEq (f v m : Nat) : Bool := f &&& m == v &&& m

/-- A valid entry matches a frame (R201). -/
def tumbMatches (im : Bytes) (p : PortId) (b : Bytes) : Bool :=
  let c := byteAt 0 im
  let (o, i, e) := frameKey b
  c.getLsbD 0 && c.getLsbD (1 + p.val) &&
  tagMeets ((byteAt 1 im).toNat % 4) o && tagMeets ((byteAt 1 im).toNat / 4 % 4) i &&
  maskEq (o.getD 0) (ofBe (slice 2 2 im)) (ofBe (slice 4 2 im)) &&
  maskEq (i.getD 0) (ofBe (slice 6 2 im)) (ofBe (slice 8 2 im)) &&
  maskEq (ofBe (slice 0 6 b)) (ofBe (slice 0x0A 6 im)) (ofBe (slice 0x10 6 im)) &&
  maskEq (ofBe (slice 6 6 b)) (ofBe (slice 0x16 6 im)) (ofBe (slice 0x1C 6 im)) &&
  maskEq e (ofBe (slice 0x22 2 im)) (ofBe (slice 0x24 2 im))

/-- The matching entries with their priorities, in ascending index (R202). -/
def tumbHits (t : Tab TumbEntry) (p : PortId) (b : Bytes) : List (Nat × Nat) :=
  t.filterMap (fun x => if tumbMatches x.2.image p b then some (x.1, (byteAt 0 x.2.image).toNat / 16) else none)

/-- Fields of an entry image (R199). -/
def tumbWard (im : Bytes) : WardId := wardOf (fieldAt 0x26 2 im)
/-- SNAP in bytes; none for a full frame. -/
def tumbSnap (im : Bytes) : Option Nat := if byteAt 0x28 im = 0 then none else some (64 * (byteAt 0x28 im).toNat)
/-- RATE. -/
def tumbRate (im : Bytes) : Nat := fieldAt 0x2A 2 im
/-- BURST in 1/65,536 byte. -/
def tumbBurst (im : Bytes) : Nat := fieldAt 0x2C 2 im * 1024 * 65536
/-- What a bucket holds now (R204): each beat adds RATE × 64,000 × 10⁻⁹ byte, rounded down to 1/65,536 byte. -/
def bucketNow (e : TumbEntry) (beat : DWord) : Nat :=
  min (tumbBurst e.image)
    (e.level + (beat.toNat - e.at_.toNat) * (tumbRate e.image * 64000 * 65536 / 1000000000))

/-- The record's charge: 32 + the stored length, rounded up to 8 (R203). -/
def charge (stored : Nat) : Nat := (32 + stored + 7) / 8 * 8

/-- The capture record header (R205). -/
def recordHeader (ts : DWord) (orig stored idx : Nat) (p : PortId) (flags : Nat) (seq : DWord) (gap : Word) : Bytes :=
  let h := leBytes 8 ts.toNat ++ leBytes 2 orig ++ leBytes 2 stored ++ leBytes 2 idx ++
    [BitVec.ofNat 8 p.val, BitVec.ofNat 8 flags] ++ leBytes 8 seq.toNat ++ leBytes 4 gap.toNat
  h ++ leBytes 4 (crc32c h).toNat

/-- The plaintext append block of an open block closed with a CLOSE code (R206). -/
def blockBytes (b : OpenBlk) (code : Nat) : Bytes :=
  fit 4096 (leBytes 2 (b.firstOff.getD 0xFFFF) ++ leBytes 2 (16 + b.last) ++ leBytes 2 b.count ++
    [BitVec.ofNat 8 code, 0] ++ leBytes 8 (if b.count = 0 then 0 else b.firstSeq.toNat) ++ b.stream)

/-- Close a ward's open block, seal it and hand it toward intake (R207): CLOSE 0 full, 1 age, 2 ward reset,
3 service stop. `next` is the NEXT_SEQ its COMMIT will carry. -/
def closeBlock (w : WardId) (code : Nat) (next : DWord) (s : State) : State :=
  match (s.ward w).openBlk with
  | none => s
  | some b =>
    let s1 := s.updWard w (fun x => { x with openBlk := none, openPos := x.openPos + 1 })
    { s1 with
      cap := { s1.cap with queue := s1.cap.queue ++
        [⟨s1.ring.nextJob, s1.clk.beat, w, (s.ward w).openPos, blockBytes b code, b.count, b.firstSeq, next⟩] }
      ring := { s1.ring with nextJob := s1.ring.nextJob + 1 } }

/-- Close the open block of every ward (R337 step 2). -/
def closeAll (code : Nat) (s : State) : State :=
  s.usedWards.foldl (fun s w => closeBlock w code (s.ward w).nextSeq s) s

/-- Bytes that the block has room for. -/
def OpenBlk.room (b : OpenBlk) : Nat := 4080 - b.stream.length
/-- A record with sequence number `seq` begins in the block. -/
def OpenBlk.begins (b : OpenBlk) (seq : DWord) : OpenBlk :=
  { b with
    firstOff := some (b.firstOff.getD (16 + b.stream.length))
    firstSeq := if b.count = 0 then seq else b.firstSeq
    count := b.count + 1 }
/-- The block takes what it has room for of a record's bytes, of which the last `pad` fill it up to 8. -/
def OpenBlk.takes (b : OpenBlk) (pad : Nat) (d : Bytes) : OpenBlk :=
  { b with
    stream := b.stream ++ d.take b.room
    last := if b.room < d.length then 4080 else b.stream.length + d.length - pad }
/-- Append record bytes to a ward's stream (R206): a record continues over block ends, and a block with fewer
than 32 bytes left closes. `start` says that the bytes begin a record with sequence number `seq`; the last `pad` of them
fill it up to 8 bytes. -/
def appendBytes : Nat → WardId → Bool → DWord → Nat → Bytes → State → State
  | 0, _, _, _, _, _, s => s
  | fuel + 1, w, start, seq, pad, d, s =>
    let b := (s.ward w).openBlk.getD {}
    let b := if start then b.begins seq else b
    let s1 := s.updWard w (fun x => { x with openBlk := some (b.takes pad d) })
    if b.room < d.length then appendBytes fuel w false seq pad (d.drop b.room) (closeBlock w 0 (seq + 1) s1)
    else if b.room - d.length < 32 then closeBlock w 0 (seq + 1) s1
    else s1

/-- Blocks a record of this length opens beyond the open one (R206, R320). -/
def newBlocks (x : Ward) (len : Nat) : Nat :=
  match x.openBlk with
  | none => (len + 4079) / 4080
  | some b => (len - (4080 - b.stream.length) + 4079) / 4080

/-- Capture admission is stopped for the whole device (R125, R87, R337, R341, R339, R350). -/
def admissionStopped (s : State) : Bool :=
  s.host.capPaused || decide (s.pwr.mode ≠ .service) || s.sec.zeroizePending ||
  decide (s.pwr.transition = some .leaveService) || decide (s.pwr.transition = some .enterStandby) ||
  decide (s.pwr.transition = some .enterSleep)

/-- Step 4 of R203: the frame is shed under backpressure. So is one whose record would need a block beyond the end of the
append extent while APPEND_FULL still reads 0 (DESIGN CHOICE, log 44: R54 and R203 do not name it). -/
def shedHere (w : WardId) (len : Nat) (s : State) : Bool :=
  let x := s.ward w
  admissionStopped s || x.appendFull ||
  decide (x.state = .unprovisioned) || decide (x.state = .resetting) || decide (x.state = .destroyed) ||
  (s.group x.append.group).down ||
  decide (1024 < s.buffers + newBlocks x len) ||
  decide (16 * x.append.units < x.openPos + bit x.openBlk.isSome + newBlocks x len)

/-- A frame counted against the ward but not stored adds to its SHED_GAP, which saturates (R205). -/
def addGap (w : WardId) (n : Nat) (s : State) : State :=
  s.updWard w (fun x => { x with shedGap :=
    if 0xFFFFFFFF ≤ x.shedGap.toNat + n then 0xFFFFFFFF else x.shedGap + BitVec.ofNat 32 n })

/-- The timestamp of a frame (R198), from what its SFD latched; the beat counter, where TAI was not valid there, takes the
same corrections. MODE and TS_ADJ are those in force as the record is formed (DEDUCED, log 44). -/
def timestamp (p : PortId) (r : Rx) (s : State) : DWord :=
  let adj := ((s.reg (0x0C008 + 0x400 * p.val)).setWidth 16).toInt
  BitVec.ofInt 64 ((r.stamp.toNat : Int) - modeLatency (portMode p s) + adj)

/-- An entry's count and bucket after a frame: those of an entry that a TUMBLER_WRITE has replaced since are gone with it
(R183) (DESIGN CHOICE, log 44). -/
def keepEntry (i : Nat) (old : Option TumbEntry) (e : TumbEntry) (s : State) : State :=
  match old with
  | none => s.setTumb i e
  | some _ => s

/-- Steps 1 to 6 of R203 for a frame that entry `i` won; `old` is the entry where it has been replaced since (R183). -/
def decideFrame (i : Nat) (old : Option TumbEntry) (p : PortId) (r : Rx) (b : Bytes) (s : State) : State :=
  let e := old.getD (s.tumb i)
  let im := e.image
  let w := tumbWard im
  let n := (byteAt 0x29 im).toNat
  let s1 := keepEntry i old { e with count := e.count + 1 } s
  if e.count.toNat % 2 ^ n ≠ 0 then addGap w 1 (bump (cWard w 0x40) 1 s1)
  else
    let len := b.length
    let stored := match tumbSnap im with | some k => min len k | none => len
    let ch := charge stored
    if shedHere w ch s then addGap w 1 (bump (cWard w 0x50) 1 s1)
    else if tumbRate im ≠ 0 ∧ bucketNow e s.clk.beat < ch * 65536 then addGap w 1 (bump (cWard w 0x48) 1 s1)
    else
      let x := s.ward w
      let flags := bit (decide (stored < len)) + 2 * bit r.valid + 4 * bit r.fixed
      let rec_ := fit ch (recordHeader (timestamp p r s) len stored i p flags x.nextSeq x.shedGap ++ b.take stored)
      let s2 := if tumbRate im ≠ 0 then
        keepEntry i old
          { e with count := e.count + 1, level := bucketNow e s.clk.beat - ch * 65536, at_ := s.clk.beat } s1
        else s1
      let s3 := s2.updWard w (fun y => { y with nextSeq := y.nextSeq + 1, shedGap := 0 })
      bump (cWard w 0x60) ch (bump (cWard w 0x58) 1
        (appendBytes 4 w true x.nextSeq (ch - (32 + stored)) rec_ s3))

/-- What the Tumbler makes of a frame with this head (R201, R202). -/
def classify (p : PortId) (head : Bytes) (s : State) : RxClass :=
  let hits := tumbHits s.cap.tumbler p head
  match bestOf hits with
  | none => .unmatched
  | some (i, pr) => .won i (decide (1 < (hits.filter (fun q => q.2 == pr)).length)) none

/-- A frame counts as errored (R196): RX_FRAMES and error counter `k`; ERR_FEC also sets FEC_UNCORR (R210). -/
def countError (p : PortId) (k : Nat) (s : State) : State :=
  let s1 := bump (cPort p k) 1 (bump (cPort p 0) 1 s)
  if k = 5 then mark (0x0C004 + 0x400 * p.val) 9 (s1.setPort p { s1.port p with fecUncorr := true }) else s1

/-- A frame ends on a port (R196, R202, R203, R209). -/
def frameEnds (p : PortId) (r : Rx) (f : Frame) (s : State) : State :=
  let s := s.setPort p { s.port p with rx := none }
  match frameError (portMode p s) f with
  | some k => countError p k s
  | none =>
    let s := bump (cPort p 0) 1 s
    match (if r.cls = .waits then classify p f.bytes s else r.cls) with
    | .won i tie old =>
      let s1 := bump (cTumb i 0) 1 s
      decideFrame i old p r f.bytes (if tie then bump (cTumb i 1) 1 s1 else s1)
    | _ => bump (cPort p 7) 1 s

/-- The frame in reception is cut after `got` bytes (R195, R196): a runt or a giant by its length, else ERR_CODE. The FCS of
a frame that did not end is not judged (DEDUCED, log 44). -/
def cutFrame (p : PortId) (got : Nat) (s : State) : State :=
  if (s.port p).rx.isSome then
    countError p (if got < 64 then 1 else if 9216 < got then 2 else 4) (s.setPort p { s.port p with rx := none })
  else s

/-- The port receives (R195): ENABLE, LINK_UP, and CAPTURE powered, in Service or Safe Hold. -/
def receiving (p : PortId) (s : State) : Bool :=
  s.awake && s.pwr.domains.getLsbD 3 && (decide (s.pwr.mode = .service) || s.inHold) &&
  (portCtrl p s).getLsbD 0 && linkUp p s

/-- The frame in reception becomes `r`. -/
def setRx (p : PortId) (r : Option Rx) (s : State) : State := s.setPort p { s.port p with rx := r }

/-- What a port's receive side meets (R183, R196, R198, R209). An SFD before the frame in reception has ended counts that
frame as ERR_CODE (DESIGN CHOICE, log 44); what belongs to no frame in reception is not received. -/
def rxEvent (p : PortId) (e : RxEvent) (s : State) : State :=
  if !receiving p s then s
  else match e with
  | .sfd fixed =>
    let s1 := if (s.port p).rx.isSome then countError p 4 s else s
    setRx p (some { stamp := if s.clk.taiValid then s.tai else s.clk.beat, valid := s.clk.taiValid, fixed := fixed }) s1
  | .key head =>
    match (s.port p).rx with
    | some r => if r.cls = .waits then setRx p (some { r with cls := classify p head s }) s else s
    | none => s
  | .corrected n =>
    if n ≠ 0 ∧ (modeLine (portMode p s)).fec.isSome then
      setRx p ((s.port p).rx.map (fun r => { r with fixed := true })) (bump (cPort p 6) n s)
    else s
  | .ends f =>
    match (s.port p).rx with
    | some r => frameEnds p r f s
    | none => s

/-- An event on a port, if there is one. -/
def rxMaybe (p : PortId) (e : Option RxEvent) (s : State) : State :=
  match e with
  | some x => rxEvent p x s
  | none => s

/-- CAPTURE_FRAME: the next beat after `wait` more in which a capture port meets something, the events of CAP_PORT_0 first
(R206) (DESIGN CHOICE, log 44). -/
def execCaptureFrame (n : Nat) (e0 e1 : Option RxEvent) (s : State) : Host.Outcome State Fault Refusal :=
  .next (rxMaybe 1 e1 (rxMaybe 0 e0 (wait (n + 1) s)))

/-- The locks of a port change by `f` (R195): where LINK_UP falls, LINK_LOST is set, the event is logged, and a frame in
reception, of which `got` bytes have come, is cut. -/
def changeLock (p : PortId) (got : Nat) (f : State → State) (s : State) : State :=
  if linkUp p s && !linkUp p (f s) then
    cutFrame p got (mark (0x0C004 + 0x400 * p.val) 8
      (logEvent 0x0501 p.val 0 0 ((f s).setPort p { (f s).port p with linkLost := true })))
  else f s

/-- A port's lock bits after it gains or loses a part of them. -/
def Port.lock (x : Port) (what : PcsPart) (up : Bool) (mode : Nat) : Port :=
  match what with
  | .block => { x with blockLock := up }
  | .marker => { x with amLock := up && mode == 4 }
  | .ber => { x with hiBer := !up }
  | .whole => { x with blockLock := up, amLock := up && mode == 4, hiBer := if up then false else x.hiBer }

/-- CAP_LINK_LOST: block lock or alignment marker lock is lost, or HI_BER rises (R195). -/
def execCapLinkLost (p : PortId) (what : PcsPart) (got : Nat) (s : State) : Host.Outcome State Fault Refusal :=
  .next (if s.awake ∧ s.pwr.domains.getLsbD 3 then
      changeLock p got (fun s => s.setPort p ((s.port p).lock what false (portMode p s))) s
    else s)

/-- CAP_LINK_UP: block lock or, in mode 0b100, alignment marker lock is gained, or HI_BER falls (R195), on a port that
receives. -/
def execCapLinkUp (p : PortId) (what : PcsPart) (s : State) : Host.Outcome State Fault Refusal :=
  .next (if s.awake ∧ s.pwr.domains.getLsbD 3 ∧ (portCtrl p s).getLsbD 0 then
      s.setPort p ((s.port p).lock what true (portMode p s))
    else s)

/-- A write of CAP_PORT_n.CTRL (R194, R195, R210): a MODE change may drop LINK_UP, and alignment marker lock goes with mode
0b100; how much of a frame had come is open. A frame in reception as ENABLE is cleared is received no further and not
counted (DESIGN CHOICE, log 44). -/
def portCtrlWrite (p : PortId) (v : Word) (s : State) : State :=
  let got := freeWord s
  let s1 := changeLock p got.1.toNat (fun s =>
    let s1 := s.setReg (0x0C000 + 0x400 * p.val) v
    if portMode p s1 = 4 then s1 else s1.setPort p { s1.port p with amLock := false }) got.2
  if (portCtrl p s1).getLsbD 0 then s1 else setRx p none s1

/-- Every port drops the frame in reception uncounted as CAPTURE is switched off (R195). -/
def rxOff (s : State) : State := setRx 0 none (setRx 1 none s)

/-- APPEND_AGE: APPEND_AGE ticks have passed since the open block's first record (R207). -/
def ageBlock (w : WardId) (s : State) : State :=
  match (s.ward w).openBlk with
  | some b =>
    if bits 0 8 (s.reg 0x0C800) ≠ 0 ∧ bits 0 8 (s.reg 0x0C800) < b.ticks ∧ s.awake then
      closeBlock w 1 (s.ward w).nextSeq s
    else s
  | none => s

/-- APPEND_AGE (R207). -/
def execAppendAge (w : WardId) (s : State) : Host.Outcome State Fault Refusal := .next (ageBlock w s)

end Sys2Proof.Machine
end

