-- ==== Sys2Proof/Machine/Effects.lean ====
section
/-! DEFINITION. What the COMMIT of a state-changing command without payload brings (R157, R235): ring configuration (R134,
R181), extents (R53, R54), Tumbler entries (R183), groups, rebuild and scrub (R184, R185, R268, R272), ways (R186, R225)
and the event log's placement (R363). -/

namespace Sys2Proof.Machine

/-! Fetching stops. -/

/-- The turn in progress ends. -/
def endTurn (s : State) : State := { s with ring := { s.ring with turn := none, turnLeft := 0, turnPast := false } }
/-- The reads of a context that are out. -/
def readsOf (c : Ctx) (s : State) : List RingRead := s.host.reads.filter (fun x => decide (x.ctx = c))
/-- Drop the reads of a context that are out; their reservations are released and the head is requested next. -/
def dropReads (c : Ctx) (s : State) : State :=
  let r := s.ringOf c
  let s1 := s.setRing c { r with reserved := r.reserved - (readsOf c s).length, next := r.sqHead }
  { s1 with host := { s1.host with reads := s1.host.reads.filter (fun x => decide (x.ctx ≠ c)) } }
/-- Fetching from a ward's rings stops: its turn ends and its reads are dropped. -/
def stopRings (w : WardId) (s : State) : State :=
  dropReads (.ward w) (if s.ring.turn = some w then endTurn s else s)

/-! Jobs. -/

/-- A new job record for entries, with the next fetch number. -/
def newJob (c : Ctx) (es : List Bytes) (s : State) : Job × State :=
  ({ id := s.ring.nextJob, ctx := c, entry := es.headD [], segs := segsOf es, chained := decide (1 < es.length)
     at_ := s.clk.beat },
    { s with ring := { s.ring with nextJob := s.ring.nextJob + 1 } })
/-- Put a job among the fetched and unfinished ones. -/
def addJob (j : Job) (s : State) : State := { s with ring := { s.ring with jobs := s.ring.jobs ++ [j] } }
/-- Complete a chain that ends with a status of its own: TORN, or ABORTED. -/
def endChain (c : Ctx) (status : Nat) (ch : Chain) (s : State) : State :=
  let (j, s1) := newJob c (ch.first :: ch.rest) s
  finish j status 0 0 (s1.setRing c { s1.ringOf c with chain := none })
/-- Complete a context's open chain, if it has one. -/
def endOpen (c : Ctx) (status : Nat) (s : State) : State :=
  match (s.ringOf c).chain with
  | some ch => endChain c status ch s
  | none => s

/-! Wards. -/

/-- The append write position reaches the end of its extent (R54): set once and logged once. -/
def checkAppendFull (w : WardId) (s : State) : State :=
  let x := s.ward w
  if !x.appendFull && decide (16 * x.append.units ≤ x.writePos) then
    logEvent 0x0403 w.val 0 0 (s.updWard w (fun y => { y with appendFull := true }))
  else s
/-- The ring configuration that SET_WARD_RINGS carries (R134, R181). -/
def applyRings (w : WardId) (j : Job) (s : State) : State :=
  s.updWard w (fun x => { x with
    configured := true
    ring := {
      sqBase := BitVec.ofNat 64 (j.cmd 0x28 8), cqBase := BitVec.ofNat 64 (j.cmd 0x30 8)
      sqLog := j.cmd 0x22 1, cqLog := j.cmd 0x23 1, phase := true
      rangeBit := x.ring.rangeBit, aheadBit := x.ring.aheadBit }
    weight := BitVec.ofNat 8 (j.cmd 0x24 1), burst := j.cmd 0x25 1, credit := j.cmd 0x24 1, sched := none
    vector := BitVec.ofNat 8 (j.cmd 0x26 1), coalCount := BitVec.ofNat 8 (j.cmd 0x27 1)
    coalTime := BitVec.ofNat 8 (j.cmd 0x38 1) })
/-- A ward without its ring configuration (R61, R181). -/
def Ward.noRings (x : Ward) : Ward :=
  { x with
    configured := false, ring := {}, weight := 0, burst := 0, credit := 0, sched := none, vector := 0, coalCount := 0
    coalTime := 0 }
/-- The ring configuration of a ward is cleared (R117, R181). -/
def clearWardRings (w : WardId) (s : State) : State :=
  dropPend (fun c => decide (c = .ward w)) (s.updWard w Ward.noRings)
/-- SET_WARD_RINGS takes effect (R134, R181): 30 zero bytes clear the configuration. -/
def setRings (w : WardId) (j : Job) (s : State) : State :=
  if (j.entry.drop 0x22).all (· == 0) then clearWardRings w (stopRings w s) else applyRings w j (stopRings w s)
/-- A weight and a burst (R151): from 0 they act at once and give the credit; a weight of 0 acts at once; else they wait for
the start of the ward's next turn. -/
def Ward.schedule (x : Ward) (n : Byte) (b : Nat) : Ward :=
  if x.weight = 0 then { x with weight := n, burst := b, credit := n.toNat, sched := none }
  else if n = 0 then { x with weight := 0, burst := b, sched := none }
  else { x with sched := some (n, b) }
/-- SET_WARD_SCHED takes effect (R120, R151, R181). -/
def setSched (w : WardId) (j : Job) (s : State) : State :=
  s.updWard w (fun x => { x.schedule (BitVec.ofNat 8 (j.cmd 0x22 1)) (j.cmd 0x23 1) with
    vector := BitVec.ofNat 8 (j.cmd 0x24 1)
    coalCount := BitVec.ofNat 8 (j.cmd 0x25 1), coalTime := BitVec.ofNat 8 (j.cmd 0x26 1) })
/-- RESIZE_WARD takes effect (R53, R54). -/
def resizeTo (w : WardId) (b p : Extent) (s : State) : State :=
  s.updWard w (fun y => { y with
    block := b, append := p, appendFull := y.appendFull && decide (y.append.units = p.units) })
/-- The ward's Key Context Cache entry is invalidated (R59, R61). -/
def dropKey (w : WardId) (s : State) : State :=
  { s with kcc := { s.kcc with entries := s.kcc.entries.filter (fun e => e.ward != w) } }
/-- The end of a RESET_WARD (steps 6 and 7 of R59). -/
def resetEnds (w : WardId) (s : State) : State :=
  logEvent 0x0402 w.val 0 0 (dropKey w (s.updWard w (fun x => { x with state := .sealed })))
/-- The end of a DESTROY_WARD (R61, R117): key slot, extents, high mark and rings go. -/
def destroyEnds (w : WardId) (s : State) : State :=
  dropPend (fun c => decide (c = .ward w))
    (dropKey w (s.updWard w (fun x =>
      { state := .destroyed, epoch := x.epoch, malformedLimit := x.malformedLimit, lastFault := x.lastFault })))

/-! The Tumbler. -/

/-- A frame in reception that entry `i` won keeps the entry as it stood (R183). -/
def keepOld (i : Nat) (e : TumbEntry) (p : Port) : Port :=
  { p with rx := p.rx.map (fun r =>
      match r.cls with
      | .won k tie none => if k = i then { r with cls := .won k tie (some e) } else r
      | _ => r) }
/-- Every entry takes effect in one beat, its bucket full (R183, R204). -/
def tumblerApply (first : Nat) (images : List Bytes) (s : State) : State :=
  let s1 := images.zipIdx.foldl (fun s p =>
    let i := first + p.2
    { s.setTumb i { image := if p.1.all (· == 0) then [] else p.1, level := tumbBurst p.1, at_ := s.clk.beat } with
      cap := { (s.setTumb i { image := if p.1.all (· == 0) then [] else p.1, level := tumbBurst p.1, at_ := s.clk.beat }).cap with
        ports := s.cap.ports.mapAll {} (fun _ q => keepOld i (s.tumb i) q) } }) s
  { s1 with cap := { s1.cap with tumbGen := s1.cap.tumbGen + 1 } }

/-! Groups. -/

/-- The group a set-up command names (R182). -/
def Job.grp (j : Job) : GroupId := groupOf (j.cmd 0x20 1)
/-- The cells of MEMBERS in ascending order. -/
def Job.members (j : Job) : List CellId := allCells.filter (fun c => j.cmd 0x24 2 / 2 ^ c.val % 2 = 1)
/-- SPARE; 0xFF names none. -/
def Job.spare (j : Job) : Option CellId := if j.cmd 0x23 1 = 0xFF then none else some (cellOf (j.cmd 0x23 1))
/-- The group is undefined again: its records are released, its cached lines are invalid and its queued writes gone
(DEDUCED, log 19). -/
def groupGone (g : GroupId) (s : State) : State :=
  let s1 := releaseWhere (fun _ d => d.addr.group == g) (fun _ p => p.addr.group == g) (s.setGroup g {})
  { s1 with
    cache := { s1.cache with
      lines := s1.cache.lines.mapAll {} (fun _ l => if l.group = g then {} else l)
      drain := s1.cache.drain.filter (fun p => p.2.group != g)
      waits := s1.cache.waits.filter (fun w => w.2.1.group != g) }
    cells := s1.cells.mapAll {} (fun _ x => { x with queue := x.queue.filter (fun q => q.addr.group != g) }) }
/-- GROUP_SET takes effect (R184, R248, R251, R259). -/
def groupSetTo (j : Job) (s : State) : State :=
  if j.cmd 0x21 1 = 1 then
    s.setGroup j.grp {
      defined := true, level := j.cmd 0x22 1, members := j.members, spare := j.spare, stripes := cellBlocks / 16 }
  else if j.cmd 0x21 1 = 2 then s.updGroup j.grp (fun x => { x with spare := j.spare })
  else groupGone j.grp s
/-- REBUILD_CTRL takes effect (R185, R268, R272): a START in Management is recorded; a START on the member whose rebuild runs
changes its rate; a STOP pauses with the front kept. -/
def rebuildTo (j : Job) (s : State) : State :=
  let g := s.group j.grp
  let rate := j.cmd 0x24 2
  if j.cmd 0x21 1 = 1 then
    match g.members.findIdx? (· == cellOf (j.cmd 0x22 1)) with
    | none => s
    | some m =>
      if g.rebuild.active && g.rebuild.member == m then
        s.updGroup j.grp (fun x => { x with rebuild := { x.rebuild with rate := rate } })
      else
        let s1 := startRebuild j.grp m rate (!g.failed.contains m) s
        if s.inService then s1
        else s1.updGroup j.grp (fun x => { x with rebuild := { x.rebuild with
          active := false, pending := true, paused := g.rebuild.paused && g.rebuild.member == m } })
  else
    s.updGroup j.grp (fun x => { x with rebuild := { x.rebuild with
      active := false, pending := false, sub := 0, paused := x.rebuild.active || x.rebuild.paused } })
/-- SCRUB_CTRL takes effect (R185, R273). -/
def scrubTo (j : Job) (s : State) : State :=
  if j.cmd 0x21 1 = 1 then
    s.updGroup j.grp (fun x => { x with scrub := { x.scrub with
      rate := j.cmd 0x24 2, active := x.scrub.active || s.inService, pending := !(x.scrub.active || s.inService) } })
  else s.updGroup j.grp (fun x => { x with scrub := { x.scrub with active := false, pending := false } })

/-! Ways and the event log. -/

/-- WAY_RESTORE takes effect (R186, R225): the ways return with every line invalid and a count of 0, but for one that is
retired again in this beat, or that has retired since the command was taken and still drains. -/
def waysBack (m : BitVec 16) (s : State) : State :=
  let stays := (if s.cache.retBeat = s.clk.beat then s.cache.retNow else 0) |||
    s.cache.drain.foldl (fun m p => m ||| (1#16 <<< p.1)) 0
  let go := m &&& ~~~stays &&& s.cache.retired
  let back := fun (k : Nat) => go.getLsbD (k % 16)
  { s with cache := { s.cache with
    retired := s.cache.retired &&& ~~~go
    errors := s.cache.errors.filter (fun p => !(back p.1))
    lines := s.cache.lines.filter (fun p => !(back p.1)) } }
/-- EVENT_LOG_SET takes effect (R363): with ENABLE = 1 tail and head 0 and write phase 1, at the new placement; with
ENABLE = 0 writing stops at once. -/
def logTo (j : Job) (s : State) : State :=
  if j.cmd 0x29 1 = 1 then
    { s with obs := { s.obs with
      enabled := true, placed := true, logBase := BitVec.ofNat 64 (j.cmd 0x20 8), logLog := j.cmd 0x28 1
      head := 0, tail := 0, phase := true } }
  else { s with obs := { s.obs with enabled := false } }

/-- What an intent's ARGS say, as the entry they came from. -/
def Intent.asJob (i : Intent) : Job := { id := 0, ctx := i.ctx, entry := zeros 32 ++ fit 32 i.args }
/-- The effect of the entry itself, by opcode. -/
def entryEffect (i : Intent) (s : State) : State :=
  let j := i.asJob
  match i.ctx with
  | .ward w =>
    if i.op = 0x03 then s.updWard w (fun x => { x with trims := (i.block, i.count) :: x.trims }) else s
  | .admin =>
    if i.op = 0x4C then setRings j.named j s
    else if i.op = 0x4D then setSched j.named j s
    else if i.op = 0x51 then groupSetTo j s
    else if i.op = 0x52 then rebuildTo j s
    else if i.op = 0x53 then scrubTo j s
    else if i.op = 0x54 then waysBack (BitVec.ofNat 16 (j.cmd 0x20 2)) s
    else if i.op = 0x55 then logTo j s
    else s
/-- What the COMMIT of an intent brings beside its payload (R157, R235). -/
def applyEffect (i : Intent) (s : State) : State :=
  match i.effect with
  | .none => s
  | .entry => entryEffect i s
  | .verifier w v => s.updWard w (fun x => { x with verifier := v, enrol := false })
  | .officer v => { s with sec := { s.sec with verifier := some v } }
  | .telemetry key => { s with sec := { s.sec with telemetry := some key } }
  | .create w x => checkAppendFull w (s.setWard w { x with malformedLimit := (s.ward w).malformedLimit })
  | .resize w b p => resizeTo w b p s
  | .tumbler first images => tumblerApply first images s
  | .reset w destroy => if destroy then destroyEnds w s else resetEnds w s

end Sys2Proof.Machine
end

