-- ==== Sys2Proof/Machine/Ledger.lean ====
section
/-! DEFINITION. The Ledger and the Key Context Cache at work: reserving an intent and building its records
(R235–R239, R255), write rounds and the effects of a COMMIT (R231, R235, R240, R246), deferred deltas (R236),
replay (R245) and the KCC's unwrap (R226–R228). -/

namespace Sys2Proof.Machine

/-! Keys and blocks. -/

/-- The 128-bit XTS tweak (R74). -/
def tweak (space : Nat) (w : WardId) (epoch : Word) (block : Nat) : Bytes :=
  leBytes 8 block ++ [BitVec.ofNat 8 space] ++ leBytes 2 w.val ++ leBytes 4 epoch.toNat ++ [0]
/-- The XTS data key: the first 32 bytes of the pair (R76). -/
def xtsDataKey (k : BitVec 512) : BitVec 256 := (k >>> 256).setWidth 256
/-- The XTS tweak key: the last 32 bytes of the pair (R76). -/
def xtsTweakKey (k : BitVec 512) : BitVec 256 := k.setWidth 256
/-- Encrypt one 4 KiB block (R73, R74) (DESIGN CHOICE, log 11). -/
def encBlock (k : BitVec 512) (space : Nat) (w : WardId) (epoch : Word) (block : Nat) (plain : Bytes) : Bytes :=
  fit 4096 (Config.xtsEncrypt (xtsDataKey k) (xtsTweakKey k) (tweak space w epoch block) plain)
/-- Decrypt one 4 KiB block (R73, R74) (DESIGN CHOICE, log 11). -/
def decBlock (k : BitVec 512) (space : Nat) (w : WardId) (epoch : Word) (block : Nat) (cipher : Bytes) : Bytes :=
  fit 4096 (Config.xtsDecrypt (xtsDataKey k) (xtsTweakKey k) (tweak space w epoch block) cipher)

/-- The KCC admits requests (R102). -/
def State.kccReady (s : State) : Bool := s.kcc.ready && decide (s.kcc.busyUntil.toNat ≤ s.clk.beat.toNat)
/-- The ward's entry is pinned: an operation on one of its blocks is in progress (R226). -/
def State.pinned (s : State) (w : WardId) : Bool :=
  s.ring.jobs.any (fun j => decide (j.ctx = .ward w) && decide (j.phase = .media))
/-- The entry that holds a ward's keys in its present life (R226). -/
def State.kccEntry (s : State) (w : WardId) : Option KccEntry :=
  s.kcc.entries.find? (fun e => e.ward == w && e.epoch == (s.ward w).epoch)
/-- Look a ward up in the KCC (R226, R227): a hit makes its entry the most recently used; a miss joins the
misses behind those that wait. -/
def kccLookup (w : WardId) (s : State) : Option (BitVec 512) × State :=
  if !s.kccReady then (none, s)
  else match s.kccEntry w with
  | some e => (some e.keys,
      bump (cDev 10) 1 { s with kcc := { s.kcc with
        entries := s.kcc.entries.filter (fun x => !(x.ward == w)) ++ [e] } })
  | none =>
    if s.kcc.misses.contains w then (none, s)
    else (none, bump (cDev 11) 1 { s with kcc := { s.kcc with misses := s.kcc.misses ++ [w] } })

/-! Building an intent's records. -/

/-- The ward of a waiting intent. -/
def Waiting.ward : Waiting → WardId
  | .job j => match j.ctx with
    | .ward w => w
    | .admin => 0
  | .block b => b.ward
/-- Its space: host writes go to block space, capture blocks to the append stream. -/
def Waiting.space : Waiting → Nat
  | .job _ => 0
  | .block _ => 1
/-- Its first block. -/
def Waiting.first : Waiting → Nat
  | .job j => j.cmd 0x20 8
  | .block b => b.block
/-- Its plaintext. -/
def Waiting.plain : Waiting → Bytes
  | .job j => j.data
  | .block b => b.plain

/-- The old data that a new intent meets at an address (R236, R237): that of the newest earlier intent of this life whose
COMMIT is not yet written, else what the Stripe Cache holds (DEDUCED, log 24). -/
def newestData (a : SubAddr) (s : State) : Option Sector :=
  match (s.ledger.intents.filter (fun i => !i.replay && decide (i.phase ≠ .committed))).foldl (fun acc i =>
      i.datas.foldl (fun acc d => if d.live && d.addr == a then some d.sector else acc) acc) none with
  | some x => some x
  | none => (cached a s).map (·.sector)

/-- The DATA records of an intent whose INTENT has serial `n` (R234): one per block, in block order. -/
def dataRecs (x : Waiting) (keys : BitVec 512) (n : DWord) (s : State) : List DataRec :=
  let w := x.ward
  let ep := (s.ward w).epoch
  (x.blocks s).zipIdx.map (fun p =>
    let ser := n + 1 + BitVec.ofNat 64 p.2
    let c := encBlock keys x.space w ep (x.first + p.2) (slice (4096 * p.2) 4096 x.plain)
    { serial := ser, addr := p.1,
      sector := dataSector p.1 c (coverOf x.space w ep (x.first + p.2) s.sec.bootCount ser c) })

/-- What one changed data sub-block adds to a parity of kind `k` (R255, R257). -/
def deltaOf (k : Nat) (old new : Sector) : Bytes × Bytes :=
  let c := coef k (new.column.toNat)
  (gfScale c (xorBytes old.data new.data), gfScale c (xorBytes old.cov new.cov))
/-- Sum of two deltas (R255). -/
def addDelta (x y : Bytes × Bytes) : Bytes × Bytes := (xorBytes x.1 y.1, xorBytes x.2 y.2)

/-- The PARITY_DELTA record of kind `k` for one row (R234, R236, R255): FULL where the intent writes every data
column of the row, DEFERRED where old data or old parity is not in the Stripe Cache, else the computed delta. -/
def parityRec (g : GroupId) (k : Nat) (row : Nat × Nat) (datas : List DataRec) (serial : DWord) (s : State) : ParRec :=
  let d := (s.group g).d
  let a : SubAddr := ⟨g, row.1, d + k, row.2⟩
  let mine := datas.zipIdx.filter (fun p => p.1.addr.stripe == row.1 && p.1.addr.sub == row.2)
  let base : ParRec := { serial, addr := a, kind := BitVec.ofNat 2 k, full := false, deferred := none,
                         delta := zeros 4096, covDelta := zeros 48 }
  if mine.length = d then
    { base with
      full := true
      delta := paritySum k 4096 (mine.map (fun p => (p.1.addr.column, p.1.sector.data)))
      covDelta := paritySum k 48 (mine.map (fun p => (p.1.addr.column, p.1.sector.cov))) }
  else
    let olds := mine.map (fun p => (newestData p.1.addr s).map (fun o => deltaOf k o p.1.sector))
    if (cached a s).isSome && olds.all Option.isSome then
      let t := olds.foldl (fun acc o => match o with | some x => addDelta acc x | none => acc) (zeros 4096, zeros 48)
      { base with delta := t.1, covDelta := t.2 }
    else { base with deferred := (mine.head?).map Prod.snd }

/-- The PARITY_DELTA records of an intent: for each row one of each parity kind of the group (R234). -/
def parityRecs (g : GroupId) (datas : List DataRec) (n : DWord) (s : State) : List ParRec :=
  let rows := rowsOf (datas.map (·.addr))
  let cells := rows.flatMap (fun r => (List.range (s.group g).level).map (fun k => (r, k)))
  cells.zipIdx.map (fun p => parityRec g p.1.2 p.1.1 datas (n + BitVec.ofNat 64 (datas.length + 1 + p.2)) s)

/-! The port. -/

/-- The number of payload records of an intent. -/
def Intent.payloads (i : Intent) : Nat := i.datas.length + i.parities.length
/-- The port items of an intent's payload records, in order (R232, R234, R235). -/
def Intent.items (i : Intent) : List (PortItem × Nat) :=
  (List.range i.datas.length).map (fun k => (.data i.serial k, 17)) ++
  i.parities.zipIdx.map (fun p => (.parity i.serial p.2, if p.1.deferred.isSome then 1 else 17))
/-- No sealed block of a ward waits or stands before its COMMIT: a ward reset may commit (R59, R61). -/
def resetReady (w : WardId) (s : State) : Bool :=
  !(s.cap.queue.any (fun b => b.ward == w)) &&
  !(s.ledger.intents.any (fun i => i.capture && !i.replay && decide (i.phase ≠ .committed) && decide (i.ctx = .ward w)))
/-- The COMMIT of an intent is queued (R235 rule 3). -/
def queueCommit (n : DWord) (s : State) : State :=
  toPort [(.commit n, 1)] (s.updIntent n (fun x => { x with phase := .commit }))
/-- An intent whose records are written queues its COMMIT; that of a ward reset waits until its ward's append block is
committed (R59 step 3, R61). -/
def commitHeld (s : State) (i : Intent) : State :=
  match i.effect with
  | .reset w _ => if resetReady w s then queueCommit i.serial s else s
  | _ => queueCommit i.serial s
/-- Every intent that waits to queue its COMMIT tries (R59, R235 rule 3). -/
def holdCheck (s : State) : State :=
  (s.ledger.intents.filter (fun i => decide (i.phase = .held) && !i.replay)).foldl commitHeld s
/-- Every record of an intent is written: its COMMIT is queued, or waits (R235 rule 3). -/
def recordsDone (n : DWord) (s : State) : State :=
  holdCheck (s.updIntent n (fun x => { x with phase := .held }))

/-- The INTENT and COMMIT of a ward reset may stand far apart: its append block goes between (R59). -/
def Intent.isReset (i : Intent) : Bool := match i.effect with | .reset _ _ => true | _ => false
/-- Intents between their INTENT being queued and their COMMIT being written (R324). A ward reset that waits for its append
block does not count, or two of them would shut out the blocks they wait for (DEDUCED, log 36). -/
def State.inWindow (s : State) : Nat :=
  (s.ledger.intents.filter (fun i => !i.replay && decide (i.phase ≠ .committed) &&
    !(i.isReset && decide (i.phase = .held)))).length
/-- The Ledger takes a new intent in (R87, R324, R323): it can write, its window and the port have room, and no record of an
earlier intent waits for the port. -/
def intakeOpen (s : State) : Bool :=
  !s.ledgerDead && !s.sec.zeroizePending && s.handedOff && s.sec.keys.isSome && decide (s.inWindow < 2) &&
  decide (s.portSlots < 56) && (s.ledger.waits == [])
/-- New intents on the stripe wait: it has records waiting to be replayed (R245), or it stands at the rebuild front
(R269). -/
def stripeHeld (g : GroupId) (stripe : Nat) (s : State) : Bool :=
  ((s.group g).rebuild.active && (s.group g).rebuild.front == stripe) ||
  s.ledger.intents.any (fun i => i.replay &&
    (i.datas.any (fun d => d.live && d.addr.group == g && d.addr.stripe == stripe) ||
     i.parities.any (fun p => p.live && p.addr.group == g && p.addr.stripe == stripe)))

/-- A waiting intent can be taken now as far as replay and the KCC go (R245, R227). -/
def takable (s : State) (x : Waiting) : Bool :=
  !((x.blocks s).any (fun a => stripeHeld a.group a.stripe s)) && !s.kcc.misses.contains x.ward
/-- A host job and a sealed block came to wait in one beat for the same stripe (R22). -/
def sameBeat (j : Job) (b : SealedBlk) (s : State) : Bool :=
  j.since == b.at_ &&
  ((Waiting.job j).blocks s).any (fun x => ((Waiting.block b).blocks s).any (fun y => x.group == y.group && x.stripe == y.stripe))
/-- The order of a host job and a sealed block that both wait (R22, R239, R324): the block first where they came in one beat
for one stripe; the one that a release let reserve; at the cap the oldest; else two host jobs, then one block. -/
def hostFirst (j : Job) (b : SealedBlk) (s : State) : Bool :=
  if sameBeat j b s then false
  else if s.ledger.owed = some j.id then true
  else if s.ledger.owed = some b.id then false
  else if s.ledger.atCap then decide (j.id < b.id)
  else decide (s.ledger.hostTurns < 2)
/-- Which waiting intent the Ledger takes next (R22, R239, R324). -/
def nextIntake (s : State) : Option Waiting :=
  match (hostWaiting s).find? (fun j => takable s (.job j)), s.cap.queue.find? (fun b => takable s (.block b)) with
  | none, none => none
  | some j, none => some (.job j)
  | none, some b => some (.block b)
  | some j, some b => if hostFirst j b s then some (.job j) else some (.block b)

/-- A sealed block that can never be written is lost and counted as R208 counts an open block (R58, R262). -/
def loseBlock (b : SealedBlk) (s : State) : State :=
  let s1 := s.updWard b.ward (fun x => { x with
    pendingLoss := x.pendingLoss + b.records, lossSeq := if x.pendingLoss = 0 then b.firstSeq else x.lossSeq })
  holdCheck { s1 with cap := { s1.cap with queue := listDrop (fun q => q.id == b.id) s1.cap.queue } }

/-- ARGS of a job (R234): an admin entry's CMD bytes, a credential or key as zeros. -/
def Job.args (j : Job) : Bytes :=
  if decide (j.ctx = .admin) && j.op != 0x43 && j.op != 0x44 then slice 0x20 32 j.entry else []
/-- Payload records with the slots given to them (R238). -/
def placeRecs (datas : List DataRec) (parities : List ParRec) (units heads : List Nat) : List DataRec × List ParRec :=
  (datas.zipIdx.map (fun p => { p.1 with slot := units.getD p.2 0 }),
   parities.zipIdx.map (fun p =>
    let u := units.getD (datas.length + p.2) 0
    { p.1 with slot := if p.1.deferred.isSome then heads.getD (2 + p.2) 0 else u, unit := u }))
/-- An intent reserves its slots and its INTENT is queued (R235 rule 1, R238): `i` has every field but serials and slots. -/
def newIntent (i : Intent) (s : State) : State :=
  let n := s.ledger.nextSerial
  let heads := s.singles (2 + i.parities.length)
  let units := s.units17 (heads.map (fun h => (h, 1))) i.payloads
  let r := placeRecs i.datas i.parities units heads
  toPort [(.intent n, 1)] { s with ledger := { s.ledger with
    intents := s.ledger.intents ++ [{ i with
      serial := n, boot := s.sec.bootCount, slot := heads.getD 0 0, datas := r.1, parities := r.2
      commits := [(n + BitVec.ofNat 64 (i.payloads + 1), heads.getD 1 0)] }]
    nextSerial := n + BitVec.ofNat 64 (i.payloads + 2) } }
/-- Old data and old parity that a new intent finds in the Stripe Cache are hits (R213, R220). -/
def touchOld (g : GroupId) (datas : List DataRec) (s : State) : State :=
  let rows := rowsOf (datas.map (·.addr))
  let pars := rows.flatMap (fun r => (List.range (s.group g).level).map (fun k => (⟨g, r.1, (s.group g).d + k, r.2⟩ : SubAddr)))
  (datas.map (·.addr) ++ pars).foldl (fun s a => if (cached a s).isSome then countHit a s else s) s
/-- Reserve, build the records and queue the INTENT of a WRITE or a sealed block (R235 rule 1, R238). -/
def takeIntent (x : Waiting) (keys : BitVec 512) (s : State) : State :=
  let n := s.ledger.nextSerial
  let datas := dataRecs x keys n s
  let parities := parityRecs (x.group s) datas n s
  let base : Intent := { serial := n, boot := s.sec.bootCount, ctx := .ward x.ward, group := x.group s,
                         space := BitVec.ofNat 8 x.space, block := x.first, datas, parities, count := datas.length }
  let i : Intent := match x with
    | .job j => { base with job := some j.id, number := j.intent, op := 2 }
    | .block b => { base with capture := true, firstSeq := b.firstSeq, records := b.records, nextSeq := b.nextSeq }
  let s1 := newIntent i (touchOld (x.group s) datas s)
  let s2 := { s1 with ledger := { s1.ledger with
    owed := none
    hostTurns := match x with | .job _ => s1.ledger.hostTurns + 1 | .block _ => 0 } }
  match x with
  | .job j => s2.setJob { j with phase := .journal }
  | .block b => { s2 with cap := { s2.cap with queue := listDrop (fun q => q.id == b.id) s2.cap.queue } }

/-- What a command whose work is done, and which waits to journal it, keeps for its completion: DETAIL. -/
def keepDone (j : Job) (eff : Effect) (detail : Nat) : Job :=
  if eff = .none && !(opMoves j.op.toNat) then { j with data := leBytes 4 detail } else j
/-- The DETAIL of such a command. -/
def Job.doneWith (j : Job) : Option Nat := if opMoves j.op.toNat || j.data.isEmpty then none else some (fieldAt 0 4 j.data)
/-- A state-changing command without payload journals (R157, R235): its INTENT is queued, and `eff` and its completion wait
for the COMMIT. It waits at the cap or while the Ledger takes nothing in (R239, R324), and completes HELD where nothing more
may be written to the Ledger (R350). `phase` is where the job then stands. -/
def journal (phase : JobPhase) (j : Job) (eff : Effect) (detail : Nat) (s : State) : State :=
  if s.ledgerDead then finish j 0x12 0 0 s
  else if !(intakeOpen s) || decide (s.poolFree < 2) then
    refreshCap (s.setJob { keepDone j eff detail with phase := .intake, since := s.clk.beat })
  else
    let s1 := newIntent { serial := 0, boot := 0, ctx := j.ctx, job := some j.id, number := j.intent, op := j.op,
                          block := if j.op = 0x03 then j.cmd 0x20 8 else 0, count := if j.op = 0x03 then j.cmd 0x28 4 else 0,
                          args := j.args, detail, effect := eff }
      (s.setJob { j with phase := phase })
    { s1 with ledger := { s1.ledger with owed := none } }

/-- A WRITE or a sealed block is taken in under its ward's key, or joins the misses (R227). -/
def takeKeyed (x : Waiting) (s : State) : State :=
  let r := kccLookup x.ward s
  match r.1 with
  | some k => refreshCap (takeIntent x k r.2)
  | none => r.2
/-- INTENT_RESERVE (R238, R239, R324): the next waiting intent reserves its units and slots, or AT_CAP is set. A command
without payload goes back to its own row, which journals it. -/
def reserve (s : State) : State :=
  if !(intakeOpen s) then s
  else match nextIntake s with
  | none => s
  | some (.job j) =>
    if j.op ≠ 2 then
      if !(canReserve (.job j) s) then { s with ledger := { s.ledger with atCap := true } }
      else refreshCap (s.setJob { j with phase := if opMoves j.op.toNat then .dataIn else .ready })
    else if (s.group (Waiting.group (.job j) s)).down then finish j 0x40 0 0 s
    else if !canReserve (.job j) s then { s with ledger := { s.ledger with atCap := true } }
    else takeKeyed (.job j) s
  | some (.block b) =>
    if (s.group (Waiting.group (.block b) s)).down then loseBlock b s
    else if !canReserve (.block b) s then { s with ledger := { s.ledger with atCap := true } }
    else takeKeyed (.block b) s

/-- INTENT_RESERVE. -/
def execIntentReserve (s : State) : Host.Outcome State Fault Refusal := .next (reserve s)

/-! Commit. -/

/-- Whether new data under this policy is queued for destage at its commit (R217, R221). -/
def queuesAtCommit (p : Nat) : Bool := p == 1 || p == 2 || p == 3
/-- The policy a block is kept under: append-stream blocks under READ_ONLY are handled as WRITE_AROUND (R217). -/
def keepPolicy (p : Nat) : Nat := if p = 3 then 2 else p

/-- The age, and whether it is queued, that a sub-block takes from the dirty one it replaces (R221). -/
def keepAge (old : Option Sub) : Nat × Bool :=
  match old with
  | some o => if o.dirty then (o.age, o.queued) else (0, false)
  | none => (0, false)
/-- One committed data sub-block enters the cache dirty (R217, R221, R236); the policies met are returned
(DEDUCED, log 24). -/
def commitData (cls space : Nat) (w : WardId) (d : DataRec) (s : State) : Nat × State :=
  let (p, s1) := policyOf d.addr.group space w s
  let q := keepPolicy p
  let old := keepAge (cached d.addr s)
  (q, install cls d.addr { sector := d.sector, dirty := true, policy := BitVec.ofNat 3 q, age := old.1,
                           queued := old.2 || queuesAtCommit q } s1)

/-- One committed parity record reaches the cache where it can (R217, R236, R255, R257): a FULL record replaces the
sub-block, a computed delta is folded into the cached one; a deferred one waits. -/
def commitParity (boot : Word) (policy : Nat) (cls : Nat) (p : ParRec) (s : State) : State :=
  let old := cached p.addr s
  let q := match old with | some o => if o.dirty then min o.policy.toNat policy else policy | none => policy
  let enter := fun (data cov : Bytes) =>
    install cls p.addr {
      sector := paritySector p.addr (p.kind.toNat + 1) data cov boot p.serial
      dirty := true, policy := BitVec.ofNat 3 q, age := (keepAge old).1
      queued := (keepAge old).2 || queuesAtCommit q } s
  if p.deferred.isSome then s
  else if p.full then enter p.delta p.covDelta
  else match old with
  | some o => enter (xorBytes o.sector.data p.delta) (xorBytes o.sector.cov p.covDelta)
  | none => s

/-- Sub-blocks a line holds dirty and not yet queued. -/
def Line.idleDirty (l : Line) : Nat :=
  (l.subs.filter (fun p => match p.2 with | some x => x.dirty && !x.queued | none => false)).length
/-- Sub-blocks queued for destage in the whole cache. -/
def State.queuedSubs (s : State) : Nat := (s.cache.lines.map (fun p => p.2.queuedSubs)).sum
/-- Above DESTAGE.HIGH, least recently used dirty lines are queued until the total left falls below LOW (R221). -/
def pressure : Nat → State → State
  | 0, s => s
  | fuel + 1, s =>
    if s.units - s.queuedSubs < 16 * bits 8 8 (s.reg 0x0E00C) then s
    else match (s.cache.lines.filter (fun p => decide (0 < p.2.idleDirty))).foldl (fun best p =>
        match best with
        | none => some p
        | some b => if p.2.used < b.2.used then some p else best) none with
    | some (k, l) => pressure fuel (s.setLine k l.queueAll)
    | none => s
/-- The pressure trigger of R221. -/
def destagePressure (s : State) : State :=
  if 16 * bits 0 8 (s.reg 0x0E00C) < s.units then pressure 512 s else s

/-- A written block is no longer unwritten: remove it from the trimmed ranges (R170). -/
def untrim (b : Nat) (t : List (Nat × Nat)) : List (Nat × Nat) :=
  t.flatMap (fun r =>
    if r.1 ≤ b ∧ b < r.1 + r.2 then
      (if r.1 < b then [(r.1, b - r.1)] else []) ++ (if b + 1 < r.1 + r.2 then [(b + 1, r.1 + r.2 - b - 1)] else [])
    else [r])

/-- The context entry and the ward configuration take up a COMMIT (R54, R157, R170, R240). -/
def commitContext (i : Intent) (s : State) : State :=
  match i.ctx with
  | .admin => recordCommit .admin i.number 0 s
  | .ward w =>
    if i.capture then
      checkAppendFull w (s.updWard w (fun x => { x with
        writePos := i.block + 1, seqKept := i.nextSeq, gapKept := x.shedGap }))
    else
      (recordCommit (.ward w) i.number 0 s).updWard w (fun x => { x with
        trims := (List.range i.datas.length).foldl (fun t k => untrim (i.block + k) t) x.trims })
/-- The class of a WRITE or of a capture block (R213). -/
def Intent.cls (i : Intent) : Nat := if i.capture then 0 else 1
/-- The ward of an intent; 0 for the admin context. -/
def Intent.ward (i : Intent) : WardId := match i.ctx with | .ward w => w | .admin => 0
/-- The payload of a committed intent reaches the Stripe Cache (R217, R221, R236); its parity is kept under the policy that
retains longest (R217). -/
def commitPayload (i : Intent) (s : State) : State :=
  if i.payloads = 0 then s
  else
    let r := i.datas.foldl (fun (acc : Nat × State) d =>
      let r := commitData i.cls i.space.toNat i.ward d acc.2
      (min acc.1 r.1, r.2)) (2, s)
    destagePressure (i.parities.foldl (fun s p => commitParity i.boot r.1 i.cls p s)
      (r.2.updIntent i.serial (fun x => { x with policy := r.1 })))
/-- The COMMIT of an intent has been written (R235 rule 4, R240): its number is recorded, its effect comes, its command
completes, and what it no longer needs is released. -/
def commitDone (i : Intent) (s : State) : State :=
  let s1 := bump (cDev 7) 1 (s.updIntent i.serial (fun x => { x with phase := .committed }))
  let s2 := applyEffect i (commitPayload i (commitContext i s1))
  pruneIntents (match i.job.bind s2.job with
    | some j => finish j 0x00 0 i.detail s2
    | none => s2)

/-- The resolved record of a deferred delta and its COMMIT have been written (R236): the deferred record is released and the
delta can be folded. -/
def resolvedDone (n : DWord) (k : Nat) (s : State) : State :=
  match s.intentOf n with
  | none => s
  | some i =>
    match i.resolvedOf k, i.parities[k]? with
    | some q, some p =>
      if p.live then
        commitParity i.boot i.policy i.cls q (toPort [(.release p.slot false, 1)]
          (s.updIntent n (fun x => { x with
            parities := x.parities.set k q, resolving := x.resolving.filter (fun r => r.1 != k) })))
      else s
    | _, _ => s

/-- One item of the port has all its slots written (R235, R231). -/
def itemDone (it : PortItem) (s : State) : State :=
  let recDone := fun (n : DWord) (s : State) =>
    let s1 := s.updIntent n (fun x => { x with written := x.written + 1 })
    match s1.intentOf n with
    | some i => if i.written = i.payloads then recordsDone n s1 else s1
    | none => s1
  match it with
  | .intent n =>
    let s1 := bump (cDev 6) 1 s
    match s1.intentOf n with
    | some i =>
      if i.payloads = 0 then recordsDone n s1
      else toPort i.items (s1.updIntent n (fun x => { x with phase := .records }))
    | none => s1
  | .data n _ => recDone n s
  | .parity n _ => recDone n s
  | .commit n =>
    match s.intentOf n with
    | some i => commitDone i s
    | none => s
  | .resolved n k => toPort [(.recommit n k, 1)] s
  | .recommit n k => resolvedDone n k s
  | .release _ unit =>
    let s1 := bump (cDev 8) 1 s
    if unit then { s1 with sys := { s1.sys with releasedThisTick := true } } else s1
  | .mark _ => s

/-- A slot fails verification (R246): it is retired, and too few left in the pool is LEDGER_FAIL. -/
def retireSlot (n : Nat) (s : State) : State :=
  let s1 := mark 0x10000 9 { s with ledger := { s.ledger with
    retired := s.ledger.retired ++ [n], slotRetired := true } }
  if 5272 - s1.ledger.retired.length < 1024 then safeHold 0x04 s1 else s1
/-- The place to which a record of `n` slots moves after one of its slots failed (R246). -/
def newRun (n : Nat) (s : State) : Option Nat :=
  if n = 17 then (s.units17 [] 1).head? else (s.singles 1).head?

/-- Write `k` more slots of the round, the next being number `at_` in it; the items that end in it are answered in order. A
record of which a slot fails begins again in another place (R246). -/
def writeSlots (key : BitVec 256) (bad : List Nat) : Nat → Nat → State → List PortItem × State
  | 0, _, s => ([], s)
  | k + 1, at_, s =>
    if s.ledgerDead then ([], s)
    else match s.ledger.port with
    | [] => ([], s)
    | (it, left) :: t =>
      match itemBytes key it s with
      | none => writeSlots key bad k (at_ + 1) { s with ledger := { s.ledger with port := t } }
      | some (slot, b) =>
        let total := (b.length + 255) / 256
        let done := total - left
        let s1 := bump (cDev 9) 1 (putSlots 1 (slot + done) (b.drop (256 * done)) s)
        if bad.contains at_ then
          let s2 := retireSlot (slot + done) s1
          match newRun total s2 with
          | some n => writeSlots key bad k (at_ + 1)
              (moveRun slot n { s2 with ledger := { s2.ledger with port := (it, total) :: t } })
          | none => ([], safeHold 0x04 s2)
        else if left ≤ 1 then
          let r := writeSlots key bad k (at_ + 1) { s1 with ledger := { s1.ledger with port := t } }
          (it :: r.1, r.2)
        else writeSlots key bad k (at_ + 1) { s1 with ledger := { s1.ledger with port := (it, left - 1) :: t } }

/-- A record read fails its GCM tag (R84, R246): nothing is applied and nothing released. -/
def tagFails (slot : Nat) (s : State) : State :=
  safeHold 0x04 (logEvent 0x0602 0 0 slot (mark 0x10000 8 { s with ledger := { s.ledger with tagFail := true } }))

/-- One write round of up to 8 slots (R231): what ends in it takes effect after the round, so no COMMIT shares a
round with its own records. Without the Ledger key nothing is written (R85). -/
def ledgerRound (bad : List Nat) (s : State) : State :=
  match s.sec.keys with
  | none => s
  | some keys =>
    if s.ledgerDead || !s.awake || decide (s.ledger.port = []) then s
    else
      let r := writeSlots keys.ledger bad 8 0 s
      refreshCap (pumpPort (holdCheck (r.1.foldl (fun s it => itemDone it s) r.2)))

/-- LEDGER_ROUND: `bad` lists the writes of the round whose slot fails verification; `tagFail` names a slot that fails its
tag as it is read. -/
def execLedgerRound (bad : List Nat) (tagFail : Option Nat) (s : State) : Host.Outcome State Fault Refusal :=
  .next (match tagFail with
    | some slot => if s.awake ∧ s.sec.keys.isSome ∧ !s.ledgerDead ∧ s.ledger.port ≠ [] then tagFails slot s else s
    | none => ledgerRound bad s)

/-- Write rounds until the port queue is empty (R241 step 3). -/
def drainPort : Nat → State → State
  | 0, s => s
  | n + 1, s => if s.ledger.port = [] then s else drainPort n (ledgerRound [] s)

/-! The Key Context Cache. -/

/-- The jobs of a ward that wait for its key: READs, and WRITEs on their way to their intents. -/
def keyJobs (w : WardId) (s : State) : List Job :=
  s.ring.jobs.filter (fun j => decide (j.ctx = .ward w) &&
    (decide (j.phase = .needKey) || (decide (j.phase = .intake) && j.op == 2)))

/-- The oldest miss's unwrap ends (R227, R228): the entry is usable and its jobs go on, or the slot's tag or the
AES-KW check fails, the ward faults and the operations that missed end with it. -/
def kccUnwrap (intact : Bool) (s : State) : State :=
  match s.kcc.misses, s.sec.keys with
  | w :: rest, some keys =>
    if !s.kccReady then s
    else
      let x := s.ward w
      let s1 := { s with kcc := { s.kcc with misses := rest } }
      if intact && x.keyPresent then
        if s.kcc.entries.length = 48 ∧ s.kcc.entries.all (fun e => s.pinned e.ward) then s
        else
          let e : KccEntry := { ward := w, epoch := x.epoch, keys := Config.kwUnwrap keys.kek x.wrapped }
          let old := s.kcc.entries.filter (fun y => !(y.ward == w))
          let kept := if old.length < 48 then old else listDrop (fun y => !s.pinned y.ward) old
          let s2 := bump (cDev 12) 1 { s1 with kcc := { s1.kcc with entries := kept ++ [e] } }
          (keyJobs w s2).foldl (fun s j => s.setJob { j with phase := if j.op = 2 then .intake else .ready }) s2
      else
        let s2 := (keyJobs w s1).foldl (fun s j => finish j 0x31 0 0 s) (faultWard w 1 s1)
        (s2.cap.queue.filter (fun b => b.ward == w)).foldl (fun s b => loseBlock b s) s2
  | _, _ => s

/-- KCC_UNWRAP: `intact` says whether the slot's tag and the AES-KW check hold. -/
def execKccUnwrap (intact : Bool) (s : State) : Host.Outcome State Fault Refusal := .next (kccUnwrap intact s)

/-! Deferred deltas and replay. -/

/-- The committed intent of this life that holds the deferred record with this serial, not yet on its way to be resolved,
with the record's index. -/
def deferredOf (n : DWord) (s : State) : Option (Intent × Nat × ParRec) :=
  s.ledger.intents.findSome? (fun i =>
    if i.phase = .committed ∧ !i.replay then
      (i.parities.zipIdx.find? (fun p => p.1.live && p.1.serial == n && p.1.deferred.isSome &&
        !(i.resolving.any (fun r => r.1 == p.2)))).map (fun p => (i, p.2, p.1))
    else none)

/-- The old data of a DATA record (R236): the newest earlier DATA record still live, else the media
(DEDUCED, log 24). -/
def oldData (d : DataRec) (media : Option Sector) (s : State) : Option Sector :=
  let earlier := s.ledger.intents.foldl (fun acc i =>
    i.datas.foldl (fun acc e => if e.live && e.addr == d.addr && decide (e.serial < d.serial) && !i.replay
      then some e.sector else acc) acc) none
  match earlier with
  | some x => some x
  | none => match media with
    | some m => if verified (s.group d.addr.group).d d.addr m then some m else none
    | none => none

/-- The next DATA record of a parity record's row after index `k`. -/
def nextInRow (i : Intent) (p : ParRec) (k : Nat) : Option Nat :=
  ((i.datas.zipIdx.filter (fun q => q.1.addr.stripe == p.addr.stripe && q.1.addr.sub == p.addr.sub &&
    decide (k < q.2))).head?).map Prod.snd

/-- A deferred delta takes the old data of the DATA record it names (R236, R255). Once every one is known, the resolved
record goes to the port in the unit reserved for it, and its COMMIT after it. -/
def resolveDeferred (n : DWord) (old : Option Sector) (s : State) : State :=
  if s.ledgerDead || !s.inService then s
  else match deferredOf n s with
  | none => s
  | some (i, k, p) =>
    match p.deferred.bind (fun k => i.datas[k]?) with
    | none => s
    | some d =>
      match oldData d old s with
      | none =>
        logEvent 0x0705 p.addr.group.val (d.addr.column + 256 * d.addr.sub) d.addr.stripe
          (bump (cGroup p.addr.group 3) 1 s)
      | some o =>
        let t := addDelta (p.delta, p.covDelta) (deltaOf p.kind.toNat o d.sector)
        match nextInRow i p (p.deferred.getD 0) with
        | some m => s.updIntent i.serial (fun x => { x with
            parities := x.parities.set k { p with delta := t.1, covDelta := t.2, deferred := some m } })
        | none =>
          let ser := s.ledger.nextSerial
          let q := { p with serial := ser, delta := t.1, covDelta := t.2, deferred := none, slot := p.unit }
          let s1 := s.updIntent i.serial (fun x => { x with
            resolving := x.resolving ++ [(k, q)], commits := x.commits ++ [(ser + 1, (s.singles 1).headD 0)] })
          toPort [(.resolved i.serial k, 17)] { s1 with ledger := { s1.ledger with nextSerial := ser + 2 } }

/-- DEFERRED_DELTA: `old` is the old data's sector as the media or its recovery yields it; `tagFail` names a Ledger slot that
fails its tag as the records are read. -/
def execDeferredDelta (n : Nat) (old : Option Sector) (tagFail : Option Nat) (s : State) :
    Host.Outcome State Fault Refusal :=
  .next (match tagFail with
    | some slot => if s.inService ∧ !s.ledgerDead ∧ (deferredOf (BitVec.ofNat 64 n) s).isSome then tagFails slot s else s
    | none => resolveDeferred (BitVec.ofNat 64 n) old s)

/-- A whole sector written releases its TORN_SECTOR mark (R296). -/
def clearTorn (c : CellId) (a : SubAddr) (s : State) : State :=
  dropMarks (fun m => m.kind == .torn c a) s
/-- A sector is written whole on a cell: logged and counted (DESIGN CHOICE, log 10). -/
def writeOn (c : CellId) (a : SubAddr) (x : Sector) (s : State) : State :=
  let s1 := bump (cCell c 0x08) 1 s
  clearTorn c a { s1 with
    obs := { s1.obs with media := s1.obs.media ++ [(c, 16 * a.stripe + a.sub, x)] }
    sys := { s1.sys with wroteThisTick := true } }
/-- A sector is written on the cell that holds its column. -/
def mediaWrite (a : SubAddr) (x : Sector) (s : State) : State :=
  writeOn ((s.group a.group).cellOf a.stripe a.column) a x s

/-! Replay. -/

/-- The intents that wait for replay. -/
def State.replayLeft (s : State) : List Intent := s.ledger.intents.filter (·.replay)
/-- The last record has been applied and released: replay ends (R245). -/
def replayCheck (s : State) : State :=
  if s.ledger.replaying && (s.replayLeft == []) then
    logEvent 0x0603 0 0 0 { s with ledger := { s.ledger with replaying := false } }
  else s
/-- A sub-block that replay has brought up to date goes to media through the LEDGER_REPLAY class (R213, R222, R245). -/
def replayInstall (a : SubAddr) (x : Sector) (s : State) : State :=
  install 5 a { sector := x, dirty := true, policy := 1, queued := true } s
/-- What replay finds at an address: what it has brought up to date already, else the verified sector on media. -/
def replayFound (a : SubAddr) (media : Option Sector) (s : State) : Option Sector :=
  match cached a s with
  | some x => some x.sector
  | none => match media with
    | some m => if verified (s.group a.group).d a m then some m else none
    | none => none
/-- Release one record of a replayed intent that media already carries (R245). -/
def replayed (i : Intent) (n : DWord) (s : State) : State :=
  releaseWhere (fun x d => x.serial == i.serial && x.boot == i.boot && d.serial == n)
    (fun x p => x.serial == i.serial && x.boot == i.boot && p.serial == n) s
/-- Replay of one DATA record (R245): applied where the key found is older or the sector cannot be read; a FAILED member
keeps it for R261. -/
def replayData (i : Intent) (d : DataRec) (media : Option Sector) (s : State) : State :=
  if (s.group d.addr.group).lostCol d.addr.stripe d.addr.column then s
  else match replayFound d.addr media s with
  | some m => if keyLt (secKey m) (secKey d.sector) then replayInstall d.addr d.sector s else replayed i d.serial s
  | none => replayInstall d.addr d.sector s

/-- The DATA records of a parity record's row, with their index. -/
def rowDatas (i : Intent) (p : ParRec) : List (DataRec × Nat) :=
  i.datas.zipIdx.filter (fun q => q.1.addr.stripe == p.addr.stripe && q.1.addr.sub == p.addr.sub)
/-- The delta that a record folds in (R245, R255): its own, and, from where it is still deferred, that from the old data
found on media; none where that cannot be had. -/
def replayDelta (i : Intent) (p : ParRec) (media : List (Option Sector)) (s : State) : Option Bytes :=
  match p.deferred with
  | none => some p.delta
  | some k =>
    ((rowDatas i p).filter (fun q => decide (k ≤ q.2))).foldl (fun acc q =>
      match acc, replayFound q.1.addr ((media[q.2]?).getD none) s with
      | some t, some m => some (xorBytes t (deltaOf p.kind.toNat m q.1.sector).1)
      | _, _ => none) (some p.delta)
/-- What a record folds into the covered parts (R257): from the tags found before its DATA records are applied; none where
one of them is gone already. -/
def replayCov (i : Intent) (p : ParRec) (media : List (Option Sector)) (s : State) : Option Bytes :=
  (rowDatas i p).foldl (fun acc q =>
    match acc, replayFound q.1.addr ((media[q.2]?).getD none) s with
    | some t, some m =>
      if keyLt (secKey m) (secKey q.1.sector) then some (xorBytes t (deltaOf p.kind.toNat m q.1.sector).2) else none
    | _, _ => none) (some (zeros 48))
/-- The data columns of a row as they stand once every DATA record is applied: on die, else as read. -/
def rowNow (a : SubAddr) (row : List (Option Sector)) (s : State) : List (Option Sector) :=
  (List.range (s.group a.group).d).map (fun c => replayFound { a with column := c } ((row[c]?).getD none) s)
/-- The whole parity of a row from its data columns, covered parts included (R245, R257). -/
def rowParity (k : Nat) (row : List (Option Sector)) : Bytes × Bytes :=
  let cols := row.zipIdx.filterMap (fun q => q.1.map (fun x => (q.2, x)))
  (paritySum k 4096 (cols.map (fun q => (q.1, q.2.data))), paritySum k 48 (cols.map (fun q => (q.1, q.2.cov))))
/-- What replay decides for one parity record. -/
inductive ParStep where
  /-- Media already carries it. -/
  | old
  /-- The new parity: its bytes and its covered part, or none where that is to be had from the row's data columns. -/
  | write (data : Bytes) (cov : Option Bytes)
  /-- It is recomputed from the row once every DATA record of the stripe is applied. -/
  | later
  /-- Old data cannot be read: replay stands here. -/
  | stuck
/-- Replay of one parity record (R245, R257), before its intent's DATA records are applied. -/
def parStep (i : Intent) (p : ParRec) (at_ : Option Sector) (media : List (Option Sector)) (s : State) : ParStep :=
  if (s.group p.addr.group).lostCol p.addr.stripe p.addr.column then .later
  else match replayFound p.addr at_ s with
  | some m =>
    if !(keyLt (secKey m) (i.boot.toNat, p.serial.toNat)) then .old
    else if p.full then
      .write p.delta (some (paritySum p.kind.toNat 48 ((rowDatas i p).map (fun q => (q.1.addr.column, q.1.sector.cov)))))
    else match replayDelta i p media s with
    | some t => .write (xorBytes m.data t) ((replayCov i p media s).map (xorBytes m.cov))
    | none => .stuck
  | none =>
    if p.full then
      .write p.delta (some (paritySum p.kind.toNat 48 ((rowDatas i p).map (fun q => (q.1.addr.column, q.1.sector.cov)))))
    else .later
/-- The key of the newest live record at a parity address. -/
def newestKey (a : SubAddr) (s : State) : Word × DWord :=
  s.replayLeft.foldl (fun acc i => i.parities.foldl (fun acc p =>
    if p.live && p.addr == a then (i.boot, p.serial) else acc) acc) (0, 0)
/-- A parity step is carried out, its intent's DATA records being applied. -/
def parApply (i : Intent) (q : ParRec × Nat × ParStep) (rows : List (List (Option Sector))) (s : State) : State :=
  match q.2.2 with
  | .old => replayed i q.1.serial s
  | .write data cov =>
    let c := match cov with
      | some c => c
      | none => (rowParity q.1.kind.toNat (rowNow q.1.addr ((rows[q.2.1]?).getD []) s)).2
    replayInstall q.1.addr (paritySector q.1.addr (q.1.kind.toNat + 1) data c i.boot q.1.serial) s
  | _ => s
/-- Every DATA record of the stripe has been applied (R245). -/
def stripeApplied (a : SubAddr) (s : State) : Bool :=
  s.replayLeft.all (fun i => i.applied || i.datas.all (fun d => !(d.live && d.addr.group == a.group && d.addr.stripe == a.stripe)))
/-- Parity that could not be read is recomputed from the row's data columns (R245), under the newest record's key. -/
def parRecompute (p : ParRec) (row : List (Option Sector)) (s : State) : State :=
  let a := p.addr
  let now := rowNow a row s
  if (s.group a.group).lostCol a.stripe a.column || (cached a s).isSome || !(stripeApplied a s) || !(now.all Option.isSome) then s
  else
    let t := rowParity p.kind.toNat now
    let k := newestKey a s
    replayInstall a (paritySector a (p.kind.toNat + 1) t.1 t.2 k.1 k.2) s
/-- Change a replayed intent. -/
def updReplay (i : Intent) (f : Intent → Intent) (s : State) : State :=
  { s with ledger := { s.ledger with
    intents := listUpd (fun x => x.serial == i.serial && x.boot == i.boot) f s.ledger.intents } }
/-- Replay takes the oldest committed intent in key order that it has not taken up (R245): its parity is decided from what
media holds, its DATA records are applied, and its parity after them. Once all are taken up, it recomputes parity that could
not be read, intent by intent. `media` lists the sectors read at its DATA and then its PARITY_DELTA addresses; `rows` the
data columns of each parity record's row. -/
def replayOne (media : List (Option Sector)) (rows : List (List (Option Sector))) (s : State) : State :=
  match s.replayLeft.find? (fun i => !i.applied) with
  | some i =>
    let pars := (i.parities.zipIdx.filter (fun q => q.1.live)).map (fun q =>
      (q.1, q.2, parStep i q.1 ((media[i.datas.length + q.2]?).getD none) media s))
    match pars.find? (fun q => match q.2.2 with | .stuck => true | _ => false) with
    | some (p, _) =>
      logEvent 0x0705 p.addr.group.val (p.addr.column + 256 * p.addr.sub) p.addr.stripe
        (bump (cGroup p.addr.group 3) 1 s)
    | none =>
      let s1 := (i.datas.zipIdx.filter (fun q => q.1.live)).foldl (fun s q =>
        replayData i q.1 ((media[q.2]?).getD none) s) (updReplay i (fun x => { x with applied := true }) s)
      replayCheck (pars.foldl (fun s q => parApply i q rows s) s1)
  | none =>
    match s.replayLeft.find? (fun i => i.parities.any (fun p => p.live && (cached p.addr s).isNone)) with
    | some i => i.parities.zipIdx.foldl (fun s q =>
        if q.1.live then parRecompute q.1 ((rows[q.2]?).getD []) s else s) s
    | none => s

/-- REPLAY: a record that fails its tag stops everything (R246). -/
def execReplay (media : List (Option Sector)) (rows : List (List (Option Sector))) (tagFail : Option Nat)
    (s : State) : Host.Outcome State Fault Refusal :=
  .next (if !s.inService || s.ledgerDead || s.replayLeft == [] then s
    else match tagFail with
    | some slot => tagFails slot s
    | none => replayOne media rows { s with ledger := { s.ledger with replaying := true } })

end Sys2Proof.Machine
end

