-- ==== Sys2Proof/Machine/Arm.lean ====
section
/-! DEFINITION. Closing a cell's port (R333), switching MEDIA off and leaving Service (R337). -/

namespace Sys2Proof.Machine

/-- AL_CLK stops (R333): a write in progress is cut, READY clears, and what stood in the cell's write queue is queued for
destage again. -/
def cellOff (c : CellId) (s : State) : State :=
  let s := dropGate c s
  let s1 := (s.cell c).queue.foldl (fun s q =>
    updCached q.addr (fun y => some { y with queued := y.dirty || y.queued }) s) (cancelRetries c s)
  s1.updCell c (fun x => { x with
    ready := false, atSpeed := false, clockLock := false, bring := .off, closing := none, wg := false, writing := none
    gateDue := none, queue := [], idle := 0
    arm := { sentLog := x.arm.sentLog }
    servo := { x.servo with
      loaded := false, tracking := false, writeSettled := false, seeking := false, reacquiring := false, frames := []
      estimate := none } })
/-- Every cell's port stops. -/
def cellsOff (s : State) : State := allCells.foldl (fun s c => cellOff c s) s
/-- Every capture port loses its locks and the frame it receives. -/
def portsOff (s : State) : State :=
  let s1 := rxOff s
  { s1 with cap := { s1.cap with ports := s1.cap.ports.mapAll {} (fun _ p =>
    { p with blockLock := false, amLock := false, hiBer := false }) } }
/-- MEDIA and CAPTURE are switched off (R337 step 4, R345). The lock and link bits clear; the token buckets' levels and the
sampling counts, which stand in CAPTURE too, are kept (DESIGN CHOICE, log 37). -/
def mediaOff (s : State) : State :=
  let s1 := portsOff (cellsOff s)
  { s1 with pwr := { s1.pwr with domains := s1.pwr.domains &&& 0x37 } }

/-- PARK and then SPINDLE brake, once a sector write in progress has ended or beat `due` has come (R333, R337). -/
def parkAndBrake (due : DWord) (c : CellId) (s : State) : State := armSend c 3 2 (endAndPark due c s)
/-- A cell's slot is withdrawn (R333): PARK, then SPINDLE brake; AL_CLK stops once PARKED reads 1 or after 25 ms. -/
def closePort (c : CellId) (s : State) : State :=
  let x := s.cell c
  if x.bring = .off ∨ x.closing.isSome then s
  else
    (parkAndBrake (s.clk.beat + 25000000) c (if x.servo.loaded then s else armSend c 4 0 s)).updCell c (fun x =>
      { x with closing := some s.clk.beat })

/-- Steps 1 to 3 of R337 (R272, R341): open append blocks close with CLOSE = 0x03, the context entry of every ward with a
SHED_GAP is written, averaging retries are cancelled, background work pauses, and PARK and then SPINDLE brake go to every
loaded cell. -/
def quiesceMedia (s : State) : State :=
  let s1 := closeAll 3 s
  let s2 := pauseWork { s1 with
    wards := s1.wards.mapAll {} (fun _ x => { x with gapKept := x.shedGap }) }
  allCells.foldl (fun s c =>
    let s := cancelRetries c s
    if (s.cell c).servo.loaded then parkAndBrake (s.clk.beat + 20000000) c s else s) s2

/-- Every brought-up cell reports PARKED (R337 step 4). -/
def allParked (s : State) : Bool :=
  s.cells.all (fun p => decide (p.2.bring = .off) || p.2.parked || !p.2.servo.loaded)

end Sys2Proof.Machine
end

