-- ==== Sys2Proof/Machine/Boot.lean ====
section
/-! DEFINITION. What goes down and comes up again: the error state (R85), zeroization (R87–R89), the power-fail seal
(R241), what survives a cold source (R61, R346, R404), the start-up sequence with the Ledger scan and the hand-off
(R96–R103, R244, R356), host-link resets and the FLR (R94, R125), and the choice and change of mode (R331–R347). -/

namespace Sys2Proof.Machine

/-! Self-tests and the error state. -/

/-- SEC.SELFTEST bit of the test at place `t` of the execution order (R82). -/
def testBit (t : Nat) : Nat := [0, 4, 1, 2, 3, 5, 7, 6, 8, 9].getD t 0
/-- SEC.SELFTEST after every test has passed (R82). -/
def allPassed : Word := 0x800003FF
/-- SEC.SELFTEST when the test at place `t` fails first: the bits of the tests before it (R82). -/
def passedBefore (t : Nat) : Word := BitVec.ofNat 32 ((List.range t).map (fun k => 2 ^ testBit k)).sum
/-- ERROR_CAUSE (R80, R92). -/
def failCause : TestFail → Nat
  | .test t => testBit t.val + 1
  | .repetition => 0x11
  | .adaptive => 0x12
/-- SEC.SELFTEST as the power-on tests leave it: a continuous test that fails as the DRBG is seeded comes after all ten
(R80, R81). -/
def failPassed : TestFail → Word
  | .test t => passedBefore t.val
  | _ => allPassed

/-- One count of the repetition count test (R80): the value last seen and how often it has come in a row. -/
def repeatCount : List Bool → Nat
  | [] => 0
  | [_] => 1
  | a :: b :: t => if a = b then repeatCount (b :: t) + 1 else 1
/-- The repetition count test fails on samples, newest first (R80): 41 identical consecutive ones. -/
def repetitionFails (l : List Bool) : Bool := decide (41 ≤ repeatCount l)
/-- The adaptive proportion test fails on a window of 1,024 samples, first sample first (R80): 795 of the first one's value. -/
def adaptiveFails (l : List Bool) : Bool :=
  decide (795 ≤ ((l.take 1024).filter (fun x => some x == l.head?)).length)

/-- Every volatile CSP is cleared (R85, the table of CSPs in 04). -/
def clearCsps (s : State) : State :=
  { s with
    sec := { s.sec with keys := none, drbgReady := false }
    kcc := { s.kcc with entries := [] } }

/-- An admin job. -/
def ctxAdmin (j : Job) : Bool := decide (j.ctx = .admin)

/-- The error state (R85): the cause is recorded, volatile CSPs are cleared, the event is logged and Safe Hold entered. With
no key left no COMMIT can be written, so every fetched job but an IDENTIFY or a ZEROIZE completes HELD. -/
def errorState (cause : Nat) (s : State) : State :=
  let s1 := clearCsps { s with sec := { s.sec with error := true, errorCause := BitVec.ofNat 8 cause } }
  finishWhere (fun j => !(ctxAdmin j && (j.op == 0x40 || j.op == 0x46))) 0x12
    (safeHold 0x01 (logEvent 0x0202 0 cause 0 s1))

/-! Marks that the die writes at once. -/

/-- Write an INTENT_MARK into a slot of the seal reserve (R238, R241). Before the keys of a life are derived its bytes are not
laid out (DESIGN CHOICE, log 45). -/
def putMark (slot : Nat) (k : MarkKind) (s : State) : State :=
  let m : Mark := ⟨k, s.sec.bootCount, s.ledger.nextSerial, slot⟩
  let s1 := { s with ledger := { s.ledger with
    marks := s.ledger.marks.filter (fun x => x.slot != slot) ++ [m], nextSerial := s.ledger.nextSerial + 1 } }
  match s.sec.keys with
  | some q => bump (cDev 9) 1 (putSlots 1 slot (m.bytes q.ledger) s1)
  | none => s1
/-- Write TYPE = 0 into a slot at once (R233). -/
def freeNow (l : List Nat) (s : State) : State :=
  l.foldl (fun s n => putSlots 1 n (0 :: ((s.ledger.slots.get [] n).drop 1)) s) (bump (cDev 8) l.length (bump (cDev 9) l.length s))
/-- The marks that `f` picks are released at once. -/
def freeMarks (f : Mark → Bool) (s : State) : State :=
  let s1 := freeNow ((s.ledger.marks.filter f).map (·.slot)) s
  { s1 with ledger := { s1.ledger with marks := s1.ledger.marks.filter (fun m => !f m) } }

/-! Zeroization. -/

/-- A zeroized ward (R61, R87 step 5): UNPROVISIONED with only its epoch and its stored limit kept. -/
def zeroWard (x : Ward) : Ward := { epoch := x.epoch, malformedLimit := x.malformedLimit }

/-- Step 3 of R87: the salt, the Key Context Cache, the device keys and the DRBG state are overwritten, and the staging area
of R106 with them. -/
def zeroKeys (s : State) : State :=
  clearCsps { s with
    sec := { s.sec with salt := none, staging := none }
    kcc := { s.kcc with entries := [], misses := [] } }
/-- Steps 1 to 3 of R87: the flag, the stop of fetch and admission with every ring read that is out, every gate dropped at the
end of its sector or after 5 µs and PARK sent, and the keys. -/
def zeroBegin (s : State) : State :=
  let s1 := { s with
    sec := { s.sec with zeroizePending := true }
    ring := { s.ring with turn := none, turnLeft := 0 }
    host := { s.host with reads := [] } }
  allCells.foldl (fun s c => endAndPark (s1.clk.beat + 5000) c s) (zeroKeys s1)

/-- Step 4 of R87: fetched and unfinished entries complete ABORTED, those of a chain still open too, a ZEROIZE command
SUCCESS; ward work in progress is abandoned (R89). -/
def zeroComplete (s : State) : State :=
  let s1 := finishWhere (fun j => ctxAdmin j && j.op == 0x46) 0x00 s
  let s2 := s1.usedWards.foldl (fun s w => endOpen (.ward w) 0x10 s) (endOpen .admin 0x10 (finishWhere (fun _ => true) 0x10 s1))
  { s2 with
    wards := s2.wards.mapAll {} (fun _ x => { x with flush := none })
    reads := [], recoveries := [] }

/-- Step 5 of R87: key slots, verifier, officer lockout, telemetry key, Ledger, ward configuration, counters and
checkpoints (R355) overwritten; PROVISIONED clears. A gate that still waits for the end of its sector has fallen by then. -/
def zeroWipe (s : State) : State :=
  let s := allCells.foldl (fun s c => dropGate c s) s
  { s with
    sec := { s.sec with
      provisioned := false, verifier := none, telemetry := none
      officerFails := 0, officerLocked := false, lockoutLeft := 0 }
    wards := s.wards.mapAll {} (fun _ x => zeroWard x)
    ledger := { nextSerial := s.ledger.nextSerial, retired := s.ledger.retired, sealedAtStop := s.ledger.sealedAtStop
                slotRetired := s.ledger.slotRetired, serialLatch := s.ledger.serialLatch }
    cap := { s.cap with queue := [] }
    cache := { s.cache with lines := [], drain := [], waits := [] }
    kcc := { s.kcc with entries := [], misses := [] }
    ring := { s.ring with adminHigh := 0, adminWindow := [], adminOldest := 0 }
    cells := s.cells.mapAll {} (fun _ x => { x with queue := [], writing := none, wg := false, gateDue := none })
    obs := { s.obs with counters := [], checkpoint := none, checkOld := none }
    pwr := { s.pwr with scratch := [] } }

/-- Slots 2–6 and 8–23, whose votes step 6 of R87 clears (R346). -/
def serviceSlots : BitVec 24 := 0xFFFF7C
/-- The vote table and its complement (R346). -/
def State.setVotes (s : State) (v : BitVec 24) : State :=
  { s with pwr := { s.pwr with votes := v, votesInv := ~~~v } }

/-- The admin and ward ring configuration is cleared (R87 step 6, R117, R125 step 3): rings, indices, schedule, vectors, and
what is pending on them. -/
def clearRings (s : State) : State :=
  dropPend (fun _ => true) { s with
    regs := s.regs.filter (fun p => !(decide (0x08000 ≤ p.1) && decide (p.1 ≤ 0x08010)))
    ring := { s.ring with
      enable := false, fetching := false, applying := false, placed := false, stopping := false
      admin := { sqLog := 4, cqLog := 4 }, turn := none, turnLeft := 0, turnPast := false, adminTaken := 0 }
    wards := s.wards.mapAll {} (fun _ x => { x.noRings with flush := none }) }

/-- No way is in service (R214): Safe Hold with cause NO_WAYS. -/
def waysCheck (s : State) : State := if s.cache.retired = 0xFFFF then safeHold 0x40 s else s
/-- The end of step 6 of R87: the flag, the count, the session, the rings, the votes of R346 and the event. -/
def zeroClose (s : State) : State :=
  let s1 := (clearRings (endSession s)).setVotes (s.pwr.votes &&& ~~~serviceSlots)
  logEvent 0x0204 0 0 (s1.sec.zeroCount + 1).toNat { s1 with
    sec := { s1.sec with zeroizePending := false, zeroCount := s1.sec.zeroCount + 1 }
    pwr := { s1.pwr with sleepVote := false, transition := none, zeroLatched := false } }
/-- Step 6 of R87 while awake: the power-on tests where R87 asks for them (`again`), `test` being the one that fails, then the
rest. Provisioning unless a test failed. -/
def zeroEnd (again : Bool) (test : Option (Fin 10)) (s : State) : State :=
  match again, test with
  | true, some t =>
    zeroClose (errorState (testBit t.val + 1) { s with
      sec := { s.sec with selftest := passedBefore t.val }
      sys := { s.sys with stage := 0x7 } })
  | _, _ =>
    waysCheck (zeroClose (mediaOff { s with
      sec := { s.sec with
        error := false, errorCause := 0, drbgReady := true
        selftest := if again then allPassed else s.sec.selftest }
      sys := { s.sys with stage := 0x5 }
      pwr := { s.pwr with mode := .provisioning, holdCause := 0 } }))

/-! The power-fail seal and the cold stop. -/

/-- Move a queued event to the AON queue, or count it (R346, R365). -/
def toAon (e : Event) (s : State) : State :=
  if s.pwr.aonEvents.length < 64 then
    { s with pwr := { s.pwr with aonEvents := s.pwr.aonEvents ++ [{ e with replayed := true }] } }
  else { s with pwr := { s.pwr with aonLost := if s.pwr.aonLost = 255 then 255 else s.pwr.aonLost + 1 } }

/-- Remove the items of intents that are gone. -/
def dropItems (gone : DWord → Bool) (l : List (PortItem × Nat)) : List (PortItem × Nat) :=
  l.filter (fun p => match p.1 with
    | .intent n => !gone n
    | .data n _ => !gone n
    | .parity n _ => !gone n
    | .commit n => !gone n
    | .resolved n _ => !gone n
    | .recommit n _ => !gone n
    | _ => true)
/-- What an intent without COMMIT has written, as releases: its INTENT and the payload records so far, and one that is being
written. -/
def Intent.undo (i : Intent) : List (PortItem × Nat) :=
  if i.phase = .intent then []
  else (.release i.slot false, 1) ::
    ((i.datas.map DataRec.free) ++ (i.parities.map ParRec.free)).take (i.written + 1)
/-- Abandon every uncommitted intent of this life that `f` picks (R125 step 2, R339 step 1), releasing what it has
written. -/
def abandonIntents (f : Intent → Bool) (s : State) : State :=
  let pick := fun (i : Intent) => !i.replay && decide (i.phase ≠ .committed) && f i
  let out := s.ledger.intents.filter pick
  let gone := fun (n : DWord) => out.any (fun i => i.serial == n)
  toPort (out.flatMap Intent.undo) { s with ledger := { s.ledger with
    intents := s.ledger.intents.filter (fun i => !(pick i))
    port := dropItems gone s.ledger.port
    waits := dropItems gone s.ledger.waits } }

/-- Every sealed append block that waits is lost and counted (R208). -/
def loseQueue (s : State) : State := s.cap.queue.foldl (fun s b => loseBlock b s) s

/-- A ward as power loss or Deep Standby leaves it (R61): OPEN is restored as SEALED by the scan; the ring configuration
and all volatile parts go; the append stream stands where its context entry says. -/
def coldWard (x : Ward) : Ward :=
  { state := x.state, enrol := x.enrol, lastFault := x.lastFault, fails := x.fails, appendFull := x.appendFull,
    epoch := x.epoch, high := x.high, window := x.window, winOldest := x.winOldest, block := x.block, append := x.append,
    malformedLimit := x.malformedLimit, wrapped := x.wrapped, verifier := x.verifier, keyPresent := x.keyPresent,
    writePos := x.writePos, openPos := x.writePos, nextSeq := x.seqKept, shedGap := x.gapKept,
    pendingLoss := x.pendingLoss, lossSeq := x.lossSeq, seqKept := x.seqKept, gapKept := x.gapKept, trims := x.trims }

/-- A cell as power loss leaves it: its remap table, stored serial and offset table (R88, R288, R307). -/
def coldCell (x : Cell) : Cell :=
  { remap := x.remap, remapUsed := x.remapUsed, storedSerial := x.storedSerial, arm := { sentLog := x.arm.sentLog }
    servo := { offsets := x.servo.offsets } }

/-- A group as power loss leaves it: rebuild and scrub pause with their fronts kept (R272, R273). -/
def coldGroup (g : Group) : Group :=
  let r := if g.rebuild.active then { g.rebuild with active := false, paused := true, pending := true } else g.rebuild
  let b := if g.scrub.active then { g.scrub with active := false, pending := true } else g.scrub
  { g with rebuild := { r with credit := 0, sub := 0 }, scrub := { b with credit := 0, sub := 0 } }

/-- An intent as MRAM holds it: what a resolution on its way has written is no record of it, and a record carries no delta of
the covered part (R234, R236, R257). -/
def coldIntent (i : Intent) : Intent :=
  { i with
    applied := false, resolving := []
    commits := i.commits.filter (fun c => !(i.resolving.any (fun r => r.2.serial + 1 == c.1)))
    parities := i.parities.map (fun p => { p with covDelta := zeros 48 }) }

/-- What every switched domain loses when it is powered off (R346, R404): only MRAM and the AON banks are left. An intent
whose INTENT is not written is gone, but for a ward reset, which the ward's state remembers (R62) (DEDUCED, log 14). -/
def coldStore (s : State) : State :=
  let s := pauseWork s
  { s with
    sys := {}
    clk := { beat := s.clk.beat }
    sec := { s.sec with
      session := false, error := false, jtagLocked := false, errorCause := 0, selftest := 0, idleTicks := 0
      fetchedThisTick := false, staging := none, keys := none, drbgReady := false, drbgSince := 0 }
    pwr := { s.pwr with
      mode := .deepStandby, transition := none, transBeat := 0, domains := 1, voteRefused := false, refuseCause := 0
      refusedSlot := 0, priorInvalid := false, holdCause := 0, slept := none, released := none }
    host := { out := s.host.out, resp := s.host.resp }
    ring := { adminHigh := s.ring.adminHigh, adminWindow := s.ring.adminWindow, adminOldest := s.ring.adminOldest
              nextJob := s.ring.nextJob }
    wards := s.wards.mapAll {} (fun _ x => coldWard x)
    cap := { tumbler := s.cap.tumbler }
    cache := { retired := s.cache.retired, ratRange := s.cache.ratRange }
    kcc := {}
    ledger := { s.ledger with
      replaying := false, atCap := false, tagFail := false, slotRetired := false, serialLatch := 0, port := [], waits := []
      intents := (s.ledger.intents.filter (fun i => decide (i.phase ≠ .intent) || i.isReset)).map coldIntent
      hostTurns := 0, owed := none }
    groups := s.groups.mapAll {} (fun _ g => coldGroup g)
    cells := s.cells.mapAll {} (fun _ x => coldCell x)
    reads := [], recoveries := []
    obs := { dezia := s.obs.dezia, media := s.obs.media, checkpoint := s.obs.checkpoint, checkOld := s.obs.checkOld }
    pin := { s.pin with
      switching := [], uart := [], uartSent := 0, uartAcc := 0, uartPaused := false, uartDrops := 0, smbAbort := false
      smbAt := none, keeper := 0, gpioIn := 0, jtag := 1 }
    regs := coldRegs s.regs }

/-- The records of a ward's append stream that no COMMIT will bring (R208, R241), oldest first, with the first SEQ of each
block: of a block whose INTENT cannot be written any more, of a sealed block that waits, and of the open block. -/
def lostBlocks (w : WardId) (s : State) : List (Nat × DWord) :=
  (s.ledger.intents.filter (fun i => i.capture && !i.replay && decide (i.ctx = .ward w) && decide (i.phase = .intent))).map
    (fun i => (i.records, i.firstSeq)) ++
  (s.cap.queue.filter (fun b => b.ward == w)).map (fun b => (b.records, b.firstSeq)) ++
  (match (s.ward w).openBlk with | some b => [(b.count, b.firstSeq)] | none => [])
/-- The APPEND_OPEN entries (R241 step 4): of every ward with such records or a nonzero SHED_GAP. -/
def openEntries (s : State) : List ((WardId × Nat) × (Word × DWord)) :=
  s.usedWards.filterMap (fun w =>
    let l := lostBlocks w s
    if l = [] ∧ (s.ward w).shedGap = 0 then none
    else some ((w, (l.map Prod.fst).sum), ((s.ward w).shedGap, (l.head?.map Prod.snd).getD 0)))
/-- Groups of 12, with their number. -/
def twelves {α : Type} : Nat → Nat → List α → List (Nat × List α)
  | 0, _, _ => []
  | n + 1, k, l => if l.isEmpty then [] else (k, l.take 12) :: twelves n (k + 1) (l.drop 12)
/-- Step 4 of R241. Before hand-off, and after a start-up that stopped at LEDGER_FAIL, only SEAL is written (R243). -/
def sealOpen (s : State) : State :=
  if s.sys.boot.isSome || s.sys.stage == 9 then s
  else (twelves 342 0 (openEntries s)).foldl (fun s p => putMark (48793 + p.1) (.appendOpen p.2) s) s
/-- Step 1 of R241 on one cell: its sector ends within the 5 µs, or is cut. -/
def sealGate (ends : List CellId) (s : State) (c : CellId) : State :=
  match (s.cell c).writing with
  | none => s
  | some k =>
    match (s.cell c).queue.find? (fun q => q.key == k) with
    | none => s
    | some q =>
      if ends.contains c then
        writeOn c q.addr q.sector (s.updCell c (fun x => { x with
          writing := none, wg := false, gateDue := none, queue := listDrop (fun y => y.key == k) x.queue }))
      else bump (cCell c 0x38) 1 (s.updCell c (fun x => { x with wg := false, gateDue := none, torn := true }))
/-- Step 5 of R241: a mark for each sector cut, in the slot of its cell. -/
def sealTorn (s : State) (c : CellId) : State :=
  match (s.cell c).writing.bind (fun k => (s.cell c).queue.find? (fun q => q.key == k)) with
  | some q => putMark (49135 + c.val) (.torn c q.addr) s
  | none => s
/-- Step 2 of R241: a zeroization latched and not yet begun sets its flag. -/
def sealZero (s : State) : State :=
  if s.pwr.zeroLatched && !s.sec.zeroizePending then
    putMark 48792 .zeroizePending { s with sec := { s.sec with zeroizePending := true } }
  else s
/-- The vote bank of a sealed stop (R346, R354): `votes` are the prior ones. -/
def sealBank (stop : BitVec 3) (src : BitVec 4) (votes : BitVec 24) (s : State) : State :=
  { (s.setVotes 0) with
    pwr := { (s.setVotes 0).pwr with
      priorVotes := votes, lastStop := stop, sleepVote := false, coldDue := some src } }
/-- The records of the seal (steps 1 to 6 of R241): `stop` is 2 after PF_N and 3 after a cold restart (R354), `ends` the cells
whose sector ends within the 5 µs. The records at the port are completed where the Ledger can be written (DEDUCED, log 20). -/
def sealRecords (stop : BitVec 3) (ends : List CellId) (s : State) : State :=
  let s1 := drainPort 4096 (sealZero (allCells.foldl (sealGate ends) s))
  putMark 49151 (.sealed s.clk.beat s.tai (stop.toNat - 1)) (allCells.foldl sealTorn (sealOpen s1))
/-- The seal (R241), and everything but AON goes down. -/
def powerSeal (stop : BitVec 3) (src : BitVec 4) (ends : List CellId) (s : State) : State :=
  sealBank stop src s.pwr.votes (coldStore (sealRecords stop ends s))

/-- A stop without a seal and with AON off (R380, R382): the AON banks go too; records not yet written are lost
(DESIGN CHOICE, log 12). -/
def powerLost (s : State) : State :=
  let s1 := coldStore s
  { s1 with pwr := { powered := false, mode := .deepStandby, pfLow := s.pwr.pfLow, perstLow := s.pwr.perstLow } }

/-! Rings and the host link. -/

/-- The FLR column of R61 on one ward. -/
def flrWard (x : Ward) : Ward := { x with state := if x.state = .opened then .sealed else x.state }
/-- Steps 1 to 3 of R125, as R94 shares them: fetched work that is not committed is abandoned without completions, but for a
ward reset, which runs to its end (DEDUCED, log 14); OPEN wards seal, rings clear, the Key Context Cache is invalidated, the
session ends and the event log is disabled. -/
def linkStop (s : State) : State :=
  let s1 := abandonIntents (fun i => !i.capture && !i.isReset) s
  let s2 := clearRings { s1 with
    ring := { s1.ring with jobs := [] }
    host := { s1.host with reads := [], pend := [], held := [] }
    wards := s1.wards.mapAll {} (fun _ x => flrWard x)
    obs := { s1.obs with enabled := false }
    kcc := { s1.kcc with
      entries := [], busyUntil := s1.clk.beat + 48
      misses := s1.kcc.misses.filter (fun w => s1.cap.queue.any (fun b => b.ward == w)) } }
  refreshCap (endSession s2)
/-- Configuration space, the MSI-X table and the HOST registers return to reset (R125 step 5, R94). -/
def hostRegsReset (s : State) : State :=
  { s with
    host := { out := s.host.out, resp := s.host.resp, speed := s.host.speed, width := s.host.width, flr := s.host.flr
              capPaused := s.host.capPaused }
    regs := linkRegs s.regs }
/-- Configuration space and the MSI-X table return to reset, and no HOST register (R126). -/
def configReset (s : State) : State :=
  { s with
    host := { s.host with
      mse := false, bme := false, msixEnable := false, msixMask := false, bars := [], devCtl := 0x2810, devCtl2 := 0
      linkCtl := 0, aerUncorr := 0, aerCorr := 0, aerCtl := 0, d3hot := false, barFrom := 0, pba := 0 }
    regs := s.regs.filter (fun p => !(decide (0x06000 ≤ p.1) && decide (p.1 < 0x07000))) }
/-- A host-link reset (R94): the link goes down with its endpoint. -/
def hostLinkReset (s : State) : State :=
  let s1 := hostRegsReset (linkStop s)
  { s1 with host := { s1.host with speed := 0, width := 0 } }

/-! Modes. -/

/-- The state of a power domain (R13, R20). -/
inductive DomainState where
  | off
  | on
  | retained
deriving DecidableEq, Repr
/-- The state of domain `d` (R20, R341): in Retention Sleep the six switched domains are retained. -/
def State.domain (s : State) (d : Nat) : DomainState :=
  if s.pwr.domains.getLsbD d then .on
  else if s.pwr.mode = .retentionSleep ∧ 1 ≤ d ∧ d ≤ 6 then .retained
  else .off

/-- The mode R334 selects. -/
def selectMode (s : State) : Mode :=
  if s.pwr.holdCause ≠ 0 ∧ s.pwr.votes ≠ 0 then .safeHold
  else if s.pwr.votes = 0 then .deepStandby
  else if s.pwr.sleepVote then .retentionSleep
  else if !s.sec.provisioned then .provisioning
  else if s.pwr.votes &&& serviceSlots ≠ 0 then .service
  else .management

/-- A sealed block that cannot go on before media is written or replay has run. -/
def stuckBlock (s : State) (b : SealedBlk) : Bool :=
  !(canReserve (.block b) s) || ((Waiting.block b).blocks s).any (fun a => stripeHeld a.group a.stripe s)
/-- No Ledger write is in flight, and no intent can go on (R339 step 2, R341 step 3): where the Ledger can no longer be
written, nothing is. -/
def ledgerQuiet (s : State) : Bool :=
  s.ledgerDead || s.sec.keys.isNone ||
  (s.ledger.port == [] && s.ledger.waits == [] &&
    s.ledger.intents.all (fun i => i.replay || decide (i.phase = .committed) || decide (i.phase = .held)) &&
    s.cap.queue.all (stuckBlock s))

/-- What a fetched job has got into the Ledger (R339 step 1): its INTENT has been written, or it is a ward reset. -/
def intentWritten (s : State) (j : Job) : Bool :=
  s.ledger.intents.any (fun i => !i.replay && decide (i.job = some j.id) && (decide (i.phase ≠ .intent) || i.isReset))
/-- Step 1 of R339: jobs whose INTENT is written run to their end, every other is abandoned; the vote bank records the
stop. -/
def standbyBegin (s : State) : State :=
  let s1 := abandonIntents (fun i => decide (i.phase = .intent) && !i.capture && !i.isReset) s
  { s1 with
    ring := { s1.ring with jobs := s1.ring.jobs.filter (intentWritten s), turn := none, turnLeft := 0 }
    host := { s1.host with reads := [] }
    pwr := { s1.pwr with transition := some .enterStandby, transBeat := s1.clk.beat, lastStop := 1 } }
/-- No pin is switching (R395): isolation waits for it. -/
def State.pinsQuiet (s : State) : Bool := s.pin.switching.all (fun p => p.2.isNone)
/-- Steps 2 and 4 of R339, once no pin is switching (R395) and the port is empty: what is left of the append stream is counted as
lost, the final checkpoint is taken (R356), queued events go to the AON queue (R365), the session ends (R71) and the domains
go down (DESIGN CHOICE, log 30). -/
def standbyEnd (s : State) : State :=
  if !(ledgerQuiet s && s.pinsQuiet) then s
  else
    let s1 := loseQueue s
    if !(ledgerQuiet s1) then s1
    else
      let s2 := { s1 with
        wards := s1.wards.mapAll {} (fun _ x => { x with gapKept := x.shedGap })
        obs := { s1.obs with
          checkOld := s1.obs.checkpoint
          checkpoint := some { boot := s1.sec.bootCount, beat := s1.clk.beat, counters := s1.obs.counters, final := true } } }
      coldStore (s2.obs.events.foldl (fun s e => toAon e s) s2)

/-- Steps 1 and 2 of R341, from Service or Management. -/
def sleepBegin (s : State) : State :=
  let s1 := if s.pwr.mode = .service then quiesceMedia s else s
  { s1 with
    pwr := { s1.pwr with transition := some .enterSleep, transBeat := s1.clk.beat }
    ring := { s1.ring with turn := none, turnLeft := 0 } }
/-- Nothing that step 3 of R341 waits for is in flight, and the cells are parked or have had their 20 ms. -/
def sleepQuiet (s : State) : Bool :=
  ledgerQuiet s && s.pinsQuiet && s.host.reads == [] && s.cells.all (fun p => p.2.writing.isNone) &&
  (allParked s || decide (s.pwr.transBeat.toNat + 20000000 ≤ s.clk.beat.toNat))
/-- Steps 3 to 5 of R341: clocks stop, the domains go into retention, the SerDes and the PLL are off. -/
def sleepEnd (s : State) : State :=
  if !(sleepQuiet s) then s
  else
    let s1 := portsOff s
    { s1 with
      pwr := { s1.pwr with mode := .retentionSleep, transition := none, domains := 1 }
      clk := { s1.clk with lock := false, pllEnabled := false }
      host := { s1.host with speed := 0, width := 0, inL1 := false } }

/-- A ward's pending loss is counted (R208, R244). -/
def countLoss (w : WardId) (s : State) : State :=
  let n := (s.ward w).pendingLoss
  let s1 := bump (cWard w 0x50) n (addGap w n s)
  let s2 := { s1 with obs := { s1.obs with
    counters := s1.obs.counters.upd 0 (cWard w 0x58) (· - BitVec.ofNat 64 n) } }
  logEvent 0x0404 w.val 0 n (s2.updWard w (fun x => { x with pendingLoss := 0 }))
/-- Work that was recorded or paused goes on. -/
def Work.resume (k : Work) : Work := if k.pending then { k with pending := false, active := true, paused := false } else k
/-- Entering Service (R336, R244, R245, R272, R329, R185): pending losses are counted, replay and background work go on, cells
come up. -/
def enterService (s : State) : State :=
  let s1 := (s.usedWards.filter (fun w => decide (0 < (s.ward w).pendingLoss))).foldl (fun s w => countLoss w s) s
  let s2 := { s1 with
    pwr := { s1.pwr with mode := .service, transition := none, domains := 0x7F }
    sys := { s1.sys with stallNoWrite := 0, stallNoRelease := 0, wroteThisTick := true, releasedThisTick := true }
    ledger := { s1.ledger with replaying := decide (s1.replayLeft ≠ []) }
    groups := s1.groups.mapAll {} (fun _ g => { g with rebuild := g.rebuild.resume, scrub := g.scrub.resume }) }
  bringUpAll s2

/-- R334 after a vote change or at a transition's end, when none is running (DEDUCED, log 30). -/
def evalMode (s : State) : State :=
  if s.pwr.transition.isSome || s.sec.zeroizePending then s
  else
    let m := selectMode s
    if m = s.pwr.mode then s
    else match s.pwr.mode, m with
    | _, .safeHold => s
    | .service, .retentionSleep => sleepBegin s
    | .management, .retentionSleep => sleepBegin s
    | .service, _ =>
      let s1 := quiesceMedia s
      { s1 with pwr := { s1.pwr with transition := some .leaveService, transBeat := s1.clk.beat } }
    | _, .deepStandby => standbyBegin s
    | .safeHold, .service =>
      { s with pwr := { s.pwr with transition := some .enterService, transBeat := s.clk.beat, domains := 0x7F } }
    | .safeHold, .provisioning =>
      let s1 := mediaOff s
      { s1 with pwr := { s1.pwr with mode := .provisioning } }
    | .safeHold, _ =>
      let s1 := mediaOff s
      { s1 with pwr := { s1.pwr with mode := .management } }
    | .management, .service =>
      { s with pwr := { s.pwr with transition := some .enterService, transBeat := s.clk.beat, domains := 0x7F } }
    | .provisioning, .service =>
      { s with pwr := { s.pwr with transition := some .enterService, transBeat := s.clk.beat, domains := 0x7F } }
    | .provisioning, .management => { s with pwr := { s.pwr with mode := .management } }
    | _, _ => s

/-- Steps 4 to 6 of R87: a zeroization that has been triggered runs to its end; the tests run again where the error state held
at Z. -/
def zeroFinish (test : Option (Fin 10)) (s : State) : State :=
  evalMode (zeroEnd s.sec.error test (zeroWipe (zeroComplete s)))
/-- Zeroization triggered while awake (R87, R89): whole, or its first three steps. -/
def zeroizeNow (whole : Bool) (test : Option (Fin 10)) (s : State) : State :=
  let s1 := zeroBegin s
  let s2 := { s1 with pwr := { s1.pwr with transition := some .zeroize, transBeat := s1.clk.beat } }
  if whole then zeroFinish test s2 else s2
/-- A zeroization latched inside the start-up sequence (R89, R99): the stage in progress stops; from here on the outcomes of
`b` hold. -/
def zeroInStart (b : Boot) (s : State) : State :=
  let s1 := zeroBegin s
  { s1 with sys := { s1.sys with
    boot := some b, zeroInBoot := true, stage := if s1.sys.stage = 1 then 1 else 2 } }

/-! Start-up. -/

/-- The beat of the SEAL record that the last life left (R241, R247). -/
def sealBeat (s : State) : Option DWord :=
  s.ledger.marks.findSome? (fun m => match m.kind with
    | .sealed b _ _ => if m.boot = s.sec.bootCount then some b else none
    | _ => none)
/-- COUNTER_GAP's length (R356): none where the previous stop was orderly or there is none. -/
def counterGap (s : State) : Option Nat :=
  let finalHere := match s.obs.checkpoint with | some c => c.final && c.boot == s.sec.bootCount | none => false
  if s.pwr.lastStop = 4 then some 0xFFFFFFFF
  else if decide (s.sec.bootCount = 0) || finalHere then none
  else match sealBeat s with
  | none => some 0xFFFFFFFF
  | some b =>
    let from_ := match s.obs.checkpoint with
      | some c => if c.boot = s.sec.bootCount then c.beat.toNat else 0
      | none => 0
    some (min 0xFFFFFFFF (b.toNat - from_))

/-! The Ledger scan. -/

/-- Insert a key in ascending order (R233). -/
def insertKey (k : Nat × Nat) : List (Nat × Nat) → List (Nat × Nat)
  | [] => [k]
  | x :: t => if keyLt k x then k :: x :: t else x :: insertKey k t
/-- The keys of the live records of an intent as they stand in MRAM (R233, R235). -/
def Intent.liveKeys (i : Intent) : List (Nat × Nat) :=
  let own := (i.datas.map (fun d => (d.serial, d.live)) ++ i.parities.map (fun p => (p.serial, p.live))).take i.written
  (if i.phase = .intent then [] else [i.serial] ++ (own.filter (·.2)).map (·.1) ++
    (if i.phase = .committed then i.commits.map Prod.fst else [])).map (fun n => (i.boot.toNat, n.toNat))
/-- The keys of every live record, ascending. -/
def State.liveKeys (s : State) : List (Nat × Nat) :=
  (s.ledger.intents.flatMap Intent.liveKeys ++ s.ledger.marks.map (fun m => (m.boot.toNat, m.serial.toNat))).foldr insertKey []
/-- The key of the first record that fails its tag (R99). -/
def scanLimit (b : Boot) (s : State) : Option (Nat × Nat) := b.scanBad.bind (fun n => s.liveKeys[n]?)

/-- OPEN becomes SEALED (R61, R96). -/
def scanWard (x : Ward) : Ward := if x.state = .opened then { x with state := .sealed } else x
/-- `n` records from `seq` on join a ward's pending loss count (R208, R244). -/
def addLoss (w : WardId) (n : Nat) (seq : DWord) (s : State) : State :=
  s.updWard w (fun x => { x with
    pendingLoss := x.pendingLoss + n, lossSeq := if x.pendingLoss = 0 then seq else x.lossSeq })
/-- An APPEND_OPEN entry is applied (R208, R244). -/
def scanEntry (e : (WardId × Nat) × (Word × DWord)) (s : State) : State :=
  (addLoss e.1.1 e.1.2 e.2.2 s).updWard e.1.1 (fun x => { x with shedGap := e.2.1, gapKept := e.2.1 })
/-- The entries of an APPEND_OPEN record are applied. -/
def scanMark (s : State) (m : Mark) : State :=
  match m.kind with
  | .appendOpen l => l.foldl (fun s e => scanEntry e s) s
  | _ => s
/-- The APPEND_OPEN records that `f` picks are applied and released. -/
def scanMarks (f : Mark → Bool) (s : State) : State :=
  let pick := fun (m : Mark) => (match m.kind with | .appendOpen _ => true | _ => false) && f m
  freeMarks pick ((s.ledger.marks.filter pick).foldl scanMark s)
/-- One uncommitted intent (R59, R62, R244): the records of a capture block are counted as lost; a ward reset or destruction
runs to its end (DEDUCED, log 14). -/
def scanOpen (i : Intent) (s : State) : State :=
  match i.ctx, i.effect with
  | .ward w, _ => if i.capture then addLoss w i.records i.firstSeq s else s
  | .admin, .reset w d =>
    applyEffect i (recordCommit .admin i.number 0 (s.updWard w (fun x => { x with fails := if d then x.fails else 0 })))
  | .admin, _ => s
/-- The slots of what an uncommitted intent has written. -/
def Intent.undoSlots (i : Intent) : List Nat :=
  i.undo.filterMap (fun p => match p.1 with | .release n _ => some n | _ => none)
/-- A ward still RESETTING, whose reset left no record, ends it too (R96). -/
def scanResetting (w : WardId) (s : State) : State :=
  if (s.ward w).state = .resetting then resetEnds w (s.updWard w (fun x => { x with fails := 0 })) else s
/-- The Ledger scan (R244): uncommitted intents are applied as R244 says and released; APPEND_OPEN records become pending
loss; committed intents wait for replay; the marks of the stop are released. -/
def scanLedger (s : State) : State :=
  let out := s.ledger.intents.filter (fun i => decide (i.phase ≠ .committed))
  let losses := out.filter (·.capture)
  let s1 := scanMarks (fun _ => true) (losses.foldl (fun s i => scanOpen i s) s)
  let s2 := (out.filter (fun i => !i.capture)).foldl (fun s i => scanOpen i s) s1
  let s3 := s2.usedWards.foldl (fun s w => scanResetting w s) s2
  let s4 := freeMarks (fun m => match m.kind with | .torn _ _ => false | _ => true) (freeNow (out.flatMap Intent.undoSlots) s3)
  { s4 with
    wards := s4.wards.mapAll {} (fun _ x => scanWard x)
    ledger := { s4.ledger with
      intents := (s4.ledger.intents.filter (fun i => decide (i.phase = .committed))).map (fun i =>
        { i with replay := true, job := none }) } }
/-- A scan that cannot finish (R99): no record from the first bad one on is applied; what came before it and is complete by
itself is (DEDUCED, log 45). -/
def scanPart (limit : Option (Nat × Nat)) (s : State) : State :=
  let before := fun (k : Nat × Nat) => match limit with | some x => keyLt k x | none => false
  let s1 := scanMarks (fun m => before (m.boot.toNat, m.serial.toNat)) s
  { s1 with
    wards := s1.wards.mapAll {} (fun _ x => scanWard x)
    ledger := { s1.ledger with
      intents := s1.ledger.intents.map (fun i =>
        if decide (i.phase = .committed) && i.commits.all (fun c => before (i.boot.toNat, c.1.toNat)) then
          { i with replay := true, job := none }
        else { i with job := none }) } }

/-! Keys and the hand-off. -/

/-- The four device keys (R75) (DESIGN CHOICE, log 11). -/
def deriveKeys (salt : BitVec 256) : Keys :=
  let k := fun (label : List Nat) => Config.kdf Config.pufRoot
    (label.map (BitVec.ofNat 8) ++ [0] ++ digestBytes ++ beBytes 32 salt.toNat ++ beBytes 4 256)
  { kek := k [0x4C, 0x57, 0x32, 0x34, 0x20, 0x4B, 0x45, 0x4B]
    ledger := k [0x4C, 0x57, 0x32, 0x34, 0x20, 0x4C, 0x45, 0x44, 0x47, 0x45, 0x52]
    verify := k [0x4C, 0x57, 0x32, 0x34, 0x20, 0x56, 0x45, 0x52, 0x49, 0x46, 0x59]
    slot := k [0x4C, 0x57, 0x32, 0x34, 0x20, 0x53, 0x4C, 0x4F, 0x54] }

/-- SYS.BOOT (R108). -/
def bootWord (s : State) : Word :=
  packWord [(s.sys.stage.toNat, 0), (s.sys.source.toNat, 4), (bit s.sys.zeroizedAtWake, 8), (s.sys.fuseCorrected.toNat, 12)]

/-- The AON queue goes ahead of the event queue (R365). -/
def frontAon (s : State) : State :=
  s.pwr.aonEvents.reverse.foldl (fun s e => insertEvent 0 e s) { s with pwr := { s.pwr with aonEvents := [] } }
/-- Utility pins switch to their stored functions (R393): every one has been GPIO_IN so far, and a pin that stays one reads
its level. Every token bucket starts full (R204). -/
def startPins (s : State) : State :=
  { s with
    pin := { s.pin with
      switching := s.pin.cfg.keys.foldl (fun t n => Tab.set none t n (some { start := s.clk.beat })) []
      gpioIn := s.pin.levels, keeper := s.pin.levels }
    cap := { s.cap with tumbler := s.cap.tumbler.mapAll {} (fun _ e =>
      { e with count := 0, level := tumbBurst e.image, at_ := s.clk.beat }) } }
/-- The sequence ends (R96, R108): BOOT_BEATS. -/
def bootEnds (stage : BitVec 4) (s : State) : State :=
  { s with sys := { s.sys with stage := stage, boot := none, zeroInBoot := false, bootBeats := s.clk.beat.setWidth 32 } }
/-- The hand-off actions (R96, R99, R103, R365, R393): BOOT_BEATS, BOOT_DONE ahead of every other record and the AON
queue behind it, admin fetch open, utility pins switching to their stored functions. A Safe Hold cause met on the way, or a
cache without ways, is acted on now (R214) (DESIGN CHOICE, log 39). -/
def handOff (stage : BitVec 4) (s : State) : State :=
  let s1 := frontAon (bootEnds stage s)
  let s2 := startPins (insertEvent 0 (mkEvent s1 0x0201 0 ((bootWord s1).toNat % 65536) s1.sys.bootBeats.toNat) s1)
  waysCheck (if s2.pwr.holdCause = 0 then s2 else safeHold s2.pwr.holdCause s2)

/-! The stages. -/

/-- The start of the sequence (R96, R346, R347, R356): MGMT is on, the counter stands at 0, the wake record is read, counters
come from the checkpoint, and no utility pin holds its stored function yet (R393). -/
def startUp (src : BitVec 4) (b : Boot) (s : State) : State :=
  { s with
    sys := { stage := 1, source := src, boot := some b }
    clk := {}
    pin := { s.pin with switching := s.pin.cfg.keys.foldl (fun t n => Tab.set none t n (some { start := 0 })) [] }
    obs := { s.obs with counters := (s.obs.checkpoint.map (·.counters)).getD [] }
    pwr := { s.pwr with
      mode := .management, domains := 0x03, coldDue := none, wakes := [], sleepVote := false
      priorInvalid := b.voteBad, priorVotes := if b.voteBad then 0 else s.pwr.priorVotes } }
/-- A new life begins (R74, R232, R247, R356): the boot count rises unless it is full, serials start again, and a gap in the
counters is logged. A wake that finds the count full stops at LEDGER_FAIL (R233). -/
def bootLife (s : State) : State :=
  let full := decide (s.sec.bootCount = 0xFFFFFFFF)
  let s1 := { s with
    sys := { s.sys with boot := s.sys.boot.map (fun b => { b with scanLate := b.scanLate || full }) }
    sec := { s.sec with bootCount := if full then s.sec.bootCount else s.sec.bootCount + 1 }
    ledger := { s.ledger with sealedAtStop := (sealBeat s).isSome, nextSerial := if full then s.ledger.nextSerial else 1 }
    obs := { s.obs with gap := (counterGap s).isSome } }
  match counterGap s with
  | some n => logEvent 0x0109 0 0 n s1
  | none => s1
/-- The end of FUSE (R96, R98, R102): vote slot 0, the boot count, both caches invalidated, the PLL; or FUSE_FAIL, where no
domain beyond HOST is powered and nothing more runs. -/
def fuseDone (b : Boot) (s : State) : State :=
  let s1 := s.setVotes 1
  let s2 := { s1 with
    sys := { s1.sys with fuseCorrected := BitVec.ofNat 4 (min 15 b.fuseFixed) }
    pwr := { s1.pwr with domains := 0x37 }
    sec := { s1.sec with zeroizePending := s1.sec.zeroizePending || s1.pwr.zeroLatched } }
  if b.fuseBad then bootEnds 8 s2
  else
    bootLife { s2 with
      sys := { s2.sys with stage := if s2.sec.zeroizePending then 2 else 3 }
      clk := { s2.clk with pllEnabled := true }
      cache := { s2.cache with ready := true }
      kcc := { s2.kcc with ready := true, busyUntil := s2.clk.beat + 48 } }
/-- The end of the stage ZEROIZE (R87 steps 3 and 5, R89): step 6 follows at once, or, where Z fell within the sequence, after
the tests. -/
def zeroStage (s : State) : State :=
  let s1 := zeroWipe (zeroKeys s)
  let s2 := { s1 with sys := { s1.sys with zeroizedAtWake := true, stage := 3 } }
  if s2.sys.zeroInBoot then s2 else zeroClose s2
/-- Step 6 of R87 where Z fell within the sequence. -/
def zeroAfterTests (s : State) : State := if s.sys.zeroInBoot then zeroClose s else s
/-- The end of SELFTEST (R82, R83, R85, R96, R99): the error state, Provisioning, or the scan. -/
def testsDone (b : Boot) (s : State) : State :=
  match b.test with
  | some t =>
    let s1 := handOff 7 { s with sec := { s.sec with selftest := failPassed t } }
    let s2 := errorState (failCause t) s1
    if s.sys.zeroInBoot then zeroClose s2 else s2
  | none =>
    let s1 := zeroAfterTests { s with sec := { s.sec with
      selftest := allPassed, drbgReady := true, keys := s.sec.salt.map deriveKeys } }
    if s1.sec.provisioned then { s1 with sys := { s1.sys with stage := 4 } }
    else
      let s2 := freeMarks (fun _ => true) (elapseTo b.beats.toNat s1)
      handOff 5 { s2 with pwr := { s2.pwr with mode := if s2.pwr.mode = .management then .provisioning else s2.pwr.mode } }
/-- The end of LEDGER_SCAN (R56, R96, R99, R240, R244): Safe Hold where it fails, Management else. -/
def scanDone (b : Boot) (s : State) : State :=
  let limit := scanLimit b s
  let s1 := if b.scanLate || limit.isSome then scanPart limit s else scanLedger s
  let s2 := b.badWards.foldl (fun s w => faultWard w 1 s) s1
  let s3 := if limit.isSome then mark 0x10000 8 { s2 with ledger := { s2.ledger with tagFail := true } } else s2
  if b.scanLate || limit.isSome || b.adminBad then safeHold 0x04 (handOff 9 s3) else handOff 6 s3
/-- The start-up sequence goes on by one stage (R96). It runs while no command waits (DESIGN CHOICE, log 39). -/
def bootStep (s : State) : State :=
  match s.sys.boot with
  | none => s
  | some b =>
    if !s.awake then s
    else if s.sys.stage = 1 then fuseDone b (elapseTo b.fuseEnd.toNat s)
    else if s.sys.stage = 2 then zeroStage (elapseTo b.zeroEnd.toNat s)
    else if s.sys.stage = 3 then testsDone b (elapseTo b.testEnd.toNat s)
    else if s.sys.stage = 4 then scanDone b (elapseTo b.beats.toNat s)
    else s
/-- What the block does while no command waits: the start-up sequence and a running zeroization go on; else one clock period
passes, 1 beat on the PLL and 5 on the oscillator (R27, R36) (DESIGN CHOICE, log 6 and 39). -/
def idleStep (s : State) : State :=
  if s.sys.boot.isSome then bootStep s
  else if s.pwr.transition = some .zeroize ∧ s.awake then zeroComplete s
  else elapse s.period s

/-! Wakes. -/

/-- A wake event is latched in AON (R344, R346): the wake record is written and the event queued for replay. With the
counter stopped the stamp is its held value and LATE is 1 (DEDUCED, log 30). -/
def latchWake (src : BitVec 4) (s : State) : State :=
  let late := !s.awake
  let e : Event := { code := 0x0206, late, replayed := true, boot := s.sec.bootCount, beat := s.clk.beat,
                     taiValid := s.clk.taiValid, tai := s.taiOr0, arg0 := src.setWidth 16 }
  toAon e { s with pwr := { s.pwr with
    wakes := s.pwr.wakes ++ [⟨src, s.clk.beat, late, s.sec.bootCount⟩]
    wakeCause := src, wakeStamp := s.clk.beat, wakeLate := late, wakeBoot := s.sec.bootCount } }

/-- The events of the AON queue join the event queue behind every BOOT_DONE still queued (R343, R344, R365). -/
def replayAon (s : State) : State :=
  let n := (s.obs.events.filter (fun e => decide (e.code = 0x0201))).length
  s.pwr.aonEvents.reverse.foldl (fun s e => insertEvent n e s) { s with pwr := { s.pwr with aonEvents := [] } }

/-- The wake from Retention Sleep (R343): the cells come up again in Service. -/
def retentionWake (s : State) : State :=
  let svc := decide (s.pwr.votes &&& serviceSlots ≠ 0) && s.sec.provisioned && decide (s.pwr.holdCause = 0)
  let s1 := ppsOutAfter s.tai { s with
    clk := { s.clk with
      pllEnabled := true, lock := s.clk.src, srcActive := s.clk.src, taiValid := false }
    pwr := { s.pwr with sleepVote := false, mode := .management, transition := none, wakes := [], domains := 0x37 } }
  let s2 := cellsOff (replayAon s1)
  if svc then enterService s2 else evalMode s2

/-- The wake that is due, if PF_N lets it begin (R340, R343, R344): a start-up from Deep Standby, a restore from Retention
Sleep; a ZERO_N wake from sleep goes on into zeroization, and a PERST_N assertion applies R94
(DESIGN CHOICE, log 39). -/
def wakeNow (b : Boot) (test : Option (Fin 10)) (s : State) : State :=
  if !s.pwr.powered || s.pwr.pfLow then s
  else match s.pwr.mode with
  | .deepStandby =>
    match s.pwr.coldDue, s.pwr.wakes with
    | some src, _ => startUp src b s
    | none, w :: _ => startUp w.source b s
    | none, [] => s
  | .retentionSleep =>
    if s.pwr.wakes = [] then s
    else
      let perst := s.pwr.wakes.any (fun w => w.source == 2) && s.pwr.perstLow
      let zero := s.pwr.zeroLatched
      let s1 := retentionWake s
      let s2 := if perst then hostLinkReset s1 else s1
      if zero then zeroizeNow true test s2 else s2
  | _ => s

end Sys2Proof.Machine
end

