-- ==== Sys2Proof/Machine/Power.lean ====
section
/-! DEFINITION. Supplies, pins and votes: POWER_ON to LP_OVERLOAD, COLD_RESTART, the vote registers, the sleep vote,
TRANSITION_END, HOLD_RELEASE, POWER_REMOVAL and PARK_TIMEOUT. -/

namespace Sys2Proof.Machine

/-- POWER_ON (R380): the AON banks are fresh and the power-on wake is latched; it is held until PF_N is deasserted
(DESIGN CHOICE, log 2). -/
def execPowerOn (b : Boot) (s : State) : Host.Outcome State Fault Refusal :=
  .next (if s.pwr.powered then s
    else
      let s1 := s.setVotes 0
      wakeNow b none { s1 with pwr := { s1.pwr with powered := true, mode := .deepStandby, coldDue := some 0 } })

/-- The operating range of a supply and its absolute maximum, in mV (R377, R378) (DEDUCED, log 9). -/
def supplyRange (r : Fin 4) : Nat × Nat × Nat :=
  ([(720, 780, 900), (873, 927, 1050), (1746, 1854, 2100), (1710, 1890, 2100)] : List (Nat × Nat × Nat)).getD r.val (0, 0, 0)

/-- SUPPLY_LOSS (R382): a supply leaves its range with PF_N deasserted, and no seal is written. Past the absolute
maximum no statement of the manual binds (R377) (DEDUCED, log 9). -/
def execSupplyLoss (rail : Fin 4) (mv : Nat) (s : State) : Host.Outcome State Fault Refusal :=
  let r := supplyRange rail
  if r.2.2 < mv then .fault .ratingExceeded
  else .next (if s.pwr.powered ∧ !s.pwr.pfLow ∧ !(within r.1 r.2.1 mv) then powerLost s else s)

/-- PF_N_ASSERT (R241, R243): the seal, wherever something can be in flight; `ends` lists the cells whose sector ends within
the 5 µs of its step 1. -/
def execPfNAssert (ends : List CellId) (s : State) : Host.Outcome State Fault Refusal :=
  .next (if s.pwr.pfLow then s
    else
      let s1 := { s with pwr := { s.pwr with pfLow := true } }
      if s.pwr.powered ∧ s.pwr.mode ≠ .deepStandby then powerSeal 2 4 ends s1 else s1)

/-- PF_N_DEASSERT (R340, R388): a wake that is held begins. -/
def execPfNDeassert (b : Boot) (s : State) : Host.Outcome State Fault Refusal :=
  .next (if s.pwr.pfLow then wakeNow b none { s with pwr := { s.pwr with pfLow := false } } else s)

/-- An entry to Deep Standby or Retention Sleep is running (R344). -/
def entering (s : State) : Bool :=
  decide (s.pwr.transition = some .enterStandby) || decide (s.pwr.transition = some .enterSleep)
/-- The device is in Deep Standby or Retention Sleep. -/
def asleep (s : State) : Bool :=
  s.pwr.powered && (decide (s.pwr.mode = .deepStandby) || decide (s.pwr.mode = .retentionSleep))

/-- WAKE_N (R95, R343, R344). -/
def execWakeN (b : Boot) (s : State) : Host.Outcome State Fault Refusal :=
  .next (if asleep s then wakeNow b none (latchWake 1 s)
    else if s.pwr.powered ∧ entering s then latchWake 1 s else s)

/-- PERST_N (R94, R95): an assertion while awake is a host-link reset; from Deep Standby the rising edge wakes, from
Retention Sleep either edge. -/
def execPerstN (low : Bool) (b : Boot) (s : State) : Host.Outcome State Fault Refusal :=
  .next (if s.pwr.perstLow = low then s
    else
      let s1 := { s with pwr := { s.pwr with perstLow := low } }
      if asleep s then
        if s.pwr.mode = .retentionSleep ∨ !low then wakeNow b none (latchWake 2 s1) else s1
      else
        let s2 := if entering s ∧ (s.pwr.transition = some .enterSleep ∨ !low) then latchWake 2 s1 else s1
        if low ∧ s.awake then hostLinkReset s2 else s2)

/-- ZERO_N (R86, R87, R89): latched in every mode; zeroization while awake, also inside the start-up sequence, and a wake
first otherwise (DESIGN CHOICE, log 38). -/
def execZeroN (whole : Bool) (test : Option (Fin 10)) (b : Boot) (s : State) : Host.Outcome State Fault Refusal :=
  .next (if !s.pwr.powered then s
    else if asleep s then wakeNow b test (latchWake 3 { s with pwr := { s.pwr with zeroLatched := true } })
    else if entering s then latchWake 3 { s with pwr := { s.pwr with zeroLatched := true } }
    else if s.sec.zeroizePending then s
    else if s.sys.boot.isSome then zeroInStart b s
    else if s.sys.stage = 8 then { s with pwr := { s.pwr with zeroLatched := true } }
    else zeroizeNow whole test s)

/-- LP_OVERLOAD (R348): AON cuts everything without a seal and restarts. -/
def execLpOverload (b : Boot) (s : State) : Host.Outcome State Fault Refusal :=
  .next (if asleep s then
      let e : Event := { code := 0x0906, late := true, replayed := true, boot := s.sec.bootCount, beat := s.clk.beat }
      let s1 := (coldStore (toAon e s)).setVotes 0
      wakeNow b none { s1 with pwr := { s1.pwr with
        lpOverload := true, lastStop := 4, priorVotes := s.pwr.votes, sleepVote := false, coldDue := some 5 } }
    else s)

/-- A write of SYS.RESTART (R103, R107): accepted with a session or at a failure stage, the seal runs; else refused and
logged (DESIGN CHOICE, log 28). -/
def restartWrite (key : BitVec 16) (ends : List CellId) (s : State) : State :=
  if !s.handedOff && s.sys.stage != 8 then s
  else if key = 0x5A17 ∧ (s.sec.session ∨ (7 ≤ s.sys.stage.toNat ∧ s.sys.stage.toNat ≤ 9)) then powerSeal 3 6 ends s
  else logEvent 0x0205 0 0 0 s
/-- COLD_RESTART (R107): after the seal the device wakes at once (DESIGN CHOICE, log 28; DEDUCED, log 29). -/
def execColdRestart (key : BitVec 16) (ends : List CellId) (b : Boot) (s : State) : Host.Outcome State Fault Refusal :=
  .next (if s.hostOpen then wakeNow b none (restartWrite key ends s) else s)

/-! Votes. -/

/-- The copies of the vote table disagree (R347): slot 0 only, no sleep vote, Safe Hold. -/
def voteCorrupt (s : State) : State :=
  let s1 := s.setVotes 1
  safeHold 0x10 (logEvent 0x0905 0 0 0 { s1 with pwr := { s1.pwr with sleepVote := false } })
/-- AON finds the table and its complement in disagreement (R347). -/
def votesBad (s : State) : Bool := decide (s.pwr.votesInv ≠ ~~~s.pwr.votes)

/-- Why a service slot is refused (R335): the first row that applies. -/
def serviceRefusal (s : State) : Option Nat :=
  if !s.clk.srcActive then some 1 else if !s.sec.provisioned then some 2 else none

/-- The requested service slots that are refused now (R335). -/
def refusedSlots (req : BitVec 24) (s : State) : BitVec 24 := if (serviceRefusal s).isSome then req &&& serviceSlots else 0
/-- Record the votes `got`, and the refusal of `bad` where it is not empty (R335). -/
def recordVotes (got bad : BitVec 24) (s : State) : State :=
  let s1 := s.setVotes (s.pwr.votes ||| got)
  match serviceRefusal s with
  | some c => if bad = 0 then s1 else refuseVote (((List.range 24).find? (fun k => bad.getLsbD k)).getD 0) c s1
  | none => s1
/-- Cells whose slots are granted come up (R282, R333). -/
def openSlots (got : BitVec 24) (s : State) : State :=
  allCells.foldl (fun s c => if got.getLsbD (8 + c.val) then bringUp c s else s) s
/-- Cells whose slots are withdrawn close (R333). -/
def closeSlots (gone : BitVec 24) (s : State) : State :=
  allCells.foldl (fun s c => if gone.getLsbD (8 + c.val) then closePort c s else s) s
/-- VOTE_SET (R334, R335): slot 7 does not exist (DEDUCED, log 30). -/
def voteSet (v : Word) (s : State) : State :=
  if !s.regOpen then s
  else if votesBad s then voteCorrupt s
  else
    let req := v.setWidth 24 &&& 0xFFFF7F &&& ~~~s.pwr.votes
    let bad := refusedSlots req s
    let got := req &&& ~~~bad
    evalMode (openSlots got (recordVotes got bad s))
/-- VOTE_SET. -/
def execVoteSet (v : Word) (s : State) : Host.Outcome State Fault Refusal := .next (voteSet v s)

/-- Withdraw votes (R334); the table that held the last one is kept as the prior votes (R346) (DEDUCED, log 30). -/
def withdrawVotes (gone : BitVec 24) (s : State) : State :=
  let s1 := s.setVotes (s.pwr.votes &&& ~~~gone)
  if s1.pwr.votes = 0 then { s1 with pwr := { s1.pwr with priorVotes := s.pwr.votes } } else s1
/-- VOTE_CLR (R334, R333, R339). -/
def voteClr (v : Word) (s : State) : State :=
  if !s.regOpen then s
  else if votesBad s then voteCorrupt s
  else
    let gone := v.setWidth 24 &&& s.pwr.votes
    evalMode (closeSlots gone (withdrawVotes gone s))
/-- VOTE_CLR. -/
def execVoteClr (v : Word) (s : State) : Host.Outcome State Fault Refusal := .next (voteClr v s)

/-- SLEEP_VOTE (R335, R341). -/
def sleepVote (s : State) : State :=
  if !s.regOpen then s
  else if s.inHold then refuseVote 24 3 s
  else if s.pwr.mode = .provisioning then refuseVote 24 4 s
  else evalMode { s with pwr := { s.pwr with sleepVote := true, slept := some s.clk.beat } }
/-- SLEEP_VOTE. -/
def execSleepVote (s : State) : Host.Outcome State Fault Refusal := .next (sleepVote s)

/-- The power-on test that fails, if one does. -/
def firstTest (b : Boot) : Option (Fin 10) := match b.test with | some (.test t) => some t | _ => none
/-- TRANSITION_END (R334): the running transition ends; recorded votes and latched wakes are evaluated. With none
running, a cold restart whose seal a REGISTER_WRITE has run comes up (R107)
(DESIGN CHOICE, log 28; DEDUCED, log 30). -/
def transitionEnd (b : Boot) (s : State) : State :=
  match s.pwr.transition with
  | none => wakeNow b (firstTest b) s
  | some .enterService => evalMode (enterService s)
  | some .leaveService =>
    if s.mediaOn then s
    else evalMode { s with pwr := { s.pwr with
      mode := if s.sec.provisioned then .management else .provisioning, transition := none } }
  | some .enterStandby => wakeNow b (firstTest b) (standbyEnd s)
  | some .enterSleep => wakeNow b (firstTest b) (sleepEnd s)
  | some .zeroize => zeroFinish (firstTest b) s
/-- TRANSITION_END. -/
def execTransitionEnd (b : Boot) (s : State) : Host.Outcome State Fault Refusal := .next (transitionEnd b s)

/-- Every set Safe Hold cause is released (R349). -/
def causesReleased (s : State) : Bool :=
  let c := s.pwr.holdCause
  !c.getLsbD 0 && !c.getLsbD 2 && (!c.getLsbD 1 || s.clk.srcActive) &&
  (!c.getLsbD 3 || (s.obs.sampled && decide (s.obs.temp.toInt ≤ 840))) && (!c.getLsbD 6 || decide (s.cache.retired ≠ 0xFFFF))

/-- A write of PWR.HOLD_RELEASE (R351). -/
def holdRelease (key : BitVec 16) (s : State) : State :=
  if !s.regOpen then s
  else if key = 0x5AFE ∧ s.inHold ∧ s.sec.session ∧ causesReleased s then
    evalMode (logEvent 0x0902 0 0 0 { s with pwr := { s.pwr with
      holdCause := 0, released := some (s.clk.beat, s.pwr.holdCause) } })
  else logEvent 0x0903 0 0 0 s
/-- HOLD_RELEASE. -/
def execHoldRelease (key : BitVec 16) (s : State) : Host.Outcome State Fault Refusal := .next (holdRelease key s)

/-- POWER_REMOVAL (R381, R380): with PF_N held, VDDIO falls through the detector's trip point and AON's switch opens. -/
def execPowerRemoval (s : State) : Host.Outcome State Fault Refusal :=
  .next (if s.pwr.powered ∧ s.pwr.pfLow then powerLost s else s)

/-- PARK_TIMEOUT (R333, R337 step 4, R341): the device goes on without waiting further for PARKED. -/
def parkTimeout (c : Option CellId) (s : State) : State :=
  match c with
  | none =>
    let s1 := elapseTo (s.pwr.transBeat.toNat + 20000000) s
    if s.pwr.transition = some .leaveService ∧ s.mediaOn then mediaOff s1
    else if s.pwr.transition = some .enterSleep then s1
    else s
  | some c =>
    match (s.cell c).closing with
    | some t => if s.awake then bringUp c (cellOff c (elapseTo (t.toNat + 25000000) s)) else s
    | none => s
/-- PARK_TIMEOUT. -/
def execParkTimeout (c : Option CellId) (s : State) : Host.Outcome State Fault Refusal := .next (parkTimeout c s)

end Sys2Proof.Machine
end

