-- ==== Sys2Proof/Machine/Link.lean ====
section
/-! DEFINITION. The host link: resets, training, FLR, D3hot, ASPM L1, configuration space and MSI-X (R94, R109–R130). -/

namespace Sys2Proof.Machine

/-- HOST_LINK_RESET (R94); in FUSE_FAIL only the endpoint is there to reset. -/
def execHostLinkReset (r : LinkReset) (s : State) : Host.Outcome State Fault Refusal :=
  .next (if !s.awake then s
    else
      let s1 := if r = .perst then { s with pwr := { s.pwr with perstLow := true } } else s
      hostLinkReset s1)

/-- The width that trains (R110): the widest of x1, x4 and x8 that the partner also offers. -/
def trainedWidth (offer : Nat) : Nat := if 8 ≤ offer then 8 else if 4 ≤ offer then 4 else 1

/-- `n` members of a list in a free order, from free choice `i` on. -/
def freeOrder : Nat → Nat → List Nat → List Nat
  | 0, _, _ => []
  | n + 1, i, l =>
    match l[Config.freePick i % l.length]? with
    | some v => v :: freeOrder n (i + 1) (l.erase v)
    | none => []
/-- Do `f` for every vector of a list in one beat. No rule orders the messages of one beat: the order is free (log 4). -/
def eachVector (f : Nat → State → State) (l : List Nat) (s : State) : State :=
  (freeOrder l.length s.fresh l).foldl (fun s v => f v s) { s with fresh := s.fresh + (l.length - 1) }
/-- Write what was held, in its original order, and then its messages (R127). -/
def releaseHeld (s : State) : State :=
  if s.dmaOpen then
    let vs := (s.host.held.filterMap (fun h => match h with
      | .entry e => some (vectorOf e.ctx s)
      | .data _ _ => none)).eraseDups
    eachVector fireVector vs (s.host.held.foldl (fun s h => putOut h s) { s with host := { s.host with held := [] } })
  else s

/-- The link is up and configuration requests reach the function (R96, R103). -/
def State.cfgOpen (s : State) : Bool := s.linkOpen && decide (s.host.speed ≠ 0)

/-- LINK_TRAINED (R109, R110, R409): L0 at a supported speed and width, while PERST_N is deasserted. -/
def execLinkTrained (speed width : Nat) (s : State) : Host.Outcome State Fault Refusal :=
  .next (if s.linkOpen ∧ !s.pwr.perstLow ∧ within 1 4 speed ∧ 1 ≤ width then
      releaseHeld { s with host := { s.host with
        speed := BitVec.ofNat 4 speed, width := BitVec.ofNat 4 (trainedWidth width), inL1 := false } }
    else s)

/-- FLR (R125 steps 1–3, R126): while one runs, the write that would initiate a second is answered with Retry Status; before
hand-off only configuration space and the MSI-X table reset. -/
def flrBegin (s : State) : State :=
  if !s.cfgOpen then s
  else if s.host.flr.isSome then answer .retry s
  else if !s.handedOff then configReset s
  else
    let s1 := linkStop s
    { s1 with host := { s1.host with flr := some s1.clk.beat, capPaused := true } }
/-- FLR. -/
def execFlr (s : State) : Host.Outcome State Fault Refusal := .next (flrBegin s)

/-- FLR_CAPTURE_RESUME (R125 step 4). -/
def execFlrCaptureResume (s : State) : Host.Outcome State Fault Refusal :=
  .next (if s.host.flr.isSome then { s with host := { s.host with capPaused := false } } else s)

/-- FLR_DONE joins directly behind every BOOT_DONE and FLR_DONE still queued (R365). -/
def behindDone : List Event → Nat
  | [] => 0
  | e :: t =>
    let k := behindDone t
    if e.code = 0x0201 ∨ e.code = 0x0301 ∨ k ≠ 0 then k + 1 else 0
/-- Steps 5 and 6 of R125. -/
def flrEnd (s : State) : State :=
  if s.host.flr.isSome then
    let s1 := hostRegsReset { s with host := { s.host with flr := none, capPaused := false } }
    insertEvent (behindDone s1.obs.events) (mkEvent s1 0x0301 0 0 0) s1
  else s
/-- FLR_DONE. -/
def execFlrDone (s : State) : Host.Outcome State Fault Refusal := .next (flrEnd s)

/-- The function enters D3hot (R127). -/
def d3hotEntry (s : State) : State := endTurn { s with host := { s.host with d3hot := true } }
/-- The function returns to D0 (R127): it accepts BAR accesses 50 µs later. -/
def d0Return (s : State) : State :=
  if s.host.d3hot then
    releaseHeld { s with host := { s.host with d3hot := false, barFrom := s.clk.beat + 50000 } }
  else s
/-- A configuration write, which a running FLR answers with Retry Status (R125). -/
def cfgWrite (f : State → State) (s : State) : State :=
  if !s.cfgOpen then s else if s.host.flr.isSome then answer .retry s else f s
/-- D3HOT_ENTRY (R127). -/
def execD3hotEntry (s : State) : Host.Outcome State Fault Refusal := .next (cfgWrite d3hotEntry s)
/-- D0_RETURN (R127). -/
def execD0Return (s : State) : Host.Outcome State Fault Refusal := .next (cfgWrite d0Return s)

/-- The link goes into L1 (R129): at the partner's initiative; or, with ASPM L1 enabled in Link Control, after L1_IDLE µs with
nothing to send and no request outstanding. -/
def l1Entry (partner : Bool) (s : State) : State :=
  let idle := bits 0 8 (s.reg 0x04004)
  if !s.cfgOpen || s.host.inL1 then s
  else if partner then { s with host := { s.host with inL1 := true } }
  else if s.host.linkCtl.getLsbD 1 ∧ idle ≠ 0 ∧ s.readsOut = 0 ∧ s.host.held = [] then
    let s1 := wait (1000 * idle) s
    { s1 with host := { s1.host with inL1 := true } }
  else s
/-- L1_ENTRY: `partner` says who initiates it. -/
def execL1Entry (partner : Bool) (s : State) : Host.Outcome State Fault Refusal := .next (l1Entry partner s)
/-- L1_EXIT (R129). -/
def execL1Exit (s : State) : Host.Outcome State Fault Refusal :=
  .next (if s.awake then { s with host := { s.host with inL1 := false } } else s)

/-- The vectors with a pending completion or a set PBA bit, in ascending order. -/
def liveVectors (s : State) : List Nat :=
  (List.range 256).filter (fun v => s.host.pba.getLsbD v || s.host.pend.any (fun p => p.vector == v))

/-- MSI-X Enable becomes 1 (R117): every vector whose condition holds sends (PRESUMED, log 5). -/
def msixEnable (s : State) : State :=
  let s1 := { s with host := { s.host with msixEnable := true } }
  eachVector fireVector (liveVectors s1) s1
/-- MSIX_ENABLE. -/
def execMsixEnable (s : State) : Host.Outcome State Fault Refusal := .next (cfgWrite msixEnable s)

/-- A vector whose PBA bit is set and which is no longer masked sends and clears the bit (R120). -/
def afterUnmask (v : Nat) (s : State) : State :=
  if s.host.msixEnable && s.host.pba.getLsbD v && !(masked v s) && s.dmaOpen then sendMsix v s else s
/-- The function mask becomes 0 (R120). -/
def funcUnmask (s : State) : State :=
  let s1 := { s with host := { s.host with msixMask := false } }
  eachVector afterUnmask (liveVectors s1) s1
/-- MSIX_UNMASK (R120): a vector's control word, a BAR0 write, or the function mask. -/
def msixUnmask (v : Option (Fin 256)) (s : State) : State :=
  match v with
  | some v => if s.regOpen then afterUnmask v.val (s.setReg (0x06000 + 16 * v.val + 12) 0) else s
  | none => cfgWrite funcUnmask s
/-- MSIX_UNMASK. -/
def execMsixUnmask (v : Option (Fin 256)) (s : State) : Host.Outcome State Fault Refusal := .next (msixUnmask v s)

/-- The beat at which some pending completion of a vector reaches its TIME (R118). -/
def coalesceDue (v : Nat) (s : State) : Option Nat :=
  ((s.host.pend.filter (fun p => p.vector == v)).map (fun p => p.beat.toNat + 1000 * p.time.toNat)).min?
/-- COALESCE_TIME (R118). -/
def execCoalesceTime (v : Fin 256) (s : State) : Host.Outcome State Fault Refusal :=
  .next (match coalesceDue v.val s with
    | some t => if s.awake then fireVector v.val (elapseTo t s) else s
    | none => s)

/-- TLP_DISCARD (R122): the request has no side effect; the error is reported through AER, a failed LCRC as a correctable one
that the link layer retries (PRESUMED, log 5). -/
def tlpDiscard (e : TlpError) (s : State) : State :=
  if !s.cfgOpen then s
  else match e with
  | .lcrc => { s with host := { s.host with aerCorr := s.host.aerCorr ||| 0x40 } }
  | .ecrc => aer 19 s
  | .poisoned => aer 12 s
  | .malformed => aer 18 s
/-- TLP_DISCARD. -/
def execTlpDiscard (e : TlpError) (s : State) : Host.Outcome State Fault Refusal := .next (tlpDiscard e s)

/-! Configuration space (R109, R111, R112). -/

/-- Vendor and Device ID, and their subsystem twins (R111). -/
def idWord : Word := 0x00241F6B
/-- The bits of BAR register `i` that hold an address, by the sizes of R112, and its type bits: 64-bit memory, BAR4
prefetchable (R112) (PRESUMED, log 5). -/
def barBits (i : Fin 6) : Word × Word :=
  if i.val = 0 then (0xFFFC0000, 0x4)
  else if i.val = 2 then (0xFFFE0000, 0x4)
  else if i.val = 4 then (0xFFC00000, 0xC)
  else (0xFFFFFFFF, 0)
/-- What a configuration register reads (R109, R111, R112); where the manual leaves a layout to PCI Express it is that
specification's (PRESUMED, log 5). -/
def cfgImage (r : CfgReg) (s : State) : Word :=
  let h := s.host
  match r with
  | .ids => idWord
  | .command => packWord [(bit h.mse, 1), (bit h.bme, 2), (1, 20)]
  | .classRev => packWord [(bits 0 8 revWord, 0), (0x018000, 8)]
  | .bar i => h.bars.get 0 i.val ||| (barBits i).2
  | .subsystem => idWord
  | .interrupt => 0
  | .serial hi => BitVec.ofNat 32 (ofLe (slice (if hi then 4 else 0) 4 digestBytes))
  | .devCap => 0x10008002
  | .devCtl => h.devCtl.setWidth 32
  | .devCtl2 => h.devCtl2.setWidth 32
  | .linkCtl => h.linkCtl.setWidth 32
  | .msixCtl => packWord [(0xFF, 16), (bit h.msixMask, 30), (bit h.msixEnable, 31)]
  | .pmCsr => packWord [(if h.d3hot then 3 else 0, 0), (1, 3)]
  | .aerUncorr => h.aerUncorr
  | .aerCorr => h.aerCorr
  | .aerCtl => h.aerCtl ||| 0xA0
/-- A write of MSI-X Message Control (R117, R120). -/
def msixCtlWrite (v : Word) (s : State) : State :=
  let s1 := { s with host := { s.host with
    msixMask := s.host.msixMask || v.getLsbD 30, msixEnable := s.host.msixEnable && v.getLsbD 31 } }
  let s2 := if v.getLsbD 31 && !s.host.msixEnable then msixEnable s1 else s1
  if !(v.getLsbD 30) && s.host.msixMask then funcUnmask s2 else s2
/-- A write of a configuration register (R109, R112, R117, R120–R122, R125, R127, R129). -/
def cfgSet (r : CfgReg) (v : Word) (s : State) : State :=
  match r with
  | .command => releaseHeld { s with host := { s.host with mse := v.getLsbD 1, bme := v.getLsbD 2 } }
  | .bar i => { s with host := { s.host with bars := s.host.bars.set 0 i.val (v &&& (barBits i).1) } }
  | .devCtl =>
    let s1 := { s with host := { s.host with devCtl := v.setWidth 16 &&& 0x7FFF } }
    if v.getLsbD 15 then flrBegin s1 else s1
  | .devCtl2 => { s with host := { s.host with devCtl2 := v.setWidth 16 } }
  | .linkCtl => { s with host := { s.host with linkCtl := v.setWidth 16 } }
  | .msixCtl => msixCtlWrite v s
  | .pmCsr =>
    if bits 0 2 v = 3 then d3hotEntry s else if bits 0 2 v = 0 then d0Return s else s
  | .aerUncorr => { s with host := { s.host with aerUncorr := s.host.aerUncorr &&& ~~~v } }
  | .aerCorr => { s with host := { s.host with aerCorr := s.host.aerCorr &&& ~~~v } }
  | .aerCtl => { s with host := { s.host with aerCtl := v &&& 0x140 } }
  | .ids => s
  | .classRev => s
  | .subsystem => s
  | .interrupt => s
  | .serial _ => s
  | .devCap => s
/-- BUS_MASTER_ENABLE (R111, R112, R122, R125, R127): a configuration request. The write of the Command register sets Memory
Space Enable and Bus Master Enable; every register of configuration space is read and written through this row
(DESIGN CHOICE, log 1). -/
def execBusMasterEnable (q : CfgReq) (s : State) : Host.Outcome State Fault Refusal :=
  .next (cfgWrite (fun s => if q.write then cfgSet q.reg q.value s else answer (.bytes (wordBytes (cfgImage q.reg s))) s) s)

end Sys2Proof.Machine
end

