-- ==== Sys2Proof/Machine/Flags.lean ====
section
/-! DEFINITION. Register images: what a read of each BAR0 register returns (R46, R64, R92, R108, R131, R161, R210, R229,
R247, R274, R300, R319, R330, R354, R371, R401, R403, R407, R408), computed from the state field by field, and the
latches four of the reads set (R37, R46, R64, R247). -/

namespace Sys2Proof.Machine

/-- A 64-bit value's low word. -/
def lo32 (v : DWord) : Word := v.setWidth 32
/-- A 64-bit value's high word. -/
def hi32 (v : DWord) : Word := (v >>> 32).setWidth 32
/-- A 16-bit field's unsigned value of a signed number. -/
def s16 (v : Int) : Nat := (BitVec.ofInt 16 v).toNat

/-- SYS at offset `o` (R108, R330, R407, R408). -/
def sysImage (o : Nat) (s : State) : Word :=
  if o = 0x00 then lotLo
  else if o = 0x04 then lotHi
  else if o = 0x08 then dieWord
  else if o = 0x0C then revWord
  else if o = 0x10 then bootWord s
  else if o = 0x18 then s.sys.bootBeats
  else if o = 0x1C then packWord [(bits 0 16 (s.reg 0x0001C), 0), (bit s.sys.stalled, 16)]
  else if o = 0x20 then packWord [(bit s.sys.irqTick, 0)]
  else if o = 0x24 then packWord [(s.sys.rejAddr.toNat, 0), (s.sys.rejMore.toNat, 24), (bit s.sys.rejValid, 31)]
  else if o = 0x28 then s.sys.rejValue
  else 0

/-- MODE as PWR.MODE shows it (R354). -/
def modeCode : Mode → Nat
  | .deepStandby => 0
  | .retentionSleep => 1
  | .provisioning => 2
  | .management => 3
  | .service => 4
  | .safeHold => 5

/-- PWR at offset `o` (R332, R354). -/
def pwrImage (o : Nat) (s : State) : Word :=
  let p := s.pwr
  if o = 0x00 ∨ o = 0x04 then p.votes.setWidth 32
  else if o = 0x08 then packWord [(bit p.sleepVote, 0)]
  else if o = 0x0C then packWord [(modeCode p.mode, 0), (bit p.transition.isSome, 3), (p.domains.toNat, 4)]
  else if o = 0x10 then
    packWord [(bit p.voteRefused, 0), (p.refuseCause.toNat, 1), (p.refusedSlot.toNat, 4), (bit p.lpOverload, 9),
      (bit p.priorInvalid, 10), (p.aonLost.toNat, 12)]
  else if o = 0x14 then p.holdCause.setWidth 32
  else if o = 0x1C then packWord [(p.priorVotes.toNat, 0), (p.lastStop.toNat, 24)]
  else if o = 0x20 then s.reg 0x01020
  else if o = 0x24 then p.scratch.get 0 (bits 0 11 (s.reg 0x01020))
  else if o = 0x44 ∨ o = 0x48 ∨ o = 0x50 ∨ o = 0x54 then 0x00FFFF7F
  else if o = 0x4C ∨ o = 0x58 then 0x00FFFF7C
  else 0

/-- CLK at offset `o` (R46). -/
def clkImage (o : Nat) (s : State) : Word :=
  let c := s.clk
  if o = 0x00 then packWord [(bit c.src, 0), (bits 1 1 (s.reg 0x02000), 1)]
  else if o = 0x04 then
    packWord [(bit c.lock, 0), (bit c.srcActive, 1), (bit c.taiValid, 2), (bit c.holdover, 3), (bit c.ppsFar, 4),
      (bit c.switchRefused, 8), (bit c.taiRefused, 9), (bit c.pllLoss, 10)]
  else if o = 0x08 then lo32 c.beat
  else if o = 0x0C then c.beatLatch
  else if o = 0x10 then lo32 s.tai
  else if o = 0x14 then c.taiLatch
  else if o = 0x20 then packWord [(bit c.setAtPps.isSome, 1)]
  else if o = 0x2C then lo32 c.ppsEdge
  else if o = 0x30 then hi32 c.ppsEdge
  else if o = 0x34 then c.ppsError
  else s.reg (0x02000 + o)

/-- SEC at offset `o` (R92). -/
def secImage (o : Nat) (s : State) : Word :=
  let c := s.sec
  if o = 0x00 then
    packWord [(bit c.provisioned, 0), (bit c.session, 1), (bit c.error, 2), (bit c.zeroizePending, 3),
      (bit c.jtagLocked, 4), (bit c.officerLocked, 5), (c.errorCause.toNat, 8)]
  else if o = 0x04 then c.selftest
  else if o = 0x08 then c.officerFails.setWidth 32
  else if o = 0x10 then c.zeroCount
  else s.reg (0x03000 + o)

/-- The ward that RING.WARD_SEL selects (R64). -/
def State.wardSel (s : State) : WardId := wardOf (bits 0 12 (s.reg 0x08400))

/-- HOST at offset `o`: its registers (R131), the MSI-X table and the Pending Bit Array (R403). -/
def hostImage (o : Nat) (s : State) : Word :=
  let h := s.host
  let w := s.ward s.wardSel
  if o = 0x00 then packWord [(h.speed.toNat, 0), (h.width.toNat, 4), (bit h.inL1, 8), (bit h.d3hot, 9)]
  else if o = 0x0C then w.vector.setWidth 32
  else if o = 0x10 then packWord [(w.coalCount.toNat, 0), (w.coalTime.toNat, 8)]
  else if o = 0x14 then
    packWord [(bit h.bar0Partial, 0), (bit h.bar2Stray, 1), (bit h.bar4Write, 2), (bit h.adminHalt, 3),
      (bit h.dmaAbort, 4), (bit h.bar4Span, 5)]
  else if 0x3000 ≤ o ∧ o < 0x3020 then (h.pba >>> (8 * (o - 0x3000))).setWidth 32
  else s.reg (0x04000 + o)

/-- STATE as RING.WARD_STATUS shows it (R49). -/
def stateCode : WardState → Nat
  | .unprovisioned => 0
  | .sealed => 1
  | .opened => 2
  | .faulted => 3
  | .resetting => 4
  | .destroyed => 5

/-- Admin fetch is active (R161, R162): ENABLE is 1 and fetch is neither halted nor waiting; once ENABLE is cleared, until
the fetched entries have completed. -/
def State.running (s : State) : Bool :=
  (s.ring.enable && s.ring.fetching) || (s.ring.stopping && s.ring.jobs.any ctxAdmin)

/-- RING at offset `o` (R64, R161). -/
def ringImage (o : Nat) (s : State) : Word :=
  let a := s.ring.admin
  let x := s.ward s.wardSel
  let r := x.ring
  if o = 0x14 then packWord [(bit s.ring.enable, 0)]
  else if o = 0x18 then packWord [(bit a.rangeBit, 0), (bit a.aheadBit, 1), (bit s.running, 2)]
  else if o = 0x1C then packWord [(a.sqHead, 0), (a.sqTail, 16)]
  else if o = 0x20 then packWord [(a.cqTail, 0), (a.cqHead, 16)]
  else if o = 0x404 then
    packWord [(stateCode x.state, 0), (bit x.enrol, 3), (x.lastFault.toNat, 4), (x.fails, 8), (bit x.appendFull, 12)]
  else if o = 0x408 then x.epoch
  else if o = 0x40C then x.high.setWidth 32
  else if o = 0x410 then s.ring.highLatch.setWidth 32
  else if o = 0x414 then BitVec.ofNat 32 x.block.units
  else if o = 0x418 then BitVec.ofNat 32 x.append.units
  else if o = 0x41C then x.malformedLimit.setWidth 32
  else if o = 0x420 then packWord [(r.sqHead, 0), (r.sqTail, 16)]
  else if o = 0x424 then packWord [(r.cqTail, 0), (r.cqHead, 16)]
  else if o = 0x428 then
    packWord [(r.sqLog, 0), (r.cqLog, 8), (bit x.configured, 16), (bit r.phase, 17)]
  else if o = 0x42C then packWord [(x.weight.toNat, 0), (x.burst, 8), (x.credit, 16)]
  else if o = 0x430 then
    packWord [(bit r.rangeBit, 0), (bit r.aheadBit, 1), (bit r.chain.isSome, 2), (bit x.flush.isSome, 3),
      (bit (x.configured && x.weight == 0), 4)]
  else s.reg (0x08000 + o)

/-- CAP at offset `o` (R210). -/
def capImage (o : Nat) (s : State) : Word :=
  let st := fun (p : PortId) =>
    let x := s.port p
    packWord [(bit x.blockLock, 0), (bit x.amLock, 1), (bit x.hiBer, 2), (bit (linkUp p s), 3), (bit x.linkLost, 8),
      (bit x.fecUncorr, 9)]
  if o = 0x004 then st 0 else if o = 0x404 then st 1 else s.reg (0x0C000 + o)

/-- TUMB at offset `o` (R210). -/
def tumbImage (o : Nat) (s : State) : Word :=
  if o = 0x004 then s.cap.tumbGen
  else if 0x040 ≤ o ∧ o < 0x080 then
    BitVec.ofNat 32 (fieldAt (o - 0x040) 4 (s.tumb (bits 0 13 (s.reg 0x0D000))).image)
  else s.reg (0x0D000 + o)

/-- SCACHE at offset `o` (R229). -/
def scacheImage (o : Nat) (s : State) : Word :=
  if o = 0x000 then
    packWord [(bit s.cache.ready, 0), (bit s.cache.wayRetired, 1), (bit (decide (s.cache.drain ≠ [])), 2)]
  else if o = 0x004 then s.cache.retired.setWidth 32
  else if o = 0x008 then s.borrow.setWidth 32
  else s.reg (0x0E000 + o)

/-- KCC.STATUS (R229). -/
def kccImage (o : Nat) (s : State) : Word :=
  if o = 0 then
    packWord [(bit s.kccReady, 0), (bit (decide (s.kcc.misses ≠ [])), 1), (s.kcc.entries.length, 8),
      ((s.kcc.entries.filter (fun e => s.pinned e.ward)).length, 16)]
  else 0

/-- LEDG at offset `o` (R247). -/
def ledgImage (o : Nat) (s : State) : Word :=
  let l := s.ledger
  if o = 0x00 then
    packWord [(bit l.sealedAtStop, 0), (bit (s.replayLeft != [] && !l.replaying), 1), (bit l.replaying, 2), (bit l.atCap, 3),
      (bit s.ledgerDead, 4), (bit l.tagFail, 8), (bit l.slotRetired, 9)]
  else if o = 0x04 then packWord [(s.units, 0)]
  else if o = 0x08 then
    packWord [(if s.handedOff then s.slotsFree else 0, 0), (min l.retired.length 65535, 16)]
  else if o = 0x0C then lo32 l.nextSerial
  else if o = 0x10 then l.serialLatch
  else if o = 0x14 then s.sec.bootCount
  else if o = 0x18 then packWord [(min 65535 s.replayLeft.length, 0)]
  else 0

/-- RDN_GROUP at offset `o` of instance `g` (R274). -/
def rdnImage (g : GroupId) (o : Nat) (s : State) : Word :=
  let x := s.group g
  let map := fun (l : List CellId) => packWord (l.zipIdx.map (fun p => (p.1.val, 4 * p.2)))
  if o = 0x00 then
    packWord [(bit x.defined, 0), (x.level, 1), (x.n, 4), (x.state, 12), ((x.spare.map Fin.val).getD 0, 16),
      (bit x.spare.isSome, 20), (bit (x.rebuild.active && x.spare.isSome), 21)]
  else if o = 0x04 then map (x.members.take 8)
  else if o = 0x08 then map (x.members.drop 8)
  else if o = 0x0C then packWord (x.failed.eraseDups.map (fun m => (1, m)))
  else if o = 0x10 then BitVec.ofNat 32 x.stripes
  else if o = 0x14 then BitVec.ofNat 32 x.initFront
  else if o = 0x18 then BitVec.ofNat 32 x.rebuild.front
  else if o = 0x1C then BitVec.ofNat 32 x.scrub.front
  else if o = 0x20 then
    packWord [(x.rebuild.member, 0), (bit x.rebuild.active, 4), (bit x.rebuild.copy, 5), (bit x.rebuild.pending, 6),
      (x.rebuild.rate, 16)]
  else if o = 0x24 then packWord [(bit x.scrub.active, 0), (bit x.scrub.pending, 1), (x.scrub.rate, 16)]
  else s.reg (0x11000 + 0x400 * g.val + o)

/-- CELL at offset `o` of instance `c` (R300). -/
def cellImage (c : CellId) (o : Nat) (s : State) : Word :=
  let x := s.cell c
  if o = 0x000 then
    packWord [(bit x.ready, 0), (bit x.arm.up, 1), (bit x.atSpeed, 2), (bit x.clockLock, 3), (bit x.parked, 4),
      (bit x.retry.isSome, 5), (x.fault.toNat, 8), (bit x.torn, 16), (bit x.remapFull, 17)]
  else if o = 0x01C then x.temp.setWidth 32
  else if o = 0x024 then x.ident.setWidth 32
  else if o = 0x028 then x.serial
  else if o = 0x02C then BitVec.ofNat 32 x.remapUsed
  else s.reg (0x12000 + 0x400 * c.val + o)

/-- SRV at offset `o` of instance `c` (R319). -/
def srvImage (c : CellId) (o : Nat) (s : State) : Word :=
  let v := (s.cell c).servo
  let sel := s.reg (0x16000 + 0x400 * c.val + 0x018)
  if o = 0x000 then
    packWord [(bit v.loaded, 0), (bit v.tracking, 1), (bit v.writeSettled, 2), (bit v.seeking, 3), (bit v.reacquiring, 4),
      (min 15 v.run, 8), (v.doubt.toNat, 12), (bit v.inhibit, 16), (bit v.degradedStop, 17), (bit v.seekFail, 18)]
  else if o = 0x004 then BitVec.ofInt 32 v.position
  else if o = 0x008 then BitVec.ofInt 32 v.target
  else if o = 0x00C then packWord [(s16 v.err, 0), (v.wedge, 16), (bit v.degraded, 25), (bit v.unknown, 26)]
  else if o = 0x01C then packWord [(s16 (v.offsets.get 0 (12 * bits 0 3 sel + bits 4 4 sel)), 0)]
  else s.reg (0x16000 + 0x400 * c.val + o)

/-- The event log ring is placed and full (R363). -/
def State.evlogFull (s : State) : Bool :=
  s.obs.placed && decide ((s.obs.tail.toNat + 1) % 2 ^ s.obs.logLog = s.obs.head.toNat)

/-- OBS at offset `o` (R371). -/
def obsImage (o : Nat) (s : State) : Word :=
  let b := s.obs
  let pair := fun i => packWord [((b.volts.get 0 i).toNat, 0), ((b.volts.get 0 (i + 1)).toNat, 16)]
  if o = 0x00 then
    packWord [(bit b.enabled, 0), (bit s.evlogFull, 1), (bit s.sec.telemetry.isNone, 2), (bit b.tempWarn, 8),
      (bit b.supplyWarn, 9), (bit b.eventsLost, 10), (bit b.headBad, 11)]
  else if o = 0x04 then b.head.setWidth 32
  else if o = 0x08 then packWord [(b.tail.toNat, 0), (bit b.phase, 16)]
  else if o = 0x0C then packWord [(b.events.length, 0)]
  else if o = 0x10 then packWord [(b.temp.toNat, 0), (b.tempMax.toNat, 16)]
  else if o = 0x18 then pair 0
  else if o = 0x1C then pair 2
  else if o = 0x34 then b.slice.setWidth 32
  else s.reg (0x1A000 + o)

/-- PIN.UP_CFG_n's stored word (R401). -/
def State.pinCfg (s : State) (n : Nat) : Word := s.pin.cfg.get 0 n
/-- FUNC of a utility pin. -/
def State.pinFunc (s : State) (n : Nat) : Nat := bits 0 4 (s.pinCfg n)
/-- The pin that holds function `f` with argument `a`, if one does (R392). -/
def State.pinWith (s : State) (f a : Nat) : Option Nat :=
  (List.range 32).find? (fun n => s.pinFunc n == f && bits 4 4 (s.pinCfg n) == a)
/-- The pin is switching (R394). -/
def State.pinBusy (s : State) (n : Nat) : Bool := (s.pin.switching.get none n).isSome

/-- PIN at offset `o` (R396, R401) (DEDUCED, log 31). -/
def pinImage (o : Nat) (s : State) : Word :=
  if o < 0x80 then packWord [((s.pinCfg (o / 4)).toNat, 0), (bit (s.pinBusy (o / 4)), 16)]
  else if o = 0x84 then s.pin.gpioIn
  else if o = 0x88 then
    let has := fun (c : CellId) => (s.pinWith 0x9 c.val).isSome
    packWord (allCells.map (fun c => (bit (has c && !(s.cell c).absent), c.val)) ++
      allCells.map (fun c => (bit (has c), 16 + c.val)))
  else if o = 0x90 then packWord [(s.pin.uartDrops.toNat, 0), (bit s.pin.smbAbort, 8)]
  else s.reg (0x1B000 + o)

/-- The value of the 32-bit register at BAR0 address `a`; a reserved address reads zero (R114, R402). -/
def regImage (a : Nat) (s : State) : Word :=
  if a % 4 ≠ 0 then 0
  else if a < 0x01000 then sysImage a s
  else if a < 0x02000 then pwrImage (a - 0x01000) s
  else if a < 0x03000 then clkImage (a - 0x02000) s
  else if a < 0x04000 then secImage (a - 0x03000) s
  else if a < 0x08000 then hostImage (a - 0x04000) s
  else if a < 0x0C000 then ringImage (a - 0x08000) s
  else if a < 0x0D000 then capImage (a - 0x0C000) s
  else if a < 0x0E000 then tumbImage (a - 0x0D000) s
  else if a < 0x0F000 then scacheImage (a - 0x0E000) s
  else if a < 0x10000 then kccImage (a - 0x0F000) s
  else if a < 0x11000 then ledgImage (a - 0x10000) s
  else if a < 0x12000 then rdnImage (groupOf ((a - 0x11000) / 0x400)) ((a - 0x11000) % 0x400) s
  else if a < 0x16000 then cellImage (cellOf ((a - 0x12000) / 0x400)) ((a - 0x12000) % 0x400) s
  else if a < 0x1A000 then srvImage (cellOf ((a - 0x16000) / 0x400)) ((a - 0x16000) % 0x400) s
  else if a < 0x1B000 then obsImage (a - 0x1A000) s
  else if a < 0x1C000 then pinImage (a - 0x1B000) s
  else 0

/-- What the host may read at the present stage (R103): SYS, CLK and SEC before hand-off, only SYS at FUSE_FAIL. -/
def readable (a : Nat) (s : State) : Bool :=
  if s.sys.stage = 8 then decide (a < 0x01000)
  else if s.handedOff then true
  else decide (a < 0x01000) || (decide (0x02000 ≤ a) && decide (a < 0x04000))
/-- What the host reads at a register (R103). -/
def readValue (a : Nat) (s : State) : Word := if readable a s then regImage a s else 0

/-- A read of CLK.BEAT_LO latches the whole count (R37). -/
def latchBeat (s : State) : State := { s with clk := { s.clk with beatLatch := hi32 s.clk.beat } }
/-- A read of CLK.TAI_LO latches the whole value (R46). -/
def latchTai (s : State) : State := { s with clk := { s.clk with taiLatch := hi32 s.tai } }
/-- A read of RING.WARD_HIGH_LO latches the whole mark (R64). -/
def latchHigh (s : State) : State :=
  { s with ring := { s.ring with highLatch := ((s.ward s.wardSel).high >>> 32).setWidth 16 } }
/-- A read of LEDG.SERIAL_LO latches the whole serial (R247). -/
def latchSerial (s : State) : State := { s with ledger := { s.ledger with serialLatch := hi32 s.ledger.nextSerial } }

/-- One register read: its value and its side effect (R37, R113). -/
def readReg (a : Nat) (s : State) : Word × State :=
  (readValue a s,
    if !readable a s then s
    else if a = 0x02008 then latchBeat s
    else if a = 0x02010 then latchTai s
    else if a = 0x0840C then latchHigh s
    else if a = 0x1000C then latchSerial s
    else s)

end Sys2Proof.Machine
end

