-- ==== Sys2Proof/Machine/Clock.lean ====
section
/-! DEFINITION. Clock source, TAI, PPS and the PLL (R26–R47). -/

namespace Sys2Proof.Machine

/-- PPS_OUT is held low while TAI_VALID or PPS_OUT_EN is 0 (R44). -/
def ppsHold (s : State) : State :=
  if s.clk.taiValid && (s.reg 0x02000).getLsbD 1 then s else { s with clk := { s.clk with ppsOut := false } }

/-- A write of CLK.CTRL.SRC = 1 (R28, R29). -/
def srcPll (s : State) : State :=
  if !s.clk.lock then mark 0x02004 8 { s with clk := { s.clk with switchRefused := true } }
  else if s.clk.srcActive then { s with clk := { s.clk with src := true } }
  else
    let s1 := elapseBy 16 16 { s with clk := { s.clk with src := true } }
    { s1 with clk := { s1.clk with srcActive := true } }
/-- The core goes to the fast oscillator, which invalidates TAI (R27, R29); the counter adds 16. -/
def toOscillator (s : State) : State :=
  let s1 := { s with clk := { s.clk with src := false } }
  if s.clk.srcActive then
    let s2 := elapseBy 16 16 { s1 with clk := { s1.clk with taiValid := false } }
    ppsHold { s2 with clk := { s2.clk with srcActive := false } }
  else s1

/-- SRC_PLL (R28). -/
def execSrcPll (s : State) : Host.Outcome State Fault Refusal := .next (if s.regOpen then srcPll s else s)
/-- SRC_OSCILLATOR (R29). -/
def execSrcOscillator (s : State) : Host.Outcome State Fault Refusal :=
  .next (if s.regOpen then toOscillator s else s)

/-- CLK.TAI_SET as staged (R39). -/
def State.taiSet (s : State) : DWord := (s.reg 0x0201C) ++ (s.reg 0x02018)
/-- A TAI command may not apply the staged value now (R27, R39) (DEDUCED, log 34). -/
def taiBlocked (s : State) : Bool :=
  !s.clk.srcActive || (s.inService && s.clk.taiValid && decide (s.taiSet < s.tai))
/-- TAI_REFUSED is set and logged (R39, R40). -/
def taiRefuse (s : State) : State :=
  logEvent 0x0103 0 0 0 (mark 0x02004 9 { s with clk := { s.clk with taiRefused := true } })
/-- Load the staged value: TAI becomes valid (R39). A slew in progress runs on, since R42 lets only an accepted edge replace
it (DESIGN CHOICE, log 43). -/
def taiLoad (s : State) : State :=
  { s with clk := { s.clk with
    taiQ := s.taiSet.setWidth 96 <<< 32, taiValid := true, setAtPps := none, setPrior := false } }
/-- A pending SET_AT_PPS is applied at its edge (R39, R40). Where it was written in this very beat over one that was pending
before, the edge completes that one, and the bit ends the beat set with its wait begun again (R8). -/
def taiLoadAtEdge (s : State) : State :=
  if s.clk.setPrior && decide (s.clk.setAtPps = some s.clk.beat) then
    let s1 := taiLoad s
    { s1 with clk := { s1.clk with setAtPps := some s.clk.beat } }
  else taiLoad s
/-- SET_NOW (R39, R40): a refused one leaves a pending SET_AT_PPS alone. -/
def setNow (s : State) : State := if taiBlocked s then taiRefuse s else taiLoad s
/-- A pending SET_AT_PPS ends without effect (R40). -/
def cancelSet (s : State) : State :=
  taiRefuse { s with clk := { s.clk with setAtPps := none, setPrior := false } }
/-- CLK.PPS_CTRL.MODE (R46). -/
def State.ppsMode (s : State) : Nat := bits 0 2 (s.reg 0x02028)
/-- The utility pin that holds PPS_IN (R392), with its input valid (R394). -/
def State.ppsPin (s : State) : Option Nat :=
  match s.pinWith 0x6 0 with
  | some n => if s.pinBusy n then none else some n
  | none => none
/-- SET_AT_PPS (R40). -/
def setAtPps (s : State) : State :=
  if !s.clk.srcActive || s.ppsMode == 0 || (s.pinWith 0x6 0).isNone then cancelSet s
  else { s with clk := { s.clk with setAtPps := some s.clk.beat, setPrior := s.clk.setAtPps.isSome } }
/-- A write of CLK.TAI_CMD (R40): with both bits it is a SET_NOW alone. Where that SET_NOW is refused, an earlier
SET_AT_PPS stays pending as the second bullet of R40 says, and its bit reads 1 although the first says that both read 0
(DESIGN CHOICE, log 43). -/
def taiCmdWrite (v : Word) (s : State) : State :=
  if v.getLsbD 0 then setNow s else if v.getLsbD 1 then setAtPps s else s

/-- SET_NOW. -/
def execSetNow (s : State) : Host.Outcome State Fault Refusal := .next (if s.regOpen then setNow s else s)
/-- SET_AT_PPS. -/
def execSetAtPps (s : State) : Host.Outcome State Fault Refusal := .next (if s.regOpen then setAtPps s else s)
/-- SET_AT_PPS_TIMEOUT (R40): 1,100,000,000 beats pass after the write. -/
def execSetAtPpsTimeout (s : State) : Host.Outcome State Fault Refusal :=
  .next (match s.clk.setAtPps with
    | some t => if s.awake then cancelSet (elapseTo (t.toNat + 1100000000) s) else s
    | none => s)

/-- A write of CLK.TAI_RATE (R47). -/
def taiRateWrite (v : Word) (s : State) : State :=
  if 0x20C49C < v.toInt.natAbs then mark 0x02004 9 { s with clk := { s.clk with taiRefused := true } }
  else s.setReg 0x02024 v
/-- TAI_RATE_WRITE. -/
def execTaiRateWrite (v : Word) (s : State) : Host.Outcome State Fault Refusal :=
  .next (if s.regOpen then taiRateWrite v s else s)

/-- A write of CLK.PPS_CTRL (R40, R43, R406). -/
def ppsCtrlWrite (v : Word) (s : State) : State :=
  if !regLegal s 0x02028 v then reject 0x02028 v s
  else
    let s1 := s.setReg 0x02028 v
    if bits 0 2 v = 0 then (if s.clk.setAtPps.isSome then cancelSet s1 else s1)
    else if s.ppsMode = 0 then { s1 with clk := { s1.clk with leftOff := s1.clk.beat } }
    else s1
/-- PPS_CTRL_WRITE. -/
def execPpsCtrlWrite (v : Word) (s : State) : Host.Outcome State Fault Refusal :=
  .next (if s.regOpen then ppsCtrlWrite v s else s)

/-- The signed error of an edge at TAI `t` (R41). -/
def ppsErrorOf (t : DWord) : Int :=
  let f := t.toNat % 1000000000
  if f < 500000000 then f else (f : Int) - 1000000000
/-- An accepted edge (R41–R43): recorded, HOLDOVER cleared, and in DISCIPLINE slewed or found too far (DEDUCED, log 34).
Where it also applies a SET_AT_PPS, the edge's record, its error and its slew are those of the TAI before the set; on the
oscillator the set is cancelled as a refusal (DESIGN CHOICE, log 43). -/
def ppsAccept (s : State) : State :=
  let e := ppsErrorOf s.tai
  let near := decide (e.natAbs ≤ 1000000)
  let slew := decide (s.ppsMode = 2) && near
  let s1 := { s with clk := { s.clk with
    ppsEdge := s.tai, ppsError := BitVec.ofInt 32 e, lastEdge := some s.clk.beat, holdover := false
    ppsFar := if near then false else if s.ppsMode = 2 then true else s.clk.ppsFar
    slewLeft := if slew then e else 0
    slewDue := s.clk.beat + 10000 } }
  let s2 := if s.ppsMode = 2 ∧ !near then logEvent 0x0104 0 0 s1.clk.ppsError.toNat s1 else s1
  if s2.clk.setAtPps.isNone then s2 else if taiBlocked s2 then cancelSet s2 else taiLoadAtEdge s2
/-- A rising edge on PPS_IN (R41) (DEDUCED, log 34). -/
def ppsRise (s : State) : State :=
  if s.ppsMode = 0 ∨ s.ppsPin.isNone then s
  else match s.clk.lastEdge with
  | some b => if s.clk.beat.toNat < b.toNat + 900000000 then bump (cDev 4) 1 s else ppsAccept s
  | none => ppsAccept s
/-- PPS_EDGE: `wait` beats pass and the edge arrives. -/
def execPpsEdge (wait : Nat) (s : State) : Host.Outcome State Fault Refusal :=
  .next (if s.handedOff then ppsRise (Machine.wait wait s) else s)

/-- TAI_SLEW (R42): the next slew step falls due. -/
def execTaiSlew (s : State) : Host.Outcome State Fault Refusal :=
  .next (if s.clk.slewLeft = 0 then s else elapseTo s.clk.slewDue.toNat s)

/-- The span of R43 passes: HOLDOVER is set, and logged once. -/
def holdoverEnd (s : State) : State :=
  if s.ppsMode = 0 then s
  else
    let from_ := max s.clk.leftOff.toNat (match s.clk.lastEdge with | some b => b.toNat | none => 0)
    let s1 := elapseTo (from_ + 1100000000) s
    if s1.clk.holdover then s1 else logEvent 0x0105 0 0 0 { s1 with clk := { s1.clk with holdover := true } }
/-- HOLDOVER. -/
def execHoldover (s : State) : Host.Outcome State Fault Refusal := .next (if s.handedOff then holdoverEnd s else s)

/-- The least `m` of `lo … hi` for which `p` holds, where `p` holds from some point on, in at most `k` halvings. -/
def leastFrom (p : Nat → Bool) : Nat → Nat → Nat → Nat
  | 0, lo, _ => lo
  | k + 1, lo, hi =>
    if hi ≤ lo then lo
    else if p ((lo + hi) / 2) then leastFrom p k lo ((lo + hi) / 2) else leastFrom p k ((lo + hi) / 2 + 1) hi
/-- Beats until TAI, with its rate and its slew, has moved on to `t` ns (R38, R42). -/
def beatsToTai (t : Nat) (s : State) : Nat :=
  let reached := fun m => decide (t * 4294967296 ≤ (taiAfter s (m * s.period) (slewSteps s (m * s.period))).toNat)
  leastFrom reached 64 0 (2 * (t - s.tai.toNat) + 2) * s.period
/-- Time passes until TAI reads `t` ns or more (DESIGN CHOICE, log 8). -/
def elapseToTai (t : Nat) (s : State) : State := elapse (beatsToTai t s) s
/-- PPS_OUT_RISE (R44). -/
def execPpsOutRise (s : State) : Host.Outcome State Fault Refusal :=
  .next (if s.clk.taiValid && (s.reg 0x02000).getLsbD 1 then
      elapseToTai ((s.tai.toNat / 1000000000 + 1) * 1000000000) s
    else s)
/-- PPS_OUT_FALL (R44). -/
def execPpsOutFall (s : State) : Host.Outcome State Fault Refusal :=
  .next (if s.clk.ppsOut then elapseToTai (s.clk.ppsOutFrom.toNat + 100000000) s else s)

/-- PLL_LOCK (R26). -/
def execPllLock (s : State) : Host.Outcome State Fault Refusal :=
  .next (if s.awake && s.clk.pllEnabled then { s with clk := { s.clk with lock := true } } else s)
/-- The PLL loses lock (R30). -/
def pllLoss (s : State) : State :=
  let s1 := { s with clk := { s.clk with lock := false } }
  if s.clk.srcActive then
    safeHold 0x02 (toOscillator (logEvent 0x0101 0 0 0
      (mark 0x02004 10 { s1 with clk := { s1.clk with pllLoss := true, taiValid := false } })))
  else s1
/-- PLL_LOSS. -/
def execPllLoss (s : State) : Host.Outcome State Fault Refusal :=
  .next (if s.awake && s.clk.lock then pllLoss s else s)

end Sys2Proof.Machine
end

