-- ==== Sys2Proof/Machine/Rings.lean ====
section
/-! DEFINITION. Rings at work: doorbells (R115, R137a, R139, R163), the Roundabout and admin fetch (R141–R153, R327),
entries and chains as they arrive (R145–R149), flushes (R154–R156), the admin ring's enable (R162, R163), and the order
in which jobs begin (R189–R191, R338). -/

namespace Sys2Proof.Machine

/-! Doorbells. -/

/-- Entries doorbelled and not yet requested (R142). -/
def Ring.avail (r : Ring) : Nat := modSub r.sqTail r.sqHead r.sqSize - modSub r.next r.sqHead r.sqSize

/-- The key under which a context's doorbell status bits stand for R7: its register, which every ward has a copy of. -/
def bellReg (c : Ctx) : Nat :=
  match c with
  | .admin => 0x08018
  | .ward w => 0x40000 + w.val
/-- One doorbell value on a ring as it stands (R137a). -/
def evalBell (c : Ctx) (head : Bool) (v : BitVec 16) (s : State) : State :=
  let r := s.ringOf c
  let n := v.toNat
  if (if head then r.cqSize else r.sqSize) ≤ n then
    bump (cQueue c 0) 1 (mark (bellReg c) 0 (s.setRing c { r with rangeBit := true }))
  else if head then
    if modSub n r.cqHead r.cqSize ≤ modSub r.cqTail r.cqHead r.cqSize then s.setRing c { r with cqHead := n }
    else bump (cQueue c 1) 1 (mark (bellReg c) 1 (s.setRing c { r with aheadBit := true }))
  else s.setRing c { r with sqTail := n, chainTicks := if n = r.sqTail then r.chainTicks else 0 }

/-- What a doorbell does to its context's status bits (R137a). -/
def bellDone (c : Ctx) (head : Bool) (v : BitVec 16) (s : State) : BellDone :=
  let r := s.ringOf c
  if (if head then r.cqSize else r.sqSize) ≤ v.toNat then .range r.rangeBit
  else if head && decide (modSub r.cqTail r.cqHead r.cqSize < modSub v.toNat r.cqHead r.cqSize) then .ahead r.aheadBit
  else .taken
/-- A ward's doorbell lands, and what it did in this beat is kept (R137a, R139). -/
def landBell (w : WardId) (head : Bool) (v : BitVec 16) (s : State) : State :=
  (evalBell (.ward w) head v s).updWard w (fun x => { x with
    bellBeat := s.clk.beat
    bells := (if x.bellBeat = s.clk.beat then x.bells else []) ++ [bellDone (.ward w) head v s] })
/-- One doorbell that landed in the beat in which its ward enters RESETTING is an orphan, and nothing else (R139). -/
def orphanBell (w : WardId) (d : BellDone) (s : State) : State :=
  let s1 := bump (cQueue (.ward w) 2) 1 s
  let back := fun (k : Nat) (s : State) => unmark (bellReg (.ward w)) k { s with obs := { s.obs with
    counters := s.obs.counters.upd 0 (cQueue (.ward w) k) (· - 1) } }
  match d with
  | .taken => s1
  | .range was => (back 0 s1).updWard w (fun x => { x with ring := { x.ring with rangeBit := was } })
  | .ahead was => (back 1 s1).updWard w (fun x => { x with ring := { x.ring with aheadBit := was } })
/-- The ward enters RESETTING: what landed on it in this beat is taken back (R139). -/
def orphanBells (w : WardId) (s : State) : State :=
  if (s.ward w).bellBeat = s.clk.beat then
    ((s.ward w).bells.reverse.foldl (fun s d => orphanBell w d s) s).updWard w (fun x => { x with bells := [] })
  else s

/-- A ward ignores its doorbells (R52, R139). -/
def orphanWard (x : Ward) : Bool :=
  !x.configured || decide (x.state = .unprovisioned) || decide (x.state = .destroyed) || decide (x.state = .resetting)

/-- A SET_WARD_RINGS of the ward waits for its COMMIT: nothing is fetched for the ward in between (R134). -/
def ringsPending (w : WardId) (s : State) : Bool :=
  s.ledger.intents.any (fun i => !i.replay && decide (i.ctx = .admin) && i.op == 0x4C && decide (i.phase ≠ .committed) &&
    decide (i.asJob.named = w))
/-- Entries of a flush are still to be fetched, and no completion slot is free for one (R154) (DEDUCED, log 33). -/
def flushPaused (w : WardId) (s : State) : Bool :=
  let r := (s.ward w).ring
  match (s.ward w).flush with
  | some f => decide (r.sqHead ≠ f.tail) && decide (r.free = 0)
  | none => false

/-! Reading entries. -/

/-- Request the next submission slot: a completion slot is reserved first (R142, R143) (DEDUCED, log 35). -/
def request (c : Ctx) (s : State) : State :=
  let r := s.ringOf c
  let s1 := s.setRing c { r with reserved := r.reserved + 1, next := (r.next + 1) % r.sqSize }
  emit (.read (r.sqBase + BitVec.ofNat 64 (64 * r.next)) 64)
    { s1 with host := { s1.host with reads := s1.host.reads ++ [{ ctx := c, slot := r.next, sent := s.clk.beat }] } }
/-- Take the oldest read of a context off the list. -/
def takeRead (c : Ctx) (s : State) : State :=
  { s with host := { s.host with reads := listDrop (fun x => decide (x.ctx = c)) s.host.reads } }
/-- A read is given up: its reservation is released, and its slot is requested again in its turn (R141). -/
def loseRead (c : Ctx) (s : State) : State :=
  let r := s.ringOf c
  (takeRead c s).setRing c { r with reserved := r.reserved - 1, next := r.sqHead }

/-- Entries may be fetched at all: the function issues DMA, a read may be put out, and nothing has stopped fetch (R87, R121,
R125, R127, R339, R341). -/
def fetchOpen (s : State) : Bool :=
  s.handedOff && s.dmaOpen && decide (s.readsOut < s.tagLimit) && !s.sec.zeroizePending &&
  decide (s.pwr.transition ≠ some .enterStandby) && decide (s.pwr.transition ≠ some .enterSleep)

/-- Request up to `n` admin entries (R153). -/
def requestAdmin : Nat → State → State
  | 0, s => s
  | n + 1, s =>
    if 0 < s.ring.admin.avail ∧ 0 < s.ring.admin.free ∧ fetchOpen s then
      let s1 := request .admin s
      requestAdmin n { s1 with ring := { s1.ring with adminTaken := s1.ring.adminTaken + 1 } }
    else s
/-- Admin fetch: up to 8 entries before each ward turn (R153). -/
def adminFetch (s : State) : State :=
  if s.ring.enable && s.ring.fetching then requestAdmin (8 - s.ring.adminTaken) s else s

/-! Turns. -/

/-- R150. -/
def eligible (s : State) (w : WardId) : Bool :=
  let x := s.ward w
  x.configured && (decide (x.state = .sealed) || decide (x.state = .opened) || decide (x.state = .faulted)) &&
  x.weight != 0 && decide (x.ring.sqHead ≠ x.ring.sqTail) && decide (0 < x.ring.free) && x.flush.isNone &&
  !(ringsPending w s)
/-- The scan order from the ward after the last one served (R151). -/
def scanOrder (s : State) : List WardId :=
  let u := s.usedWards
  u.filter (fun w => decide (s.ring.lastServed < w.val)) ++ u.filter (fun w => decide (w.val ≤ s.ring.lastServed))
/-- A round begins (R151): every ward's credit is its weight. -/
def newRound (s : State) : State :=
  { s with wards := s.wards.mapAll {} (fun _ x => if x.configured then { x with credit := x.weight.toNat } else x) }
/-- The ward that takes the next turn; a round in which no eligible ward has credit ends, and the next begins at once
(R151). -/
def nextTurn (s : State) : Option WardId × State :=
  let el := (scanOrder s).filter (eligible s)
  match el.find? (fun w => decide (0 < (s.ward w).credit)) with
  | some w => (some w, s)
  | none => (el.head?, newRound s)
/-- ADMIN_FETCH (R153): with no ward eligible for a turn, the next 8 follow at once. -/
def adminTurn (s : State) : State :=
  if !fetchOpen s then s
  else if s.ring.adminTaken = 8 ∧ !((scanOrder s).any (eligible s)) then
    adminFetch { s with ring := { s.ring with adminTaken := 0 } }
  else adminFetch s
/-- ADMIN_FETCH. -/
def execAdminFetch (s : State) : Host.Outcome State Fault Refusal := .next (adminTurn s)
/-- The turn in progress goes on to its next entry, or ends (R152, R327): past its burst only for the chain that was open
as the burst was used up. -/
def goOnTurn (s : State) : State :=
  match s.ring.turn with
  | none => s
  | some w =>
    let x := s.ward w
    if 0 < x.ring.avail ∧ 0 < x.ring.free ∧ x.flush.isNone ∧ s.intake < 2 ∧
       (0 < s.ring.turnLeft ∨ x.ring.chain.isSome) ∧ fetchOpen s then
      let s1 := request (.ward w) s
      { s1 with ring := { s1.ring with turnLeft := s1.ring.turnLeft - 1, turnPast := decide (s.ring.turnLeft = 0) } }
    else if (readsOf (.ward w) s) = [] then endTurn s else s
/-- A ward's turn begins: it loses one credit, and a weight and a burst that waited for it act (R151). -/
def beginTurn (w : WardId) (s : State) : State :=
  let s1 := s.updWard w (fun x => { x with
    credit := x.credit - 1
    weight := (x.sched.map Prod.fst).getD x.weight, burst := (x.sched.map Prod.snd).getD x.burst, sched := none })
  goOnTurn { s1 with ring := { s1.ring with
    lastServed := w.val, turn := some w, turnLeft := (s1.ward w).burst, turnPast := false, adminTaken := 0 } }
/-- ROUNDABOUT_TURN (R151–R153, R327). -/
def roundaboutTurn (s : State) : State :=
  if !fetchOpen s || s.ring.turn.isSome || decide (2 ≤ s.intake) then s
  else
    let r := nextTurn (adminFetch s)
    match r.1 with
    | none => r.2
    | some w => beginTurn w r.2
/-- ROUNDABOUT_TURN. -/
def execRoundaboutTurn (s : State) : Host.Outcome State Fault Refusal := .next (roundaboutTurn s)

/-! Jobs. -/

/-- Reads go out as far as tags are free; what is left waits in the job (R121). -/
def askNext (j : Job) (s : State) : State :=
  let n := s.tagLimit - s.readsOut
  (j.toAsk.take n).foldl (fun s p => emit (.read p.1 p.2) s)
    (s.setJob { j with asked := j.asked + (j.toAsk.take n).length, toAsk := j.toAsk.drop n })
/-- Reads that wait for a tag go out (R121). -/
def askWaiting (s : State) : State :=
  (s.ring.jobs.filter (fun j => j.toAsk != [])).foldl (fun s j => askNext j s) s
/-- A whole job has been fetched: steps 1 to 8 of R149. -/
def submit (c : Ctx) (bad : Option Nat) (es : List Bytes) (s : State) : State :=
  let (j, s1) := newJob c es s
  match checkEntries c bad es s1 with
  | .error st d => failWith j st d s1
  | .table =>
    let j1 := { j with phase := .needTable
                       toAsk := s1.requestsFor (BitVec.ofNat 64 (entPtr j.entry)) (16 * entLen j.entry) }
    askNext j1 (addJob j1 s1)
  | .pass => admitJob j (addJob j s1)

/-- The byte of a chain that a later entry breaches (R148): OPCODE, then TAG. -/
def chainBreach (ch : Chain) (e : Bytes) : Option Nat :=
  let k := 64 * (ch.rest.length + 1)
  if byteAt 0 e ≠ byteAt 0 ch.first then some k
  else if fieldAt 2 2 e ≠ fieldAt 2 2 ch.first then some (k + 2) else none

/-- How a fetched entry falls into jobs (R145, R148): the jobs it ends, with the chain's own breach, and the chain that
is then open. -/
structure Cut where
  /-- (breach, entries) of each job ended, in order. -/
  jobs : List (Option Nat × List Bytes)
  open_ : Option Chain
  /-- The entry continues a chain and so keeps no reservation. -/
  joined : Bool

/-- R145 and R148 on one entry. -/
def cutEntry (ch : Option Chain) (e : Bytes) : Cut :=
  let own : Cut :=
    if entFirst e then
      if entLast e then { jobs := [(none, [e])], open_ := none, joined := false }
      else { jobs := [], open_ := some { first := e }, joined := false }
    else { jobs := [(some 1, [e])], open_ := none, joined := false }
  match ch with
  | none => own
  | some c =>
    if entFirst e then
      { own with jobs := (firstByte c.bad (some (64 * c.rest.length + 1)), c.first :: c.rest) :: own.jobs }
    else
      let bad := match c.bad with | some i => some i | none => chainBreach c e
      let es := c.first :: (c.rest ++ [e])
      if entLast e then { jobs := [(bad, es)], open_ := none, joined := true }
      else if es.length = 16 then { jobs := [(firstByte bad (some (64 * 15 + 1)), es)], open_ := none, joined := true }
      else { jobs := [], open_ := some { c with rest := c.rest ++ [e], bad := bad }, joined := true }

/-- The FLAGS byte of the first entry of a chain that carries INDIRECT (R148). -/
def chainIndirect (es : List Bytes) : Option Nat :=
  if es.length ≤ 1 then none else (es.findIdx? entIndirect).map (fun k => 64 * k + 1)
/-- One fetched job of a flushing ward (step 3 of R154): MALFORMED under R148, else ABORTED. -/
def flushJob (w : WardId) (p : Option Nat × List Bytes) (s : State) : State :=
  let (j, s1) := newJob (.ward w) p.2 s
  match firstByte p.1 (chainIndirect p.2) with
  | some i => finish j 0x21 0 i s1
  | none => (finish j 0x10 0 0 s1).updWard w (fun x => { x with flush := x.flush.map (fun f => { f with aborted := f.aborted + 1 }) })

/-- The flush goes on: the next entry is requested while a slot is free, or steps 4 and 5 of R154 end it. -/
def flushStep (w : WardId) (s : State) : State :=
  match (s.ward w).flush with
  | none => s
  | some f =>
    let r := (s.ward w).ring
    if r.sqHead ≠ f.tail then
      if (readsOf (.ward w) s) = [] ∧ 0 < r.free ∧ fetchOpen s then request (.ward w) s else s
    else
      let torn := bit r.chain.isSome
      let s1 := match r.chain with | some ch => endChain (.ward w) 0x11 ch s | none => s
      let s2 := s1.updWard w (fun x => { x with flush := none })
      let s3 := match f.sqBell with | some v => evalBell (.ward w) false v s2 | none => s2
      let s4 := match f.cqBell with | some v => evalBell (.ward w) true v s3 | none => s3
      match s4.job f.job with
      | some j => journal .journal j .none (f.aborted + 65536 * (f.torn + torn)) s4
      | none => s4

/-- A doorbell for one context (R115, R137a, R139, R154, R163) (DEDUCED, log 33). -/
def ringBell (c : Ctx) (head : Bool) (v : BitVec 16) (s : State) : State :=
  match c with
  | .admin => if s.ring.enable then evalBell .admin head v s else bump (cQueue .admin 2) 1 s
  | .ward w =>
    let x := s.ward w
    if orphanWard x then bump (cQueue c 2) 1 s
    else match x.flush with
    | none => landBell w head v s
    | some f =>
      if f.at_ = s.clk.beat then
        let s1 := landBell w head v s
        flushStep w (s1.updWard w (fun x => { x with flush := some { f with tail := x.ring.sqTail } }))
      else if head then
        if flushPaused w s then
          flushStep w ((landBell w true v s).updWard w (fun x => { x with flush := some { f with cqBell := none } }))
        else s.updWard w (fun x => { x with flush := some { f with cqBell := some v } })
      else s.updWard w (fun x => { x with flush := some { f with sqBell := some v } })

/-- An entry that lies between the head and the tail reaches the die (R133, R141–R145) (DEDUCED, log 35). -/
def accept (c : Ctx) (e : Bytes) (s : State) : State :=
  let r := s.ringOf c
  let cut := cutEntry r.chain e
  let s1 := bump (cQueue c 3) 1 (s.setRing c { r with
    sqHead := (r.sqHead + 1) % r.sqSize, chain := cut.open_, chainTicks := 0
    reserved := if cut.joined then r.reserved - 1 else r.reserved })
  let s2 := if decide (c = .admin) then { s1 with sec := { s1.sec with idleTicks := 0, fetchedThisTick := true } } else s1
  match c with
  | .admin => cut.jobs.foldl (fun s p => submit .admin p.1 p.2 s) s2
  | .ward w =>
    match (s.ward w).flush with
    | some _ => flushStep w (cut.jobs.foldl (fun s p => flushJob w p s) s2)
    | none => cut.jobs.foldl (fun s p => submit c p.1 p.2 s) s2

/-- A ward turn goes on after its entry has come: past the burst only while the chain goes on (R152). -/
def afterEntry (w : WardId) (s : State) : State :=
  if s.ring.turn = some w then
    if s.ring.turnPast && (s.ward w).ring.chain.isNone then endTurn s else goOnTurn s
  else goOnTurn s
/-- The entry read past the burst ended the chain it was read for, and opened another (R152). -/
def turnOver (c : Ctx) (e : Bytes) (s : State) : Bool :=
  s.ring.turnPast && decide (some c = s.ring.turn.map Ctx.ward) && !(cutEntry (s.ringOf c).chain e).joined
/-- A ring-entry read returns (R141): the entry is taken where it still lies between head and tail, else discarded
(DEDUCED, log 35). -/
def entryArrival (c : Ctx) (entry : Bytes) (s : State) : State :=
  match readsOf c s with
  | [] => s
  | x :: _ =>
    if x.tries = 1 || !s.awake then s
    else
      let r := s.ringOf c
      let e := fit 64 entry
      let s2 :=
        if x.slot = r.sqHead ∧ r.sqHead ≠ r.sqTail then
          let past := turnOver c e s
          let s1 := accept c e (takeRead c s)
          if past then endTurn s1 else s1
        else loseRead c s
      let s3 := askWaiting s2
      match c with
      | .admin => s3
      | .ward w => afterEntry w (flushStep w s3)
/-- ENTRY_ARRIVAL. -/
def execEntryArrival (c : Ctx) (entry : Bytes) (s : State) : Host.Outcome State Fault Refusal :=
  .next (entryArrival c entry s)

/-- A read fails for the second time (R123). -/
def readLost (c : Ctx) (s : State) : State :=
  let s1 := dropReads c s
  match c with
  | .admin =>
    logEvent 0x0302 0 0 0 (mark 0x04014 3 { s1 with
      ring := { s1.ring with fetching := false }
      host := { s1.host with adminHalt := true } })
  | .ward w => faultWard w 1 (if s1.ring.turn = some w then endTurn s1 else s1)
/-- Mark the oldest read of a context that is out. -/
def markRead (c : Ctx) (f : RingRead → RingRead) (s : State) : State :=
  let l := listUpd (fun y => decide (y.ctx = c)) f s.host.reads
  { s with host := { s.host with reads := l } }
/-- A failed read is reported (R122); a completion timeout has passed by then (R121). -/
def readFails (why : ReadFail) (sent : DWord) (s : State) : State :=
  aerRead why (match why with
    | .timeout => elapseTo (sent.toNat + s.timeout) s
    | _ => s)
/-- RING_READ_FAIL (R122, R123): retried once. -/
def ringReadFail (c : Ctx) (why : ReadFail) (s : State) : State :=
  match readsOf c s with
  | [] => s
  | x :: _ =>
    if !s.awake || x.tries = 1 then s
    else
      let s1 := readFails why x.sent s
      if x.tries = 0 then markRead c (fun y => { y with tries := 1, failed := s1.clk.beat }) s1 else readLost c s1
/-- RING_READ_FAIL. -/
def execRingReadFail (c : Ctx) (why : ReadFail) (s : State) : Host.Outcome State Fault Refusal := .next (ringReadFail c why s)
/-- RING_READ_RETRY (R122): 1 µs after the failure the read is issued again, unless its slot lies at or beyond the tail by
then (R142). -/
def ringReadRetry (c : Ctx) (s : State) : State :=
  match readsOf c s with
  | [] => s
  | x :: _ =>
    if x.tries = 1 ∧ s.awake then
      let s1 := elapseTo (x.failed.toNat + 1000) s
      let r := s1.ringOf c
      if modSub x.slot r.sqHead r.sqSize < modSub r.sqTail r.sqHead r.sqSize then
        emit (.read (r.sqBase + BitVec.ofNat 64 (64 * x.slot)) 64)
          (markRead c (fun y => { y with tries := 2, sent := s1.clk.beat }) s1)
      else goOnTurn (loseRead c s1)
    else s
/-- RING_READ_RETRY. -/
def execRingReadRetry (c : Ctx) (s : State) : Host.Outcome State Fault Refusal := .next (ringReadRetry c s)

/-! A job's data. -/

/-- DMA_ABORT (R122): the read of write data or of a fragment table fails. -/
def dmaAbort (id : Nat) (why : ReadFail) (s : State) : State :=
  match s.job id with
  | some j =>
    if (j.phase = .needTable ∨ j.phase = .needData) ∧ s.awake then
      let s1 := readFails why j.since s
      askWaiting (finish j 0x10 0 0 (mark 0x04014 4 { s1 with host := { s1.host with dmaAbort := true } }))
    else s
  | none => s
/-- DMA_ABORT. -/
def execDmaAbort (job : Nat) (why : ReadFail) (s : State) : Host.Outcome State Fault Refusal := .next (dmaAbort job why s)

/-- The host's completions arrive (R147, R149 step 7, R169): a fragment table, or the data of the transfer. Reads of the job
that still waited for tags have gone out meanwhile (R121). -/
def dataFetch (id : Nat) (data : Bytes) (s : State) : State :=
  match s.job id with
  | some j =>
    if (j.phase = .needTable ∨ j.phase = .needData) ∧ s.dmaOpen then
      let s1 := j.toAsk.foldl (fun s p => emit (.read p.1 p.2) s) s
      let k := { j with asked := 0, toAsk := [] }
      if j.phase = .needTable then
        let l := fragments (entLen j.entry) (fit (16 * entLen j.entry) data)
        askWaiting (match checkTable j.entry l with
          | .error st d => failWith k st d s1
          | _ => admitJob { k with segs := l.map (fun f => (BitVec.ofNat 64 f.1, f.2.1)) } s1)
      else askWaiting (s1.setJob { k with phase := .dataIn, data := fit (transferLen j.entry) data })
    else s
  | none => s
/-- DATA_FETCH. -/
def execDataFetch (job : Nat) (data : Bytes) (s : State) : Host.Outcome State Fault Refusal :=
  .next (dataFetch job data s)
/-- A command's data is read from the host (R121, R145–R147). -/
def askData (j : Job) (s : State) : State :=
  let k := { j with phase := .needData, since := s.clk.beat, toAsk := j.segs.flatMap (fun p => s.requestsFor p.1 p.2) }
  askNext k (s.setJob k)

/-! When a job may begin. -/

/-- READ, WRITE or TRIM on a ward (R338). -/
def Job.isMedia (j : Job) : Bool := decide (j.ctx ≠ .admin) && within 0x01 0x03 j.op.toNat
/-- The space, first block and count of a READ, WRITE or TRIM (R167). -/
def Job.range (j : Job) : Nat × Nat × Nat := (j.cmd 0x2C 1, j.cmd 0x20 8, j.cmd 0x28 4)
/-- Two jobs touch a common block of one space (R189). -/
def overlap (j k : Job) : Bool :=
  j.isMedia && k.isMedia && j.range.1 == k.range.1 &&
  decide (j.range.2.1 < k.range.2.1 + k.range.2.2) && decide (k.range.2.1 < j.range.2.1 + j.range.2.2)
/-- An earlier job holds this one back (R189–R191). -/
def heldBack (k j : Job) : Bool :=
  decide (k.ctx = j.ctx) && decide (k.id < j.id) &&
  (k.fence || j.fence ||
    (if decide (j.ctx = .admin) then
      (if opNamesWard j.op.toNat then opNamesWard k.op.toNat && k.named == j.named else !(opNamesWard k.op.toNat))
     else overlap k j))
/-- The job may not begin yet (R189–R191, R338). -/
def blocked (j : Job) (s : State) : Bool :=
  s.ring.jobs.any (fun k => heldBack k j) || (j.isMedia && !s.inService)
/-- A waiting READ, WRITE or TRIM that could begin and was fetched earlier (R338). -/
def earlierMedia (j : Job) (s : State) : Bool :=
  j.isMedia && s.ring.jobs.any (fun k => k.isMedia && decide (k.phase = .waiting) && decide (k.id < j.id) && !(blocked k s))
/-- JOB_BEGIN. -/
def jobBegin (id : Nat) (s : State) : State :=
  match s.job id with
  | some j =>
    if j.phase = .waiting ∧ s.awake ∧ !(blocked j s) ∧ !(earlierMedia j s) then s.setJob { j with phase := .ready } else s
  | none => s
/-- JOB_BEGIN (R189–R191, R338). -/
def execJobBegin (job : Nat) (s : State) : Host.Outcome State Fault Refusal := .next (jobBegin job s)
/-- Run a ready job of one opcode: it waits where an earlier job holds it back (DESIGN CHOICE, log 7). -/
def runJob (id op : Nat) (admin : Bool) (f : Job → State → State) (s : State) : State :=
  match s.jobFor id op admin with
  | some j =>
    if !s.awake then s
    else if j.phase = .ready then
      if blocked j s then s.setJob { j with phase := .waiting } else f j s
    else if j.phase = .dataIn then f j s
    else s
  | none => s

/-! The admin ring's enable. -/

/-- A write of RING.ADMIN_CTRL (R162): fetch stops; with ENABLE = 1 an open chain completes TORN and the new placement
waits for the fetched jobs; with ENABLE = 0 RUNNING stays set until they have completed (DEDUCED, log 33). -/
def adminCtrl (on : Bool) (s : State) : State :=
  let s1 := dropReads .admin s
  let s2 := { s1 with ring := { s1.ring with
    enable := on, fetching := false, applying := on, stopping := !on && (s.running || s.ring.stopping) } }
  if on then applyWhenClear (endOpen .admin 0x11 s2) else s2
/-- ADMIN_ENABLE. -/
def execAdminEnable (s : State) : Host.Outcome State Fault Refusal := .next (if s.regOpen then adminCtrl true s else s)
/-- ADMIN_DISABLE. -/
def execAdminDisable (s : State) : Host.Outcome State Fault Refusal := .next (if s.regOpen then adminCtrl false s else s)

/-! Torn chains. -/

/-- The chain timer of a context counts (R148). -/
def chainCounts (c : Ctx) (s : State) : Bool :=
  let r := s.ringOf c
  r.chain.isSome && decide (r.sqHead = r.sqTail) && (readsOf c s == []) && !s.host.d3hot &&
  (match c with
   | .admin => s.ring.enable && s.ring.fetching
   | .ward w => (s.ward w).configured && (s.ward w).weight != 0 && (s.ward w).flush.isNone)
/-- CHAIN_WAIT whole ticks have passed: the chain completes TORN (R148, R155). -/
def chainTorn (c : Ctx) (s : State) : State :=
  let r := s.ringOf c
  let lim := bits 0 8 (s.reg 0x08030)
  if chainCounts c s ∧ s.awake ∧ lim ≠ 0 ∧ lim < r.chainTicks then
    endOpen c 0x11 s
  else s
/-- CHAIN_WAIT_TIMEOUT. -/
def execChainWaitTimeout (c : Ctx) (s : State) : Host.Outcome State Fault Refusal := .next (chainTorn c s)

end Sys2Proof.Machine
end

