-- ==== Sys2Proof/Machine/Tick.lean ====
section
/-! DEFINITION. The tick boundary (R3, R45): windows, images and checkpoints (R356–R361), samples (R349, R367), the Dezia
frame (R368–R370), and everything that counts ticks: officer idle and lockout (R70, R71), chains (R148), append and
destage age (R207, R221), idle parking (R312), PRESENT (R396), the stall monitor (R329); and the rows of those limits. -/

namespace Sys2Proof.Machine

/-! Images. -/

/-- The header of the image at a boundary (R359): SEQ_BEGIN and SEQ_END stand in the image itself. -/
def imageHead (tick : Nat) (b : DWord) (s : State) : Bytes :=
  let v := fun i => leBytes 2 (s.obs.volts.get 0 i).toNat
  zeros 8 ++ leBytes 8 tick ++ leBytes 8 b.toNat ++ leBytes 8 s.taiOr0.toNat ++ leBytes 4 s.sec.bootCount.toNat ++
  [BitVec.ofNat 8 (modeCode s.pwr.mode), s.pwr.holdCause.setWidth 8] ++
  leBytes 2 (bit s.clk.taiValid + 2 * bit (s.obs.gap && s.obs.generation == 0) + 4 * bit s.sec.error) ++
  leBytes 2 s.obs.temp.toNat ++ leBytes 2 s.obs.tempMax.toNat ++ v 0 ++ v 1 ++ v 2 ++ v 3 ++ zeros 76
/-- The 8-byte word at image offset `off` (R358, R359). -/
def imageWord (im : Image) (off : Nat) : DWord :=
  if off = 0x000 then im.seqBegin
  else if off = 0x040 then im.seqEnd
  else if off < 0x080 then BitVec.ofNat 64 (fieldAt off 8 im.head)
  else if off < 0x0A3000 then im.counters.get 0 off
  else 0
/-- Image `i`. -/
def State.image (s : State) (i : Nat) : Image := if i = 0 then s.obs.image0 else s.obs.image1
/-- Replace image `i`. -/
def State.setImage (s : State) (i : Nat) (im : Image) : State :=
  if i = 0 then { s with obs := { s.obs with image0 := im } } else { s with obs := { s.obs with image1 := im } }
/-- Step 2 of R45: generation `g` goes into image `g` mod 2; SEQ_END follows at its publication. -/
def snapshot (tick : Nat) (b : DWord) (s : State) : State :=
  let g := s.obs.generation + 1
  let i := g.toNat % 2
  let s1 := s.setImage i { seqBegin := g, seqEnd := (s.image i).seqEnd, head := imageHead tick b s, counters := s.obs.counters }
  { s1 with obs := { s1.obs with generation := g, publishing := true } }
/-- IMAGE_PUBLISH (R356, R361): SEQ_END, the directory in one beat, then the checkpoint of the same boundary
(DESIGN CHOICE, log 32). -/
def publish (s : State) : State :=
  if s.obs.publishing then
    let g := s.obs.generation
    let i := g.toNat % 2
    let im := { s.image i with seqEnd := g }
    let s1 := s.setImage i im
    { s1 with obs := { s1.obs with
      publishing := false, active := decide (i = 1), shown := g
      shownTick := BitVec.ofNat 64 (fieldAt 8 8 im.head)
      checkOld := s1.obs.checkpoint
      checkpoint := some { boot := s1.sec.bootCount, beat := BitVec.ofNat 64 (fieldAt 16 8 im.head), counters := im.counters } } }
  else s
/-- IMAGE_PUBLISH. -/
def execImagePublish (s : State) : Host.Outcome State Fault Refusal := .next (if s.handedOff then publish s else s)

/-! Samples. -/

/-- Supply `i` of a tick's samples (R367). -/
def tickVolt (e : TickEnv) (i : Nat) : BitVec 16 := [e.core, e.serdes, e.cellv, e.io].getD i 0
/-- A supply sample lies outside its operating range (R367, R378). -/
def supplyOut (i : Fin 4) (mv : BitVec 16) : Bool :=
  !(within (supplyRange i).1 (supplyRange i).2.1 mv.toNat)
/-- One supply's warning (R367). -/
def supplyWarn (old : Tab (BitVec 16)) (sampled : Bool) (e : TickEnv) (s : State) (i : Fin 4) : State :=
  if supplyOut i (tickVolt e i.val) && !(sampled && supplyOut i (old.get 0 i.val)) then
    logEvent 0x0107 i.val (tickVolt e i.val).toNat 0 (mark 0x1A000 9 { s with obs := { s.obs with supplyWarn := true } })
  else s
/-- The limit of OBS.TEMP_WARN in 0.125 °C. -/
def State.warnAt (s : State) : Int := 8 * bits 0 8 (s.reg 0x1A014)
/-- The four supply readings of a tick (R367). -/
def tickVolts (e : TickEnv) : Tab (BitVec 16) := (List.range 4).foldl (fun t i => t.set 0 i (tickVolt e i)) []
/-- The readings of a tick as OBS holds them: TEMP, TEMP_MAX and the four supplies (R367, R371). -/
def takeSample (e : TickEnv) (s : State) : State :=
  { s with obs := { s.obs with
    sampled := true, temp := e.temp
    tempMax := if s.obs.sampled && decide (e.temp.toInt ≤ s.obs.tempMax.toInt) then s.obs.tempMax else e.temp
    volts := tickVolts e } }
/-- The temperature warning (R367), against the sample before it. -/
def tempWarned (old : ObsBlk) (e : TickEnv) (s : State) : State :=
  if s.warnAt ≤ e.temp.toInt ∧ !(old.sampled && decide (s.warnAt ≤ old.temp.toInt)) then
    logEvent 0x0106 0 e.temp.toNat 0 (mark 0x1A000 8 { s with obs := { s.obs with tempWarn := true } })
  else s
/-- The supply warnings (R367), against the sample before it. -/
def suppliesWarned (old : ObsBlk) (e : TickEnv) (s : State) : State :=
  (List.finRange 4).foldl (supplyWarn old.volts old.sampled e) s
/-- Step 3 of R45 (R349, R367): above 115 °C the part enters Safe Hold; before hand-off the cause is kept until then
(DESIGN CHOICE, log 39). -/
def sample (e : TickEnv) (s : State) : State :=
  let s1 := suppliesWarned s.obs e (tempWarned s.obs e (takeSample e s))
  if 920 < e.temp.toInt ∧ !s1.pwr.holdCause.getLsbD 3 then
    if s1.handedOff then safeHold 0x08 s1
    else { s1 with pwr := { s1.pwr with holdCause := s1.pwr.holdCause ||| 0x08 } }
  else s1

/-! The Dezia frame. -/

/-- The payload up to its tag (R369). -/
def deziaBody (tick : Nat) (im : Image) (s : State) : Bytes :=
  let slice_ := s.obs.slice.toNat
  [0x44, 0x5A, 0x01,
    BitVec.ofNat 8 (bit s.clk.taiValid + 2 * bit (s.obs.gap && !s.obs.gapSent) + 4 * bit s.inHold)] ++
  beBytes 4 s.sec.bootCount.toNat ++ beBytes 8 tick ++ beBytes 8 s.taiOr0.toNat ++ beBytes 8 im.seqBegin.toNat ++
  digestBytes.take 16 ++ beBytes 2 slice_ ++ beBytes 2 708 ++
  [BitVec.ofNat 8 (modeCode s.pwr.mode), s.pwr.holdCause.setWidth 8] ++ beBytes 2 (fieldAt 0x28 2 im.head) ++ zeros 8 ++
  (List.range 118).flatMap (fun k => beBytes 8 (imageWord im (944 * slice_ + 8 * k)).toNat)
/-- The telemetry key as it is unwrapped (R79). -/
def telemetryKey (wrapped : Bytes) (s : State) : BitVec 256 :=
  match s.sec.keys with
  | some k => (Config.kwUnwrap k.kek wrapped).setWidth 256
  | none => 0
/-- The whole frame (R368). -/
def deziaFrame (tick : Nat) (im : Image) (wrapped : Bytes) (s : State) : Bytes :=
  let body := deziaBody tick im s
  let tag := beBytes 32 (Config.hmac (telemetryKey wrapped s) body).toNat
  let f := leBytes 4 (s.reg 0x1A024).toNat ++ leBytes 2 (s.reg 0x1A028).toNat ++ leBytes 4 (s.reg 0x1A02C).toNat ++
    leBytes 2 (s.reg 0x1A030).toNat ++ [0x88, 0xB5] ++ body ++ tag.take 16
  f ++ leBytes 4 (crc32 f).toNat
/-- Step 5 of R45 (R370). -/
def dezia (tick : Nat) (s : State) : State :=
  if !(s.reg 0x1A020).getLsbD 0 then s
  else match s.sec.telemetry with
  | some w =>
    if s.pwr.domains.getLsbD 3 && !s.sec.error then
      let f := deziaFrame tick (s.image (s.obs.generation.toNat % 2)) w s
      let s1 := bump (cDev 2) 1 s
      { s1 with obs := { s1.obs with
        dezia := s1.obs.dezia ++ [f], gapSent := true
        slice := if s.obs.slice = 707 then 0 else s.obs.slice + 1 } }
    else bump (cDev 3) 1 s
  | none => bump (cDev 3) 1 s

/-! Officer, lockouts and limits. -/

/-- SEC.OFFICER_IDLE, at least 1,000 (R92). -/
def State.idleLimit (s : State) : Nat := max 1000 (s.reg 0x0300C).toNat
/-- OFFICER_IDLE (R71). -/
def officerIdle (s : State) : State :=
  if s.sec.session && decide (s.idleLimit ≤ s.sec.idleTicks) then endSession s else s
/-- OFFICER_IDLE. -/
def execOfficerIdle (s : State) : Host.Outcome State Fault Refusal := .next (officerIdle s)
/-- OFFICER_LOCKOUT_END (R70). -/
def lockoutEnd (s : State) : State :=
  if s.sec.officerLocked && s.sec.lockoutLeft == 0 then
    { s with sec := { s.sec with officerLocked := false, officerFails := 0 } }
  else s
/-- OFFICER_LOCKOUT_END. -/
def execOfficerLockoutEnd (s : State) : Host.Outcome State Fault Refusal := .next (lockoutEnd s)
/-- OFFICER_LOCKOUT (R70). -/
def officerLockout (s : State) : State :=
  if !s.sec.officerLocked && decide (8 ≤ s.sec.officerFails.toNat) then
    logEvent 0x0203 0 0 0 { s with sec := { s.sec with officerLocked := true, lockoutLeft := 60000 } }
  else s
/-- OFFICER_LOCKOUT. -/
def execOfficerLockout (s : State) : Host.Outcome State Fault Refusal := .next (officerLockout s)
/-- LOCKOUT (R56): the eighth credential failure. -/
def wardLockout (w : WardId) (s : State) : State := if 8 ≤ (s.ward w).fails then faultWard w 3 s else s
/-- LOCKOUT. -/
def execLockout (w : WardId) (s : State) : Host.Outcome State Fault Refusal := .next (wardLockout w s)
/-- MALFORMED_RATE (R56). -/
def malformedRate (w : WardId) (s : State) : State :=
  let x := s.ward w
  if x.malformedLimit ≠ 0 ∧ x.malformedLimit.toNat < x.malformed then faultWard w 2 s else s
/-- MALFORMED_RATE. -/
def execMalformedRate (w : WardId) (s : State) : Host.Outcome State Fault Refusal := .next (malformedRate w s)

/-- DRBG_RESEED (R81): after 65,536 generate requests. -/
def execDrbgReseed (s : State) : Host.Outcome State Fault Refusal :=
  .next (if s.sec.drbgReady ∧ 65536 ≤ s.sec.drbgSince then { s with sec := { s.sec with drbgSince := 0 } } else s)
/-- NOISE_HEALTH_FAIL (R80, R81, R85): the error state, which a CREATE_WARD that waits on the reseed ends HELD in. -/
def noiseFail (adaptive : Bool) (s : State) : State := errorState (if adaptive then 0x12 else 0x11) s
/-- NOISE_HEALTH_FAIL. -/
def execNoiseHealthFail (adaptive : Bool) (s : State) : Host.Outcome State Fault Refusal :=
  .next (if s.handedOff && s.sec.drbgReady && !s.sec.error then noiseFail adaptive s else s)

/-! Cells at a tick. -/

/-- SRV_n.IDLE_PARK whole ticks without a media request (R312). -/
def idlePark (s : State) (c : CellId) : State :=
  let lim := bits 0 16 (s.reg (0x16020 + 0x400 * c.val))
  if lim ≠ 0 ∧ lim < (s.cell c).idle then parkCell c s else s
/-- IDLE_PARK. -/
def execIdlePark (c : CellId) (s : State) : Host.Outcome State Fault Refusal := .next (idlePark s c)

/-- The second consecutive high sample of a PRESENT pin (R396): the cell is absent, and R250 applies. -/
def presentAbsent (c : CellId) (s : State) : State :=
  let s1 := cellOff c (dropGate c s)
  cellLost c (s1.updCell c (fun x => { x with absent := true, fault := 4, ready := false }))
/-- The level of a cell's PRESENT pin where one is assigned and valid (R394, R396): true is high (DEDUCED, log 31). -/
def State.presentHigh (s : State) (c : CellId) : Option Bool :=
  match s.pinWith 0x9 c.val with
  | some n => if s.pinBusy n then none else some (s.pin.levels.getLsbD n)
  | none => none
/-- One sample of a PRESENT pin (R396); without a pin the cell is present (DEDUCED, log 31). -/
def presentSample (s : State) (c : CellId) : State :=
  match s.presentHigh c with
  | none =>
    let s1 := s.updCell c (fun x => { x with high := 0, low := 0, absent := false })
    if (s.cell c).absent then bringUp c s1 else s1
  | some true =>
    let s1 := s.updCell c (fun x => { x with high := min 2 (x.high + 1), low := 0 })
    if 2 ≤ (s1.cell c).high ∧ !(s1.cell c).absent then presentAbsent c s1 else s1
  | some false =>
    let s1 := s.updCell c (fun x => { x with low := min 2 (x.low + 1), high := 0 })
    if 2 ≤ (s1.cell c).low ∧ (s1.cell c).absent then bringUp c (s1.updCell c (fun x => { x with absent := false })) else s1
/-- PRESENT_ABSENT: the sample that follows one high sample is high too. -/
def execPresentAbsent (c : CellId) (s : State) : Host.Outcome State Fault Refusal :=
  .next (if s.awake ∧ 1 ≤ (s.cell c).high ∧ s.presentHigh c = some true ∧ !(s.cell c).absent then
      presentAbsent c (s.updCell c (fun x => { x with high := 2, low := 0 }))
    else s)

/-! Destage age and the stall monitor. -/

/-- A sub-block waits in a cell's write queue. -/
def inCellQueue (a : SubAddr) (s : State) : Bool := s.cells.any (fun p => p.2.queue.any (fun q => decide (q.addr = a)))
/-- The sub-blocks of a line one tick older (R221). -/
def ageLine (age : Nat) (s : State) (l : Line) : Line :=
  { l with subs := l.subs.map (fun p => (p.1, p.2.map (fun x =>
    if x.dirty then
      let n := x.age + 1
      { x with
        age := n
        queued := x.queued || (decide (age ≠ 0) && decide (age < n) &&
          !(inCellQueue ⟨l.group, l.stripe, l.column, p.1⟩ s)) }
    else x))) }
/-- SCACHE.DESTAGE.AGE. -/
def State.destageAge (s : State) : Nat := bits 16 8 (s.reg 0x0E00C)
/-- Every dirty sub-block ages (R221). -/
def ageCache (s : State) : State :=
  { s with cache := { s.cache with lines := s.cache.lines.mapAll {} (fun _ l => ageLine s.destageAge s l) } }
/-- DESTAGE_AGE (R221). -/
def destageAged (a : SubAddr) (s : State) : State :=
  match cached a s with
  | some x =>
    if x.dirty ∧ !x.queued ∧ s.destageAge ≠ 0 ∧ s.destageAge < x.age ∧ !(inCellQueue a s) then
      updCached a (fun y => some { y with queued := true }) s
    else s
  | none => s
/-- DESTAGE_AGE. -/
def execDestageAge (a : SubAddr) (s : State) : Host.Outcome State Fault Refusal := .next (destageAged a s)

/-- A sub-block on an ONLINE member is queued for destage (R329): in the cache or in its cell's write queue. -/
def State.destageWaits (s : State) : Bool :=
  s.cells.any (fun p => decide (p.2.queue ≠ [])) ||
  s.cache.lines.any (fun p => decide (0 < p.2.queuedSubs) && !((s.group p.2.group).lostCol p.2.stripe p.2.column))
/-- SYS.PROGRESS.STALL_TICKS. -/
def State.stallTicks (s : State) : Nat := bits 0 16 (s.reg 0x0001C)
/-- MEDIA_STALL (R329, R349). -/
def mediaStall (s : State) : State :=
  if s.inService ∧ (s.stallTicks ≤ s.sys.stallNoWrite ∨ s.stallTicks ≤ s.sys.stallNoRelease) then
    safeHold 0x20 (logEvent 0x010A 0 0 0 (mark 0x0001C 16 { s with sys := { s.sys with stalled := true } }))
  else s
/-- MEDIA_STALL. -/
def execMediaStall (s : State) : Host.Outcome State Fault Refusal := .next (mediaStall s)
/-- The monitor at a boundary (R329): a tick counts when its condition stood at both ends and nothing moved. -/
def stallTick (s : State) : State :=
  if !s.inService then s
  else
    let w := s.destageWaits
    let c := s.ledger.atCap
    mediaStall { s with sys := { s.sys with
      stallNoWrite := if w && !s.sys.wroteThisTick then s.sys.stallNoWrite + 1 else 0
      stallNoRelease := if c && !s.sys.releasedThisTick then s.sys.stallNoRelease + 1 else 0
      wroteThisTick := !w, releasedThisTick := !c } }

/-! The tick. -/

/-- Step 1 of R45 (R56, R223). -/
def closeWindows (s : State) : State :=
  { s with
    cache := { s.cache with errors := [] }
    wards := s.wards.mapAll {} (fun _ x => { x with malformed := 0 })
    cells := s.cells.mapAll {} (fun _ x => { x with arm := { x.arm with badTick := 0 } }) }
/-- A tick's credit of a rebuild or a scrub (R270, R273): RATE × 1,000 B, up to 1 MiB (DEDUCED, log 23). -/
def Work.earn (k : Work) : Work :=
  if k.active then { k with credit := min 1048576 (k.credit + 1000 * k.rate) } else k
/-- Everything that counts whole ticks, one tick on (DESIGN CHOICE, log 8 and 38). -/
def countTick (s : State) : State :=
  let a := s.ring.admin
  let a1 := if chainCounts .admin s then { a with chainTicks := a.chainTicks + 1 } else a
  let s1 := { s with
    sec := { s.sec with
      idleTicks := if s.sec.session && !s.sec.fetchedThisTick then s.sec.idleTicks + 1 else 0
      fetchedThisTick := false
      lockoutLeft := s.sec.lockoutLeft - 1 }
    ring := { s.ring with admin := a1 } }
  let s2 := s.usedWards.foldl (fun s w => s.updWard w (fun x => { x with
    openBlk := x.openBlk.map (fun b => { b with ticks := b.ticks + 1 })
    ring := if chainCounts (.ward w) s then { x.ring with chainTicks := x.ring.chainTicks + 1 } else x.ring })) s1
  { s2 with
    cells := s2.cells.mapAll {} (fun _ x => if x.servo.loaded then { x with idle := x.idle + 1 } else x)
    groups := s2.groups.mapAll {} (fun _ g => { g with rebuild := g.rebuild.earn, scrub := g.scrub.earn }) }
/-- What those counts bring about (DESIGN CHOICE, log 8). -/
def tickLimits (s : State) : State :=
  let s1 := chainTorn .admin (lockoutEnd (officerIdle s))
  let s2 := s1.usedWards.foldl (fun s w => ageBlock w (chainTorn (.ward w) s)) s1
  let s3 := allCells.foldl (fun s c => idlePark (presentSample s c) c) s2
  stallTick (ageCache s3)
/-- Step 4 of R45: IRQ_STATUS.TICK. -/
def raiseTick (s : State) : State := mark 0x00020 0 { s with sys := { s.sys with irqTick := true } }
/-- The boundary actions of tick `n` at beat `b` (R45, R347): before hand-off no image is made and no frame sent (R361, R370)
(DEDUCED, log 40). -/
def boundary (n : Nat) (b : DWord) (e : TickEnv) (s : State) : State :=
  let s0 := closeWindows { s with clk := { s.clk with tickDone := n } }
  let s1 := raiseTick (sample e (if s.handedOff then snapshot (n - 1) b s0 else s0))
  let s2 := tickLimits (countTick (if s.handedOff then dezia (n - 1) s1 else s1))
  if e.voteBad && s.handedOff then voteCorrupt s2 else s2
/-- A grid hinge pauses after `p.1` beats (R32): counted against the receiving island, and logged. -/
def hingePause (s : State) (p : Nat × Fin 6) : State :=
  logEvent 0x0102 p.2.val 0 0 (bump (cDev (16 + p.2.val)) 1 (wait p.1 s))
/-- The clock reaches the next boundary (R3): the image of the one before is published by now, and every gate whose beat has
come has fallen (DESIGN CHOICE, log 8 and 32). -/
def reachTick (e : TickEnv) (s : State) : State :=
  let s1 := e.hinges.foldl hingePause (publish s)
  lateGates (if s1.clk.due = [] then elapseTo (1000000 * (s1.clk.tickDone + 1)) s1 else s1)
/-- The actions of the first boundary that is due (R3, R45). -/
def takeTick (e : TickEnv) (s : State) : State :=
  match s.clk.due with
  | [] => s
  | b :: t => boundary (s.clk.tickDone + 1) b e { s with clk := { s.clk with due := t } }
/-- TICK (R3, R45): the next boundary that has not had its actions. -/
def tick (e : TickEnv) (s : State) : State := takeTick e (reachTick e s)
/-- TICK. -/
def execTick (e : TickEnv) (s : State) : Host.Outcome State Fault Refusal := .next (if s.awake then tick e s else s)

end Sys2Proof.Machine
end

