-- ==== Sys2Proof/Machine/Pins.lean ====
section
/-! DEFINITION. Utility pins (R392–R396), the TAP (R90, R391), SMBus (R397), the console's flow control (R398) and the LED pins (R399). -/

namespace Sys2Proof.Machine

/-! Pin functions. -/

/-- A singular function (R392). -/
def singular (f : Nat) : Bool := within 0x2 0x7 f
/-- A write of PIN.UP_CFG_n is legal (R393, R406). -/
def pinLegal (n : Nat) (v : Word) (s : State) : Bool :=
  let f := bits 0 4 v
  let a := bits 4 4 v
  let other := (List.range 32).any (fun k => k != n &&
    ((singular f && s.pinFunc k == f) || (f == 0x9 && s.pinFunc k == 0x9 && bits 4 4 (s.pinCfg k) == a)))
  within 0x0 0x9 f && bits 8 2 v != 3 && (if f = 0x8 then within 0 7 a else f == 0x9 || a == 0) && !other
/-! What a pin shows. -/

/-- A group in a state other than OPTIMAL (R249, R399). -/
def groupImpaired (s : State) (g : GroupId) : Bool := (s.group g).defined && decide ((s.group g).state ≠ 0)
/-- The source of an LED is true (R399). -/
def ledSource (k : Nat) (s : State) : Bool :=
  match k with
  | 0 => s.awake
  | 1 => s.inService
  | 2 => s.inHold
  | 3 => linkUp 0 s
  | 4 => linkUp 1 s
  | 5 => decide (s.host.speed ≠ 0)
  | 6 => allGroups.any (groupImpaired s)
  | _ => allCells.any (fun c => decide ((s.cell c).fault ≠ 0))
/-- The level of UART_TXD (R398): the start bit, 8 data bits, the lower first (PRESUMED, log 5), the stop bit; high while it
pauses. -/
def uartLevel (p : PinBlk) : Bool :=
  match p.uart with
  | [] => true
  | l :: _ =>
    let k := p.uartAcc / 1000000000
    p.uartPaused || k == 9 || (if k = 0 then p.uartAcc == 0 else (byteAt p.uartSent l).getLsbD (k - 1))
/-- What a utility pin does (R392, R394). -/
inductive PinDrive where
  /-- An input, or an output that is off. -/
  | open_
  /-- Push-pull at a level. -/
  | push (level : Bool)
  /-- Open drain. -/
  | sink (on : Bool)
  /-- The keeper holds the last level. -/
  | keep (level : Bool)
deriving DecidableEq, Repr
/-- What function `f` with argument `a` makes pin `n` do (R392). -/
def funcDrive (n f a : Nat) (s : State) : PinDrive :=
  match f with
  | 0x1 => .push ((s.reg 0x1B080).getLsbD n)
  | 0x2 => .sink false
  | 0x3 => .sink false
  | 0x4 => .push (uartLevel s.pin)
  | 0x7 => .push s.clk.ppsOut
  | 0x8 => .sink (ledSource a s)
  | _ => .open_
/-- What pin `n` does: input until hand-off (R393), high impedance while MGMT is isolated (R345), kept for 8 beats of a switch,
and then as its function says (R394). -/
def pinDrive (n : Nat) (s : State) : PinDrive :=
  if !s.handedOff then .open_
  else match s.pin.switching.get none n with
  | some sw =>
    if s.clk.beat.toNat < sw.start.toNat + 8 then .keep (s.pin.keeper.getLsbD n)
    else funcDrive n (s.pinFunc n) (bits 4 4 (s.pinCfg n)) s
  | none => funcDrive n (s.pinFunc n) (bits 4 4 (s.pinCfg n)) s
/-- The level at pin `n`: its own where it drives one, else the level from outside. -/
def pinLevel (n : Nat) (s : State) : Bool :=
  match pinDrive n s with
  | .push l => l
  | .sink true => false
  | .keep l => l
  | .sink false => s.pin.levels.getLsbD n
  | .open_ => s.pin.levels.getLsbD n

/-! Switches. -/

/-- An SMBus transaction is cut (R392, R395): the target releases the bus. A transaction is in progress in the beat of its
command (DESIGN CHOICE, log 41). -/
def cutSmb (s : State) : State :=
  if s.pin.smbAt = some s.clk.beat then
    answer .none (mark 0x1B090 8 { s with pin := { s.pin with smbAbort := true, smbAt := none } })
  else s
/-- The pin's function at the beat of the switch (R392, R394, R395): what loses it sees its clamp. -/
def loseFunction (n : Nat) (s : State) : State :=
  let f := s.pinFunc n
  if f = 0x6 ∧ s.clk.setAtPps.isSome then cancelSet s
  else if f = 0x2 ∨ f = 0x3 then cutSmb s
  else if f = 0x9 then
    let c := cellOf (bits 4 4 (s.pinCfg n))
    bringUp c (s.updCell c (fun x => { x with high := 0, low := 0, absent := false }))
  else s
/-- One bit of a word. -/
def setBit (n : Nat) (level : Bool) (w : Word) : Word := (w &&& ~~~(1#32 <<< n)) ||| (if level then 1#32 <<< n else 0)
/-- A legal write takes effect (R394): the stored word changes and the pin switches. -/
def switchPin (n : Nat) (v : Word) (s : State) : State :=
  let s1 := loseFunction n s
  { s1 with pin := { s1.pin with
    keeper := setBit n (pinLevel n s) s1.pin.keeper
    cfg := s1.pin.cfg.set 0 n (v &&& 0x7FF)
    switching := s1.pin.switching.set none n (some { start := s1.clk.beat }) } }
/-- A write judged now: it switches the pin or is rejected (R393, R407). -/
def judgePin (n : Nat) (v : Word) (s : State) : State :=
  if pinLegal n v s then switchPin n v s else reject (0x1B000 + 4 * n) v s
/-- A write of PIN.UP_CFG_n (R394, R395): held while the pin switches. -/
def upCfgWrite (n : Nat) (v : Word) (s : State) : State :=
  match s.pin.switching.get none n with
  | some sw => { s with pin := { s.pin with switching := s.pin.switching.set none n (some { sw with next := some v }) } }
  | none => judgePin n v s
/-- UP_CFG_WRITE. -/
def execUpCfgWrite (n : Fin 32) (v : Word) (s : State) : Host.Outcome State Fault Refusal :=
  .next (if s.regOpen then upCfgWrite n.val v s else s)
/-- PIN.GPIO_IN bit `n` takes a level (R392). -/
def setGpio (n : Nat) (level : Bool) (s : State) : State :=
  { s with pin := { s.pin with gpioIn := setBit n level s.pin.gpioIn } }
/-- S + 10 of a switch (R394, R395): inputs are valid, and a held write takes effect or is rejected. -/
def pinSettle (n : Nat) (s : State) : State :=
  match s.pin.switching.get none n with
  | none => s
  | some sw =>
    let s1 := elapseTo (sw.start.toNat + 10) s
    let s2 := { s1 with pin := { s1.pin with switching := s1.pin.switching.set none n none } }
    let s3 := if s2.pinFunc n = 0 then setGpio n (s2.pin.levels.getLsbD n) s2 else s2
    match sw.next with
    | some v => judgePin n v s3
    | none => s3
/-- PIN_SWITCH_SETTLE. -/
def execPinSwitchSettle (n : Fin 32) (s : State) : Host.Outcome State Fault Refusal :=
  .next (if s.handedOff then pinSettle n.val s else s)
/-- GPIO_IN_CHANGE (R392, R395): the level at a pin changes, and PIN.GPIO_IN follows where the pin is GPIO_IN. -/
def gpioChange (n : Nat) (level : Bool) (s : State) : State :=
  let s1 := { s with pin := { s.pin with
    levels := setBit n level s.pin.levels } }
  if s.handedOff && s.pinFunc n == 0 && !s.pinBusy n then setGpio n level s1 else s1
/-- GPIO_IN_CHANGE. -/
def execGpioInChange (n : Fin 32) (level : Bool) (s : State) : Host.Outcome State Fault Refusal :=
  .next (gpioChange n.val level s)

/-! The TAP. -/

/-- The instruction register takes a code (DESIGN CHOICE, log 41). -/
def setTap (code : BitVec 4) (s : State) : State := { s with pin := { s.pin with jtag := code } }
/-- A code other than IDCODE and BYPASS once provisioned (R90): BYPASS, JTAG_LOCKED and JTAG_REFUSED. -/
def tapRefuse (s : State) : State :=
  bump (cDev 5) 1 (setTap 0xF { s with sec := { s.sec with jtagLocked := true } })
/-- IDCODE (R391). -/
def idcode : Word := packWord [(1, 0), (0x5B6, 1), (0x0024, 12), (Config.fuseStepping.toNat / 16, 28)]
/-- JTAG_IDCODE (R391). -/
def execJtagIdcode (s : State) : Host.Outcome State Fault Refusal :=
  .next (if s.awake then answer (.bytes (wordBytes idcode)) (setTap 0x1 s) else s)
/-- JTAG_BYPASS (R90, R391): BYPASS, or a code that names no instruction. -/
def execJtagBypass (code : BitVec 4) (s : State) : Host.Outcome State Fault Refusal :=
  .next (if !s.awake ∨ code.toNat ≤ 2 then s
    else if code ≠ 0xF ∧ s.sec.provisioned then tapRefuse s else setTap 0xF s)
/-- JTAG_EXTEST (R90). -/
def execJtagExtest (s : State) : Host.Outcome State Fault Refusal :=
  .next (if !s.awake then s else if s.sec.provisioned then tapRefuse s else setTap 0x0 s)
/-- JTAG_SAMPLE_PRELOAD (R90). -/
def execJtagSamplePreload (s : State) : Host.Outcome State Fault Refusal :=
  .next (if !s.awake then s else if s.sec.provisioned then tapRefuse s else setTap 0x2 s)

/-! SMBus. -/

/-- The target is reachable (R392, R397): SMB_SCL and SMB_SDA hold pins, in the four modes. -/
def smbOpen (s : State) : Bool := s.handedOff && s.pin.holds 0x2 && s.pin.holds 0x3
/-- The word of an SMBus command (R397). -/
def smbWord (cmd : Nat) (s : State) : Option (BitVec 16) :=
  let low := fun (w : Word) => w.setWidth 16
  if cmd = 0x00 then some s.obs.temp
  else if cmd = 0x01 then some s.obs.tempMax
  else if within 0x02 0x05 cmd then some (s.obs.volts.get 0 (cmd - 2))
  else if cmd = 0x06 then some (low (pwrImage 0x0C s))
  else if cmd = 0x07 then some (low (pwrImage 0x14 s))
  else if cmd = 0x08 then some (low (bootWord s))
  else if cmd = 0x09 then some (low revWord)
  else if cmd = 0x0A then
    some (low (packWord (allGroups.flatMap (fun g =>
      [(bit (s.group g).defined, 3 * g.val), ((s.group g).state, 3 * g.val + 1)]))))
  else if cmd = 0x0B then some (low (pinImage 0x88 s))
  else none
/-- The packet error code over a transaction's bytes: CRC-8, polynomial 0x07, initial value 0 (SMBus 3.0; PRESUMED,
log 5). -/
def smbPec (l : Bytes) : Byte := l.foldl (fun c b => crc8Shift 8 (c ^^^ b)) 0
/-- A transaction with the target in this beat (R395). -/
def smbBegin (s : State) : State := { s with pin := { s.pin with smbAt := some s.clk.beat } }
/-- SMB_READ_WORD (R397). -/
def smbRead (addr : BitVec 7) (cmd : Byte) (pec : Bool) (s : State) : State :=
  if !smbOpen s then s
  else if addr.toNat ≠ bits 0 7 (s.reg 0x1B08C) then answer .none s
  else match smbWord cmd.toNat s with
  | none => answer .nack (smbBegin s)
  | some w =>
    let d := leBytes 2 w.toNat
    let a := 2 * addr.toNat
    answer (.bytes (if pec then d ++ [smbPec ([BitVec.ofNat 8 a, cmd, BitVec.ofNat 8 (a + 1)] ++ d)] else d)) (smbBegin s)
/-- SMB_READ_WORD. -/
def execSmbReadWord (addr : BitVec 7) (cmd : Byte) (pec : Bool) (s : State) : Host.Outcome State Fault Refusal :=
  .next (smbRead addr cmd pec s)
/-- SMB_UNSUPPORTED (R397). -/
def execSmbUnsupported (s : State) : Host.Outcome State Fault Refusal := .next (if smbOpen s then answer .nack (smbBegin s) else s)

/-! The console. -/

/-- UART_XOFF (R398): the current character ends, then transmission pauses. -/
def uartXoff (s : State) : State :=
  let left := if s.pin.uartAcc = 0 then 0 else (10000000000 - s.pin.uartAcc + 115199) / 115200
  let s1 := elapse ((left + (s.period - 1)) / s.period * s.period) s
  { s1 with pin := { s1.pin with uartPaused := true } }
/-- UART_XOFF. -/
def execUartXoff (s : State) : Host.Outcome State Fault Refusal :=
  .next (if s.handedOff && s.pin.holds 0x5 then uartXoff s else s)
/-- UART_XON (R398). -/
def execUartXon (s : State) : Host.Outcome State Fault Refusal :=
  .next (if s.handedOff && s.pin.holds 0x5 then { s with pin := { s.pin with uartPaused := false } } else s)

end Sys2Proof.Machine
end

