-- ==== Sys2Proof/Machine/Apertures.lean ====
section
/-! DEFINITION. The three apertures: BAR0 reads and writes register by register (R5–R8, R103, R113, R114, R402–R407),
BAR2 doorbells (R115) and BAR4 (R116, R358–R361). -/

namespace Sys2Proof.Machine

/-! Registers with their own behaviour. -/

/-- A write of OBS.EVLOG_HEAD (R363). -/
def evlogHeadWrite (v : Word) (s : State) : State :=
  let n := bits 0 16 v
  let size := 2 ^ s.obs.logLog
  if !s.obs.placed then s
  else if n < size ∧ modSub n s.obs.head.toNat size ≤ modSub s.obs.tail.toNat s.obs.head.toNat size then
    { s with obs := { s.obs with head := BitVec.ofNat 16 n } }
  else mark 0x1A000 11 { s with obs := { s.obs with headBad := true } }
/-- EVLOG_HEAD_WRITE. -/
def execEvlogHeadWrite (v : Word) (s : State) : Host.Outcome State Fault Refusal :=
  .next (if s.regOpen then evlogHeadWrite v s else s)

/-- A write of SCACHE.RAT_B_i (R218): the staged ward range takes effect with it. -/
def ratBWrite (i : Nat) (v : Word) (s : State) : State :=
  let b := 0x0E104 + 8 * i
  if regLegal s b v then
    let a := s.reg (b - 4)
    let s1 := s.setReg b v
    { s1 with cache := { s1.cache with ratRange := s1.cache.ratRange.set (0, 0) i (bits 0 12 a, bits 16 12 a) } }
  else reject b v s
/-- RAT_B_WRITE. -/
def execRatBWrite (i : Fin 16) (v : Word) (s : State) : Host.Outcome State Fault Refusal :=
  .next (if s.regOpen then ratBWrite i.val v s else s)

/-- A write of SYS.CFG_REJECT_ADDR (R407): the rejections of the same beat stand. -/
def rejectClear (v : Word) (s : State) : State :=
  if v.getLsbD 31 then
    let l := s.rejections
    latchReject l { s with sys := { s.sys with
      rejValid := false, rejMore := 0, rejBeat := s.clk.beat, rejNow := l, rejFresh := true } }
  else s
/-- CFG_REJECT_CLEAR. -/
def execCfgRejectClear (s : State) : Host.Outcome State Fault Refusal :=
  .next (if s.regOpen then rejectClear 0x80000000 s else s)

/-! W1C registers. -/

/-- A W1C bit after a write (R5). -/
def w1c (v : Word) (i : Nat) (b : Bool) : Bool := b && !v.getLsbD i

/-- The W1C fields of SYS to SEC. -/
def sysClear (a : Nat) (v : Word) (s : State) : State :=
  if a = 0x00020 then { s with sys := { s.sys with irqTick := w1c v 0 s.sys.irqTick } }
  else if a = 0x01010 then
    { s with pwr := { s.pwr with voteRefused := w1c v 0 s.pwr.voteRefused, lpOverload := w1c v 9 s.pwr.lpOverload } }
  else if a = 0x02004 then
    { s with clk := { s.clk with
      switchRefused := w1c v 8 s.clk.switchRefused, taiRefused := w1c v 9 s.clk.taiRefused
      pllLoss := w1c v 10 s.clk.pllLoss } }
  else s
/-- The W1C fields of HOST, RING, CAP, SCACHE and LEDG. -/
def hostClear (a : Nat) (v : Word) (s : State) : State :=
  if a = 0x04014 then
    { s with host := { s.host with
      bar0Partial := w1c v 0 s.host.bar0Partial, bar2Stray := w1c v 1 s.host.bar2Stray
      bar4Write := w1c v 2 s.host.bar4Write, adminHalt := w1c v 3 s.host.adminHalt
      dmaAbort := w1c v 4 s.host.dmaAbort, bar4Span := w1c v 5 s.host.bar4Span } }
  else if a = 0x08018 ∨ a = 0x08430 then
    let c : Ctx := if a = 0x08018 then .admin else .ward s.wardSel
    let r := s.ringOf c
    s.setRing c { r with rangeBit := w1c v 0 r.rangeBit, aheadBit := w1c v 1 r.aheadBit }
  else if a = 0x0C004 ∨ a = 0x0C404 then
    let p : PortId := if a = 0x0C004 then 0 else 1
    s.setPort p { s.port p with linkLost := w1c v 8 (s.port p).linkLost, fecUncorr := w1c v 9 (s.port p).fecUncorr }
  else if a = 0x0E000 then { s with cache := { s.cache with wayRetired := w1c v 1 s.cache.wayRetired } }
  else if a = 0x10000 then
    { s with ledger := { s.ledger with
      tagFail := w1c v 8 s.ledger.tagFail, slotRetired := w1c v 9 s.ledger.slotRetired } }
  else s
/-- The W1C fields of CELL, SRV, OBS and PIN. -/
def cellClear (a : Nat) (v : Word) (s : State) : State :=
  match inBlock 0x12000 16 a, inBlock 0x16000 16 a with
  | some (n, off), _ =>
    if off = 0 then s.updCell (cellOf n) (fun x => { x with torn := w1c v 16 x.torn, remapFull := w1c v 17 x.remapFull })
    else s
  | none, some (n, off) =>
    if off = 0 then s.updServo (cellOf n) (fun x => { x with
      inhibit := w1c v 16 x.inhibit, degradedStop := w1c v 17 x.degradedStop, seekFail := w1c v 18 x.seekFail })
    else s
  | none, none =>
    if a = 0x1A000 then
      { s with obs := { s.obs with
        tempWarn := w1c v 8 s.obs.tempWarn, supplyWarn := w1c v 9 s.obs.supplyWarn
        eventsLost := w1c v 10 s.obs.eventsLost, headBad := w1c v 11 s.obs.headBad } }
    else if a = 0x1B090 then { s with pin := { s.pin with smbAbort := w1c v 8 s.pin.smbAbort } }
    else s
/-- The key of a register's W1C bits for R7: the ward window shows the selected ward's. -/
def w1cKey (a : Nat) (s : State) : Nat := if a = 0x08430 then bellReg (.ward s.wardSel) else a
/-- A write of 1 clears W1C bits, but not one that the die sets in the same beat (R5, R7); a register without one is left
alone. -/
def clearBits (a : Nat) (v : Word) (s : State) : State :=
  let u := clearing (w1cKey a s) v s
  if a < 0x04000 then sysClear a u s else if a < 0x11000 then hostClear a u s else cellClear a u s

/-! The write of one register. -/

/-- A plain RW register (R405, R406): a WRITE_CURRENT change is sent to the cell (R300), CTRL of a capture port acts on its
locks (R195), and SCACHE.DESTAGE starts what its new marks call for (R221). -/
def plainWrite (a : Nat) (v : Word) (s : State) : State :=
  if !(regLegal s a v) then reject a v s
  else if a = 0x0C000 then portCtrlWrite 0 v s
  else if a = 0x0C400 then portCtrlWrite 1 v s
  else if a = 0x0E00C then destagePressure (s.setReg a v)
  else
    let s1 := s.setReg a v
    match inBlock 0x12000 16 a with
    | some (n, off) =>
      if 0x008 ≤ off ∧ off ≤ 0x018 ∧ (s.cell (cellOf n)).bring ≠ .off ∧ s1.reg a ≠ s.reg a then
        armSend (cellOf n) 0x5 (bits 0 8 v + 256 * ((off - 0x008) / 4 + 1)) s1
      else s1
    | none => s1
/-- A write of CLK.CTRL: PPS_OUT_EN, then the source where it differs (R28, R29, R44). -/
def clkCtrlWrite (v : Word) (s : State) : State :=
  let s1 := ppsHold (s.setReg 0x02000 v)
  if v.getLsbD 0 then srcPll s1 else toOscillator s1
/-- A write of an MSI-X table word (R120). -/
def msixWrite (a : Nat) (v : Word) (s : State) : State :=
  let s1 := s.setReg a v
  if a % 16 = 12 then afterUnmask ((a - 0x06000) / 16) s1 else s1
/-- A write of SYS.PROGRESS (R330, R405): a rejected write clears nothing. -/
def progressWrite (v : Word) (s : State) : State :=
  if regLegal s 0x0001C v then
    let s1 := s.setReg 0x0001C v
    { s1 with sys := { s1.sys with stalled := w1c (clearing 0x0001C v s) 16 s1.sys.stalled } }
  else reject 0x0001C v s
/-- A write of the selected ward's MALFORMED_LIMIT (R64). -/
def limitWrite (v : Word) (s : State) : State :=
  s.updWard s.wardSel (fun x => { x with malformedLimit := v.setWidth 16 })
/-- A write of the selected scratch word (R346, R354). -/
def scratchWrite (v : Word) (s : State) : State :=
  { s with pwr := { s.pwr with scratch := s.pwr.scratch.set 0 (bits 0 11 (s.reg 0x01020)) v } }

/-- A write of SYS.RESTART (R107): which sectors end within the 5 µs of R241 is open (DESIGN CHOICE, log 4). -/
def restartReg (v : Word) (s : State) : State :=
  let f := freeWord s
  restartWrite (v.setWidth 16) (allCells.filter (fun c => f.1.getLsbD c.val)) f.2
/-- One aligned 32-bit write (R5, R113, R402): each register by its own rule. -/
def writeReg (a : Nat) (v : Word) (s : State) : State :=
  if !s.hostOpen then s
  else if a = 0x00014 then restartReg v s
  else if !s.handedOff then s
  else if a = 0x0001C then progressWrite v s
  else if a = 0x00024 then rejectClear v s
  else if a = 0x01000 then voteSet v s
  else if a = 0x01004 then voteClr v s
  else if a = 0x01008 then (if v.getLsbD 0 then sleepVote s else s)
  else if a = 0x01018 then holdRelease (v.setWidth 16) s
  else if a = 0x01024 then scratchWrite v s
  else if a = 0x02000 then clkCtrlWrite v s
  else if a = 0x02020 then taiCmdWrite v s
  else if a = 0x02024 then taiRateWrite v s
  else if a = 0x02028 then ppsCtrlWrite v s
  else if 0x06000 ≤ a ∧ a < 0x07000 then msixWrite a v s
  else if a = 0x08014 then adminCtrl (v.getLsbD 0) s
  else if a = 0x0841C then limitWrite v s
  else if 0x0E104 ≤ a ∧ a < 0x0E180 ∧ a % 8 = 4 then ratBWrite ((a - 0x0E104) / 8) v s
  else if a = 0x1A004 then evlogHeadWrite v s
  else if 0x1B000 ≤ a ∧ a < 0x1B080 ∧ a % 4 = 0 then upCfgWrite ((a - 0x1B000) / 4) v s
  else if (regInfo a).isSome then plainWrite a v s
  else clearBits a v s

/-- REGISTER_WRITE (R113, R122): 4 bytes, or 8 bytes as two halves in ascending order; anything else is dropped
(DEDUCED, log 40). -/
def registerWrite (off size : Nat) (full : Bool) (v : DWord) (s : State) : State :=
  if s.hostShut then aer 20 s
  else if !s.hostOpen then s
  else if full ∧ size = 4 ∧ off % 4 = 0 then writeReg off (lo32 v) s
  else if full ∧ size = 8 ∧ off % 8 = 0 then writeReg (off + 4) (hi32 v) (writeReg off (lo32 v) s)
  else if s.handedOff then mark 0x04014 0 { s with host := { s.host with bar0Partial := true } }
  else s
/-- REGISTER_WRITE. -/
def execRegisterWrite (off size : Nat) (full : Bool) (v : DWord) (s : State) : Host.Outcome State Fault Refusal :=
  .next (registerWrite off size full v s)

/-! BAR0 reads. -/

/-- A read within one aligned 8-byte unit (R113): each register it touches, lower first. -/
def readUnit (off len : Nat) (s : State) : State :=
  let base := off / 8 * 8
  let lo := if off % 8 < 4 then readReg base s else (0, s)
  let hi := if 4 < off % 8 + len then readReg (base + 4) lo.2 else (0, lo.2)
  answer (.bytes (slice (off % 8) len (wordBytes lo.1 ++ wordBytes hi.1))) hi.2
/-- A request to a BAR while Memory Space Enable is 0 or in D3hot (R122): a read is answered, and the error is reported. -/
def refuseAccess (read : Bool) (s : State) : State := if read then answer .unsupported (aer 20 s) else aer 20 s
/-- BAR0_READ_ABORT (R113): a read that is too long or crosses an 8-byte unit aborts; any other is served. -/
def bar0Read (off len : Nat) (s : State) : State :=
  if s.hostShut then refuseAccess true s
  else if !s.hostOpen || len == 0 then s
  else if off % 8 + len ≤ 8 then readUnit off len s
  else answer .abort (mark 0x04014 0 { s with host := { s.host with bar0Partial := true } })
/-- BAR0_READ_ABORT. -/
def execBar0ReadAbort (off len : Nat) (s : State) : Host.Outcome State Fault Refusal := .next (bar0Read off len s)
/-- BEAT_LO_READ (R37). -/
def execBeatLoRead (s : State) : Host.Outcome State Fault Refusal := .next (bar0Read 0x02008 4 s)
/-- TAI_LO_READ (R46). -/
def execTaiLoRead (s : State) : Host.Outcome State Fault Refusal := .next (bar0Read 0x02010 4 s)
/-- WARD_HIGH_LO_READ (R64). -/
def execWardHighLoRead (s : State) : Host.Outcome State Fault Refusal := .next (bar0Read 0x0840C 4 s)
/-- SERIAL_LO_READ (R247). -/
def execSerialLoRead (s : State) : Host.Outcome State Fault Refusal := .next (bar0Read 0x1000C 4 s)

/-! BAR2 and BAR4. -/

/-- The context whose doorbell pair begins at an offset (R115). -/
def bellAt (off : Nat) : Option Ctx :=
  if off = 0 then some .admin
  else if 0x01000 ≤ off ∧ off < 0x11000 ∧ off % 16 = 0 then some (.ward (wardOf ((off - 0x01000) / 16)))
  else none
/-- A doorbell reaches its context; while an FLR runs, every one is discarded (R125 step 1). -/
def bell (c : Ctx) (head : Bool) (v : BitVec 16) (s : State) : State :=
  if s.host.flr.isSome then s else ringBell c head v s
/-- BAR2_STRAY (R115): a doorbell write rings; every other access sets BAR2_STRAY. -/
def bar2 (a : Bar2) (s : State) : State :=
  let stray := mark 0x04014 1 { s with host := { s.host with bar2Stray := true } }
  if s.hostShut then refuseAccess (!a.write) s
  else if !s.hostOpen then s
  else if !s.handedOff then (if a.write then s else answer (.bytes (zeros a.size)) s)
  else if !a.write then answer (.bytes (zeros a.size)) stray
  else if a.size = 4 ∧ a.offset % 4 = 0 then
    match bellAt (a.offset / 8 * 8) with
    | some c => bell c (a.offset % 8 == 4) (a.value.setWidth 16) s
    | none => stray
  else if a.size = 8 ∧ a.offset % 8 = 0 then
    match bellAt a.offset with
    | some c => bell c true ((a.value >>> 32).setWidth 16) (bell c false (a.value.setWidth 16) s)
    | none => stray
  else stray
/-- BAR2_STRAY. -/
def execBar2Stray (a : Bar2) (s : State) : Host.Outcome State Fault Refusal := .next (bar2 a s)

/-- The directory page (R360). -/
def directory (s : State) : Bytes :=
  leBytes 4 1 ++ leBytes 4 (bit s.obs.active) ++ leBytes 8 s.obs.shown.toNat ++ leBytes 8 s.obs.shownTick.toNat ++
  leBytes 4 0x1000 ++ leBytes 4 0x201000 ++ leBytes 4 0x0A3000 ++ leBytes 4 s.sec.bootCount.toNat
/-- The byte at a BAR4 offset (R116, R358, R360). -/
def bar4Byte (off : Nat) (s : State) : Byte :=
  if !s.handedOff then 0
  else if off < 0x1000 then byteAt off (directory s)
  else
    let (im, o) := if off < 0x200000 then (s.obs.image0, off - 0x1000) else (s.obs.image1, off - 0x201000)
    if 0x200000 ≤ off ∧ off < 0x201000 ∨ 0x400000 ≤ off then 0
    else byteAt (o % 8) (leBytes 8 (imageWord im (o / 8 * 8)).toNat)
/-- BAR4_READ (R116). -/
def bar4Read (off len : Nat) (s : State) : State :=
  if s.hostShut then refuseAccess true s
  else if !s.hostOpen then s
  else if 4096 < off % 4096 + len then answer .abort (mark 0x04014 5 { s with host := { s.host with bar4Span := true } })
  else answer (.bytes ((List.range len).map (fun i => bar4Byte (off + i) s))) s
/-- BAR4_READ. -/
def execBar4Read (off len : Nat) (s : State) : Host.Outcome State Fault Refusal := .next (bar4Read off len s)
/-- BAR4_WRITE (R116). -/
def execBar4Write (_off _len : Nat) (s : State) : Host.Outcome State Fault Refusal :=
  .next (if s.hostShut then refuseAccess false s
    else if s.hostOpen then mark 0x04014 2 { s with host := { s.host with bar4Write := true } }
    else s)

end Sys2Proof.Machine
end

