-- ==== Sys2Proof/Machine/AdminCmds.lean ====
section
/-! DEFINITION. The admin commands (R173–R186): identity, roles and keys (R69–R71, R79, R83, R104, R105), ward management
(R48, R51, R53, R54, R59, R76, R154, R179–R181, R253), and capture, groups, caches and the event log (R182–R186, R268,
R363). -/

namespace Sys2Proof.Machine

/-! How an admin command begins. -/

/-- The error state and Safe Hold turn a command away when it begins (R85, R173) (DEDUCED, log 15). -/
def turnedAway (j : Job) (s : State) : Bool :=
  (s.sec.error && j.op != 0x40 && j.op != 0x46) || (s.inHold && within 0x51 0x53 j.op.toNat)
/-- An admin command that begins (R164, R173): one whose work is done already only journals (DEDUCED, log 15). -/
def runAdmin (id op : Nat) (f : Job → State → State) (s : State) : State :=
  runJob id op true (fun j s =>
    if turnedAway j s then finish j 0x12 0 0 s
    else match j.doneWith with
    | some detail => journal .journal j .none detail s
    | none => if pastLimit j.entry then finish j 0x24 0 0 s else f j s) s
/-- MALFORMED naming the CMD byte at `off` (R188) (DEDUCED, log 16). -/
def malformed (j : Job) (off : Nat) (s : State) : State := finish j 0x21 0 off s
/-- MALFORMED for a breach that no byte of the entry makes: DETAIL is left open (DEDUCED, log 16). -/
def malformedOpen (j : Job) (s : State) : State := failWith j 0x21 none s
/-- The 32-byte credential or key at 0x20 (R171, R175). -/
def Job.cred (j : Job) : Bytes := slice 0x20 32 j.entry
/-- HMAC under the verifier key (R78); the keys exist wherever a verifier does. -/
def verifyMac (s : State) (b : Bytes) : BitVec 256 :=
  match s.sec.keys with
  | some k => Config.hmac k.verify b
  | none => 0
/-- The officer verifier of a credential (R78). -/
def officerMac (s : State) (cred : Bytes) : BitVec 256 := verifyMac s (0x4F :: cred)
/-- The ward verifier of a credential in one life of a ward (R78). -/
def wardMac (s : State) (w : WardId) (epoch : Word) (cred : Bytes) : BitVec 256 :=
  verifyMac s (0x57 :: (leBytes 2 w.val ++ leBytes 4 epoch.toNat ++ cred))

/-! Identity and roles. -/

/-- The identity record (R177). -/
def identityRecord (s : State) : Bytes :=
  leBytes 4 lotLo.toNat ++ leBytes 4 lotHi.toNat ++ leBytes 4 dieWord.toNat ++ leBytes 4 revWord.toNat ++
  digestBytes ++ leBytes 4 s.sec.bootCount.toNat ++ leBytes 4 s.sec.zeroCount.toNat ++
  leBytes 4 (secImage 0 s).toNat ++ leBytes 4 (bootWord s).toNat ++ leBytes 2 4096 ++ leBytes 2 8192 ++
  [16, 4, 16, 0] ++ leBytes 2 s.cache.retired.toNat ++ zeros 182
/-- IDENTIFY (R177). -/
def execIdentify (job : Nat) (s : State) : Host.Outcome State Fault Refusal :=
  .next (runAdmin job 0x40 (fun j s => finish j 0x00 0 0 (scatter j.segs (identityRecord s) s)) s)

/-- OFFICER_AUTH (R69, R70, R71, R104). -/
def officerAuth (j : Job) (s : State) : State :=
  match s.sec.verifier with
  | none => finish j 0x33 0 s.sec.officerFails.toNat s
  | some v =>
    if s.sec.officerLocked then finish j 0x33 0 s.sec.officerFails.toNat s
    else if officerMac s j.cred = v then
      finish j 0x00 0 0 { s with sec := { s.sec with
        session := true, idleTicks := 0, fetchedThisTick := true, officerFails := 0 } }
    else
      let s1 := endSession s
      let s2 := officerLockout { s1 with sec := { s1.sec with officerFails := s1.sec.officerFails + 1 } }
      finish j 0x33 0 s2.sec.officerFails.toNat s2
/-- OFFICER_AUTH. -/
def execOfficerAuth (job : Nat) (s : State) : Host.Outcome State Fault Refusal :=
  .next (runAdmin job 0x41 officerAuth s)
/-- OFFICER_LOGOUT (R71). -/
def execOfficerLogout (job : Nat) (s : State) : Host.Outcome State Fault Refusal :=
  .next (runAdmin job 0x42 (fun j s => endSession (finish j 0x00 0 0 s)) s)

/-- The next DRBG output (R81). -/
def drawRandom (s : State) : BitVec 256 × State :=
  (Config.drbg s.sec.drbgIndex,
    { s with sec := { s.sec with drbgIndex := s.sec.drbgIndex + 1, drbgSince := s.sec.drbgSince + 1 } })
/-- Steps 2 to 5 of R105 (DEDUCED, log 17): the salt, the keys, and salt and verifier in the staging area. -/
def stage (cred : Bytes) (s : State) : State :=
  let (salt, s1) := drawRandom s
  let s2 := { s1 with sec := { s1.sec with keys := some (deriveKeys salt) } }
  { s2 with sec := { s2.sec with staging := some (salt, officerMac s2 cred) } }
/-- Step 6 of R105: the commit word; from this beat an EXTEST or SAMPLE/PRELOAD that stood at the TAP is BYPASS (R90). -/
def provision (s : State) : State :=
  match s.sec.staging with
  | some (salt, v) =>
    { s with
      sec := { s.sec with salt := some salt, verifier := some v, staging := none, provisioned := true }
      pin := { s.pin with jtag := if s.pin.jtag = 0x1 then 0x1 else 0xF } }
  | none => s
/-- SET_OFFICER_CREDENTIAL (R72, R105, R106, R175): in Provisioning, with `whole` to step 7, else to step 5; the device then
enters Management. -/
def setOfficerCredential (whole : Bool) (j : Job) (s : State) : State :=
  if allEqual j.cred then malformed j 0x20 s
  else if s.sec.provisioned then journal .journal j (.officer (officerMac s j.cred)) 0 s
  else
    let s1 := if s.sec.staging.isSome then s else stage j.cred s
    if whole then evalMode (finish j 0x00 0 0 (recordCommit .admin j.intent 0 (provision s1))) else s1
/-- SET_OFFICER_CREDENTIAL. -/
def execSetOfficerCredential (job : Nat) (whole : Bool) (s : State) : Host.Outcome State Fault Refusal :=
  .next (runAdmin job 0x43 (setOfficerCredential whole) s)
/-- SET_TELEMETRY_KEY (R79): the key is wrapped under the KEK. -/
def setTelemetryKey (j : Job) (s : State) : State :=
  match s.sec.keys with
  | some k => journal .journal j (.telemetry (fit 40 (Config.kwWrap k.kek j.cred))) 0 s
  | none => finish j 0x12 0 0 s
/-- SET_TELEMETRY_KEY. -/
def execSetTelemetryKey (job : Nat) (s : State) : Host.Outcome State Fault Refusal :=
  .next (runAdmin job 0x44 setTelemetryKey s)

/-- The cause code of a failure that RUN_SELF_TEST can meet (R80, R82, R92): tests 2 to 8 and the noise health tests
(DEDUCED, log 17). -/
def selfTestCause (f : TestFail) : Option Nat :=
  match f with
  | .test t => if 1 ≤ t.val ∧ t.val ≤ 7 then some (testBit t.val + 1) else none
  | .repetition => some 0x11
  | .adaptive => some 0x12
/-- RUN_SELF_TEST (R83): only in Management; a failure is the error state, and the command completes HELD
(DEDUCED, log 17). -/
def runSelfTest (fail : Option TestFail) (j : Job) (s : State) : State :=
  if s.pwr.mode ≠ .management then malformedOpen j s
  else match fail.bind selfTestCause with
  | some cause => errorState cause (finish j 0x12 0 s.sec.selftest.toNat s)
  | none =>
    let s1 := { s with sec := { s.sec with selftest := s.sec.selftest ||| allPassed } }
    finish j 0x00 0 s1.sec.selftest.toNat s1
/-- RUN_SELF_TEST. -/
def execRunSelfTest (job : Nat) (fail : Option TestFail) (s : State) : Host.Outcome State Fault Refusal :=
  .next (runAdmin job 0x45 (runSelfTest fail) s)
/-- ZEROIZE (R87, R89, R176): the command completes SUCCESS at step 4. -/
def execZeroize (job : Nat) (whole : Bool) (test : Option (Fin 10)) (s : State) : Host.Outcome State Fault Refusal :=
  .next (runAdmin job 0x46 (fun _ s => zeroizeNow whole test s) s)

/-! The allocator. -/

/-- The extents that hold units: of every ward, and of a CREATE_WARD or RESIZE_WARD whose COMMIT is still to come. -/
def extents (s : State) : List Extent :=
  s.wards.flatMap (fun p => [p.2.block, p.2.append]) ++
  s.ledger.intents.flatMap (fun i =>
    if i.replay || decide (i.phase = .committed) then []
    else match i.effect with
    | .create _ x => [x.block, x.append]
    | .resize _ b p => [b, p]
    | _ => [])
/-- The runs of a group that extents hold, in ascending order. -/
def heldRuns (g : GroupId) (s : State) : List (Nat × Nat) :=
  ((extents s).flatMap (fun e => if e.group = g then e.runs else [])).foldr insertRun []
/-- The lowest-numbered runs that make up `n` units; none where they do not suffice. -/
def lowestRuns : Nat → List (Nat × Nat) → Option (List (Nat × Nat))
  | 0, _ => some []
  | _ + 1, [] => none
  | n + 1, (start, k) :: t =>
    if n + 1 ≤ k then some [(start, n + 1)] else (lowestRuns (n + 1 - k) t).map (fun l => (start, k) :: l)
/-- New runs join an extent; one that directly follows the last run lengthens it. -/
def joinRuns (old new : List (Nat × Nat)) : List (Nat × Nat) :=
  match old.getLast?, new with
  | some (start, n), (st, k) :: t =>
    if start + n = st then old.dropLast ++ (start, n + k) :: t else old ++ new
  | _, _ => old ++ new
/-- Grow an extent to `total` units of its group, `more` being runs that are taken besides the wards' extents (R253):
none where the units or the sixteen runs do not suffice. -/
def grow (e : Extent) (total : Nat) (more : List (Nat × Nat)) (s : State) : Option Extent :=
  let g := s.group e.group
  let held := more.foldr insertRun (heldRuns e.group s)
  match lowestRuns (total - e.units) (gaps (g.d * g.initFront) 0 held) with
  | some l =>
    let r := joinRuns e.runs l
    if r.length ≤ 16 then some { e with runs := r } else none
  | none => none

/-! Creating and destroying a ward. -/

/-- A command that names a ward waits for its reset (R179, R180). -/
def holdReset (j : Job) (s : State) : State := s.setJob { j with phase := .heldReset }
/-- What CREATE_WARD asks: block group and units, append group and units (R178). -/
def createAsk (j : Job) : (GroupId × Nat) × (GroupId × Nat) :=
  ((groupOf (j.cmd 0x22 1), j.cmd 0x24 4), (groupOf (j.cmd 0x23 1), j.cmd 0x28 4))
/-- Both extents of a new ward, block space first (R253). -/
def createExtents (j : Job) (s : State) : Option (Extent × Extent) :=
  let a := createAsk j
  match grow { group := a.1.1 } a.1.2 [] s with
  | none => none
  | some b => match grow { group := a.2.1 } a.2.2 (if a.1.1 = a.2.1 then b.runs else []) s with
    | none => none
    | some p => some (b, p)
/-- 64 bytes from the DRBG (R76). -/
def drawPair (s : State) : (BitVec 256 × BitVec 256) × State :=
  (((drawRandom s).1, (drawRandom (drawRandom s).2).1), (drawRandom (drawRandom s).2).2)
/-- The ward that CREATE_WARD makes with a key pair (steps 1 to 5 of R179). -/
def newWard (w : WardId) (cred : Bytes) (k : BitVec 256 × BitVec 256) (b p : Extent) (s : State) : Ward :=
  { state := .sealed, enrol := true, epoch := (s.ward w).epoch + 1, block := b, append := p
    malformedLimit := (s.ward w).malformedLimit
    wrapped := match s.sec.keys with
      | some ks => fit 72 (Config.kwWrap ks.kek (beBytes 32 k.1.toNat ++ beBytes 32 k.2.toNat))
      | none => []
    verifier := wardMac s w ((s.ward w).epoch + 1) cred, keyPresent := true }
/-- The DRBG is reseeded and a key pair drawn (R76, R81). With two equal halves the command draws again as its row goes on;
else the ward is journaled. -/
def makeWard (j : Job) (b p : Extent) (s : State) : State :=
  let r := drawPair { s with sec := { s.sec with drbgSince := 0 } }
  if r.1.1 = r.1.2 then r.2
  else
    journal .journal j (.create j.named (newWard j.named j.data r.1 b p r.2)) ((s.ward j.named).epoch + 1).toNat r.2
/-- CREATE_WARD (R53, R72, R178, R179): the ward's state comes first, then the credential, the groups and the space
(DEDUCED, log 19). -/
def createCmd (j : Job) (s : State) : State :=
  let w := j.named
  let a := createAsk j
  match (s.ward w).state with
  | .sealed => finish j 0x30 0 0 s
  | .faulted => finish j 0x31 0 0 s
  | .opened => malformed j 0x20 s
  | .resetting => holdReset j s
  | _ =>
    if j.phase ≠ .dataIn then askData j s
    else if allEqual j.data then malformedOpen j s
    else if (a.1.2 ≠ 0 ∧ !(s.group a.1.1).defined) ∨ (a.2.2 ≠ 0 ∧ !(s.group a.2.1).defined) then finish j 0x24 0 0 s
    else match createExtents j s with
    | none => finish j 0x42 0 0 s
    | some (b, p) =>
      makeWard j (if b.runs = [] then {} else b) (if p.runs = [] then {} else p) s
/-- CREATE_WARD. -/
def execCreateWard (job : Nat) (s : State) : Host.Outcome State Fault Refusal := .next (runAdmin job 0x48 createCmd s)

/-- Every fetched and unfinished entry of a ward completes ABORTED, its uncommitted intents with it (R59 step 2, R154
step 2); the count is what was aborted. -/
def abortWard (w : WardId) (s : State) : Nat × State :=
  let mine := fun (j : Job) => decide (j.ctx = .ward w)
  let n := (s.ring.jobs.filter mine).length
  let s1 := abandonIntents (fun i => decide (i.ctx = .ward w) && !i.capture) s
  let s2 := finishWhere mine 0x10 { s1 with kcc := { s1.kcc with
    misses := s1.kcc.misses.filter (fun x => x != w || s1.cap.queue.any (fun b => b.ward == w)) } }
  (n, refreshCap s2)
/-- The jobs a reset ends: a FLUSH_QUEUE of the ward that runs or is held (R156). -/
def flushJobs (w : WardId) (j : Job) : Bool :=
  decide (j.ctx = .admin) && j.op == 0x4E && j.named == w &&
  (decide (j.phase = .running) || decide (j.phase = .heldReset))
/-- Steps 1 to 5 of R59 (R51, R139, R156) (DEDUCED, log 14). -/
def resetBegin (w : WardId) (s : State) : State :=
  let s1 := stopRings w ((orphanBells w s).updWard w (fun x => { x with state := .resetting, flush := none }))
  let s3 := finishWhere (flushJobs w) 0x10 (abortWard w (endOpen (.ward w) 0x10 s1)).2
  let s4 := closeBlock w 2 (s3.ward w).nextSeq s3
  let s5 := s4.updWard w (fun x => { x with
    ring := { x.ring with
      sqHead := 0, sqTail := 0, cqHead := 0, cqTail := 0, next := 0, reserved := 0, phase := true, chain := none
      chainTicks := 0 }
    fails := 0, malformed := 0 })
  dropKey w s5
/-- RESET_WARD or DESTROY_WARD as it begins (R50, R51, R59): its INTENT is queued and the ward enters RESETTING; the COMMIT
ends it once the ward's append block is committed (DEDUCED, log 13). -/
def resetCmd (destroy : Bool) (j : Job) (s : State) : State :=
  let w := j.named
  match (s.ward w).state with
  | .unprovisioned | .destroyed => finish j 0x30 0 0 s
  | .resetting => holdReset j s
  | _ =>
    let s1 := journal .running j (.reset w destroy) 0 s
    if (s1.job j.id).map (·.phase) = some .running then resetBegin w s1 else s1
/-- RESET_WARD or DESTROY_WARD that may begin. It reaches a flushing ward at once, unless a FENCE orders it behind the flush
(R156, R190, R191) (DEDUCED, log 14). -/
def resetRow (job op : Nat) (destroy : Bool) (s : State) : State :=
  match s.jobFor job op true with
  | some j =>
    if !s.awake || (j.phase ≠ .ready && j.phase ≠ .waiting) then s
    else if turnedAway j s then finish j 0x12 0 0 s
    else match j.doneWith with
    | some detail => journal .journal j .none detail s
    | none =>
      if s.ring.jobs.any (fun k => heldBack k j && !(flushJobs j.named k && !k.fence && !j.fence)) then
        s.setJob { j with phase := .waiting }
      else resetCmd destroy j s
  | none => s
/-- DESTROY_WARD. -/
def execDestroyWard (job : Nat) (s : State) : Host.Outcome State Fault Refusal := .next (resetRow job 0x49 true s)
/-- RESET_WARD. -/
def execResetWard (job : Nat) (s : State) : Host.Outcome State Fault Refusal := .next (resetRow job 0x4A false s)

/-- A command on a ward that must have a key (R180): KEY_ABSENT, or held while RESETTING. -/
def withKey (f : WardId → Job → State → State) (j : Job) (s : State) : State :=
  match (s.ward j.named).state with
  | .unprovisioned | .destroyed => finish j 0x32 0 0 s
  | .resetting => holdReset j s
  | _ => f j.named j s
/-- RESIZE_WARD (R53, R54, R180, R253). -/
def resizeWard (w : WardId) (j : Job) (s : State) : State :=
  let x := s.ward w
  let b := j.cmd 0x24 4
  let p := j.cmd 0x28 4
  if b < x.block.units then malformed j 0x24 s
  else if p < x.append.units then malformed j 0x28 s
  else if (x.block.units < b ∧ !(s.group x.block.group).defined) ∨
      (x.append.units < p ∧ !(s.group x.append.group).defined) then finish j 0x24 0 0 s
  else
    match grow x.block b [] s with
    | none => finish j 0x42 0 0 s
    | some eb =>
      match grow x.append p (if x.block.group = x.append.group then eb.runs.drop (x.block.runs.length - 1) else []) s with
      | none => finish j 0x42 0 0 s
      | some ep =>
        journal .journal j (.resize w eb ep) 0 s
/-- RESIZE_WARD. -/
def execResizeWard (job : Nat) (s : State) : Host.Outcome State Fault Refusal :=
  .next (runAdmin job 0x4B (withKey resizeWard) s)

/-- SET_WARD_RINGS (R134, R181): nothing is fetched for the ward until its COMMIT. -/
def setWardRings (w : WardId) (j : Job) (s : State) : State :=
  if (s.ward w).ring.chain.isSome ∨ s.ring.jobs.any (fun k => decide (k.ctx = .ward w)) then malformedOpen j s
  else journal .journal j .entry 0 s
/-- SET_WARD_RINGS. -/
def execSetWardRings (job : Nat) (s : State) : Host.Outcome State Fault Refusal :=
  .next (runAdmin job 0x4C (withKey setWardRings) s)
/-- SET_WARD_SCHED (R120, R151, R181). -/
def setWardSched (w : WardId) (j : Job) (s : State) : State :=
  if !(s.ward w).configured then malformedOpen j s else journal .journal j .entry 0 s
/-- SET_WARD_SCHED. -/
def execSetWardSched (job : Nat) (s : State) : Host.Outcome State Fault Refusal :=
  .next (runAdmin job 0x4D (withKey setWardSched) s)

/-- FLUSH_QUEUE as it begins (steps 1 and 2 of R154): the ward's turn ends; a read that is out stays, and its entry is
flushed when it comes. -/
def flushBegin (j : Job) (s : State) : State :=
  let w := j.named
  if (s.ward w).flush.isSome then holdReset j s
  else if s.ledgerDead then finish j 0x12 0 0 s
  else
    let s1 := s.setJob { j with phase := .running }
    let (n, s2) := abortWard w (if s1.ring.turn = some w then endTurn s1 else s1)
    flushStep w (s2.updWard w (fun x => { x with
      flush := some { job := j.id, tail := x.ring.sqTail, at_ := s2.clk.beat, aborted := n } }))
/-- FLUSH_QUEUE (R154): a command that begins, or one that runs and goes on. -/
def execFlushQueue (job : Nat) (s : State) : Host.Outcome State Fault Refusal :=
  .next (match s.jobFor job 0x4E true with
    | some j => if j.phase = .running ∧ s.awake then flushStep j.named s else runAdmin job 0x4E flushBegin s
    | none => s)

/-- HELD_COMMAND_EVAL (R51, R156, R158, R179, R180): what a held command waited for has ended (DEDUCED, log 13). -/
def heldEval (id : Nat) (s : State) : State :=
  match s.job id with
  | none => s
  | some j =>
    if j.phase = .heldIntent then
      match stepEight j s with
      | .inl .heldIntent => s
      | _ => admitJob j s
    else if j.phase = .heldReset then
      if holds j s || blocked j s then s
      else if turnedAway j s then finish j 0x12 0 0 s
      else
        let st := (s.ward j.named).state
        if j.op = 0x4E ∨ (j.op = 0x4A ∧ st = .sealed) then journal .journal j .none 0 s
        else s.setJob { j with phase := if opMoves j.op.toNat ∧ j.data ≠ [] then .dataIn else .ready }
    else s
/-- HELD_COMMAND_EVAL. -/
def execHeldCommandEval (job : Nat) (s : State) : Host.Outcome State Fault Refusal :=
  .next (if s.awake then heldEval job s else s)

/-! Capture, groups, caches and the event log. -/

/-- An entry image carries a reserved encoding (R199, R200). -/
def tumbReserved (b : Bytes) : Bool :=
  let ctrl := (byteAt 0 b).toNat
  let tags := (byteAt 1 b).toNat
  let rate := fieldAt 0x2A 2 b
  let burst := fieldAt 0x2C 2 b
  decide (ctrl / 8 % 2 = 1) ||
  decide (ctrl % 2 = 1) &&
  (decide (ctrl / 2 % 4 = 0) || decide (tags % 4 = 3) || decide (tags / 4 % 4 = 3) ||
   decide (15 < tags) || decide (15 < (byteAt 0x27 b).toNat) || decide (144 < (byteAt 0x28 b).toNat) ||
   decide (16 < (byteAt 0x29 b).toNat) || decide ((burst = 0) ≠ (rate = 0)) || (slice 0x2E 18 b).any (· != 0))
/-- The images of a TUMBLER_WRITE. -/
def tumbImages (j : Job) : List Bytes :=
  (List.range (j.cmd 0x22 2)).map (fun i => slice (64 * i) 64 j.data)
/-- TUMBLER_WRITE (R182, R183). -/
def tumblerWrite (j : Job) (s : State) : State :=
  if 8192 < j.cmd 0x20 2 + j.cmd 0x22 2 then finish j 0x24 0 0 s
  else if j.phase ≠ .dataIn then askData j s
  else if (tumbImages j).any tumbReserved then malformedOpen j s
  else journal .journal j (.tumbler (j.cmd 0x20 2) (tumbImages j)) 0 s
/-- TUMBLER_WRITE. -/
def execTumblerWrite (job : Nat) (s : State) : Host.Outcome State Fault Refusal :=
  .next (runAdmin job 0x50 tumblerWrite s)

/-- A cell belongs to a group other than `g`. -/
def inOther (g : GroupId) (c : CellId) (s : State) : Bool :=
  allGroups.any (fun h => h != g && (s.group h).defined && ((s.group h).members.contains c || (s.group h).spare == some c))
/-- SPARE breaks the rules of R184. -/
def badSpare (g : GroupId) (members : List CellId) (sp : Option CellId) (s : State) : Bool :=
  match sp with
  | some c => members.contains c || inOther g c s
  | none => false
/-- A GROUP_SET with this ACTION. -/
def groupSet (job action : Nat) (f : Job → State → State) (s : State) : State :=
  match s.jobFor job 0x51 true with
  | some j => if j.cmd 0x21 1 = action then runAdmin job 0x51 f s else s
  | none => s
/-- GROUP_SET CREATE (R184, R248, R251, R259). -/
def groupCreate (j : Job) (s : State) : State :=
  let ms := j.members
  if (s.group j.grp).defined then malformed j 0x20 s
  else if badSpare j.grp ms j.spare s then malformed j 0x23 s
  else if ms.length < (if j.cmd 0x22 1 = 3 then 4 else 3) ∨ ms.any (fun c => inOther j.grp c s) then malformed j 0x24 s
  else journal .journal j .entry 0 s
/-- GROUP_SET_CREATE. -/
def execGroupSetCreate (job : Nat) (s : State) : Host.Outcome State Fault Refusal := .next (groupSet job 1 groupCreate s)
/-- GROUP_SET SET_SPARE (R184, R272). -/
def groupSpare (j : Job) (s : State) : State :=
  let g := s.group j.grp
  if !g.defined then finish j 0x24 0 0 s
  else if g.rebuild.active || g.rebuild.paused then finish j 0x42 0 0 s
  else if badSpare j.grp g.members j.spare s then malformed j 0x23 s
  else journal .journal j .entry 0 s
/-- GROUP_SET_SET_SPARE. -/
def execGroupSetSetSpare (job : Nat) (s : State) : Host.Outcome State Fault Refusal := .next (groupSet job 2 groupSpare s)
/-- Some ward extent lies in the group. -/
def groupUsed (g : GroupId) (s : State) : Bool := (extents s).any (fun e => e.group == g && e.runs != [])
/-- GROUP_SET DELETE (R184, R262) (DEDUCED, log 19). -/
def groupDelete (j : Job) (s : State) : State :=
  if !(s.group j.grp).defined then finish j 0x24 0 0 s
  else if groupUsed j.grp s then finish j 0x42 0 0 s
  else journal .journal j .entry 0 s
/-- GROUP_SET_DELETE. -/
def execGroupSetDelete (job : Nat) (s : State) : Host.Outcome State Fault Refusal := .next (groupSet job 3 groupDelete s)

/-- A REBUILD_CTRL or SCRUB_CTRL with this ACTION, on a defined group (R185). -/
def workCtrl (job op action : Nat) (f : Job → State → State) (s : State) : State :=
  match s.jobFor job op true with
  | some j =>
    if j.cmd 0x21 1 = action then
      runAdmin job op (fun j s => if (s.group j.grp).defined then f j s else finish j 0x24 0 0 s) s
    else s
  | none => s
/-- REBUILD_CTRL START (R185, R268, R272). -/
def rebuildStart (j : Job) (s : State) : State :=
  let g := s.group j.grp
  match g.members.findIdx? (· == cellOf (j.cmd 0x22 1)) with
  | none => finish j 0x24 0 0 s
  | some m =>
    if g.rebuild.active ∧ g.rebuild.member ≠ m then finish j 0x42 0 0 s
    else if !g.rebuild.active ∧ g.spare.isNone then finish j 0x42 0 0 s
    else journal .journal j .entry 0 s
/-- REBUILD_CTRL_START. -/
def execRebuildCtrlStart (job : Nat) (s : State) : Host.Outcome State Fault Refusal :=
  .next (workCtrl job 0x52 1 rebuildStart s)
/-- REBUILD_CTRL STOP, SCRUB_CTRL START and SCRUB_CTRL STOP (R185, R272, R273). -/
def workJournal (j : Job) (s : State) : State := journal .journal j .entry 0 s
/-- REBUILD_CTRL_STOP. -/
def execRebuildCtrlStop (job : Nat) (s : State) : Host.Outcome State Fault Refusal :=
  .next (workCtrl job 0x52 2 workJournal s)
/-- SCRUB_CTRL_START. -/
def execScrubCtrlStart (job : Nat) (s : State) : Host.Outcome State Fault Refusal :=
  .next (workCtrl job 0x53 1 workJournal s)
/-- SCRUB_CTRL_STOP. -/
def execScrubCtrlStop (job : Nat) (s : State) : Host.Outcome State Fault Refusal :=
  .next (workCtrl job 0x53 2 workJournal s)

/-- WAY_RESTORE (R186, R225): it is held while a named way still destages. -/
def wayRestore (j : Job) (s : State) : State :=
  let m := BitVec.ofNat 16 (j.cmd 0x20 2)
  if s.cache.drain.any (fun p => m.getLsbD p.1) then s else journal .journal j .entry 0 s
/-- WAY_RESTORE. -/
def execWayRestore (job : Nat) (s : State) : Host.Outcome State Fault Refusal := .next (runAdmin job 0x54 wayRestore s)

/-- An EVENT_LOG_SET with this ENABLE (R363). -/
def eventLogSet (job on : Nat) (s : State) : State :=
  match s.jobFor job 0x55 true with
  | some j => if j.cmd 0x29 1 = on then runAdmin job 0x55 (fun j s => journal .journal j .entry 0 s) s else s
  | none => s
/-- EVENT_LOG_SET_ENABLE. -/
def execEventLogSetEnable (job : Nat) (s : State) : Host.Outcome State Fault Refusal := .next (eventLogSet job 1 s)
/-- EVENT_LOG_SET_DISABLE. -/
def execEventLogSetDisable (job : Nat) (s : State) : Host.Outcome State Fault Refusal := .next (eventLogSet job 0 s)

end Sys2Proof.Machine
end

