-- ==== Sys2Proof/Machine/Channel.lean ====
section
/-! DEFINITION. Where a cell block lies on a cell (R283, R285–R288) and what the write channel emits for a sector: the
data field with its Reed–Solomon symbols (R290), the RLL code (R291) and the framing (R289). -/

namespace Sys2Proof.Machine

/-! Geometry of a cell. -/

/-- One zone: first track, user tracks, sectors per track, N and the slot L (R285). -/
structure Zone where
  first : Nat
  user : Nat
  sectors : Nat
  n : Nat
  slot : Nat
/-- The zone table (R285). -/
def zoneTable : List Zone := [
  ⟨0, 83286, 112, 711, 9208⟩, ⟨87382, 83286, 108, 685, 9549⟩, ⟨174764, 83286, 104, 660, 9916⟩,
  ⟨262146, 83286, 100, 635, 10312⟩, ⟨349528, 83285, 96, 609, 10742⟩, ⟨436909, 83285, 92, 584, 11209⟩,
  ⟨524290, 83285, 88, 558, 11719⟩, ⟨611671, 83285, 84, 533, 12277⟩, ⟨699052, 83285, 80, 507, 12891⟩,
  ⟨786433, 83285, 76, 482, 13569⟩, ⟨873814, 83285, 72, 456, 14323⟩, ⟨961195, 83285, 68, 431, 15166⟩]
/-- A place on a cell. -/
structure Place where
  zone : Nat
  track : Nat
  surface : Nat
  sector : Nat
deriving DecidableEq, Repr
/-- R287 over the zones from `z` on. -/
def placeIn : List Zone → Nat → Nat → Place
  | [], z, _ => ⟨z, 0, 1, 0⟩
  | x :: t, z, n =>
    let per := 5 * x.sectors
    if n < per * x.user then ⟨z, x.first + n / per, 1 + n % per / x.sectors, n % per % x.sectors⟩
    else placeIn t (z + 1) (n - per * x.user)
/-- Where cell block `n` lies, remapping apart (R287). -/
def locateCell (n : Nat) : Place := placeIn zoneTable 0 n
/-- The zone of a cell block. -/
def zoneOf (n : Nat) : Nat := (locateCell n).zone
/-- The zone that holds a track (R285). -/
def zoneOfTrack (t : Nat) : Nat := ((zoneTable.filter (fun z => decide (z.first ≤ t))).length) - 1
/-- Spare sector `k` of a zone and surface: tracks, then sectors, ascending (R285, R288). -/
def spareSector (z surface k : Nat) : Place :=
  let x := zoneTable.getD z ⟨0, 0, 1, 0, 0⟩
  ⟨z, x.first + x.user + k / x.sectors, surface, k % x.sectors⟩
/-- Where cell block `n` of a cell lies: its spare sector when the remap table holds it (R287, R288)
(DESIGN CHOICE, log 10). -/
def Cell.place (x : Cell) (n : Nat) : Place :=
  let p := locateCell n
  match x.remap.get 0 n with
  | 0 => p
  | k + 1 => spareSector p.zone p.surface k
/-- The cycle at which wedge `w`'s window begins (R283). -/
def windowStart (w : Nat) : Nat := w * 1048576 / 360
/-- The cycle of data cycle `d` (R283). -/
def dataCycle (d : Nat) : Nat :=
  let w := ((List.range 360).filter (fun w => decide (windowStart w - 48 * w ≤ d))).length - 1
  d + 48 * (w + 1)
/-- The cycle at which a place's slot begins (R286). -/
def slotCycle (p : Place) : Nat := dataCycle (p.sector * (zoneTable.getD p.zone ⟨0, 0, 1, 0, 0⟩).slot)

/-! The data field. -/

/-- Multiplication by α in GF(2^10) modulo x^10 + x^3 + 1 (R290). -/
def rsDouble (a : BitVec 10) : BitVec 10 := if a.getLsbD 9 then (a <<< 1) ^^^ 0x009 else a <<< 1
/-- The product in GF(2^10) over the low `n` bits of `b`. -/
def rsMul : Nat → BitVec 10 → BitVec 10 → BitVec 10
  | 0, _, _ => 0
  | n + 1, a, b => (if b.getLsbD 0 then a else 0) ^^^ rsMul n (rsDouble a) (b >>> 1)
/-- α to the power `n`. -/
def rsPow : Nat → BitVec 10
  | 0 => 1
  | n + 1 => rsDouble (rsPow n)
/-- A polynomial, highest power first, times (x − r). -/
def rsTimes (r : BitVec 10) (p : List (BitVec 10)) : List (BitVec 10) :=
  List.zipWith (· ^^^ ·) (p ++ [0]) (0 :: p.map (rsMul 10 r))
/-- The generator ∏ (x − α^i) for i = 0–11, highest power first (R290). -/
def rsGen : List (BitVec 10) := (List.range 12).foldl (fun p i => rsTimes (rsPow i) p) [1]
/-- The 12 check symbols of one interleave's message (R290). -/
def rsCheck (msg : List (BitVec 10)) : List (BitVec 10) :=
  msg.foldl (fun rem m =>
    let k := m ^^^ rem.headD 0
    List.zipWith (· ^^^ ·) (rem.drop 1 ++ [0]) (rsGen.tail.map (rsMul 10 k))) (List.replicate 12 0)

/-- The bits of a byte string, bit 7 of each byte first. -/
def bitsOf (b : Bytes) : List Bool := b.flatMap (fun x => (List.range 8).map (fun i => x.getLsbD (7 - i)))
/-- `n` symbols of 10 bits, first bit most significant (R290). -/
def symbols : Nat → List Bool → List (BitVec 10)
  | 0, _ => []
  | n + 1, l => BitVec.ofNat 10 ((l.take 10).foldl (fun a b => 2 * a + bit b) 0) :: symbols n (l.drop 10)
/-- The bits of symbols. -/
def symbolBits (l : List (BitVec 10)) : List Bool :=
  l.flatMap (fun x => (List.range 10).map (fun i => x.getLsbD (9 - i)))
/-- Interleave `i` of a symbol list (R290). -/
def interleave (i : Nat) (l : List (BitVec 10)) : List (BitVec 10) :=
  (l.zipIdx.filter (fun p => p.2 % 4 == i)).map Prod.fst
/-- The 48 check symbols of 3,328 message symbols. -/
def checkSymbols (msg : List (BitVec 10)) : List (BitVec 10) :=
  let c := (List.range 4).map (fun i => rsCheck (interleave i msg))
  (List.range 48).map (fun k => (c.getD (k % 4) []).getD (k / 4) 0)
/-- The bits of the 4,220-byte data field (R290). -/
def dataFieldBits (x : Sector) : List Bool :=
  let m := bitsOf (fit 4096 x.data ++ sectorTag x)
  m ++ symbolBits (checkSymbols (symbols 3328 m))

/-! The channel code. -/

/-- The word of a pair (R291). -/
def rllWord (a b : Bool) : List Bool :=
  match a, b with
  | false, false => [true, false, true]
  | false, true => [true, false, false]
  | true, false => [false, false, true]
  | true, true => [false, true, false]
/-- The RLL (1,7) code of a segment (R291): pairs 00 or 10 before 00 or 01 take the substitute. -/
def rllEncode : List Bool → List Bool
  | a :: b :: c :: d :: t =>
    if !b && !c then rllWord a d ++ [false, false, false] ++ rllEncode t else rllWord a b ++ rllEncode (c :: d :: t)
  | [a, b] => rllWord a b
  | _ => []
/-- The pair of a word; none where it fits no column (R291). -/
def rllPair (x y z : Bool) : Option (Bool × Bool) :=
  match x, y, z with
  | true, false, true => some (false, false)
  | true, false, false => some (false, true)
  | false, false, true => some (true, false)
  | false, true, false => some (true, true)
  | _, _, _ => none
/-- The decoder (R291): the bits and, for each pair, whether its word fitted. -/
def rllDecode : List Bool → List ((Bool × Bool) × Bool)
  | x :: y :: z :: p :: q :: r :: t =>
    match rllPair x y z with
    | some (a, b) =>
      if !p && !q && !r then ((a, false), true) :: ((false, b), true) :: rllDecode t
      else ((a, b), true) :: rllDecode (p :: q :: r :: t)
    | none => ((false, false), false) :: rllDecode (p :: q :: r :: t)
  | [x, y, z] =>
    match rllPair x y z with
    | some p => [(p, true)]
    | none => [((false, false), false)]
  | _ => []

/-- A word's bits, most significant first. -/
def msbBits (n v : Nat) : List Bool := (List.range n).map (fun i => v / 2 ^ (n - 1 - i) % 2 = 1)
/-- The 50,880 channel bits of a sector (R289) (DESIGN CHOICE, log 10). -/
def channelBits (x : Sector) : List Bool :=
  let d := dataFieldBits x
  (List.replicate 48 [true, false, false]).flatten ++ msbBits 24 0x402012 ++ rllEncode (d.take 768) ++
  msbBits 24 0x402402 ++ rllEncode (d.drop 768 ++ List.replicate 32 false)

/-- A mark is accepted at an offset where at most one bit differs (R292). -/
def markAt (mark : List Bool) (at_ : Nat) (l : List Bool) : Bool :=
  decide (((List.zip mark ((l.drop at_).take 24)).filter (fun p => p.1 != p.2)).length ≤ 1)
/-- The offset chosen for a mark expected at `at_`: nearest 0, the earlier of two equally near (R292). -/
def findMark (mark : List Bool) (at_ : Nat) (l : List Bool) : Option Int :=
  ([0, -1, 1, -2, 2, -3, 3] : List Int).find? (fun e => markAt mark ((at_ : Int) + e).toNat l)

end Sys2Proof.Machine
end

