-- ==== Sys2Proof/Machine/Media.lean ====
section
/-! DEFINITION. Media reads and dual-path recovery (R258, R260, R263–R267, R297–R299), what a filled sub-block brings to
the Stripe Cache and to the READ jobs that wait for it (R168, R213, R217–R220), and the rows SECTOR_READ, CACHE_FILL,
RETRY_PASS. -/

namespace Sys2Proof.Machine

/-! Cells that can be used. -/

/-- The cell serves media requests (R299, R312, R316). -/
def Cell.usable (x : Cell) : Bool :=
  x.ready && decide (x.bring = .ready) && x.servo.loaded && !x.servo.reacquiring && !x.arm.parking && x.closing.isNone
/-- A read can be made: the cell is read-settled (R313, R315). -/
def Cell.readable (x : Cell) : Bool := x.usable && x.servo.tracking && !x.servo.seeking
/-- The three conditions of R314 as the last wedge left them. -/
def Servo.gateOpen (v : Servo) : Bool :=
  v.writeSettled && v.estimate.isSome && decide (v.err.natAbs < 31) &&
  (v.run == 0 || (decide (v.run ≤ 2) && decide (v.err.natAbs ≤ 15) && decide (2 ≤ v.goodBefore)))
/-- A sector write can be made on the cell (R295, R314). -/
def Cell.writable (x : Cell) : Bool := x.readable && x.servo.gateOpen
/-- Where a sub-block lies on a cell (R251, R287, R288). -/
def placeOn (c : CellId) (a : SubAddr) (s : State) : Place := (s.cell c).place (16 * a.stripe + a.sub)
/-- The cell's target is the sub-block's track and surface. -/
def onTrack (c : CellId) (a : SubAddr) (s : State) : Bool :=
  let p := placeOn c a s
  decide ((s.cell c).servo.target = 256 * (p.track : Int)) && (s.cell c).servo.surface == p.surface
/-- A seek or a head switch begins (R308, R313): a new history, the integral cleared; a move of the target is a seek. -/
def startSeek (c : CellId) (track : Int) (surface : Nat) (s : State) : State :=
  let v := (s.cell c).servo
  let s1 := if v.target = track then s else bump (cCell c 0xB8) 1 s
  let s2 := if v.surface = surface then s1 else armSend c 0x1 surface s1
  s2.updServo c (fun v => { v with
    target := track, surface := surface, seeking := true, tracking := false, writeSettled := false
    readRun := 0, writeRun := 0, run := 0, goodRun := 0, goodBefore := 0, integral := 0
    prevErr := match v.estimate with | some y => y - track | none => 0
    refs := if v.surface = surface then v.refs else [], seekAt := s.clk.beat })
/-- The write a cell makes next (R224, R323): a torn sector first, then a retired way's destage. -/
def Cell.nextWrite (x : Cell) : Option QWrite :=
  match x.queue.find? (·.torn) with
  | some q => some q
  | none => match x.queue.find? (·.drain) with
    | some q => some q
    | none => x.queue.head?
/-- The request a cell serves next (R299, R323): that of the retry in progress; writes first while the write queue holds
48 or more, else reads first. -/
def nextRequest (c : CellId) (s : State) : Option SubAddr :=
  let x := s.cell c
  let write := x.nextWrite.map QWrite.addr
  let read := (s.reads.find? (fun r => r.cell == c && (r.img.isNone || decide (r.why = .verify)))).map MediaRead.addr
  match x.retry with
  | some k => (s.recoveries.find? (fun r => r.key == k)).map Recovery.addr
  | none =>
    if 48 ≤ x.queue.length then write
    else match read with
    | some a => some a
    | none => write
/-- A cell turns to its next request: it seeks where the request lies on another track or surface (R313). -/
def serveNext (c : CellId) (s : State) : State :=
  let x := s.cell c
  if !s.inService || !x.usable || x.writing.isSome || x.servo.seeking then s
  else match nextRequest c s with
  | none => s
  | some a =>
    if onTrack c a s then s
    else startSeek c (256 * ((placeOn c a s).track : Int)) (placeOn c a s).surface s
/-- A media request comes for a cell: its idle count ends, and a parked cell is loaded (R311, R312). -/
def requestCell (c : CellId) (s : State) : State :=
  let x := s.cell c
  let x1 := { x with idle := 0 }
  if s.inService && x.ready && decide (x.bring = .ready) && !x.servo.loaded && x.closing.isNone then
    s.setCell c { x1 with
      bring := .loading, since := s.clk.beat, clockLock := false
      arm := { x1.arm with parking := false }, servo := { x1.servo with loaded := true, heard := false, frames := [] } }
  else s.setCell c x1

/-! What stands on die. -/

/-- A deferred delta that is not resolved names the DATA record at this address (R236). -/
def deferredOn (a : SubAddr) (s : State) : Bool :=
  s.ledger.intents.any (fun i =>
    i.datas.any (fun d => d.live && d.addr == a) &&
    i.parities.any (fun p => p.live && p.deferred.isSome && p.addr.group == a.group && p.addr.stripe == a.stripe &&
      p.addr.sub == a.sub))
/-- The live committed parity deltas that can be folded, oldest first, each with its intent. -/
def liveDeltas (a : SubAddr) (s : State) : List (Intent × ParRec) :=
  s.ledger.intents.flatMap (fun i =>
    if i.phase = .committed ∧ !i.replay then
      (i.parities.filter (fun p => p.live && p.deferred.isNone && p.addr == a)).map (fun p => (i, p))
    else [])
/-- Parity as read, with every live committed delta folded in (R237, R255, R257) (DEDUCED, log 21). -/
def foldLive (a : SubAddr) (x : Sector) (s : State) : Sector :=
  (liveDeltas a s).foldl (fun x p =>
    paritySector a (p.2.kind.toNat + 1)
      (if p.2.full then p.2.delta else xorBytes x.data p.2.delta)
      (if p.2.full then p.2.covDelta else xorBytes x.cov p.2.covDelta) p.1.boot p.2.serial) x

/-! Fills. -/

/-- Two sub-blocks lie in one stripe unit. -/
def sameUnit (a b : SubAddr) : Bool := a.group == b.group && a.stripe == b.stripe && a.column == b.column
/-- A read or a recovery that brings its sub-block into a line (R212). -/
def MediaRead.fills (r : MediaRead) : Bool := !r.around && decide (r.why ≠ .verify)
/-- A fill of the sub-block is on its way: its read or its recovery. -/
def filling (a : SubAddr) (s : State) : Bool :=
  s.reads.any (fun r => r.addr == a && r.fills) || s.recoveries.any (fun r => r.addr == a && !r.around)
/-- A read of the sub-block is on its way, into a line or past the cache. -/
def coming (a : SubAddr) (s : State) : Bool :=
  s.reads.any (fun r => r.addr == a && decide (r.why ≠ .verify)) || s.recoveries.any (fun r => r.addr == a)
/-- BUSY follows the fills that are in flight (R212). -/
def settleBusy (a : SubAddr) (s : State) : State :=
  match findLine a s with
  | some k =>
    let on := s.reads.any (fun r => sameUnit r.addr a && r.fills) || s.recoveries.any (fun r => sameUnit r.addr a && !r.around)
    let l : Line := { s.line k with busy := on }
    s.setLine k (if l.subs = [] ∧ !on then {} else l)
  | none => s
/-- The channel settings with which a sector begins (R293, R294). -/
def beginSector (c : CellId) (block : Nat) (s : State) : State :=
  s.updCell c (fun x => { x with chan :=
    (s.reg (0x12100 + 0x400 * c.val + 4 * zoneOf block), (s.reg (0x12004 + 0x400 * c.val)).setWidth 8) })
/-- Queue a media read of a sub-block on the cell that holds it. -/
def addRead (a : SubAddr) (why : ReadFor) (cls : Nat) (around : Bool) (path : Option Nat) (s : State) : State :=
  let c := (s.group a.group).cellOf a.stripe a.column
  let s1 := requestCell c s
  serveNext c { s1 with
    reads := s1.reads ++ [{ key := s1.nextRead, addr := a, cell := c, why, cls := BitVec.ofNat 3 cls, path, around }]
    nextRead := s1.nextRead + 1 }
/-- Allocate a BUSY line in way `v` for a stripe unit (R212, R220). -/
def allocLine (cls v : Nat) (a : SubAddr) (s : State) : State :=
  let k := 16 * cacheSet a + v
  let s1 := if (s.line k).valid then bump (cWay v 3) 1 s else s
  bump (cWay v 2) 1 (touch k (s1.setLine k { group := a.group, stripe := a.stripe, column := a.column,
                                             cls := BitVec.ofNat 3 cls, busy := true }))
/-- The line that a fill enters is BUSY (R212, R220): the one there is, else a new one, counted as a miss; false where no
way qualifies. -/
def claim (cls : Nat) (a : SubAddr) (s : State) : Bool × State :=
  match findLine a s with
  | some k => (true, touch k (bump (cWay (k % 16) 1) 1 (s.setLine k { s.line k with busy := true })))
  | none => match victim cls (cacheSet a) s with
    | some v => (true, bump (cWay v 1) 1 (allocLine cls v a s))
    | none => (false, s)
/-- What a verified sector enters the cache as (R217, R221, R255): clean, or, parity with live deltas, dirty with them folded
in, under the policy that retains longest, and queued where that policy, or a destage that asked for it, says so. -/
def filled (asked : Bool) (a : SubAddr) (x : Sector) (s : State) : Sub :=
  let ds := liveDeltas a s
  if (s.group a.group).d ≤ a.column ∧ ds ≠ [] then
    let p := ds.foldl (fun m d => min m d.1.policy) 2
    { sector := foldLive a x s, dirty := true, policy := BitVec.ofNat 3 p, queued := asked || queuesAtCommit p }
  else { sector := x }
/-- A verified sector enters its line, or one that can be had (R213, R217, R255). What is on die already is newer and
stays. -/
def fillLine (cls : Nat) (asked : Bool) (a : SubAddr) (x : Sector) (s : State) : State :=
  if (onDie a s).isSome then s
  else if (findLine a s).isSome || (victim cls (cacheSet a) s).isSome then install cls a (filled asked a x s) s
  else s

/-! READ jobs. -/

/-- A sub-block as a READ of this ward sees it (R63): zeros unless its tag names the ward and its epoch. -/
def plainOf (w : WardId) (space block : Nat) (x : Sector) (keys : BitVec 512) (s : State) : Option Bytes :=
  if secWritten x && fieldAt 2 2 x.cov == w.val && fieldAt 4 4 x.cov == (s.ward w).epoch.toNat then
    some (decBlock keys space w (s.ward w).epoch block x.data)
  else none
/-- How a block was supplied: 0 read, 1 parity, 2 averaging retry (R266). -/
def supplied (how : Nat) (p : Option Bytes) : BlkRes :=
  match how, p with
  | 0, some d => .plain d
  | 0, none => .zero
  | 1, d => .parity (d.getD (zeros 4096))
  | _, d => .retried (d.getD (zeros 4096))
/-- The bytes a block contributes (R168): zeros where it failed. -/
def BlkRes.bytes : BlkRes → Bytes
  | .plain d => d
  | .parity d => d
  | .retried d => d
  | _ => zeros 4096
/-- Blocks of a READ that came from parity, and from the averaging retry. -/
def parityCount (l : List BlkRes) : Nat := (l.filter (fun b => match b with | .parity _ => true | _ => false)).length
/-- Blocks that came from the averaging retry. -/
def retryCount (l : List BlkRes) : Nat := (l.filter (fun b => match b with | .retried _ => true | _ => false)).length
/-- Every block of a READ is known: the data goes to the host and the job completes (R168, R187, R188). -/
def endRead (j : Job) (s : State) : State :=
  let s1 := scatter j.segs (j.blks.flatMap BlkRes.bytes) s
  match j.blks.findIdx? (fun b => decide (b = .unrecoverable) || decide (b = .integrity)) with
  | some i => finish j (if j.blks.getD i .wait = .integrity then 0x41 else 0x40) 0 i s1
  | none =>
    let p := parityCount j.blks
    let r := retryCount j.blks
    finish j (if 0 < p then 0x01 else if 0 < r then 0x02 else 0x00) 0 (p + 65536 * r) s1
/-- The block is still to come. -/
def BlkRes.waits : BlkRes → Bool
  | .wait => true
  | .blocked _ _ => true
  | _ => false
/-- A READ with these blocks waits on, or ends. -/
def settleRead (j : Job) (s : State) : State :=
  if j.blks.any BlkRes.waits then s.setJob j else endRead j s
/-- The ward of a job. -/
def Job.ward (j : Job) : WardId := match j.ctx with | .ward w => w | .admin => 0
/-- Block `i` of a READ stands as `b`. -/
def setBlk (id i : Nat) (b : BlkRes) (s : State) : State :=
  match s.job id with
  | some j => s.setJob { j with blks := j.blks.set i b }
  | none => s
/-- Answer every block that waits for a sub-block; `f` gives the answer for a ward, space and block, with its keys. -/
def answerReads (a : SubAddr) (f : WardId → Nat → Nat → BitVec 512 → BlkRes) (s : State) : State :=
  (s.ring.jobs.filter (fun j => decide (j.phase = .media))).foldl (fun s j =>
    match s.kccEntry j.ward with
    | none => s
    | some e =>
      let blks := j.blks.zipIdx.map (fun p =>
        let n := j.range.2.1 + p.2
        if p.1.waits ∧ locate j.ward j.range.1 n s = some a then f j.ward j.range.1 n e.keys else p.1)
      if blks = j.blks then s else settleRead { j with blks := blks } s) s
/-- A sub-block has been supplied to the reads that wait for it. -/
def serveReads (a : SubAddr) (x : Sector) (how : Nat) (s : State) : State :=
  answerReads a (fun w sp n k => supplied how (plainOf w sp n x k s)) s

/-! Recovery. -/

/-- Columns of the row that are lost to this recovery (R260, R263, R264, R267): those on FAILED members, its own, those whose
read was not verified, and those that another recovery is after. -/
def lostCols (g : Group) (r : Recovery) (s : State) : List Nat :=
  (List.range g.n).filter (fun c => g.lostCol r.addr.stripe c || c == r.addr.column || r.lost.contains c ||
    (!(r.got.any (fun p => p.1 == c)) &&
      s.recoveries.any (fun q => q.key != r.key && q.addr == { r.addr with column := c })))
/-- The columns the parity path uses (R260): the data columns that are left and as many parity columns as data columns
are lost, P, then Q, then R. -/
def pathCols (g : Group) (r : Recovery) (s : State) : List Nat :=
  let lost := lostCols g r s
  (List.range g.d).filter (fun c => !lost.contains c) ++
  (((List.range g.level).map (g.d + ·)).filter (fun c => !lost.contains c)).take (lost.filter (fun c => decide (c < g.d))).length
/-- A column of the row as it stands on die, where that agrees with the row's parity (DEDUCED, log 21). -/
def columnOnDie (a : SubAddr) (s : State) : Option Sector :=
  if deferredOn a s then none
  else match cached a s with
  | some x => some x.sector
  | none => if a.column < (s.group a.group).d then ledgerData a s else none
/-- The sub-block a complete parity path yields (R254, R260): lost data solved from the row, parity recomputed from the
data columns, with key zero (DEDUCED, log 21). -/
def rebuilt (g : Group) (r : Recovery) (s : State) : Option Sector :=
  let lostData := (lostCols g r s).filter (fun c => decide (c < g.d))
  let solved := rebuildRow g.d lostData r.got
  if r.addr.column < g.d then
    (solved.find? (fun p => p.1 == r.addr.column)).map (fun p => dataSector r.addr (p.2.take 4096) (p.2.drop 4096))
  else
    let rows := (r.got.filter (fun p => decide (p.1 < g.d))).map (fun p => (p.1, secProt p.2)) ++ solved
    let k := r.addr.column - g.d
    let b := paritySum k 4144 rows
    some (paritySector r.addr (k + 1) (b.take 4096) (b.drop 4096) 0 0)
/-- The recovery with this key. -/
def State.recovery (s : State) (k : Nat) : Option Recovery := s.recoveries.find? (fun r => r.key == k)
/-- Replace a recovery. -/
def State.setRecovery (s : State) (r : Recovery) : State :=
  { s with recoveries := listUpd (fun x => x.key == r.key) (fun _ => r) s.recoveries }
/-- The averaging buffer of a cell goes to the next retry that waits (R297). -/
def nextRetry (c : CellId) (s : State) : State :=
  let x := s.cell c
  match x.retryWait with
  | [] => s.setCell c { x with retry := none }
  | k :: t => s.setCell c { x with retry := some k, retryWait := t }
/-- A retry ends or is cancelled: the buffer is freed (R265, R299). -/
def dropRetry (k : Nat) (c : CellId) (s : State) : State :=
  if (s.cell c).retry = some k then nextRetry c s
  else s.updCell c (fun x => { x with retryWait := x.retryWait.filter (· != k) })
/-- Queue the repair of a sector on cell `c` (R266); it is skipped where the member is FAILED. -/
def queueRepair (c : CellId) (a : SubAddr) (x : Sector) (s : State) : State :=
  let g := s.group a.group
  if g.lostCol a.stripe a.column || g.cellOf a.stripe a.column != c then s
  else
    let q : QWrite := { addr := a, sector := x, key := s.nextRead, repair := true }
    { (s.updCell c (fun y => { y with queue := y.queue ++ [q] })) with nextRead := s.nextRead + 1 }
/-- A sector write joins a cell's queue (R320). -/
def enqueueWrite (c : CellId) (a : SubAddr) (x : Sector) (s : State) : State :=
  let q : QWrite := { addr := a, sector := x, key := s.nextRead, drain := s.cache.drain.any (fun p => p.2 == a) }
  { (s.updCell c (fun y => { y with queue := y.queue ++ [q] })) with nextRead := s.nextRead + 1 }
/-- A retired way's sub-block still drains (R224). -/
def draining (a : SubAddr) (s : State) : Bool := s.cache.drain.any (fun p => p.2 == a)
/-- The cell's write queue takes one more ordinary write, or, with the held-back entry, one of a drain (R320). -/
def queueOpen (c : CellId) (a : SubAddr) (s : State) : Bool :=
  decide ((s.cell c).queue.length < (if draining a s then 64 else 63))
/-- A sub-block reaches the reads that wait for it; what is on die already is newer. -/
def supply (a : SubAddr) (x : Sector) (how : Nat) (s : State) : State :=
  match onDie a s with
  | some y => serveReads a y 0 s
  | none => serveReads a x how s
/-- What a supplied sub-block brings (R213, R217, R236, R245): its line takes it, unless it goes past the cache; old parity of
a retired way goes straight to its write (R224). -/
def deliver (why : ReadFor) (cls : Nat) (around : Bool) (a : SubAddr) (x : Sector) (how : Nat) (s : State) : State :=
  match why with
  | .fill => settleBusy a (if around then supply a x how s else fillLine cls false a x (supply a x how s))
  | .oldParity =>
    let c := (s.group a.group).cellOf a.stripe a.column
    if !around then settleBusy a (fillLine cls true a x s)
    else if draining a s && queueOpen c a s then requestCell c (enqueueWrite c a (foldLive a x s) s)
    else s
  | .verify => s
/-- A path yields verified data (R265): it supplies the sub-block, the other path is cancelled, the sector is repaired. A block
that never had a retry path counts as a degraded read alone (DEDUCED, log 21). -/
def recovered (r : Recovery) (x : Sector) (how : Nat) (s : State) : State :=
  let s1 := dropRetry r.key r.cell { s with recoveries := listDrop (fun y => y.key == r.key) s.recoveries }
  deliver r.why r.cls.toNat r.around r.addr x how
    (queueRepair r.cell r.addr x (if r.degraded then s1 else bump (cGroup r.addr.group how) 1 s1))
/-- The parity path has verified data (R265): the retry path captures no further pass, and a pass of this same beat still
comes first. -/
def pathWon (r : Recovery) (x : Sector) (s : State) : State :=
  dropRetry r.key r.cell (s.setRecovery { r with
    parity := false, won := some (s.clk.beat, x), retry := r.retry && decide ((s.cell r.cell).retry = some r.key) })
/-- Both paths failed (R265): the sub-block is failed (DEDUCED, log 21). -/
def recoveryFailed (r : Recovery) (s : State) : State :=
  let a := r.addr
  let s1 := dropRetry r.key r.cell { s with recoveries := listDrop (fun y => y.key == r.key) s.recoveries }
  let s2 := logEvent 0x0705 a.group.val (a.column + 256 * a.sub) a.stripe (bump (cGroup a.group 3) 1 s1)
  let s3 := answerReads a (fun w _ _ _ =>
    match r.bad with
    | some cov =>
      if fieldAt 2 2 cov == w.val && fieldAt 4 4 cov == (s.ward w).epoch.toNat then .integrity else .unrecoverable
    | none => .unrecoverable) s2
  settleBusy a s3
/-- A copy recovered that is not verified: every copy so far named a ward with a good TAG_CRC and failed DATA_CRC, or
`bad` is none (R265). -/
def noteCopy (x : Option Sector) (r : Recovery) : Recovery :=
  match x with
  | none => r
  | some y =>
    let named := y.kind == 0 && secWritten y && secTagOk y && !(secCrcOk y)
    { r with
      copies := r.copies + 1
      bad := if named && (r.copies == 0 || r.bad.isSome) then some y.cov else none }
/-- Columns a parity path has, or has a read out for. -/
def pathHas (r : Recovery) (s : State) (c : Nat) : Bool :=
  r.got.any (fun p => p.1 == c) || s.reads.any (fun m => m.path == some r.key && m.addr.column == c)
/-- Ask for column `c` of a parity path that lacks it: on die at once, else by a read that is attempted once (R264). Its fill
takes a line of class REBUILD where one can be had, and waits for none (R213) (DEDUCED, log 21). -/
def askColumn (k : Nat) (s : State) (c : Nat) : State :=
  match s.recovery k with
  | none => s
  | some r =>
    let a : SubAddr := { r.addr with column := c }
    if pathHas r s c then s
    else match columnOnDie a s with
    | some x => countHit a (s.setRecovery { r with got := r.got ++ [(c, x)] })
    | none => addRead a .fill 3 false (some k) (claim 3 a s).2
/-- Ask for the columns a parity path still lacks. -/
def askPath (k : Nat) (s : State) : State :=
  match s.recovery k with
  | none => s
  | some r => (pathCols (s.group r.addr.group) r s).foldl (askColumn k) s
/-- A path ends without data: the recovery goes on by the other, or fails. -/
def pathFails (r : Recovery) (s : State) : State := if r.retry then s.setRecovery r else recoveryFailed r s
/-- The parity path ends where it can (R264, R265), and a recovery with no path left fails. -/
def checkRecovery (k : Nat) (s : State) : State :=
  match s.recovery k with
  | none => s
  | some r =>
    let g := s.group r.addr.group
    if r.won.isSome then s
    else if r.parity then
      if g.level < (lostCols g r s).length ∨ g.down then pathFails { r with parity := false } s
      else
        let s1 := askPath k s
        match s1.recovery k with
        | none => s1
        | some r =>
          if (pathCols g r s1).all (fun c => r.got.any (fun p => p.1 == c)) then
            match rebuilt g r s1 with
            | some x =>
              if verified g.d r.addr x then pathWon r x s1
              else pathFails (noteCopy (some x) { r with parity := false }) s1
            | none => pathFails { r with parity := false } s1
          else s1
    else if r.retry then s
    else recoveryFailed r s
/-- Dual-path recovery starts (R263): `retry` for a column on an ONLINE member, whose failing read was `obs`. -/
def startRecovery (a : SubAddr) (why : ReadFor) (cls : Nat) (around retry : Bool) (obs : Option Sector) (s : State) : State :=
  let c := (s.group a.group).cellOf a.stripe a.column
  let k := s.nextRead
  let r := noteCopy obs { key := k, addr := a, cell := c, why, cls := BitVec.ofNat 3 cls, around, retry, degraded := !retry }
  let s1 := { s with recoveries := s.recoveries ++ [r], nextRead := k + 1 }
  let s2 :=
    if !retry then s1
    else if (s1.cell c).retry.isNone then s1.updCell c (fun x => { x with retry := some k })
    else s1.updCell c (fun x => { x with retryWait := x.retryWait ++ [k] })
  checkRecovery k s2
/-- The read of a sub-block begins: of media, or on a FAILED member by the parity path alone, a degraded read (R260). -/
def startFill (cls : Nat) (around : Bool) (a : SubAddr) (s : State) : State :=
  if (s.group a.group).lostCol a.stripe a.column then
    startRecovery a .fill cls around false none (bump (cGroup a.group 0) 1 s)
  else addRead a .fill cls around none s

/-! Requests that miss. -/

/-- A request for a sub-block that is not on die (R217, R219, R220): it joins the fill in flight, or waits while the line is
BUSY with another, a hit either way; else a fill starts, under WRITE_AROUND past the cache. Where no way qualifies an eviction
starts. The answer is none where the sub-block is on its way; else the request waits, and the answer says whether it has been
counted as a hit. -/
def askFill (cls : Nat) (a : SubAddr) (pol : Nat) (counted : Bool) (s : State) : Option Bool × State :=
  if pol = 2 then (none, if coming a s then s else startFill cls true a s)
  else if filling a s then (none, if counted then s else countHit a s)
  else if (match findLine a s with | some k => (s.line k).busy | none => false) then
    (some true, if counted then s else countHit a s)
  else
    let r := claim cls a s
    if r.1 then (none, startFill cls false a r.2) else (some counted, startEviction cls (cacheSet a) s)
/-- Block `i` of a READ asks for its sub-block, in class HOST_READ. -/
def askBlock (id i pol : Nat) (counted : Bool) (a : SubAddr) (s : State) : State :=
  let r := askFill 2 a pol counted (setBlk id i .wait s)
  match r.1 with
  | none => r.2
  | some h => setBlk id i (.blocked pol h) r.2
/-- A block of a READ that was put off, or whose fill has gone, asks again (R219, R220). -/
def askAgain (id i pol : Nat) (counted : Bool) (a : SubAddr) (s : State) : State :=
  match onDie a s with
  | some x => serveReads a x 0 (if counted then s else countHit a s)
  | none =>
    let g := s.group a.group
    if g.lostCol a.stripe a.column && g.down then answerReads a (fun _ _ _ _ => .unrecoverable) s
    else askBlock id i pol counted a s
/-- Block `p.2` of the READ `j` asks again where it waits without a fill on its way. -/
def pumpBlk (j : Job) (s : State) (p : BlkRes × Nat) : State :=
  match locate j.ward j.range.1 (j.range.2.1 + p.2) s, (s.job j.id).bind (fun k => k.blks[p.2]?) with
  | some a, some BlkRes.wait => if coming a s then s else askAgain j.id p.2 0 true a s
  | some a, some (BlkRes.blocked pol h) => askAgain j.id p.2 pol h a s
  | _, _ => s
/-- Every block of a READ that waits without a fill on its way asks again. -/
def pumpReads (s : State) : State :=
  (s.ring.jobs.filter (fun j => decide (j.phase = .media))).foldl (fun s j => j.blks.zipIdx.foldl (pumpBlk j) s) s
/-- What waits for a way, for a fill or for releases goes on (R220, R239, R245, R265). -/
def moveOn (s : State) : State :=
  let s1 := pumpReads (retryWaits s)
  replayCheck (refreshCap (s1.recoveries.foldl (fun s r => checkRecovery r.key s) s1))

/-! The rows. -/

/-- One pass over a sector is counted on its cell and zone (R292, R293, R315). -/
def countPass (c : CellId) (block : Nat) (o : SectorObs) (good : Bool) (s : State) : State :=
  let z := 0x100 + 0x10 * zoneOf block
  let s1 := bump (cCell c 0x00) 1 (bump (cCell c z) 1 s)
  let s2 := bump (cCell c 0x20) o.corrected (bump (cCell c 0x28) o.doubles s1)
  let s3 := if o.markB then bump (cCell c 0x18) 1 s2 else s2
  if good then s3 else bump (cCell c 0x10) 1 (bump (cCell c (z + 8)) 1 s3)
/-- Remove a media read. -/
def dropRead (k : Nat) (s : State) : State := { s with reads := listDrop (fun r => r.key == k) s.reads }
/-- A column a parity-path read yields, with the live deltas of parity folded in. -/
def pathGot (a : SubAddr) (x : Sector) (s : State) : Sector :=
  if (s.group a.group).d ≤ a.column then foldLive a x s else x
/-- The read of a repaired sector is not verified (R288): the block moves to the first spare sector of its zone and surface
past those used, or the table is full. -/
def remapSector (c : CellId) (block : Nat) (x : Sector) (s : State) : State :=
  let y := s.cell c
  let p := locateCell block
  let used := (y.remap.filter (fun q => (locateCell q.1).zone == p.zone && (locateCell q.1).surface == p.surface)).foldl
    (fun m q => max m q.2) 0
  let old := y.remap.get 0 block
  if old = 0 ∧ 4096 ≤ y.remapUsed then
    if y.remapFull then s else logEvent 0x0804 c.val 0 0 (mark (0x12000 + 0x400 * c.val) 17 (s.setCell c { y with remapFull := true }))
  else
    let s1 := s.setCell c { y with remap := y.remap.set 0 block (used + 1), remapUsed := y.remapUsed + (if old = 0 then 1 else 0) }
    let s2 := { s1 with obs := { s1.obs with media := s1.obs.media ++ [(c, block, x)] } }
    logEvent 0x0803 c.val 0 block (bump (cCell c 0x40) 1 (bump (cCell c 0x08) 1 s2))
/-- The content that the read-back of a repair checks: it is remapped when the read is not verified. -/
def verifyBack (r : MediaRead) (good : Bool) (s : State) : State :=
  if good then s
  else match r.img with
  | some x => remapSector r.cell (16 * r.addr.stripe + r.addr.sub) x s
  | none => s
/-- A column of a parity path has been read: verified it joins the row, else it is lost (R264). Reads that joined its fill are
served. -/
def pathRead (p : Nat) (a : SubAddr) (x : Option Sector) (s : State) : State :=
  let got := x.map (fun y => pathGot a y s)
  let s1 := settleBusy a (match x with
    | some y => fillLine 3 false a y (supply a y 0 s)
    | none => s)
  match s1.recovery p with
  | none => s1
  | some q =>
    checkRecovery p (s1.setRecovery (match got with
      | some y => { q with got := q.got ++ [(a.column, y)] }
      | none => { q with lost := q.lost ++ [a.column] }))
/-- The member has become FAILED, or the column has moved to the spare, since the read was asked for (R260, R267, R269). -/
def readMoved (r : MediaRead) (s : State) : State :=
  let s1 := dropRead r.key s
  match r.path with
  | some p => pathRead p r.addr none s1
  | none =>
    if r.why = .verify then s1
    else if (s.group r.addr.group).lostCol r.addr.stripe r.addr.column then
      (if r.why = .fill then startFill r.cls.toNat r.around r.addr s1 else settleBusy r.addr s1)
    else addRead r.addr r.why r.cls.toNat r.around none s1
/-- A sector read finishes (R258, R263, R264, R315). -/
def sectorRead (k : Nat) (o : SectorObs) (s : State) : State :=
  match s.reads.find? (fun r => r.key == k) with
  | none => s
  | some r =>
    let g := s.group r.addr.group
    let block := 16 * r.addr.stripe + r.addr.sub
    if r.img.isSome ∧ r.why ≠ .verify then s
    else if g.lostCol r.addr.stripe r.addr.column || g.cellOf r.addr.stripe r.addr.column != r.cell then readMoved r s
    else if !s.inService || !(s.cell r.cell).readable || !(onTrack r.cell r.addr s) then s
    else if o.offTrack then bump (cCell r.cell 0xB0) 1 (beginSector r.cell block s)
    else
      let good := match o.img with | some x => verified g.d r.addr x | none => false
      let s1 := countPass r.cell block o good (beginSector r.cell block s)
      match r.path with
      | some p => pathRead p r.addr (if good then o.img else none) (dropRead k s1)
      | none =>
        if r.why = .verify then verifyBack r good (dropRead k s1)
        else match good, o.img with
        | true, some x =>
          { s1 with reads := listUpd (fun m => m.key == k) (fun m => { m with img := some x }) s1.reads }
        | _, _ => startRecovery r.addr r.why r.cls.toNat r.around true o.img (dropRead k s1)
/-- SECTOR_READ: read `k` passes under the head and delivers `o`. -/
def execSectorRead (k : Nat) (o : SectorObs) (s : State) : Host.Outcome State Fault Refusal :=
  .next (match s.reads.find? (fun r => r.key == k) with
    | some r => moveOn (serveNext r.cell (sectorRead k o s))
    | none => s)
/-- CACHE_FILL (R212, R219, R265): the sector that a read has verified, or that a parity path has yielded, reaches the cache,
and what waited for it proceeds. -/
def cacheFill (a : SubAddr) (s : State) : State :=
  if !s.awake then s
  else match s.reads.find? (fun r => r.addr == a && r.path.isNone && r.img.isSome && decide (r.why ≠ .verify)) with
  | some r =>
    match r.img with
    | some x => moveOn (deliver r.why r.cls.toNat r.around a x 0 (dropRead r.key s))
    | none => s
  | none =>
    match s.recoveries.find? (fun r => r.addr == a && r.won.isSome) with
    | some r => match r.won with
      | some (_, x) => moveOn (serveNext r.cell (recovered r x 1 s))
      | none => s
    | none => s
/-- CACHE_FILL. -/
def execCacheFill (a : SubAddr) (s : State) : Host.Outcome State Fault Refusal := .next (cacheFill a s)
/-- The averaging buffer takes this recovery's next pass: it holds the buffer, or its parity path has won in this beat. -/
def retryOpen (r : Recovery) (s : State) : Bool :=
  r.retry && (match r.won with
    | some (b, _) => b == s.clk.beat
    | none => decide ((s.cell r.cell).retry = some r.key))
/-- RETRY_PASS (R264, R265, R294, R297, R298): the next averaging pass of recovery `k`; the sixteenth that is not verified
ends the retry path. A recovery whose retry path was cancelled ends here when no path is left. -/
def retryPass (k : Nat) (o : SectorObs) (s : State) : State :=
  match s.recovery k with
  | none => s
  | some r =>
    let g := s.group r.addr.group
    if !r.retry then checkRecovery k s
    else if !(retryOpen r s) || !s.inService || !(s.cell r.cell).readable || !(onTrack r.cell r.addr s) then s
    else
      let s0 := (beginSector r.cell (16 * r.addr.stripe + r.addr.sub) s).updCell r.cell (fun x =>
        { x with chan := (x.chan.1, (s.cell r.cell).chan.2) })
      if o.offTrack then bump (cCell r.cell 0xB0) 1 s0
      else
        let s1 := bump (cCell r.cell 0x30) 1 s0
        let good := match o.img with | some x => verified g.d r.addr x | none => false
        match good, o.img with
        | true, some x => recovered r x 2 s1
        | _, _ =>
          let r1 := noteCopy o.img { r with pass := r.pass + 1 }
          if r1.pass < 16 then s1.setRecovery r1
          else checkRecovery k (dropRetry k r.cell (s1.setRecovery { r1 with retry := false }))
/-- RETRY_PASS. -/
def execRetryPass (k : Nat) (o : SectorObs) (s : State) : Host.Outcome State Fault Refusal :=
  .next (match s.recovery k with
    | some r => moveOn (serveNext r.cell (retryPass k o s))
    | none => s)

end Sys2Proof.Machine
end

