-- ==== Sys2Proof/Machine/WardCmds.lean ====
section
/-! DEFINITION. The ward commands (R166–R172): READ, WRITE and TRIM (R53, R168–R170, R217, R262), OPEN_WARD, SEAL_WARD
and SET_CREDENTIAL (R50, R57, R72, R77, R78, R171), and WARD_INFO (R172). -/

namespace Sys2Proof.Machine

/-- A ward command that begins: a FAULTED ward completes it WARD_FAULTED (R52), and a value past a limit is OUT_OF_RANGE (R164)
(DEDUCED, log 15). -/
def runWard (id op : Nat) (f : WardId → Job → State → State) (s : State) : State :=
  runJob id op false (fun j s =>
    if (s.ward j.ward).state = .faulted then finish j 0x31 0 0 s
    else if pastLimit j.entry then finish j 0x24 0 0 s
    else f j.ward j s) s

/-- The end of a space for a READ (R53, R168). -/
def readEnd (x : Ward) (space : Nat) : Nat := if space = 0 then 16 * x.block.units else x.writePos
/-- The block is recorded as unwritten (R170). -/
def Ward.trimmed (x : Ward) (b : Nat) : Bool := x.trims.any (fun r => decide (r.1 ≤ b) && decide (b < r.1 + r.2))
/-- What a READ knows of a block as it begins (R63, R168, R170, R221, R262). -/
def firstLook (w : WardId) (space b : Nat) (keys : BitVec 512) (s : State) : BlkRes :=
  if decide (space = 0) && (s.ward w).trimmed b then .zero
  else match locate w space b s with
  | none => .zero
  | some a =>
    match onDie a s with
    | some x => supplied 0 (plainOf w space b x keys s)
    | none =>
      let g := s.group a.group
      if g.lostCol a.stripe a.column && g.down then .unrecoverable else .wait
/-- A block that is not on die misses (R218): the RAT is evaluated once, and it asks for its sub-block (DEDUCED, log 24). -/
def askFirst (w : WardId) (space b id i : Nat) (s : State) : State :=
  match locate w space b s with
  | none => s
  | some a =>
    let r := policyOf a.group space w s
    askBlock id i r.1 false a r.2
/-- Count the hits of the blocks that are on die (R213, R221). -/
def countHits (w : WardId) (space first count : Nat) (s : State) : State :=
  (blocksOf w space first count s).foldl (fun s a => if (cached a s).isSome then countHit a s else s) s
/-- The READ runs (R168): every block is looked up, and those not on die are asked for. -/
def beginRead (w : WardId) (keys : BitVec 512) (j : Job) (s : State) : State :=
  let (space, first, count) := j.range
  let blks := (List.range count).map (fun i => firstLook w space (first + i) keys s)
  let s1 := (countHits w space first count s).setJob { j with phase := JobPhase.media, blks := blks }
  let s2 := (blks.zipIdx.filter (fun p => decide (p.1 = .wait))).foldl
    (fun s p => askFirst w space (first + p.2) j.id p.2 s) s1
  match s2.job j.id with
  | some j2 => settleRead j2 s2
  | none => s2
/-- A block of the READ is served from the DATA record in this slot (R84, R246). -/
def readsRecord (w : WardId) (j : Job) (slot : Nat) (s : State) : Bool :=
  (blocksOf w j.range.1 j.range.2.1 j.range.2.2 s).any (fun a => (cached a s).isNone &&
    s.ledger.intents.any (fun i => decide (i.phase = .committed) && i.datas.any (fun d => d.live && d.addr == a && d.slot == slot)))
/-- READ (R53, R84, R168, R226, R320): it waits for its ward's key and for room in the host read buffer. `tagFail` names a
Ledger slot that fails its tag as a block is read from its DATA record. -/
def readCmd (tagFail : Option Nat) (w : WardId) (j : Job) (s : State) : State :=
  let (space, first, count) := j.range
  if readEnd (s.ward w) space < first + count then finish j 0x24 0 0 s
  else if 512 < s.readBlocks + count then s.setJob { j with phase := .waiting }
  else if !s.kccReady then s
  else
    let s1 := (kccLookup w s).2
    match (kccLookup w s).1, tagFail with
    | none, _ => s1.setJob { j with phase := .needKey }
    | some k, none => beginRead w k j s1
    | some k, some slot => if readsRecord w j slot s1 then tagFails slot s1 else beginRead w k j s1
/-- READ. -/
def execRead (job : Nat) (tagFail : Option Nat) (s : State) : Host.Outcome State Fault Refusal :=
  .next (runWard job 0x01 (readCmd tagFail) s)

/-- Why a WRITE or TRIM is turned away before it begins (R18, R53, R169, R170, R217, R262): its status. -/
def writeBar (w : WardId) (j : Job) (s : State) : Option Nat :=
  let (space, first, count) := j.range
  let x := s.ward w
  if space = 1 ∨ 16 * x.block.units < first + count then some 0x24
  else if (policyOf x.block.group 0 w s).1 = 3 then some 0x24
  else if (s.group x.block.group).down then some 0x40
  else none
/-- WRITE (R169): its data is fetched, then it waits for Ledger intake, where its intent takes its number. -/
def writeCmd (w : WardId) (j : Job) (s : State) : State :=
  match writeBar w j s with
  | some st => finish j st 0 0 s
  | none => if j.phase ≠ .dataIn then askData j s else refreshCap (s.setJob { j with phase := .intake, since := s.clk.beat })
/-- WRITE. -/
def execWrite (job : Nat) (s : State) : Host.Outcome State Fault Refusal := .next (runWard job 0x02 writeCmd s)
/-- TRIM (R170): the Ledger records that the blocks are unwritten. -/
def trimCmd (w : WardId) (j : Job) (s : State) : State :=
  match writeBar w j s with
  | some st => finish j st 0 0 s
  | none => journal .journal j .entry 0 s
/-- TRIM. -/
def execTrim (job : Nat) (s : State) : Host.Outcome State Fault Refusal := .next (runWard job 0x03 trimCmd s)

/-- The slot's tag or the unwrap check fails (R77): the ward faults and the command completes WARD_FAULTED. -/
def slotBad (w : WardId) (j : Job) (s : State) : State := finish j 0x31 0 0 (faultWard w 1 s)
/-- OPEN_WARD (R50, R57, R77, R171). -/
def openCmd (intact : Bool) (w : WardId) (j : Job) (s : State) : State :=
  let x := s.ward w
  match x.state with
  | .opened => finish j 0x00 0 x.fails s
  | .sealed =>
    if !intact then slotBad w j s
    else if wardMac s w x.epoch j.cred = x.verifier then
      finish j 0x00 0 0 (s.setWard w { x with state := .opened, fails := 0 })
    else finish j 0x30 0 (x.fails + 1) (wardLockout w (s.setWard w { x with fails := x.fails + 1 }))
  | _ => finish j 0x30 0 0 s
/-- OPEN_WARD: `intact` says whether the slot's tag and the unwrap check hold. -/
def execOpenWard (job : Nat) (intact : Bool) (s : State) : Host.Outcome State Fault Refusal :=
  .next (runWard job 0x04 (openCmd intact) s)
/-- SEAL_WARD (R50, R171). -/
def sealCmd (w : WardId) (j : Job) (s : State) : State :=
  if (s.ward w).state = .opened then finish j 0x00 0 0 (s.updWard w (fun x => { x with state := .sealed }))
  else finish j 0x30 0 0 s
/-- SEAL_WARD. -/
def execSealWard (job : Nat) (s : State) : Host.Outcome State Fault Refusal := .next (runWard job 0x05 sealCmd s)
/-- SET_CREDENTIAL (R72, R77, R78, R171): the failure count stays. -/
def credCmd (intact : Bool) (w : WardId) (j : Job) (s : State) : State :=
  if allEqual j.cred then malformed j 0x20 s
  else if !intact then slotBad w j s
  else journal .journal j (.verifier w (wardMac s w (s.ward w).epoch j.cred)) 0 s
/-- SET_CREDENTIAL: `intact` as for OPEN_WARD. -/
def execSetCredential (job : Nat) (intact : Bool) (s : State) : Host.Outcome State Fault Refusal :=
  .next (runWard job 0x06 (credCmd intact) s)
/-- The ward information record (R172). -/
def wardRecord (w : WardId) (s : State) : Bytes :=
  let x := s.ward w
  leBytes 2 w.val ++ [BitVec.ofNat 8 (stateCode x.state), BitVec.ofNat 8 (bit x.enrol + 2 * bit x.appendFull)] ++
  leBytes 4 x.epoch.toNat ++ leBytes 4 x.block.units ++ leBytes 4 x.append.units ++ leBytes 8 x.writePos ++
  leBytes 6 x.high.toNat ++ [BitVec.ofNat 8 x.block.group.val, BitVec.ofNat 8 x.append.group.val] ++
  leBytes 8 s.taiOr0.toNat ++ zeros 24
/-- WARD_INFO (R172). -/
def execWardInfo (job : Nat) (s : State) : Host.Outcome State Fault Refusal :=
  .next (runWard job 0x07 (fun w j s => finish j 0x00 0 0 (scatter j.segs (wardRecord w s) s)) s)

end Sys2Proof.Machine
end

