-- ==== Sys2Proof/Machine/Destage.lean ====
section
/-! DEFINITION. The way down to media: destage (R221, R235, R236, R255, R261, R262, R320–R323), sector writes and what they
release (R221, R235, R257), repairs and their read-back (R266, R288), torn sectors (R296), and Stripe Cache errors with
way retirement (R223–R225). -/

namespace Sys2Proof.Machine

/-! Destage. -/

/-- The next sector write of a cell begins where the head is write-settled on its track (R295, R299, R314), or the cell turns
to its next request. -/
def startWrite (c : CellId) (s : State) : State :=
  let x := s.cell c
  match x.nextWrite with
  | some q =>
    if s.inService && x.writable && x.writing.isNone && onTrack c q.addr s then
      beginSector c (16 * q.addr.stripe + q.addr.sub) (s.updCell c (fun x => { x with writing := some q.key, wg := true }))
    else serveNext c s
  | none => serveNext c s
/-- A write of the sub-block, a repair apart, stands in its cell's queue. -/
def writeQueued (a : SubAddr) (s : State) : Bool :=
  s.cells.any (fun p => p.2.queue.any (fun q => decide (q.addr = a) && !q.repair))
/-- A record of the sub-block's row that is not yet released, other than at this address. -/
def rowParityLeft (a : SubAddr) (i : Intent) : Bool :=
  i.parities.any (fun p => p.live && p.addr.group == a.group && p.addr.stripe == a.stripe && p.addr.sub == a.sub)
/-- A sub-block needs no destage any more: it is clean, and a retired way's drain of it ends. -/
def settleSub (a : SubAddr) (s : State) : State :=
  let s1 := updCached a (fun y => some { y with dirty := false, queued := false }) s
  { s1 with cache := { s1.cache with
      drain := s1.cache.drain.filter (fun p => p.2 != a), waits := s1.cache.waits.filter (fun w => w.2.1 != a) } }
/-- A sub-block on a FAILED member (R261): parity is released without being destaged; data once every parity sub-block
that its intent changed has reached media. -/
def destageLost (a : SubAddr) (s : State) : State :=
  if (s.group a.group).d ≤ a.column then
    settleSub a
      (releaseWhere (fun _ _ => false)
        (fun i p => decide (i.phase = .committed) && p.addr == a && p.deferred.isNone) s)
  else
    let s1 := releaseWhere (fun i d => decide (i.phase = .committed) && d.addr == a && !(rowParityLeft a i)) (fun _ _ => false) s
    if s1.ledger.intents.any (fun i => i.datas.any (fun d => d.live && d.addr == a)) then s1 else settleSub a s1
/-- Reserve the write-queue entry of a sub-block and begin (R320, R321). -/
def beginDestage (a : SubAddr) (x : Sector) (s : State) : State :=
  let c := (s.group a.group).cellOf a.stripe a.column
  if queueOpen c a s then startWrite c (requestCell c (enqueueWrite c a x s)) else s
/-- The committed intent whose DATA record at an address is newest, with that record's sector. -/
def newestRecord (a : SubAddr) (s : State) : Option (Intent × DataRec) :=
  (s.ledger.intents.filter (fun i => decide (i.phase = .committed))).foldl (fun acc i =>
    i.datas.foldl (fun acc d => if d.live && d.addr == a then some (i, d) else acc) acc) none
/-- Committed data that no line holds (R220, R224): a retired way's goes to its write from the Ledger; else it asks for a
line of its intent's class, under its policy. -/
def destageData (a : SubAddr) (s : State) : State :=
  match newestRecord a s with
  | none => s
  | some (i, d) =>
    if draining a s then beginDestage a d.sector s
    else match s.cache.waits.find? (fun w => w.2.1 == a) with
    | some w => retryWait w s
    | none => install i.cls a { sector := d.sector, dirty := true, policy := BitVec.ofNat 3 i.policy, queued := true } s
/-- Committed parity that no line holds (R236, R224): it is read from media, for a retired way past the cache, else into a line
of its intent's class, and its live deltas are folded in (DEDUCED, log 24). -/
def destageParity (a : SubAddr) (s : State) : State :=
  match (liveDeltas a s).head? with
  | none => if draining a s then settleSub a s else s
  | some (i, _) =>
    if coming a s then s
    else if draining a s then addRead a .oldParity i.cls true none s
    else
      let r := claim i.cls a s
      if r.1 then addRead a .oldParity i.cls false none r.2 else startEviction i.cls (cacheSet a) s
/-- The Ledger slot is that of a record the destage of a sub-block uses (R84, R246). -/
def usesRecord (a : SubAddr) (slot : Nat) (s : State) : Bool :=
  s.ledger.intents.any (fun i => decide (i.phase = .committed) &&
    (i.datas.any (fun d => d.live && d.addr == a && d.slot == slot) ||
     i.parities.any (fun p => p.live && p.addr == a && p.slot == slot)))
/-- DESTAGE_START (R221, R235 rule 5, R236, R321): a queued dirty sub-block whose write-queue entry is free. -/
def destageStart (a : SubAddr) (s : State) : State :=
  let g := s.group a.group
  if !s.inService || s.ledgerDead || !g.defined || writeQueued a s then s
  else if g.lostCol a.stripe a.column then destageLost a s
  else if deferredOn a s then s
  else match cached a s with
  | some x =>
    if x.dirty && x.queued && queueOpen (g.cellOf a.stripe a.column) a s then
      beginDestage a x.sector (updCached a (fun y => some { y with queued := false }) s)
    else s
  | none => if a.column < g.d then destageData a s else destageParity a s
/-- DESTAGE_START: `tagFail` names a Ledger slot that fails its tag as the sub-block's record is read. -/
def execDestageStart (a : SubAddr) (tagFail : Option Nat) (s : State) : Host.Outcome State Fault Refusal :=
  .next (match tagFail with
    | some slot => if s.inService ∧ !s.ledgerDead ∧ (cached a s).isNone ∧ usesRecord a slot s then tagFails slot s else destageStart a s
    | none => moveOn (destageStart a s))

/-! A sector write completes. -/

/-- The written sub-block (R217, R221, R235 rule 6): DIRTY clears when the line holds what was written, under WRITE_AROUND
the sub-block is invalidated, and the records applied are released. -/
def subWritten (a : SubAddr) (x : Sector) (s : State) : State :=
  let s1 := releaseWhere
    (fun i d => decide (i.phase = .committed) && d.addr == a && !keyLt (secKey x) (i.boot.toNat, d.serial.toNat))
    (fun i p => decide (i.phase = .committed) && p.deferred.isNone && p.addr == a &&
      !keyLt (secKey x) (i.boot.toNat, p.serial.toNat)) s
  let s2 := updCached a (fun y =>
    if y.sector = x then (if y.policy = 2 then none else some { y with dirty := false, queued := false, age := 0 })
    else some y) s1
  if (ledgerData a s2).isNone ∧ liveDeltas a s2 = [] then
    { s2 with cache := { s2.cache with drain := s2.cache.drain.filter (fun p => p.2 != a) } }
  else s2
/-- Take a write out of a cell's queue; the gate falls at its end, and a cell that was to park then does (R87, R337, R350). -/
def takeWrite (c : CellId) (k : Nat) (s : State) : State :=
  let due := (s.cell c).gateDue
  parkAfter c due (s.updCell c (fun x => { x with
    gateDue := none
    queue := listDrop (fun q => q.key == k) x.queue
    writing := if x.writing = some k then none else x.writing, wg := if x.writing = some k then false else x.wg }))
/-- The write entry `k` of a cell. -/
def State.qwrite (s : State) (c : CellId) (k : Nat) : Option QWrite := (s.cell c).queue.find? (fun q => q.key == k)
/-- The repair is overtaken: newer content stands on die, or the member is FAILED (R266). -/
def repairStale (c : CellId) (q : QWrite) (s : State) : Bool :=
  let g := s.group q.addr.group
  g.lostCol q.addr.stripe q.addr.column || g.cellOf q.addr.stripe q.addr.column != c ||
  (match cached q.addr s with | some y => y.dirty || decide (secKey y.sector ≠ secKey q.sector) | none => false)
/-- A repair rewrite (R266, R288): counted, and read back in the next revolution. -/
def repairDone (c : CellId) (q : QWrite) (s : State) : State :=
  let s1 := takeWrite c q.key s
  if repairStale c q s then s1
  else
    let s2 := bump (cGroup q.addr.group 4) 1 (writeOn c q.addr q.sector s1)
    { s2 with
      reads := s2.reads ++ [{ key := s2.nextRead, addr := q.addr, cell := c, why := .verify, cls := 3, img := some q.sector }]
      nextRead := s2.nextRead + 1 }
/-- A queued sector write has been made whole. -/
def writeDone (c : CellId) (q : QWrite) (s : State) : State :=
  startWrite c (moveOn (if q.repair then repairDone c q s else subWritten q.addr q.sector (writeOn c q.addr q.sector (takeWrite c q.key s))))
/-- SECTOR_WRITE_DONE: the write in progress on cell `c` ends; a gate whose beat has come has fallen before (R350). -/
def execSectorWriteDone (c : CellId) (k : Nat) (s0 : State) : Host.Outcome State Fault Refusal :=
  let s := lateGates s0
  .next (match s.qwrite c k with
    | some q => if (s.cell c).writing = some k then writeDone c q s else s
    | none => s)
/-- TORN_REWRITE (R296): a torn sector is rewritten whole where the cell is still writable, and its mark released. -/
def execTornRewrite (c : CellId) (k : Nat) (s : State) : Host.Outcome State Fault Refusal :=
  .next (match s.qwrite c k with
    | some q => if q.torn ∧ s.inService ∧ (s.cell c).writable ∧ onTrack c q.addr s then
        writeDone c q (beginSector c (16 * q.addr.stripe + q.addr.sub) s) else s
    | none => s)
/-- The cell whose queue holds repair `k`. -/
def repairOf (k : Nat) (s : State) : Option (CellId × QWrite) :=
  allCells.findSome? (fun c => ((s.qwrite c k).bind (fun q => if q.repair then some (c, q) else none)))
/-- REPAIR_REWRITE (R266): at the next pass of the sector under the head. -/
def execRepairRewrite (k : Nat) (s : State) : Host.Outcome State Fault Refusal :=
  .next (match repairOf k s with
    | some (c, q) => if s.inService ∧ (s.cell c).writable ∧ onTrack c q.addr s then
        writeDone c q (beginSector c (16 * q.addr.stripe + q.addr.sub) s) else s
    | none => s)

/-! Stripe Cache errors. -/

/-- The cause code of WAY_RETIRED (R366). -/
def eccCause : EccKind → Nat
  | .corrected => 0
  | .uncorrectable => 1
  | .tagParity => 2
/-- The dirty sub-blocks of a line with their addresses. -/
def Line.dirtySubs (l : Line) : List SubAddr :=
  l.subs.filterMap (fun p => match p.2 with
    | some x => if x.dirty then some ⟨l.group, l.stripe, l.column, p.1⟩ else none
    | none => none)
/-- A way retires (R224, R225): its lines leave lookup and allocation, its dirty sub-blocks drain from the Ledger; with no way
left the device enters Safe Hold (R214). A way already retired is retired again in this beat. -/
def retireWay (v : Fin 16) (kind : EccKind) (s : State) : State :=
  let hit := { s with cache := { s.cache with
    retBeat := s.clk.beat
    retNow := (if s.cache.retBeat = s.clk.beat then s.cache.retNow else 0) ||| (1#16 <<< v.val) } }
  if s.cache.retired.getLsbD v.val then hit
  else
    let mine := s.cache.lines.filter (fun p => p.1 % 16 == v.val)
    let s1 := mark 0x0E000 1 { hit with cache := { hit.cache with
      retired := s.cache.retired ||| (1#16 <<< v.val), wayRetired := true
      lines := s.cache.lines.filter (fun p => p.1 % 16 != v.val)
      drain := s.cache.drain ++ mine.flatMap (fun p => p.2.dirtySubs.map (fun a => (v.val, a))) } }
    waysCheck (logEvent 0x0601 v.val (eccCause kind) 0 s1)
/-- An error that SEC-DED or tag parity detects in a way in service (R223). -/
def eccError (v : Fin 16) (kind : EccKind) (s : State) : State :=
  if !s.handedOff || !s.cache.ready || s.cache.retired.getLsbD v.val then s
  else match kind with
  | .corrected =>
    let n := s.cache.errors.get 0 v.val + 1
    let s1 := bump (cWay v.val 4) 1 { s with cache := { s.cache with errors := s.cache.errors.set 0 v.val n } }
    if 16 ≤ n then retireWay v .corrected s1 else s1
  | .uncorrectable => retireWay v .uncorrectable (bump (cWay v.val 5) 1 s)
  | .tagParity => retireWay v .tagParity s
/-- SCACHE_ECC_ERROR. -/
def execScacheEccError (way : Fin 16) (kind : EccKind) (s : State) : Host.Outcome State Fault Refusal :=
  .next (eccError way kind s)
/-- WAY_RETIRED (R223, R224): the sixteenth corrected error of the tick stands, or the error that retires the way is met
in this beat. -/
def wayRetires (v : Fin 16) (kind : EccKind) (s : State) : State :=
  match kind with
  | .corrected => if s.handedOff ∧ 16 ≤ s.cache.errors.get 0 v.val then retireWay v .corrected s else s
  | _ => eccError v kind s
/-- WAY_RETIRED. -/
def execWayRetired (way : Fin 16) (kind : EccKind) (s : State) : Host.Outcome State Fault Refusal :=
  .next (wayRetires way kind s)

end Sys2Proof.Machine
end

