-- ==== Sys2Proof/Machine/Redundancy.lean ====
section
/-! DEFINITION. Background work on a group, and the event log's writer: initialisation (R259), rebuild (R268–R272), scrub
(R273), and EVENT_RECORD (R363–R365). -/

namespace Sys2Proof.Machine

/-- The column that member `m` holds of a stripe (R252). -/
def Group.columnOf (g : Group) (stripe m : Nat) : Nat := (m + 2 * g.n - g.rot stripe - g.level) % g.n
/-- Some record of the stripe is live. -/
def stripeLive (g : GroupId) (stripe : Nat) (s : State) : Bool :=
  s.ledger.intents.any (fun i =>
    i.datas.any (fun d => d.live && d.addr.group == g && d.addr.stripe == stripe) ||
    i.parities.any (fun p => p.live && p.addr.group == g && p.addr.stripe == stripe))
/-- Queue every dirty sub-block of a stripe for destage (R269 step 2). -/
def queueStripe (g : GroupId) (stripe : Nat) (s : State) : State :=
  { s with cache := { s.cache with lines := s.cache.lines.mapAll {} (fun _ l =>
      if l.group = g ∧ l.stripe = stripe then l.queueAll else l) } }

/-! Initialisation. -/

/-- The sector initialisation writes at an address (R256, R259). -/
def zeroSector (g : Group) (a : SubAddr) : Sector :=
  if a.column < g.d then dataSector a (zeros 4096) (zeros 48)
  else paritySector a (a.column - g.d + 1) (zeros 4096) (zeros 48) 0 0
/-- The cell is free for background work (R259, R270): usable, with no write queued and no read waiting. -/
def cellIdle (c : CellId) (s : State) : Bool :=
  (s.cell c).usable && (s.cell c).queue == [] && (s.cell c).retry.isNone &&
  !(s.reads.any (fun r => r.cell == c && r.img.isNone))
/-- A member's sector is begun and written: on cell `c`, with the channel settings of that beat. -/
def putSector (c : CellId) (a : SubAddr) (x : Sector) (s : State) : State :=
  writeOn c a x (beginSector c (16 * a.stripe + a.sub) s)
/-- Write a column's 16 sub-blocks on one cell. -/
def writeColumn (c : CellId) (g : GroupId) (stripe col : Nat) (f : Nat → Sector) (s : State) : State :=
  (List.range 16).foldl (fun s k => putSector c ⟨g, stripe, col, k⟩ (f k) s) s
/-- The rebuilt member has been written to the end (R271). -/
def rebuildEnd (g : GroupId) (s : State) : State :=
  let x := s.group g
  match x.spare with
  | some c =>
    logEvent 0x0707 g.val c.val 0 (s.setGroup g { x with
      members := x.members.set x.rebuild.member c
      failed := x.failed.filter (· != x.rebuild.member), spare := none, rebuild := {} })
  | none => s
/-- The cells of every ONLINE member and of the spare are free for background work. -/
def groupIdle (g : Group) (s : State) : Bool :=
  (List.range g.n).all (fun m => g.failed.contains m || cellIdle (g.members.getD m 0) s) &&
  (match g.spare with | some c => cellIdle c s | none => true)
/-- The column that the spare's sectors name (R259): that of the member it is rebuilding; where none is, the manual names
none, and the value is free (DEDUCED, log 22). -/
def spareColumn (g : Group) (stripe : Nat) (s : State) : Nat × State :=
  if g.rebuild.active then (g.columnOf stripe g.rebuild.member, s)
  else ((freeWord s).1.toNat % g.n, (freeWord s).2)
/-- INIT_STRIPE (R259): the stripe at the front is written on every ONLINE member and on the spare
(DEDUCED, log 22). -/
def initStripe (g : GroupId) (s : State) : State :=
  let x := s.group g
  if !s.inService || !x.defined || x.down || decide (x.stripes ≤ x.initFront) || !(groupIdle x s) then s
  else
    let st := x.initFront
    let s1 := ((List.range x.n).filter (fun m => !x.failed.contains m)).foldl (fun s m =>
      let col := x.columnOf st m
      writeColumn (x.members.getD m 0) g st col (fun k => zeroSector x ⟨g, st, col, k⟩) s) s
    let s2 := match x.spare with
      | some c =>
        let (col, s2) := spareColumn x st s1
        writeColumn c g st col (fun k => zeroSector x ⟨g, st, col, k⟩) s2
      | none => s1
    let follow := x.rebuild.active && x.rebuild.front == st
    let s3 := bump (cGroup g 5) 1 (s2.updGroup g (fun y => { y with
      initFront := st + 1, rebuild := if follow then { y.rebuild with front := st + 1 } else y.rebuild }))
    let s4 := if st + 1 = x.stripes then logEvent 0x0703 g.val 0 0 s3 else s3
    if follow && st + 1 == x.stripes then rebuildEnd g s4 else s4
/-- INIT_STRIPE. -/
def execInitStripe (g : GroupId) (s : State) : Host.Outcome State Fault Refusal := .next (initStripe g s)

/-! Rows as they are read. -/

/-- The reads of the columns in `cols` that media would make of a row: those not on FAILED members and not cached. -/
def mediaCols (x : Group) (a : SubAddr) (cols : List Nat) (s : State) : List Nat :=
  cols.filter (fun c => !(x.lostCol a.stripe c) && (cached { a with column := c } s).isNone)
/-- What media delivers for a column: nothing decoded where the command gives none. -/
def rowObs (row : List RowRead) (c : Nat) : RowRead := row.getD c ⟨⟨none, false, 0, 0, false⟩, none⟩
/-- A verified sector read for background work enters the cache in its class (R213). -/
def keepRow (cls : Nat) (a : SubAddr) (x : Sector) (s : State) : State :=
  settleBusy a (fillLine cls false a x (claim cls a s).2)
/-- One column of a row as background work of class `cls` reads it (R213, R258, R263, R265): from the cache, else from media;
a read that is not verified is supplied by the averaging retry where that wins, and repaired. -/
def readCol (cls : Nat) (x : Group) (a : SubAddr) (row : List RowRead) (c : Nat) (s : State) : Option Sector × State :=
  let b : SubAddr := { a with column := c }
  let cell := x.cellOf a.stripe c
  let block := 16 * a.stripe + a.sub
  if x.lostCol a.stripe c then (none, s)
  else match cached b s with
  | some y => (some y.sector, countHit b s)
  | none =>
    let o := rowObs row c
    let good := match o.first.img with | some y => verified x.d b y | none => false
    let s1 := countPass cell block o.first good (beginSector cell block s)
    match good, o.first.img with
    | true, some y => (some y, keepRow cls b y s1)
    | _, _ =>
      match o.retry with
      | some y =>
        if verified x.d b y then
          (some y, keepRow cls b y (queueRepair cell b y (bump (cGroup a.group 2) 1 (bump (cCell cell 0x30) 1 s1))))
        else (none, s1)
      | none => (none, s1)
/-- Column `c` is read unless what has been read is enough. -/
def readNext (cls : Nat) (x : Group) (a : SubAddr) (row : List RowRead) (enough : List (Nat × Sector) → Bool)
    (acc : List (Nat × Sector) × State) (c : Nat) : List (Nat × Sector) × State :=
  if enough acc.1 then acc
  else
    let r := readCol cls x a row c acc.2
    (match r.1 with | some y => acc.1 ++ [(c, y)] | none => acc.1, r.2)
/-- Read columns in order, until `enough` says so of what has been read. -/
def readCols (cls : Nat) (x : Group) (a : SubAddr) (row : List RowRead) (enough : List (Nat × Sector) → Bool)
    (cols : List Nat) (acc : List (Nat × Sector) × State) : List (Nat × Sector) × State :=
  cols.foldl (readNext cls x a row enough) acc
/-- The protected bytes of a row's data columns, lost ones solved from parity where the row allows (R254, R260). -/
def rowData (x : Group) (got : List (Nat × Sector)) : Option (List (Nat × Bytes)) :=
  let lost := (List.range x.d).filter (fun c => !(got.any (fun p => p.1 == c)))
  if (got.filter (fun p => decide (x.d ≤ p.1))).length < lost.length then none
  else
    let all := (got.filter (fun p => decide (p.1 < x.d))).map (fun p => (p.1, secProt p.2)) ++ rebuildRow x.d lost got
    if all.length = x.d then some all else none
/-- One sub-block of a row, rebuilt and verified (R258, R260); parity with key zero. -/
def rowSolve (x : Group) (a : SubAddr) (got : List (Nat × Sector)) : Option Sector :=
  match rowData x got with
  | none => none
  | some l =>
    if a.column < x.d then
      match l.find? (fun p => p.1 == a.column) with
      | some p =>
        let y := dataSector a (p.2.take 4096) (p.2.drop 4096)
        if verified x.d a y then some y else none
      | none => none
    else
      let k := a.column - x.d
      let b := paritySum k 4144 l
      some (paritySector a (k + 1) (b.take 4096) (b.drop 4096) 0 0)
/-- The row as reconstruction reads it (R260): the data columns but `own`, then as many parity columns as data columns are
missing, P, then Q, then R. -/
def readRow (cls own : Nat) (x : Group) (a : SubAddr) (row : List RowRead) (s : State) : List (Nat × Sector) × State :=
  let r := readCols cls x a row (fun _ => false) ((List.range x.d).filter (· != own)) ([], s)
  readCols cls x a row (fun got => decide (x.d ≤ got.length)) (((List.range x.level).map (x.d + ·)).filter (· != own)) r
/-- The columns of `cols` that were read without success and that the row's parity yields are repaired (R265, R266). -/
def repairCols (x : Group) (a : SubAddr) (got : List (Nat × Sector)) (cols : List Nat) (s : State) : State :=
  (cols.filter (fun c => !(x.lostCol a.stripe c) && !(got.any (fun p => p.1 == c)))).foldl (fun s c =>
    let b : SubAddr := { a with column := c }
    match rowSolve x b got with
    | some y => queueRepair (x.cellOf a.stripe c) b y (bump (cGroup a.group 1) 1 s)
    | none => s) s

/-! Rebuild. -/

/-- A sub-block that cannot be produced: KIND 0x0F (R269). -/
def lostSector (a : SubAddr) : Sector := { dataSector a (zeros 4096) (zeros 48) with kind := 0x0F }
/-- Parity is written to the spare with key zero, data with its tag (R269). -/
def spareForm (x : Group) (y : Sector) (a : SubAddr) : Sector :=
  if a.column < x.d then y else { y with pboot := 0, pserial := 0 }
/-- One sub-block of the rebuilt member's column (R260, R268, R269): an ONLINE member's is read, with dual-path recovery; a
FAILED member's is reconstructed. -/
def produce (x : Group) (a : SubAddr) (row : List RowRead) (s : State) : Option Sector × State :=
  if x.lostCol a.stripe a.column then
    let r := readRow 3 a.column x a row s
    (rowSolve x a r.1, repairCols x a r.1 ((List.range x.d).filter (· != a.column)) r.2)
  else
    let own := readCol 3 x a row a.column s
    match own.1 with
    | some y => (some (spareForm x y a), own.2)
    | none =>
      let r := readRow 3 a.column x a row own.2
      match rowSolve x a r.1 with
      | some y => (some y, queueRepair (x.cellOf a.stripe a.column) a y (bump (cGroup a.group 1) 1 r.2))
      | none => (none, r.2)
/-- The rebuild may read this sub-block's row: no read of it is abandoned off track (R315). -/
def rowOnTrack (x : Group) (a : SubAddr) (row : List RowRead) (s : State) : Bool :=
  (mediaCols x a (List.range x.n) s).all (fun c => !(rowObs row c).first.offTrack)
/-- The abandoned reads of a row are counted (R315). -/
def countOffTrack (x : Group) (a : SubAddr) (row : List RowRead) (s : State) : State :=
  (mediaCols x a (List.range x.n) s).foldl (fun s c =>
    if (rowObs row c).first.offTrack then bump (cCell (x.cellOf a.stripe c) 0xB0) 1 s else s) s
/-- One sub-block of the column is produced and written to the spare (R269 step 3, R270) (DEDUCED, log 22). -/
def rebuildSub (c : CellId) (x : Group) (a : SubAddr) (row : List RowRead) (s : State) : State :=
  let r := produce x a row s
  let s1 := r.2.updGroup a.group (fun y => { y with rebuild := { y.rebuild with
    sub := a.sub + 1, credit := y.rebuild.credit - 4096 } })
  match r.1 with
  | some y => putSector c a y s1
  | none =>
    logEvent 0x0706 a.group.val (a.column + 256 * a.sub) a.stripe
      (bump (cGroup a.group 7) 1 (putSector c a (lostSector a) s1))
/-- The sub-blocks of the stripe at the front, from the first not yet written on, as far as the credit goes (R270). -/
def rebuildSubs (g : GroupId) (c : CellId) (rows : List (List RowRead)) (s : State) : State :=
  (List.range 16).foldl (fun s k =>
    let x := s.group g
    let a : SubAddr := ⟨g, x.rebuild.front, x.columnOf x.rebuild.front x.rebuild.member, k⟩
    if x.rebuild.sub = k ∧ 4096 ≤ x.rebuild.credit then
      (if rowOnTrack x a (rows.getD k []) s then rebuildSub c x a (rows.getD k []) s
       else countOffTrack x a (rows.getD k []) s)
    else s) s
/-- REBUILD_STRIPE (R269–R271): `rows` lists, for each sub-block, what media delivers of its row by column. It waits for the
stripe's records and while foreground work uses a cell of the group, and writes as the credit allows; the front advances when
the column's 16 sub-blocks stand on the spare (DEDUCED, log 23). -/
def rebuildStripe (g : GroupId) (rows : List (List RowRead)) (s : State) : State :=
  let x := s.group g
  let st := x.rebuild.front
  match x.spare with
  | none => s
  | some c =>
    if !s.inService || !x.rebuild.active || x.down || decide (min x.stripes x.initFront ≤ st) then s
    else if stripeLive g st s then queueStripe g st s
    else if !(groupIdle x s) then s
    else
      let s1 := rebuildSubs g c rows s
      if (s1.group g).rebuild.sub < 16 then s1
      else
        let s2 := bump (cGroup g 6) 1 (s1.updGroup g (fun y => { y with rebuild := { y.rebuild with
          front := st + 1, sub := 0 } }))
        if st + 1 = x.stripes then rebuildEnd g s2 else s2
/-- REBUILD_STRIPE. -/
def execRebuildStripe (g : GroupId) (rows : List (List RowRead)) (s : State) : Host.Outcome State Fault Refusal :=
  .next (moveOn (rebuildStripe g rows s))

/-! Scrub. -/

/-- A row's reads that are not verified are recovered by parity and repaired, or the sub-block is failed and counted (R273
step 1). The answer says whether every sub-block of the row stands. -/
def scrubRepair (x : Group) (a : SubAddr) (got : List (Nat × Sector)) (s : State) : Bool × State :=
  let bad := (List.range x.n).filter (fun c => !(got.any (fun p => p.1 == c)))
  let failed := bad.filter (fun c => (rowSolve x { a with column := c } got).isNone)
  (failed == [], bump (cGroup a.group 3) failed.length (repairCols x a got bad s))
/-- Parity sub-block `k` of a row with data `l` is rewritten where it differs from the one recomputed. -/
def scrubCheck (x : Group) (a : SubAddr) (got : List (Nat × Sector)) (l : List (Nat × Bytes)) (s : State) (k : Nat) : State :=
  let b : SubAddr := { a with column := x.d + k }
  let p := paritySum k 4144 l
  match got.find? (fun q => q.1 == b.column) with
  | some q =>
    if secProt q.2 = p then s
    else
      let y := paritySector b (k + 1) (p.take 4096) (p.drop 4096) 0 0
      logEvent 0x0709 a.group.val (k + 256 * a.sub) a.stripe (bump (cGroup a.group 10) 1
        (updCached b (fun z => some { z with sector := y }) (enqueueWrite (x.cellOf b.stripe b.column) b y s)))
  | none => s
/-- A parity sub-block that differs from the one recomputed is rewritten (R273 steps 2 and 3). -/
def scrubParity (x : Group) (a : SubAddr) (got : List (Nat × Sector)) (s : State) : State :=
  match rowData x got with
  | none => s
  | some l => (List.range x.level).foldl (scrubCheck x a got l) s
/-- The scrub front moves past a row (R273). -/
def scrubNext (g : GroupId) (s : State) : State :=
  let x := s.group g
  let s1 := s.updGroup g (fun y => { y with scrub := { y.scrub with credit := y.scrub.credit - 4096 * y.n } })
  if x.scrub.sub < 15 then s1.updGroup g (fun y => { y with scrub := { y.scrub with sub := y.scrub.sub + 1 } })
  else
    let s2 := bump (cGroup g 8) 1 s1
    if x.scrub.front + 1 < x.initFront then
      s2.updGroup g (fun y => { y with scrub := { y.scrub with sub := 0, front := x.scrub.front + 1 } })
    else
      let s3 := bump (cGroup g 9) 1 (s2.updGroup g (fun y => { y with scrub := { y.scrub with sub := 0, front := 0 } }))
      logEvent 0x070A g.val 0 (s3.counter (cGroup g 9)).toNat s3
/-- SCRUB_ROW (R273): `row` lists what media delivers of the row by column. Scrub pauses while the group is not OPTIMAL,
passes over a stripe with live records, and yields as rebuild does (DEDUCED, log 23). -/
def scrubRow (g : GroupId) (row : List RowRead) (s : State) : State :=
  let x := s.group g
  let a : SubAddr := ⟨g, x.scrub.front, 0, x.scrub.sub⟩
  if !s.inService || !x.scrub.active || x.state != 0 || decide (x.initFront ≤ x.scrub.front) then s
  else if stripeLive g x.scrub.front s || decide (x.scrub.credit < 4096 * x.n) || !(groupIdle x s) then s
  else if !(rowOnTrack x a row s) then countOffTrack x a row s
  else
    let r := readCols 4 x a row (fun _ => false) (List.range x.n) ([], s)
    let q := scrubRepair x a r.1 r.2
    scrubNext g (if q.1 then scrubParity x a r.1 q.2 else q.2)
/-- SCRUB_ROW. -/
def execScrubRow (g : GroupId) (row : List RowRead) (s : State) : Host.Outcome State Fault Refusal :=
  .next (moveOn (scrubRow g row s))

/-! The event log. -/

/-- EVENT_RECORD (R118, R363–R365): the oldest record is written at the log's tail; an EVENTS_LOST record takes the place
that frees. -/
def eventRecord (s : State) : State :=
  if !s.handedOff || !s.obs.enabled || s.evlogFull || !s.dmaOpen || s.host.flr.isSome then s
  else match s.obs.events with
  | [] => s
  | e :: rest =>
    let o := s.obs
    let next := (o.tail.toNat + 1) % 2 ^ o.logLog
    let s1 := { s with obs := { o with
      events := rest, tail := BitVec.ofNat 16 next, phase := if next = 0 then !o.phase else o.phase, lost := 0 } }
    let s2 := bump (cDev 0) 1 (emit (.event (o.logBase + BitVec.ofNat 64 (32 * o.tail.toNat)) (e.bytes o.phase)) s1)
    let s3 := if o.lost = 0 then s2 else logEvent 0x0108 0 0 o.lost s2
    addPend .admin s3
/-- EVENT_RECORD. -/
def execEventRecord (s : State) : Host.Outcome State Fault Refusal := .next (eventRecord s)

end Sys2Proof.Machine
end

