-- ==== Sys2Proof/Machine/Servo.lean ====
section
/-! DEFINITION. The arm link and bring-up (R277–R284), and the servo (R301–R319): Colzor frames, wedges, the loop, seeks,
the write gate, reacquisition and servo doubts. -/

namespace Sys2Proof.Machine

/-! Faults of a cell. -/

/-- The arm link is lost (R279). -/
def armLost (c : CellId) (s : State) : State :=
  logEvent 0x0801 c.val 0 0 ((cellFault c 1 s).updArm c (fun a => { a with up := false }))
/-- A servo doubt (R317, R318): FAULT stays ARM_LINK_LOSS where the link is lost. -/
def servoDoubt (c : CellId) (cause : BitVec 3) (s : State) : State :=
  if (s.cell c).fault = 2 then s
  else
    let code : BitVec 3 := if (s.cell c).fault = 1 then 1 else 2
    logEvent 0x0806 c.val cause.toNat 0 ((cellFault c code s).updServo c (fun v => { v with doubt := cause }))
/-- A thermal fault (R281). -/
def thermal (c : CellId) (s : State) : State :=
  if (s.cell c).fault = 3 then s
  else logEvent 0x0802 c.val (s.cell c).temp.toNat 0 (cellFault c 3 s)
/-- The cell is treated as absent at bring-up (R250, R282). -/
def treatAbsent (c : CellId) (s : State) : State :=
  let s1 := cellOff c s
  cellLost c (s1.updCell c (fun x => { x with fault := 4 }))

/-! Bring-up. -/

/-- Spindles start in ascending cell order, at most 4 at a time (R282 step 5). -/
def startSpins (s : State) : State :=
  if s.inHold then s
  else allCells.foldl (fun s c =>
    if (s.cell c).bring = .queued ∧ (s.cells.filter (fun p => decide (p.2.bring = .spinning))).length < 4 then
      armSend c 0x3 1 (s.updCell c (fun x => { x with bring := .spinning, since := s.clk.beat }))
    else s) s
/-- Pages 3 to 5 have been read (steps 2 to 5 of R282). -/
def pagesDone (c : CellId) (s : State) : State :=
  let x := s.cell c
  if x.ident.setWidth 8 ≠ 1#8 then treatAbsent c s
  else
    let x1 := if x.serial = x.storedSerial then x
      else { x with remap := [], remapUsed := 0, storedSerial := x.serial }
    let s1 := s.setCell c { x1 with bring := .queued }
    startSpins ((List.range 5).foldl (fun s k =>
      armSend c 0x5 (bits 0 8 (s.reg (0x12008 + 0x400 * c.val + 4 * k)) + 256 * (k + 1)) s) s1)
/-- The heads are loaded at step 6 of R282 (R311). -/
def loadHeads (c : CellId) (s : State) : State :=
  s.updCell c (fun x => { x with
    bring := .loading, since := s.clk.beat, clockLock := false
    servo := { x.servo with loaded := true, heard := false, frames := [], missed := 0 } })
/-- Every cell reports PARKED while Service is left (R337 step 4). -/
def leftParked (s : State) : State :=
  if s.pwr.transition = some .leaveService ∧ s.mediaOn ∧ allParked s then mediaOff s else s
/-- A STATUS page 0 with the watchdog bit set is a servo doubt on a cell whose heads were loaded to work. -/
def watchdogBit (c : CellId) (d : BitVec 16) (s : State) : Bool :=
  let x := s.cell c
  d.getLsbD 2 && x.servo.loaded && !x.arm.parking && x.closing.isNone &&
    (decide (x.bring = .acquiring) || decide (x.bring = .ready)) && s.pwr.transition != some .leaveService
/-- AT_SPEED and PARKED as STATUS page 0 gives them. -/
def pageBits (c : CellId) (d : BitVec 16) (s : State) : State :=
  let x := s.cell c
  s.setCell c { x with
    atSpeed := d.getLsbD 0, parked := d.getLsbD 1
    arm := { x.arm with parking := x.arm.parking && !d.getLsbD 1 }
    servo := { x.servo with loaded := x.servo.loaded && !(d.getLsbD 1 && decide (x.bring ≠ .loading)) } }
/-- The watchdog's servo doubt: the heads were loaded when it struck. -/
def watchdogDoubt (c : CellId) (d : BitVec 16) (s : State) : State :=
  servoDoubt c 7 (s.updServo c (fun v => { v with loaded := v.loaded || !d.getLsbD 1 }))
/-- A cell that spins up and reports AT_SPEED loads its heads, and the next one spins. -/
def pageSpeed (c : CellId) (d : BitVec 16) (s : State) : State :=
  if d.getLsbD 0 ∧ (s.cell c).bring = .spinning then startSpins (loadHeads c s) else s
/-- A cell that was to end reports PARKED: it is off, and comes up again where it may. -/
def pageParked (c : CellId) (d : BitVec 16) (s : State) : State :=
  if d.getLsbD 1 ∧ (s.cell c).closing.isSome then bringUp c (cellOff c s) else s
/-- STATUS page 0 (R280, R281, R282, R310, R312, R317, R333). -/
def page0 (c : CellId) (d : BitVec 16) (s : State) : State :=
  let s1 := if d.getLsbD 3 then thermal c (pageBits c d s) else pageBits c d s
  let s2 := if watchdogBit c d s then watchdogDoubt c d s1 else s1
  leftParked (pageParked c d (pageSpeed c d s2))
/-- STATUS page 2 (R280, R281). -/
def page2 (c : CellId) (d : BitVec 16) (s : State) : State :=
  let lim : Int := 2 * bits 0 8 (s.reg (0x12020 + 0x400 * c.val))
  let n := if lim ≤ d.toInt then (s.cell c).hot + 1 else 0
  let s1 := s.updCell c (fun x => { x with temp := d, hot := n })
  if 2 ≤ n then thermal c s1 else s1
/-- What a STATUS response brings (R280). -/
def statusPage (c : CellId) (page : Nat) (d : BitVec 16) (s : State) : State :=
  if page = 0 then page0 c d s
  else if page = 2 then page2 c d s
  else if page = 3 then s.updCell c (fun x => { x with ident := d })
  else if page = 4 then s.updCell c (fun x => { x with serial := (x.serial &&& 0xFFFF0000) ||| d.setWidth 32 })
  else if page = 5 then
    let s1 := s.updCell c (fun x => { x with serial := (x.serial &&& 0x0000FFFF) ||| (d.setWidth 32 <<< 16) })
    if (s1.cell c).bring = .pages then pagesDone c s1 else s1
  else s

/-! The arm link. -/

/-- CMD of a frame (R278). -/
def frmCmd (f : Word) : Nat := bits 28 4 f
/-- SEQ of a frame. -/
def frmSeq (f : Word) : Nat := bits 26 2 f
/-- ARG of a command frame. -/
def frmArg (f : Word) : Nat := bits 8 18 f
/-- A response passes its CRC, echoes CMD and SEQ and does not carry ACK 0b10 (R279) (DESIGN CHOICE, log 27). -/
def responsePasses (sent f : Word) : Bool :=
  (crc8 f == f.setWidth 8) && frmCmd f == frmCmd sent && frmSeq f == frmSeq sent && bits 24 2 f != 2
/-- A failing response (R279): counted, and its command sent again in the next free slot; a newer demand replaces it
(R309). -/
def responseFails (c : CellId) (sent : Word) (s : State) : State :=
  let p : BitVec 4 × BitVec 18 := (BitVec.ofNat 4 (frmCmd sent), BitVec.ofNat 18 (frmArg sent))
  let s1 := bump (cCell c 0x48) 1 (s.updArm c (fun a => { a with
    badRun := a.badRun + 1, badTick := a.badTick + 1
    queue := if p.1 = 2 ∧ a.queue.any (fun q => q.1 == 2) then a.queue else p :: a.queue }))
  if (4 ≤ (s1.cell c).arm.badRun ∨ 16 ≤ (s1.cell c).arm.badTick) ∧ (s1.cell c).fault ≠ 1 then armLost c s1 else s1
/-- ARM_LINK_RESPONSE (R277–R282): the response to the command of the last slot, then the next slot's command
(DESIGN CHOICE, log 27). -/
def armResponse (c : CellId) (f : Word) (s : State) : State :=
  let x := s.cell c
  match x.arm.sent with
  | none => s
  | some sent =>
    if x.bring = .off ∨ !s.mediaOn ∨ !s.awake then s
    else
      let s1 :=
        if responsePasses sent f then
          let s1 := s.updArm c (fun a => { a with badRun := 0, up := true })
          if bits 24 2 f = 0 ∧ frmCmd f = 6 then statusPage c (frmArg sent % 8) (BitVec.ofNat 16 (bits 8 16 f)) s1 else s1
        else responseFails c sent s
      if (s1.cell c).bring = .off then s1 else armSlot c (startSpins s1)
/-- ARM_LINK_RESPONSE. -/
def execArmLinkResponse (c : CellId) (frame : Word) (s : State) : Host.Outcome State Fault Refusal :=
  .next (armResponse c frame s)
/-- ARM_LINK_LOST (R279): four responses in a row, or sixteen within the tick, have failed. -/
def execArmLinkLost (c : CellId) (s : State) : Host.Outcome State Fault Refusal :=
  .next (if (4 ≤ (s.cell c).arm.badRun ∨ 16 ≤ (s.cell c).arm.badTick) ∧ (s.cell c).fault ≠ 1 ∧ (s.cell c).bring ≠ .off ∧ s.awake then
      armLost c s
    else s)
/-- SPIN_UP_TIMEOUT (R282): AT_SPEED has not been reported within 15 s. -/
def execSpinUpTimeout (c : CellId) (s : State) : Host.Outcome State Fault Refusal :=
  .next (if (s.cell c).bring = .spinning ∧ s.awake then
      startSpins (treatAbsent c (elapseTo ((s.cell c).since.toNat + 15000000000) s))
    else s)
/-- CLOCK_LOCK (R282 step 6, R311): the clock track is locked; index sync found, the heads follow track 0. -/
def execClockLock (c : CellId) (s : State) : Host.Outcome State Fault Refusal :=
  .next (if (s.cell c).bring = .loading ∧ (s.cell c).servo.loaded ∧ s.awake then
      s.updCell c (fun x => { x with
        clockLock := true, bring := .acquiring
        servo := { x.servo with
          target := 0, surface := 1, seeking := false, tracking := false, writeSettled := false, reacquiring := false
          run := 0, goodRun := 0, goodBefore := 0, readRun := 0, writeRun := 0, unknownRun := 0, acq := 0, wedge := 359
          refs := [], integral := 0, prevErr := 0 } })
    else s)
/-- CLOCK_LOCK_LOSS (R284, R317). -/
def execClockLockLoss (c : CellId) (s : State) : Host.Outcome State Fault Refusal :=
  .next (if (s.cell c).clockLock ∧ (s.cell c).servo.loaded ∧ s.awake then
      servoDoubt c 1 (s.updCell c (fun x => { x with clockLock := false }))
    else s)

/-! Colzor frames. -/

/-- 65,536 guard tracks in position units: positions here count from track 0, as SRV_n.POSITION does (R301, R319). -/
def guardUnits : Int := 16777216
/-- 256 × x of a frame: x = 192 − mean (tB − tF), the intervals in 1/64 cycle (R303). -/
def colzorX (pairs : List Int) : Int := 49152 - tdiv (4 * pairs.foldl (· + ·) 0) pairs.length
/-- The frame's position (R303): within 8 tracks of a band edge, the band or a neighbour nearest the prediction; without
a prediction such a frame is not used. -/
def colzorPos (pred : Option Int) (o : ColzorObs) : Option Int :=
  let x := colzorX o.pairs
  let at_ := fun (b : Int) => 16384 * ((o.band : Int) + b) + x - guardUnits
  if 2048 ≤ x ∧ x < 14336 then some (at_ 0)
  else match pred with
  | none => none
  | some p =>
    let better := fun (u v : Int) => if (v - p).natAbs < (u - p).natAbs then v else u
    some (better (better (at_ 0) (at_ (-1))) (at_ 1))
/-- COLZOR_FRAME (R303, R317): a missed frame is counted, the sixteenth in a row is a servo doubt. -/
def colzorFrame (c : CellId) (o : ColzorObs) (s : State) : State :=
  let v := (s.cell c).servo
  if !v.loaded || !s.mediaOn || !s.awake then s
  else if !o.sync || !o.codeOk || decide (o.pairs.length < 6) then
    let s1 := bump (cCell c 0x98) 1 (s.updServo c (fun v => { v with missed := v.missed + 1 }))
    if v.missed + 1 = 16 then servoDoubt c 3 s1 else s1
  else
    s.updServo c (fun v => { v with
      missed := 0, heard := true
      wedge := if o.index ∧ (s.cell c).bring ≠ .ready then 359 else v.wedge
      frames := match colzorPos v.estimate o with | some y => v.frames ++ [y] | none => v.frames })
/-- COLZOR_FRAME. -/
def execColzorFrame (c : CellId) (o : ColzorObs) (s : State) : Host.Outcome State Fault Refusal :=
  .next (colzorFrame c o s)

/-! Wedges. -/

/-- The sign of a track (R305). -/
def trackSign (t : Int) : Int := if t % 2 = 0 then 1 else -1
/-- The track whose centre lies nearest a position. -/
def nearTrack (y : Int) : Int := (y + 128) / 256
/-- A burst of amplitude `a` falls below its prediction by more than LOSS_MARGIN % of REF (R306): `sgn` is s for burst A
and −s for burst B, `e` the predicted offset; without a reference nothing is predicted (DEDUCED, log 26). -/
def burstLost (refs : List Nat) (margin : Nat) (sgn e : Int) (a : Nat) : Bool :=
  decide (refs ≠ []) &&
  decide ((a : Int) * 25600 * refs.length < (refs.sum : Int) * (100 * (128 + sgn * e) - 256 * margin))
/-- READ_LIMIT in position units (R319). -/
def readLimit (c : CellId) (s : State) : Nat := bits 0 8 (s.reg (0x16014 + 0x400 * c.val)) * 256 / 100
/-- One wedge as decided (R305–R307). -/
structure WedgeDec where
  lost : Nat
  degraded : Bool
  yw : Int
  yd : Option Int
  est : Option Int
/-- Decide a wedge (R303, R305–R307). During reacquisition the estimate follows the dedicated surface alone (R316)
(DEDUCED, log 26). -/
def decideWedge (v : Servo) (margin : Nat) (o : WedgeObs) : WedgeDec :=
  let zone := zoneOfTrack (v.target.toNat / 256)
  let off := v.offsets.get 0 (12 * v.surface + zone)
  let yd : Option Int := if v.frames.length < 2 then none else some (tdiv (v.frames.foldl (· + ·) 0) v.frames.length)
  let at_ := match yd with | some y => y + off | none => v.target
  let e := at_ - 256 * nearTrack at_
  let sgn := trackSign (nearTrack at_)
  let la := burstLost v.refs margin sgn e o.burstA
  let lb := burstLost v.refs margin (-sgn) e o.burstB
  let far := match yd with | some y => decide (1 < (o.track - nearTrack y).natAbs) | none => false
  let degraded := la || lb || !o.mark || !o.parityOk || o.index != (v.wedge + 1) % 360 || far ||
    decide (o.burstA + o.burstB = 0)
  let pes := trackSign o.track * tdiv (((o.burstA : Int) - o.burstB) * 128) (o.burstA + o.burstB)
  let yw := 256 * o.track + pes
  { lost := bit la + bit lb, degraded, yw, yd
    est := if degraded || v.reacquiring then yd.map (· + off) else some yw }
/-- The loop's demand (R308). -/
def loopDemand (loop : Word) (v : Servo) (e integral : Int) : Int :=
  clamp 131071 (tdiv ((bits 0 8 loop : Int) * e + (bits 8 8 loop : Int) * (e - v.prevErr) + (bits 16 8 loop : Int) * integral) 64)
/-- The servo is on its way to a target more than 64 tracks off: its demand follows the velocity profile (R313), of which the
manual states no value (DESIGN CHOICE, log 4). -/
def onProfile (v : Servo) (e : Int) : Bool := v.seeking && decide (16384 < e.natAbs)
/-- The servo after a decided wedge (R306–R308, R313, R314, R316); `profile` is the demand of the velocity profile. -/
def servoAfter (v : Servo) (d : WedgeDec) (o : WedgeObs) (loop : Word) (rl settle : Nat) (profile : Int) : Servo :=
  let e := match d.est with | some y => y - v.target | none => v.err
  let known := d.est.isSome
  let good := !d.degraded
  let zone := zoneOfTrack (v.target.toNat / 256)
  let key := 12 * v.surface + zone
  let off := v.offsets.get 0 key
  let integral := if known then clamp 65536 (v.integral + e) else v.integral
  let readRun := if good ∧ e.natAbs ≤ rl then v.readRun + 1 else 0
  let writeRun := if good ∧ e.natAbs ≤ 20 then v.writeRun + 1 else 0
  { v with
    wedge := (v.wedge + 1) % 360, frames := []
    estimate := d.est, position := d.est.getD v.position, err := e, degraded := d.degraded, unknown := !known
    offsets := match good, d.yd with
      | true, some y => v.offsets.set 0 key (off + tdiv (d.yw - y - off) 16)
      | _, _ => v.offsets
    refs := if good then (o.burstA + o.burstB) :: v.refs.take 15 else v.refs
    run := if good then 0 else v.run + 1
    goodBefore := if !good ∧ v.run = 0 then v.goodRun else v.goodBefore
    goodRun := if good then v.goodRun + 1 else 0
    unknownRun := if known then 0 else v.unknownRun + 1
    integral := integral
    demand := if !known then v.demand else if onProfile v e then profile else loopDemand loop v e integral
    prevErr := if known then e else v.prevErr
    readRun := readRun, writeRun := writeRun
    tracking := !v.reacquiring && known && decide (e.natAbs ≤ rl) && (v.tracking || decide (2 ≤ readRun))
    writeSettled := !v.reacquiring && (v.writeSettled || decide (settle ≤ writeRun))
    seeking := v.seeking && decide (readRun < 2)
    seekFails := if 2 ≤ readRun then 0 else v.seekFails
    reacqWedges := if v.reacquiring then v.reacqWedges + 1 else 0
    reacquiring := v.reacquiring && decide ((if good then v.goodRun + 1 else 0) < 4) }
/-- One VCM_DEMAND goes out for the wedge (R309); a newer demand replaces one that waits. -/
def sendDemand (c : CellId) (s : State) : State :=
  s.updCell c (fun x =>
    if x.arm.parking then x
    else { x with arm := { x.arm with
      queue := x.arm.queue.filter (fun q => q.1 != 2) ++ [(2, BitVec.ofInt 18 x.servo.demand)] } })
/-- The write-gate rule on a write in progress (R314, R296) (DEDUCED, log 25). -/
def gateRule (c : CellId) (s : State) : State :=
  let x := s.cell c
  let v := x.servo
  if x.writing.isNone then s
  else
    let c2 := v.estimate.isSome && decide (v.err.natAbs < 31)
    let c3 := v.run == 0 || (decide (v.run ≤ 2) && v.estimate.isSome && decide (v.err.natAbs ≤ 15) && decide (2 ≤ v.goodBefore))
    let s1 := if c2 then s else bump (cCell c 0xA0) 1 (mark (0x16000 + 0x400 * c.val) 16 (s.updServo c (fun v => { v with inhibit := true })))
    let s2 := if c3 then s1 else
      logEvent 0x0805 c.val v.wedge 0 (bump (cCell c 0xA8) 1
        (mark (0x16000 + 0x400 * c.val) 17 (s1.updServo c (fun v => { v with degradedStop := true }))))
    if c2 && c3 && v.writeSettled then s2 else dropGate c s2
/-- Reacquisition begins (R316). -/
def reacquire (c : CellId) (s : State) : State :=
  let v := (s.cell c).servo
  if s.awake ∧ (s.cell c).bring = .ready ∧ v.loaded ∧ !v.reacquiring ∧ (8 ≤ v.run ∨ 2 ≤ v.unknownRun) then
    bump (cCell c 0xC8) 1 ((dropGate c s).updServo c (fun v => { v with
      reacquiring := true, reacqWedges := 0, tracking := false, writeSettled := false, readRun := 0, writeRun := 0, goodRun := 0 }))
  else s
/-- REACQUISITION. -/
def execReacquisition (c : CellId) (s : State) : Host.Outcome State Fault Refusal := .next (reacquire c s)
/-- A cell that acquires wedges (R311): after 8 consecutive good ones it reads one revolution on each of surfaces 1 to 5,
then it is READY (R282 step 7) (DEDUCED, log 26). -/
def acquireStep (c : CellId) (s : State) : State :=
  let v := (s.cell c).servo
  if (s.cell c).bring ≠ .acquiring then s
  else if v.acq = 0 then (if 8 ≤ v.goodRun then s.updServo c (fun v => { v with acq := 1 }) else s)
  else if v.acq < 1800 then
    let s1 := s.updServo c (fun v => { v with acq := v.acq + 1 })
    if v.acq % 360 = 0 then
      armSend c 0x1 (v.acq / 360 + 1) (s1.updServo c (fun v => { v with surface := v.acq / 360 + 1, refs := [] }))
    else s1
  else
    serveNext c (s.updCell c (fun x => { x with
      ready := true, fault := 0, bring := .ready, servo := { x.servo with acq := 0, seeking := false } }))
/-- The demand of the velocity profile, which the spec gives no numbers for: a free value, drawn when it is used (log 4). -/
def profileDemand (v : Servo) (e : Int) (s : State) : Word × State := if onProfile v e then freeWord s else (0, s)
/-- What follows from the servo `v` that a wedge has left, once the demand is sent: a doubt after 360 wedges of reacquisition
or past an offset of 1,024 units, else the bring-up and the waiting write go on. -/
def wedgeEnd (c : CellId) (v : Servo) (s : State) : State :=
  if v.reacquiring ∧ 360 ≤ v.reacqWedges then servoDoubt c 2 s
  else if 1024 < (v.offsets.get 0 (12 * v.surface + zoneOfTrack (v.target.toNat / 256))).natAbs then servoDoubt c 4 s
  else startWrite c (acquireStep c s)
/-- The wedge `o` is decided: the servo that it leaves, its counters, and what follows from it. -/
def wedgeTaken (c : CellId) (o : WedgeObs) (s : State) : State :=
  let x := s.cell c
  let lim := s.reg (0x16014 + 0x400 * c.val)
  let d := decideWedge x.servo (bits 8 8 lim) o
  let f := profileDemand x.servo (match d.est with | some y => y - x.servo.target | none => 0) s
  let v := servoAfter x.servo d o (s.reg (0x16010 + 0x400 * c.val)) (readLimit c s) (bits 16 4 lim) (f.1.setWidth 18).toInt
  let s1 := bump (cCell c 0x80) 1 (bump (cCell c 0x88) (bit d.degraded) (bump (cCell c 0x90) d.lost
    (f.2.setCell c { x with servo := v })))
  wedgeEnd c v (reacquire c (sendDemand c (gateRule c s1)))
/-- A cell takes wedges while its heads are loaded, its clock is locked and it acquires or is READY. -/
def takesWedge (c : CellId) (s : State) : Bool :=
  let x := s.cell c
  s.awake && x.servo.loaded && x.clockLock && (decide (x.bring = .acquiring) || decide (x.bring = .ready))
/-- WEDGE (R305–R309, R313–R317): the wedge is decided, and what follows from it is done in its window. -/
def wedgeStep (c : CellId) (o : WedgeObs) (s : State) : State :=
  if takesWedge c (lateGates s) then wedgeTaken c o (lateGates s) else lateGates s
/-- WEDGE. -/
def execWedge (c : CellId) (o : WedgeObs) (s : State) : Host.Outcome State Fault Refusal := .next (wedgeStep c o s)

/-! Seeks, loads and doubts. -/

/-- SEEK_FAIL (R313, R317): not read-settled within 40 ms; the cell seeks again, or the third failure in a row is a
servo doubt. -/
def seekFail (c : CellId) (s : State) : State :=
  let v := (s.cell c).servo
  if !v.seeking || !v.loaded || !s.awake then s
  else
    let s1 := elapseTo (v.seekAt.toNat + 40000000) s
    let s2 := bump (cCell c 0xC0) 1 (mark (0x16000 + 0x400 * c.val) 18 (s1.updServo c (fun v => { v with
      seekFail := true, seekFails := v.seekFails + 1, seekAt := s1.clk.beat, readRun := 0, writeRun := 0 })))
    if 3 ≤ v.seekFails + 1 then servoDoubt c 5 s2 else bump (cCell c 0xB8) 1 s2
/-- SEEK_FAIL. -/
def execSeekFail (c : CellId) (s : State) : Host.Outcome State Fault Refusal := .next (seekFail c s)
/-- The heads are loaded, and no Colzor frame has decoded yet. -/
def loadFails (c : CellId) (s : State) : Bool :=
  let x := s.cell c
  s.awake && x.servo.loaded && !x.servo.heard && (decide (x.bring = .loading) || decide (x.bring = .acquiring))
/-- HEAD_LOAD_FAIL (R311, R317): no Colzor frame has decoded within 300 ms of the load. -/
def execHeadLoadFail (c : CellId) (s : State) : Host.Outcome State Fault Refusal :=
  .next (if loadFails c s then
      servoDoubt c 6 (elapseTo ((s.cell c).since.toNat + 300000000) s)
    else s)
/-- The trigger of a servo doubt stands (R317). -/
def doubtStands (c : CellId) (cause : BitVec 3) (s : State) : Bool :=
  let x := s.cell c
  let v := x.servo
  let on := v.loaded && decide (x.bring = .ready)
  if cause = 1 then on && !x.clockLock
  else if cause = 2 then on && v.reacquiring && decide (360 ≤ v.reacqWedges)
  else if cause = 3 then v.loaded && decide (16 ≤ v.missed)
  else if cause = 4 then
    on && decide (1024 < (v.offsets.get 0 (12 * v.surface + zoneOfTrack (v.target.toNat / 256))).natAbs)
  else if cause = 5 then v.loaded && decide (3 ≤ v.seekFails)
  else if cause = 6 then
    loadFails c s && decide (x.since.toNat + 300000000 ≤ s.clk.beat.toNat)
  else false
/-- SERVO_DOUBT: a doubt whose trigger stands. -/
def execServoDoubt (c : CellId) (cause : BitVec 3) (s : State) : Host.Outcome State Fault Refusal :=
  .next (if s.awake ∧ doubtStands c cause s then servoDoubt c cause s else s)

end Sys2Proof.Machine
end

