-- ==== Sys2Proof/Machine/Dispatch.lean ====
section
/-! DEFINITION. One arm per command: each calls the command's own meaning (R3, the operation table). -/

namespace Sys2Proof.Machine

/-- What a command does to everything but the queue of waiting commands. -/
def exec (i : Instr) (s : State) : Host.Outcome State Fault Refusal :=
  match i with
  | .powerOn b => Sys2Proof.Machine.execPowerOn b s
  | .supplyLoss rail mv => Sys2Proof.Machine.execSupplyLoss rail mv s
  | .pfNAssert ends => Sys2Proof.Machine.execPfNAssert ends s
  | .pfNDeassert b => Sys2Proof.Machine.execPfNDeassert b s
  | .wakeN b => Sys2Proof.Machine.execWakeN b s
  | .perstN low b => Sys2Proof.Machine.execPerstN low b s
  | .zeroN whole test b => Sys2Proof.Machine.execZeroN whole test b s
  | .lpOverload b => Sys2Proof.Machine.execLpOverload b s
  | .hostLinkReset r => Sys2Proof.Machine.execHostLinkReset r s
  | .linkTrained speed width => Sys2Proof.Machine.execLinkTrained speed width s
  | .flr => Sys2Proof.Machine.execFlr s
  | .flrCaptureResume => Sys2Proof.Machine.execFlrCaptureResume s
  | .flrDone => Sys2Proof.Machine.execFlrDone s
  | .d3hotEntry => Sys2Proof.Machine.execD3hotEntry s
  | .d0Return => Sys2Proof.Machine.execD0Return s
  | .l1Entry partner => Sys2Proof.Machine.execL1Entry partner s
  | .msixEnable => Sys2Proof.Machine.execMsixEnable s
  | .msixUnmask v => Sys2Proof.Machine.execMsixUnmask v s
  | .coalesceTime v => Sys2Proof.Machine.execCoalesceTime v s
  | .tlpDiscard e => Sys2Proof.Machine.execTlpDiscard e s
  | .bar0ReadAbort offset len => Sys2Proof.Machine.execBar0ReadAbort offset len s
  | .bar2Stray a => Sys2Proof.Machine.execBar2Stray a s
  | .bar4Read offset len => Sys2Proof.Machine.execBar4Read offset len s
  | .bar4Write offset len => Sys2Proof.Machine.execBar4Write offset len s
  | .registerWrite offset size full value => Sys2Proof.Machine.execRegisterWrite offset size full value s
  | .cfgRejectClear => Sys2Proof.Machine.execCfgRejectClear s
  | .beatLoRead => Sys2Proof.Machine.execBeatLoRead s
  | .taiLoRead => Sys2Proof.Machine.execTaiLoRead s
  | .wardHighLoRead => Sys2Proof.Machine.execWardHighLoRead s
  | .serialLoRead => Sys2Proof.Machine.execSerialLoRead s
  | .srcPll => Sys2Proof.Machine.execSrcPll s
  | .srcOscillator => Sys2Proof.Machine.execSrcOscillator s
  | .setNow => Sys2Proof.Machine.execSetNow s
  | .setAtPps => Sys2Proof.Machine.execSetAtPps s
  | .setAtPpsTimeout => Sys2Proof.Machine.execSetAtPpsTimeout s
  | .taiRateWrite v => Sys2Proof.Machine.execTaiRateWrite v s
  | .ppsCtrlWrite v => Sys2Proof.Machine.execPpsCtrlWrite v s
  | .ppsEdge wait => Sys2Proof.Machine.execPpsEdge wait s
  | .taiSlew => Sys2Proof.Machine.execTaiSlew s
  | .holdover => Sys2Proof.Machine.execHoldover s
  | .ppsOutRise => Sys2Proof.Machine.execPpsOutRise s
  | .ppsOutFall => Sys2Proof.Machine.execPpsOutFall s
  | .pllLock => Sys2Proof.Machine.execPllLock s
  | .pllLoss => Sys2Proof.Machine.execPllLoss s
  | .tick e => Sys2Proof.Machine.execTick e s
  | .imagePublish => Sys2Proof.Machine.execImagePublish s
  | .officerIdle => Sys2Proof.Machine.execOfficerIdle s
  | .officerLockoutEnd => Sys2Proof.Machine.execOfficerLockoutEnd s
  | .officerLockout => Sys2Proof.Machine.execOfficerLockout s
  | .lockout w => Sys2Proof.Machine.execLockout w s
  | .malformedRate w => Sys2Proof.Machine.execMalformedRate w s
  | .mediaStall => Sys2Proof.Machine.execMediaStall s
  | .appendAge w => Sys2Proof.Machine.execAppendAge w s
  | .destageAge a => Sys2Proof.Machine.execDestageAge a s
  | .idlePark c => Sys2Proof.Machine.execIdlePark c s
  | .chainWaitTimeout c => Sys2Proof.Machine.execChainWaitTimeout c s
  | .drbgReseed => Sys2Proof.Machine.execDrbgReseed s
  | .noiseHealthFail adaptive => Sys2Proof.Machine.execNoiseHealthFail adaptive s
  | .coldRestart key ends b => Sys2Proof.Machine.execColdRestart key ends b s
  | .voteSet v => Sys2Proof.Machine.execVoteSet v s
  | .voteClr v => Sys2Proof.Machine.execVoteClr v s
  | .sleepVote => Sys2Proof.Machine.execSleepVote s
  | .transitionEnd b => Sys2Proof.Machine.execTransitionEnd b s
  | .holdRelease key => Sys2Proof.Machine.execHoldRelease key s
  | .adminEnable => Sys2Proof.Machine.execAdminEnable s
  | .adminDisable => Sys2Proof.Machine.execAdminDisable s
  | .evlogHeadWrite v => Sys2Proof.Machine.execEvlogHeadWrite v s
  | .ratBWrite n v => Sys2Proof.Machine.execRatBWrite n v s
  | .upCfgWrite n v => Sys2Proof.Machine.execUpCfgWrite n v s
  | .pinSwitchSettle n => Sys2Proof.Machine.execPinSwitchSettle n s
  | .adminFetch => Sys2Proof.Machine.execAdminFetch s
  | .roundaboutTurn => Sys2Proof.Machine.execRoundaboutTurn s
  | .entryArrival c entry => Sys2Proof.Machine.execEntryArrival c entry s
  | .ringReadFail c why => Sys2Proof.Machine.execRingReadFail c why s
  | .ringReadRetry c => Sys2Proof.Machine.execRingReadRetry c s
  | .dmaAbort job why => Sys2Proof.Machine.execDmaAbort job why s
  | .jobBegin job => Sys2Proof.Machine.execJobBegin job s
  | .heldCommandEval job => Sys2Proof.Machine.execHeldCommandEval job s
  | .read job tagFail => Sys2Proof.Machine.execRead job tagFail s
  | .write job => Sys2Proof.Machine.execWrite job s
  | .trim job => Sys2Proof.Machine.execTrim job s
  | .openWard job intact => Sys2Proof.Machine.execOpenWard job intact s
  | .sealWard job => Sys2Proof.Machine.execSealWard job s
  | .setCredential job intact => Sys2Proof.Machine.execSetCredential job intact s
  | .wardInfo job => Sys2Proof.Machine.execWardInfo job s
  | .identify job => Sys2Proof.Machine.execIdentify job s
  | .officerAuth job => Sys2Proof.Machine.execOfficerAuth job s
  | .officerLogout job => Sys2Proof.Machine.execOfficerLogout job s
  | .setOfficerCredential job whole => Sys2Proof.Machine.execSetOfficerCredential job whole s
  | .setTelemetryKey job => Sys2Proof.Machine.execSetTelemetryKey job s
  | .runSelfTest job fail => Sys2Proof.Machine.execRunSelfTest job fail s
  | .zeroize job whole test => Sys2Proof.Machine.execZeroize job whole test s
  | .createWard job => Sys2Proof.Machine.execCreateWard job s
  | .destroyWard job => Sys2Proof.Machine.execDestroyWard job s
  | .resetWard job => Sys2Proof.Machine.execResetWard job s
  | .resizeWard job => Sys2Proof.Machine.execResizeWard job s
  | .setWardRings job => Sys2Proof.Machine.execSetWardRings job s
  | .setWardSched job => Sys2Proof.Machine.execSetWardSched job s
  | .flushQueue job => Sys2Proof.Machine.execFlushQueue job s
  | .tumblerWrite job => Sys2Proof.Machine.execTumblerWrite job s
  | .groupSetCreate job => Sys2Proof.Machine.execGroupSetCreate job s
  | .groupSetSetSpare job => Sys2Proof.Machine.execGroupSetSetSpare job s
  | .groupSetDelete job => Sys2Proof.Machine.execGroupSetDelete job s
  | .rebuildCtrlStart job => Sys2Proof.Machine.execRebuildCtrlStart job s
  | .rebuildCtrlStop job => Sys2Proof.Machine.execRebuildCtrlStop job s
  | .scrubCtrlStart job => Sys2Proof.Machine.execScrubCtrlStart job s
  | .scrubCtrlStop job => Sys2Proof.Machine.execScrubCtrlStop job s
  | .wayRestore job => Sys2Proof.Machine.execWayRestore job s
  | .eventLogSetEnable job => Sys2Proof.Machine.execEventLogSetEnable job s
  | .eventLogSetDisable job => Sys2Proof.Machine.execEventLogSetDisable job s
  | .intentReserve => Sys2Proof.Machine.execIntentReserve s
  | .ledgerRound bad tagFail => Sys2Proof.Machine.execLedgerRound bad tagFail s
  | .kccUnwrap intact => Sys2Proof.Machine.execKccUnwrap intact s
  | .cacheFill a => Sys2Proof.Machine.execCacheFill a s
  | .destageStart a tagFail => Sys2Proof.Machine.execDestageStart a tagFail s
  | .sectorWriteDone c k => Sys2Proof.Machine.execSectorWriteDone c k s
  | .scacheEccError way kind => Sys2Proof.Machine.execScacheEccError way kind s
  | .wayRetired way kind => Sys2Proof.Machine.execWayRetired way kind s
  | .deferredDelta serial old tagFail => Sys2Proof.Machine.execDeferredDelta serial old tagFail s
  | .replay media rows tagFail => Sys2Proof.Machine.execReplay media rows tagFail s
  | .captureFrame wait e0 e1 => Sys2Proof.Machine.execCaptureFrame wait e0 e1 s
  | .capLinkLost p what got => Sys2Proof.Machine.execCapLinkLost p what got s
  | .eventRecord => Sys2Proof.Machine.execEventRecord s
  | .sectorRead k o => Sys2Proof.Machine.execSectorRead k o s
  | .retryPass k o => Sys2Proof.Machine.execRetryPass k o s
  | .repairRewrite k => Sys2Proof.Machine.execRepairRewrite k s
  | .tornRewrite c k => Sys2Proof.Machine.execTornRewrite c k s
  | .armLinkResponse c frame => Sys2Proof.Machine.execArmLinkResponse c frame s
  | .armLinkLost c => Sys2Proof.Machine.execArmLinkLost c s
  | .presentAbsent c => Sys2Proof.Machine.execPresentAbsent c s
  | .spinUpTimeout c => Sys2Proof.Machine.execSpinUpTimeout c s
  | .clockLockLoss c => Sys2Proof.Machine.execClockLockLoss c s
  | .colzorFrame c o => Sys2Proof.Machine.execColzorFrame c o s
  | .wedge c o => Sys2Proof.Machine.execWedge c o s
  | .reacquisition c => Sys2Proof.Machine.execReacquisition c s
  | .seekFail c => Sys2Proof.Machine.execSeekFail c s
  | .headLoadFail c => Sys2Proof.Machine.execHeadLoadFail c s
  | .servoDoubt c cause => Sys2Proof.Machine.execServoDoubt c cause s
  | .initStripe g => Sys2Proof.Machine.execInitStripe g s
  | .rebuildStripe g rows => Sys2Proof.Machine.execRebuildStripe g rows s
  | .scrubRow g row => Sys2Proof.Machine.execScrubRow g row s
  | .jtagIdcode => Sys2Proof.Machine.execJtagIdcode s
  | .jtagBypass code => Sys2Proof.Machine.execJtagBypass code s
  | .jtagExtest => Sys2Proof.Machine.execJtagExtest s
  | .jtagSamplePreload => Sys2Proof.Machine.execJtagSamplePreload s
  | .smbReadWord addr cmd pec => Sys2Proof.Machine.execSmbReadWord addr cmd pec s
  | .smbUnsupported => Sys2Proof.Machine.execSmbUnsupported s
  | .uartXoff => Sys2Proof.Machine.execUartXoff s
  | .uartXon => Sys2Proof.Machine.execUartXon s
  | .capLinkUp p what => Sys2Proof.Machine.execCapLinkUp p what s
  | .clockLock c => Sys2Proof.Machine.execClockLock c s
  | .dataFetch job data => Sys2Proof.Machine.execDataFetch job data s
  | .busMasterEnable q => Sys2Proof.Machine.execBusMasterEnable q s
  | .l1Exit => Sys2Proof.Machine.execL1Exit s
  | .powerRemoval => Sys2Proof.Machine.execPowerRemoval s
  | .parkTimeout c => Sys2Proof.Machine.execParkTimeout c s
  | .gpioInChange n level => Sys2Proof.Machine.execGpioInChange n level s

end Sys2Proof.Machine
end

