-- ==== Sys2Proof/Machine/Step.lean ====
section
/-! DEFINITION. One step: the command at the front of the queue, or, where none waits, what the block does by itself. -/

namespace Sys2Proof.Machine

/-- Run the command at the front of the queue with the queue's rest; with none waiting the block goes on by itself
(DESIGN CHOICE, log 6 and 39; DEDUCED, log 40). -/
def step (s : State) : Host.Outcome State Fault Refusal :=
  match s.pending with
  | [] => .next (idleStep s)
  | i :: t => exec i { s with pending := t }

/-- Put the command that a word of the table spells at the front of the queue; no word spells one
(DESIGN CHOICE, log 2). -/
def State.withFetchWord (s : State) (nbits w : Nat) : State :=
  match decodeTableWord nbits w with
  | some i => { s with pending := i :: s.pending }
  | none => s

end Sys2Proof.Machine
end

