-- ==== Sys2Proof/Safety.lean ====
section
/-! DEFINITION. What counts as a safe run of the LW24, in the terms the claims use. -/

namespace Sys2Proof.Machine

/-- The step goes on: it neither faults nor refuses. -/
def Goes (r : Host.Outcome State Fault Refusal) : Prop := ∃ t, r = .next t

/-- A run of a list of commands from a state goes on to its end. -/
def SafeRun : List Instr → State → Prop
  | [], _ => True
  | i :: is, s => ∃ t, exec i s = .next t ∧ SafeRun is t

/-- The state is sound: the vote table and its complement agree (R346), and the tables of the state are in their one canonical
form (indexes strictly rising, no entry equal to what an unlisted index reads as), so that equal tables are equal data
(DESIGN CHOICE, log 42). The tables inside one cell and one cache line are left to their own operations. -/
structure Sound (s : State) : Prop where
  votes : s.pwr.votesInv = ~~~s.pwr.votes
  scratch : Tab.wf (fun _ => 0) s.pwr.scratch = true
  wards : Tab.wf (fun _ => {}) s.wards = true
  groups : Tab.wf (fun _ => {}) s.groups = true
  cells : Tab.wf (fun _ => {}) s.cells = true
  ports : Tab.wf (fun _ => {}) s.cap.ports = true
  tumbler : Tab.wf (fun _ => {}) s.cap.tumbler = true
  lines : Tab.wf (fun _ => {}) s.cache.lines = true
  errors : Tab.wf (fun _ => 0) s.cache.errors = true
  ranges : Tab.wf (fun _ => (0, 0)) s.cache.ratRange = true
  counters : Tab.wf (fun _ => 0) s.obs.counters = true
  image0 : Tab.wf (fun _ => 0) s.obs.image0.counters = true
  image1 : Tab.wf (fun _ => 0) s.obs.image1.counters = true
  checkpoint : Tab.wf (fun _ => 0) ((s.obs.checkpoint.map (·.counters)).getD []) = true
  volts : Tab.wf (fun _ => 0) s.obs.volts = true
  pins : Tab.wf (fun _ => 0) s.pin.cfg = true
  switching : Tab.wf (fun _ => none) s.pin.switching = true
  regs : Tab.wf regReset s.regs = true
  bars : Tab.wf (fun _ => 0) s.host.bars = true
  slots : Tab.wf (fun _ => []) s.ledger.slots = true

/-- What a power-down leaves of the state `s` (R346, R404, R61): MRAM and the AON banks alone. Registers that R404 stores keep
their values, every other one is at reset; no key, no session, no work in progress is left. -/
structure ColdStop (s t : State) : Prop where
  mode : t.pwr.mode = .deepStandby
  transition : t.pwr.transition = none
  stored : ∀ a, regStored a = true → t.reg a = s.reg a
  lost : ∀ a, regStored a = false → t.reg a = regReset a
  secrets : t.sec.keys = none ∧ t.sec.staging = none ∧ t.sec.drbgReady = false ∧ t.kcc.entries = []
  session : t.sec.session = false
  kept : t.sec.salt = s.sec.salt ∧ t.sec.provisioned = s.sec.provisioned ∧ t.sec.officerFails = s.sec.officerFails ∧
    t.sec.bootCount = s.sec.bootCount ∧ t.sec.zeroCount = s.sec.zeroCount
  work : t.ring.jobs = [] ∧ t.reads = [] ∧ t.recoveries = [] ∧ t.cache.lines = [] ∧ t.obs.events = []
  wards : ∀ w, (t.ward w).configured = false ∧ (t.ward w).openBlk = none ∧ (t.ward w).flush = none
  cells : ∀ c, (t.cell c).ready = false ∧ (t.cell c).wg = false ∧ (t.cell c).queue = []

/-- Job `j` has completed between `s` and `t` (R136, R137, R143): it is no longer among the fetched jobs, and, where its context
has rings, its completion entry with this status and detail went to the completion slot of `s`'s write position: sent with the
submission head, the phase and the beat of `s`, or held while the function may not issue DMA (R127). -/
def Completed (j : Job) (status detail : Nat) (s t : State) : Prop :=
  let r := s.ringOf j.ctx
  let slot := r.cqBase + BitVec.ofNat 64 (16 * r.cqTail)
  t.ring.jobs = listDrop (fun x => x.id == j.id) s.ring.jobs ∧
  (s.ringUp j.ctx = true → s.dmaOpen = true →
    Out.completion slot (complBytes j.tag status 0 r.sqHead detail (s.clk.beat.toNat % 2 ^ 32) r.phase j.chained) ∈ t.host.out) ∧
  (s.ringUp j.ctx = true → s.dmaOpen = false →
    Held.entry ⟨j.ctx, slot, j.tag, status, 0, detail, r.phase, j.chained⟩ ∈ t.host.held)

/-- Data for the host between `s` and `t` (R119, R121): `b` goes to `a` whole where it fits one write, else in pieces, or is held
while the function may not issue DMA. -/
def DataSent (a : DWord) (b : Bytes) (s t : State) : Prop :=
  (s.dmaOpen = true → ∀ p ∈ pieces s.maxPayload (b.length / s.maxPayload + 2) a b, Out.data p.1 p.2 s.relaxed ∈ t.host.out) ∧
  (s.dmaOpen = false → Held.data a b ∈ t.host.held)

/-- What held output is once it is written, in the state `s` (R119, R121, R136): data in its pieces, a completion entry with the
submission head and the beat of `s`. -/
def heldOut (s : State) : Held → List Out
  | .data a b => (pieces s.maxPayload (b.length / s.maxPayload + 2) a b).map (fun p => .data p.1 p.2 s.relaxed)
  | .entry e => [.completion e.addr (complBytes e.tag e.status e.orig (s.ringOf e.ctx).sqHead e.detail
      (s.clk.beat.toNat % 2 ^ 32) e.phase e.chained)]

/-- Everything held goes out between `s` and `t` in its original order, behind what was sent, and only messages come behind it
(R127). -/
def Released (s t : State) : Prop :=
  t.host.held = [] ∧ ∃ m, t.host.out = s.host.out ++ s.host.held.flatMap (heldOut s) ++ m ∧ ∀ o ∈ m, ∃ v, o = .msix v

/-- The admin job `id` carries opcode `op`, waits in phase `p`, no earlier job holds it back (R189–R191), its values are within
their limits (R164), its work is still to be done, and neither the error state nor Safe Hold turns it away (R85, R173). -/
structure AdminBegins (id op : Nat) (p : JobPhase) (j : Job) (s : State) : Prop where
  job : s.jobFor id op true = some j
  awake : s.awake = true
  phase : j.phase = p
  free : blocked j s = false
  allowed : turnedAway j s = false
  limits : pastLimit j.entry = false
  todo : j.doneWith = none

/-- The job `id` of ward `w` carries opcode `op`, waits in phase `p`, no earlier job holds it back, its values are within their
limits, and the ward is not FAULTED (R52, R164). -/
structure WardBegins (id op : Nat) (w : WardId) (p : JobPhase) (j : Job) (s : State) : Prop where
  job : s.jobFor id op false = some j
  awake : s.awake = true
  ctx : j.ctx = .ward w
  phase : j.phase = p
  free : blocked j s = false
  limits : pastLimit j.entry = false
  sound : (s.ward w).state ≠ .faulted

/-- A state-changing command may journal now: the Ledger takes a new intent in, and has two slots in its pool (R235, R239, R324,
R350). -/
structure LedgerOpen (s : State) : Prop where
  alive : s.ledgerDead = false
  intake : intakeOpen s = true
  pool : 2 ≤ s.poolFree

/-- The command of job `j` journals between `s` and `t` (R157, R235): its INTENT, with the job's number, what its COMMIT will
bring and the completion's DETAIL, takes the next serial and joins the Ledger port; the job stands in `.journal` until the COMMIT.
Nothing else changes. -/
structure Journaled (j : Job) (eff : Effect) (detail : Nat) (s t : State) : Prop where
  job : t.job j.id = some { j with phase := .journal }
  intent : ∃ i, t.ledger.intents = s.ledger.intents ++ [i] ∧ i.serial = s.ledger.nextSerial ∧ i.ctx = j.ctx ∧
    i.job = some j.id ∧ i.number = j.intent ∧ i.op = j.op ∧ i.phase = .intent ∧ i.args = j.args ∧ i.detail = detail ∧
    i.effect = eff ∧ i.payloads = 0 ∧ i.replay = false ∧ i.capture = false ∧
    (j.op = 0x03 → i.block = j.cmd 0x20 8 ∧ i.count = j.cmd 0x28 4)
  port : t.ledger.port = s.ledger.port ++ [(.intent s.ledger.nextSerial, 1)]
  serial : t.ledger.nextSerial = s.ledger.nextSerial + 2
  rest : t = { s with ledger := t.ledger, ring := { s.ring with jobs := t.ring.jobs } }

/-- The next write round writes the COMMIT of intent `i` alone, a state-changing command without payload, whose job `j` waits for
it (R231, R235). -/
structure CommitDue (i : Intent) (j : Job) (s : State) : Prop where
  keys : s.sec.keys ≠ none
  alive : s.ledgerDead = false
  awake : s.awake = true
  port : s.ledger.port = [(.commit i.serial, 1)]
  waits : s.ledger.waits = []
  only : s.ledger.intents = [i]
  fresh : i.replay = false
  slot : i.commits ≠ []
  plain : i.capture = false ∧ i.datas = [] ∧ i.parities = []
  job : i.job = some j.id
  ctx : i.ctx = j.ctx
  found : s.job j.id = some j

/-- Nothing on die waits for media: no READ is at its blocks, no committed block waits for a way, and no replay runs (R168, R220,
R245). -/
structure Quiet (s : State) : Prop where
  jobs : ∀ j ∈ s.ring.jobs, j.phase ≠ .media
  waits : s.cache.waits = []
  replay : s.ledger.replaying = false

/-- A part of the state: one for each of its fields but the queue. -/
inductive Part where
  | sys | clk | sec | pwr | host | ring | wards | cap | cache | kcc | ledger | groups | cells | reads | recoveries
  | nextRead | obs | pin | regs | fresh
deriving DecidableEq, Repr

/-- The part reads alike in both states. -/
def Part.same (s t : State) : Part → Prop
  | .sys => t.sys = s.sys
  | .clk => t.clk = s.clk
  | .sec => t.sec = s.sec
  | .pwr => t.pwr = s.pwr
  | .host => t.host = s.host
  | .ring => t.ring = s.ring
  | .wards => t.wards = s.wards
  | .cap => t.cap = s.cap
  | .cache => t.cache = s.cache
  | .kcc => t.kcc = s.kcc
  | .ledger => t.ledger = s.ledger
  | .groups => t.groups = s.groups
  | .cells => t.cells = s.cells
  | .reads => t.reads = s.reads
  | .recoveries => t.recoveries = s.recoveries
  | .nextRead => t.nextRead = s.nextRead
  | .obs => t.obs = s.obs
  | .pin => t.pin = s.pin
  | .regs => t.regs = s.regs
  | .fresh => t.fresh = s.fresh

/-- The parts that a command can change in some state (the manual's rules for its row); every other part it leaves as it
was. -/
def touches : Instr → List Part
  | .powerOn _ | .supplyLoss _ _ | .pfNAssert _ | .pfNDeassert _ | .wakeN _ | .perstN _ _ | .zeroN _ _ _ | .lpOverload _
  | .coldRestart _ _ _ | .transitionEnd _ | .powerRemoval =>
    [.sys, .clk, .sec, .pwr, .host, .ring, .wards, .cap, .cache, .kcc, .ledger, .groups, .cells, .reads, .recoveries, .obs,
     .pin, .regs]
  | .hostLinkReset _ => [.sec, .pwr, .host, .ring, .wards, .kcc, .ledger, .obs, .pin, .regs]
  | .linkTrained _ _ | .d0Return | .msixEnable => [.host, .fresh]
  | .flr => [.sec, .host, .ring, .wards, .kcc, .ledger, .obs, .pin, .regs]
  | .flrCaptureResume | .tlpDiscard _ | .l1Exit => [.host]
  | .flrDone => [.host, .obs, .pin, .regs]
  | .d3hotEntry => [.host, .ring]
  | .l1Entry _ | .coalesceTime _ => [.clk, .host, .obs, .pin]
  | .msixUnmask _ => [.host, .regs, .fresh]
  | .bar0ReadAbort _ _ | .beatLoRead | .taiLoRead | .wardHighLoRead | .serialLoRead => [.clk, .host, .ring, .ledger, .obs]
  | .bar2Stray _ | .heldCommandEval _ | .write _ | .trim _ | .setCredential _ _ | .identify _ | .setTelemetryKey _
  | .resizeWard _ | .groupSetCreate _ | .groupSetSetSpare _ | .groupSetDelete _ | .rebuildCtrlStart _ | .rebuildCtrlStop _
  | .scrubCtrlStart _ | .scrubCtrlStop _ | .wayRestore _ | .eventLogSetEnable _ | .eventLogSetDisable _ =>
    [.host, .ring, .wards, .ledger, .obs, .pin]
  | .bar4Read _ _ | .bar4Write _ _ => [.host, .obs]
  | .registerWrite _ _ _ _ =>
    [.sys, .clk, .sec, .pwr, .host, .ring, .wards, .cap, .cache, .kcc, .ledger, .groups, .cells, .reads, .recoveries, .obs,
     .pin, .regs, .fresh]
  | .cfgRejectClear => [.sys]
  | .srcPll | .srcOscillator | .setNow | .setAtPps | .setAtPpsTimeout | .ppsEdge _ | .taiSlew | .holdover | .ppsOutRise
  | .ppsOutFall | .uartXoff => [.clk, .obs, .pin]
  | .taiRateWrite _ => [.clk, .obs, .regs]
  | .ppsCtrlWrite _ => [.sys, .clk, .obs, .pin, .regs]
  | .pllLock => [.clk]
  | .pllLoss => [.clk, .pwr, .host, .ring, .wards, .cache, .ledger, .groups, .cells, .reads, .recoveries, .obs, .pin]
  | .tick _ =>
    [.sys, .clk, .sec, .pwr, .host, .ring, .wards, .cap, .cache, .ledger, .groups, .cells, .reads, .recoveries, .obs, .pin]
  | .imagePublish | .evlogHeadWrite _ => [.obs]
  | .officerIdle => [.sec, .host, .ring, .wards, .obs, .pin]
  | .officerLockoutEnd | .drbgReseed => [.sec]
  | .officerLockout | .jtagBypass _ | .jtagExtest | .jtagSamplePreload => [.sec, .obs, .pin]
  | .lockout _ | .malformedRate _ => [.wards, .obs, .pin]
  | .mediaStall => [.sys, .pwr, .host, .ring, .wards, .cache, .ledger, .groups, .cells, .reads, .recoveries, .obs, .pin]
  | .appendAge _ => [.ring, .wards, .cap]
  | .destageAge _ => [.cache]
  | .idlePark _ => [.cells, .obs]
  | .chainWaitTimeout _ | .adminEnable | .adminDisable | .openWard _ _ | .sealWard _ | .wardInfo _ =>
    [.host, .ring, .wards, .obs, .pin]
  | .noiseHealthFail _ =>
    [.sec, .pwr, .host, .ring, .wards, .cache, .kcc, .ledger, .groups, .cells, .reads, .recoveries, .obs, .pin]
  | .voteSet _ | .voteClr _ =>
    [.pwr, .host, .ring, .wards, .cap, .cache, .ledger, .groups, .cells, .reads, .recoveries, .obs, .pin]
  | .sleepVote | .holdRelease _ =>
    [.pwr, .host, .ring, .wards, .cap, .cache, .ledger, .groups, .cells, .recoveries, .obs, .pin]
  | .ratBWrite _ _ => [.sys, .cache, .regs]
  | .upCfgWrite _ _ | .pinSwitchSettle _ => [.sys, .clk, .host, .cells, .obs, .pin]
  | .adminFetch | .roundaboutTurn => [.host, .ring, .wards]
  | .entryArrival _ _ | .createWard _ => [.sec, .host, .ring, .wards, .ledger, .obs, .pin, .fresh]
  | .ringReadFail _ _ | .ringReadRetry _ | .dmaAbort _ _ => [.clk, .host, .ring, .wards, .obs, .pin]
  | .jobBegin _ => [.ring]
  | .read _ _ =>
    [.pwr, .host, .ring, .wards, .cache, .kcc, .ledger, .groups, .cells, .reads, .recoveries, .nextRead, .obs, .pin]
  | .officerAuth _ | .officerLogout _ => [.sec, .host, .ring, .wards, .ledger, .obs, .pin]
  | .setOfficerCredential _ _ =>
    [.sec, .pwr, .host, .ring, .wards, .cap, .cache, .ledger, .groups, .cells, .recoveries, .obs, .pin]
  | .runSelfTest _ _ =>
    [.sec, .pwr, .host, .ring, .wards, .cache, .kcc, .ledger, .groups, .cells, .reads, .recoveries, .obs, .pin, .fresh]
  | .zeroize _ _ _ =>
    [.sys, .sec, .pwr, .host, .ring, .wards, .cap, .cache, .kcc, .ledger, .groups, .cells, .reads, .recoveries, .obs, .pin,
     .regs]
  | .destroyWard _ | .resetWard _ | .kccUnwrap _ => [.host, .ring, .wards, .cap, .kcc, .ledger, .obs, .pin]
  | .setWardRings _ | .setWardSched _ | .tumblerWrite _ => [.host, .ring, .wards, .ledger, .obs, .pin, .fresh]
  | .flushQueue _ => [.host, .ring, .wards, .kcc, .ledger, .obs, .pin]
  | .intentReserve => [.host, .ring, .wards, .cap, .cache, .kcc, .ledger, .obs, .pin]
  | .ledgerRound _ _ =>
    [.sys, .sec, .pwr, .host, .ring, .wards, .cap, .cache, .kcc, .ledger, .groups, .cells, .reads, .recoveries, .obs, .pin]
  | .cacheFill _ | .sectorRead _ _ | .retryPass _ _ =>
    [.host, .ring, .wards, .cache, .ledger, .cells, .reads, .recoveries, .nextRead, .obs, .pin]
  | .destageStart _ _ =>
    [.pwr, .host, .ring, .wards, .cache, .ledger, .groups, .cells, .reads, .recoveries, .nextRead, .obs, .pin]
  | .sectorWriteDone _ _ | .repairRewrite _ | .tornRewrite _ _ =>
    [.sys, .host, .ring, .wards, .cache, .ledger, .cells, .reads, .recoveries, .nextRead, .obs, .pin]
  | .scacheEccError _ _ | .wayRetired _ _ | .deferredDelta _ _ _ | .replay _ _ _ =>
    [.pwr, .host, .ring, .wards, .cache, .ledger, .groups, .cells, .reads, .recoveries, .obs, .pin]
  | .captureFrame _ _ _ => [.clk, .ring, .wards, .cap, .obs, .pin]
  | .capLinkLost _ _ _ => [.cap, .obs, .pin]
  | .eventRecord => [.host, .obs, .pin]
  | .armLinkResponse _ _ => [.pwr, .cap, .cache, .ledger, .groups, .cells, .recoveries, .obs, .pin]
  | .armLinkLost _ | .presentAbsent _ | .clockLockLoss _ | .colzorFrame _ _ | .servoDoubt _ _ =>
    [.cache, .ledger, .groups, .cells, .recoveries, .obs, .pin]
  | .spinUpTimeout _ | .seekFail _ | .headLoadFail _ => [.clk, .cache, .ledger, .groups, .cells, .recoveries, .obs, .pin]
  | .wedge _ _ => [.cache, .ledger, .groups, .cells, .recoveries, .obs, .pin, .fresh]
  | .reacquisition _ => [.ledger, .cells, .obs]
  | .initStripe _ => [.sys, .ledger, .groups, .cells, .obs, .pin, .fresh]
  | .rebuildStripe _ _ =>
    [.sys, .host, .ring, .wards, .cache, .ledger, .groups, .cells, .reads, .recoveries, .nextRead, .obs, .pin]
  | .scrubRow _ _ => [.host, .ring, .wards, .cache, .ledger, .groups, .cells, .reads, .recoveries, .nextRead, .obs, .pin]
  | .jtagIdcode | .smbReadWord _ _ _ | .smbUnsupported => [.host, .pin]
  | .uartXon | .gpioInChange _ _ => [.pin]
  | .capLinkUp _ _ => [.cap]
  | .clockLock _ => [.cells]
  | .dataFetch _ _ => [.host, .ring, .wards, .obs, .pin, .fresh]
  | .busMasterEnable _ => [.sec, .host, .ring, .wards, .kcc, .ledger, .obs, .pin, .regs, .fresh]
  | .parkTimeout _ => [.clk, .pwr, .cap, .cache, .ledger, .cells, .recoveries, .obs, .pin]

end Sys2Proof.Machine
end

