-- ==== Sys2Proof/Certificates/Slice0/Obligations.lean ====
section
/-! DEFINITION. The statements about the LW24 that the provers prove, in the order of OBLIGATIONS.json. -/

open Sys2Proof Sys2Proof.Machine

/-- The command at the front of the queue runs, on the state with the rest of the queue. -/
def Obligations.StepRunsFrontCommand : Prop :=
  ∀ (s : State) (c : Instr) (r : List Instr), s.pending = c :: r → step s = exec c { s with pending := r }

/-- With no command waiting, no start-up sequence running and no zeroization to go on with, one clock period passes (the
model's choice, log 6): 1 beat on the PLL, 5 on the fast oscillator (R27), and nothing counts while no island is clocked. -/
def Obligations.IdleStepIsOnePeriod : Prop :=
  ∀ s : State, s.pending = [] → s.sys.boot = none → s.pwr.transition ≠ some .zeroize →
    ∃ t, step s = .next t ∧ t = { s with clk := t.clk, pin := t.pin, obs := t.obs } ∧
      t.clk.beat = (if s.awake then s.clk.beat + (if s.clk.srcActive then 1 else 5) else s.clk.beat) ∧
      (s.awake = false → t = s)

/-- The register images right after reset, at the values R403 and the field tables of the blocks give: SYS.BOOT,
PWR.VOTES, PWR.MODE, CLK.STATUS, SEC.STATUS, HOST.STATUS, RING.ADMIN_CTRL, RING.ADMIN_STATUS, RING.WARD_STATUS,
RING.WARD_LIMIT, SCACHE.STATUS, KCC.STATUS, LEDG.STATUS, LEDG.SLOTS, LEDG.SERIAL_LO, RDN_GROUP, CELL and SRV STATUS,
OBS.STATUS and PIN.UP_CFG_0; with the plain registers SYS.PROGRESS, SEC.OFFICER_IDLE, RING.ADMIN_SIZE and OBS.TEMP_WARN.
Right after reset the state is sound. The model's own choices in it: logs 2 and 3. -/
def Obligations.ResetState : Prop :=
  (let at_ := fun a => regImage a State.reset
   at_ 0x00010 = 1 ∧ at_ 0x01000 = 1 ∧ at_ 0x0100C = 3 ∧ at_ 0x02004 = 0 ∧ at_ 0x03000 = 0 ∧ at_ 0x04000 = 0 ∧
   at_ 0x08014 = 0 ∧ at_ 0x08018 = 0 ∧ at_ 0x08404 = 0 ∧ at_ 0x0841C = 64 ∧ at_ 0x0E000 = 0 ∧ at_ 0x10000 = 0 ∧
   at_ 0x10004 = 0 ∧ at_ 0x1000C = 0 ∧ at_ 0x11000 = 0 ∧ at_ 0x12000 = 0 ∧ at_ 0x16000 = 0 ∧ at_ 0x1B000 = 0 ∧
   at_ 0x0001C = 0x3E8 ∧ at_ 0x0300C = 0x493E0 ∧ at_ 0x08010 = 0x404 ∧ at_ 0x1A014 = 0x64) ∧
  (Sound State.reset)

/-- Every step keeps the state sound: the vote table and its complement agree (R346), and every table of wards,
groups, cells, ports, Tumbler entries, cache lines, counters, images, supplies, pins, BAR registers, Ledger slots and
registers stays in its canonical form. The model's own choices in it: log 42. -/
def Obligations.StepKeepsSound : Prop :=
  ∀ s t : State, Sound s → step s = .next t → Sound t

/-- The epoch of a ward (R48). No command changes one but through a Ledger intent of CREATE_WARD that was live before it:
the ward then has the epoch which that intent brings. Such an intent comes from the command CREATE_WARD alone, and brings the
ward's epoch plus one. Its COMMIT sets it, and with it the ward is SEALED. -/
def Obligations.EpochRule : Prop :=
  (∀ (c : Instr) (s t : State) (w : WardId), Sound s → exec c s = .next t →
     (t.ward w).epoch = (s.ward w).epoch ∨
     ∃ i ∈ s.ledger.intents, ∃ x : Ward, i.effect = .create w x ∧ (t.ward w).epoch = x.epoch) ∧
  (∀ (c : Instr) (s t : State) (w : WardId) (x : Ward), Sound s → exec c s = .next t →
     ∀ i ∈ t.ledger.intents, i.effect = .create w x →
       (∃ k ∈ s.ledger.intents, k.effect = .create w x) ∨
       ((∃ id, c = .createWard id) ∧ x.epoch = (s.ward w).epoch + 1 ∧ x.state = .sealed)) ∧
  (∀ (s : State) (i : Intent) (j : Job) (w : WardId) (x : Ward), Sound s → CommitDue i j s → i.effect = .create w x →
     ∃ t, exec (.ledgerRound [] none) s = .next t ∧ (t.ward w).epoch = x.epoch ∧ (t.ward w).state = x.state)

/-- Every command answers a next state in every state, with the queue as it was, with one exception: a SUPPLY_LOSS
above the rail's absolute maximum (0.90, 1.05, 2.10 and 2.10 V), for which no statement of the manual binds the part
(R377; log 9). No command is refused. -/
def Obligations.EveryCommandGoesOn : Prop :=
  ∀ (c : Instr) (s : State),
    (∃ t, exec c s = .next t ∧ t.pending = s.pending) ∨
    (∃ rail mv, c = .supplyLoss rail mv ∧ ([900, 1050, 2100, 2100] : List Nat).getD rail.val 0 < mv ∧
      exec c s = .fault .ratingExceeded)

/-- Every part of the state that a command's rules give it no effect on is as it was: `touches` lists, for each of the
157 commands, the parts it can change. -/
def Obligations.CommandFrames : Prop :=
  ∀ (c : Instr) (s t : State) (p : Part), exec c s = .next t → p ∉ touches c → p.same s t

/-- POWER_ON, PF_N_DEASSERT and the cold wakes (R380, R340, R96). At the detector's release AON comes up with no slot held
and the power-on wake is due; while PF_N is asserted the part waits in Deep Standby, and the deassertion starts the
sequence for the source that is due, or else for the oldest wake that is latched. With PF_N deasserted POWER_ON starts the
sequence itself. A start of the sequence stands in the stage FUSE with SYS.BOOT.SOURCE naming the source and the beat counter
at 0. The model's own choices in it: logs 2 and 39. -/
def Obligations.PowerOnWaitsForPf : Prop :=
  ∀ (s : State) (b : Boot),
    let started := fun (src : BitVec 4) (t : State) =>
      t.sys.source = src ∧ t.sys.stage = 1 ∧ t.sys.boot = some b ∧ t.clk = {} ∧ t.pwr.mode = .management ∧
      t.pwr.coldDue = none ∧ t.pwr.wakes = [] ∧ t.ledger = s.ledger ∧ t.wards = s.wards ∧ t.sec = s.sec ∧ t.regs = s.regs
    (s.pwr.powered = false → s.pwr.pfLow = true →
      ∃ t, exec (.powerOn b) s = .next t ∧ t = { s with pwr := t.pwr } ∧ t.pwr.powered = true ∧ t.pwr.pfLow = true ∧
        t.pwr.mode = .deepStandby ∧ t.pwr.votes = 0 ∧ t.pwr.coldDue = some 0) ∧
    (s.pwr.powered = false → s.pwr.pfLow = false →
      ∃ t, exec (.powerOn b) s = .next t ∧ t.pwr.powered = true ∧ started 0 t) ∧
    (s.pwr.powered = true → s.pwr.pfLow = true → s.pwr.mode = .deepStandby →
      (∀ src, s.pwr.coldDue = some src →
        ∃ t, exec (.pfNDeassert b) s = .next t ∧ t.pwr.pfLow = false ∧ started src t) ∧
      (∀ w r, s.pwr.coldDue = none → s.pwr.wakes = w :: r →
        ∃ t, exec (.pfNDeassert b) s = .next t ∧ t.pwr.pfLow = false ∧ started w.source t) ∧
      (s.pwr.coldDue = none → s.pwr.wakes = [] →
        exec (.pfNDeassert b) s = .next { s with pwr := { s.pwr with pfLow := false } }))

/-- PF_N_ASSERT while anything is powered runs the seal (R241): the SEAL record is written in its slot with the beat and TAI
of the assertion and cause 1, what waited at the Ledger port is no longer there, the vote bank keeps the votes as prior ones with
the stop cause of a power-fail seal, and the part stays in Deep Standby with the power-fail source due. What it leaves is a
cold stop. In Deep Standby it is latched alone. A supply outside its range with PF_N deasserted (R382), and the detector's
trip under PF_N (R381, R380), take the part down without a seal: the marks in the Ledger stay as they were, AON's banks are
lost, and the admin high mark and every ward's high mark stay in MRAM. The model's own choices in it: logs 12 and 20. -/
def Obligations.PowerIsTakenAway : Prop :=
  (∀ (s : State) (ends : List CellId), Sound s → s.pwr.pfLow = false → s.pwr.powered = true →
     (s.pwr.mode ≠ .deepStandby →
       ∃ t, exec (.pfNAssert ends) s = .next t ∧ ColdStop s t ∧ t.pwr.pfLow = true ∧ t.pwr.votes = 0 ∧
         t.pwr.priorVotes = s.pwr.votes ∧ t.pwr.lastStop = 2 ∧ t.pwr.coldDue = some 4 ∧ t.pwr.sleepVote = false ∧
         (∃ m ∈ t.ledger.marks, m.kind = .sealed s.clk.beat s.tai 1 ∧ m.slot = 49151 ∧ m.boot = s.sec.bootCount) ∧
         t.ledger.port = [] ∧
         (s.ledger.port = [] → t.sec.verifier = s.sec.verifier ∧ t.sec.telemetry = s.sec.telemetry)) ∧
     (s.pwr.mode = .deepStandby → exec (.pfNAssert ends) s = .next { s with pwr := { s.pwr with pfLow := true } })) ∧
  (∀ (s : State) (rail : Fin 4) (mv : Nat), Sound s → s.pwr.powered = true →
     let down := fun t : State =>
       ColdStop s t ∧ t.pwr.powered = false ∧ t.ledger.marks = s.ledger.marks ∧ t.pwr.scratch = [] ∧
       t.pwr.aonEvents = [] ∧ t.sec.verifier = s.sec.verifier ∧ t.sec.telemetry = s.sec.telemetry ∧
       t.ring.adminHigh = s.ring.adminHigh ∧ ∀ w, (t.ward w).high = (s.ward w).high
     (s.pwr.pfLow = false → within (supplyRange rail).1 (supplyRange rail).2.1 mv = false → mv ≤ (supplyRange rail).2.2 →
       ∃ t, exec (.supplyLoss rail mv) s = .next t ∧ down t) ∧
     (s.pwr.pfLow = true → ∃ t, exec .powerRemoval s = .next t ∧ down t))

/-- LP_OVERLOAD in Deep Standby or Retention Sleep (R348, R340): no seal, the vote bank says low-power overload with the votes
as prior ones, LP_OVERLOAD is set, and the event is queued in AON. With PF_N asserted the source 5 waits; with PF_N deasserted the
sequence starts with it. COLD_RESTART (R107): with the key and a session the seal runs, its record with cause 2, and the part
wakes at once with source 6; any other value, or the key with no session outside the failure stages, changes nothing but
the log. The model's own choices in it: logs 28 and 39. -/
def Obligations.RestartsWithoutPower : Prop :=
  (∀ (s : State) (b : Boot), Sound s → s.pwr.powered = true → (s.pwr.mode = .deepStandby ∨ s.pwr.mode = .retentionSleep) →
     (s.pwr.pfLow = true →
       ∃ t, exec (.lpOverload b) s = .next t ∧ ColdStop s t ∧ t.pwr.lpOverload = true ∧ t.pwr.lastStop = 4 ∧
         t.pwr.priorVotes = s.pwr.votes ∧ t.pwr.votes = 0 ∧ t.pwr.coldDue = some 5 ∧ t.ledger.marks = s.ledger.marks ∧
         (s.pwr.aonEvents.length < 64 → ∃ e, t.pwr.aonEvents = s.pwr.aonEvents ++ [e] ∧ e.code = 0x0906)) ∧
     (s.pwr.pfLow = false →
       ∃ t, exec (.lpOverload b) s = .next t ∧ t.sys.source = 5 ∧ t.sys.stage = 1 ∧ t.sys.boot = some b ∧ t.clk = {} ∧
         t.pwr.lpOverload = true ∧ t.pwr.lastStop = 4 ∧ t.ledger.marks = s.ledger.marks ∧ t.sec.session = false)) ∧
  (∀ (s : State) (b : Boot) (key : BitVec 16) (ends : List CellId), s.hostOpen = true → s.handedOff = true →
     (key = 0x5A17 → s.sec.session = true → s.pwr.pfLow = false →
       ∃ t, exec (.coldRestart key ends b) s = .next t ∧ t.sys.source = 6 ∧ t.sys.stage = 1 ∧ t.sys.boot = some b ∧
         t.clk = {} ∧ t.sec.session = false ∧ t.sec.keys = none ∧ t.ring.jobs = [] ∧ t.pwr.lastStop = 3 ∧ t.pwr.votes = 0 ∧
         (∃ m ∈ t.ledger.marks, m.kind = .sealed s.clk.beat s.tai 2 ∧ m.slot = 49151 ∧ m.boot = s.sec.bootCount)) ∧
     ((key ≠ 0x5A17 ∨ (s.sec.session = false ∧ s.sys.stage.toNat < 7)) →
       ∃ t, exec (.coldRestart key ends b) s = .next t ∧ t = { s with obs := t.obs, pin := t.pin } ∧
         (s.obs.events.length < 512 → ∃ e ∈ t.obs.events, e.code = 0x0205 ∧ e.beat = s.clk.beat)))

/-- WAKE_N, PERST_N and ZERO_N in Deep Standby or Retention Sleep (R340, R343, R344). Under PF_N the wake is held: each writes
the wake record with its source, the held count and LATE, and changes no other part of the state; ZERO_N latches its request
too. With PF_N deasserted and nothing else due, a wake from Deep Standby starts the sequence with its source, and WAKE_N from
Retention Sleep returns to Management where no service vote stands, with TAI no longer valid. The model's own choices in it:
log 30. -/
def Obligations.WakesAreLatched : Prop :=
  ∀ (s : State) (b : Boot) (whole : Bool) (test : Option (Fin 10)),
    s.pwr.powered = true → (s.pwr.mode = .deepStandby ∨ s.pwr.mode = .retentionSleep) →
    (s.pwr.pfLow = true →
      let latched := fun (src : BitVec 4) (t : State) =>
        t = { s with pwr := t.pwr } ∧ t.pwr.wakes = s.pwr.wakes ++ [⟨src, s.clk.beat, true, s.sec.bootCount⟩] ∧
        t.pwr.wakeCause = src ∧ t.pwr.wakeStamp = s.clk.beat ∧ t.pwr.wakeLate = true ∧ t.pwr.mode = s.pwr.mode
      (∃ t, exec (.wakeN b) s = .next t ∧ latched 1 t) ∧
      (s.pwr.perstLow = true → ∃ t, exec (.perstN false b) s = .next t ∧ latched 2 t ∧ t.pwr.perstLow = false) ∧
      (∃ t, exec (.zeroN whole test b) s = .next t ∧ latched 3 t ∧ t.pwr.zeroLatched = true)) ∧
    (s.pwr.pfLow = false → s.pwr.mode = .deepStandby → s.pwr.coldDue = none → s.pwr.wakes = [] →
      let started := fun (src : BitVec 4) (t : State) =>
        t.sys.source = src ∧ t.sys.stage = 1 ∧ t.sys.boot = some b ∧ t.clk = {} ∧ t.pwr.wakeCause = src
      (∃ t, exec (.wakeN b) s = .next t ∧ started 1 t) ∧
      (s.pwr.perstLow = true → ∃ t, exec (.perstN false b) s = .next t ∧ started 2 t) ∧
      (∃ t, exec (.zeroN whole test b) s = .next t ∧ started 3 t ∧ t.pwr.zeroLatched = true)) ∧
    (s.pwr.pfLow = false → s.pwr.mode = .retentionSleep → s.pwr.wakes = [] → s.pwr.zeroLatched = false →
      s.sec.zeroizePending = false → s.pwr.holdCause = 0 → s.sec.provisioned = true → s.pwr.votes ≠ 0 →
      s.pwr.votes &&& serviceSlots = 0 →
      ∃ t, exec (.wakeN b) s = .next t ∧ t.pwr.mode = .management ∧ t.pwr.sleepVote = false ∧ t.pwr.domains = 0x37 ∧
        t.clk.taiValid = false ∧ t.clk.beat = s.clk.beat ∧ t.sec = s.sec ∧ t.ledger.intents = s.ledger.intents)

/-- The start-up sequence goes on by one stage while no command waits (R96–R99, R108): the counter first reaches the beat in
which the stage ends. FUSE ends in FUSE_FAIL 8, or with both caches ready, the PLL enabled and a new life begun in ZEROIZE
2 where a zeroization is latched, in SELFTEST 3 else. ZEROIZE ends in SELFTEST with no salt and the device not provisioned.
SELFTEST ends in ERROR 7 in Safe Hold with the cause and no key, or in Provisioning 5 or the scan 4; the scan in LEDGER_FAIL 9
in Safe Hold, or READY 6 in Management. The model's own choices in it: log 39. -/
def Obligations.StartUpStages : Prop :=
  ∀ (s : State) (b : Boot), Sound s → s.pending = [] → s.awake = true → s.sys.boot = some b →
    s.pwr.mode = .management →
    (s.sys.stage = 1 →
      ∃ t, step s = .next t ∧ t.pwr.votes = 1 ∧
        (s.clk.beat.toNat ≤ b.fuseEnd.toNat →
          b.fuseEnd.toNat ≤ t.clk.beat.toNat ∧ t.clk.beat.toNat < b.fuseEnd.toNat + s.period) ∧
        (b.fuseBad = true → t.sys.stage = 8 ∧ t.sys.boot = none ∧ t.sys.bootBeats = t.clk.beat.setWidth 32) ∧
        (b.fuseBad = false →
          t.sys.stage = (if s.sec.zeroizePending || s.pwr.zeroLatched then 2 else 3) ∧ t.clk.pllEnabled = true ∧
          t.cache.ready = true ∧ t.kcc.ready = true ∧ t.kcc.busyUntil = t.clk.beat + 48 ∧
          (s.sec.bootCount ≠ 0xFFFFFFFF →
            t.sec.bootCount = s.sec.bootCount + 1 ∧ t.ledger.nextSerial = 1 ∧ t.sys.boot = some b))) ∧
    (s.sys.stage = 2 → s.sys.zeroInBoot = false →
      ∃ t, step s = .next t ∧ t.sys.stage = 3 ∧ t.sys.zeroizedAtWake = true ∧ t.sec.salt = none ∧ t.sec.provisioned = false ∧
        t.sec.zeroizePending = false ∧ t.sec.zeroCount = s.sec.zeroCount + 1) ∧
    (s.sys.stage = 3 → s.sys.zeroInBoot = false →
      (∀ f, b.test = some f →
        ∃ t, step s = .next t ∧ t.sys.stage = 7 ∧ t.sys.boot = none ∧ t.pwr.mode = .safeHold ∧ t.sec.error = true ∧
          t.sec.errorCause = BitVec.ofNat 8 (failCause f) ∧ t.sec.selftest = failPassed f ∧ t.sec.keys = none) ∧
      (b.test = none → s.sec.provisioned = true →
        ∃ t, step s = .next t ∧ t.sys.stage = 4 ∧ t.sys.boot = some b ∧ t.sec.selftest = 0x800003FF ∧
          t.sec.keys = s.sec.salt.map deriveKeys ∧ t.sec.drbgReady = true) ∧
      (b.test = none → s.sec.provisioned = false → s.pwr.holdCause = 0 → s.cache.retired ≠ 0xFFFF →
        ∃ t, step s = .next t ∧ t.sys.stage = 5 ∧ t.sys.boot = none ∧ t.pwr.mode = .provisioning ∧
          t.sys.bootBeats = t.clk.beat.setWidth 32)) ∧
    (s.sys.stage = 4 →
      ((b.scanLate = true ∨ (scanLimit b s).isSome = true ∨ b.adminBad = true) →
        ∃ t, step s = .next t ∧ t.sys.stage = 9 ∧ t.sys.boot = none ∧ t.pwr.mode = .safeHold ∧ t.pwr.holdCause.getLsbD 2 = true) ∧
      (b.scanLate = false → scanLimit b s = none → b.adminBad = false → s.pwr.holdCause = 0 → s.cache.retired ≠ 0xFFFF →
        ∃ t, step s = .next t ∧ t.sys.stage = 6 ∧ t.sys.boot = none ∧ t.pwr.mode = .management ∧
          t.sys.bootBeats = t.clk.beat.setWidth 32))

/-- VOTE_SET, VOTE_CLR and SLEEP_VOTE (R334–R337, R339, R341, R346). In Management with a provisioned device on the
PLL a service vote is recorded with its complement and begins the entry to Service; withdrawing the last vote begins
the entry to Deep Standby and keeps the votes as prior ones; in Service, withdrawing every service vote begins the way
back; the sleep vote begins the entry to Retention Sleep, and is refused in Safe Hold (cause 3) and in Provisioning
(cause 4). On the fast oscillator (cause 1), or before provisioning (cause 2), service votes are refused and the
others of the write are recorded. The model's own choices in it: log 30. -/
def Obligations.VotesMoveMode : Prop :=
  ∀ (s : State) (v : Word), Sound s → s.regOpen = true → s.pwr.transition = none → s.sec.zeroizePending = false →
    (s.pwr.holdCause = 0 → s.pwr.sleepVote = false → s.pwr.mode = .management → s.clk.srcActive = true →
      s.sec.provisioned = true → v.setWidth 24 &&& serviceSlots ≠ 0 →
      ∃ t, exec (.voteSet v) s = .next t ∧ t.pwr.votes = s.pwr.votes ||| (v.setWidth 24 &&& 0xFFFF7F) ∧
        t.pwr.votesInv = ~~~t.pwr.votes ∧ t.pwr.transition = some .enterService ∧ t.pwr.mode = .management ∧
        t.pwr.domains = 0x7F ∧ t = { s with pwr := t.pwr, cells := t.cells }) ∧
    (s.pwr.mode = .management → s.pwr.votes ≠ 0 → s.pwr.votes &&& ~~~(v.setWidth 24) = 0 →
      ∃ t, exec (.voteClr v) s = .next t ∧ t.pwr.votes = 0 ∧ t.pwr.priorVotes = s.pwr.votes ∧
        t.pwr.transition = some .enterStandby ∧ t.pwr.lastStop = 1) ∧
    (s.pwr.holdCause = 0 → s.pwr.sleepVote = false → s.pwr.mode = .service → s.sec.provisioned = true →
      s.pwr.votes.getLsbD 0 = true → v.setWidth 24 = serviceSlots →
      ∃ t, exec (.voteClr v) s = .next t ∧ t.pwr.votes = s.pwr.votes &&& ~~~serviceSlots ∧
        t.pwr.transition = some .leaveService ∧ t.pwr.mode = .service) ∧
    (s.pwr.holdCause = 0 → s.pwr.mode = .management → s.pwr.votes ≠ 0 →
      ∃ t, exec .sleepVote s = .next t ∧ t.pwr.sleepVote = true ∧ t.pwr.transition = some .enterSleep ∧
        t.pwr.votes = s.pwr.votes) ∧
    (∀ c : BitVec 3, ((s.pwr.mode = .safeHold ∧ c = 3) ∨ (s.pwr.mode = .provisioning ∧ c = 4)) →
      ∃ t, exec .sleepVote s = .next t ∧ t = { s with pwr := t.pwr, obs := t.obs, pin := t.pin } ∧
        t.pwr = { s.pwr with voteRefused := true, refuseCause := c, refusedSlot := 24 } ∧
        (s.obs.events.length < 512 → ∃ e ∈ t.obs.events, e.code = 0x0904 ∧ e.beat = s.clk.beat)) ∧
    (∀ c : BitVec 3, ((s.clk.srcActive = false ∧ c = 1) ∨ (s.clk.srcActive = true ∧ s.sec.provisioned = false ∧ c = 2)) →
      s.pwr.mode = .provisioning → s.sec.provisioned = false → s.pwr.holdCause = 0 → s.pwr.sleepVote = false →
      s.pwr.votes ≠ 0 → v.setWidth 24 &&& ~~~s.pwr.votes &&& serviceSlots ≠ 0 →
      ∃ t, exec (.voteSet v) s = .next t ∧ t.pwr.voteRefused = true ∧ t.pwr.refuseCause = c ∧
        t.pwr.votes = s.pwr.votes ||| (v.setWidth 24 &&& 0xFFFF7F &&& ~~~serviceSlots) ∧
        t.pwr.votesInv = ~~~t.pwr.votes ∧ t.pwr.transition = none ∧ t.pwr.mode = .provisioning)

/-- TRANSITION_END (R334, R336, R337, R339, R341, R356, R107): the entry to Service ends there with every switched domain
powered and no loss pending; the way back ends in Management once MEDIA is off; the entry to Deep Standby, with nothing in
flight at the Ledger and no pin switching, ends as a cold stop with a final checkpoint and no SEAL; the entry to Retention Sleep,
with nothing in flight, ends there with the switched domains retained, the link down and every secret kept. With no transition
running it brings a cold restart up whose seal a register write has run. The model's own choices in it: logs 28 and 30. -/
def Obligations.TransitionsEnd : Prop :=
  ∀ (s : State) (b : Boot), Sound s →
    (s.sec.zeroizePending = false → s.pwr.transition = some .enterService → s.pwr.holdCause = 0 → s.pwr.sleepVote = false →
      s.sec.provisioned = true → s.pwr.votes &&& serviceSlots ≠ 0 →
      ∃ t, exec (.transitionEnd b) s = .next t ∧ t.pwr.mode = .service ∧ t.pwr.transition = none ∧ t.pwr.domains = 0x7F ∧
        (∀ w, (t.ward w).pendingLoss = 0) ∧ t.sec = s.sec ∧ t.host = s.host) ∧
    (s.sec.zeroizePending = false → s.pwr.transition = some .leaveService → s.mediaOn = false → s.pwr.holdCause = 0 →
      s.pwr.sleepVote = false → s.sec.provisioned = true → s.pwr.votes ≠ 0 → s.pwr.votes &&& serviceSlots = 0 →
      exec (.transitionEnd b) s = .next { s with pwr := { s.pwr with mode := .management, transition := none } }) ∧
    (s.pwr.transition = some .enterStandby → s.pwr.wakes = [] → s.pwr.coldDue = none → ledgerQuiet s = true →
      s.pinsQuiet = true → s.cap.queue = [] →
      ∃ t, exec (.transitionEnd b) s = .next t ∧ ColdStop s t ∧ t.ledger.marks = s.ledger.marks ∧
        t.obs.checkpoint = some { boot := s.sec.bootCount, beat := s.clk.beat, counters := s.obs.counters, final := true } ∧
        t.obs.checkOld = s.obs.checkpoint) ∧
    (s.pwr.transition = some .enterSleep → s.pwr.wakes = [] → sleepQuiet s = true →
      ∃ t, exec (.transitionEnd b) s = .next t ∧
        t.pwr = { s.pwr with mode := .retentionSleep, transition := none, domains := 1 } ∧
        t.domain 0 = .on ∧ (∀ d, 1 ≤ d → d ≤ 6 → t.domain d = .retained) ∧
        t.host.speed = 0 ∧ t.clk.lock = false ∧ t.sec = s.sec ∧ t.wards = s.wards ∧ t.ledger = s.ledger ∧ t.kcc = s.kcc) ∧
    (∀ src, s.pwr.transition = none → s.pwr.powered = true → s.pwr.pfLow = false → s.pwr.mode = .deepStandby →
      s.pwr.coldDue = some src →
      ∃ t, exec (.transitionEnd b) s = .next t ∧ t.sys.source = src ∧ t.sys.stage = 1 ∧ t.sys.boot = some b ∧ t.clk = {})

/-- HOLD_RELEASE and PARK_TIMEOUT (R333, R337, R341, R349, R351). With the key, a session and every cause over, Safe Hold is
left for Management where no service vote stands, and the release is logged; any other attempt is logged and changes
nothing else. 20 ms after Service began to be left MEDIA goes off without waiting for PARKED, and 20 ms after an entry to
Retention Sleep began it goes on; 25 ms after a cell's slot was withdrawn its port is closed. The model's own choices in it:
log 30. -/
def Obligations.HoldAndParkEnds : Prop :=
  ∀ (s : State) (key : BitVec 16) (c : CellId), Sound s →
    (s.regOpen = true → key = 0x5AFE → s.inHold = true → s.sec.session = true → causesReleased s = true →
      s.pwr.transition = none → s.sec.zeroizePending = false → s.sec.provisioned = true → s.pwr.votes ≠ 0 →
      s.pwr.sleepVote = false → s.pwr.votes &&& serviceSlots = 0 →
      ∃ t, exec (.holdRelease key) s = .next t ∧ t.pwr.holdCause = 0 ∧ t.pwr.mode = .management ∧ t.mediaOn = false ∧
        (s.obs.events.length < 512 → ∃ e ∈ t.obs.events, e.code = 0x0902)) ∧
    (s.regOpen = true → (key ≠ 0x5AFE ∨ s.inHold = false ∨ s.sec.session = false ∨ causesReleased s = false) →
      ∃ t, exec (.holdRelease key) s = .next t ∧ t = { s with obs := t.obs, pin := t.pin } ∧
        (s.obs.events.length < 512 → ∃ e ∈ t.obs.events, e.code = 0x0903)) ∧
    (s.pwr.transition = some .leaveService → s.mediaOn = true →
      ∃ t, exec (.parkTimeout none) s = .next t ∧ t.mediaOn = false ∧ t.pwr.transition = some .leaveService ∧
        (∀ k, (t.cell k).ready = false ∧ (t.cell k).bring = .off)) ∧
    (s.pwr.transition = some .enterSleep → s.awake = true → s.clk.beat.toNat ≤ s.pwr.transBeat.toNat + 20000000 →
      s.pwr.transBeat.toNat + 20000005 < 2 ^ 64 →
      ∃ t, exec (.parkTimeout none) s = .next t ∧ s.pwr.transBeat.toNat + 20000000 ≤ t.clk.beat.toNat ∧
        t = { s with clk := t.clk, obs := t.obs, pin := t.pin }) ∧
    ((s.cell c).closing ≠ none → s.slotHeld c = false → s.awake = true →
      ∃ t, exec (.parkTimeout (some c)) s = .next t ∧ (t.cell c).closing = none ∧ (t.cell c).bring = .off ∧
        (t.cell c).ready = false ∧ (t.cell c).queue = [])

/-- HOST_LINK_RESET and a PERST_N assertion, while awake (R94): the endpoint, its configuration space and the MSI-X
table go to reset, OPEN wards seal, rings clear, fetched work that is not committed goes, what was held or pending for the
host is dropped, the session ends, and the link goes down. The mode, the votes, the admin high mark, every ward's epoch, extents
and high mark, and the clock stay. -/
def Obligations.HostLinkReset : Prop :=
  ∀ (s : State) (r : LinkReset) (b : Boot), Sound s → s.awake = true →
    let done := fun t : State =>
      t.host.speed = 0 ∧ t.host.mse = false ∧ t.host.bme = false ∧ t.host.msixEnable = false ∧ t.host.bars = [] ∧
      t.host.reads = [] ∧ t.host.pend = [] ∧ t.host.held = [] ∧ t.host.out = s.host.out ∧
      t.ring.jobs = [] ∧ t.ring.placed = false ∧ t.ring.enable = false ∧ t.sec.session = false ∧
      (∀ v : Fin 256, (t.reg (0x06000 + 16 * v.val + 12)) = 1) ∧
      (∀ w, (t.ward w).state ≠ .opened ∧ (t.ward w).configured = false ∧ (t.ward w).vector = 0) ∧
      t.ring.adminHigh = s.ring.adminHigh ∧ t.clk = s.clk ∧ t.pwr.votes = s.pwr.votes ∧ t.pwr.mode = s.pwr.mode ∧
      ∀ w, (t.ward w).epoch = (s.ward w).epoch ∧ (t.ward w).block = (s.ward w).block ∧
        (t.ward w).append = (s.ward w).append ∧ (t.ward w).high = (s.ward w).high
    (∃ t, exec (.hostLinkReset r) s = .next t ∧ done t) ∧
    (s.pwr.perstLow = false → s.pwr.transition = none → ∃ t, exec (.perstN true b) s = .next t ∧ done t ∧ t.pwr.perstLow = true)

/-- FLR, FLR_CAPTURE_RESUME and FLR_DONE (R125, R126, R61): the FLR stops fetch and DMA, pauses capture admission, seals
OPEN wards, clears every ring, invalidates the Key Context Cache and ends the session; step 4 resumes capture; the end
returns the configuration space, the MSI-X table and the HOST registers to reset and logs FLR_DONE. Mode, votes,
clock and high marks stay. Before hand-off an FLR resets configuration space and the MSI-X table alone. While an FLR runs a second
FLR and every other configuration request are answered with Retry Status and do nothing. -/
def Obligations.FunctionLevelReset : Prop :=
  ∀ s : State, Sound s →
     (s.cfgOpen = true → s.handedOff = true → s.host.flr = none →
       ∃ t, exec .flr s = .next t ∧ t.host.flr = some s.clk.beat ∧ t.host.capPaused = true ∧ t.ring.jobs = [] ∧
         t.sec.session = false ∧ t.kcc.entries = [] ∧ t.kcc.busyUntil = s.clk.beat + 48 ∧ t.ring.adminHigh = s.ring.adminHigh ∧
         t.host.reads = [] ∧ t.host.pend = [] ∧ t.host.held = [] ∧ t.host.out = s.host.out ∧ t.obs.enabled = false ∧
         t.pwr = s.pwr ∧ t.clk = s.clk ∧ t.regs = s.regs.filter (fun p => !(decide (0x08000 ≤ p.1) && decide (p.1 ≤ 0x08010))) ∧
         (∀ w, (t.ward w).state = (if (s.ward w).state = .opened then .sealed else (s.ward w).state) ∧
           (t.ward w).configured = false ∧ (t.ward w).weight = 0 ∧ (t.ward w).vector = 0 ∧ (t.ward w).high = (s.ward w).high ∧
           (t.ward w).epoch = (s.ward w).epoch)) ∧
     (s.cfgOpen = true → s.handedOff = false → s.host.flr = none →
       ∃ t, exec .flr s = .next t ∧ t = { s with host := t.host, regs := t.regs } ∧ t.host.mse = false ∧ t.host.bme = false ∧
         t.host.bars = [] ∧ t.host.msixEnable = false ∧ t.host.flr = none ∧
         (∀ v : Fin 256, (t.reg (0x06000 + 16 * v.val + 12)) = 1)) ∧
     (s.host.flr ≠ none → exec .flrCaptureResume s = .next { s with host := { s.host with capPaused := false } }) ∧
     (s.host.flr ≠ none →
       ∃ t, exec .flrDone s = .next t ∧ t.host.flr = none ∧ t.host.msixEnable = false ∧ t.host.mse = false ∧ t.host.bme = false ∧
         t.host.speed = s.host.speed ∧ t.host.capPaused = false ∧ (∀ v : Fin 256, (t.reg (0x06000 + 16 * v.val + 12)) = 1) ∧
         (s.obs.events.length < 512 → ∃ e ∈ t.obs.events, e.code = 0x0301 ∧ e.beat = s.clk.beat) ∧
         t = { s with host := t.host, regs := t.regs, obs := t.obs, pin := t.pin }) ∧
     (s.cfgOpen = true → s.host.flr ≠ none → ∀ q : CfgReq,
       let retry := { s with host := { s.host with resp := .retry } }
       exec .flr s = .next retry ∧ exec (.busMasterEnable q) s = .next retry ∧ exec .d3hotEntry s = .next retry ∧
       exec .d0Return s = .next retry ∧ exec .msixEnable s = .next retry ∧ exec (.msixUnmask none) s = .next retry)

/-- D3HOT_ENTRY, D0_RETURN and BUS_MASTER_ENABLE (R127, R122, R109, R111, R112): D3hot and Bus Master Enable off hold back what
needs DMA, and what was held goes out in its original order with the return, behind what was already sent and before the messages
it brings; BAR accesses are accepted 50 µs after the return. The Command register sets Memory Space Enable and Bus Master Enable;
a configuration read answers the register and changes nothing; a BAR register holds the address bits its size leaves it. -/
def Obligations.HeldOutputOrder : Prop :=
  ∀ (s : State) (v : Word), s.cfgOpen = true → s.host.flr = none →
    (∃ t, exec .d3hotEntry s = .next t ∧ t.host = { s.host with d3hot := true } ∧ t.hostOpen = false ∧ t.dmaOpen = false ∧
      t = { s with host := t.host, ring := { s.ring with turn := none, turnLeft := 0, turnPast := false } }) ∧
    (s.host.d3hot = true → s.host.bme = true →
      ∃ t, exec .d0Return s = .next t ∧ t.host.d3hot = false ∧ t.host.barFrom = s.clk.beat + 50000 ∧ Released s t ∧
        t = { s with host := t.host, fresh := t.fresh }) ∧
    (s.host.d3hot = true → s.host.bme = false →
      exec .d0Return s = .next { s with host := { s.host with d3hot := false, barFrom := s.clk.beat + 50000 } }) ∧
    (s.host.d3hot = false → v.getLsbD 2 = true →
      ∃ t, exec (.busMasterEnable ⟨true, .command, v⟩) s = .next t ∧ t.host.bme = true ∧ t.host.mse = v.getLsbD 1 ∧
        Released s t ∧ t = { s with host := t.host, fresh := t.fresh }) ∧
    (v.getLsbD 2 = false →
      ∃ t, exec (.busMasterEnable ⟨true, .command, v⟩) s = .next t ∧ t.dmaOpen = false ∧
        t = { s with host := { s.host with mse := v.getLsbD 1, bme := false } }) ∧
    (∀ r : CfgReg, exec (.busMasterEnable ⟨false, r, v⟩) s =
      .next { s with host := { s.host with resp := .bytes (leBytes 4 (cfgImage r s).toNat) } }) ∧
    (∀ i : Fin 6, Sound s →
      ∃ t, exec (.busMasterEnable ⟨true, .bar i, v⟩) s = .next t ∧ t = { s with host := { s.host with bars := t.host.bars } } ∧
        cfgImage (.bar i) t = v &&& (barBits i).1 ||| (barBits i).2)

/-- LINK_TRAINED (R109, R110): outside a PERST_N assertion, once configuration space is served, the link comes up at the
partner's speed with the widest of x1, x4 and x8 that the partner offers too, and, with nothing held back, changes nothing else.
L1_ENTRY and L1_EXIT (R129): at the partner's initiative, or, with ASPM L1 enabled, after L1_IDLE µs with nothing to send and no
request out, the link is in L1; with L1_IDLE 0 it never is by itself; the exit leaves L1. TLP_DISCARD (R122): a discarded request
has no side effect but its report. The model's own choices in it: logs 5 and 8. -/
def Obligations.LinkStates : Prop :=
  (∀ (s : State) (speed width : Nat), s.linkOpen = true → s.pwr.perstLow = false → 1 ≤ speed → speed ≤ 4 → 1 ≤ width →
     s.host.held = [] →
     ∃ t, exec (.linkTrained speed width) s = .next t ∧ t.host.speed.toNat = speed ∧
       t = { s with host := { s.host with
         speed := t.host.speed, width := if width < 4 then 1 else if width < 8 then 4 else 8, inL1 := false } }) ∧
  (∀ s : State,
     (s.cfgOpen = true → s.host.inL1 = false → s.host.linkCtl.getLsbD 1 = true → bits 0 8 (s.reg 0x04004) ≠ 0 →
       s.host.held = [] → s.readsOut = 0 →
       ∃ t, exec (.l1Entry false) s = .next t ∧
         t.clk.beat = s.clk.beat + BitVec.ofNat 64 (1000 * bits 0 8 (s.reg 0x04004)) ∧
         t = { s with host := { s.host with inL1 := true }, clk := t.clk, pin := t.pin, obs := t.obs }) ∧
     (s.cfgOpen = true → exec (.l1Entry true) s = .next { s with host := { s.host with inL1 := true } }) ∧
     ((bits 0 8 (s.reg 0x04004) = 0 ∨ s.host.linkCtl.getLsbD 1 = false) → exec (.l1Entry false) s = .next s) ∧
     (s.awake = true → exec .l1Exit s = .next { s with host := { s.host with inL1 := false } })) ∧
  (∀ s : State, s.cfgOpen = true →
     exec (.tlpDiscard .lcrc) s = .next { s with host := { s.host with aerCorr := s.host.aerCorr ||| 0x40 } } ∧
     exec (.tlpDiscard .poisoned) s = .next { s with host := { s.host with aerUncorr := s.host.aerUncorr ||| 0x1000 } } ∧
     exec (.tlpDiscard .malformed) s = .next { s with host := { s.host with aerUncorr := s.host.aerUncorr ||| 0x40000 } } ∧
     exec (.tlpDiscard .ecrc) s = .next { s with host := { s.host with aerUncorr := s.host.aerUncorr ||| 0x80000 } })

/-- MSI-X (R117, R118, R120): with the function enabled and the vector unmasked, a vector with a pending completion
whose TIME has passed sends one message and keeps nothing pending; masked, it sets the vector's Pending Bit Array bit
and sends nothing; the unmask of the vector, or of the function, sends the message and clears the bit. While Enable is 0 nothing is
sent. The model's own choices in it: log 8. -/
def Obligations.MessageSignalling : Prop :=
  ∀ (s : State) (v : Fin 256) (p : Pend), Sound s → s.cfgOpen = true → s.dmaOpen = true → s.sys.stage ≠ 7 →
    (s.regOpen = true → s.host.msixEnable = true → s.host.msixMask = false → s.host.pba.getLsbD v.val = true →
      ∃ t, exec (.msixUnmask (some v)) s = .next t ∧ t.host.out = s.host.out ++ [.msix v.val] ∧
        t.host.pba.getLsbD v.val = false ∧ (∀ q ∈ t.host.pend, q.vector ≠ v.val) ∧
        t.reg (0x06000 + 16 * v.val + 12) = 0 ∧ t = { s with host := t.host, regs := t.regs }) ∧
    (s.host.msixEnable = true → s.host.pba = 1#256 <<< v.val → s.host.pend = [] →
      (s.reg (0x06000 + 16 * v.val + 12)).getLsbD 0 = false →
      ∃ t, exec (.msixUnmask none) s = .next t ∧ t.host.msixMask = false ∧ t.host.out = s.host.out ++ [.msix v.val] ∧
        t.host.pba = 0 ∧ t = { s with host := t.host }) ∧
    (s.host.pend = [p] → p.vector = v.val → p.beat.toNat + 255005 < 2 ^ 64 →
      s.clk.beat.toNat ≤ p.beat.toNat + 1000 * p.time.toNat →
      (s.host.msixEnable = true → masked v.val s = false →
        ∃ t, exec (.coalesceTime v) s = .next t ∧ t.host.out = s.host.out ++ [.msix v.val] ∧ t.host.pend = [] ∧
          p.beat.toNat + 1000 * p.time.toNat ≤ t.clk.beat.toNat) ∧
      (s.host.msixEnable = true → masked v.val s = true →
        ∃ t, exec (.coalesceTime v) s = .next t ∧ t.host.out = s.host.out ∧ t.host.pend = [p] ∧
          t.host.pba.getLsbD v.val = true) ∧
      (s.host.msixEnable = false →
        ∃ t, exec (.coalesceTime v) s = .next t ∧ t.host.out = s.host.out ∧ t.host.pend = [p])) ∧
    (s.host.pend = [p] → p.vector = v.val → p.time = 0 → s.host.msixEnable = false → s.host.pba = 0 → masked v.val s = false →
      ∃ t, exec .msixEnable s = .next t ∧ t.host.msixEnable = true ∧ t.host.out = s.host.out ++ [.msix v.val] ∧
        t.host.pend = [] ∧ t = { s with host := t.host })

/-- BAR0 reads (R113, R103): one that is longer than 8 bytes or crosses an aligned 8-byte unit aborts with no data and sets
BAR0_PARTIAL; any other returns the selected bytes of the registers it touches, the upper one as it stands after the read of the
lower, and changes no more than the latches. After hand-off a register reads its image; before it SYS, CLK and SEC do and every
other reads zero; at FUSE_FAIL SYS alone. While Memory Space Enable is 0 or in D3hot the read is an Unsupported Request. The four
reads that latch (R37, R46, R64, R247): each answers the low word and latches the matching high part. The model's own choices in
it: logs 5 and 29. -/
def Obligations.RegisterReads : Prop :=
  (∀ (s : State) (off len : Nat), 0 < len →
     (s.hostOpen = true → 8 < off % 8 + len →
       exec (.bar0ReadAbort off len) s =
         .next (answer .abort (mark 0x04014 0 { s with host := { s.host with bar0Partial := true } }))) ∧
     (s.hostOpen = true → off % 8 + len ≤ 8 →
       ∃ t, exec (.bar0ReadAbort off len) s = .next t ∧
         t = { s with host := { s.host with resp := t.host.resp },
                      clk := { s.clk with beatLatch := t.clk.beatLatch, taiLatch := t.clk.taiLatch },
                      ring := { s.ring with highLatch := t.ring.highLatch },
                      ledger := { s.ledger with serialLatch := t.ledger.serialLatch } } ∧
         let lo := leBytes 4 (readValue (off / 8 * 8) s).toNat
         let hi := leBytes 4 (readValue (off / 8 * 8 + 4) s).toNat
         let after := leBytes 4 (readValue (off / 8 * 8 + 4) (readReg (off / 8 * 8) s).2).toNat
         (off % 8 + len ≤ 4 → t.host.resp = .bytes (slice (off % 8) len lo)) ∧
         (4 ≤ off % 8 → t.host.resp = .bytes (slice (off % 8 - 4) len hi)) ∧
         (off % 8 < 4 → 4 < off % 8 + len → t.host.resp = .bytes (slice (off % 8) len (lo ++ after)))) ∧
     (s.hostShut = true →
       exec (.bar0ReadAbort off len) s = .next { s with host := { s.host with
         resp := .unsupported, aerUncorr := s.host.aerUncorr ||| 0x100000 } })) ∧
  (∀ (s : State) (a : Nat),
     (s.handedOff = true → readValue a s = regImage a s) ∧
     (s.sys.stage = 8 → readValue a s = (if a < 0x01000 then regImage a s else 0)) ∧
     (s.handedOff = false → s.sys.stage ≠ 8 →
       readValue a s = (if a < 0x01000 ∨ (0x02000 ≤ a ∧ a < 0x04000) then regImage a s else 0))) ∧
  (∀ s : State, s.hostOpen = true → s.handedOff = true →
     (∃ t, exec .beatLoRead s = .next t ∧ t.host.resp = .bytes (leBytes 4 (s.clk.beat.toNat % 2 ^ 32)) ∧
       regImage 0x0200C t = (s.clk.beat >>> 32).setWidth 32) ∧
     (∃ t, exec .taiLoRead s = .next t ∧ t.host.resp = .bytes (leBytes 4 (s.tai.toNat % 2 ^ 32)) ∧
       regImage 0x02014 t = (s.tai >>> 32).setWidth 32) ∧
     (∃ t, exec .wardHighLoRead s = .next t ∧ t.host.resp = .bytes (leBytes 4 ((s.ward s.wardSel).high.toNat % 2 ^ 32)) ∧
       regImage 0x08410 t = ((s.ward s.wardSel).high >>> 32).setWidth 32) ∧
     (∃ t, exec .serialLoRead s = .next t ∧ t.host.resp = .bytes (leBytes 4 (s.ledger.nextSerial.toNat % 2 ^ 32)) ∧
       regImage 0x10010 t = (s.ledger.nextSerial >>> 32).setWidth 32))

/-- REGISTER_WRITE (R5, R6, R7, R113, R405–R407): a legal value of a plain register is stored under its mask, an illegal
one is dropped whole and latched with its address, or counted where an earlier one is latched, and no other register changes; a
write of another size, alignment or byte-enable pattern is dropped and sets BAR0_PARTIAL. A write of 1 to SYS.IRQ_STATUS.TICK
clears it, unless the die has set it in the same beat. -/
def Obligations.RegisterWrites : Prop :=
  ∀ (s : State) (a size : Nat) (full : Bool) (v : DWord), Sound s → s.regOpen = true →
    (0x0C000 ≤ a → a < 0x12000 → a % 4 = 0 → ¬ (0x0E104 ≤ a ∧ a < 0x0E180 ∧ a % 8 = 4) → ∀ i, regInfo a = some i →
      (regLegal s a (v.setWidth 32) = true →
        ∃ t, exec (.registerWrite a 4 true v) s = .next t ∧ t.reg a = v.setWidth 32 &&& i.mask ∧
          (∀ b, b ≠ a → t.reg b = s.reg b) ∧
          (a ≠ 0x0C000 → a ≠ 0x0C400 → a ≠ 0x0E00C → t = { s with regs := t.regs })) ∧
      (regLegal s a (v.setWidth 32) = false → s.sys.rejBeat ≠ s.clk.beat → s.sys.rejValid = false →
        ∃ t, exec (.registerWrite a 4 true v) s = .next t ∧ t = { s with sys := t.sys } ∧ t.sys.rejValid = true ∧
          t.sys.rejAddr = BitVec.ofNat 18 a ∧ t.sys.rejValue = v.setWidth 32 ∧ t.sys.rejMore = 0) ∧
      (regLegal s a (v.setWidth 32) = false → s.sys.rejBeat ≠ s.clk.beat → s.sys.rejValid = true →
        ∃ t, exec (.registerWrite a 4 true v) s = .next t ∧ t = { s with sys := t.sys } ∧ t.sys.rejAddr = s.sys.rejAddr ∧
          t.sys.rejValue = s.sys.rejValue ∧ t.sys.rejMore.toNat = min 63 (s.sys.rejMore.toNat + 1)) ∧
      (∀ (k : BitVec 18) (x : Word), regLegal s a (v.setWidth 32) = false → s.sys.rejBeat = s.clk.beat →
        s.sys.rejFresh = true → s.sys.rejNow = [(k, x)] →
        ∃ t, exec (.registerWrite a 4 true v) s = .next t ∧ t = { s with sys := t.sys } ∧ t.sys.rejMore = 1 ∧
          (t.sys.rejAddr, t.sys.rejValue) = (if k ≤ BitVec.ofNat 18 a then (k, x) else (BitVec.ofNat 18 a, v.setWidth 32)))) ∧
    ((full = false ∨ (size ≠ 4 ∧ size ≠ 8) ∨ a % size ≠ 0) →
      exec (.registerWrite a size full v) s =
        .next (mark 0x04014 0 { s with host := { s.host with bar0Partial := true } })) ∧
    (v.getLsbD 0 = true →
      (s.obs.hwBeat ≠ s.clk.beat →
        exec (.registerWrite 0x00020 4 true v) s = .next { s with sys := { s.sys with irqTick := false } }) ∧
      (s.obs.hwBeat = s.clk.beat → (0x00020, 0) ∈ s.obs.hwSet → exec (.registerWrite 0x00020 4 true v) s = .next s))

/-- CFG_REJECT_CLEAR (R407): VALID and MORE clear; ADDR and VALUE, and every other block, stay. ADMIN_DISABLE and
ADMIN_ENABLE (R162, R134): the first stops fetch and keeps the ring, RUNNING reading 1 while fetched entries remain; the second,
with no admin job fetched and no chain open, applies the staged placement at once: indices 0, write phase 1, fetch running.
EVLOG_HEAD_WRITE (R363): ignored while no ring is placed; applied when it is below the size and not ahead of the tail; any other
value leaves the head and sets HEAD_BAD. RAT_B_WRITE (R218): a legal word takes effect with the ward range staged in RAT_A; one
that would make the entry valid with a bad range or an empty mask is dropped whole as a configuration rejection. -/
def Obligations.OwnWriteRules : Prop :=
  (∀ s : State, s.regOpen = true → (s.sys.rejBeat ≠ s.clk.beat ∨ s.sys.rejNow = []) →
     ∃ t, exec .cfgRejectClear s = .next t ∧ t = { s with sys := t.sys } ∧
       t.sys = { s.sys with rejValid := false, rejMore := 0, rejBeat := s.clk.beat, rejNow := [], rejFresh := true }) ∧
  (∀ s : State, s.regOpen = true →
     (∃ t, exec .adminDisable s = .next t ∧ t.ring.enable = false ∧ t.ring.fetching = false ∧
       t.running = ((s.running || s.ring.stopping) && s.ring.jobs.any ctxAdmin) ∧
       t.ring.admin.sqTail = s.ring.admin.sqTail ∧ t.ring.admin.sqHead = s.ring.admin.sqHead ∧
       t.ring.jobs = s.ring.jobs ∧ (∀ x ∈ t.host.reads, x.ctx ≠ .admin) ∧ t = { s with ring := t.ring, host := t.host }) ∧
     (s.ring.admin.chain = none → (∀ j ∈ s.ring.jobs, j.ctx ≠ .admin) →
       ∃ t, exec .adminEnable s = .next t ∧ t.ring.enable = true ∧ t.running = true ∧ t.ring.placed = true ∧
         t.ring.admin.sqBase = (s.reg 0x08004) ++ (s.reg 0x08000) ∧ t.ring.admin.cqBase = (s.reg 0x0800C) ++ (s.reg 0x08008) ∧
         t.ring.admin.sqLog = bits 0 5 (s.reg 0x08010) ∧ t.ring.admin.cqLog = bits 8 5 (s.reg 0x08010) ∧
         t.ring.admin.sqHead = 0 ∧ t.ring.admin.sqTail = 0 ∧ t.ring.admin.cqHead = 0 ∧ t.ring.admin.cqTail = 0 ∧
         t.ring.admin.phase = true ∧ t.ring.jobs = s.ring.jobs ∧ t = { s with ring := t.ring, host := t.host })) ∧
  (∀ (s : State) (v : Word), s.regOpen = true →
     let inRing := bits 0 16 v < 2 ^ s.obs.logLog ∧
       modSub (bits 0 16 v) s.obs.head.toNat (2 ^ s.obs.logLog) ≤ modSub s.obs.tail.toNat s.obs.head.toNat (2 ^ s.obs.logLog)
     (s.obs.placed = false → exec (.evlogHeadWrite v) s = .next s) ∧
     (s.obs.placed = true → inRing →
       exec (.evlogHeadWrite v) s = .next { s with obs := { s.obs with head := v.setWidth 16 } }) ∧
     (s.obs.placed = true → ¬ inRing →
       exec (.evlogHeadWrite v) s = .next (mark 0x1A000 11 { s with obs := { s.obs with headBad := true } }))) ∧
  (∀ (s : State) (n : Fin 16) (v : Word), Sound s → s.regOpen = true →
     let a := s.reg (0x0E100 + 8 * n.val)
     (bits 1 3 v ≤ 3 → (bits 0 1 v = 0 ∨ (bits 0 12 a ≤ bits 16 12 a ∧ bits 8 4 v ≠ 0 ∧ bits 12 2 v ≠ 0)) →
       ∃ t, exec (.ratBWrite n v) s = .next t ∧ t.reg (0x0E104 + 8 * n.val) = v &&& 0x3FFF ∧
         t.cache.ratRange.get (0, 0) n.val = (bits 0 12 a, bits 16 12 a) ∧ t = { s with regs := t.regs, cache := t.cache }) ∧
     (bits 0 1 v = 1 → (bits 16 12 a < bits 0 12 a ∨ bits 8 4 v = 0 ∨ bits 12 2 v = 0) → s.sys.rejBeat ≠ s.clk.beat →
       ∃ t, exec (.ratBWrite n v) s = .next t ∧ t = { s with sys := t.sys } ∧ t.sys.rejValid = true))

/-- BAR2 (R115, R137a, R139): a write of another size, alignment or place, and every read, sets BAR2_STRAY, a read with all-zero
data; a 4-byte write at a configured ward's submission tail applies an index below the ring's size, and ignores and
counts another; on a ward that has no rings, or is RESETTING, it is an orphan. BAR4 (R116, R358, R360): a read across a 4 KiB
boundary aborts and sets BAR4_SPAN; any other returns the bytes of the directory page and the two images, with zeros between and
behind them, and changes nothing else; a write is dropped and sets BAR4_WRITE. -/
def Obligations.DoorbellsAndImages : Prop :=
  (∀ (s : State) (off size : Nat) (v : DWord) (w : WardId), Sound s → s.regOpen = true →
     let stray := mark 0x04014 1 { s with host := { s.host with bar2Stray := true } }
     exec (.bar2Stray ⟨false, off, size, v⟩) s = .next (answer (.bytes (zeros size)) stray) ∧
     (size ≠ 4 → size ≠ 8 → exec (.bar2Stray ⟨true, off, size, v⟩) s = .next stray) ∧
     (0x11000 ≤ off → exec (.bar2Stray ⟨true, off, size, v⟩) s = .next stray) ∧
     (s.host.flr = none → (s.ward w).configured = true →
       ((s.ward w).state = .sealed ∨ (s.ward w).state = .opened ∨ (s.ward w).state = .faulted) → (s.ward w).flush = none →
       ((v.setWidth 16).toNat < (s.ward w).ring.sqSize →
         ∃ t, exec (.bar2Stray ⟨true, 0x01000 + 16 * w.val, 4, v⟩) s = .next t ∧ t = { s with wards := t.wards } ∧
           (t.ward w).ring.sqTail = (v.setWidth 16).toNat ∧ (t.ward w).ring.sqHead = (s.ward w).ring.sqHead ∧
           ∀ u, u ≠ w → t.ward u = s.ward u) ∧
       ((s.ward w).ring.sqSize ≤ (v.setWidth 16).toNat →
         ∃ t, exec (.bar2Stray ⟨true, 0x01000 + 16 * w.val, 4, v⟩) s = .next t ∧ t = { s with wards := t.wards, obs := t.obs } ∧
           (t.ward w).ring = { (s.ward w).ring with rangeBit := true } ∧ t.counter (cWard w 0) = s.counter (cWard w 0) + 1 ∧
           ∀ u, u ≠ w → t.ward u = s.ward u)) ∧
     (s.host.flr = none → ((s.ward w).configured = false ∨ (s.ward w).state = .resetting) →
       ∃ t, exec (.bar2Stray ⟨true, 0x01000 + 16 * w.val, 4, v⟩) s = .next t ∧ t = { s with obs := t.obs } ∧
         t.counter (cWard w 16) = s.counter (cWard w 16) + 1)) ∧
  (∀ (s : State) (off len : Nat), s.hostOpen = true →
     (4096 < off % 4096 + len →
       exec (.bar4Read off len) s =
         .next (answer .abort (mark 0x04014 5 { s with host := { s.host with bar4Span := true } }))) ∧
     (off % 4096 + len ≤ 4096 →
       ∃ l, exec (.bar4Read off len) s = .next { s with host := { s.host with resp := .bytes l } } ∧ l.length = len ∧
         (∀ i, i < len → l.getD i 0 = bar4Byte (off + i) s) ∧
         (s.handedOff = false ∨ (0x200000 ≤ off ∧ off < 0x201000) ∨ 0x400000 ≤ off → l = zeros len) ∧
         (s.handedOff = true → off = 0 → len = 40 → l =
           leBytes 4 1 ++ leBytes 4 (bit s.obs.active) ++ leBytes 8 s.obs.shown.toNat ++ leBytes 8 s.obs.shownTick.toNat ++
           leBytes 4 0x1000 ++ leBytes 4 0x201000 ++ leBytes 4 0x0A3000 ++ leBytes 4 s.sec.bootCount.toNat) ∧
         (∀ o, s.handedOff = true → off = 0x1000 + o → o % 8 = 0 → o < 0x1FF000 → len = 8 →
           l = leBytes 8 (imageWord s.obs.image0 o).toNat) ∧
         (∀ o, s.handedOff = true → off = 0x201000 + o → o % 8 = 0 → o < 0x1FF000 → len = 8 →
           l = leBytes 8 (imageWord s.obs.image1 o).toNat)) ∧
     exec (.bar4Write off len) s = .next (mark 0x04014 2 { s with host := { s.host with bar4Write := true } }))


/-- SRC_PLL (R28, R29): while LOCK is 0 the source stays and SWITCH_REFUSED is set; with LOCK 1 the core goes to the
PLL and the beat counter adds exactly 16 for the switch; a core that runs from the PLL already is not switched. -/
def Obligations.SourceToPll : Prop :=
  ∀ s : State, s.regOpen = true →
    (s.clk.lock = false →
      exec .srcPll s = .next (mark 0x02004 8 { s with clk := { s.clk with switchRefused := true } })) ∧
    (s.clk.lock = true → s.clk.srcActive = false →
      ∃ t, exec .srcPll s = .next t ∧ t.clk.src = true ∧ t.clk.srcActive = true ∧ t.clk.beat = s.clk.beat + 16 ∧
        t.clk.taiValid = s.clk.taiValid ∧ t = { s with clk := t.clk, pin := t.pin, obs := t.obs }) ∧
    (s.clk.lock = true → s.clk.srcActive = true →
      exec .srcPll s = .next { s with clk := { s.clk with src := true } })

/-- SRC_OSCILLATOR (R27, R29): the core leaves the PLL, the beat counter adds exactly 16, TAI is no longer valid and
PPS_OUT is low. PLL_LOCK and PLL_LOSS (R26, R30): the lock shows in CLK.STATUS; its loss under the PLL sets PLL_LOSS,
invalidates TAI, takes the core to the fast oscillator and brings Safe Hold with cause PLL_LOSS; under the oscillator
only LOCK clears. -/
def Obligations.SourceToOscillator : Prop :=
  (∀ s : State, s.regOpen = true →
     (s.clk.srcActive = true →
       ∃ t, exec .srcOscillator s = .next t ∧ t.clk.src = false ∧ t.clk.srcActive = false ∧ t.clk.beat = s.clk.beat + 16 ∧
         t.clk.taiValid = false ∧ t.clk.ppsOut = false ∧ t = { s with clk := t.clk, pin := t.pin, obs := t.obs }) ∧
     (s.clk.srcActive = false → exec .srcOscillator s = .next { s with clk := { s.clk with src := false } })) ∧
  (∀ s : State, s.awake = true →
     (s.clk.pllEnabled = true → exec .pllLock s = .next { s with clk := { s.clk with lock := true } }) ∧
     (s.clk.lock = true → s.clk.srcActive = true →
       ∃ t, exec .pllLoss s = .next t ∧ t.clk.lock = false ∧ t.clk.pllLoss = true ∧ t.clk.taiValid = false ∧
         t.clk.srcActive = false ∧ t.clk.beat = s.clk.beat + 16 ∧ t.pwr.holdCause.getLsbD 1 = true ∧ t.pwr.mode = .safeHold) ∧
     (s.clk.lock = true → s.clk.srcActive = false →
       exec .pllLoss s = .next { s with clk := { s.clk with lock := false } }))

/-- SET_NOW (R39, R40): on the PLL, and with no valid later time to protect in Service, TAI takes the staged value in
that beat, TAI_VALID is set and a pending SET_AT_PPS is replaced; otherwise TAI_REFUSED is set and logged, TAI and a
pending SET_AT_PPS stay. SET_AT_PPS and SET_AT_PPS_TIMEOUT (R40): armed on the PLL with PPS_IN on a pin and a mode
other than OFF, else refused; 1,100,000,000 beats without an accepted edge cancel it, set TAI_REFUSED and leave
TAI_VALID. The model's own choices in it: logs 8, 34 and 43. -/
def Obligations.SetTai : Prop :=
  (∀ s : State, s.regOpen = true →
     (s.clk.srcActive = true → (s.inService = false ∨ s.clk.taiValid = false ∨ s.tai ≤ s.taiSet) →
       ∃ t, exec .setNow s = .next t ∧ t.tai = (s.reg 0x0201C) ++ (s.reg 0x02018) ∧ t.clk.taiValid = true ∧
         t.clk.setAtPps = none ∧ t = { s with clk := t.clk } ∧ t.clk.taiRefused = s.clk.taiRefused) ∧
     ((s.clk.srcActive = false ∨ (s.inService = true ∧ s.clk.taiValid = true ∧ s.taiSet < s.tai)) →
       ∃ t, exec .setNow s = .next t ∧ t.clk = { s.clk with taiRefused := true } ∧ t = { s with clk := t.clk, obs := t.obs, pin := t.pin } ∧
         (s.obs.events.length < 512 → ∃ e ∈ t.obs.events, e.code = 0x0103 ∧ e.beat = s.clk.beat))) ∧
  (∀ s : State, s.regOpen = true →
     (s.clk.srcActive = true → s.ppsMode ≠ 0 → s.pinWith 0x6 0 ≠ none →
       ∃ t, exec .setAtPps s = .next t ∧ t.clk.setAtPps = some s.clk.beat ∧ t = { s with clk := t.clk } ∧ t.clk.taiQ = s.clk.taiQ) ∧
     ((s.clk.srcActive = false ∨ s.ppsMode = 0 ∨ s.pinWith 0x6 0 = none) →
       ∃ t, exec .setAtPps s = .next t ∧
         t.clk = { s.clk with taiRefused := true, setAtPps := none, setPrior := false } ∧
         t = { s with clk := t.clk, obs := t.obs, pin := t.pin } ∧
         (s.obs.events.length < 512 → ∃ e ∈ t.obs.events, e.code = 0x0103 ∧ e.beat = s.clk.beat))) ∧
  (∀ (s : State) (b : DWord), s.awake = true → s.clk.setAtPps = some b → b.toNat ≤ s.clk.beat.toNat →
     s.clk.beat.toNat ≤ b.toNat + 1100000000 → b.toNat + 1100000005 < 2 ^ 64 →
     ∃ t, exec .setAtPpsTimeout s = .next t ∧ t.clk.setAtPps = none ∧ t.clk.taiRefused = true ∧
       t.clk.taiValid = s.clk.taiValid ∧ b.toNat + 1100000000 ≤ t.clk.beat.toNat ∧
       t.clk.beat.toNat < b.toNat + 1100000005 ∧ t = { s with clk := t.clk, obs := t.obs, pin := t.pin })

/-- TAI_RATE_WRITE (R47): a magnitude of at most 0x0020_C49C is stored; a larger one is refused, and the rate is
unchanged. -/
def Obligations.TaiRate : Prop :=
  ∀ (s : State) (v : Word), Sound s → s.regOpen = true →
    (v.toInt.natAbs ≤ 0x20C49C →
      ∃ t, exec (.taiRateWrite v) s = .next t ∧ t.taiRate = v.toInt ∧ t = { s with regs := t.regs } ∧
        ∀ a, a ≠ 0x02024 → t.reg a = s.reg a) ∧
    (0x20C49C < v.toInt.natAbs →
      ∃ t, exec (.taiRateWrite v) s = .next t ∧ t.taiRate = s.taiRate ∧
        t = mark 0x02004 9 { s with clk := { s.clk with taiRefused := true } })

/-- PPS_CTRL_WRITE (R40, R43, R406): mode 3 is rejected; OFF cancels a pending SET_AT_PPS; leaving OFF begins the
holdover span. PPS_EDGE (R8, R41, R42): with PPS_IN on a settled pin and a mode other than OFF, an edge at least
900,000,000 beats after the last accepted one is recorded with its TAI and its signed error and ends HOLDOVER; in
DISCIPLINE an error of at most 1,000,000 ns becomes the slew in progress, and a larger one sets PPS_FAR; a pending SET_AT_PPS
that may be applied loads TAI, and stays set where it was written in this beat over an earlier one. Stated with no slew in
progress. An earlier edge is ignored and counted. The model's own choices in it: logs 8, 34 and 43. -/
def Obligations.PpsInput : Prop :=
  (∀ (s : State) (v : Word), Sound s → s.regOpen = true →
     (bits 0 2 v = 3 → s.sys.rejBeat ≠ s.clk.beat →
       ∃ t, exec (.ppsCtrlWrite v) s = .next t ∧ t = { s with sys := t.sys } ∧ t.sys.rejValid = true ∧ t.ppsMode = s.ppsMode) ∧
     (bits 0 2 v = 0 → ∀ b, s.clk.setAtPps = some b →
       ∃ t, exec (.ppsCtrlWrite v) s = .next t ∧ t.ppsMode = 0 ∧
         t.clk = { s.clk with setAtPps := none, setPrior := false, taiRefused := true } ∧
         t = { s with clk := t.clk, regs := t.regs, obs := t.obs, pin := t.pin }) ∧
     ((bits 0 2 v = 1 ∨ bits 0 2 v = 2) → s.ppsMode = 0 →
       ∃ t, exec (.ppsCtrlWrite v) s = .next t ∧ t.ppsMode = bits 0 2 v ∧ t.clk = { s.clk with leftOff := s.clk.beat } ∧
         t = { s with clk := t.clk, regs := t.regs })) ∧
  (∀ s : State, Sound s → s.handedOff = true → s.ppsMode ≠ 0 → s.ppsPin ≠ none → s.clk.slewLeft = 0 →
     (s.clk.lastEdge = none ∨ (∃ b, s.clk.lastEdge = some b ∧ b.toNat + 900000000 ≤ s.clk.beat.toNat) →
       ∃ t, exec (.ppsEdge 0) s = .next t ∧ t.clk.ppsEdge = s.tai ∧ t.clk.lastEdge = some s.clk.beat ∧ t.clk.holdover = false ∧
         t.clk.ppsError.toInt % 1000000000 = s.tai.toNat % 1000000000 ∧ -500000000 ≤ t.clk.ppsError.toInt ∧
         t.clk.ppsError.toInt < 500000000 ∧
         (s.ppsMode = 2 → t.clk.ppsError.toInt.natAbs ≤ 1000000 → t.clk.slewLeft = t.clk.ppsError.toInt) ∧
         (s.ppsMode = 2 → 1000000 < t.clk.ppsError.toInt.natAbs → t.clk.ppsFar = true ∧ t.clk.slewLeft = 0) ∧
         (s.clk.setAtPps = none → t.clk.taiQ = s.clk.taiQ ∧ t.clk.taiValid = s.clk.taiValid ∧ t.clk.setAtPps = none) ∧
         (s.clk.srcActive = true → (s.inService = false ∨ s.clk.taiValid = false ∨ s.tai ≤ s.taiSet) →
           ∀ b, s.clk.setAtPps = some b →
             t.tai = (s.reg 0x0201C) ++ (s.reg 0x02018) ∧ t.clk.taiValid = true ∧
             ((s.clk.setPrior = false ∨ b ≠ s.clk.beat) → t.clk.setAtPps = none) ∧
             (s.clk.setPrior = true → b = s.clk.beat → t.clk.setAtPps = some s.clk.beat))) ∧
     (∀ b, s.clk.lastEdge = some b → s.clk.beat.toNat < b.toNat + 900000000 →
       ∃ t, exec (.ppsEdge 0) s = .next t ∧ t.clk.lastEdge = s.clk.lastEdge ∧ t.clk.ppsEdge = s.clk.ppsEdge ∧
         t.clk.holdover = s.clk.holdover ∧ t.clk.taiQ = s.clk.taiQ ∧ t.counter (cDev 4) = s.counter (cDev 4) + 1))

/-- TAI_SLEW and HOLDOVER (R42, R43): the next slew step falls due; it takes one nanosecond off the error, and TAI, here at
rate 0, loses or gains one beside the beats; the span of 1,100,000,000 beats from the later of the last accepted edge and the
leaving of OFF passes, and HOLDOVER is set, and logged where it was clear. PPS_OUT_RISE and PPS_OUT_FALL (R44): while PPS_OUT_EN
and TAI_VALID are 1 the output is high from a whole second of TAI for 100,000,000 ns; here on the PLL at rate 0 with no slew,
where one beat is 1 ns of TAI. The model's own choices in it: log 8. -/
def Obligations.PpsOutput : Prop :=
  (∀ s : State,
     (s.awake = true → s.clk.srcActive = true → s.clk.slewLeft ≠ 0 → s.clk.beat.toNat ≤ s.clk.slewDue.toNat →
       ∃ t, exec .taiSlew s = .next t ∧ t.clk.beat = s.clk.slewDue ∧
         t.clk.slewLeft = (if 0 < s.clk.slewLeft then s.clk.slewLeft - 1 else s.clk.slewLeft + 1) ∧
         t.clk.slewDue = s.clk.slewDue + 10000 ∧
         (s.taiRate = 0 →
           let n := s.clk.slewDue.toNat - s.clk.beat.toNat
           t.clk.taiQ = s.clk.taiQ + BitVec.ofNat 96 ((if 0 < s.clk.slewLeft then n - 1 else n + 1) * 4294967296)) ∧
         t = { s with clk := t.clk, pin := t.pin, obs := t.obs }) ∧
     (∀ f : Nat, s.handedOff = true → s.ppsMode ≠ 0 →
       f = max s.clk.leftOff.toNat ((s.clk.lastEdge.map BitVec.toNat).getD 0) →
       s.clk.beat.toNat ≤ f + 1100000000 → f + 1100000010 < 2 ^ 64 →
       ∃ t, exec .holdover s = .next t ∧ t.clk.holdover = true ∧ f + 1100000000 ≤ t.clk.beat.toNat ∧
         t.clk.beat.toNat < f + 1100000005 ∧
         (s.clk.holdover = false → s.obs.events.length < 512 → ∃ e ∈ t.obs.events, e.code = 0x0105 ∧ e.beat = t.clk.beat) ∧
         t = { s with clk := t.clk, pin := t.pin, obs := t.obs })) ∧
  (∀ (s : State) (n : Nat), s.awake = true → s.clk.srcActive = true → s.clk.taiValid = true →
     (s.reg 0x02000).getLsbD 1 = true → s.taiRate = 0 → s.clk.slewLeft = 0 →
     s.clk.taiQ = BitVec.ofNat 96 (n * 4294967296) → n + 4000000000 < 2 ^ 64 →
     (∃ t, exec .ppsOutRise s = .next t ∧ t.clk.ppsOut = true ∧ t.tai.toNat = (n / 1000000000 + 1) * 1000000000 ∧
       t.clk.ppsOutFrom = t.tai ∧ t = { s with clk := t.clk, pin := t.pin, obs := t.obs }) ∧
     (s.clk.ppsOut = true → s.clk.ppsOutFrom.toNat = n / 1000000000 * 1000000000 → n < s.clk.ppsOutFrom.toNat + 100000000 →
       ∃ t, exec .ppsOutFall s = .next t ∧ t.clk.ppsOut = false ∧ t.tai.toNat = s.clk.ppsOutFrom.toNat + 100000000 ∧
         t = { s with clk := t.clk, pin := t.pin, obs := t.obs }))

/-- TICK (R3, R45, R361, R367): the first boundary that is due has its actions, or, where the counter has not reached one,
the next: the counter comes to the first counted value at or above it, and the header carries that beat. Generation and
SEQ_BEGIN rise by one and the image is in progress, the samples are taken, SYS.IRQ_STATUS.TICK is set. IMAGE_PUBLISH (R356, R361): the image in progress gets its SEQ_END, the directory shows it with its
generation and its tick, and its counters become the newest checkpoint; nothing outside OBS changes. The model's own choices in
it: logs 8 and 32. -/
def Obligations.TicksAndImages : Prop :=
  (∀ (s : State) (e : TickEnv), Sound s → s.handedOff = true →
     let taken := fun t : State =>
       t.clk.tickDone = s.clk.tickDone + 1 ∧ t.sys.irqTick = true ∧ t.obs.generation = s.obs.generation + 1 ∧
       t.obs.publishing = true ∧ (t.image (t.obs.generation.toNat % 2)).seqBegin = t.obs.generation ∧
       t.obs.sampled = true ∧ t.obs.temp = e.temp ∧ t.obs.volts = tickVolts e
     let stamped := fun (b : DWord) (t : State) => fieldAt 16 8 (t.image (t.obs.generation.toNat % 2)).head = b.toNat
     (∀ b r, s.clk.due = b :: r → ∃ t, exec (.tick e) s = .next t ∧ taken t ∧ stamped b t) ∧
     (s.clk.due = [] → e.hinges = [] → s.clk.beat.toNat / 1000000 = s.clk.tickDone → s.clk.beat.toNat + 1000010 < 2 ^ 64 →
       ∃ t, exec (.tick e) s = .next t ∧ taken t ∧ stamped t.clk.beat t ∧ 1000000 * (s.clk.tickDone + 1) ≤ t.clk.beat.toNat ∧
         t.clk.beat.toNat < 1000000 * (s.clk.tickDone + 1) + s.period)) ∧
  (∀ s : State, s.handedOff = true → s.obs.publishing = true →
     ∃ t, exec .imagePublish s = .next t ∧ t = { s with obs := t.obs } ∧ t.obs.publishing = false ∧
       t.obs.shown = s.obs.generation ∧ t.obs.active = decide (s.obs.generation.toNat % 2 = 1) ∧
       t.obs.shownTick.toNat = fieldAt 8 8 (s.image (s.obs.generation.toNat % 2)).head % 2 ^ 64 ∧
       (t.image (s.obs.generation.toNat % 2)).seqEnd = s.obs.generation ∧
       (t.image (s.obs.generation.toNat % 2)).counters = (s.image (s.obs.generation.toNat % 2)).counters ∧
       t.image (1 - s.obs.generation.toNat % 2) = s.image (1 - s.obs.generation.toNat % 2) ∧
       t.obs.checkpoint.map (·.counters) = some (s.image (s.obs.generation.toNat % 2)).counters ∧
       t.obs.checkOld = s.obs.checkpoint)

/-- OFFICER_IDLE, OFFICER_LOCKOUT and OFFICER_LOCKOUT_END (R68, R70, R71): the idle limit ends the session, and an admin entry
fetched in that beat that needs it completes NOT_OFFICER; the eighth failure locks for 60,000 ticks and logs it; at the end
the flag and the count clear. LOCKOUT and MALFORMED_RATE (R56): the eighth credential failure, and a count past the limit,
fault the ward with their cause and log it; only that ward changes. The model's own choices in it: logs 8 and 46. -/
def Obligations.FailureLimits : Prop :=
  (∀ s : State,
     (s.sec.session = true → s.idleLimit ≤ s.sec.idleTicks →
       ((∀ j ∈ s.ring.jobs, j.needsSession = true → j.at_ ≠ s.clk.beat) →
         exec .officerIdle s = .next { s with sec := { s.sec with session := false, idleTicks := 0 } }) ∧
       (∀ j, s.ring.jobs = [j] → j.needsSession = true → j.at_ = s.clk.beat →
         ∃ t, exec .officerIdle s = .next t ∧ t.sec.session = false ∧ Completed j 0x33 0 s t)) ∧
     (s.sec.officerLocked = false → 8 ≤ s.sec.officerFails.toNat →
       ∃ t, exec .officerLockout s = .next t ∧ t = { s with sec := t.sec, obs := t.obs, pin := t.pin } ∧
         t.sec = { s.sec with officerLocked := true, lockoutLeft := 60000 } ∧
         (s.obs.events.length < 512 → ∃ e ∈ t.obs.events, e.code = 0x0203 ∧ e.beat = s.clk.beat)) ∧
     (s.sec.officerLocked = true → s.sec.lockoutLeft = 0 →
       exec .officerLockoutEnd s = .next { s with sec := { s.sec with officerLocked := false, officerFails := 0 } })) ∧
  (∀ (s : State) (w : WardId), Sound s → ((s.ward w).state = .sealed ∨ (s.ward w).state = .opened) →
     let faulted := fun (cause : BitVec 2) (t : State) =>
       t = { s with wards := t.wards, obs := t.obs, pin := t.pin } ∧
       t.ward w = { s.ward w with state := .faulted, lastFault := cause } ∧ (∀ u, u ≠ w → t.ward u = s.ward u) ∧
       (s.obs.events.length < 512 →
         ∃ e ∈ t.obs.events, e.code = 0x0401 ∧ e.index.toNat = w.val ∧ e.arg0.toNat = cause.toNat ∧ e.beat = s.clk.beat)
     (8 ≤ (s.ward w).fails → ∃ t, exec (.lockout w) s = .next t ∧ faulted 3 t) ∧
     ((s.ward w).malformedLimit ≠ 0 → (s.ward w).malformedLimit.toNat < (s.ward w).malformed →
       ∃ t, exec (.malformedRate w) s = .next t ∧ faulted 2 t))

/-- MEDIA_STALL (R329, R349): a span of STALL_TICKS ticks in Service, without a sector written while a destage waits, or without
a unit released at the cap, sets STALLED and enters Safe Hold with cause MEDIA_STALL. NOISE_HEALTH_FAIL (R80, R85): the
error state, with its cause, every volatile CSP cleared, and Safe Hold with cause SELFTEST. DRBG_RESEED (R81): after 65,536
generate requests the generator is reseeded and the count starts again. The model's own choices in it: log 8. -/
def Obligations.SafeHoldTriggers : Prop :=
  (∀ (s : State) (adaptive : Bool),
     (s.inService = true → (s.stallTicks ≤ s.sys.stallNoWrite ∨ s.stallTicks ≤ s.sys.stallNoRelease) →
       ∃ t, exec .mediaStall s = .next t ∧ t.sys.stalled = true ∧ t.pwr.mode = .safeHold ∧ t.pwr.holdCause.getLsbD 5 = true) ∧
     (s.handedOff = true → s.sec.drbgReady = true → s.sec.error = false →
       ∃ t, exec (.noiseHealthFail adaptive) s = .next t ∧ t.sec.error = true ∧
         t.sec.errorCause = (if adaptive then 0x12 else 0x11) ∧ t.sec.keys = none ∧ t.sec.drbgReady = false ∧
         t.kcc.entries = [] ∧ t.pwr.mode = .safeHold ∧ t.pwr.holdCause.getLsbD 0 = true)) ∧
  (∀ s : State, s.sec.drbgReady = true → 65536 ≤ s.sec.drbgSince →
     exec .drbgReseed s = .next { s with sec := { s.sec with drbgSince := 0 } })

/-- ADMIN_FETCH and ROUNDABOUT_TURN (R141–R143, R151–R153). With one admin entry doorbelled and not requested, a free
completion slot and fewer than 8 taken since the last ward turn, the admin fetch reserves the slot and requests the entry at the
ring's next place; with none, or with 8 taken while a ward is eligible, it requests nothing. A turn goes to an eligible
ward: its credit falls by one, a schedule that waited for the turn acts, it is the last served, and with a burst its first entry
is requested. The model's own choices in it: log 35. -/
def Obligations.EntriesAreRequested : Prop :=
  ∀ s : State, Sound s → fetchOpen s = true →
    (s.ring.enable = true → s.ring.fetching = true → s.ring.adminTaken < 8 → s.ring.admin.avail = 1 → 0 < s.ring.admin.free →
      modSub s.ring.admin.next s.ring.admin.sqHead s.ring.admin.sqSize + 1 =
        modSub ((s.ring.admin.next + 1) % s.ring.admin.sqSize) s.ring.admin.sqHead s.ring.admin.sqSize →
      ∃ t, exec .adminFetch s = .next t ∧
        t.host.out = s.host.out ++ [.read (s.ring.admin.sqBase + BitVec.ofNat 64 (64 * s.ring.admin.next)) 64] ∧
        t.host.reads = s.host.reads ++ [{ ctx := .admin, slot := s.ring.admin.next, sent := s.clk.beat }] ∧
        t.ring.admin.reserved = s.ring.admin.reserved + 1 ∧
        t.ring.admin.next = (s.ring.admin.next + 1) % s.ring.admin.sqSize ∧ t.ring.admin.sqHead = s.ring.admin.sqHead ∧
        t.ring.adminTaken = s.ring.adminTaken + 1 ∧ t = { s with host := t.host, ring := t.ring }) ∧
    ((s.ring.enable = false ∨ s.ring.fetching = false ∨ s.ring.admin.avail = 0 ∨ s.ring.admin.free = 0) → s.ring.adminTaken < 8 →
      exec .adminFetch s = .next s) ∧
    (∀ w, s.ring.adminTaken = 8 → w ∈ s.usedWards → eligible s w = true → exec .adminFetch s = .next s) ∧
    ((s.ring.enable = false ∨ s.ring.fetching = false ∨ s.ring.admin.avail = 0) → s.ring.turn = none → s.intake < 2 →
      ∀ w u, nextTurn s = (some w, u) →
      eligible s w = true ∧
      ∃ t, exec .roundaboutTurn s = .next t ∧ t.ring.lastServed = w.val ∧ t.ring.adminTaken = 0 ∧
        (t.ward w).credit = (u.ward w).credit - 1 ∧ (t.ward w).sched = none ∧
        (∀ n b, (s.ward w).sched = some (n, b) → (t.ward w).weight = n ∧ (t.ward w).burst = b) ∧
        (0 < (t.ward w).burst → 0 < (s.ward w).ring.avail →
          t.host.reads = s.host.reads ++ [{ ctx := .ward w, slot := (s.ward w).ring.next, sent := s.clk.beat }] ∧
          t.host.out = s.host.out ++ [.read ((s.ward w).ring.sqBase + BitVec.ofNat 64 (64 * (s.ward w).ring.next)) 64] ∧
          t.ring.turn = some w))

/-- ENTRY_ARRIVAL (R141, R145, R149). An entry that no longer lies at the head is discarded: no job comes of it. An
entry at the head with FIRST and without LAST opens a chain, and no job comes of it yet; one with both, that passes
every check and carries no intent number, becomes the newest job, ready to run. In both cases the head moves on by
one. Stated between turns, with no read of a job waiting for a tag. The model's own choices in it: logs 15 and 35. -/
def Obligations.EntriesBecomeJobs : Prop :=
  ∀ (s : State) (c : Ctx) (e : Bytes) (r : RingRead) (l : List RingRead), Sound s → s.awake = true → readsOf c s = r :: l →
    r.tries ≠ 1 → s.ring.turn = none → e.length = 64 → (∀ w, c = .ward w → (s.ward w).flush = none) →
    (s.ringOf c).chain = none → (∀ j ∈ s.ring.jobs, j.toAsk = []) →
    ((r.slot ≠ (s.ringOf c).sqHead ∨ (s.ringOf c).sqHead = (s.ringOf c).sqTail) →
      ∃ t, exec (.entryArrival c e) s = .next t ∧ t.ring.jobs = s.ring.jobs ∧ (t.ringOf c).sqHead = (s.ringOf c).sqHead ∧
        (t.ringOf c).reserved = (s.ringOf c).reserved - 1 ∧
        t.host.reads = listDrop (fun x => decide (x.ctx = c)) s.host.reads ∧ t.host.out = s.host.out) ∧
    (r.slot = (s.ringOf c).sqHead → (s.ringOf c).sqHead ≠ (s.ringOf c).sqTail → entFirst e = true → entLast e = false →
      ∃ t, exec (.entryArrival c e) s = .next t ∧ t.ring.jobs = s.ring.jobs ∧ (t.ringOf c).chain = some { first := e } ∧
        (t.ringOf c).sqHead = ((s.ringOf c).sqHead + 1) % (s.ringOf c).sqSize ∧
        t.counter (cQueue c 3) = s.counter (cQueue c 3) + 1) ∧
    (r.slot = (s.ringOf c).sqHead → (s.ringOf c).sqHead ≠ (s.ringOf c).sqTail → entFirst e = true → entLast e = true →
      opIntent (byteAt 0 e).toNat = false → checkEntries c none [e] s = .pass → (∀ j ∈ s.ring.jobs, j.id < s.ring.nextJob) →
      ∃ t, exec (.entryArrival c e) s = .next t ∧
        t.ring.jobs = s.ring.jobs ++
          [{ id := s.ring.nextJob, ctx := c, entry := e, segs := segsOf [e], phase := .ready, at_ := s.clk.beat }] ∧
        t.ring.nextJob = s.ring.nextJob + 1 ∧ (t.ringOf c).chain = none ∧
        (t.ringOf c).sqHead = ((s.ringOf c).sqHead + 1) % (s.ringOf c).sqSize)

/-- RING_READ_FAIL and RING_READ_RETRY (R122, R123, R142): a first failure marks the read with its beat and changes no ring, and a
poisoned completion, a failed ECRC and a timeout are reported; 1 µs later the read is issued again, or, where its slot lies at or
beyond the tail by then, given up; a second failure stops a ward's queue as a fault of the ward with cause 1, and the admin
context's with ADMIN_HALT. The model's own choices in it: logs 5 and 8. -/
def Obligations.RingReadFailures : Prop :=
  ∀ (s : State) (c : Ctx) (why : ReadFail) (r : RingRead) (l : List RingRead), Sound s → s.awake = true → readsOf c s = r :: l →
    (r.tries = 0 →
      ∃ t, exec (.ringReadFail c why) s = .next t ∧ t = { s with host := t.host, clk := t.clk, pin := t.pin, obs := t.obs } ∧
        t.host.out = s.host.out ∧ readsOf c t = { r with tries := 1, failed := t.clk.beat } :: l ∧
        (why ≠ .timeout → t.clk = s.clk ∧ t.obs = s.obs) ∧
        (why = .poisoned → t.host.aerUncorr = s.host.aerUncorr ||| 0x1000) ∧
        (why = .ecrc → t.host.aerUncorr = s.host.aerUncorr ||| 0x80000) ∧
        (why = .timeout → t.host.aerUncorr = s.host.aerUncorr ||| 0x4000)) ∧
    (r.tries = 1 → s.clk.beat.toNat ≤ r.failed.toNat + 1000 → r.failed.toNat + 1010 < 2 ^ 64 →
      (modSub r.slot (s.ringOf c).sqHead (s.ringOf c).sqSize <
          modSub (s.ringOf c).sqTail (s.ringOf c).sqHead (s.ringOf c).sqSize →
        ∃ t, exec (.ringReadRetry c) s = .next t ∧
          t.host.out = s.host.out ++ [.read ((s.ringOf c).sqBase + BitVec.ofNat 64 (64 * r.slot)) 64] ∧
          readsOf c t = { r with tries := 2, sent := t.clk.beat } :: l ∧ r.failed.toNat + 1000 ≤ t.clk.beat.toNat ∧
          t.clk.beat.toNat < r.failed.toNat + 1005 ∧
          t = { s with host := t.host, clk := t.clk, pin := t.pin, obs := t.obs }) ∧
      (modSub (s.ringOf c).sqTail (s.ringOf c).sqHead (s.ringOf c).sqSize ≤
          modSub r.slot (s.ringOf c).sqHead (s.ringOf c).sqSize → s.ring.turn = none →
        ∃ t, exec (.ringReadRetry c) s = .next t ∧ t.host.out = s.host.out ∧ readsOf c t = l ∧
          (t.ringOf c).reserved = (s.ringOf c).reserved - 1)) ∧
    (2 ≤ r.tries → c = .admin →
      ∃ t, exec (.ringReadFail c why) s = .next t ∧ readsOf c t = [] ∧ t.host.adminHalt = true ∧ t.ring.fetching = false ∧
        (s.obs.events.length < 512 → ∃ e ∈ t.obs.events, e.code = 0x0302) ∧ t.wards = s.wards) ∧
    (∀ w, 2 ≤ r.tries → c = .ward w → ((s.ward w).state = .sealed ∨ (s.ward w).state = .opened) →
      ∃ t, exec (.ringReadFail c why) s = .next t ∧ readsOf c t = [] ∧ (t.ward w).state = .faulted ∧ (t.ward w).lastFault = 1 ∧
        ∀ u, u ≠ w → t.ward u = s.ward u)

/-- What moves a fetched job on. DMA_ABORT (R122) ends one that waits for its table or data with ABORTED and sets DMA_ABORT;
DATA_FETCH (R147, R169) brings the data of a transfer, or a fragment table, whose job is then ready or completes BAD_FRAGMENT;
JOB_BEGIN (R189–R191) makes a waiting job ready once nothing holds it back; HELD_COMMAND_EVAL (R158, R179, R180) makes a
command that waited for a ward's reset, or for an equal intent number, ready once that is over; CHAIN_WAIT_TIMEOUT (R148) ends an
open chain TORN. The model's own choices in it: logs 8, 13 and 15. -/
def Obligations.JobsMoveOn : Prop :=
  ∀ (s : State) (id : Nat) (j : Job) (data : Bytes) (why : ReadFail), Sound s → s.awake = true → s.job id = some j →
    (∀ k ∈ listDrop (fun x => x.id == id) s.ring.jobs, k.toAsk = []) →
    (j.phase = .needData ∨ j.phase = .needTable →
      let u := if why = .timeout then elapseTo (j.since.toNat + s.timeout) s else s
      ∃ t, exec (.dmaAbort id why) s = .next t ∧ Completed j 0x10 0 u t ∧ t.host.dmaAbort = true) ∧
    (s.dmaOpen = true → j.phase = .needData →
      ∃ t, exec (.dataFetch id data) s = .next t ∧
        t.job id = some { j with phase := .dataIn, data := fit (transferLen j.entry) data, asked := 0, toAsk := [] } ∧
        t = { s with ring := t.ring, host := t.host } ∧ (j.toAsk = [] → t.host = s.host)) ∧
    (s.dmaOpen = true → j.phase = .needTable →
      let l := fragments (entLen j.entry) (fit (16 * entLen j.entry) data)
      (checkTable j.entry l = .pass → opIntent j.op.toNat = false →
        ∃ t, exec (.dataFetch id data) s = .next t ∧
          t.job id = some { j with
            phase := .ready, segs := l.map (fun f => (BitVec.ofNat 64 f.1, f.2.1)), asked := 0, toAsk := [] }) ∧
      (checkTable j.entry l = .error 0x23 (some 0) → j.toAsk = [] →
        ∃ t, exec (.dataFetch id data) s = .next t ∧ Completed j 0x23 0 s t)) ∧
    (j.phase = .waiting → blocked j s = false → earlierMedia j s = false →
      ∃ t, exec (.jobBegin id) s = .next t ∧ t.job id = some { j with phase := .ready } ∧ t = { s with ring := t.ring }) ∧
    (j.phase = .waiting → blocked j s = true → exec (.jobBegin id) s = .next s) ∧
    (j.phase = .heldReset → holds j s = false → blocked j s = false → turnedAway j s = false → j.op ≠ 0x4E →
      (j.op = 0x4A → (s.ward j.named).state ≠ .sealed) → j.data = [] →
      ∃ t, exec (.heldCommandEval id) s = .next t ∧ t.job id = some { j with phase := .ready } ∧ t = { s with ring := t.ring }) ∧
    (j.phase = .heldReset → holds j s = false → blocked j s = false → turnedAway j s = false → LedgerOpen s →
      (j.op = 0x4E ∨ (j.op = 0x4A ∧ (s.ward j.named).state = .sealed)) →
      ∃ t, exec (.heldCommandEval id) s = .next t ∧ Journaled j .none 0 s t) ∧
    (j.phase = .heldIntent → stepEight j s = .inl .ready → holds j s = false →
      ∃ t, exec (.heldCommandEval id) s = .next t ∧ t.job id = some { j with phase := .ready } ∧ t = { s with ring := t.ring }) ∧
    (∀ c ch, (s.ringOf c).chain = some ch → chainCounts c s = true → bits 0 8 (s.reg 0x08030) ≠ 0 →
      bits 0 8 (s.reg 0x08030) < (s.ringOf c).chainTicks → s.ring.applying = false →
      ∃ t, exec (.chainWaitTimeout c) s = .next t ∧ (t.ringOf c).chain = none ∧
        (s.ringUp c = true → s.dmaOpen = true →
          Out.completion ((s.ringOf c).cqBase + BitVec.ofNat 64 (16 * (s.ringOf c).cqTail))
            (complBytes (fieldAt 2 2 ch.first) 0x11 0 (s.ringOf c).sqHead 0 (s.clk.beat.toNat % 2 ^ 32) (s.ringOf c).phase
              (decide (1 < (ch.first :: ch.rest).length))) ∈ t.host.out))

/-- READ (R53, R84, R168, R226, R227): past the end of the space it completes 0x24; without its ward's key it joins the misses
and waits; with the key, where every block is on die or recorded as unwritten, the blocks' bytes go to its segment, zeros for an
unwritten one, and it completes SUCCESS, or with the first block that cannot be recovered 0x40 and its number; a DATA record it
would read from that fails its tag brings Safe Hold. WARD_INFO (R172) completes SUCCESS with the ward's record. The model's own
choices in it: logs 10 and 11. -/
def Obligations.WardReads : Prop :=
  ∀ (s : State) (id : Nat) (w : WardId) (j : Job), Sound s →
    (∀ space first count, WardBegins id 0x01 w .ready j s → j.range = (space, first, count) →
      (readEnd (s.ward w) space < first + count →
        ∃ t, exec (.read id none) s = .next t ∧ Completed j 0x24 0 s t) ∧
      (first + count ≤ readEnd (s.ward w) space → s.readBlocks + count ≤ 512 → s.kccReady = true →
        (s.kccEntry w = none →
          ∃ t, exec (.read id none) s = .next t ∧ t.job id = some { j with phase := .needKey } ∧ w ∈ t.kcc.misses) ∧
        (∀ k a n, s.kccEntry w = some k → 0 < count → j.segs = [(a, n)] →
          let looks := (List.range count).map (fun i => firstLook w space (first + i) k.keys s)
          (∀ b ∈ looks, b.waits = false) →
          (BlkRes.unrecoverable ∉ looks →
            ∃ t, exec (.read id none) s = .next t ∧ Completed j 0 0 s t ∧ DataSent a ((looks.flatMap BlkRes.bytes).take n) s t) ∧
          (∀ i, looks.findIdx? (fun b => decide (b = .unrecoverable)) = some i →
            ∃ t, exec (.read id none) s = .next t ∧ Completed j 0x40 i s t ∧
              DataSent a ((looks.flatMap BlkRes.bytes).take n) s t)) ∧
        (∀ k slot, s.kccEntry w = some k → readsRecord w j slot s = true →
          ∃ t, exec (.read id (some slot)) s = .next t ∧ t.ledger.tagFail = true ∧ t.pwr.mode = .safeHold ∧
            t.pwr.holdCause.getLsbD 2 = true))) ∧
    (∀ a n, WardBegins id 0x07 w .ready j s → j.segs = [(a, n)] →
      ∃ t, exec (.wardInfo id) s = .next t ∧ Completed j 0 0 s t ∧ DataSent a ((wardRecord w s).take n) s t)

/-- WRITE and TRIM (R53, R121, R169, R170, R217, R235, R262): a WRITE first reads its data, as far as tags are free, and with it
on die waits for Ledger intake; a TRIM journals, and its COMMIT records its blocks as unwritten, raises the high mark and
completes it; outside the block space both complete 0x24, in a FAILED group 0x40, and change nothing of the ward. The model's
own choices in it: log 36. -/
def Obligations.WardWrites : Prop :=
  ∀ (s : State) (id : Nat) (w : WardId) (j : Job), Sound s →
    (WardBegins id 0x02 w .ready j s → writeBar w j s = none →
      let ask := j.segs.flatMap (fun p => s.requestsFor p.1 p.2)
      let n := s.tagLimit - s.readsOut
      ∃ t, exec (.write id) s = .next t ∧
        t.job id = some { j with
          phase := .needData, since := s.clk.beat, asked := j.asked + (ask.take n).length, toAsk := ask.drop n } ∧
        t.host.out = s.host.out ++ (ask.take n).map (fun p => Out.read p.1 p.2) ∧
        t = { s with ring := t.ring, host := t.host }) ∧
    (WardBegins id 0x02 w .dataIn j s → writeBar w j s = none →
      ∃ t, exec (.write id) s = .next t ∧ t.job id = some { j with phase := .intake, since := s.clk.beat } ∧
        t = { s with ring := t.ring, ledger := t.ledger }) ∧
    (WardBegins id 0x03 w .ready j s → writeBar w j s = none → LedgerOpen s →
      ∃ t, exec (.trim id) s = .next t ∧ Journaled j .entry 0 s t) ∧
    (∀ i, CommitDue i j s → i.ctx = .ward w → i.op = 0x03 → i.effect = .entry →
      ∃ t, exec (.ledgerRound [] none) s = .next t ∧ Completed j 0 i.detail s t ∧
        (t.ward w).trims = (i.block, i.count) :: (s.ward w).trims ∧
        (t.ward w).high = (if (s.ward w).high < i.number then i.number else (s.ward w).high) ∧
        (t.ward w).epoch = (s.ward w).epoch ∧ (t.ward w).block = (s.ward w).block ∧ ∀ u, u ≠ w → t.ward u = s.ward u) ∧
    (∀ st, writeBar w j s = some st →
      (WardBegins id 0x02 w .ready j s → ∃ t, exec (.write id) s = .next t ∧ Completed j st 0 s t) ∧
      (WardBegins id 0x03 w .ready j s → ∃ t, exec (.trim id) s = .next t ∧ Completed j st 0 s t ∧
        (t.ward w).trims = (s.ward w).trims)) ∧
    (16 * (s.ward w).block.units < j.range.2.1 + j.range.2.2 → writeBar w j s = some 0x24)

/-- OPEN_WARD, SEAL_WARD and SET_CREDENTIAL (R50, R57, R72, R77, R78, R171, R235). A SEALED ward opens on its credential and
its failure count clears; on another credential it stays SEALED, the count rises by one and the completion carries it;
the eighth failure faults the ward with cause 3, a slot that fails its tag with cause 1. SEAL_WARD seals an OPEN ward.
SET_CREDENTIAL journals, and its COMMIT replaces the verifier, ends ENROL and leaves the failure count. Other wards stay. The
model's own choices in it: log 36. -/
def Obligations.WardCredentials : Prop :=
  ∀ (s : State) (id : Nat) (w : WardId) (j : Job), Sound s →
    (WardBegins id 0x04 w .ready j s → (s.ward w).state = .sealed →
      (wardMac s w (s.ward w).epoch j.cred = (s.ward w).verifier →
        ∃ t, exec (.openWard id true) s = .next t ∧ Completed j 0 0 s t ∧ (t.ward w).state = .opened ∧ (t.ward w).fails = 0 ∧
          ∀ u, u ≠ w → t.ward u = s.ward u) ∧
      (wardMac s w (s.ward w).epoch j.cred ≠ (s.ward w).verifier →
        ∃ t, exec (.openWard id true) s = .next t ∧ Completed j 0x30 ((s.ward w).fails + 1) s t ∧
          (t.ward w).fails = (s.ward w).fails + 1 ∧
          (t.ward w).state = (if 8 ≤ (s.ward w).fails + 1 then .faulted else .sealed) ∧
          (8 ≤ (s.ward w).fails + 1 → (t.ward w).lastFault = 3) ∧ ∀ u, u ≠ w → t.ward u = s.ward u) ∧
      (∃ t, exec (.openWard id false) s = .next t ∧ Completed j 0x31 0 s t ∧ (t.ward w).state = .faulted ∧
        (t.ward w).lastFault = 1 ∧ ∀ u, u ≠ w → t.ward u = s.ward u)) ∧
    (WardBegins id 0x05 w .ready j s → (s.ward w).state = .opened →
      ∃ t, exec (.sealWard id) s = .next t ∧ Completed j 0 0 s t ∧ (t.ward w).state = .sealed ∧
        ∀ u, u ≠ w → t.ward u = s.ward u) ∧
    (WardBegins id 0x06 w .ready j s → allEqual j.cred = false → LedgerOpen s →
      ∃ t, exec (.setCredential id true) s = .next t ∧
        Journaled j (.verifier w (wardMac s w (s.ward w).epoch j.cred)) 0 s t) ∧
    (∀ i v, CommitDue i j s → i.ctx = .ward w → i.effect = .verifier w v →
      ∃ t, exec (.ledgerRound [] none) s = .next t ∧ Completed j 0 i.detail s t ∧
        (t.ward w).verifier = v ∧ (t.ward w).enrol = false ∧ (t.ward w).fails = (s.ward w).fails ∧
        (t.ward w).state = (s.ward w).state ∧ ∀ u, u ≠ w → t.ward u = s.ward u) ∧
    (WardBegins id 0x06 w .ready j s → allEqual j.cred = true →
      ∃ t, exec (.setCredential id true) s = .next t ∧ Completed j 0x21 0x20 s t ∧ (t.ward w).verifier = (s.ward w).verifier)

/-- IDENTIFY, OFFICER_AUTH and OFFICER_LOGOUT (R69, R70, R71, R177). IDENTIFY completes SUCCESS with the identity
record. OFFICER_AUTH with the officer's credential opens the session and clears the failure count; with another it
ends the session, counts the failure and completes with the count, and at the eighth locks the officer out; while
locked it changes neither. OFFICER_LOGOUT ends the session. Stated where no other admin entry that needs the session was
fetched in this beat. The model's own choices in it: log 11. -/
def Obligations.OfficerCommands : Prop :=
  ∀ (s : State) (id : Nat) (j : Job), Sound s →
    (∀ a n, AdminBegins id 0x40 .ready j s → j.segs = [(a, n)] →
      ∃ t, exec (.identify id) s = .next t ∧ Completed j 0 0 s t ∧ DataSent a ((identityRecord s).take n) s t ∧
        t = { s with host := t.host, ring := t.ring, obs := t.obs }) ∧
    (∀ v, AdminBegins id 0x41 .ready j s → s.sec.verifier = some v →
      (s.sec.officerLocked = false → officerMac s j.cred = v →
        ∃ t, exec (.officerAuth id) s = .next t ∧ Completed j 0 0 s t ∧
          t.sec = { s.sec with session := true, idleTicks := 0, fetchedThisTick := true, officerFails := 0 } ∧
          t = { s with host := t.host, ring := t.ring, obs := t.obs, sec := t.sec }) ∧
      (s.sec.officerLocked = false → officerMac s j.cred ≠ v → s.sec.officerFails.toNat < 8 →
        (∀ k ∈ s.ring.jobs, k.needsSession = true → k.at_ ≠ s.clk.beat) →
        ∃ t, exec (.officerAuth id) s = .next t ∧ Completed j 0x33 (s.sec.officerFails.toNat + 1) s t ∧
          t.sec.session = false ∧ t.sec.officerFails.toNat = s.sec.officerFails.toNat + 1 ∧
          t.sec.officerLocked = decide (s.sec.officerFails.toNat = 7) ∧
          t = { s with host := t.host, ring := t.ring, obs := t.obs, sec := t.sec, pin := t.pin }) ∧
      (s.sec.officerLocked = true →
        ∃ t, exec (.officerAuth id) s = .next t ∧ Completed j 0x33 s.sec.officerFails.toNat s t ∧ t.sec = s.sec)) ∧
    (AdminBegins id 0x42 .ready j s →
      (∀ k ∈ listDrop (fun x => x.id == j.id) s.ring.jobs, k.needsSession = true → k.at_ ≠ s.clk.beat) →
      ∃ t, exec (.officerLogout id) s = .next t ∧ Completed j 0 0 s t ∧ t.sec = { s.sec with session := false, idleTicks := 0 } ∧
        t = { s with host := t.host, ring := t.ring, obs := t.obs, sec := t.sec })

/-- SET_OFFICER_CREDENTIAL, SET_TELEMETRY_KEY and RUN_SELF_TEST (R72, R79, R83, R105, R106, R175). The first, on a
provisioned device, journals, and its COMMIT replaces the officer verifier alone; on a fresh one it provisions: a salt from the
DRBG, the device keys derived from it and the verifier under them stand in the staging area, and with its commit word written
PROVISIONED is set and the mode is Management. An all-equal credential is MALFORMED and changes no secret. The second journals
the key wrapped under the KEK. The third, in Management, sets the passed bits and changes nothing else, or fails into the
error state; elsewhere it is MALFORMED. The model's own choices in it: logs 11, 17 and 36. -/
def Obligations.KeysAndTests : Prop :=
  ∀ (s : State) (id : Nat) (j : Job), Sound s →
    (AdminBegins id 0x43 .ready j s → allEqual j.cred = false →
      (s.sec.provisioned = true → LedgerOpen s →
        ∃ t, exec (.setOfficerCredential id true) s = .next t ∧ Journaled j (.officer (officerMac s j.cred)) 0 s t) ∧
      (s.sec.provisioned = false → s.sec.staging = none →
        let salt := Config.drbg s.sec.drbgIndex
        let v := Config.hmac (deriveKeys salt).verify (0x4F :: j.cred)
        (∃ t, exec (.setOfficerCredential id false) s = .next t ∧ t = { s with sec := t.sec } ∧
          t.sec.staging = some (salt, v) ∧ t.sec.salt = s.sec.salt ∧ t.sec.provisioned = false) ∧
        (s.pwr.mode = .provisioning → s.pwr.transition = none → s.sec.zeroizePending = false →
          s.pwr.holdCause = 0 → s.pwr.votes ≠ 0 → s.pwr.votes &&& serviceSlots = 0 → s.pwr.sleepVote = false →
          ∃ t, exec (.setOfficerCredential id true) s = .next t ∧ Completed j 0 0 s t ∧ t.sec.provisioned = true ∧
            t.sec.salt = some salt ∧ t.sec.keys = some (deriveKeys salt) ∧ t.sec.verifier = some v ∧ t.sec.staging = none ∧
            t.pwr = { s.pwr with mode := .management }))) ∧
    (AdminBegins id 0x43 .ready j s → allEqual j.cred = true →
      ∃ t, exec (.setOfficerCredential id true) s = .next t ∧ Completed j 0x21 0x20 s t ∧ t.sec = s.sec) ∧
    (∀ k, AdminBegins id 0x44 .ready j s → LedgerOpen s → s.sec.keys = some k →
      ∃ t, exec (.setTelemetryKey id) s = .next t ∧ Journaled j (.telemetry (fit 40 (Config.kwWrap k.kek j.cred))) 0 s t) ∧
    (∀ i, CommitDue i j s → i.ctx = .admin →
      (∀ v, i.effect = .officer v →
        ∃ t, exec (.ledgerRound [] none) s = .next t ∧ Completed j 0 i.detail s t ∧
          t.sec = { s.sec with verifier := some v } ∧ t.wards = s.wards ∧ t.pwr = s.pwr) ∧
      (∀ key, i.effect = .telemetry key →
        ∃ t, exec (.ledgerRound [] none) s = .next t ∧ Completed j 0 i.detail s t ∧
          t.sec = { s.sec with telemetry := some key } ∧ t.wards = s.wards ∧ t.pwr = s.pwr)) ∧
    (AdminBegins id 0x45 .ready j s →
      (s.pwr.mode = .management →
        (∃ t, exec (.runSelfTest id none) s = .next t ∧
          Completed j 0 (s.sec.selftest ||| allPassed).toNat s t ∧
          t.sec = { s.sec with selftest := s.sec.selftest ||| allPassed } ∧
          t = { s with host := t.host, ring := t.ring, obs := t.obs, sec := t.sec }) ∧
        (∀ f cause, selfTestCause f = some cause → s.ring.jobs = [j] →
          ∃ t, exec (.runSelfTest id (some f)) s = .next t ∧ Completed j 0x12 s.sec.selftest.toNat s t ∧
            t.sec.error = true ∧ t.sec.errorCause = BitVec.ofNat 8 cause ∧ t.sec.keys = none ∧ t.pwr.mode = .safeHold)) ∧
      (s.pwr.mode ≠ .management →
        ∃ t d, exec (.runSelfTest id none) s = .next t ∧ Completed j 0x21 d s t ∧ t.sec = s.sec))

/-- ZEROIZE and ZERO_N while awake (R86, R87, R88, R89). Every key, verifier, credential slot and pending secret is gone,
every ward is UNPROVISIONED with its epoch kept, no job, no cached line and no live Ledger record is left, the votes
of the service slots are clear, the count rises by one, and the device is in Provisioning with no session. Cut short after its
first three steps the keys are gone and the flag stands. In the error state, where the tests run again and one fails, the
device stays there in Safe Hold, zeroized. The model's own choices in it: log 38. -/
def Obligations.Zeroization : Prop :=
  ∀ (s : State) (id : Nat) (j : Job) (b : Boot) (f : Fin 10), Sound s → s.awake = true → s.sec.zeroizePending = false →
    s.pwr.votes.getLsbD 0 = true → s.sys.stage ≠ 8 → s.sys.boot = none → entering s = false → s.cache.retired ≠ 0xFFFF →
    let wiped := fun t : State =>
      t.sec.keys = none ∧ t.sec.salt = none ∧ t.sec.verifier = none ∧ t.sec.telemetry = none ∧ t.sec.staging = none ∧
      t.sec.provisioned = false ∧ t.sec.session = false ∧ t.sec.zeroizePending = false ∧
      t.sec.zeroCount = s.sec.zeroCount + 1 ∧ t.kcc.entries = [] ∧ t.ring.jobs = [] ∧ t.ring.adminHigh = 0 ∧
      t.cache.lines = [] ∧ t.ledger.intents = [] ∧ t.ledger.slots = [] ∧ t.pwr.votes &&& serviceSlots = 0 ∧
      ∀ w, (t.ward w).state = .unprovisioned ∧ (t.ward w).keyPresent = false ∧ (t.ward w).wrapped = [] ∧
        (t.ward w).verifier = 0 ∧ (t.ward w).epoch = (s.ward w).epoch ∧ (t.ward w).configured = false
    let gone := fun t : State => wiped t ∧ t.pwr.mode = .provisioning ∧ t.sys.stage = 5 ∧ t.sec.error = false
    let begun := fun t : State =>
      t.sec.zeroizePending = true ∧ t.pwr.transition = some .zeroize ∧ t.sec.keys = none ∧ t.sec.salt = none ∧
      t.kcc.entries = [] ∧ t.host.reads = [] ∧ t.ring.jobs = s.ring.jobs
    (∃ t, exec (.zeroN true none b) s = .next t ∧ gone t) ∧
    (∃ t, exec (.zeroN false none b) s = .next t ∧ begun t) ∧
    (AdminBegins id 0x46 .ready j s →
      (∃ t, exec (.zeroize id true none) s = .next t ∧ gone t) ∧
      (∃ t, exec (.zeroize id false none) s = .next t ∧ begun t)) ∧
    (s.sec.error = true →
      ∃ t, exec (.zeroN true (some f) b) s = .next t ∧ wiped t ∧ t.sec.error = true ∧
        t.sec.errorCause = BitVec.ofNat 8 (testBit f.val + 1) ∧ t.sys.stage = 7 ∧ t.pwr.mode = .safeHold)

/-- CREATE_WARD, RESET_WARD and DESTROY_WARD (R48, R51, R53, R59, R61, R76, R78, R179, R235). CREATE_WARD draws a key pair, again
where its halves are equal, and journals the ward it makes: SEALED in ENROL with a key, the next epoch and the extents
found, at high mark 0; its COMMIT brings that ward. RESET_WARD and DESTROY_WARD, with no other job fetched, journal and put the
ward in RESETTING with empty rings and no failures; its COMMIT leaves a reset ward SEALED with its epoch, key and extents, a
destroyed one DESTROYED with its epoch and nothing of its key, slot or extents. Other wards stay. The model's own choices in it:
logs 14 and 36. -/
def Obligations.WardLifecycle : Prop :=
  ∀ (s : State) (id : Nat) (j : Job), Sound s →
    (∀ b p, AdminBegins id 0x48 .dataIn j s → ((s.ward j.named).state = .unprovisioned ∨ (s.ward j.named).state = .destroyed) →
      allEqual j.data = false →
      ((createAsk j).1.2 = 0 ∨ (s.group (createAsk j).1.1).defined = true) →
      ((createAsk j).2.2 = 0 ∨ (s.group (createAsk j).2.1).defined = true) → createExtents j s = some (b, p) →
      let drawn := { s with sec := { s.sec with drbgSince := 2, drbgIndex := s.sec.drbgIndex + 2 } }
      ∃ t, exec (.createWard id) s = .next t ∧
        (Config.drbg s.sec.drbgIndex = Config.drbg (s.sec.drbgIndex + 1) → t = drawn) ∧
        (Config.drbg s.sec.drbgIndex ≠ Config.drbg (s.sec.drbgIndex + 1) → LedgerOpen s →
          ∃ x, Journaled j (.create j.named x) ((s.ward j.named).epoch + 1).toNat drawn t ∧
            x.state = .sealed ∧ x.enrol = true ∧ x.keyPresent = true ∧ x.epoch = (s.ward j.named).epoch + 1 ∧ x.high = 0 ∧
            x.block.runs = b.runs ∧ x.append.runs = p.runs ∧
            x.verifier = wardMac s j.named ((s.ward j.named).epoch + 1) j.data)) ∧
    (∀ destroy, (let row := if destroy then Instr.destroyWard id else Instr.resetWard id
       AdminBegins id (if destroy then 0x49 else 0x4A) .ready j s → LedgerOpen s → s.ring.jobs = [j] →
       j.id < s.ring.nextJob → ((s.ward j.named).state = .sealed ∨ (s.ward j.named).state = .opened ∨ (s.ward j.named).state = .faulted) →
       ∃ t, exec row s = .next t ∧ (t.ward j.named).state = .resetting ∧
         (∃ i ∈ t.ledger.intents, i.effect = .reset j.named destroy ∧ i.job = some j.id ∧ i.number = j.intent) ∧
         t.job j.id = some { j with phase := .running } ∧ (t.ward j.named).fails = 0 ∧ (t.ward j.named).ring.sqHead = 0 ∧
         (t.ward j.named).ring.sqTail = 0 ∧ (t.ward j.named).ring.cqHead = 0 ∧ (t.ward j.named).ring.cqTail = 0 ∧
         (t.ward j.named).openBlk = none ∧ (t.ward j.named).epoch = (s.ward j.named).epoch ∧
         (t.ward j.named).wrapped = (s.ward j.named).wrapped ∧ (∀ e ∈ t.kcc.entries, e.ward ≠ j.named) ∧
         ∀ u, u ≠ j.named → t.ward u = s.ward u)) ∧
    (∀ i w, CommitDue i j s → i.ctx = .admin →
      (∀ x, i.effect = .create w x →
        ∃ t, exec (.ledgerRound [] none) s = .next t ∧ Completed j 0 i.detail s t ∧
          t.ward w = { x with malformedLimit := (s.ward w).malformedLimit, appendFull := (t.ward w).appendFull } ∧
          ∀ u, u ≠ w → t.ward u = s.ward u) ∧
      (i.effect = .reset w false →
        ∃ t, exec (.ledgerRound [] none) s = .next t ∧ Completed j 0 i.detail s t ∧
          t.ward w = { s.ward w with state := .sealed } ∧ (∀ e ∈ t.kcc.entries, e.ward ≠ w) ∧
          (s.obs.events.length < 512 → ∃ e ∈ t.obs.events, e.code = 0x0402 ∧ e.beat = s.clk.beat) ∧
          ∀ u, u ≠ w → t.ward u = s.ward u) ∧
      (i.effect = .reset w true →
        ∃ t, exec (.ledgerRound [] none) s = .next t ∧ Completed j 0 i.detail s t ∧
          t.ward w = { state := .destroyed, epoch := (s.ward w).epoch, malformedLimit := (s.ward w).malformedLimit,
                       lastFault := (s.ward w).lastFault } ∧
          (∀ e ∈ t.kcc.entries, e.ward ≠ w) ∧ ∀ u, u ≠ w → t.ward u = s.ward u))

/-- RESIZE_WARD, SET_WARD_RINGS, SET_WARD_SCHED and FLUSH_QUEUE (R53, R134, R151, R154, R180, R181) on a ward with a key.
RESIZE_WARD journals the grown extents and its COMMIT brings them; SET_WARD_RINGS, with nothing of the ward fetched, journals, and
its COMMIT brings the rings, weight, burst, vector and coalescing pair asked, at indices 0 and write phase 1, or clears them for
30 zero bytes; SET_WARD_SCHED journals, and its COMMIT brings vector and pair, weight and burst at once where one of the weights is
0, else at the ward's next turn. A flush of an empty queue journals with nothing aborted. Other wards stay. The model's own choices
in it: log 36. -/
def Obligations.WardSettings : Prop :=
  ∀ (s : State) (id : Nat) (j : Job), Sound s →
    let live := (s.ward j.named).state = .sealed ∨ (s.ward j.named).state = .opened ∨ (s.ward j.named).state = .faulted
    (∀ eb ep, AdminBegins id 0x4B .ready j s → live → LedgerOpen s → (s.ward j.named).block.units ≤ j.cmd 0x24 4 →
      (s.ward j.named).append.units ≤ j.cmd 0x28 4 → (s.group (s.ward j.named).block.group).defined = true →
      (s.group (s.ward j.named).append.group).defined = true → grow (s.ward j.named).block (j.cmd 0x24 4) [] s = some eb →
      grow (s.ward j.named).append (j.cmd 0x28 4) (if (s.ward j.named).block.group = (s.ward j.named).append.group then
        eb.runs.drop ((s.ward j.named).block.runs.length - 1) else []) s = some ep →
      ∃ t, exec (.resizeWard id) s = .next t ∧ Journaled j (.resize j.named eb ep) 0 s t) ∧
    (AdminBegins id 0x4C .ready j s → live → LedgerOpen s → (s.ward j.named).ring.chain = none →
      (∀ k ∈ s.ring.jobs, k.ctx ≠ .ward j.named) →
      ∃ t, exec (.setWardRings id) s = .next t ∧ Journaled j .entry 0 s t) ∧
    (AdminBegins id 0x4D .ready j s → live → LedgerOpen s → (s.ward j.named).configured = true →
      ∃ t, exec (.setWardSched id) s = .next t ∧ Journaled j .entry 0 s t) ∧
    (AdminBegins id 0x4E .ready j s → live → LedgerOpen s → s.ring.jobs = [j] → (s.ward j.named).flush = none →
      (s.ward j.named).ring.sqHead = (s.ward j.named).ring.sqTail → (s.ward j.named).ring.chain = none →
      (∀ i ∈ s.ledger.intents, i.ctx ≠ .ward j.named) →
      ∃ t, exec (.flushQueue id) s = .next t ∧ t.job j.id = some { j with phase := .journal } ∧
        (∃ i ∈ t.ledger.intents, i.job = some j.id ∧ i.effect = .none ∧ i.detail = 0 ∧ i.number = j.intent) ∧
        t.ward j.named = s.ward j.named ∧ ∀ u, u ≠ j.named → t.ward u = s.ward u) ∧
    (∀ i, CommitDue i j s → i.ctx = .admin →
      let k := i.asJob
      let w := k.named
      let others := fun t : State => ∀ u, u ≠ w → t.ward u = s.ward u
      (∀ v b p, i.effect = .resize v b p →
        ∃ t, exec (.ledgerRound [] none) s = .next t ∧ Completed j 0 i.detail s t ∧ (t.ward v).block = b ∧ (t.ward v).append = p ∧
          (t.ward v).epoch = (s.ward v).epoch ∧ (t.ward v).state = (s.ward v).state ∧ ∀ u, u ≠ v → t.ward u = s.ward u) ∧
      (i.effect = .entry → i.op = 0x4C →
        ((k.entry.drop 0x22).all (· == 0) = false →
          ∃ t, exec (.ledgerRound [] none) s = .next t ∧ Completed j 0 i.detail s t ∧ others t ∧ (t.ward w).configured = true ∧
            (t.ward w).ring.sqBase = BitVec.ofNat 64 (k.cmd 0x28 8) ∧ (t.ward w).ring.cqBase = BitVec.ofNat 64 (k.cmd 0x30 8) ∧
            (t.ward w).ring.sqLog = k.cmd 0x22 1 ∧ (t.ward w).ring.cqLog = k.cmd 0x23 1 ∧ (t.ward w).ring.sqHead = 0 ∧
            (t.ward w).ring.sqTail = 0 ∧ (t.ward w).ring.cqHead = 0 ∧ (t.ward w).ring.cqTail = 0 ∧
            (t.ward w).ring.phase = true ∧ (t.ward w).weight = BitVec.ofNat 8 (k.cmd 0x24 1) ∧
            (t.ward w).credit = k.cmd 0x24 1 ∧ (t.ward w).burst = k.cmd 0x25 1 ∧
            (t.ward w).vector = BitVec.ofNat 8 (k.cmd 0x26 1) ∧ (t.ward w).coalCount = BitVec.ofNat 8 (k.cmd 0x27 1) ∧
            (t.ward w).coalTime = BitVec.ofNat 8 (k.cmd 0x38 1) ∧ (t.ward w).state = (s.ward w).state) ∧
        ((k.entry.drop 0x22).all (· == 0) = true →
          ∃ t, exec (.ledgerRound [] none) s = .next t ∧ Completed j 0 i.detail s t ∧ others t ∧
            t.ward w = { s.ward w with
              configured := false, ring := {}, weight := 0, burst := 0, credit := 0, sched := none, vector := 0
              coalCount := 0, coalTime := 0 })) ∧
      (i.effect = .entry → i.op = 0x4D →
        let n := BitVec.ofNat 8 (k.cmd 0x22 1)
        let now := (s.ward w).weight = 0 ∨ n = 0
        ∃ t, exec (.ledgerRound [] none) s = .next t ∧ Completed j 0 i.detail s t ∧ others t ∧
          (t.ward w).weight = (if now then n else (s.ward w).weight) ∧
          (t.ward w).burst = (if now then k.cmd 0x23 1 else (s.ward w).burst) ∧
          (t.ward w).sched = (if now then none else some (n, k.cmd 0x23 1)) ∧
          (t.ward w).credit = (if (s.ward w).weight = 0 then n.toNat else (s.ward w).credit) ∧
          (t.ward w).vector = BitVec.ofNat 8 (k.cmd 0x24 1) ∧ (t.ward w).coalCount = BitVec.ofNat 8 (k.cmd 0x25 1) ∧
          (t.ward w).coalTime = BitVec.ofNat 8 (k.cmd 0x26 1) ∧ (t.ward w).ring = (s.ward w).ring))

/-- GROUP_SET, REBUILD_CTRL and SCRUB_CTRL (R184, R185, R248, R268, R272, R273): each journals where its conditions hold. The
COMMIT of a CREATE leaves the group with the members, the level and the spare asked, uninitialised; of SET_SPARE changes the spare
alone; of DELETE leaves the group undefined; of a START begins the rebuild or the scrub in Service and records it outside;
of a STOP ends it, a rebuild's and a scrub's front kept. Other groups stay. The model's own choices in it: logs 19 and 36. -/
def Obligations.GroupCommands : Prop :=
  ∀ (s : State) (id : Nat) (j : Job), Sound s →
    (LedgerOpen s →
      let g := j.grp
      (AdminBegins id 0x51 .ready j s → j.cmd 0x21 1 = 1 → (s.group g).defined = false → badSpare g j.members j.spare s = false →
        (if j.cmd 0x22 1 = 3 then 4 else 3) ≤ j.members.length → (∀ c ∈ j.members, inOther g c s = false) →
        ∃ t, exec (.groupSetCreate id) s = .next t ∧ Journaled j .entry 0 s t) ∧
      (AdminBegins id 0x51 .ready j s → j.cmd 0x21 1 = 2 → (s.group g).defined = true → (s.group g).rebuild.active = false →
        (s.group g).rebuild.paused = false → badSpare g (s.group g).members j.spare s = false →
        ∃ t, exec (.groupSetSetSpare id) s = .next t ∧ Journaled j .entry 0 s t) ∧
      (AdminBegins id 0x51 .ready j s → j.cmd 0x21 1 = 3 → (s.group g).defined = true → groupUsed g s = false →
        ∃ t, exec (.groupSetDelete id) s = .next t ∧ Journaled j .entry 0 s t) ∧
      (∀ m, AdminBegins id 0x52 .ready j s → j.cmd 0x21 1 = 1 → (s.group g).defined = true →
        (s.group g).members.findIdx? (· == cellOf (j.cmd 0x22 1)) = some m →
        ((s.group g).rebuild.active = true → (s.group g).rebuild.member = m) →
        ((s.group g).rebuild.active = false → (s.group g).spare ≠ none) →
        ∃ t, exec (.rebuildCtrlStart id) s = .next t ∧ Journaled j .entry 0 s t) ∧
      (AdminBegins id 0x52 .ready j s → j.cmd 0x21 1 = 2 → (s.group g).defined = true →
        ∃ t, exec (.rebuildCtrlStop id) s = .next t ∧ Journaled j .entry 0 s t) ∧
      (AdminBegins id 0x53 .ready j s → j.cmd 0x21 1 = 1 → (s.group g).defined = true →
        ∃ t, exec (.scrubCtrlStart id) s = .next t ∧ Journaled j .entry 0 s t) ∧
      (AdminBegins id 0x53 .ready j s → j.cmd 0x21 1 = 2 → (s.group g).defined = true →
        ∃ t, exec (.scrubCtrlStop id) s = .next t ∧ Journaled j .entry 0 s t)) ∧
    (∀ i, CommitDue i j s → i.ctx = .admin → i.effect = .entry →
      let k := i.asJob
      let g := k.grp
      let done := fun t : State => exec (.ledgerRound [] none) s = .next t ∧ Completed j 0 i.detail s t ∧
        ∀ h, h ≠ g → t.group h = s.group h
      (i.op = 0x51 → k.cmd 0x21 1 = 1 →
        ∃ t, done t ∧ t.group g = { defined := true, level := k.cmd 0x22 1, members := k.members, spare := k.spare,
                                    stripes := cellBlocks / 16 }) ∧
      (i.op = 0x51 → k.cmd 0x21 1 = 2 → ∃ t, done t ∧ t.group g = { s.group g with spare := k.spare }) ∧
      (i.op = 0x51 → k.cmd 0x21 1 = 3 → ∃ t, done t ∧ t.group g = {}) ∧
      (∀ m, i.op = 0x52 → k.cmd 0x21 1 = 1 → (s.group g).members.findIdx? (· == cellOf (k.cmd 0x22 1)) = some m →
        ((s.group g).rebuild.active = true → (s.group g).rebuild.member = m →
          ∃ t, done t ∧ t.group g = { s.group g with rebuild := { (s.group g).rebuild with rate := k.cmd 0x24 2 } }) ∧
        ((s.group g).rebuild.active = false → (s.group g).rebuild.paused = false →
          ∃ t, done t ∧ (t.group g).rebuild.member = m ∧ (t.group g).rebuild.active = s.inService ∧
            (t.group g).rebuild.pending = !s.inService ∧ (t.group g).rebuild.rate = k.cmd 0x24 2 ∧
            (t.group g).rebuild.copy = !(s.group g).failed.contains m ∧ (t.group g).rebuild.front = 0)) ∧
      (i.op = 0x52 → k.cmd 0x21 1 = 2 →
        ∃ t, done t ∧ (t.group g).rebuild.active = false ∧ (t.group g).rebuild.pending = false ∧
          (t.group g).rebuild.front = (s.group g).rebuild.front ∧ (t.group g).members = (s.group g).members) ∧
      (i.op = 0x53 → k.cmd 0x21 1 = 1 → (s.group g).scrub.active = false →
        ∃ t, done t ∧ (t.group g).scrub.active = s.inService ∧ (t.group g).scrub.pending = !s.inService ∧
          (t.group g).scrub.rate = k.cmd 0x24 2) ∧
      (i.op = 0x53 → k.cmd 0x21 1 = 2 →
        ∃ t, done t ∧ (t.group g).scrub.active = false ∧ (t.group g).scrub.pending = false ∧
          (t.group g).scrub.front = (s.group g).scrub.front))

/-- TUMBLER_WRITE, WAY_RESTORE and EVENT_LOG_SET (R182, R183, R186, R204, R225, R363): each journals where its conditions hold. At
the COMMIT a written entry takes effect with a full bucket, and the generation rises by one; the named ways, but those that retired
again or still drain, return to service empty; the event log is placed at the base and size asked with tail and head 0
and write phase 1, or stops. The model's own choices in it: log 36. -/
def Obligations.CaptureAndLogCommands : Prop :=
  ∀ (s : State) (id : Nat) (j : Job), Sound s →
    (LedgerOpen s →
      (AdminBegins id 0x50 .dataIn j s → j.cmd 0x20 2 + j.cmd 0x22 2 ≤ 8192 → (tumbImages j).any tumbReserved = false →
        ∃ t, exec (.tumblerWrite id) s = .next t ∧ Journaled j (.tumbler (j.cmd 0x20 2) (tumbImages j)) 0 s t) ∧
      (AdminBegins id 0x54 .ready j s →
        (s.cache.drain.any (fun p => (BitVec.ofNat 16 (j.cmd 0x20 2)).getLsbD p.1) = false →
          ∃ t, exec (.wayRestore id) s = .next t ∧ Journaled j .entry 0 s t) ∧
        (s.cache.drain.any (fun p => (BitVec.ofNat 16 (j.cmd 0x20 2)).getLsbD p.1) = true →
          exec (.wayRestore id) s = .next s)) ∧
      (AdminBegins id 0x55 .ready j s →
        (j.cmd 0x29 1 = 1 → ∃ t, exec (.eventLogSetEnable id) s = .next t ∧ Journaled j .entry 0 s t) ∧
        (j.cmd 0x29 1 = 0 → ∃ t, exec (.eventLogSetDisable id) s = .next t ∧ Journaled j .entry 0 s t))) ∧
    (∀ i, CommitDue i j s → i.ctx = .admin →
      let k := i.asJob
      let done := fun t : State => exec (.ledgerRound [] none) s = .next t ∧ Completed j 0 i.detail s t
      (∀ first image, i.effect = .tumbler first [image] →
        ∃ t, done t ∧ t.cap.tumbGen = s.cap.tumbGen + 1 ∧
          (t.tumb first).image = (if image.all (· == 0) then [] else image) ∧ (t.tumb first).level = tumbBurst image ∧
          (t.tumb first).count = 0 ∧ ∀ n, n ≠ first → t.tumb n = s.tumb n) ∧
      (i.effect = .entry → i.op = 0x54 → s.cache.drain = [] → s.cache.retBeat ≠ s.clk.beat →
        ∃ t, done t ∧ t.cache.retired = s.cache.retired &&& ~~~(BitVec.ofNat 16 (k.cmd 0x20 2)) ∧
          ∀ e, (BitVec.ofNat 16 (k.cmd 0x20 2) &&& s.cache.retired).getLsbD (e % 16) = true → t.line e = {}) ∧
      (i.effect = .entry → i.op = 0x55 → k.cmd 0x29 1 = 1 →
        ∃ t, done t ∧ t.obs.enabled = true ∧ t.obs.placed = true ∧ t.obs.logBase = BitVec.ofNat 64 (k.cmd 0x20 8) ∧
          t.obs.logLog = k.cmd 0x28 1 ∧ t.obs.head = 0 ∧ t.obs.tail = 0 ∧ t.obs.phase = true ∧ t.obs.events = s.obs.events) ∧
      (i.effect = .entry → i.op = 0x55 → k.cmd 0x29 1 = 0 →
        ∃ t, done t ∧ t.obs.enabled = false ∧ t.obs.tail = s.obs.tail ∧ t.obs.events = s.obs.events))

/-- INTENT_RESERVE, LEDGER_ROUND and KCC_UNWRAP (R226, R227, R228, R231, R232, R235, R238, R239, R246). The next waiting WRITE
whose group is not FAILED, that can reserve and whose key is cached takes the next serial with a DATA record for each block: its
INTENT joins the port and its job waits for the commit; where it cannot reserve, AT_CAP is set. A round that writes an INTENT with
payload puts the sealed record in its slot and brings its payload to the port; one that writes a COMMIT records the number with
SUCCESS and completes the command; one that writes a release marks the slot free and takes it off the port; a slot that fails its
tag brings Safe Hold. The oldest miss's key is unwrapped under the KEK and joins the cache as its newest entry, and its job goes
on; where the slot or the unwrap check fails, the ward faults with cause 1 and no entry comes of it. The model's own choices in
it: logs 11 and 45. -/
def Obligations.LedgerAndKeys : Prop :=
  (∀ (s : State) (j : Job), Sound s →
     (intakeOpen s = true → nextIntake s = some (.job j) → j.op = 2 → (s.group (Waiting.group (.job j) s)).down = false →
       s.job j.id = some j →
       (canReserve (.job j) s = true → s.kccReady = true → s.kccEntry (Waiting.ward (.job j)) ≠ none →
         ∃ t, exec .intentReserve s = .next t ∧ t.ledger.port = s.ledger.port ++ [(.intent s.ledger.nextSerial, 1)] ∧
           t.ledger.intents.length = s.ledger.intents.length + 1 ∧ t.job j.id = some { j with phase := .journal } ∧
           (∃ i ∈ t.ledger.intents, i.serial = s.ledger.nextSerial ∧ i.number = j.intent ∧ i.job = some j.id ∧ i.phase = .intent ∧
             i.datas.map (fun d => d.addr) = (Waiting.job j).blocks s)) ∧
       (canReserve (.job j) s = false →
         exec .intentReserve s = .next { s with ledger := { s.ledger with atCap := true } })) ∧
     (∀ k, s.ledgerDead = false → s.awake = true → s.sec.keys = some k → s.ledger.waits = [] →
       (∀ i ∈ s.ledger.intents, i.phase ≠ .held) →
       (∀ n i, s.ledger.port = [(.intent n, 1)] → s.intentOf n = some i → 0 < i.payloads → s.ledger.intents = [i] →
         ∃ t, exec (.ledgerRound [] none) s = .next t ∧ (∃ q ∈ t.ledger.intents, q.serial = i.serial ∧ q.phase = .records) ∧
           t.ledger.slots.get [] i.slot = i.record k.ledger 1 1 i.serial 0 (intentBody i) [] ∧
           t.ledger.port ≠ [] ∧ t.counter (cDev 6) = s.counter (cDev 6) + 1) ∧
       (∀ slot unit, s.ledger.port = [(.release slot unit, 1)] → (s.ledger.slots.get [] slot).length ≤ 256 →
         ∃ t, exec (.ledgerRound [] none) s = .next t ∧ t.ledger.port = [] ∧
           t.ledger.slots.get [] slot = fit 256 (0 :: (s.ledger.slots.get [] slot).drop 1) ∧
           t.counter (cDev 8) = s.counter (cDev 8) + 1 ∧ t.counter (cDev 9) = s.counter (cDev 9) + 1) ∧
       (∀ slot, s.ledger.port ≠ [] →
         ∃ t, exec (.ledgerRound [] (some slot)) s = .next t ∧ t.ledger.tagFail = true ∧ t.pwr.mode = .safeHold ∧
           t.pwr.holdCause.getLsbD 2 = true)) ∧
     (∀ i, CommitDue i j s → i.effect = .none →
       ∃ t, exec (.ledgerRound [] none) s = .next t ∧ Completed j 0 i.detail s t ∧
         t.highOf i.ctx = (if s.highOf i.ctx < i.number then i.number else s.highOf i.ctx) ∧
         t.windowOf i.ctx = pushWindow i.number 0 (s.windowOf i.ctx))) ∧
  (∀ (s : State) (w : WardId) (l : List WardId) (k : Keys), Sound s → s.kcc.misses = w :: l → s.sec.keys = some k →
     s.kccReady = true →
     ((s.ward w).keyPresent = true → s.kcc.entries.length < 48 →
       ∃ t, exec (.kccUnwrap true) s = .next t ∧ t.kcc.misses = l ∧
         t.kcc.entries = s.kcc.entries.filter (fun y => !(y.ward == w)) ++
           [{ ward := w, epoch := (s.ward w).epoch, keys := Config.kwUnwrap k.kek (s.ward w).wrapped }] ∧
         t.wards = s.wards ∧ t.counter (cDev 12) = s.counter (cDev 12) + 1 ∧
         ∀ j, keyJobs w s = [j] → s.job j.id = some j →
           t.job j.id = some { j with phase := if j.op = 2 then .intake else .ready }) ∧
     (((s.ward w).state = .sealed ∨ (s.ward w).state = .opened) → s.ring.jobs = [] → s.cap.queue = [] →
       ∃ t, exec (.kccUnwrap false) s = .next t ∧ t.kcc.misses = l ∧ t.kcc.entries = s.kcc.entries ∧
         (t.ward w).state = .faulted ∧ (t.ward w).lastFault = 1 ∧ ∀ u, u ≠ w → t.ward u = s.ward u))

/-- DEFERRED_DELTA and REPLAY (R236, R245, R246). A deferred delta whose old data is known takes it in; with the last of its row
the resolved record takes the next serial and goes to the port in the unit reserved for it, with its COMMIT behind it, else the
record waits for the next old data; a failed old sub-block leaves it deferred, counted and logged. Replay of a DATA record applies
it where the key found on media is older, and releases it where it is not; after the last record REPLAYING clears and REPLAY_DONE
is logged. A record that fails its tag brings Safe Hold with cause LEDGER_FAIL. The model's own choices in it: logs 21 and 24. -/
def Obligations.DeferredAndReplay : Prop :=
  ∀ s : State, Sound s → s.inService = true → s.ledgerDead = false →
    let stopped := fun t : State => t.ledger.tagFail = true ∧ t.pwr.mode = .safeHold ∧ t.pwr.holdCause.getLsbD 2 = true
    (∀ (n : Nat) (i : Intent) (k m : Nat) (p : ParRec) (d : DataRec) (old : Option Sector),
      deferredOf (BitVec.ofNat 64 n) s = some (i, k, p) → p.deferred = some m → i.datas[m]? = some d →
      s.intentOf i.serial = some i → k < i.parities.length →
      (∀ o, oldData d old s = some o →
        let x := addDelta (p.delta, p.covDelta) (deltaOf p.kind.toNat o d.sector)
        (nextInRow i p m = none →
          ∃ t q, exec (.deferredDelta n old none) s = .next t ∧ t.ledger.nextSerial = s.ledger.nextSerial + 2 ∧
            (t.intentOf i.serial).bind (fun y => y.resolvedOf k) = some q ∧ q.serial = s.ledger.nextSerial ∧ q.deferred = none ∧
            (q.delta, q.covDelta) = x ∧ q.slot = p.unit ∧
            (.resolved i.serial k, 17) ∈ t.ledger.port ++ t.ledger.waits ∧ t = { s with ledger := t.ledger }) ∧
        (∀ m', nextInRow i p m = some m' →
          ∃ t, exec (.deferredDelta n old none) s = .next t ∧
            (t.intentOf i.serial).bind (fun y => y.parities[k]?) =
              some { p with delta := x.1, covDelta := x.2, deferred := some m' } ∧
            t = { s with ledger := t.ledger })) ∧
      (oldData d old s = none →
        ∃ t, exec (.deferredDelta n old none) s = .next t ∧ t = { s with obs := t.obs, pin := t.pin } ∧
          t.counter (cGroup p.addr.group 3) = s.counter (cGroup p.addr.group 3) + 1 ∧
          (s.obs.events.length < 512 → ∃ e ∈ t.obs.events, e.code = 0x0705 ∧ e.beat = s.clk.beat)) ∧
      (∀ slot, ∃ t, exec (.deferredDelta n old (some slot)) s = .next t ∧ stopped t)) ∧
    (∀ (i : Intent) (d : DataRec) (m : Sector), s.ledger.intents = [i] → i.replay = true → i.applied = false →
      i.phase = .committed → i.datas = [d] → i.parities = [] → d.live = true →
      (s.group d.addr.group).lostCol d.addr.stripe d.addr.column = false → cached d.addr s = none →
      verified (s.group d.addr.group).d d.addr m = true →
      (keyLt (secKey m) (secKey d.sector) = false →
        ∃ t, exec (.replay [some m] [] none) s = .next t ∧ t.ledger.intents = [] ∧ t.ledger.replaying = false ∧
          t.cache = s.cache ∧ (s.obs.events.length < 512 → ∃ e ∈ t.obs.events, e.code = 0x0603 ∧ e.beat = s.clk.beat)) ∧
      (∀ k, keyLt (secKey m) (secKey d.sector) = true → findLine d.addr s = some k →
        ∃ t, exec (.replay [some m] [] none) s = .next t ∧ t.ledger.replaying = true ∧
          t.ledger.intents = [{ i with applied := true }] ∧
          (t.line k).subs.get none d.addr.sub = some { sector := d.sector, dirty := true, policy := 1, queued := true })) ∧
    (∀ (media : List (Option Sector)) (rows : List (List (Option Sector))) (slot : Nat), s.replayLeft ≠ [] →
      ∃ t, exec (.replay media rows (some slot)) s = .next t ∧ stopped t)

/-- CACHE_FILL, DESTAGE_AGE and DESTAGE_START (R213, R219, R221, R320, R321, R84). A verified sector enters the line that waits
for it as a clean sub-block and its read is done; a dirty sub-block past the age limit is queued; a queued one whose cell has room
joins that cell's write queue with the content it has; a record that its destage reads and that fails its tag brings Safe Hold.
Stated where nothing else on die waits for media. The model's own choices in it: log 24. -/
def Obligations.CacheAndDestage : Prop :=
  ∀ (s : State) (a : SubAddr) (k : Nat), Sound s → Quiet s → s.recoveries = [] →
    (findLine a s = some k →
      (∀ (r : MediaRead) (x : Sector), s.awake = true →
        s.reads.find? (fun r => r.addr == a && r.path.isNone && r.img.isSome && decide (r.why ≠ .verify)) = some r →
        r.img = some x → r.why = .fill → r.around = false → cached a s = none → ledgerData a s = none →
        a.column < (s.group a.group).d →
        ∃ t, exec (.cacheFill a) s = .next t ∧ t.reads = listDrop (fun q => q.key == r.key) s.reads ∧
          (t.line k).subs.get none a.sub = some { sector := x }) ∧
      (∀ x, cached a s = some x → x.dirty = true → x.queued = false → s.destageAge ≠ 0 → s.destageAge < x.age →
        inCellQueue a s = false →
        ∃ t, exec (.destageAge a) s = .next t ∧ t = { s with cache := t.cache } ∧
          (t.line k).subs.get none a.sub = some { x with queued := true }) ∧
      (∀ x, cached a s = some x → x.dirty = true → x.queued = true → s.inService = true → s.ledgerDead = false →
        (s.group a.group).defined = true → (s.group a.group).lostCol a.stripe a.column = false → writeQueued a s = false →
        deferredOn a s = false → queueOpen ((s.group a.group).cellOf a.stripe a.column) a s = true →
        let c := (s.group a.group).cellOf a.stripe a.column
        ∃ t, exec (.destageStart a none) s = .next t ∧
          (t.cell c).queue = (s.cell c).queue ++ [{ addr := a, sector := x.sector, key := s.nextRead, drain := draining a s }] ∧
          (t.line k).subs.get none a.sub = some { x with queued := false })) ∧
    (∀ slot, cached a s = none → usesRecord a slot s = true → s.inService = true → s.ledgerDead = false →
      ∃ t, exec (.destageStart a (some slot)) s = .next t ∧ t.ledger.tagFail = true ∧ t.pwr.mode = .safeHold ∧
        t.pwr.holdCause.getLsbD 2 = true)

/-- SECTOR_WRITE_DONE, REPAIR_REWRITE and TORN_REWRITE (R221, R266, R296): the sector is on media as it was queued and it leaves
the cell's write queue; the cached sub-block that holds what was written is clean, and a repair is counted and read back. Stated
where nothing else on die waits for media. The model's own choices in it: log 10. -/
def Obligations.SectorsAreWritten : Prop :=
  ∀ (s : State) (c : CellId) (k : Nat) (q : QWrite), Sound s → Quiet s → s.recoveries = [] → s.qwrite c k = some q →
    (∀ d, (s.cell d).gateDue = none) →
    let written := fun t : State =>
      t.obs.media = s.obs.media ++ [(c, 16 * q.addr.stripe + q.addr.sub, q.sector)] ∧
      (t.cell c).queue = listDrop (fun x => x.key == k) (s.cell c).queue
    let clean := fun t : State => ∀ y, cached q.addr s = some y → y.sector = q.sector → y.policy ≠ 2 →
      cached q.addr t = some { y with dirty := false, queued := false, age := 0 }
    (q.repair = false → (s.cell c).writing = some k → ∃ t, exec (.sectorWriteDone c k) s = .next t ∧ written t ∧ clean t) ∧
    (q.repair = false → q.torn = true → s.inService = true → (s.cell c).writable = true → onTrack c q.addr s = true →
      ∃ t, exec (.tornRewrite c k) s = .next t ∧ written t ∧ clean t) ∧
    (repairOf k s = some (c, q) → q.key = k → s.inService = true → (s.cell c).writable = true → onTrack c q.addr s = true →
      repairStale c q s = false → q.repair = true →
      ∃ t, exec (.repairRewrite k) s = .next t ∧ written t ∧
        t.counter (cGroup q.addr.group 4) = s.counter (cGroup q.addr.group 4) + 1 ∧
        t.reads = s.reads ++ [{ key := s.nextRead, addr := q.addr, cell := c, why := .verify, cls := 3, img := some q.sector }])

/-- SCACHE_ECC_ERROR and WAY_RETIRED (R223, R224): a corrected error below the sixteenth of the tick is counted and
nothing retires; an uncorrectable one, or one of tag parity, retires the way, and so does a sixteenth corrected one: its lines leave
the cache, the retirement is logged, and while another way is left the mode stays. -/
def Obligations.WaysRetire : Prop :=
  ∀ (s : State) (v : Fin 16), Sound s → s.handedOff = true → s.cache.ready = true → s.cache.retired.getLsbD v.val = false →
    let retired := fun t : State =>
      t.cache.retired = s.cache.retired ||| (1#16 <<< v.val) ∧ t.cache.wayRetired = true ∧
      (∀ p ∈ t.cache.lines, p.1 % 16 ≠ v.val) ∧ t.pwr = s.pwr ∧ t.ledger = s.ledger ∧
      (s.obs.events.length < 512 → ∃ e ∈ t.obs.events, e.code = 0x0601 ∧ e.beat = s.clk.beat)
    (s.cache.errors.get 0 v.val < 15 →
      ∃ t, exec (.scacheEccError v .corrected) s = .next t ∧ t = { s with cache := t.cache, obs := t.obs } ∧
        t.cache.retired = s.cache.retired ∧ t.cache.errors.get 0 v.val = s.cache.errors.get 0 v.val + 1 ∧
        t.counter (cWay v.val 4) = s.counter (cWay v.val 4) + 1) ∧
    (s.cache.retired ||| (1#16 <<< v.val) ≠ 0xFFFF →
      (∀ kind, kind ≠ .corrected → ∃ t, exec (.scacheEccError v kind) s = .next t ∧ retired t) ∧
      (16 ≤ s.cache.errors.get 0 v.val → ∃ t, exec (.wayRetired v .corrected) s = .next t ∧ retired t))

/-- CAPTURE_FRAME (R183, R196, R198, R201, R203, R205, R209). An SFD latches TAI, or the beat where TAI is not valid. A frame that
ends shorter than 64 bytes is counted a runt, one that no Tumbler entry matched UNMATCHED, and no ward changes; one that an entry
won and that is sampled, not shed and not policed becomes a record: the ward's NEXT_SEQ rises by one and its SHED_GAP is clear.
CAP_LINK_UP, CAP_LINK_LOST and APPEND_AGE (R195, R207), and EVENT_RECORD (R363, R364): a port whose locks come is up; the
loss of one that LINK_UP needs takes it down, is logged, and ends the frame in reception; an open block past its age is closed and
waits for the Ledger; the oldest event goes to the log's tail with the tail's phase, and the tail moves on. The model's own choices
in it: logs 8 and 44. -/
def Obligations.CaptureUnits : Prop :=
  (∀ (s : State) (n : Nat) (p : PortId) (e : RxEvent), Sound s →
     let u := wait (n + 1) s
     let run := exec (.captureFrame n (if p = 0 then some e else none) (if p = 0 then none else some e)) s
     receiving p u = true →
     (∀ fixed, e = .sfd fixed → (u.port p).rx = none →
       ∃ t, run = .next t ∧ t = { u with cap := t.cap } ∧
         (t.port p).rx = some { stamp := if u.clk.taiValid then u.tai else u.clk.beat, valid := u.clk.taiValid, fixed := fixed }) ∧
     (∀ f r, e = .ends f → (u.port p).rx = some r →
       (f.bytes.length < 64 →
         ∃ t, run = .next t ∧ t.counter (cPort p 1) = u.counter (cPort p 1) + 1 ∧ (t.port p).rx = none ∧ t.wards = s.wards) ∧
       (frameError (portMode p s) f = none →
         (r.cls = .unmatched →
           ∃ t, run = .next t ∧ t.counter (cPort p 7) = u.counter (cPort p 7) + 1 ∧ (t.port p).rx = none ∧ t.wards = s.wards) ∧
         (∀ i tie len, r.cls = .won i tie none →
           (s.tumb i).count.toNat % 2 ^ (byteAt 0x29 (s.tumb i).image).toNat = 0 → tumbRate (s.tumb i).image = 0 →
           len = (match tumbSnap (s.tumb i).image with | some k => min f.bytes.length k | none => f.bytes.length) →
           shedHere (tumbWard (s.tumb i).image) (charge len) s = false →
           ∃ t, run = .next t ∧ (t.port p).rx = none ∧
             (t.ward (tumbWard (s.tumb i).image)).nextSeq = (s.ward (tumbWard (s.tumb i).image)).nextSeq + 1 ∧
             (t.ward (tumbWard (s.tumb i).image)).shedGap = 0 ∧ (t.tumb i).count = (s.tumb i).count + 1 ∧
             ∀ u, u ≠ tumbWard (s.tumb i).image → t.ward u = s.ward u)))) ∧
  (∀ (s : State) (p : PortId) (w : WardId), Sound s →
     (s.awake = true → s.pwr.domains.getLsbD 3 = true →
       ((portCtrl p s).getLsbD 0 = true →
         ∃ t, exec (.capLinkUp p .whole) s = .next t ∧ linkUp p t = true ∧
           (∀ q, q ≠ p → t.port q = s.port q) ∧ t = { s with cap := t.cap }) ∧
       (∀ what got, linkUp p s = true → (what = .marker → portMode p s = 4) →
         ∃ t, exec (.capLinkLost p what got) s = .next t ∧ linkUp p t = false ∧ (t.port p).linkLost = true ∧
           (t.port p).rx = none ∧
           (∀ q, q ≠ p → t.port q = s.port q) ∧ t = { s with cap := t.cap, obs := t.obs, pin := t.pin } ∧
           (s.obs.events.length < 512 → ∃ e ∈ t.obs.events, e.code = 0x0501 ∧ e.beat = s.clk.beat))) ∧
     (∀ b, (s.ward w).openBlk = some b → bits 0 8 (s.reg 0x0C800) ≠ 0 → bits 0 8 (s.reg 0x0C800) < b.ticks →
       s.awake = true →
       ∃ t, exec (.appendAge w) s = .next t ∧ (t.ward w).openBlk = none ∧ (t.ward w).openPos = (s.ward w).openPos + 1 ∧
         (∃ k, t.cap.queue = s.cap.queue ++ [k] ∧ k.ward = w ∧ k.block = (s.ward w).openPos ∧ k.plain = blockBytes b 1 ∧
           k.firstSeq = b.firstSeq ∧ k.nextSeq = (s.ward w).nextSeq) ∧
         ∀ u, u ≠ w → t.ward u = s.ward u) ∧
     (∀ e l, s.handedOff = true → s.obs.enabled = true → s.evlogFull = false → s.dmaOpen = true → s.host.flr = none →
       s.obs.events = e :: l → s.obs.lost = 0 →
       ∃ t, exec .eventRecord s = .next t ∧ t.obs.events = l ∧
         t.obs.tail = BitVec.ofNat 16 ((s.obs.tail.toNat + 1) % 2 ^ s.obs.logLog) ∧
         Out.event (s.obs.logBase + BitVec.ofNat 64 (32 * s.obs.tail.toNat)) (e.bytes s.obs.phase) ∈ t.host.out))

/-- SECTOR_READ and RETRY_PASS (R258, R263, R265, R266, R297, R315). A pass that delivers the verified sector of a read settles
the read with it; one that delivers nothing starts a recovery in its place; one that leaves the track is abandoned and counted.
A retry pass that delivers the verified sector ends its recovery and queues the sector's repair; one that does not, below the
sixteenth, counts; the sixteenth, with no parity path left, fails the sub-block. Stated where nothing else on die waits for media.
The model's own choices in it: logs 10 and 21. -/
def Obligations.SectorsAreRead : Prop :=
  ∀ (s : State) (k : Nat) (o : SectorObs), Sound s → Quiet s → s.inService = true →
    (∀ r, s.recoveries = [] → s.reads.find? (fun r => r.key == k) = some r → r.img = none → r.why ≠ .verify → r.path = none →
      (s.group r.addr.group).lostCol r.addr.stripe r.addr.column = false →
      (s.group r.addr.group).cellOf r.addr.stripe r.addr.column = r.cell → (s.cell r.cell).readable = true →
      onTrack r.cell r.addr s = true →
      (o.offTrack = false →
        (∀ x, o.img = some x → verified (s.group r.addr.group).d r.addr x = true →
          ∃ t, exec (.sectorRead k o) s = .next t ∧
            t.reads = listUpd (fun m => m.key == k) (fun m => { m with img := some x }) s.reads ∧
            t.recoveries = [] ∧ t.cache = s.cache ∧ t.ring = s.ring ∧
            t.counter (cCell r.cell 0x00) = s.counter (cCell r.cell 0x00) + 1) ∧
        (o.img = none →
          ∃ t q, exec (.sectorRead k o) s = .next t ∧ t.recoveries = [q] ∧ q.addr = r.addr ∧ q.key = s.nextRead ∧
            t.counter (cCell r.cell 0x10) = s.counter (cCell r.cell 0x10) + 1)) ∧
      (o.offTrack = true →
        ∃ t, exec (.sectorRead k o) s = .next t ∧ t.reads = s.reads ∧ t.recoveries = [] ∧
          t.counter (cCell r.cell 0xB0) = s.counter (cCell r.cell 0xB0) + 1)) ∧
    (∀ r, s.recoveries = [r] → r.key = k → r.retry = true → r.won = none → (s.cell r.cell).retry = some k →
      (s.cell r.cell).readable = true → onTrack r.cell r.addr s = true → o.offTrack = false →
      (∀ x, o.img = some x → verified (s.group r.addr.group).d r.addr x = true → r.why = .fill → r.degraded = false →
        (s.group r.addr.group).lostCol r.addr.stripe r.addr.column = false →
        (s.group r.addr.group).cellOf r.addr.stripe r.addr.column = r.cell →
        ∃ t, exec (.retryPass k o) s = .next t ∧ t.recoveries = [] ∧
          (∃ q ∈ (t.cell r.cell).queue, q.addr = r.addr ∧ q.sector = x ∧ q.repair = true) ∧
          t.counter (cGroup r.addr.group 2) = s.counter (cGroup r.addr.group 2) + 1) ∧
      (o.img = none → r.parity = false → r.pass < 15 →
        ∃ t, exec (.retryPass k o) s = .next t ∧ t.recoveries = [{ r with pass := r.pass + 1 }] ∧
          t.counter (cCell r.cell 0x30) = s.counter (cCell r.cell 0x30) + 1 ∧ t.reads = s.reads) ∧
      (o.img = none → r.parity = false → r.pass = 15 →
        ∃ t, exec (.retryPass k o) s = .next t ∧ t.recoveries = [] ∧
          t.counter (cGroup r.addr.group 3) = s.counter (cGroup r.addr.group 3) + 1 ∧
          (s.obs.events.length < 512 → ∃ e ∈ t.obs.events, e.code = 0x0705 ∧ e.beat = s.clk.beat)))

/-- The arm link (R277–R281). A response that passes clears the failure run, and a STATUS response of page 2 below the
limit brings the cell's temperature; one that fails is counted; in both cases the next slot's command goes out. Loss
of the link parks the cell with FAULT 1 and is logged. The model's own choices in it: log 27. -/
def Obligations.ArmLinkResponses : Prop :=
  ∀ (s : State) (c : CellId) (f sent : Word), Sound s → (s.cell c).bring ≠ .off → s.awake = true →
    ((s.cell c).arm.sent = some sent → s.mediaOn = true → s.inHold = true →
      (responsePasses sent f = true → bits 24 2 f = 0 → frmCmd f = 6 → frmArg sent % 8 = 2 →
        (BitVec.ofNat 16 (bits 8 16 f)).toInt < 2 * bits 0 8 (s.reg (0x12020 + 0x400 * c.val)) →
        ∃ t, exec (.armLinkResponse c f) s = .next t ∧ (t.cell c).temp = BitVec.ofNat 16 (bits 8 16 f) ∧ (t.cell c).hot = 0 ∧
          (t.cell c).arm.badRun = 0 ∧ (t.cell c).arm.up = true ∧
          (t.cell c).arm.sentLog.length = (s.cell c).arm.sentLog.length + 1 ∧ (∀ u, u ≠ c → t.cell u = s.cell u) ∧
          t = { s with cells := t.cells }) ∧
      (responsePasses sent f = false → (s.cell c).arm.badRun < 3 → (s.cell c).arm.badTick < 15 →
        ∃ t, exec (.armLinkResponse c f) s = .next t ∧ (t.cell c).arm.badRun = (s.cell c).arm.badRun + 1 ∧
          (t.cell c).arm.badTick = (s.cell c).arm.badTick + 1 ∧
          (t.cell c).arm.sentLog.length = (s.cell c).arm.sentLog.length + 1 ∧
          t.counter (cCell c 0x48) = s.counter (cCell c 0x48) + 1)) ∧
    (4 ≤ (s.cell c).arm.badRun → (s.cell c).fault ≠ 1 →
      ∃ t, exec (.armLinkLost c) s = .next t ∧ (t.cell c).fault = 1 ∧ (t.cell c).ready = false ∧ (t.cell c).arm.up = false ∧
        (t.cell c).arm.parking = true ∧ (t.cell c).wg = false)

/-- Bring-up and what ends it (R282, R284, R311, R312, R396): CLOCK_LOCK brings a loading cell to acquire wedges;
CLOCK_LOCK_LOSS is the servo doubt 1 with FAULT 2; SPIN_UP_TIMEOUT and the second high PRESENT sample leave the cell
absent with FAULT 4; an idle cell past its limit parks. The model's own choices in it: logs 26 and 31. -/
def Obligations.CellBringUp : Prop :=
  ∀ (s : State) (c : CellId), Sound s → s.awake = true →
    ((s.cell c).bring = .loading → (s.cell c).servo.loaded = true →
      ∃ t, exec (.clockLock c) s = .next t ∧ (t.cell c).clockLock = true ∧ (t.cell c).bring = .acquiring ∧
        (t.cell c).servo.target = 0 ∧ (t.cell c).servo.surface = 1 ∧ (∀ u, u ≠ c → t.cell u = s.cell u) ∧
        t = { s with cells := t.cells }) ∧
    ((s.cell c).clockLock = true → (s.cell c).servo.loaded = true → (s.cell c).fault = 0 →
      ∃ t, exec (.clockLockLoss c) s = .next t ∧ (t.cell c).clockLock = false ∧ (t.cell c).fault = 2 ∧
        (t.cell c).servo.doubt = 1 ∧ (t.cell c).ready = false ∧ (t.cell c).arm.parking = true) ∧
    ((s.cell c).bring = .spinning → s.inHold = true →
      ∃ t, exec (.spinUpTimeout c) s = .next t ∧ (t.cell c).fault = 4 ∧ (t.cell c).bring = .off ∧ (t.cell c).ready = false) ∧
    (1 ≤ (s.cell c).high → s.presentHigh c = some true → (s.cell c).absent = false →
      ∃ t, exec (.presentAbsent c) s = .next t ∧ (t.cell c).absent = true ∧ (t.cell c).fault = 4 ∧ (t.cell c).ready = false ∧
        (t.cell c).bring = .off) ∧
    (bits 0 16 (s.reg (0x16020 + 0x400 * c.val)) ≠ 0 → bits 0 16 (s.reg (0x16020 + 0x400 * c.val)) < (s.cell c).idle →
      (s.cell c).servo.loaded = true → (s.cell c).arm.parking = false →
      ∃ t, exec (.idlePark c) s = .next t ∧ (t.cell c).arm.parking = true ∧ (t.cell c).servo.tracking = false ∧
        t.counter (cCell c 0xD0) = s.counter (cCell c 0xD0) + 1 ∧ (∀ u, u ≠ c → t.cell u = s.cell u) ∧
        t = { s with cells := t.cells, obs := t.obs })

/-- The servo (R303, R305, R307, R311, R313, R316, R317). A Colzor frame that cannot be decoded is counted as missed; one
that can ends the run of missed ones; a wedge moves the wedge number on by one of 360, is counted, and leaves the estimate
decided for it; eight degraded wedges in a row begin reacquisition; a seek that is not settled is counted and made again below the
third; a head load without a Colzor frame, and any other doubt whose trigger stands, park the cell with FAULT 2 and their cause. The
model's own choices in it: log 26. -/
def Obligations.ServoRows : Prop :=
  ∀ (s : State) (c : CellId), Sound s → s.awake = true → (s.cell c).servo.loaded = true →
    (∀ o, s.mediaOn = true → o.sync = false → (s.cell c).servo.missed ≠ 15 →
      ∃ t, exec (.colzorFrame c o) s = .next t ∧ (t.cell c).servo.missed = (s.cell c).servo.missed + 1 ∧
        t.counter (cCell c 0x98) = s.counter (cCell c 0x98) + 1 ∧ (∀ u, u ≠ c → t.cell u = s.cell u)) ∧
    (∀ o, s.mediaOn = true → o.sync = true → o.codeOk = true → 6 ≤ o.pairs.length →
      ∃ t, exec (.colzorFrame c o) s = .next t ∧ (t.cell c).servo.missed = 0 ∧ t = { s with cells := t.cells }) ∧
    (∀ o, (s.cell c).clockLock = true → ((s.cell c).bring = .acquiring ∨ (s.cell c).bring = .ready) →
      (∀ d, (s.cell d).gateDue = none) →
      ∃ t, exec (.wedge c o) s = .next t ∧ (t.cell c).servo.wedge = ((s.cell c).servo.wedge + 1) % 360 ∧
        (t.cell c).servo.estimate = (decideWedge (s.cell c).servo (bits 8 8 (s.reg (0x16014 + 0x400 * c.val))) o).est ∧
        t.counter (cCell c 0x80) = s.counter (cCell c 0x80) + 1) ∧
    ((s.cell c).bring = .ready → (s.cell c).servo.reacquiring = false → 8 ≤ (s.cell c).servo.run →
      ∃ t, exec (.reacquisition c) s = .next t ∧ (t.cell c).servo.reacquiring = true ∧ (t.cell c).wg = false ∧
        (t.cell c).servo.tracking = false ∧ t.counter (cCell c 0xC8) = s.counter (cCell c 0xC8) + 1) ∧
    ((s.cell c).servo.seeking = true → (s.cell c).servo.seekFails < 2 →
      ∃ t, exec (.seekFail c) s = .next t ∧ (t.cell c).servo.seekFails = (s.cell c).servo.seekFails + 1 ∧
        (t.cell c).servo.seekFail = true ∧ (t.cell c).servo.seeking = true ∧ (t.cell c).fault = (s.cell c).fault) ∧
    (loadFails c s = true → (s.cell c).fault = 0 →
      ∃ t, exec (.headLoadFail c) s = .next t ∧ (t.cell c).fault = 2 ∧ (t.cell c).servo.doubt = 6 ∧ (t.cell c).ready = false) ∧
    (∀ cause, doubtStands c cause s = true → (s.cell c).fault = 0 →
      ∃ t, exec (.servoDoubt c cause) s = .next t ∧ (t.cell c).fault = 2 ∧ (t.cell c).servo.doubt = cause ∧
        (t.cell c).ready = false ∧ (t.cell c).arm.parking = true)

/-- Background work (R259, R269, R270, R271, R273), where nothing else on die waits for media: an initialised stripe is written on
every ONLINE member and on the spare, and moves the group's front on by one; a rebuild does not take a stripe with live records,
whose dirty sub-blocks it queues for destage, and writes the column of any other to the spare, its front moving on by one, or,
past the last stripe, the spare becoming the member; a scrubbed row moves the scrub on by one row; and each takes its credit. The
model's own choices in it: logs 10, 22 and 23. -/
def Obligations.BackgroundRows : Prop :=
  ∀ (s : State) (g : GroupId) (rows : List (List RowRead)) (row : List RowRead), Sound s → Quiet s → s.recoveries = [] →
    s.inService = true →
    (∀ l ∈ row :: rows, ∀ o ∈ l, o.first.offTrack = false) →
    ((s.group g).defined = true → (s.group g).down = false → (s.group g).initFront < (s.group g).stripes →
      groupIdle (s.group g) s = true → (s.group g).rebuild.active = false →
      ∃ t, exec (.initStripe g) s = .next t ∧ t.group g = { s.group g with initFront := (s.group g).initFront + 1 } ∧
        t.counter (cGroup g 5) = s.counter (cGroup g 5) + 1 ∧
        t.obs.media.length = s.obs.media.length +
          16 * (((List.range (s.group g).n).filter (fun m => !(s.group g).failed.contains m)).length +
            bit (s.group g).spare.isSome) ∧
        (∀ h, h ≠ g → t.group h = s.group h)) ∧
    (∀ c, (s.group g).spare = some c → (s.group g).rebuild.active = true → (s.group g).down = false →
      (s.group g).rebuild.front < (s.group g).stripes → (s.group g).rebuild.front < (s.group g).initFront →
      (stripeLive g (s.group g).rebuild.front s = true →
        ∃ t, exec (.rebuildStripe g rows) s = .next t ∧ t = { s with cache := t.cache, ledger := t.ledger } ∧
          ∀ k, (s.line k).group = g → (s.line k).stripe = (s.group g).rebuild.front → t.line k = (s.line k).queueAll) ∧
      (stripeLive g (s.group g).rebuild.front s = false → 65536 ≤ (s.group g).rebuild.credit → (s.group g).rebuild.sub = 0 →
        groupIdle (s.group g) s = true →
        ((s.group g).rebuild.front + 1 < (s.group g).stripes →
          ∃ t, exec (.rebuildStripe g rows) s = .next t ∧
            (t.group g).rebuild.front = (s.group g).rebuild.front + 1 ∧
            (t.group g).rebuild.credit = (s.group g).rebuild.credit - 65536 ∧ (t.group g).members = (s.group g).members ∧
            t.obs.media.length = s.obs.media.length + 16) ∧
        ((s.group g).rebuild.front + 1 = (s.group g).stripes →
          ∃ t, exec (.rebuildStripe g rows) s = .next t ∧
            (t.group g).members = (s.group g).members.set (s.group g).rebuild.member c ∧ (t.group g).spare = none ∧
            (t.group g).failed = (s.group g).failed.filter (· != (s.group g).rebuild.member) ∧
            (t.group g).rebuild = {} ∧ t.obs.media.length = s.obs.media.length + 16))) ∧
    ((s.group g).scrub.active = true → (s.group g).state = 0 → (s.group g).scrub.front < (s.group g).initFront →
      stripeLive g (s.group g).scrub.front s = false → 4096 * (s.group g).n ≤ (s.group g).scrub.credit →
      groupIdle (s.group g) s = true →
      ((s.group g).scrub.sub < 15 →
        ∃ t, exec (.scrubRow g row) s = .next t ∧ (t.group g).scrub.sub = (s.group g).scrub.sub + 1 ∧
          (t.group g).scrub.front = (s.group g).scrub.front ∧
          (t.group g).scrub.credit = (s.group g).scrub.credit - 4096 * (s.group g).n ∧
          (∀ h, h ≠ g → t.group h = s.group h)) ∧
      ((s.group g).scrub.sub = 15 → (s.group g).scrub.front + 1 < (s.group g).initFront →
        ∃ t, exec (.scrubRow g row) s = .next t ∧ (t.group g).scrub.sub = 0 ∧
          (t.group g).scrub.front = (s.group g).scrub.front + 1 ∧
          t.counter (cGroup g 8) = s.counter (cGroup g 8) + 1))

/-- UP_CFG_WRITE (R393–R395): a legal write stores its word and the pin switches; one that is not legal is dropped
whole and latched as a configuration rejection; one that lands while the pin switches is held. A function outside
0x0–0x9, the reserved PULL encoding, and a singular function that another pin holds are never legal (R392, R393).
PIN_SWITCH_SETTLE and GPIO_IN_CHANGE (R392, R394, R395): 10 beats after the switch began it has ended, and a GPIO_IN pin shows its
level; a level change reaches PIN.GPIO_IN where the pin is GPIO_IN and not switching, and is seen by no function else. The model's
own choices in it: log 8. -/
def Obligations.PinCells : Prop :=
  (∀ (s : State) (n : Fin 32) (v : Word), Sound s → s.regOpen = true →
     (s.pinBusy n.val = false → pinLegal n.val v s = true → s.pinFunc n.val ∉ [2, 3, 6, 9] →
       ∃ t, exec (.upCfgWrite n v) s = .next t ∧ t = { s with pin := t.pin } ∧ t.pinCfg n.val = v &&& 0x7FF ∧
         t.pinBusy n.val = true ∧ (∀ k, k ≠ n.val → t.pinCfg k = s.pinCfg k ∧ t.pinBusy k = s.pinBusy k)) ∧
     (s.pinBusy n.val = false → pinLegal n.val v s = false → s.sys.rejBeat ≠ s.clk.beat →
       ∃ t, exec (.upCfgWrite n v) s = .next t ∧ t = { s with sys := t.sys } ∧ t.sys.rejValid = true ∧
         (s.sys.rejValid = false → t.sys.rejAddr.toNat = 0x1B000 + 4 * n.val ∧ t.sys.rejValue = v)) ∧
     (s.pinBusy n.val = true →
       ∃ t, exec (.upCfgWrite n v) s = .next t ∧ t = { s with pin := t.pin } ∧ t.pinBusy n.val = true ∧
         ∀ k, t.pinCfg k = s.pinCfg k)) ∧
  (∀ (s : State) (n : Nat) (v : Word),
     (9 < bits 0 4 v → pinLegal n v s = false) ∧ (bits 8 2 v = 3 → pinLegal n v s = false) ∧
     (∀ k, k < 32 → k ≠ n → 2 ≤ bits 0 4 v → bits 0 4 v ≤ 7 → s.pinFunc k = bits 0 4 v → pinLegal n v s = false)) ∧
  (∀ (s : State) (n : Fin 32) (level : Bool), Sound s → s.handedOff = true →
     (∀ b, s.pin.switching.get none n.val = some { start := b, next := none } → b.toNat ≤ s.clk.beat.toNat →
       s.clk.beat.toNat ≤ b.toNat + 10 → b.toNat + 20 < 2 ^ 64 →
       ∃ t, exec (.pinSwitchSettle n) s = .next t ∧ t.pinBusy n.val = false ∧ b.toNat + 10 ≤ t.clk.beat.toNat ∧
         t.pinCfg n.val = s.pinCfg n.val ∧ t = { s with pin := t.pin, clk := t.clk, obs := t.obs } ∧
         (s.pinFunc n.val = 0 → t.pin.gpioIn.getLsbD n.val = s.pin.levels.getLsbD n.val)) ∧
     (∃ t, exec (.gpioInChange n level) s = .next t ∧ t = { s with pin := t.pin } ∧ t.pin.levels.getLsbD n.val = level ∧
       (s.pinFunc n.val = 0 → s.pinBusy n.val = false → t.pin.gpioIn.getLsbD n.val = level) ∧
       ((s.pinFunc n.val ≠ 0 ∨ s.pinBusy n.val = true) → t.pin.gpioIn = s.pin.gpioIn) ∧
       ∀ k, k ≠ n.val → t.pin.gpioIn.getLsbD k = s.pin.gpioIn.getLsbD k))

/-- The TAP (R90, R391): before provisioning EXTEST, SAMPLE/PRELOAD and BYPASS act, and any code that names no
instruction acts as BYPASS; once provisioned every code but IDCODE and BYPASS acts as BYPASS, sets JTAG_LOCKED and
counts in JTAG_REFUSED; IDCODE shifts out the device's 0x1002_4B6D (at stepping 0x1n). SMBus (R397): Read Word at
PIN.SMB_ADDR answers the command's word, low byte first, with the PEC where it is read; an undefined command, a write
and every other protocol are NACKed; nothing else changes but the model's note of the transaction's beat. The console's flow
control (R398): XOFF pauses after the current character, XON resumes; the queue of lines is not lost. An LED pin sinks while its
source is true (R399). The model's own choices in it: logs 3 and 5. -/
def Obligations.SidePorts : Prop :=
  (∀ (s : State) (code : BitVec 4), s.awake = true →
     (s.sec.provisioned = false →
       exec .jtagExtest s = .next { s with pin := { s.pin with jtag := 0x0 } } ∧
       exec .jtagSamplePreload s = .next { s with pin := { s.pin with jtag := 0x2 } }) ∧
     ((s.sec.provisioned = false ∨ code = 0xF) → 2 < code.toNat →
       exec (.jtagBypass code) s = .next { s with pin := { s.pin with jtag := 0xF } }) ∧
     (s.sec.provisioned = true →
       let refused := fun t : State => t.pin = { s.pin with jtag := 0xF } ∧ t.sec = { s.sec with jtagLocked := true } ∧
         t.counter (cDev 5) = s.counter (cDev 5) + 1 ∧ t = { s with pin := t.pin, sec := t.sec, obs := t.obs }
       Sound s →
       (∃ t, exec .jtagExtest s = .next t ∧ refused t) ∧ (∃ t, exec .jtagSamplePreload s = .next t ∧ refused t) ∧
       (2 < code.toNat → code ≠ 0xF → ∃ t, exec (.jtagBypass code) s = .next t ∧ refused t)) ∧
     (∃ t, exec .jtagIdcode s = .next t ∧ t.pin.jtag = 0x1 ∧ t.host.resp = .bytes (wordBytes idcode) ∧
       t = { s with pin := { s.pin with jtag := 0x1 }, host := { s.host with resp := t.host.resp } } ∧
       (Config.fuseStepping.toNat / 16 = 1 → idcode = 0x10024B6D))) ∧
  (∀ (s : State) (addr : BitVec 7) (cmd : Byte), smbOpen s = true →
     let reply := fun r : Resp => { s with
       host := { s.host with resp := r }, pin := { s.pin with smbAt := some s.clk.beat } }
     (addr.toNat = bits 0 7 (s.reg 0x1B08C) →
       (∀ w, smbWord cmd.toNat s = some w →
         exec (.smbReadWord addr cmd false) s = .next (reply (.bytes (leBytes 2 w.toNat))) ∧
         exec (.smbReadWord addr cmd true) s = .next (reply (.bytes (leBytes 2 w.toNat ++
           [smbPec ([BitVec.ofNat 8 (2 * addr.toNat), cmd, BitVec.ofNat 8 (2 * addr.toNat + 1)] ++ leBytes 2 w.toNat)])))) ∧
       (0x0B < cmd.toNat → exec (.smbReadWord addr cmd false) s = .next (reply .nack))) ∧
     (smbWord 0x00 s = some s.obs.temp ∧ smbWord 0x01 s = some s.obs.tempMax ∧
       smbWord 0x07 s = some (s.pwr.holdCause.setWidth 16)) ∧
     exec .smbUnsupported s = .next (reply .nack)) ∧
  (∀ s : State, s.handedOff = true → s.pin.holds 0x5 = true →
     (∃ t, exec .uartXoff s = .next t ∧ t.pin.uartPaused = true ∧ t.pin.uartOut ++ t.pin.uart = s.pin.uartOut ++ s.pin.uart ∧
       t = { s with pin := t.pin, clk := t.clk, obs := t.obs }) ∧
     exec .uartXon s = .next { s with pin := { s.pin with uartPaused := false } }) ∧
  (∀ (s : State) (n : Nat), s.handedOff = true → s.pinBusy n = false → s.pinFunc n = 8 →
     pinDrive n s = .sink (ledSource (bits 4 4 (s.pinCfg n)) s))
end

