-- ==== Sys2Proof/Laws/Tab.lean ====
section
/-! SUPPORT. The laws of sparse tables: a read after a write, and that every table operation keeps the canonical form. -/

set_option linter.unusedTactic false
set_option linter.unreachableTactic false

namespace Sys2Proof.Machine

variable {α : Type}

/-- A table's listed indexes all lie above a bound. -/
def Tab.above (lo : Option Nat) (k : Nat) : Prop := match lo with | none => True | some l => l < k

section Reads

/-- Below every listed index a table reads as its default. -/
theorem Tab.get_low [DecidableEq α] (d : Nat → α) (x : α) : ∀ (t : Tab α) (l k : Nat), Tab.wfFrom d (some l) t = true → k ≤ l →
    Tab.get x t k = x
  | [], _, _, _, _ => rfl
  | (j, v) :: t, l, k, h, hk => by
    simp only [Tab.wfFrom, Bool.and_eq_true, decide_eq_true_eq] at h
    have h1 : k ≠ j := by omega
    have h2 : k < j := by omega
    simp [Tab.get, h1, h2]

/-- The value just put is read back. -/
@[simp] theorem Tab.get_put_self (d : α) (t : Tab α) (k : Nat) (v : α) : Tab.get d (Tab.put t k v) k = v := by
  induction t with
  | nil => simp [Tab.put, Tab.get]
  | cons p t ih =>
    obtain ⟨j, w⟩ := p
    unfold Tab.put
    split
    · simp [Tab.get]
    · split
      · simp [Tab.get]
      · rename_i h1 h2
        simp [Tab.get, h1, h2, ih]

/-- A put leaves every other index as it reads. -/
theorem Tab.get_put_ne (d : α) (t : Tab α) {k i : Nat} (h : i ≠ k) (v : α) :
    Tab.get d (Tab.put t k v) i = Tab.get d t i := by
  induction t with
  | nil =>
    simp only [Tab.put, Tab.get]
    simp [h]
  | cons p t ih =>
    obtain ⟨j, w⟩ := p
    unfold Tab.put
    split
    · rename_i hk
      subst hk
      simp [Tab.get, h]
    · split
      · rename_i h1 h2
        simp only [Tab.get]
        by_cases hij : i = j
        · subst hij
          have : ¬ i < k := by omega
          simp [h, this]
        · by_cases hik : i < k
          · have : i < j := by omega
            simp [h, hij, hik, this]
          · simp [h, hik]
      · simp only [Tab.get, ih]

/-- In a canonical table, dropping an index makes it read as the default. -/
theorem Tab.get_drop_self [DecidableEq α] (d : Nat → α) (x : α) : ∀ (t : Tab α) (lo : Option Nat) (k : Nat),
    Tab.wfFrom d lo t = true → Tab.get x (Tab.drop t k) k = x
  | [], _, _, _ => rfl
  | (j, v) :: t, lo, k, h => by
    have ht : Tab.wfFrom d (some j) t = true := by
      simp only [Tab.wfFrom, Bool.and_eq_true] at h
      exact h.2
    unfold Tab.drop
    split
    · rename_i hk
      subst hk
      exact Tab.get_low d x t k k ht (Nat.le_refl k)
    · split
      · rename_i h1 h2
        simp [Tab.get, h1, h2]
      · rename_i h1 h2
        simp [Tab.get, h1, h2, Tab.get_drop_self d x t (some j) k ht]

/-- Dropping an index leaves every other index as it reads. -/
theorem Tab.get_drop_ne [DecidableEq α] (d : Nat → α) (x : α) {k i : Nat} (hi : i ≠ k) : ∀ (t : Tab α) (lo : Option Nat),
    Tab.wfFrom d lo t = true → Tab.get x (Tab.drop t k) i = Tab.get x t i
  | [], _, _ => rfl
  | (j, v) :: t, lo, h => by
    have ht : Tab.wfFrom d (some j) t = true := by
      simp only [Tab.wfFrom, Bool.and_eq_true] at h
      exact h.2
    unfold Tab.drop
    split
    · rename_i hk
      subst hk
      simp only [Tab.get, hi, if_false]
      split
      · exact Tab.get_low d x t k i ht (by omega)
      · rfl
    · split
      · rfl
      · simp only [Tab.get, Tab.get_drop_ne d x hi t (some j) ht]

/-- The value just set is read back. -/
@[simp] theorem Tab.get_set_self [DecidableEq α] (d : α) (t : Tab α) (k : Nat) (v : α)
    (h : Tab.wf (fun _ => d) t = true) : Tab.get d (Tab.set d t k v) k = v := by
  unfold Tab.set
  split
  · rename_i hv
    rw [hv]
    exact Tab.get_drop_self (fun _ => d) d t none k h
  · exact Tab.get_put_self d t k v

/-- A set leaves every other index as it reads. -/
theorem Tab.get_set_ne [DecidableEq α] (d : α) (t : Tab α) {k i : Nat} (hi : i ≠ k) (v : α)
    (h : Tab.wf (fun _ => d) t = true) : Tab.get d (Tab.set d t k v) i = Tab.get d t i := by
  unfold Tab.set
  split
  · exact Tab.get_drop_ne (fun _ => d) d hi t none h
  · exact Tab.get_put_ne d t hi v

end Reads

section Canonical

variable [DecidableEq α]

/-- A weaker bound keeps the form. -/
theorem Tab.wfFrom_weaken (d : Nat → α) : ∀ (t : Tab α) (a b : Nat), a ≤ b → Tab.wfFrom d (some b) t = true →
    Tab.wfFrom d (some a) t = true
  | [], _, _, _, _ => rfl
  | (j, v) :: t, a, b, hab, h => by
    simp only [Tab.wfFrom, Bool.and_eq_true, decide_eq_true_eq] at h ⊢
    exact ⟨⟨by omega, h.1.2⟩, h.2⟩

/-- Without a bound the form still holds. -/
theorem Tab.wfFrom_none (d : Nat → α) (t : Tab α) (b : Nat) (h : Tab.wfFrom d (some b) t = true) :
    Tab.wfFrom d none t = true := by
  cases t with
  | nil => rfl
  | cons p t =>
    obtain ⟨j, v⟩ := p
    simp only [Tab.wfFrom, Bool.and_eq_true] at h ⊢
    exact ⟨⟨trivial, h.1.2⟩, h.2⟩

/-- Dropping an index keeps the canonical form. -/
theorem Tab.drop_wfFrom (d : Nat → α) (k : Nat) : ∀ (t : Tab α) (lo : Option Nat), Tab.wfFrom d lo t = true →
    Tab.wfFrom d lo (Tab.drop t k) = true
  | [], _, h => h
  | (j, v) :: t, lo, h => by
    have ht : Tab.wfFrom d (some j) t = true := by
      simp only [Tab.wfFrom, Bool.and_eq_true] at h
      exact h.2
    unfold Tab.drop
    split
    · cases lo with
      | none => exact Tab.wfFrom_none d t j ht
      | some l =>
        simp only [Tab.wfFrom, Bool.and_eq_true, decide_eq_true_eq] at h
        exact Tab.wfFrom_weaken d t l j (by omega) ht
    · split
      · exact h
      · have := Tab.drop_wfFrom d k t (some j) ht
        simp only [Tab.wfFrom, Bool.and_eq_true] at h ⊢
        exact ⟨h.1, this⟩

/-- Putting a value that is not the default keeps the canonical form. -/
theorem Tab.put_wfFrom (d : Nat → α) (k : Nat) (v : α) (hv : v ≠ d k) : ∀ (t : Tab α) (lo : Option Nat),
    Tab.above lo k → Tab.wfFrom d lo t = true → Tab.wfFrom d lo (Tab.put t k v) = true
  | [], lo, hl, _ => by
    cases lo <;> simp_all [Tab.put, Tab.wfFrom, Tab.above]
  | (j, w) :: t, lo, hl, h => by
    have ht : Tab.wfFrom d (some j) t = true := by
      simp only [Tab.wfFrom, Bool.and_eq_true] at h
      exact h.2
    unfold Tab.put
    split
    · rename_i hk
      subst hk
      cases lo <;> simp_all [Tab.wfFrom, Tab.above]
    · split
      · rename_i h1 h2
        cases lo <;> simp_all [Tab.wfFrom, Tab.above]
      · rename_i h1 h2
        have := Tab.put_wfFrom d k v hv t (some j) (by simp [Tab.above]; omega) ht
        simp only [Tab.wfFrom, Bool.and_eq_true] at h ⊢
        exact ⟨h.1, this⟩

/-- Setting a value keeps the canonical form. -/
theorem Tab.set_wf (d : Nat → α) (t : Tab α) (k : Nat) (v : α) (h : Tab.wf d t = true) :
    Tab.wf d (Tab.set (d k) t k v) = true := by
  unfold Tab.set
  split
  · exact Tab.drop_wfFrom d k t none h
  · rename_i hv
    exact Tab.put_wfFrom d k v hv t none trivial h

/-- Changing a value keeps the canonical form. -/
theorem Tab.upd_wf (d : Nat → α) (t : Tab α) (k : Nat) (f : α → α) (h : Tab.wf d t = true) :
    Tab.wf d (Tab.upd (d k) t k f) = true := Tab.set_wf d t k _ h

/-- Setting a value of a table with one default keeps the canonical form. -/
@[simp] theorem Tab.set_wf' (x : α) (t : Tab α) (k : Nat) (v : α) (h : Tab.wf (fun _ => x) t = true) :
    Tab.wf (fun _ => x) (Tab.set x t k v) = true := Tab.set_wf (fun _ => x) t k v h

/-- Changing a value of a table with one default keeps the canonical form. -/
@[simp] theorem Tab.upd_wf' (x : α) (t : Tab α) (k : Nat) (f : α → α) (h : Tab.wf (fun _ => x) t = true) :
    Tab.wf (fun _ => x) (Tab.upd x t k f) = true := Tab.set_wf' x t k _ h

/-- Keeping only some listed entries keeps the canonical form. -/
theorem Tab.filter_wfFrom (d : Nat → α) (p : Nat × α → Bool) : ∀ (t : Tab α) (lo : Option Nat),
    Tab.wfFrom d lo t = true → Tab.wfFrom d lo (List.filter p t) = true
  | [], _, h => h
  | (j, v) :: t, lo, h => by
    have ht : Tab.wfFrom d (some j) t = true := by
      simp only [Tab.wfFrom, Bool.and_eq_true] at h
      exact h.2
    have ih := Tab.filter_wfFrom d p t (some j) ht
    simp only [List.filter]
    split
    · simp only [Tab.wfFrom, Bool.and_eq_true] at h ⊢
      exact ⟨h.1, ih⟩
    · cases lo with
      | none => exact Tab.wfFrom_none d _ j ih
      | some l =>
        simp only [Tab.wfFrom, Bool.and_eq_true, decide_eq_true_eq] at h
        exact Tab.wfFrom_weaken d _ l j (by omega) ih

/-- Keeping only some listed entries keeps the canonical form. -/
@[simp] theorem Tab.filter_wf (d : Nat → α) (p : Nat × α → Bool) (t : Tab α) (h : Tab.wf d t = true) :
    Tab.wf d (List.filter p t) = true := Tab.filter_wfFrom d p t none h

/-- Changing every listed value keeps the canonical form. -/
theorem Tab.mapAll_wfFrom (x : α) (f : Nat → α → α) (d : Nat → α) : ∀ (t : Tab α) (lo : Option Nat),
    Tab.wfFrom d lo t = true → Tab.wfFrom (fun _ => x) lo (Tab.mapAll x f t) = true
  | [], _, _ => rfl
  | (j, v) :: t, lo, h => by
    have ht : Tab.wfFrom d (some j) t = true := by
      simp only [Tab.wfFrom, Bool.and_eq_true] at h
      exact h.2
    have ih := Tab.mapAll_wfFrom x f d t (some j) ht
    unfold Tab.mapAll
    split
    · cases lo with
      | none => exact Tab.wfFrom_none _ _ j ih
      | some l =>
        simp only [Tab.wfFrom, Bool.and_eq_true, decide_eq_true_eq] at h
        exact Tab.wfFrom_weaken _ _ l j (by omega) ih
    · rename_i hne
      simp only [Tab.wfFrom, Bool.and_eq_true, decide_eq_true_eq] at h ⊢
      exact ⟨⟨h.1.1, hne⟩, ih⟩

/-- Changing every listed value keeps the canonical form. -/
theorem Tab.mapAll_wf (x : α) (f : Nat → α → α) (d : Nat → α) (t : Tab α) (h : Tab.wf d t = true) :
    Tab.wf (fun _ => x) (Tab.mapAll x f t) = true := Tab.mapAll_wfFrom x f d t none h

/-- Changing every listed value of a table with one default keeps the canonical form. -/
@[simp] theorem Tab.mapAll_wf' (x : α) (f : Nat → α → α) (t : Tab α) (h : Tab.wf (fun _ => x) t = true) :
    Tab.wf (fun _ => x) (Tab.mapAll x f t) = true := Tab.mapAll_wf x f _ t h

end Canonical

/-- What changing every listed value leaves at an index: `f` of what it read, where an unused index stays so. -/
theorem Tab.get_mapAll [DecidableEq α] (x : α) (f : Nat → α → α) (hf : ∀ i, f i x = x) : ∀ (t : Tab α) (k : Nat) (lo : Option Nat),
    Tab.wfFrom (fun _ => x) lo t = true → Tab.get x (Tab.mapAll x f t) k = f k (Tab.get x t k)
  | [], k, _, _ => by simp [Tab.mapAll, Tab.get, hf]
  | (j, v) :: t, k, lo, h => by
    have ht : Tab.wfFrom (fun _ => x) (some j) t = true := by
      simp only [Tab.wfFrom, Bool.and_eq_true] at h
      exact h.2
    have ih := Tab.get_mapAll x f hf t k (some j) ht
    have hm := Tab.mapAll_wfFrom x f (fun _ => x) t (some j) ht
    unfold Tab.mapAll
    split
    · rename_i hv
      by_cases hk : k = j
      · subst hk
        rw [Tab.get_low (fun _ => x) x _ k k hm (Nat.le_refl k)]
        simp [Tab.get, hv]
      · by_cases hl : k < j
        · rw [Tab.get_low (fun _ => x) x _ j k hm (by omega)]
          simp [Tab.get, hk, hl, hf]
        · rw [ih]
          simp [Tab.get, hk, hl]
    · by_cases hk : k = j
      · subst hk
        simp [Tab.get]
      · by_cases hl : k < j
        · simp [Tab.get, hk, hl, hf]
        · simp [Tab.get, hk, hl, ih]

end Sys2Proof.Machine
end

