-- ==== Sys2Proof/Laws/Sound.lean ====
section
/-! SUPPORT. Every operation keeps the state sound (its tables canonical, the vote table and its complement in agreement)
and leaves the queue of waiting commands alone. -/

set_option linter.unusedTactic false
set_option linter.unreachableTactic false

namespace Sys2Proof.Machine

/-! Soundness of a state written out field by field. -/

@[simp] theorem sound_mk (sys clk sec pwr host ring wards cap cache kcc ledger groups cells reads recs next obs pin regs
    fresh pending) :
    Sound (State.mk sys clk sec pwr host ring wards cap cache kcc ledger groups cells reads recs next obs pin regs fresh
      pending) ↔
    (pwr.votesInv = ~~~pwr.votes ∧ Tab.wf (fun _ => 0) pwr.scratch = true) ∧
    (Tab.wf (fun _ => {}) wards = true ∧ Tab.wf (fun _ => {}) groups = true ∧ Tab.wf (fun _ => {}) cells = true) ∧
    (Tab.wf (fun _ => {}) cap.ports = true ∧ Tab.wf (fun _ => {}) cap.tumbler = true) ∧
    (Tab.wf (fun _ => {}) cache.lines = true ∧ Tab.wf (fun _ => 0) cache.errors = true ∧
      Tab.wf (fun _ => (0, 0)) cache.ratRange = true) ∧
    (Tab.wf (fun _ => 0) obs.counters = true ∧ Tab.wf (fun _ => 0) obs.image0.counters = true ∧
      Tab.wf (fun _ => 0) obs.image1.counters = true ∧
      Tab.wf (fun _ => 0) ((obs.checkpoint.map (·.counters)).getD []) = true ∧ Tab.wf (fun _ => 0) obs.volts = true) ∧
    (Tab.wf (fun _ => 0) pin.cfg = true ∧ Tab.wf (fun _ => none) pin.switching = true) ∧ Tab.wf regReset regs = true ∧
    (Tab.wf (fun _ => 0) host.bars = true ∧ Tab.wf (fun _ => []) ledger.slots = true) :=
  ⟨fun h => ⟨⟨h.1, h.2⟩, ⟨h.3, h.4, h.5⟩, ⟨h.6, h.7⟩, ⟨h.8, h.9, h.10⟩, ⟨h.11, h.12, h.13, h.14, h.15⟩, ⟨h.16, h.17⟩, h.18, h.19, h.20⟩,
   fun ⟨⟨a1, a2⟩, ⟨b1, b2, b3⟩, ⟨c1, c2⟩, ⟨d1, d2, d3⟩, ⟨e1, e2, e3, e4, e5⟩, ⟨f1, f2⟩, g, h1, h2⟩ =>
     ⟨a1, a2, b1, b2, b3, c1, c2, d1, d2, d3, e1, e2, e3, e4, e5, f1, f2, g, h1, h2⟩⟩

variable {s : State}

@[simp] theorem sound_votes (h : Sound s) : s.pwr.votesInv = ~~~s.pwr.votes := h.votes
@[simp] theorem sound_scratch {f : Nat → Word} (h : Sound s) (hf : ∀ i, f i = 0) : Tab.wf f s.pwr.scratch = true :=
  (funext hf : f = fun _ => 0) ▸ h.scratch
@[simp] theorem sound_wards {f : Nat → Ward} (h : Sound s) (hf : ∀ i, f i = {}) : Tab.wf f s.wards = true :=
  (funext hf : f = fun _ => {}) ▸ h.wards
@[simp] theorem sound_groups {f : Nat → Group} (h : Sound s) (hf : ∀ i, f i = {}) : Tab.wf f s.groups = true :=
  (funext hf : f = fun _ => {}) ▸ h.groups
@[simp] theorem sound_cells {f : Nat → Cell} (h : Sound s) (hf : ∀ i, f i = {}) : Tab.wf f s.cells = true :=
  (funext hf : f = fun _ => {}) ▸ h.cells
@[simp] theorem sound_ports {f : Nat → Port} (h : Sound s) (hf : ∀ i, f i = {}) : Tab.wf f s.cap.ports = true :=
  (funext hf : f = fun _ => {}) ▸ h.ports
@[simp] theorem sound_tumbler {f : Nat → TumbEntry} (h : Sound s) (hf : ∀ i, f i = {}) : Tab.wf f s.cap.tumbler = true :=
  (funext hf : f = fun _ => {}) ▸ h.tumbler
@[simp] theorem sound_lines {f : Nat → Line} (h : Sound s) (hf : ∀ i, f i = {}) : Tab.wf f s.cache.lines = true :=
  (funext hf : f = fun _ => {}) ▸ h.lines
@[simp] theorem sound_errors {f : Nat → Nat} (h : Sound s) (hf : ∀ i, f i = 0) : Tab.wf f s.cache.errors = true :=
  (funext hf : f = fun _ => 0) ▸ h.errors
@[simp] theorem sound_ranges {f : Nat → Nat × Nat} (h : Sound s) (hf : ∀ i, f i = (0, 0)) : Tab.wf f s.cache.ratRange = true :=
  (funext hf : f = fun _ => (0, 0)) ▸ h.ranges
@[simp] theorem sound_counters {f : Nat → DWord} (h : Sound s) (hf : ∀ i, f i = 0) : Tab.wf f s.obs.counters = true :=
  (funext hf : f = fun _ => 0) ▸ h.counters
@[simp] theorem sound_image0 {f : Nat → DWord} (h : Sound s) (hf : ∀ i, f i = 0) : Tab.wf f s.obs.image0.counters = true :=
  (funext hf : f = fun _ => 0) ▸ h.image0
@[simp] theorem sound_image1 {f : Nat → DWord} (h : Sound s) (hf : ∀ i, f i = 0) : Tab.wf f s.obs.image1.counters = true :=
  (funext hf : f = fun _ => 0) ▸ h.image1
@[simp] theorem sound_checkpoint {f : Nat → DWord} (h : Sound s) (hf : ∀ i, f i = 0) :
    Tab.wf f ((s.obs.checkpoint.map (·.counters)).getD []) = true := (funext hf : f = fun _ => 0) ▸ h.checkpoint
@[simp] theorem sound_volts {f : Nat → BitVec 16} (h : Sound s) (hf : ∀ i, f i = 0) : Tab.wf f s.obs.volts = true :=
  (funext hf : f = fun _ => 0) ▸ h.volts
@[simp] theorem sound_pins {f : Nat → Word} (h : Sound s) (hf : ∀ i, f i = 0) : Tab.wf f s.pin.cfg = true :=
  (funext hf : f = fun _ => 0) ▸ h.pins
@[simp] theorem sound_switching {f : Nat → Option PinSwitch} (h : Sound s) (hf : ∀ i, f i = none) : Tab.wf f s.pin.switching = true :=
  (funext hf : f = fun _ => none) ▸ h.switching
@[simp] theorem sound_regs (h : Sound s) : Tab.wf regReset s.regs = true := h.regs
@[simp] theorem sound_bars {f : Nat → Word} (h : Sound s) (hf : ∀ i, f i = 0) : Tab.wf f s.host.bars = true :=
  (funext hf : f = fun _ => 0) ▸ h.bars
@[simp] theorem sound_slots {f : Nat → Bytes} (h : Sound s) (hf : ∀ i, f i = []) : Tab.wf f s.ledger.slots = true :=
  (funext hf : f = fun _ => []) ▸ h.slots

/-! Choices and repetitions. -/

@[simp] theorem sound_ite (c : Prop) [Decidable c] (a b : State) :
    Sound (if c then a else b) ↔ (c → Sound a) ∧ (¬c → Sound b) := by
  split <;> simp [*]

/-- A choice between states leaves the queue alone where both do. -/
@[simp] theorem ite_pending (c : Prop) [Decidable c] (a b : State) :
    (if c then a else b).pending = if c then a.pending else b.pending := by split <;> rfl

/-- An empty table is canonical. -/
@[simp] theorem tab_nil_wf {α : Type} [DecidableEq α] (d : Nat → α) : Tab.wf d ([] : Tab α) = true := rfl

/-- A repetition keeps what each of its steps keeps. -/
theorem foldl_keeps {σ β : Type} (P : σ → Prop) (f : σ → β → σ) (hf : ∀ s x, P s → P (f s x)) : ∀ (l : List β) (s : σ),
    P s → P (l.foldl f s)
  | [], _, h => h
  | x :: l, s, h => foldl_keeps P f hf l (f s x) (hf s x h)

/-- A repetition of sound steps ends in a sound state. -/
@[simp] theorem sound_foldl {β : Type} (f : State → β → State) (l : List β) (hf : ∀ s x, Sound s → Sound (f s x))
    (h : Sound s) : Sound (l.foldl f s) := foldl_keeps Sound f hf l s h

/-- A repetition of steps that leave the queue alone leaves it alone. -/
@[simp] theorem foldl_pending {β : Type} (f : State → β → State) (l : List β) (hf : ∀ s x, (f s x).pending = s.pending)
    (s : State) : (l.foldl f s).pending = s.pending :=
  foldl_keeps (fun t => t.pending = s.pending) f (fun t x h => by rw [hf, h]) l s rfl


/-- As `foldl_pending`, from any state with the same queue. -/
theorem foldl_pending_to {β : Type} {q : List Instr} (f : State → β → State) (l : List β)
    (hf : ∀ s x, (f s x).pending = s.pending) {s : State} (h : s.pending = q) : (l.foldl f s).pending = q := by
  rw [foldl_pending f l hf, h]

/-- A repetition that carries a value beside the state ends in a sound state. -/
@[simp] theorem sound_foldl_snd {α β : Type} (f : α × State → β → α × State) (l : List β)
    (hf : ∀ a x, Sound a.2 → Sound (f a x).2) {a : α × State} (h : Sound a.2) : Sound (l.foldl f a).2 :=
  foldl_keeps (fun a => Sound a.2) f hf l a h

/-- A repetition that carries a value beside the state leaves the queue alone. -/
@[simp] theorem foldl_snd_pending {α β : Type} (f : α × State → β → α × State) (l : List β)
    (hf : ∀ a x, (f a x).2.pending = a.2.pending) (a : α × State) : (l.foldl f a).2.pending = a.2.pending :=
  foldl_keeps (fun t => t.2.pending = a.2.pending) f (fun t x h => by rw [hf, h]) l a rfl

end Sys2Proof.Machine
end

