-- ==== Sys2Proof/Laws/FrameBase.lean ====
section
/-! SUPPORT. A branch and a fold keep what their steps keep, field by field of the state. -/

set_option linter.unusedTactic false
set_option linter.unreachableTactic false

namespace Sys2Proof.Machine

@[simp] theorem ite_sys (c : Prop) [Decidable c] (a b : State) : (if c then a else b).sys = if c then a.sys else b.sys := by split <;> rfl
@[simp] theorem foldl_sys {β : Type} (f : State → β → State) (l : List β)
    (hf : ∀ s x, (f s x).sys = s.sys) (s : State) : (l.foldl f s).sys = s.sys :=
  foldl_keeps (fun t => t.sys = s.sys) f (fun t x h => by rw [hf, h]) l s rfl
@[simp] theorem foldl_snd_sys {α β : Type} (f : α × State → β → α × State) (l : List β)
    (hf : ∀ a x, (f a x).2.sys = a.2.sys) (a : α × State) : (l.foldl f a).2.sys = a.2.sys :=
  foldl_keeps (fun t => t.2.sys = a.2.sys) f (fun t x h => by rw [hf, h]) l a rfl
@[simp] theorem ite_clk (c : Prop) [Decidable c] (a b : State) : (if c then a else b).clk = if c then a.clk else b.clk := by split <;> rfl
@[simp] theorem foldl_clk {β : Type} (f : State → β → State) (l : List β)
    (hf : ∀ s x, (f s x).clk = s.clk) (s : State) : (l.foldl f s).clk = s.clk :=
  foldl_keeps (fun t => t.clk = s.clk) f (fun t x h => by rw [hf, h]) l s rfl
@[simp] theorem foldl_snd_clk {α β : Type} (f : α × State → β → α × State) (l : List β)
    (hf : ∀ a x, (f a x).2.clk = a.2.clk) (a : α × State) : (l.foldl f a).2.clk = a.2.clk :=
  foldl_keeps (fun t => t.2.clk = a.2.clk) f (fun t x h => by rw [hf, h]) l a rfl
@[simp] theorem ite_sec (c : Prop) [Decidable c] (a b : State) : (if c then a else b).sec = if c then a.sec else b.sec := by split <;> rfl
@[simp] theorem foldl_sec {β : Type} (f : State → β → State) (l : List β)
    (hf : ∀ s x, (f s x).sec = s.sec) (s : State) : (l.foldl f s).sec = s.sec :=
  foldl_keeps (fun t => t.sec = s.sec) f (fun t x h => by rw [hf, h]) l s rfl
@[simp] theorem foldl_snd_sec {α β : Type} (f : α × State → β → α × State) (l : List β)
    (hf : ∀ a x, (f a x).2.sec = a.2.sec) (a : α × State) : (l.foldl f a).2.sec = a.2.sec :=
  foldl_keeps (fun t => t.2.sec = a.2.sec) f (fun t x h => by rw [hf, h]) l a rfl
@[simp] theorem ite_pwr (c : Prop) [Decidable c] (a b : State) : (if c then a else b).pwr = if c then a.pwr else b.pwr := by split <;> rfl
@[simp] theorem foldl_pwr {β : Type} (f : State → β → State) (l : List β)
    (hf : ∀ s x, (f s x).pwr = s.pwr) (s : State) : (l.foldl f s).pwr = s.pwr :=
  foldl_keeps (fun t => t.pwr = s.pwr) f (fun t x h => by rw [hf, h]) l s rfl
@[simp] theorem foldl_snd_pwr {α β : Type} (f : α × State → β → α × State) (l : List β)
    (hf : ∀ a x, (f a x).2.pwr = a.2.pwr) (a : α × State) : (l.foldl f a).2.pwr = a.2.pwr :=
  foldl_keeps (fun t => t.2.pwr = a.2.pwr) f (fun t x h => by rw [hf, h]) l a rfl
@[simp] theorem ite_host (c : Prop) [Decidable c] (a b : State) : (if c then a else b).host = if c then a.host else b.host := by split <;> rfl
@[simp] theorem foldl_host {β : Type} (f : State → β → State) (l : List β)
    (hf : ∀ s x, (f s x).host = s.host) (s : State) : (l.foldl f s).host = s.host :=
  foldl_keeps (fun t => t.host = s.host) f (fun t x h => by rw [hf, h]) l s rfl
@[simp] theorem foldl_snd_host {α β : Type} (f : α × State → β → α × State) (l : List β)
    (hf : ∀ a x, (f a x).2.host = a.2.host) (a : α × State) : (l.foldl f a).2.host = a.2.host :=
  foldl_keeps (fun t => t.2.host = a.2.host) f (fun t x h => by rw [hf, h]) l a rfl
@[simp] theorem ite_ring (c : Prop) [Decidable c] (a b : State) : (if c then a else b).ring = if c then a.ring else b.ring := by split <;> rfl
@[simp] theorem foldl_ring {β : Type} (f : State → β → State) (l : List β)
    (hf : ∀ s x, (f s x).ring = s.ring) (s : State) : (l.foldl f s).ring = s.ring :=
  foldl_keeps (fun t => t.ring = s.ring) f (fun t x h => by rw [hf, h]) l s rfl
@[simp] theorem foldl_snd_ring {α β : Type} (f : α × State → β → α × State) (l : List β)
    (hf : ∀ a x, (f a x).2.ring = a.2.ring) (a : α × State) : (l.foldl f a).2.ring = a.2.ring :=
  foldl_keeps (fun t => t.2.ring = a.2.ring) f (fun t x h => by rw [hf, h]) l a rfl
@[simp] theorem ite_wards (c : Prop) [Decidable c] (a b : State) : (if c then a else b).wards = if c then a.wards else b.wards := by split <;> rfl
@[simp] theorem foldl_wards {β : Type} (f : State → β → State) (l : List β)
    (hf : ∀ s x, (f s x).wards = s.wards) (s : State) : (l.foldl f s).wards = s.wards :=
  foldl_keeps (fun t => t.wards = s.wards) f (fun t x h => by rw [hf, h]) l s rfl
@[simp] theorem foldl_snd_wards {α β : Type} (f : α × State → β → α × State) (l : List β)
    (hf : ∀ a x, (f a x).2.wards = a.2.wards) (a : α × State) : (l.foldl f a).2.wards = a.2.wards :=
  foldl_keeps (fun t => t.2.wards = a.2.wards) f (fun t x h => by rw [hf, h]) l a rfl
@[simp] theorem ite_cap (c : Prop) [Decidable c] (a b : State) : (if c then a else b).cap = if c then a.cap else b.cap := by split <;> rfl
@[simp] theorem foldl_cap {β : Type} (f : State → β → State) (l : List β)
    (hf : ∀ s x, (f s x).cap = s.cap) (s : State) : (l.foldl f s).cap = s.cap :=
  foldl_keeps (fun t => t.cap = s.cap) f (fun t x h => by rw [hf, h]) l s rfl
@[simp] theorem foldl_snd_cap {α β : Type} (f : α × State → β → α × State) (l : List β)
    (hf : ∀ a x, (f a x).2.cap = a.2.cap) (a : α × State) : (l.foldl f a).2.cap = a.2.cap :=
  foldl_keeps (fun t => t.2.cap = a.2.cap) f (fun t x h => by rw [hf, h]) l a rfl
@[simp] theorem ite_cache (c : Prop) [Decidable c] (a b : State) : (if c then a else b).cache = if c then a.cache else b.cache := by split <;> rfl
@[simp] theorem foldl_cache {β : Type} (f : State → β → State) (l : List β)
    (hf : ∀ s x, (f s x).cache = s.cache) (s : State) : (l.foldl f s).cache = s.cache :=
  foldl_keeps (fun t => t.cache = s.cache) f (fun t x h => by rw [hf, h]) l s rfl
@[simp] theorem foldl_snd_cache {α β : Type} (f : α × State → β → α × State) (l : List β)
    (hf : ∀ a x, (f a x).2.cache = a.2.cache) (a : α × State) : (l.foldl f a).2.cache = a.2.cache :=
  foldl_keeps (fun t => t.2.cache = a.2.cache) f (fun t x h => by rw [hf, h]) l a rfl
@[simp] theorem ite_kcc (c : Prop) [Decidable c] (a b : State) : (if c then a else b).kcc = if c then a.kcc else b.kcc := by split <;> rfl
@[simp] theorem foldl_kcc {β : Type} (f : State → β → State) (l : List β)
    (hf : ∀ s x, (f s x).kcc = s.kcc) (s : State) : (l.foldl f s).kcc = s.kcc :=
  foldl_keeps (fun t => t.kcc = s.kcc) f (fun t x h => by rw [hf, h]) l s rfl
@[simp] theorem foldl_snd_kcc {α β : Type} (f : α × State → β → α × State) (l : List β)
    (hf : ∀ a x, (f a x).2.kcc = a.2.kcc) (a : α × State) : (l.foldl f a).2.kcc = a.2.kcc :=
  foldl_keeps (fun t => t.2.kcc = a.2.kcc) f (fun t x h => by rw [hf, h]) l a rfl
@[simp] theorem ite_ledger (c : Prop) [Decidable c] (a b : State) : (if c then a else b).ledger = if c then a.ledger else b.ledger := by split <;> rfl
@[simp] theorem foldl_ledger {β : Type} (f : State → β → State) (l : List β)
    (hf : ∀ s x, (f s x).ledger = s.ledger) (s : State) : (l.foldl f s).ledger = s.ledger :=
  foldl_keeps (fun t => t.ledger = s.ledger) f (fun t x h => by rw [hf, h]) l s rfl
@[simp] theorem foldl_snd_ledger {α β : Type} (f : α × State → β → α × State) (l : List β)
    (hf : ∀ a x, (f a x).2.ledger = a.2.ledger) (a : α × State) : (l.foldl f a).2.ledger = a.2.ledger :=
  foldl_keeps (fun t => t.2.ledger = a.2.ledger) f (fun t x h => by rw [hf, h]) l a rfl
@[simp] theorem ite_groups (c : Prop) [Decidable c] (a b : State) : (if c then a else b).groups = if c then a.groups else b.groups := by split <;> rfl
@[simp] theorem foldl_groups {β : Type} (f : State → β → State) (l : List β)
    (hf : ∀ s x, (f s x).groups = s.groups) (s : State) : (l.foldl f s).groups = s.groups :=
  foldl_keeps (fun t => t.groups = s.groups) f (fun t x h => by rw [hf, h]) l s rfl
@[simp] theorem foldl_snd_groups {α β : Type} (f : α × State → β → α × State) (l : List β)
    (hf : ∀ a x, (f a x).2.groups = a.2.groups) (a : α × State) : (l.foldl f a).2.groups = a.2.groups :=
  foldl_keeps (fun t => t.2.groups = a.2.groups) f (fun t x h => by rw [hf, h]) l a rfl
@[simp] theorem ite_cells (c : Prop) [Decidable c] (a b : State) : (if c then a else b).cells = if c then a.cells else b.cells := by split <;> rfl
@[simp] theorem foldl_cells {β : Type} (f : State → β → State) (l : List β)
    (hf : ∀ s x, (f s x).cells = s.cells) (s : State) : (l.foldl f s).cells = s.cells :=
  foldl_keeps (fun t => t.cells = s.cells) f (fun t x h => by rw [hf, h]) l s rfl
@[simp] theorem foldl_snd_cells {α β : Type} (f : α × State → β → α × State) (l : List β)
    (hf : ∀ a x, (f a x).2.cells = a.2.cells) (a : α × State) : (l.foldl f a).2.cells = a.2.cells :=
  foldl_keeps (fun t => t.2.cells = a.2.cells) f (fun t x h => by rw [hf, h]) l a rfl
@[simp] theorem ite_reads (c : Prop) [Decidable c] (a b : State) : (if c then a else b).reads = if c then a.reads else b.reads := by split <;> rfl
@[simp] theorem foldl_reads {β : Type} (f : State → β → State) (l : List β)
    (hf : ∀ s x, (f s x).reads = s.reads) (s : State) : (l.foldl f s).reads = s.reads :=
  foldl_keeps (fun t => t.reads = s.reads) f (fun t x h => by rw [hf, h]) l s rfl
@[simp] theorem foldl_snd_reads {α β : Type} (f : α × State → β → α × State) (l : List β)
    (hf : ∀ a x, (f a x).2.reads = a.2.reads) (a : α × State) : (l.foldl f a).2.reads = a.2.reads :=
  foldl_keeps (fun t => t.2.reads = a.2.reads) f (fun t x h => by rw [hf, h]) l a rfl
@[simp] theorem ite_recoveries (c : Prop) [Decidable c] (a b : State) : (if c then a else b).recoveries = if c then a.recoveries else b.recoveries := by split <;> rfl
@[simp] theorem foldl_recoveries {β : Type} (f : State → β → State) (l : List β)
    (hf : ∀ s x, (f s x).recoveries = s.recoveries) (s : State) : (l.foldl f s).recoveries = s.recoveries :=
  foldl_keeps (fun t => t.recoveries = s.recoveries) f (fun t x h => by rw [hf, h]) l s rfl
@[simp] theorem foldl_snd_recoveries {α β : Type} (f : α × State → β → α × State) (l : List β)
    (hf : ∀ a x, (f a x).2.recoveries = a.2.recoveries) (a : α × State) : (l.foldl f a).2.recoveries = a.2.recoveries :=
  foldl_keeps (fun t => t.2.recoveries = a.2.recoveries) f (fun t x h => by rw [hf, h]) l a rfl
@[simp] theorem ite_nextRead (c : Prop) [Decidable c] (a b : State) : (if c then a else b).nextRead = if c then a.nextRead else b.nextRead := by split <;> rfl
@[simp] theorem foldl_nextRead {β : Type} (f : State → β → State) (l : List β)
    (hf : ∀ s x, (f s x).nextRead = s.nextRead) (s : State) : (l.foldl f s).nextRead = s.nextRead :=
  foldl_keeps (fun t => t.nextRead = s.nextRead) f (fun t x h => by rw [hf, h]) l s rfl
@[simp] theorem foldl_snd_nextRead {α β : Type} (f : α × State → β → α × State) (l : List β)
    (hf : ∀ a x, (f a x).2.nextRead = a.2.nextRead) (a : α × State) : (l.foldl f a).2.nextRead = a.2.nextRead :=
  foldl_keeps (fun t => t.2.nextRead = a.2.nextRead) f (fun t x h => by rw [hf, h]) l a rfl
@[simp] theorem ite_obs (c : Prop) [Decidable c] (a b : State) : (if c then a else b).obs = if c then a.obs else b.obs := by split <;> rfl
@[simp] theorem foldl_obs {β : Type} (f : State → β → State) (l : List β)
    (hf : ∀ s x, (f s x).obs = s.obs) (s : State) : (l.foldl f s).obs = s.obs :=
  foldl_keeps (fun t => t.obs = s.obs) f (fun t x h => by rw [hf, h]) l s rfl
@[simp] theorem foldl_snd_obs {α β : Type} (f : α × State → β → α × State) (l : List β)
    (hf : ∀ a x, (f a x).2.obs = a.2.obs) (a : α × State) : (l.foldl f a).2.obs = a.2.obs :=
  foldl_keeps (fun t => t.2.obs = a.2.obs) f (fun t x h => by rw [hf, h]) l a rfl
@[simp] theorem ite_pin (c : Prop) [Decidable c] (a b : State) : (if c then a else b).pin = if c then a.pin else b.pin := by split <;> rfl
@[simp] theorem foldl_pin {β : Type} (f : State → β → State) (l : List β)
    (hf : ∀ s x, (f s x).pin = s.pin) (s : State) : (l.foldl f s).pin = s.pin :=
  foldl_keeps (fun t => t.pin = s.pin) f (fun t x h => by rw [hf, h]) l s rfl
@[simp] theorem foldl_snd_pin {α β : Type} (f : α × State → β → α × State) (l : List β)
    (hf : ∀ a x, (f a x).2.pin = a.2.pin) (a : α × State) : (l.foldl f a).2.pin = a.2.pin :=
  foldl_keeps (fun t => t.2.pin = a.2.pin) f (fun t x h => by rw [hf, h]) l a rfl
@[simp] theorem ite_regs (c : Prop) [Decidable c] (a b : State) : (if c then a else b).regs = if c then a.regs else b.regs := by split <;> rfl
@[simp] theorem foldl_regs {β : Type} (f : State → β → State) (l : List β)
    (hf : ∀ s x, (f s x).regs = s.regs) (s : State) : (l.foldl f s).regs = s.regs :=
  foldl_keeps (fun t => t.regs = s.regs) f (fun t x h => by rw [hf, h]) l s rfl
@[simp] theorem foldl_snd_regs {α β : Type} (f : α × State → β → α × State) (l : List β)
    (hf : ∀ a x, (f a x).2.regs = a.2.regs) (a : α × State) : (l.foldl f a).2.regs = a.2.regs :=
  foldl_keeps (fun t => t.2.regs = a.2.regs) f (fun t x h => by rw [hf, h]) l a rfl
@[simp] theorem ite_fresh (c : Prop) [Decidable c] (a b : State) : (if c then a else b).fresh = if c then a.fresh else b.fresh := by split <;> rfl
@[simp] theorem foldl_fresh {β : Type} (f : State → β → State) (l : List β)
    (hf : ∀ s x, (f s x).fresh = s.fresh) (s : State) : (l.foldl f s).fresh = s.fresh :=
  foldl_keeps (fun t => t.fresh = s.fresh) f (fun t x h => by rw [hf, h]) l s rfl
@[simp] theorem foldl_snd_fresh {α β : Type} (f : α × State → β → α × State) (l : List β)
    (hf : ∀ a x, (f a x).2.fresh = a.2.fresh) (a : α × State) : (l.foldl f a).2.fresh = a.2.fresh :=
  foldl_keeps (fun t => t.2.fresh = a.2.fresh) f (fun t x h => by rw [hf, h]) l a rfl
end Sys2Proof.Machine
end

