-- ==== Sys2Proof/Laws/FrameOps.lean ====
section
/-! SUPPORT. Frames of the register operations, the named operations, the operand checks and the Ledger's records: what each operation leaves as it was. -/

set_option linter.unusedTactic false
set_option linter.unreachableTactic false

namespace Sys2Proof.Machine

@[simp] theorem State.setReg_frame (s : State) (a : Nat) (v : Word) :
    (State.setReg s a v).sys = s.sys ∧ (State.setReg s a v).clk = s.clk ∧ (State.setReg s a v).sec = s.sec ∧
    (State.setReg s a v).pwr = s.pwr ∧ (State.setReg s a v).host = s.host ∧ (State.setReg s a v).ring = s.ring ∧
    (State.setReg s a v).wards = s.wards ∧ (State.setReg s a v).cap = s.cap ∧ (State.setReg s a v).cache = s.cache ∧
    (State.setReg s a v).kcc = s.kcc ∧ (State.setReg s a v).ledger = s.ledger ∧ (State.setReg s a v).groups = s.groups ∧
    (State.setReg s a v).cells = s.cells ∧ (State.setReg s a v).reads = s.reads ∧
    (State.setReg s a v).recoveries = s.recoveries ∧ (State.setReg s a v).nextRead = s.nextRead ∧
    (State.setReg s a v).obs = s.obs ∧ (State.setReg s a v).pin = s.pin ∧ (State.setReg s a v).fresh = s.fresh := by
  unfold State.setReg; (repeat' split) <;> simp [*]
@[simp] theorem latchReject_frame (l : List (BitVec 18 × Word)) (s : State) :
    (latchReject l s).clk = s.clk ∧ (latchReject l s).sec = s.sec ∧ (latchReject l s).pwr = s.pwr ∧
    (latchReject l s).host = s.host ∧ (latchReject l s).ring = s.ring ∧ (latchReject l s).wards = s.wards ∧
    (latchReject l s).cap = s.cap ∧ (latchReject l s).cache = s.cache ∧ (latchReject l s).kcc = s.kcc ∧
    (latchReject l s).ledger = s.ledger ∧ (latchReject l s).groups = s.groups ∧ (latchReject l s).cells = s.cells ∧
    (latchReject l s).reads = s.reads ∧ (latchReject l s).recoveries = s.recoveries ∧
    (latchReject l s).nextRead = s.nextRead ∧ (latchReject l s).obs = s.obs ∧ (latchReject l s).pin = s.pin ∧
    (latchReject l s).regs = s.regs ∧ (latchReject l s).fresh = s.fresh := by
  unfold latchReject; (repeat' split) <;> simp [*]
@[simp] theorem reject_frame (a : Nat) (v : Word) (s : State) :
    (reject a v s).clk = s.clk ∧ (reject a v s).sec = s.sec ∧ (reject a v s).pwr = s.pwr ∧ (reject a v s).host = s.host ∧
    (reject a v s).ring = s.ring ∧ (reject a v s).wards = s.wards ∧ (reject a v s).cap = s.cap ∧
    (reject a v s).cache = s.cache ∧ (reject a v s).kcc = s.kcc ∧ (reject a v s).ledger = s.ledger ∧
    (reject a v s).groups = s.groups ∧ (reject a v s).cells = s.cells ∧ (reject a v s).reads = s.reads ∧
    (reject a v s).recoveries = s.recoveries ∧ (reject a v s).nextRead = s.nextRead ∧ (reject a v s).obs = s.obs ∧
    (reject a v s).pin = s.pin ∧ (reject a v s).regs = s.regs ∧ (reject a v s).fresh = s.fresh := by
  simp [reject]
@[simp] theorem State.setWard_frame (s : State) (w : WardId) (x : Ward) :
    (State.setWard s w x).sys = s.sys ∧ (State.setWard s w x).clk = s.clk ∧ (State.setWard s w x).sec = s.sec ∧
    (State.setWard s w x).pwr = s.pwr ∧ (State.setWard s w x).host = s.host ∧ (State.setWard s w x).ring = s.ring ∧
    (State.setWard s w x).cap = s.cap ∧ (State.setWard s w x).cache = s.cache ∧ (State.setWard s w x).kcc = s.kcc ∧
    (State.setWard s w x).ledger = s.ledger ∧ (State.setWard s w x).groups = s.groups ∧
    (State.setWard s w x).cells = s.cells ∧ (State.setWard s w x).reads = s.reads ∧
    (State.setWard s w x).recoveries = s.recoveries ∧ (State.setWard s w x).nextRead = s.nextRead ∧
    (State.setWard s w x).obs = s.obs ∧ (State.setWard s w x).pin = s.pin ∧ (State.setWard s w x).regs = s.regs ∧
    (State.setWard s w x).fresh = s.fresh := by
  simp [State.setWard]
@[simp] theorem State.setGroup_frame (s : State) (g : GroupId) (x : Group) :
    (State.setGroup s g x).sys = s.sys ∧ (State.setGroup s g x).clk = s.clk ∧ (State.setGroup s g x).sec = s.sec ∧
    (State.setGroup s g x).pwr = s.pwr ∧ (State.setGroup s g x).host = s.host ∧ (State.setGroup s g x).ring = s.ring ∧
    (State.setGroup s g x).wards = s.wards ∧ (State.setGroup s g x).cap = s.cap ∧ (State.setGroup s g x).cache = s.cache ∧
    (State.setGroup s g x).kcc = s.kcc ∧ (State.setGroup s g x).ledger = s.ledger ∧
    (State.setGroup s g x).cells = s.cells ∧ (State.setGroup s g x).reads = s.reads ∧
    (State.setGroup s g x).recoveries = s.recoveries ∧ (State.setGroup s g x).nextRead = s.nextRead ∧
    (State.setGroup s g x).obs = s.obs ∧ (State.setGroup s g x).pin = s.pin ∧ (State.setGroup s g x).regs = s.regs ∧
    (State.setGroup s g x).fresh = s.fresh := by
  simp [State.setGroup]
@[simp] theorem State.setCell_frame (s : State) (c : CellId) (x : Cell) :
    (State.setCell s c x).sys = s.sys ∧ (State.setCell s c x).clk = s.clk ∧ (State.setCell s c x).sec = s.sec ∧
    (State.setCell s c x).pwr = s.pwr ∧ (State.setCell s c x).host = s.host ∧ (State.setCell s c x).ring = s.ring ∧
    (State.setCell s c x).wards = s.wards ∧ (State.setCell s c x).cap = s.cap ∧ (State.setCell s c x).cache = s.cache ∧
    (State.setCell s c x).kcc = s.kcc ∧ (State.setCell s c x).ledger = s.ledger ∧
    (State.setCell s c x).groups = s.groups ∧ (State.setCell s c x).reads = s.reads ∧
    (State.setCell s c x).recoveries = s.recoveries ∧ (State.setCell s c x).nextRead = s.nextRead ∧
    (State.setCell s c x).obs = s.obs ∧ (State.setCell s c x).pin = s.pin ∧ (State.setCell s c x).regs = s.regs ∧
    (State.setCell s c x).fresh = s.fresh := by
  simp [State.setCell]
@[simp] theorem State.setPort_frame (s : State) (p : PortId) (x : Port) :
    (State.setPort s p x).sys = s.sys ∧ (State.setPort s p x).clk = s.clk ∧ (State.setPort s p x).sec = s.sec ∧
    (State.setPort s p x).pwr = s.pwr ∧ (State.setPort s p x).host = s.host ∧ (State.setPort s p x).ring = s.ring ∧
    (State.setPort s p x).wards = s.wards ∧ (State.setPort s p x).cache = s.cache ∧ (State.setPort s p x).kcc = s.kcc ∧
    (State.setPort s p x).ledger = s.ledger ∧ (State.setPort s p x).groups = s.groups ∧
    (State.setPort s p x).cells = s.cells ∧ (State.setPort s p x).reads = s.reads ∧
    (State.setPort s p x).recoveries = s.recoveries ∧ (State.setPort s p x).nextRead = s.nextRead ∧
    (State.setPort s p x).obs = s.obs ∧ (State.setPort s p x).pin = s.pin ∧ (State.setPort s p x).regs = s.regs ∧
    (State.setPort s p x).fresh = s.fresh := by
  simp [State.setPort]
@[simp] theorem State.setTumb_frame (s : State) (i : Nat) (e : TumbEntry) :
    (State.setTumb s i e).sys = s.sys ∧ (State.setTumb s i e).clk = s.clk ∧ (State.setTumb s i e).sec = s.sec ∧
    (State.setTumb s i e).pwr = s.pwr ∧ (State.setTumb s i e).host = s.host ∧ (State.setTumb s i e).ring = s.ring ∧
    (State.setTumb s i e).wards = s.wards ∧ (State.setTumb s i e).cache = s.cache ∧ (State.setTumb s i e).kcc = s.kcc ∧
    (State.setTumb s i e).ledger = s.ledger ∧ (State.setTumb s i e).groups = s.groups ∧
    (State.setTumb s i e).cells = s.cells ∧ (State.setTumb s i e).reads = s.reads ∧
    (State.setTumb s i e).recoveries = s.recoveries ∧ (State.setTumb s i e).nextRead = s.nextRead ∧
    (State.setTumb s i e).obs = s.obs ∧ (State.setTumb s i e).pin = s.pin ∧ (State.setTumb s i e).regs = s.regs ∧
    (State.setTumb s i e).fresh = s.fresh := by
  simp [State.setTumb]
@[simp] theorem State.updWard_frame (s : State) (w : WardId) (f : Ward → Ward) :
    (State.updWard s w f).sys = s.sys ∧ (State.updWard s w f).clk = s.clk ∧ (State.updWard s w f).sec = s.sec ∧
    (State.updWard s w f).pwr = s.pwr ∧ (State.updWard s w f).host = s.host ∧ (State.updWard s w f).ring = s.ring ∧
    (State.updWard s w f).cap = s.cap ∧ (State.updWard s w f).cache = s.cache ∧ (State.updWard s w f).kcc = s.kcc ∧
    (State.updWard s w f).ledger = s.ledger ∧ (State.updWard s w f).groups = s.groups ∧
    (State.updWard s w f).cells = s.cells ∧ (State.updWard s w f).reads = s.reads ∧
    (State.updWard s w f).recoveries = s.recoveries ∧ (State.updWard s w f).nextRead = s.nextRead ∧
    (State.updWard s w f).obs = s.obs ∧ (State.updWard s w f).pin = s.pin ∧ (State.updWard s w f).regs = s.regs ∧
    (State.updWard s w f).fresh = s.fresh := by
  simp [State.updWard]
@[simp] theorem State.updCell_frame (s : State) (c : CellId) (f : Cell → Cell) :
    (State.updCell s c f).sys = s.sys ∧ (State.updCell s c f).clk = s.clk ∧ (State.updCell s c f).sec = s.sec ∧
    (State.updCell s c f).pwr = s.pwr ∧ (State.updCell s c f).host = s.host ∧ (State.updCell s c f).ring = s.ring ∧
    (State.updCell s c f).wards = s.wards ∧ (State.updCell s c f).cap = s.cap ∧ (State.updCell s c f).cache = s.cache ∧
    (State.updCell s c f).kcc = s.kcc ∧ (State.updCell s c f).ledger = s.ledger ∧
    (State.updCell s c f).groups = s.groups ∧ (State.updCell s c f).reads = s.reads ∧
    (State.updCell s c f).recoveries = s.recoveries ∧ (State.updCell s c f).nextRead = s.nextRead ∧
    (State.updCell s c f).obs = s.obs ∧ (State.updCell s c f).pin = s.pin ∧ (State.updCell s c f).regs = s.regs ∧
    (State.updCell s c f).fresh = s.fresh := by
  simp [State.updCell]
@[simp] theorem State.updServo_frame (s : State) (c : CellId) (f : Servo → Servo) :
    (State.updServo s c f).sys = s.sys ∧ (State.updServo s c f).clk = s.clk ∧ (State.updServo s c f).sec = s.sec ∧
    (State.updServo s c f).pwr = s.pwr ∧ (State.updServo s c f).host = s.host ∧ (State.updServo s c f).ring = s.ring ∧
    (State.updServo s c f).wards = s.wards ∧ (State.updServo s c f).cap = s.cap ∧ (State.updServo s c f).cache = s.cache ∧
    (State.updServo s c f).kcc = s.kcc ∧ (State.updServo s c f).ledger = s.ledger ∧
    (State.updServo s c f).groups = s.groups ∧ (State.updServo s c f).reads = s.reads ∧
    (State.updServo s c f).recoveries = s.recoveries ∧ (State.updServo s c f).nextRead = s.nextRead ∧
    (State.updServo s c f).obs = s.obs ∧ (State.updServo s c f).pin = s.pin ∧ (State.updServo s c f).regs = s.regs ∧
    (State.updServo s c f).fresh = s.fresh := by
  simp [State.updServo]
@[simp] theorem State.updArm_frame (s : State) (c : CellId) (f : ArmLink → ArmLink) :
    (State.updArm s c f).sys = s.sys ∧ (State.updArm s c f).clk = s.clk ∧ (State.updArm s c f).sec = s.sec ∧
    (State.updArm s c f).pwr = s.pwr ∧ (State.updArm s c f).host = s.host ∧ (State.updArm s c f).ring = s.ring ∧
    (State.updArm s c f).wards = s.wards ∧ (State.updArm s c f).cap = s.cap ∧ (State.updArm s c f).cache = s.cache ∧
    (State.updArm s c f).kcc = s.kcc ∧ (State.updArm s c f).ledger = s.ledger ∧ (State.updArm s c f).groups = s.groups ∧
    (State.updArm s c f).reads = s.reads ∧ (State.updArm s c f).recoveries = s.recoveries ∧
    (State.updArm s c f).nextRead = s.nextRead ∧ (State.updArm s c f).obs = s.obs ∧ (State.updArm s c f).pin = s.pin ∧
    (State.updArm s c f).regs = s.regs ∧ (State.updArm s c f).fresh = s.fresh := by
  simp [State.updArm]
@[simp] theorem State.updGroup_frame (s : State) (g : GroupId) (f : Group → Group) :
    (State.updGroup s g f).sys = s.sys ∧ (State.updGroup s g f).clk = s.clk ∧ (State.updGroup s g f).sec = s.sec ∧
    (State.updGroup s g f).pwr = s.pwr ∧ (State.updGroup s g f).host = s.host ∧ (State.updGroup s g f).ring = s.ring ∧
    (State.updGroup s g f).wards = s.wards ∧ (State.updGroup s g f).cap = s.cap ∧ (State.updGroup s g f).cache = s.cache ∧
    (State.updGroup s g f).kcc = s.kcc ∧ (State.updGroup s g f).ledger = s.ledger ∧
    (State.updGroup s g f).cells = s.cells ∧ (State.updGroup s g f).reads = s.reads ∧
    (State.updGroup s g f).recoveries = s.recoveries ∧ (State.updGroup s g f).nextRead = s.nextRead ∧
    (State.updGroup s g f).obs = s.obs ∧ (State.updGroup s g f).pin = s.pin ∧ (State.updGroup s g f).regs = s.regs ∧
    (State.updGroup s g f).fresh = s.fresh := by
  simp [State.updGroup]
@[simp] theorem mark_frame (a : Nat) (k : Nat) (s : State) :
    (mark a k s).sys = s.sys ∧ (mark a k s).clk = s.clk ∧ (mark a k s).sec = s.sec ∧ (mark a k s).pwr = s.pwr ∧
    (mark a k s).host = s.host ∧ (mark a k s).ring = s.ring ∧ (mark a k s).wards = s.wards ∧ (mark a k s).cap = s.cap ∧
    (mark a k s).cache = s.cache ∧ (mark a k s).kcc = s.kcc ∧ (mark a k s).ledger = s.ledger ∧
    (mark a k s).groups = s.groups ∧ (mark a k s).cells = s.cells ∧ (mark a k s).reads = s.reads ∧
    (mark a k s).recoveries = s.recoveries ∧ (mark a k s).nextRead = s.nextRead ∧ (mark a k s).pin = s.pin ∧
    (mark a k s).regs = s.regs ∧ (mark a k s).fresh = s.fresh := by
  simp [mark]
@[simp] theorem unmark_frame (a : Nat) (k : Nat) (s : State) :
    (unmark a k s).sys = s.sys ∧ (unmark a k s).clk = s.clk ∧ (unmark a k s).sec = s.sec ∧ (unmark a k s).pwr = s.pwr ∧
    (unmark a k s).host = s.host ∧ (unmark a k s).ring = s.ring ∧ (unmark a k s).wards = s.wards ∧
    (unmark a k s).cap = s.cap ∧ (unmark a k s).cache = s.cache ∧ (unmark a k s).kcc = s.kcc ∧
    (unmark a k s).ledger = s.ledger ∧ (unmark a k s).groups = s.groups ∧ (unmark a k s).cells = s.cells ∧
    (unmark a k s).reads = s.reads ∧ (unmark a k s).recoveries = s.recoveries ∧ (unmark a k s).nextRead = s.nextRead ∧
    (unmark a k s).pin = s.pin ∧ (unmark a k s).regs = s.regs ∧ (unmark a k s).fresh = s.fresh := by
  simp [unmark]
@[simp] theorem bump_frame (off : Nat) (n : Nat) (s : State) :
    (bump off n s).sys = s.sys ∧ (bump off n s).clk = s.clk ∧ (bump off n s).sec = s.sec ∧ (bump off n s).pwr = s.pwr ∧
    (bump off n s).host = s.host ∧ (bump off n s).ring = s.ring ∧ (bump off n s).wards = s.wards ∧
    (bump off n s).cap = s.cap ∧ (bump off n s).cache = s.cache ∧ (bump off n s).kcc = s.kcc ∧
    (bump off n s).ledger = s.ledger ∧ (bump off n s).groups = s.groups ∧ (bump off n s).cells = s.cells ∧
    (bump off n s).reads = s.reads ∧ (bump off n s).recoveries = s.recoveries ∧ (bump off n s).nextRead = s.nextRead ∧
    (bump off n s).pin = s.pin ∧ (bump off n s).regs = s.regs ∧ (bump off n s).fresh = s.fresh := by
  simp [bump]
@[simp] theorem ppsOutAfter_frame (t0 : DWord) (s : State) :
    (ppsOutAfter t0 s).sys = s.sys ∧ (ppsOutAfter t0 s).sec = s.sec ∧ (ppsOutAfter t0 s).pwr = s.pwr ∧
    (ppsOutAfter t0 s).host = s.host ∧ (ppsOutAfter t0 s).ring = s.ring ∧ (ppsOutAfter t0 s).wards = s.wards ∧
    (ppsOutAfter t0 s).cap = s.cap ∧ (ppsOutAfter t0 s).cache = s.cache ∧ (ppsOutAfter t0 s).kcc = s.kcc ∧
    (ppsOutAfter t0 s).ledger = s.ledger ∧ (ppsOutAfter t0 s).groups = s.groups ∧ (ppsOutAfter t0 s).cells = s.cells ∧
    (ppsOutAfter t0 s).reads = s.reads ∧ (ppsOutAfter t0 s).recoveries = s.recoveries ∧
    (ppsOutAfter t0 s).nextRead = s.nextRead ∧ (ppsOutAfter t0 s).obs = s.obs ∧ (ppsOutAfter t0 s).pin = s.pin ∧
    (ppsOutAfter t0 s).regs = s.regs ∧ (ppsOutAfter t0 s).fresh = s.fresh := by
  simp [ppsOutAfter]
@[simp] theorem elapseBy_frame (p : Nat) (n : Nat) (s : State) :
    (elapseBy p n s).sys = s.sys ∧ (elapseBy p n s).sec = s.sec ∧ (elapseBy p n s).pwr = s.pwr ∧
    (elapseBy p n s).host = s.host ∧ (elapseBy p n s).ring = s.ring ∧ (elapseBy p n s).wards = s.wards ∧
    (elapseBy p n s).cap = s.cap ∧ (elapseBy p n s).cache = s.cache ∧ (elapseBy p n s).kcc = s.kcc ∧
    (elapseBy p n s).ledger = s.ledger ∧ (elapseBy p n s).groups = s.groups ∧ (elapseBy p n s).cells = s.cells ∧
    (elapseBy p n s).reads = s.reads ∧ (elapseBy p n s).recoveries = s.recoveries ∧
    (elapseBy p n s).nextRead = s.nextRead ∧ (elapseBy p n s).regs = s.regs ∧ (elapseBy p n s).fresh = s.fresh := by
  simp [elapseBy]
@[simp] theorem elapse_frame (n : Nat) (s : State) :
    (elapse n s).sys = s.sys ∧ (elapse n s).sec = s.sec ∧ (elapse n s).pwr = s.pwr ∧ (elapse n s).host = s.host ∧
    (elapse n s).ring = s.ring ∧ (elapse n s).wards = s.wards ∧ (elapse n s).cap = s.cap ∧ (elapse n s).cache = s.cache ∧
    (elapse n s).kcc = s.kcc ∧ (elapse n s).ledger = s.ledger ∧ (elapse n s).groups = s.groups ∧
    (elapse n s).cells = s.cells ∧ (elapse n s).reads = s.reads ∧ (elapse n s).recoveries = s.recoveries ∧
    (elapse n s).nextRead = s.nextRead ∧ (elapse n s).regs = s.regs ∧ (elapse n s).fresh = s.fresh := by
  simp [elapse]
@[simp] theorem elapseTo_frame (b : Nat) (s : State) :
    (elapseTo b s).sys = s.sys ∧ (elapseTo b s).sec = s.sec ∧ (elapseTo b s).pwr = s.pwr ∧ (elapseTo b s).host = s.host ∧
    (elapseTo b s).ring = s.ring ∧ (elapseTo b s).wards = s.wards ∧ (elapseTo b s).cap = s.cap ∧
    (elapseTo b s).cache = s.cache ∧ (elapseTo b s).kcc = s.kcc ∧ (elapseTo b s).ledger = s.ledger ∧
    (elapseTo b s).groups = s.groups ∧ (elapseTo b s).cells = s.cells ∧ (elapseTo b s).reads = s.reads ∧
    (elapseTo b s).recoveries = s.recoveries ∧ (elapseTo b s).nextRead = s.nextRead ∧ (elapseTo b s).regs = s.regs ∧
    (elapseTo b s).fresh = s.fresh := by
  simp [elapseTo]
@[simp] theorem wait_frame (n : Nat) (s : State) :
    (wait n s).sys = s.sys ∧ (wait n s).sec = s.sec ∧ (wait n s).pwr = s.pwr ∧ (wait n s).host = s.host ∧
    (wait n s).ring = s.ring ∧ (wait n s).wards = s.wards ∧ (wait n s).cap = s.cap ∧ (wait n s).cache = s.cache ∧
    (wait n s).kcc = s.kcc ∧ (wait n s).ledger = s.ledger ∧ (wait n s).groups = s.groups ∧ (wait n s).cells = s.cells ∧
    (wait n s).reads = s.reads ∧ (wait n s).recoveries = s.recoveries ∧ (wait n s).nextRead = s.nextRead ∧
    (wait n s).regs = s.regs ∧ (wait n s).fresh = s.fresh := by
  simp [wait]
@[simp] theorem console_frame (e : Event) (s : State) :
    (console e s).sys = s.sys ∧ (console e s).clk = s.clk ∧ (console e s).sec = s.sec ∧ (console e s).pwr = s.pwr ∧
    (console e s).host = s.host ∧ (console e s).ring = s.ring ∧ (console e s).wards = s.wards ∧
    (console e s).cap = s.cap ∧ (console e s).cache = s.cache ∧ (console e s).kcc = s.kcc ∧
    (console e s).ledger = s.ledger ∧ (console e s).groups = s.groups ∧ (console e s).cells = s.cells ∧
    (console e s).reads = s.reads ∧ (console e s).recoveries = s.recoveries ∧ (console e s).nextRead = s.nextRead ∧
    (console e s).obs = s.obs ∧ (console e s).regs = s.regs ∧ (console e s).fresh = s.fresh := by
  simp [console]
@[simp] theorem insertEvent_frame (i : Nat) (e : Event) (s : State) :
    (insertEvent i e s).sys = s.sys ∧ (insertEvent i e s).clk = s.clk ∧ (insertEvent i e s).sec = s.sec ∧
    (insertEvent i e s).pwr = s.pwr ∧ (insertEvent i e s).host = s.host ∧ (insertEvent i e s).ring = s.ring ∧
    (insertEvent i e s).wards = s.wards ∧ (insertEvent i e s).cap = s.cap ∧ (insertEvent i e s).cache = s.cache ∧
    (insertEvent i e s).kcc = s.kcc ∧ (insertEvent i e s).ledger = s.ledger ∧ (insertEvent i e s).groups = s.groups ∧
    (insertEvent i e s).cells = s.cells ∧ (insertEvent i e s).reads = s.reads ∧
    (insertEvent i e s).recoveries = s.recoveries ∧ (insertEvent i e s).nextRead = s.nextRead ∧
    (insertEvent i e s).regs = s.regs ∧ (insertEvent i e s).fresh = s.fresh := by
  simp [insertEvent]
@[simp] theorem joinEvent_frame (e : Event) (s : State) :
    (joinEvent e s).sys = s.sys ∧ (joinEvent e s).clk = s.clk ∧ (joinEvent e s).sec = s.sec ∧
    (joinEvent e s).pwr = s.pwr ∧ (joinEvent e s).host = s.host ∧ (joinEvent e s).ring = s.ring ∧
    (joinEvent e s).wards = s.wards ∧ (joinEvent e s).cap = s.cap ∧ (joinEvent e s).cache = s.cache ∧
    (joinEvent e s).kcc = s.kcc ∧ (joinEvent e s).ledger = s.ledger ∧ (joinEvent e s).groups = s.groups ∧
    (joinEvent e s).cells = s.cells ∧ (joinEvent e s).reads = s.reads ∧ (joinEvent e s).recoveries = s.recoveries ∧
    (joinEvent e s).nextRead = s.nextRead ∧ (joinEvent e s).regs = s.regs ∧ (joinEvent e s).fresh = s.fresh := by
  simp [joinEvent]
@[simp] theorem logEvent_frame (code : Nat) (index : Nat) (arg0 : Nat) (arg1 : Nat) (s : State) :
    (logEvent code index arg0 arg1 s).sys = s.sys ∧ (logEvent code index arg0 arg1 s).clk = s.clk ∧
    (logEvent code index arg0 arg1 s).sec = s.sec ∧ (logEvent code index arg0 arg1 s).pwr = s.pwr ∧
    (logEvent code index arg0 arg1 s).host = s.host ∧ (logEvent code index arg0 arg1 s).ring = s.ring ∧
    (logEvent code index arg0 arg1 s).wards = s.wards ∧ (logEvent code index arg0 arg1 s).cap = s.cap ∧
    (logEvent code index arg0 arg1 s).cache = s.cache ∧ (logEvent code index arg0 arg1 s).kcc = s.kcc ∧
    (logEvent code index arg0 arg1 s).ledger = s.ledger ∧ (logEvent code index arg0 arg1 s).groups = s.groups ∧
    (logEvent code index arg0 arg1 s).cells = s.cells ∧ (logEvent code index arg0 arg1 s).reads = s.reads ∧
    (logEvent code index arg0 arg1 s).recoveries = s.recoveries ∧
    (logEvent code index arg0 arg1 s).nextRead = s.nextRead ∧ (logEvent code index arg0 arg1 s).regs = s.regs ∧
    (logEvent code index arg0 arg1 s).fresh = s.fresh := by
  simp [logEvent]
@[simp] theorem answer_frame (r : Resp) (s : State) :
    (answer r s).sys = s.sys ∧ (answer r s).clk = s.clk ∧ (answer r s).sec = s.sec ∧ (answer r s).pwr = s.pwr ∧
    (answer r s).ring = s.ring ∧ (answer r s).wards = s.wards ∧ (answer r s).cap = s.cap ∧ (answer r s).cache = s.cache ∧
    (answer r s).kcc = s.kcc ∧ (answer r s).ledger = s.ledger ∧ (answer r s).groups = s.groups ∧
    (answer r s).cells = s.cells ∧ (answer r s).reads = s.reads ∧ (answer r s).recoveries = s.recoveries ∧
    (answer r s).nextRead = s.nextRead ∧ (answer r s).obs = s.obs ∧ (answer r s).pin = s.pin ∧
    (answer r s).regs = s.regs ∧ (answer r s).fresh = s.fresh := by
  simp [answer]
@[simp] theorem emit_frame (o : Out) (s : State) :
    (emit o s).sys = s.sys ∧ (emit o s).clk = s.clk ∧ (emit o s).sec = s.sec ∧ (emit o s).pwr = s.pwr ∧
    (emit o s).ring = s.ring ∧ (emit o s).wards = s.wards ∧ (emit o s).cap = s.cap ∧ (emit o s).cache = s.cache ∧
    (emit o s).kcc = s.kcc ∧ (emit o s).ledger = s.ledger ∧ (emit o s).groups = s.groups ∧ (emit o s).cells = s.cells ∧
    (emit o s).reads = s.reads ∧ (emit o s).recoveries = s.recoveries ∧ (emit o s).nextRead = s.nextRead ∧
    (emit o s).obs = s.obs ∧ (emit o s).pin = s.pin ∧ (emit o s).regs = s.regs ∧ (emit o s).fresh = s.fresh := by
  simp [emit]
@[simp] theorem sendMsix_frame (v : Nat) (s : State) :
    (sendMsix v s).sys = s.sys ∧ (sendMsix v s).clk = s.clk ∧ (sendMsix v s).sec = s.sec ∧ (sendMsix v s).pwr = s.pwr ∧
    (sendMsix v s).ring = s.ring ∧ (sendMsix v s).wards = s.wards ∧ (sendMsix v s).cap = s.cap ∧
    (sendMsix v s).cache = s.cache ∧ (sendMsix v s).kcc = s.kcc ∧ (sendMsix v s).ledger = s.ledger ∧
    (sendMsix v s).groups = s.groups ∧ (sendMsix v s).cells = s.cells ∧ (sendMsix v s).reads = s.reads ∧
    (sendMsix v s).recoveries = s.recoveries ∧ (sendMsix v s).nextRead = s.nextRead ∧ (sendMsix v s).obs = s.obs ∧
    (sendMsix v s).pin = s.pin ∧ (sendMsix v s).regs = s.regs ∧ (sendMsix v s).fresh = s.fresh := by
  simp [sendMsix]
@[simp] theorem fireVector_frame (v : Nat) (s : State) :
    (fireVector v s).sys = s.sys ∧ (fireVector v s).clk = s.clk ∧ (fireVector v s).sec = s.sec ∧
    (fireVector v s).pwr = s.pwr ∧ (fireVector v s).ring = s.ring ∧ (fireVector v s).wards = s.wards ∧
    (fireVector v s).cap = s.cap ∧ (fireVector v s).cache = s.cache ∧ (fireVector v s).kcc = s.kcc ∧
    (fireVector v s).ledger = s.ledger ∧ (fireVector v s).groups = s.groups ∧ (fireVector v s).cells = s.cells ∧
    (fireVector v s).reads = s.reads ∧ (fireVector v s).recoveries = s.recoveries ∧
    (fireVector v s).nextRead = s.nextRead ∧ (fireVector v s).obs = s.obs ∧ (fireVector v s).pin = s.pin ∧
    (fireVector v s).regs = s.regs ∧ (fireVector v s).fresh = s.fresh := by
  simp [fireVector]
@[simp] theorem joinPend_frame (c : Ctx) (s : State) :
    (joinPend c s).sys = s.sys ∧ (joinPend c s).clk = s.clk ∧ (joinPend c s).sec = s.sec ∧ (joinPend c s).pwr = s.pwr ∧
    (joinPend c s).ring = s.ring ∧ (joinPend c s).wards = s.wards ∧ (joinPend c s).cap = s.cap ∧
    (joinPend c s).cache = s.cache ∧ (joinPend c s).kcc = s.kcc ∧ (joinPend c s).ledger = s.ledger ∧
    (joinPend c s).groups = s.groups ∧ (joinPend c s).cells = s.cells ∧ (joinPend c s).reads = s.reads ∧
    (joinPend c s).recoveries = s.recoveries ∧ (joinPend c s).nextRead = s.nextRead ∧ (joinPend c s).obs = s.obs ∧
    (joinPend c s).pin = s.pin ∧ (joinPend c s).regs = s.regs ∧ (joinPend c s).fresh = s.fresh := by
  simp [joinPend]
@[simp] theorem addPend_frame (c : Ctx) (s : State) :
    (addPend c s).sys = s.sys ∧ (addPend c s).clk = s.clk ∧ (addPend c s).sec = s.sec ∧ (addPend c s).pwr = s.pwr ∧
    (addPend c s).ring = s.ring ∧ (addPend c s).wards = s.wards ∧ (addPend c s).cap = s.cap ∧
    (addPend c s).cache = s.cache ∧ (addPend c s).kcc = s.kcc ∧ (addPend c s).ledger = s.ledger ∧
    (addPend c s).groups = s.groups ∧ (addPend c s).cells = s.cells ∧ (addPend c s).reads = s.reads ∧
    (addPend c s).recoveries = s.recoveries ∧ (addPend c s).nextRead = s.nextRead ∧ (addPend c s).obs = s.obs ∧
    (addPend c s).pin = s.pin ∧ (addPend c s).regs = s.regs ∧ (addPend c s).fresh = s.fresh := by
  simp [addPend]
@[simp] theorem dropPend_frame (gone : Ctx → Bool) (s : State) :
    (dropPend gone s).sys = s.sys ∧ (dropPend gone s).clk = s.clk ∧ (dropPend gone s).sec = s.sec ∧
    (dropPend gone s).pwr = s.pwr ∧ (dropPend gone s).ring = s.ring ∧ (dropPend gone s).wards = s.wards ∧
    (dropPend gone s).cap = s.cap ∧ (dropPend gone s).cache = s.cache ∧ (dropPend gone s).kcc = s.kcc ∧
    (dropPend gone s).ledger = s.ledger ∧ (dropPend gone s).groups = s.groups ∧ (dropPend gone s).cells = s.cells ∧
    (dropPend gone s).reads = s.reads ∧ (dropPend gone s).recoveries = s.recoveries ∧
    (dropPend gone s).nextRead = s.nextRead ∧ (dropPend gone s).obs = s.obs ∧ (dropPend gone s).pin = s.pin ∧
    (dropPend gone s).regs = s.regs ∧ (dropPend gone s).fresh = s.fresh := by
  simp [dropPend]
@[simp] theorem State.setRing_frame (s : State) (c : Ctx) (r : Ring) :
    (State.setRing s c r).sys = s.sys ∧ (State.setRing s c r).clk = s.clk ∧ (State.setRing s c r).sec = s.sec ∧
    (State.setRing s c r).pwr = s.pwr ∧ (State.setRing s c r).host = s.host ∧ (State.setRing s c r).cap = s.cap ∧
    (State.setRing s c r).cache = s.cache ∧ (State.setRing s c r).kcc = s.kcc ∧ (State.setRing s c r).ledger = s.ledger ∧
    (State.setRing s c r).groups = s.groups ∧ (State.setRing s c r).cells = s.cells ∧
    (State.setRing s c r).reads = s.reads ∧ (State.setRing s c r).recoveries = s.recoveries ∧
    (State.setRing s c r).nextRead = s.nextRead ∧ (State.setRing s c r).obs = s.obs ∧ (State.setRing s c r).pin = s.pin ∧
    (State.setRing s c r).regs = s.regs ∧ (State.setRing s c r).fresh = s.fresh := by
  unfold State.setRing; (repeat' split) <;> simp [*]
@[simp] theorem aer_frame (k : Nat) (s : State) :
    (aer k s).sys = s.sys ∧ (aer k s).clk = s.clk ∧ (aer k s).sec = s.sec ∧ (aer k s).pwr = s.pwr ∧
    (aer k s).ring = s.ring ∧ (aer k s).wards = s.wards ∧ (aer k s).cap = s.cap ∧ (aer k s).cache = s.cache ∧
    (aer k s).kcc = s.kcc ∧ (aer k s).ledger = s.ledger ∧ (aer k s).groups = s.groups ∧ (aer k s).cells = s.cells ∧
    (aer k s).reads = s.reads ∧ (aer k s).recoveries = s.recoveries ∧ (aer k s).nextRead = s.nextRead ∧
    (aer k s).obs = s.obs ∧ (aer k s).pin = s.pin ∧ (aer k s).regs = s.regs ∧ (aer k s).fresh = s.fresh := by
  simp [aer]
@[simp] theorem aerRead_frame (w : ReadFail) (s : State) :
    (aerRead w s).sys = s.sys ∧ (aerRead w s).clk = s.clk ∧ (aerRead w s).sec = s.sec ∧ (aerRead w s).pwr = s.pwr ∧
    (aerRead w s).ring = s.ring ∧ (aerRead w s).wards = s.wards ∧ (aerRead w s).cap = s.cap ∧
    (aerRead w s).cache = s.cache ∧ (aerRead w s).kcc = s.kcc ∧ (aerRead w s).ledger = s.ledger ∧
    (aerRead w s).groups = s.groups ∧ (aerRead w s).cells = s.cells ∧ (aerRead w s).reads = s.reads ∧
    (aerRead w s).recoveries = s.recoveries ∧ (aerRead w s).nextRead = s.nextRead ∧ (aerRead w s).obs = s.obs ∧
    (aerRead w s).pin = s.pin ∧ (aerRead w s).regs = s.regs ∧ (aerRead w s).fresh = s.fresh := by
  unfold aerRead; (repeat' split) <;> simp [*]
@[simp] theorem putOut_frame (h : Held) (s : State) :
    (putOut h s).sys = s.sys ∧ (putOut h s).clk = s.clk ∧ (putOut h s).sec = s.sec ∧ (putOut h s).pwr = s.pwr ∧
    (putOut h s).ring = s.ring ∧ (putOut h s).wards = s.wards ∧ (putOut h s).cap = s.cap ∧ (putOut h s).cache = s.cache ∧
    (putOut h s).kcc = s.kcc ∧ (putOut h s).ledger = s.ledger ∧ (putOut h s).groups = s.groups ∧
    (putOut h s).cells = s.cells ∧ (putOut h s).reads = s.reads ∧ (putOut h s).recoveries = s.recoveries ∧
    (putOut h s).nextRead = s.nextRead ∧ (putOut h s).obs = s.obs ∧ (putOut h s).pin = s.pin ∧
    (putOut h s).regs = s.regs ∧ (putOut h s).fresh = s.fresh := by
  unfold putOut; (repeat' split) <;> simp [*]
@[simp] theorem send_frame (h : Held) (s : State) :
    (send h s).sys = s.sys ∧ (send h s).clk = s.clk ∧ (send h s).sec = s.sec ∧ (send h s).pwr = s.pwr ∧
    (send h s).ring = s.ring ∧ (send h s).wards = s.wards ∧ (send h s).cap = s.cap ∧ (send h s).cache = s.cache ∧
    (send h s).kcc = s.kcc ∧ (send h s).ledger = s.ledger ∧ (send h s).groups = s.groups ∧ (send h s).cells = s.cells ∧
    (send h s).reads = s.reads ∧ (send h s).recoveries = s.recoveries ∧ (send h s).nextRead = s.nextRead ∧
    (send h s).obs = s.obs ∧ (send h s).pin = s.pin ∧ (send h s).regs = s.regs ∧ (send h s).fresh = s.fresh := by
  unfold send; (repeat' split) <;> simp [*]
@[simp] theorem faultWard_frame (w : WardId) (cause : BitVec 2) (s : State) :
    (faultWard w cause s).sys = s.sys ∧ (faultWard w cause s).clk = s.clk ∧ (faultWard w cause s).sec = s.sec ∧
    (faultWard w cause s).pwr = s.pwr ∧ (faultWard w cause s).host = s.host ∧ (faultWard w cause s).ring = s.ring ∧
    (faultWard w cause s).cap = s.cap ∧ (faultWard w cause s).cache = s.cache ∧ (faultWard w cause s).kcc = s.kcc ∧
    (faultWard w cause s).ledger = s.ledger ∧ (faultWard w cause s).groups = s.groups ∧
    (faultWard w cause s).cells = s.cells ∧ (faultWard w cause s).reads = s.reads ∧
    (faultWard w cause s).recoveries = s.recoveries ∧ (faultWard w cause s).nextRead = s.nextRead ∧
    (faultWard w cause s).regs = s.regs ∧ (faultWard w cause s).fresh = s.fresh := by
  unfold faultWard; (repeat' split) <;> simp [*]
@[simp] theorem countMalformed_frame (c : Ctx) (status : Nat) (s : State) :
    (countMalformed c status s).sys = s.sys ∧ (countMalformed c status s).clk = s.clk ∧
    (countMalformed c status s).sec = s.sec ∧ (countMalformed c status s).pwr = s.pwr ∧
    (countMalformed c status s).host = s.host ∧ (countMalformed c status s).ring = s.ring ∧
    (countMalformed c status s).cap = s.cap ∧ (countMalformed c status s).cache = s.cache ∧
    (countMalformed c status s).kcc = s.kcc ∧ (countMalformed c status s).ledger = s.ledger ∧
    (countMalformed c status s).groups = s.groups ∧ (countMalformed c status s).cells = s.cells ∧
    (countMalformed c status s).reads = s.reads ∧ (countMalformed c status s).recoveries = s.recoveries ∧
    (countMalformed c status s).nextRead = s.nextRead ∧ (countMalformed c status s).regs = s.regs ∧
    (countMalformed c status s).fresh = s.fresh := by
  unfold countMalformed; (repeat' split) <;> simp [*]
@[simp] theorem postCompletion_frame (c : Ctx) (tag : Nat) (status : Nat) (orig : Nat) (detail : Nat) (chained : Bool) (s
    : State) :
    (postCompletion c tag status orig detail chained s).sys = s.sys ∧
    (postCompletion c tag status orig detail chained s).clk = s.clk ∧
    (postCompletion c tag status orig detail chained s).sec = s.sec ∧
    (postCompletion c tag status orig detail chained s).pwr = s.pwr ∧
    (postCompletion c tag status orig detail chained s).cap = s.cap ∧
    (postCompletion c tag status orig detail chained s).cache = s.cache ∧
    (postCompletion c tag status orig detail chained s).kcc = s.kcc ∧
    (postCompletion c tag status orig detail chained s).ledger = s.ledger ∧
    (postCompletion c tag status orig detail chained s).groups = s.groups ∧
    (postCompletion c tag status orig detail chained s).cells = s.cells ∧
    (postCompletion c tag status orig detail chained s).reads = s.reads ∧
    (postCompletion c tag status orig detail chained s).recoveries = s.recoveries ∧
    (postCompletion c tag status orig detail chained s).nextRead = s.nextRead ∧
    (postCompletion c tag status orig detail chained s).regs = s.regs ∧
    (postCompletion c tag status orig detail chained s).fresh = s.fresh := by
  simp [postCompletion]
@[simp] theorem State.setJob_frame (s : State) (j : Job) :
    (State.setJob s j).sys = s.sys ∧ (State.setJob s j).clk = s.clk ∧ (State.setJob s j).sec = s.sec ∧
    (State.setJob s j).pwr = s.pwr ∧ (State.setJob s j).host = s.host ∧ (State.setJob s j).wards = s.wards ∧
    (State.setJob s j).cap = s.cap ∧ (State.setJob s j).cache = s.cache ∧ (State.setJob s j).kcc = s.kcc ∧
    (State.setJob s j).ledger = s.ledger ∧ (State.setJob s j).groups = s.groups ∧ (State.setJob s j).cells = s.cells ∧
    (State.setJob s j).reads = s.reads ∧ (State.setJob s j).recoveries = s.recoveries ∧
    (State.setJob s j).nextRead = s.nextRead ∧ (State.setJob s j).obs = s.obs ∧ (State.setJob s j).pin = s.pin ∧
    (State.setJob s j).regs = s.regs ∧ (State.setJob s j).fresh = s.fresh := by
  simp [State.setJob]
@[simp] theorem State.dropJob_frame (s : State) (id : Nat) :
    (State.dropJob s id).sys = s.sys ∧ (State.dropJob s id).clk = s.clk ∧ (State.dropJob s id).sec = s.sec ∧
    (State.dropJob s id).pwr = s.pwr ∧ (State.dropJob s id).host = s.host ∧ (State.dropJob s id).wards = s.wards ∧
    (State.dropJob s id).cap = s.cap ∧ (State.dropJob s id).cache = s.cache ∧ (State.dropJob s id).kcc = s.kcc ∧
    (State.dropJob s id).ledger = s.ledger ∧ (State.dropJob s id).groups = s.groups ∧
    (State.dropJob s id).cells = s.cells ∧ (State.dropJob s id).reads = s.reads ∧
    (State.dropJob s id).recoveries = s.recoveries ∧ (State.dropJob s id).nextRead = s.nextRead ∧
    (State.dropJob s id).obs = s.obs ∧ (State.dropJob s id).pin = s.pin ∧ (State.dropJob s id).regs = s.regs ∧
    (State.dropJob s id).fresh = s.fresh := by
  simp [State.dropJob]
@[simp] theorem applyAdmin_frame (s : State) :
    (applyAdmin s).sys = s.sys ∧ (applyAdmin s).clk = s.clk ∧ (applyAdmin s).sec = s.sec ∧ (applyAdmin s).pwr = s.pwr ∧
    (applyAdmin s).host = s.host ∧ (applyAdmin s).wards = s.wards ∧ (applyAdmin s).cap = s.cap ∧
    (applyAdmin s).cache = s.cache ∧ (applyAdmin s).kcc = s.kcc ∧ (applyAdmin s).ledger = s.ledger ∧
    (applyAdmin s).groups = s.groups ∧ (applyAdmin s).cells = s.cells ∧ (applyAdmin s).reads = s.reads ∧
    (applyAdmin s).recoveries = s.recoveries ∧ (applyAdmin s).nextRead = s.nextRead ∧ (applyAdmin s).obs = s.obs ∧
    (applyAdmin s).pin = s.pin ∧ (applyAdmin s).regs = s.regs ∧ (applyAdmin s).fresh = s.fresh := by
  simp [applyAdmin]
@[simp] theorem applyWhenClear_frame (s : State) :
    (applyWhenClear s).sys = s.sys ∧ (applyWhenClear s).clk = s.clk ∧ (applyWhenClear s).sec = s.sec ∧
    (applyWhenClear s).pwr = s.pwr ∧ (applyWhenClear s).host = s.host ∧ (applyWhenClear s).wards = s.wards ∧
    (applyWhenClear s).cap = s.cap ∧ (applyWhenClear s).cache = s.cache ∧ (applyWhenClear s).kcc = s.kcc ∧
    (applyWhenClear s).ledger = s.ledger ∧ (applyWhenClear s).groups = s.groups ∧ (applyWhenClear s).cells = s.cells ∧
    (applyWhenClear s).reads = s.reads ∧ (applyWhenClear s).recoveries = s.recoveries ∧
    (applyWhenClear s).nextRead = s.nextRead ∧ (applyWhenClear s).obs = s.obs ∧ (applyWhenClear s).pin = s.pin ∧
    (applyWhenClear s).regs = s.regs ∧ (applyWhenClear s).fresh = s.fresh := by
  simp [applyWhenClear]
@[simp] theorem finish_frame (j : Job) (status : Nat) (orig : Nat) (detail : Nat) (s : State) :
    (finish j status orig detail s).sys = s.sys ∧ (finish j status orig detail s).clk = s.clk ∧
    (finish j status orig detail s).sec = s.sec ∧ (finish j status orig detail s).pwr = s.pwr ∧
    (finish j status orig detail s).cap = s.cap ∧ (finish j status orig detail s).cache = s.cache ∧
    (finish j status orig detail s).kcc = s.kcc ∧ (finish j status orig detail s).ledger = s.ledger ∧
    (finish j status orig detail s).groups = s.groups ∧ (finish j status orig detail s).cells = s.cells ∧
    (finish j status orig detail s).reads = s.reads ∧ (finish j status orig detail s).recoveries = s.recoveries ∧
    (finish j status orig detail s).nextRead = s.nextRead ∧ (finish j status orig detail s).regs = s.regs ∧
    (finish j status orig detail s).fresh = s.fresh := by
  simp [finish]
@[simp] theorem recordCommit_frame (c : Ctx) (n : BitVec 48) (status : Nat) (s : State) :
    (recordCommit c n status s).sys = s.sys ∧ (recordCommit c n status s).clk = s.clk ∧
    (recordCommit c n status s).sec = s.sec ∧ (recordCommit c n status s).pwr = s.pwr ∧
    (recordCommit c n status s).host = s.host ∧ (recordCommit c n status s).cap = s.cap ∧
    (recordCommit c n status s).cache = s.cache ∧ (recordCommit c n status s).kcc = s.kcc ∧
    (recordCommit c n status s).ledger = s.ledger ∧ (recordCommit c n status s).groups = s.groups ∧
    (recordCommit c n status s).cells = s.cells ∧ (recordCommit c n status s).reads = s.reads ∧
    (recordCommit c n status s).recoveries = s.recoveries ∧ (recordCommit c n status s).nextRead = s.nextRead ∧
    (recordCommit c n status s).obs = s.obs ∧ (recordCommit c n status s).pin = s.pin ∧
    (recordCommit c n status s).regs = s.regs ∧ (recordCommit c n status s).fresh = s.fresh := by
  unfold recordCommit; (repeat' split) <;> simp [*]
@[simp] theorem endSession_frame (s : State) :
    (endSession s).sys = s.sys ∧ (endSession s).clk = s.clk ∧ (endSession s).pwr = s.pwr ∧ (endSession s).cap = s.cap ∧
    (endSession s).cache = s.cache ∧ (endSession s).kcc = s.kcc ∧ (endSession s).ledger = s.ledger ∧
    (endSession s).groups = s.groups ∧ (endSession s).cells = s.cells ∧ (endSession s).reads = s.reads ∧
    (endSession s).recoveries = s.recoveries ∧ (endSession s).nextRead = s.nextRead ∧ (endSession s).regs = s.regs ∧
    (endSession s).fresh = s.fresh := by
  simp [endSession]
@[simp] theorem scatter_frame (a0 : List (DWord × Nat)) (a1 : Bytes) (s : State) :
    (scatter a0 a1 s).sys = s.sys ∧ (scatter a0 a1 s).clk = s.clk ∧ (scatter a0 a1 s).sec = s.sec ∧
    (scatter a0 a1 s).pwr = s.pwr ∧ (scatter a0 a1 s).ring = s.ring ∧ (scatter a0 a1 s).wards = s.wards ∧
    (scatter a0 a1 s).cap = s.cap ∧ (scatter a0 a1 s).cache = s.cache ∧ (scatter a0 a1 s).kcc = s.kcc ∧
    (scatter a0 a1 s).ledger = s.ledger ∧ (scatter a0 a1 s).groups = s.groups ∧ (scatter a0 a1 s).cells = s.cells ∧
    (scatter a0 a1 s).reads = s.reads ∧ (scatter a0 a1 s).recoveries = s.recoveries ∧
    (scatter a0 a1 s).nextRead = s.nextRead ∧ (scatter a0 a1 s).obs = s.obs ∧ (scatter a0 a1 s).pin = s.pin ∧
    (scatter a0 a1 s).regs = s.regs ∧ (scatter a0 a1 s).fresh = s.fresh := by
  induction a0 generalizing a1 s <;> simp [scatter, *]
@[simp] theorem freeWord_frame (s : State) :
    (freeWord s).2.sys = s.sys ∧ (freeWord s).2.clk = s.clk ∧ (freeWord s).2.sec = s.sec ∧ (freeWord s).2.pwr = s.pwr ∧
    (freeWord s).2.host = s.host ∧ (freeWord s).2.ring = s.ring ∧ (freeWord s).2.wards = s.wards ∧
    (freeWord s).2.cap = s.cap ∧ (freeWord s).2.cache = s.cache ∧ (freeWord s).2.kcc = s.kcc ∧
    (freeWord s).2.ledger = s.ledger ∧ (freeWord s).2.groups = s.groups ∧ (freeWord s).2.cells = s.cells ∧
    (freeWord s).2.reads = s.reads ∧ (freeWord s).2.recoveries = s.recoveries ∧ (freeWord s).2.nextRead = s.nextRead ∧
    (freeWord s).2.obs = s.obs ∧ (freeWord s).2.pin = s.pin ∧ (freeWord s).2.regs = s.regs := by
  simp [freeWord]
@[simp] theorem verdictDetail_frame (status : Nat) (d : Option Nat) (s : State) :
    (verdictDetail status d s).2.sys = s.sys ∧ (verdictDetail status d s).2.clk = s.clk ∧
    (verdictDetail status d s).2.sec = s.sec ∧ (verdictDetail status d s).2.pwr = s.pwr ∧
    (verdictDetail status d s).2.host = s.host ∧ (verdictDetail status d s).2.ring = s.ring ∧
    (verdictDetail status d s).2.wards = s.wards ∧ (verdictDetail status d s).2.cap = s.cap ∧
    (verdictDetail status d s).2.cache = s.cache ∧ (verdictDetail status d s).2.kcc = s.kcc ∧
    (verdictDetail status d s).2.ledger = s.ledger ∧ (verdictDetail status d s).2.groups = s.groups ∧
    (verdictDetail status d s).2.cells = s.cells ∧ (verdictDetail status d s).2.reads = s.reads ∧
    (verdictDetail status d s).2.recoveries = s.recoveries ∧ (verdictDetail status d s).2.nextRead = s.nextRead ∧
    (verdictDetail status d s).2.obs = s.obs ∧ (verdictDetail status d s).2.pin = s.pin ∧
    (verdictDetail status d s).2.regs = s.regs := by
  unfold verdictDetail; (repeat' split) <;> simp [*]
@[simp] theorem failWith_frame (j : Job) (status : Nat) (d : Option Nat) (s : State) :
    (failWith j status d s).sys = s.sys ∧ (failWith j status d s).clk = s.clk ∧ (failWith j status d s).sec = s.sec ∧
    (failWith j status d s).pwr = s.pwr ∧ (failWith j status d s).cap = s.cap ∧ (failWith j status d s).cache = s.cache ∧
    (failWith j status d s).kcc = s.kcc ∧ (failWith j status d s).ledger = s.ledger ∧
    (failWith j status d s).groups = s.groups ∧ (failWith j status d s).cells = s.cells ∧
    (failWith j status d s).reads = s.reads ∧ (failWith j status d s).recoveries = s.recoveries ∧
    (failWith j status d s).nextRead = s.nextRead ∧ (failWith j status d s).regs = s.regs := by
  simp [failWith]
@[simp] theorem admitJob_frame (j : Job) (s : State) :
    (admitJob j s).sys = s.sys ∧ (admitJob j s).clk = s.clk ∧ (admitJob j s).sec = s.sec ∧ (admitJob j s).pwr = s.pwr ∧
    (admitJob j s).cap = s.cap ∧ (admitJob j s).cache = s.cache ∧ (admitJob j s).kcc = s.kcc ∧
    (admitJob j s).ledger = s.ledger ∧ (admitJob j s).groups = s.groups ∧ (admitJob j s).cells = s.cells ∧
    (admitJob j s).reads = s.reads ∧ (admitJob j s).recoveries = s.recoveries ∧ (admitJob j s).nextRead = s.nextRead ∧
    (admitJob j s).regs = s.regs ∧ (admitJob j s).fresh = s.fresh := by
  unfold admitJob; (repeat' split) <;> simp [*]
@[simp] theorem State.updIntent_frame (s : State) (n : DWord) (f : Intent → Intent) :
    (State.updIntent s n f).sys = s.sys ∧ (State.updIntent s n f).clk = s.clk ∧ (State.updIntent s n f).sec = s.sec ∧
    (State.updIntent s n f).pwr = s.pwr ∧ (State.updIntent s n f).host = s.host ∧ (State.updIntent s n f).ring = s.ring ∧
    (State.updIntent s n f).wards = s.wards ∧ (State.updIntent s n f).cap = s.cap ∧
    (State.updIntent s n f).cache = s.cache ∧ (State.updIntent s n f).kcc = s.kcc ∧
    (State.updIntent s n f).groups = s.groups ∧ (State.updIntent s n f).cells = s.cells ∧
    (State.updIntent s n f).reads = s.reads ∧ (State.updIntent s n f).recoveries = s.recoveries ∧
    (State.updIntent s n f).nextRead = s.nextRead ∧ (State.updIntent s n f).obs = s.obs ∧
    (State.updIntent s n f).pin = s.pin ∧ (State.updIntent s n f).regs = s.regs ∧
    (State.updIntent s n f).fresh = s.fresh := by
  simp [State.updIntent]
@[simp] theorem putSlots_frame (a0 : Nat) (a1 : Nat) (a2 : Bytes) (s : State) :
    (putSlots a0 a1 a2 s).sys = s.sys ∧ (putSlots a0 a1 a2 s).clk = s.clk ∧ (putSlots a0 a1 a2 s).sec = s.sec ∧
    (putSlots a0 a1 a2 s).pwr = s.pwr ∧ (putSlots a0 a1 a2 s).host = s.host ∧ (putSlots a0 a1 a2 s).ring = s.ring ∧
    (putSlots a0 a1 a2 s).wards = s.wards ∧ (putSlots a0 a1 a2 s).cap = s.cap ∧ (putSlots a0 a1 a2 s).cache = s.cache ∧
    (putSlots a0 a1 a2 s).kcc = s.kcc ∧ (putSlots a0 a1 a2 s).groups = s.groups ∧ (putSlots a0 a1 a2 s).cells = s.cells ∧
    (putSlots a0 a1 a2 s).reads = s.reads ∧ (putSlots a0 a1 a2 s).recoveries = s.recoveries ∧
    (putSlots a0 a1 a2 s).nextRead = s.nextRead ∧ (putSlots a0 a1 a2 s).obs = s.obs ∧ (putSlots a0 a1 a2 s).pin = s.pin ∧
    (putSlots a0 a1 a2 s).regs = s.regs ∧ (putSlots a0 a1 a2 s).fresh = s.fresh := by
  induction a0 generalizing a1 a2 s <;> simp [putSlots, *]
@[simp] theorem moveRun_frame (old : Nat) (new : Nat) (s : State) :
    (moveRun old new s).sys = s.sys ∧ (moveRun old new s).clk = s.clk ∧ (moveRun old new s).sec = s.sec ∧
    (moveRun old new s).pwr = s.pwr ∧ (moveRun old new s).host = s.host ∧ (moveRun old new s).ring = s.ring ∧
    (moveRun old new s).wards = s.wards ∧ (moveRun old new s).cap = s.cap ∧ (moveRun old new s).cache = s.cache ∧
    (moveRun old new s).kcc = s.kcc ∧ (moveRun old new s).groups = s.groups ∧ (moveRun old new s).cells = s.cells ∧
    (moveRun old new s).reads = s.reads ∧ (moveRun old new s).recoveries = s.recoveries ∧
    (moveRun old new s).nextRead = s.nextRead ∧ (moveRun old new s).obs = s.obs ∧ (moveRun old new s).pin = s.pin ∧
    (moveRun old new s).regs = s.regs ∧ (moveRun old new s).fresh = s.fresh := by
  simp [moveRun]

end Sys2Proof.Machine
end

