-- ==== Sys2Proof/Laws/FrameStore.lean ====
section
/-! SUPPORT. Frames of the media side, capture, what COMMITs bring, the Ledger and the cell ports: what each operation leaves as it was. -/

set_option linter.unusedTactic false
set_option linter.unreachableTactic false
set_option linter.unnecessarySeqFocus false

namespace Sys2Proof.Machine

@[simp] theorem State.setLine_frame (s : State) (k : Nat) (l : Line) :
    (State.setLine s k l).sys = s.sys ∧ (State.setLine s k l).clk = s.clk ∧ (State.setLine s k l).sec = s.sec ∧
    (State.setLine s k l).pwr = s.pwr ∧ (State.setLine s k l).host = s.host ∧ (State.setLine s k l).ring = s.ring ∧
    (State.setLine s k l).wards = s.wards ∧ (State.setLine s k l).cap = s.cap ∧ (State.setLine s k l).kcc = s.kcc ∧
    (State.setLine s k l).ledger = s.ledger ∧ (State.setLine s k l).groups = s.groups ∧
    (State.setLine s k l).cells = s.cells ∧ (State.setLine s k l).reads = s.reads ∧
    (State.setLine s k l).recoveries = s.recoveries ∧ (State.setLine s k l).nextRead = s.nextRead ∧
    (State.setLine s k l).obs = s.obs ∧ (State.setLine s k l).pin = s.pin ∧ (State.setLine s k l).regs = s.regs ∧
    (State.setLine s k l).fresh = s.fresh := by
  simp [State.setLine]
@[simp] theorem touch_frame (k : Nat) (s : State) :
    (touch k s).sys = s.sys ∧ (touch k s).clk = s.clk ∧ (touch k s).sec = s.sec ∧ (touch k s).pwr = s.pwr ∧
    (touch k s).host = s.host ∧ (touch k s).ring = s.ring ∧ (touch k s).wards = s.wards ∧ (touch k s).cap = s.cap ∧
    (touch k s).kcc = s.kcc ∧ (touch k s).ledger = s.ledger ∧ (touch k s).groups = s.groups ∧
    (touch k s).cells = s.cells ∧ (touch k s).reads = s.reads ∧ (touch k s).recoveries = s.recoveries ∧
    (touch k s).nextRead = s.nextRead ∧ (touch k s).obs = s.obs ∧ (touch k s).pin = s.pin ∧ (touch k s).regs = s.regs ∧
    (touch k s).fresh = s.fresh := by
  simp [touch]
@[simp] theorem startEviction_frame (c : Nat) (set : Nat) (s : State) :
    (startEviction c set s).sys = s.sys ∧ (startEviction c set s).clk = s.clk ∧ (startEviction c set s).sec = s.sec ∧
    (startEviction c set s).pwr = s.pwr ∧ (startEviction c set s).host = s.host ∧ (startEviction c set s).ring = s.ring ∧
    (startEviction c set s).wards = s.wards ∧ (startEviction c set s).cap = s.cap ∧ (startEviction c set s).kcc = s.kcc ∧
    (startEviction c set s).ledger = s.ledger ∧ (startEviction c set s).groups = s.groups ∧
    (startEviction c set s).cells = s.cells ∧ (startEviction c set s).reads = s.reads ∧
    (startEviction c set s).recoveries = s.recoveries ∧ (startEviction c set s).nextRead = s.nextRead ∧
    (startEviction c set s).obs = s.obs ∧ (startEviction c set s).pin = s.pin ∧ (startEviction c set s).regs = s.regs ∧
    (startEviction c set s).fresh = s.fresh := by
  unfold startEviction; dsimp only; (repeat' split) <;> simp [*]
@[simp] theorem install_frame (c : Nat) (a : SubAddr) (x : Sub) (s : State) :
    (install c a x s).sys = s.sys ∧ (install c a x s).clk = s.clk ∧ (install c a x s).sec = s.sec ∧
    (install c a x s).pwr = s.pwr ∧ (install c a x s).host = s.host ∧ (install c a x s).ring = s.ring ∧
    (install c a x s).wards = s.wards ∧ (install c a x s).cap = s.cap ∧ (install c a x s).kcc = s.kcc ∧
    (install c a x s).ledger = s.ledger ∧ (install c a x s).groups = s.groups ∧ (install c a x s).cells = s.cells ∧
    (install c a x s).reads = s.reads ∧ (install c a x s).recoveries = s.recoveries ∧
    (install c a x s).nextRead = s.nextRead ∧ (install c a x s).pin = s.pin ∧ (install c a x s).regs = s.regs ∧
    (install c a x s).fresh = s.fresh := by
  unfold install; (repeat' split) <;> simp [*]
@[simp] theorem updCached_frame (a : SubAddr) (f : Sub → Option Sub) (s : State) :
    (updCached a f s).sys = s.sys ∧ (updCached a f s).clk = s.clk ∧ (updCached a f s).sec = s.sec ∧
    (updCached a f s).pwr = s.pwr ∧ (updCached a f s).host = s.host ∧ (updCached a f s).ring = s.ring ∧
    (updCached a f s).wards = s.wards ∧ (updCached a f s).cap = s.cap ∧ (updCached a f s).kcc = s.kcc ∧
    (updCached a f s).ledger = s.ledger ∧ (updCached a f s).groups = s.groups ∧ (updCached a f s).cells = s.cells ∧
    (updCached a f s).reads = s.reads ∧ (updCached a f s).recoveries = s.recoveries ∧
    (updCached a f s).nextRead = s.nextRead ∧ (updCached a f s).obs = s.obs ∧ (updCached a f s).pin = s.pin ∧
    (updCached a f s).regs = s.regs ∧ (updCached a f s).fresh = s.fresh := by
  unfold updCached; (repeat' split) <;> simp [*]
@[simp] theorem countHit_frame (a : SubAddr) (s : State) :
    (countHit a s).sys = s.sys ∧ (countHit a s).clk = s.clk ∧ (countHit a s).sec = s.sec ∧ (countHit a s).pwr = s.pwr ∧
    (countHit a s).host = s.host ∧ (countHit a s).ring = s.ring ∧ (countHit a s).wards = s.wards ∧
    (countHit a s).cap = s.cap ∧ (countHit a s).kcc = s.kcc ∧ (countHit a s).ledger = s.ledger ∧
    (countHit a s).groups = s.groups ∧ (countHit a s).cells = s.cells ∧ (countHit a s).reads = s.reads ∧
    (countHit a s).recoveries = s.recoveries ∧ (countHit a s).nextRead = s.nextRead ∧ (countHit a s).pin = s.pin ∧
    (countHit a s).regs = s.regs ∧ (countHit a s).fresh = s.fresh := by
  unfold countHit; (repeat' split) <;> simp [*]
@[simp] theorem retryWait_frame (w : Nat × SubAddr × Nat) (s : State) :
    (retryWait w s).sys = s.sys ∧ (retryWait w s).clk = s.clk ∧ (retryWait w s).sec = s.sec ∧
    (retryWait w s).pwr = s.pwr ∧ (retryWait w s).host = s.host ∧ (retryWait w s).ring = s.ring ∧
    (retryWait w s).wards = s.wards ∧ (retryWait w s).cap = s.cap ∧ (retryWait w s).kcc = s.kcc ∧
    (retryWait w s).ledger = s.ledger ∧ (retryWait w s).groups = s.groups ∧ (retryWait w s).cells = s.cells ∧
    (retryWait w s).reads = s.reads ∧ (retryWait w s).recoveries = s.recoveries ∧ (retryWait w s).nextRead = s.nextRead ∧
    (retryWait w s).pin = s.pin ∧ (retryWait w s).regs = s.regs ∧ (retryWait w s).fresh = s.fresh := by
  unfold retryWait; dsimp only; (repeat' split) <;> simp [*]
@[simp] theorem retryWaits_frame (s : State) :
    (retryWaits s).sys = s.sys ∧ (retryWaits s).clk = s.clk ∧ (retryWaits s).sec = s.sec ∧ (retryWaits s).pwr = s.pwr ∧
    (retryWaits s).host = s.host ∧ (retryWaits s).ring = s.ring ∧ (retryWaits s).wards = s.wards ∧
    (retryWaits s).cap = s.cap ∧ (retryWaits s).kcc = s.kcc ∧ (retryWaits s).ledger = s.ledger ∧
    (retryWaits s).groups = s.groups ∧ (retryWaits s).cells = s.cells ∧ (retryWaits s).reads = s.reads ∧
    (retryWaits s).recoveries = s.recoveries ∧ (retryWaits s).nextRead = s.nextRead ∧ (retryWaits s).pin = s.pin ∧
    (retryWaits s).regs = s.regs ∧ (retryWaits s).fresh = s.fresh := by
  simp [retryWaits]
@[simp] theorem policyOf_frame (g : GroupId) (space : Nat) (w : WardId) (s : State) :
    (policyOf g space w s).2.sys = s.sys ∧ (policyOf g space w s).2.clk = s.clk ∧ (policyOf g space w s).2.sec = s.sec ∧
    (policyOf g space w s).2.pwr = s.pwr ∧ (policyOf g space w s).2.host = s.host ∧
    (policyOf g space w s).2.ring = s.ring ∧ (policyOf g space w s).2.wards = s.wards ∧
    (policyOf g space w s).2.cap = s.cap ∧ (policyOf g space w s).2.cache = s.cache ∧
    (policyOf g space w s).2.kcc = s.kcc ∧ (policyOf g space w s).2.ledger = s.ledger ∧
    (policyOf g space w s).2.groups = s.groups ∧ (policyOf g space w s).2.cells = s.cells ∧
    (policyOf g space w s).2.reads = s.reads ∧ (policyOf g space w s).2.recoveries = s.recoveries ∧
    (policyOf g space w s).2.nextRead = s.nextRead ∧ (policyOf g space w s).2.pin = s.pin ∧
    (policyOf g space w s).2.regs = s.regs ∧ (policyOf g space w s).2.fresh = s.fresh := by
  unfold policyOf; dsimp only; (repeat' split) <;> simp [*]
@[simp] theorem refreshCap_frame (s : State) :
    (refreshCap s).sys = s.sys ∧ (refreshCap s).clk = s.clk ∧ (refreshCap s).sec = s.sec ∧ (refreshCap s).pwr = s.pwr ∧
    (refreshCap s).host = s.host ∧ (refreshCap s).ring = s.ring ∧ (refreshCap s).wards = s.wards ∧
    (refreshCap s).cap = s.cap ∧ (refreshCap s).cache = s.cache ∧ (refreshCap s).kcc = s.kcc ∧
    (refreshCap s).groups = s.groups ∧ (refreshCap s).cells = s.cells ∧ (refreshCap s).reads = s.reads ∧
    (refreshCap s).recoveries = s.recoveries ∧ (refreshCap s).nextRead = s.nextRead ∧ (refreshCap s).obs = s.obs ∧
    (refreshCap s).pin = s.pin ∧ (refreshCap s).regs = s.regs ∧ (refreshCap s).fresh = s.fresh := by
  unfold refreshCap; (repeat' split) <;> simp [*]
@[simp] theorem pumpPort_frame (s : State) :
    (pumpPort s).sys = s.sys ∧ (pumpPort s).clk = s.clk ∧ (pumpPort s).sec = s.sec ∧ (pumpPort s).pwr = s.pwr ∧
    (pumpPort s).host = s.host ∧ (pumpPort s).ring = s.ring ∧ (pumpPort s).wards = s.wards ∧ (pumpPort s).cap = s.cap ∧
    (pumpPort s).cache = s.cache ∧ (pumpPort s).kcc = s.kcc ∧ (pumpPort s).groups = s.groups ∧
    (pumpPort s).cells = s.cells ∧ (pumpPort s).reads = s.reads ∧ (pumpPort s).recoveries = s.recoveries ∧
    (pumpPort s).nextRead = s.nextRead ∧ (pumpPort s).obs = s.obs ∧ (pumpPort s).pin = s.pin ∧
    (pumpPort s).regs = s.regs ∧ (pumpPort s).fresh = s.fresh := by
  simp [pumpPort]
@[simp] theorem toPort_frame (l : List (PortItem × Nat)) (s : State) :
    (toPort l s).sys = s.sys ∧ (toPort l s).clk = s.clk ∧ (toPort l s).sec = s.sec ∧ (toPort l s).pwr = s.pwr ∧
    (toPort l s).host = s.host ∧ (toPort l s).ring = s.ring ∧ (toPort l s).wards = s.wards ∧ (toPort l s).cap = s.cap ∧
    (toPort l s).cache = s.cache ∧ (toPort l s).kcc = s.kcc ∧ (toPort l s).groups = s.groups ∧
    (toPort l s).cells = s.cells ∧ (toPort l s).reads = s.reads ∧ (toPort l s).recoveries = s.recoveries ∧
    (toPort l s).nextRead = s.nextRead ∧ (toPort l s).obs = s.obs ∧ (toPort l s).pin = s.pin ∧
    (toPort l s).regs = s.regs ∧ (toPort l s).fresh = s.fresh := by
  simp [toPort]
@[simp] theorem addMark_frame (k : MarkKind) (s : State) :
    (addMark k s).sys = s.sys ∧ (addMark k s).clk = s.clk ∧ (addMark k s).sec = s.sec ∧ (addMark k s).pwr = s.pwr ∧
    (addMark k s).host = s.host ∧ (addMark k s).ring = s.ring ∧ (addMark k s).wards = s.wards ∧
    (addMark k s).cap = s.cap ∧ (addMark k s).cache = s.cache ∧ (addMark k s).kcc = s.kcc ∧
    (addMark k s).groups = s.groups ∧ (addMark k s).cells = s.cells ∧ (addMark k s).reads = s.reads ∧
    (addMark k s).recoveries = s.recoveries ∧ (addMark k s).nextRead = s.nextRead ∧ (addMark k s).obs = s.obs ∧
    (addMark k s).pin = s.pin ∧ (addMark k s).regs = s.regs ∧ (addMark k s).fresh = s.fresh := by
  simp [addMark]
@[simp] theorem dropMarks_frame (f : Mark → Bool) (s : State) :
    (dropMarks f s).sys = s.sys ∧ (dropMarks f s).clk = s.clk ∧ (dropMarks f s).sec = s.sec ∧
    (dropMarks f s).pwr = s.pwr ∧ (dropMarks f s).host = s.host ∧ (dropMarks f s).ring = s.ring ∧
    (dropMarks f s).wards = s.wards ∧ (dropMarks f s).cap = s.cap ∧ (dropMarks f s).cache = s.cache ∧
    (dropMarks f s).kcc = s.kcc ∧ (dropMarks f s).groups = s.groups ∧ (dropMarks f s).cells = s.cells ∧
    (dropMarks f s).reads = s.reads ∧ (dropMarks f s).recoveries = s.recoveries ∧ (dropMarks f s).nextRead = s.nextRead ∧
    (dropMarks f s).obs = s.obs ∧ (dropMarks f s).pin = s.pin ∧ (dropMarks f s).regs = s.regs ∧
    (dropMarks f s).fresh = s.fresh := by
  simp [dropMarks]
@[simp] theorem pruneIntents_frame (s : State) :
    (pruneIntents s).sys = s.sys ∧ (pruneIntents s).clk = s.clk ∧ (pruneIntents s).sec = s.sec ∧
    (pruneIntents s).pwr = s.pwr ∧ (pruneIntents s).host = s.host ∧ (pruneIntents s).ring = s.ring ∧
    (pruneIntents s).wards = s.wards ∧ (pruneIntents s).cap = s.cap ∧ (pruneIntents s).cache = s.cache ∧
    (pruneIntents s).kcc = s.kcc ∧ (pruneIntents s).groups = s.groups ∧ (pruneIntents s).cells = s.cells ∧
    (pruneIntents s).reads = s.reads ∧ (pruneIntents s).recoveries = s.recoveries ∧
    (pruneIntents s).nextRead = s.nextRead ∧ (pruneIntents s).obs = s.obs ∧ (pruneIntents s).pin = s.pin ∧
    (pruneIntents s).regs = s.regs ∧ (pruneIntents s).fresh = s.fresh := by
  simp [pruneIntents]
@[simp] theorem releaseWhere_frame (f : Intent → DataRec → Bool) (h : Intent → ParRec → Bool) (s : State) :
    (releaseWhere f h s).sys = s.sys ∧ (releaseWhere f h s).clk = s.clk ∧ (releaseWhere f h s).sec = s.sec ∧
    (releaseWhere f h s).pwr = s.pwr ∧ (releaseWhere f h s).host = s.host ∧ (releaseWhere f h s).ring = s.ring ∧
    (releaseWhere f h s).wards = s.wards ∧ (releaseWhere f h s).cap = s.cap ∧ (releaseWhere f h s).cache = s.cache ∧
    (releaseWhere f h s).kcc = s.kcc ∧ (releaseWhere f h s).groups = s.groups ∧ (releaseWhere f h s).cells = s.cells ∧
    (releaseWhere f h s).reads = s.reads ∧ (releaseWhere f h s).recoveries = s.recoveries ∧
    (releaseWhere f h s).nextRead = s.nextRead ∧ (releaseWhere f h s).obs = s.obs ∧ (releaseWhere f h s).pin = s.pin ∧
    (releaseWhere f h s).regs = s.regs ∧ (releaseWhere f h s).fresh = s.fresh := by
  simp [releaseWhere]
@[simp] theorem armSend_frame (c : CellId) (cmd : Nat) (arg : Nat) (s : State) :
    (armSend c cmd arg s).sys = s.sys ∧ (armSend c cmd arg s).clk = s.clk ∧ (armSend c cmd arg s).sec = s.sec ∧
    (armSend c cmd arg s).pwr = s.pwr ∧ (armSend c cmd arg s).host = s.host ∧ (armSend c cmd arg s).ring = s.ring ∧
    (armSend c cmd arg s).wards = s.wards ∧ (armSend c cmd arg s).cap = s.cap ∧ (armSend c cmd arg s).cache = s.cache ∧
    (armSend c cmd arg s).kcc = s.kcc ∧ (armSend c cmd arg s).ledger = s.ledger ∧
    (armSend c cmd arg s).groups = s.groups ∧ (armSend c cmd arg s).reads = s.reads ∧
    (armSend c cmd arg s).recoveries = s.recoveries ∧ (armSend c cmd arg s).nextRead = s.nextRead ∧
    (armSend c cmd arg s).obs = s.obs ∧ (armSend c cmd arg s).pin = s.pin ∧ (armSend c cmd arg s).regs = s.regs ∧
    (armSend c cmd arg s).fresh = s.fresh := by
  simp [armSend]
@[simp] theorem parkCell_frame (c : CellId) (s : State) :
    (parkCell c s).sys = s.sys ∧ (parkCell c s).clk = s.clk ∧ (parkCell c s).sec = s.sec ∧ (parkCell c s).pwr = s.pwr ∧
    (parkCell c s).host = s.host ∧ (parkCell c s).ring = s.ring ∧ (parkCell c s).wards = s.wards ∧
    (parkCell c s).cap = s.cap ∧ (parkCell c s).cache = s.cache ∧ (parkCell c s).kcc = s.kcc ∧
    (parkCell c s).ledger = s.ledger ∧ (parkCell c s).groups = s.groups ∧ (parkCell c s).reads = s.reads ∧
    (parkCell c s).recoveries = s.recoveries ∧ (parkCell c s).nextRead = s.nextRead ∧ (parkCell c s).pin = s.pin ∧
    (parkCell c s).regs = s.regs ∧ (parkCell c s).fresh = s.fresh := by
  simp [parkCell]
@[simp] theorem parkAfter_frame (c : CellId) (due : Option DWord) (s : State) :
    (parkAfter c due s).sys = s.sys ∧ (parkAfter c due s).clk = s.clk ∧ (parkAfter c due s).sec = s.sec ∧
    (parkAfter c due s).pwr = s.pwr ∧ (parkAfter c due s).host = s.host ∧ (parkAfter c due s).ring = s.ring ∧
    (parkAfter c due s).wards = s.wards ∧ (parkAfter c due s).cap = s.cap ∧ (parkAfter c due s).cache = s.cache ∧
    (parkAfter c due s).kcc = s.kcc ∧ (parkAfter c due s).ledger = s.ledger ∧ (parkAfter c due s).groups = s.groups ∧
    (parkAfter c due s).reads = s.reads ∧ (parkAfter c due s).recoveries = s.recoveries ∧
    (parkAfter c due s).nextRead = s.nextRead ∧ (parkAfter c due s).pin = s.pin ∧ (parkAfter c due s).regs = s.regs ∧
    (parkAfter c due s).fresh = s.fresh := by
  simp [parkAfter]
@[simp] theorem dropGate_frame (c : CellId) (s : State) :
    (dropGate c s).sys = s.sys ∧ (dropGate c s).clk = s.clk ∧ (dropGate c s).sec = s.sec ∧ (dropGate c s).pwr = s.pwr ∧
    (dropGate c s).host = s.host ∧ (dropGate c s).ring = s.ring ∧ (dropGate c s).wards = s.wards ∧
    (dropGate c s).cap = s.cap ∧ (dropGate c s).cache = s.cache ∧ (dropGate c s).kcc = s.kcc ∧
    (dropGate c s).groups = s.groups ∧ (dropGate c s).reads = s.reads ∧ (dropGate c s).recoveries = s.recoveries ∧
    (dropGate c s).nextRead = s.nextRead ∧ (dropGate c s).pin = s.pin ∧ (dropGate c s).regs = s.regs ∧
    (dropGate c s).fresh = s.fresh := by
  unfold dropGate; dsimp only; (repeat' split) <;> simp [*]
@[simp] theorem endAndPark_frame (due : DWord) (c : CellId) (s : State) :
    (endAndPark due c s).sys = s.sys ∧ (endAndPark due c s).clk = s.clk ∧ (endAndPark due c s).sec = s.sec ∧
    (endAndPark due c s).pwr = s.pwr ∧ (endAndPark due c s).host = s.host ∧ (endAndPark due c s).ring = s.ring ∧
    (endAndPark due c s).wards = s.wards ∧ (endAndPark due c s).cap = s.cap ∧ (endAndPark due c s).cache = s.cache ∧
    (endAndPark due c s).kcc = s.kcc ∧ (endAndPark due c s).groups = s.groups ∧ (endAndPark due c s).reads = s.reads ∧
    (endAndPark due c s).recoveries = s.recoveries ∧ (endAndPark due c s).nextRead = s.nextRead ∧
    (endAndPark due c s).pin = s.pin ∧ (endAndPark due c s).regs = s.regs ∧ (endAndPark due c s).fresh = s.fresh := by
  simp [endAndPark]
@[simp] theorem lateGate_frame (s : State) (c : CellId) :
    (lateGate s c).sys = s.sys ∧ (lateGate s c).clk = s.clk ∧ (lateGate s c).sec = s.sec ∧ (lateGate s c).pwr = s.pwr ∧
    (lateGate s c).host = s.host ∧ (lateGate s c).ring = s.ring ∧ (lateGate s c).wards = s.wards ∧
    (lateGate s c).cap = s.cap ∧ (lateGate s c).cache = s.cache ∧ (lateGate s c).kcc = s.kcc ∧
    (lateGate s c).groups = s.groups ∧ (lateGate s c).reads = s.reads ∧ (lateGate s c).recoveries = s.recoveries ∧
    (lateGate s c).nextRead = s.nextRead ∧ (lateGate s c).pin = s.pin ∧ (lateGate s c).regs = s.regs ∧
    (lateGate s c).fresh = s.fresh := by
  unfold lateGate; (repeat' split) <;> simp [*]
@[simp] theorem lateGates_frame (s : State) :
    (lateGates s).sys = s.sys ∧ (lateGates s).clk = s.clk ∧ (lateGates s).sec = s.sec ∧ (lateGates s).pwr = s.pwr ∧
    (lateGates s).host = s.host ∧ (lateGates s).ring = s.ring ∧ (lateGates s).wards = s.wards ∧
    (lateGates s).cap = s.cap ∧ (lateGates s).cache = s.cache ∧ (lateGates s).kcc = s.kcc ∧
    (lateGates s).groups = s.groups ∧ (lateGates s).reads = s.reads ∧ (lateGates s).recoveries = s.recoveries ∧
    (lateGates s).nextRead = s.nextRead ∧ (lateGates s).pin = s.pin ∧ (lateGates s).regs = s.regs ∧
    (lateGates s).fresh = s.fresh := by
  simp [lateGates]
@[simp] theorem cancelRetries_frame (c : CellId) (s : State) :
    (cancelRetries c s).sys = s.sys ∧ (cancelRetries c s).clk = s.clk ∧ (cancelRetries c s).sec = s.sec ∧
    (cancelRetries c s).pwr = s.pwr ∧ (cancelRetries c s).host = s.host ∧ (cancelRetries c s).ring = s.ring ∧
    (cancelRetries c s).wards = s.wards ∧ (cancelRetries c s).cap = s.cap ∧ (cancelRetries c s).cache = s.cache ∧
    (cancelRetries c s).kcc = s.kcc ∧ (cancelRetries c s).ledger = s.ledger ∧ (cancelRetries c s).groups = s.groups ∧
    (cancelRetries c s).reads = s.reads ∧ (cancelRetries c s).nextRead = s.nextRead ∧ (cancelRetries c s).obs = s.obs ∧
    (cancelRetries c s).pin = s.pin ∧ (cancelRetries c s).regs = s.regs ∧ (cancelRetries c s).fresh = s.fresh := by
  simp [cancelRetries]
@[simp] theorem abortRebuild_frame (g : GroupId) (s : State) :
    (abortRebuild g s).sys = s.sys ∧ (abortRebuild g s).clk = s.clk ∧ (abortRebuild g s).sec = s.sec ∧
    (abortRebuild g s).pwr = s.pwr ∧ (abortRebuild g s).host = s.host ∧ (abortRebuild g s).ring = s.ring ∧
    (abortRebuild g s).wards = s.wards ∧ (abortRebuild g s).cap = s.cap ∧ (abortRebuild g s).cache = s.cache ∧
    (abortRebuild g s).kcc = s.kcc ∧ (abortRebuild g s).ledger = s.ledger ∧ (abortRebuild g s).cells = s.cells ∧
    (abortRebuild g s).reads = s.reads ∧ (abortRebuild g s).recoveries = s.recoveries ∧
    (abortRebuild g s).nextRead = s.nextRead ∧ (abortRebuild g s).regs = s.regs ∧ (abortRebuild g s).fresh = s.fresh := by
  simp [abortRebuild]
@[simp] theorem groupDown_frame (g : GroupId) (s : State) :
    (groupDown g s).sys = s.sys ∧ (groupDown g s).clk = s.clk ∧ (groupDown g s).sec = s.sec ∧
    (groupDown g s).pwr = s.pwr ∧ (groupDown g s).host = s.host ∧ (groupDown g s).ring = s.ring ∧
    (groupDown g s).wards = s.wards ∧ (groupDown g s).cap = s.cap ∧ (groupDown g s).kcc = s.kcc ∧
    (groupDown g s).cells = s.cells ∧ (groupDown g s).reads = s.reads ∧ (groupDown g s).recoveries = s.recoveries ∧
    (groupDown g s).nextRead = s.nextRead ∧ (groupDown g s).regs = s.regs ∧ (groupDown g s).fresh = s.fresh := by
  simp [groupDown]
@[simp] theorem requeue_frame (c : CellId) (s : State) :
    (requeue c s).sys = s.sys ∧ (requeue c s).clk = s.clk ∧ (requeue c s).sec = s.sec ∧ (requeue c s).pwr = s.pwr ∧
    (requeue c s).host = s.host ∧ (requeue c s).ring = s.ring ∧ (requeue c s).wards = s.wards ∧
    (requeue c s).cap = s.cap ∧ (requeue c s).kcc = s.kcc ∧ (requeue c s).groups = s.groups ∧
    (requeue c s).reads = s.reads ∧ (requeue c s).recoveries = s.recoveries ∧ (requeue c s).nextRead = s.nextRead ∧
    (requeue c s).obs = s.obs ∧ (requeue c s).pin = s.pin ∧ (requeue c s).regs = s.regs ∧
    (requeue c s).fresh = s.fresh := by
  simp [requeue]
@[simp] theorem startRebuild_frame (g : GroupId) (m : Nat) (rate : Nat) (copy : Bool) (s : State) :
    (startRebuild g m rate copy s).sys = s.sys ∧ (startRebuild g m rate copy s).clk = s.clk ∧
    (startRebuild g m rate copy s).sec = s.sec ∧ (startRebuild g m rate copy s).pwr = s.pwr ∧
    (startRebuild g m rate copy s).host = s.host ∧ (startRebuild g m rate copy s).ring = s.ring ∧
    (startRebuild g m rate copy s).wards = s.wards ∧ (startRebuild g m rate copy s).cap = s.cap ∧
    (startRebuild g m rate copy s).cache = s.cache ∧ (startRebuild g m rate copy s).kcc = s.kcc ∧
    (startRebuild g m rate copy s).ledger = s.ledger ∧ (startRebuild g m rate copy s).cells = s.cells ∧
    (startRebuild g m rate copy s).reads = s.reads ∧ (startRebuild g m rate copy s).recoveries = s.recoveries ∧
    (startRebuild g m rate copy s).nextRead = s.nextRead ∧ (startRebuild g m rate copy s).obs = s.obs ∧
    (startRebuild g m rate copy s).pin = s.pin ∧ (startRebuild g m rate copy s).regs = s.regs ∧
    (startRebuild g m rate copy s).fresh = s.fresh := by
  simp [startRebuild]
@[simp] theorem failMember_frame (g : GroupId) (m : Nat) (s : State) :
    (failMember g m s).sys = s.sys ∧ (failMember g m s).clk = s.clk ∧ (failMember g m s).sec = s.sec ∧
    (failMember g m s).pwr = s.pwr ∧ (failMember g m s).host = s.host ∧ (failMember g m s).ring = s.ring ∧
    (failMember g m s).wards = s.wards ∧ (failMember g m s).cap = s.cap ∧ (failMember g m s).kcc = s.kcc ∧
    (failMember g m s).cells = s.cells ∧ (failMember g m s).reads = s.reads ∧
    (failMember g m s).recoveries = s.recoveries ∧ (failMember g m s).nextRead = s.nextRead ∧
    (failMember g m s).regs = s.regs ∧ (failMember g m s).fresh = s.fresh := by
  simp [failMember]
@[simp] theorem cellGone_frame (c : CellId) (s : State) (g : GroupId) :
    (cellGone c s g).sys = s.sys ∧ (cellGone c s g).clk = s.clk ∧ (cellGone c s g).sec = s.sec ∧
    (cellGone c s g).pwr = s.pwr ∧ (cellGone c s g).host = s.host ∧ (cellGone c s g).ring = s.ring ∧
    (cellGone c s g).wards = s.wards ∧ (cellGone c s g).cap = s.cap ∧ (cellGone c s g).kcc = s.kcc ∧
    (cellGone c s g).reads = s.reads ∧ (cellGone c s g).recoveries = s.recoveries ∧
    (cellGone c s g).nextRead = s.nextRead ∧ (cellGone c s g).regs = s.regs ∧ (cellGone c s g).fresh = s.fresh := by
  unfold cellGone; dsimp only; (repeat' split) <;> simp [*]
@[simp] theorem cellLost_frame (c : CellId) (s : State) :
    (cellLost c s).sys = s.sys ∧ (cellLost c s).clk = s.clk ∧ (cellLost c s).sec = s.sec ∧ (cellLost c s).pwr = s.pwr ∧
    (cellLost c s).host = s.host ∧ (cellLost c s).ring = s.ring ∧ (cellLost c s).wards = s.wards ∧
    (cellLost c s).cap = s.cap ∧ (cellLost c s).kcc = s.kcc ∧ (cellLost c s).reads = s.reads ∧
    (cellLost c s).nextRead = s.nextRead ∧ (cellLost c s).regs = s.regs ∧ (cellLost c s).fresh = s.fresh := by
  simp [cellLost]
@[simp] theorem cellFault_frame (c : CellId) (code : BitVec 3) (s : State) :
    (cellFault c code s).sys = s.sys ∧ (cellFault c code s).clk = s.clk ∧ (cellFault c code s).sec = s.sec ∧
    (cellFault c code s).pwr = s.pwr ∧ (cellFault c code s).host = s.host ∧ (cellFault c code s).ring = s.ring ∧
    (cellFault c code s).wards = s.wards ∧ (cellFault c code s).cap = s.cap ∧ (cellFault c code s).kcc = s.kcc ∧
    (cellFault c code s).reads = s.reads ∧ (cellFault c code s).nextRead = s.nextRead ∧
    (cellFault c code s).regs = s.regs ∧ (cellFault c code s).fresh = s.fresh := by
  simp [cellFault]
@[simp] theorem armSlot_frame (c : CellId) (s : State) :
    (armSlot c s).sys = s.sys ∧ (armSlot c s).clk = s.clk ∧ (armSlot c s).sec = s.sec ∧ (armSlot c s).pwr = s.pwr ∧
    (armSlot c s).host = s.host ∧ (armSlot c s).ring = s.ring ∧ (armSlot c s).wards = s.wards ∧
    (armSlot c s).cap = s.cap ∧ (armSlot c s).cache = s.cache ∧ (armSlot c s).kcc = s.kcc ∧
    (armSlot c s).ledger = s.ledger ∧ (armSlot c s).groups = s.groups ∧ (armSlot c s).reads = s.reads ∧
    (armSlot c s).recoveries = s.recoveries ∧ (armSlot c s).nextRead = s.nextRead ∧ (armSlot c s).obs = s.obs ∧
    (armSlot c s).pin = s.pin ∧ (armSlot c s).regs = s.regs ∧ (armSlot c s).fresh = s.fresh := by
  simp [armSlot]
@[simp] theorem bringUp_frame (c : CellId) (s : State) :
    (bringUp c s).sys = s.sys ∧ (bringUp c s).clk = s.clk ∧ (bringUp c s).sec = s.sec ∧ (bringUp c s).pwr = s.pwr ∧
    (bringUp c s).host = s.host ∧ (bringUp c s).ring = s.ring ∧ (bringUp c s).wards = s.wards ∧
    (bringUp c s).cap = s.cap ∧ (bringUp c s).cache = s.cache ∧ (bringUp c s).kcc = s.kcc ∧
    (bringUp c s).ledger = s.ledger ∧ (bringUp c s).groups = s.groups ∧ (bringUp c s).reads = s.reads ∧
    (bringUp c s).recoveries = s.recoveries ∧ (bringUp c s).nextRead = s.nextRead ∧ (bringUp c s).obs = s.obs ∧
    (bringUp c s).pin = s.pin ∧ (bringUp c s).regs = s.regs ∧ (bringUp c s).fresh = s.fresh := by
  simp [bringUp]
@[simp] theorem bringUpAll_frame (s : State) :
    (bringUpAll s).sys = s.sys ∧ (bringUpAll s).clk = s.clk ∧ (bringUpAll s).sec = s.sec ∧ (bringUpAll s).pwr = s.pwr ∧
    (bringUpAll s).host = s.host ∧ (bringUpAll s).ring = s.ring ∧ (bringUpAll s).wards = s.wards ∧
    (bringUpAll s).cap = s.cap ∧ (bringUpAll s).cache = s.cache ∧ (bringUpAll s).kcc = s.kcc ∧
    (bringUpAll s).ledger = s.ledger ∧ (bringUpAll s).groups = s.groups ∧ (bringUpAll s).reads = s.reads ∧
    (bringUpAll s).recoveries = s.recoveries ∧ (bringUpAll s).nextRead = s.nextRead ∧ (bringUpAll s).obs = s.obs ∧
    (bringUpAll s).pin = s.pin ∧ (bringUpAll s).regs = s.regs ∧ (bringUpAll s).fresh = s.fresh := by
  simp [bringUpAll]
@[simp] theorem dropMedia_frame (s : State) :
    (dropMedia s).sys = s.sys ∧ (dropMedia s).clk = s.clk ∧ (dropMedia s).sec = s.sec ∧ (dropMedia s).pwr = s.pwr ∧
    (dropMedia s).host = s.host ∧ (dropMedia s).ring = s.ring ∧ (dropMedia s).wards = s.wards ∧
    (dropMedia s).cap = s.cap ∧ (dropMedia s).kcc = s.kcc ∧ (dropMedia s).ledger = s.ledger ∧
    (dropMedia s).groups = s.groups ∧ (dropMedia s).nextRead = s.nextRead ∧ (dropMedia s).obs = s.obs ∧
    (dropMedia s).pin = s.pin ∧ (dropMedia s).regs = s.regs ∧ (dropMedia s).fresh = s.fresh := by
  simp [dropMedia]
@[simp] theorem pauseWork_frame (s : State) :
    (pauseWork s).sys = s.sys ∧ (pauseWork s).clk = s.clk ∧ (pauseWork s).sec = s.sec ∧ (pauseWork s).pwr = s.pwr ∧
    (pauseWork s).host = s.host ∧ (pauseWork s).ring = s.ring ∧ (pauseWork s).wards = s.wards ∧
    (pauseWork s).cap = s.cap ∧ (pauseWork s).cache = s.cache ∧ (pauseWork s).kcc = s.kcc ∧
    (pauseWork s).cells = s.cells ∧ (pauseWork s).reads = s.reads ∧ (pauseWork s).recoveries = s.recoveries ∧
    (pauseWork s).nextRead = s.nextRead ∧ (pauseWork s).obs = s.obs ∧ (pauseWork s).pin = s.pin ∧
    (pauseWork s).regs = s.regs ∧ (pauseWork s).fresh = s.fresh := by
  simp [pauseWork]
@[simp] theorem finishWhere_frame (f : Job → Bool) (status : Nat) (s : State) :
    (finishWhere f status s).sys = s.sys ∧ (finishWhere f status s).clk = s.clk ∧ (finishWhere f status s).sec = s.sec ∧
    (finishWhere f status s).pwr = s.pwr ∧ (finishWhere f status s).cap = s.cap ∧
    (finishWhere f status s).cache = s.cache ∧ (finishWhere f status s).kcc = s.kcc ∧
    (finishWhere f status s).ledger = s.ledger ∧ (finishWhere f status s).groups = s.groups ∧
    (finishWhere f status s).cells = s.cells ∧ (finishWhere f status s).reads = s.reads ∧
    (finishWhere f status s).recoveries = s.recoveries ∧ (finishWhere f status s).nextRead = s.nextRead ∧
    (finishWhere f status s).regs = s.regs ∧ (finishWhere f status s).fresh = s.fresh := by
  simp [finishWhere]
@[simp] theorem refuseVote_frame (slot : Nat) (cause : Nat) (s : State) :
    (refuseVote slot cause s).sys = s.sys ∧ (refuseVote slot cause s).clk = s.clk ∧
    (refuseVote slot cause s).sec = s.sec ∧ (refuseVote slot cause s).host = s.host ∧
    (refuseVote slot cause s).ring = s.ring ∧ (refuseVote slot cause s).wards = s.wards ∧
    (refuseVote slot cause s).cap = s.cap ∧ (refuseVote slot cause s).cache = s.cache ∧
    (refuseVote slot cause s).kcc = s.kcc ∧ (refuseVote slot cause s).ledger = s.ledger ∧
    (refuseVote slot cause s).groups = s.groups ∧ (refuseVote slot cause s).cells = s.cells ∧
    (refuseVote slot cause s).reads = s.reads ∧ (refuseVote slot cause s).recoveries = s.recoveries ∧
    (refuseVote slot cause s).nextRead = s.nextRead ∧ (refuseVote slot cause s).regs = s.regs ∧
    (refuseVote slot cause s).fresh = s.fresh := by
  simp [refuseVote]
@[simp] theorem takeBack_frame (code : BitVec 16) (s : State) :
    (takeBack code s).sys = s.sys ∧ (takeBack code s).clk = s.clk ∧ (takeBack code s).sec = s.sec ∧
    (takeBack code s).pwr = s.pwr ∧ (takeBack code s).host = s.host ∧ (takeBack code s).ring = s.ring ∧
    (takeBack code s).wards = s.wards ∧ (takeBack code s).cap = s.cap ∧ (takeBack code s).cache = s.cache ∧
    (takeBack code s).kcc = s.kcc ∧ (takeBack code s).ledger = s.ledger ∧ (takeBack code s).groups = s.groups ∧
    (takeBack code s).cells = s.cells ∧ (takeBack code s).reads = s.reads ∧ (takeBack code s).recoveries = s.recoveries ∧
    (takeBack code s).nextRead = s.nextRead ∧ (takeBack code s).regs = s.regs ∧ (takeBack code s).fresh = s.fresh := by
  simp [takeBack]
@[simp] theorem holdWins_frame (s : State) :
    (holdWins s).sys = s.sys ∧ (holdWins s).clk = s.clk ∧ (holdWins s).sec = s.sec ∧ (holdWins s).host = s.host ∧
    (holdWins s).ring = s.ring ∧ (holdWins s).wards = s.wards ∧ (holdWins s).cap = s.cap ∧ (holdWins s).cache = s.cache ∧
    (holdWins s).kcc = s.kcc ∧ (holdWins s).ledger = s.ledger ∧ (holdWins s).groups = s.groups ∧
    (holdWins s).cells = s.cells ∧ (holdWins s).reads = s.reads ∧ (holdWins s).recoveries = s.recoveries ∧
    (holdWins s).nextRead = s.nextRead ∧ (holdWins s).regs = s.regs ∧ (holdWins s).fresh = s.fresh := by
  unfold holdWins; dsimp only; (repeat' split) <;> simp [*]
@[simp] theorem safeHold_frame (cause : BitVec 7) (s : State) :
    (safeHold cause s).sys = s.sys ∧ (safeHold cause s).clk = s.clk ∧ (safeHold cause s).sec = s.sec ∧
    (safeHold cause s).cap = s.cap ∧ (safeHold cause s).kcc = s.kcc ∧ (safeHold cause s).nextRead = s.nextRead ∧
    (safeHold cause s).regs = s.regs ∧ (safeHold cause s).fresh = s.fresh := by
  simp [safeHold]
@[simp] theorem closeBlock_frame (w : WardId) (code : Nat) (next : DWord) (s : State) :
    (closeBlock w code next s).sys = s.sys ∧ (closeBlock w code next s).clk = s.clk ∧
    (closeBlock w code next s).sec = s.sec ∧ (closeBlock w code next s).pwr = s.pwr ∧
    (closeBlock w code next s).host = s.host ∧ (closeBlock w code next s).cache = s.cache ∧
    (closeBlock w code next s).kcc = s.kcc ∧ (closeBlock w code next s).ledger = s.ledger ∧
    (closeBlock w code next s).groups = s.groups ∧ (closeBlock w code next s).cells = s.cells ∧
    (closeBlock w code next s).reads = s.reads ∧ (closeBlock w code next s).recoveries = s.recoveries ∧
    (closeBlock w code next s).nextRead = s.nextRead ∧ (closeBlock w code next s).obs = s.obs ∧
    (closeBlock w code next s).pin = s.pin ∧ (closeBlock w code next s).regs = s.regs ∧
    (closeBlock w code next s).fresh = s.fresh := by
  unfold closeBlock; (repeat' split) <;> simp [*]
@[simp] theorem closeAll_frame (code : Nat) (s : State) :
    (closeAll code s).sys = s.sys ∧ (closeAll code s).clk = s.clk ∧ (closeAll code s).sec = s.sec ∧
    (closeAll code s).pwr = s.pwr ∧ (closeAll code s).host = s.host ∧ (closeAll code s).cache = s.cache ∧
    (closeAll code s).kcc = s.kcc ∧ (closeAll code s).ledger = s.ledger ∧ (closeAll code s).groups = s.groups ∧
    (closeAll code s).cells = s.cells ∧ (closeAll code s).reads = s.reads ∧ (closeAll code s).recoveries = s.recoveries ∧
    (closeAll code s).nextRead = s.nextRead ∧ (closeAll code s).obs = s.obs ∧ (closeAll code s).pin = s.pin ∧
    (closeAll code s).regs = s.regs ∧ (closeAll code s).fresh = s.fresh := by
  simp [closeAll]
@[simp] theorem appendBytes_frame (a0 : Nat) (a1 : WardId) (a2 : Bool) (a3 : DWord) (a4 : Nat) (a5 : Bytes) (s : State) :
    (appendBytes a0 a1 a2 a3 a4 a5 s).sys = s.sys ∧ (appendBytes a0 a1 a2 a3 a4 a5 s).clk = s.clk ∧
    (appendBytes a0 a1 a2 a3 a4 a5 s).sec = s.sec ∧ (appendBytes a0 a1 a2 a3 a4 a5 s).pwr = s.pwr ∧
    (appendBytes a0 a1 a2 a3 a4 a5 s).host = s.host ∧ (appendBytes a0 a1 a2 a3 a4 a5 s).cache = s.cache ∧
    (appendBytes a0 a1 a2 a3 a4 a5 s).kcc = s.kcc ∧ (appendBytes a0 a1 a2 a3 a4 a5 s).ledger = s.ledger ∧
    (appendBytes a0 a1 a2 a3 a4 a5 s).groups = s.groups ∧ (appendBytes a0 a1 a2 a3 a4 a5 s).cells = s.cells ∧
    (appendBytes a0 a1 a2 a3 a4 a5 s).reads = s.reads ∧ (appendBytes a0 a1 a2 a3 a4 a5 s).recoveries = s.recoveries ∧
    (appendBytes a0 a1 a2 a3 a4 a5 s).nextRead = s.nextRead ∧ (appendBytes a0 a1 a2 a3 a4 a5 s).obs = s.obs ∧
    (appendBytes a0 a1 a2 a3 a4 a5 s).pin = s.pin ∧ (appendBytes a0 a1 a2 a3 a4 a5 s).regs = s.regs ∧
    (appendBytes a0 a1 a2 a3 a4 a5 s).fresh = s.fresh := by
  induction a0 generalizing a1 a2 a3 a4 a5 s <;> simp [appendBytes, *]
@[simp] theorem addGap_frame (w : WardId) (n : Nat) (s : State) :
    (addGap w n s).sys = s.sys ∧ (addGap w n s).clk = s.clk ∧ (addGap w n s).sec = s.sec ∧ (addGap w n s).pwr = s.pwr ∧
    (addGap w n s).host = s.host ∧ (addGap w n s).ring = s.ring ∧ (addGap w n s).cap = s.cap ∧
    (addGap w n s).cache = s.cache ∧ (addGap w n s).kcc = s.kcc ∧ (addGap w n s).ledger = s.ledger ∧
    (addGap w n s).groups = s.groups ∧ (addGap w n s).cells = s.cells ∧ (addGap w n s).reads = s.reads ∧
    (addGap w n s).recoveries = s.recoveries ∧ (addGap w n s).nextRead = s.nextRead ∧ (addGap w n s).obs = s.obs ∧
    (addGap w n s).pin = s.pin ∧ (addGap w n s).regs = s.regs ∧ (addGap w n s).fresh = s.fresh := by
  simp [addGap]
@[simp] theorem keepEntry_frame (i : Nat) (old : Option TumbEntry) (e : TumbEntry) (s : State) :
    (keepEntry i old e s).sys = s.sys ∧ (keepEntry i old e s).clk = s.clk ∧ (keepEntry i old e s).sec = s.sec ∧
    (keepEntry i old e s).pwr = s.pwr ∧ (keepEntry i old e s).host = s.host ∧ (keepEntry i old e s).ring = s.ring ∧
    (keepEntry i old e s).wards = s.wards ∧ (keepEntry i old e s).cache = s.cache ∧ (keepEntry i old e s).kcc = s.kcc ∧
    (keepEntry i old e s).ledger = s.ledger ∧ (keepEntry i old e s).groups = s.groups ∧
    (keepEntry i old e s).cells = s.cells ∧ (keepEntry i old e s).reads = s.reads ∧
    (keepEntry i old e s).recoveries = s.recoveries ∧ (keepEntry i old e s).nextRead = s.nextRead ∧
    (keepEntry i old e s).obs = s.obs ∧ (keepEntry i old e s).pin = s.pin ∧ (keepEntry i old e s).regs = s.regs ∧
    (keepEntry i old e s).fresh = s.fresh := by
  unfold keepEntry; (repeat' split) <;> simp [*]
@[simp] theorem decideFrame_frame (i : Nat) (old : Option TumbEntry) (p : PortId) (r : Rx) (b : Bytes) (s : State) :
    (decideFrame i old p r b s).sys = s.sys ∧ (decideFrame i old p r b s).clk = s.clk ∧
    (decideFrame i old p r b s).sec = s.sec ∧ (decideFrame i old p r b s).pwr = s.pwr ∧
    (decideFrame i old p r b s).host = s.host ∧ (decideFrame i old p r b s).cache = s.cache ∧
    (decideFrame i old p r b s).kcc = s.kcc ∧ (decideFrame i old p r b s).ledger = s.ledger ∧
    (decideFrame i old p r b s).groups = s.groups ∧ (decideFrame i old p r b s).cells = s.cells ∧
    (decideFrame i old p r b s).reads = s.reads ∧ (decideFrame i old p r b s).recoveries = s.recoveries ∧
    (decideFrame i old p r b s).nextRead = s.nextRead ∧ (decideFrame i old p r b s).pin = s.pin ∧
    (decideFrame i old p r b s).regs = s.regs ∧ (decideFrame i old p r b s).fresh = s.fresh := by
  simp [decideFrame]
@[simp] theorem countError_frame (p : PortId) (k : Nat) (s : State) :
    (countError p k s).sys = s.sys ∧ (countError p k s).clk = s.clk ∧ (countError p k s).sec = s.sec ∧
    (countError p k s).pwr = s.pwr ∧ (countError p k s).host = s.host ∧ (countError p k s).ring = s.ring ∧
    (countError p k s).wards = s.wards ∧ (countError p k s).cache = s.cache ∧ (countError p k s).kcc = s.kcc ∧
    (countError p k s).ledger = s.ledger ∧ (countError p k s).groups = s.groups ∧ (countError p k s).cells = s.cells ∧
    (countError p k s).reads = s.reads ∧ (countError p k s).recoveries = s.recoveries ∧
    (countError p k s).nextRead = s.nextRead ∧ (countError p k s).pin = s.pin ∧ (countError p k s).regs = s.regs ∧
    (countError p k s).fresh = s.fresh := by
  simp [countError]
@[simp] theorem frameEnds_frame (p : PortId) (r : Rx) (f : Frame) (s : State) :
    (frameEnds p r f s).sys = s.sys ∧ (frameEnds p r f s).clk = s.clk ∧ (frameEnds p r f s).sec = s.sec ∧
    (frameEnds p r f s).pwr = s.pwr ∧ (frameEnds p r f s).host = s.host ∧ (frameEnds p r f s).cache = s.cache ∧
    (frameEnds p r f s).kcc = s.kcc ∧ (frameEnds p r f s).ledger = s.ledger ∧ (frameEnds p r f s).groups = s.groups ∧
    (frameEnds p r f s).cells = s.cells ∧ (frameEnds p r f s).reads = s.reads ∧
    (frameEnds p r f s).recoveries = s.recoveries ∧ (frameEnds p r f s).nextRead = s.nextRead ∧
    (frameEnds p r f s).pin = s.pin ∧ (frameEnds p r f s).regs = s.regs ∧ (frameEnds p r f s).fresh = s.fresh := by
  unfold frameEnds; dsimp only; (repeat' split) <;> simp [*]
@[simp] theorem cutFrame_frame (p : PortId) (got : Nat) (s : State) :
    (cutFrame p got s).sys = s.sys ∧ (cutFrame p got s).clk = s.clk ∧ (cutFrame p got s).sec = s.sec ∧
    (cutFrame p got s).pwr = s.pwr ∧ (cutFrame p got s).host = s.host ∧ (cutFrame p got s).ring = s.ring ∧
    (cutFrame p got s).wards = s.wards ∧ (cutFrame p got s).cache = s.cache ∧ (cutFrame p got s).kcc = s.kcc ∧
    (cutFrame p got s).ledger = s.ledger ∧ (cutFrame p got s).groups = s.groups ∧ (cutFrame p got s).cells = s.cells ∧
    (cutFrame p got s).reads = s.reads ∧ (cutFrame p got s).recoveries = s.recoveries ∧
    (cutFrame p got s).nextRead = s.nextRead ∧ (cutFrame p got s).pin = s.pin ∧ (cutFrame p got s).regs = s.regs ∧
    (cutFrame p got s).fresh = s.fresh := by
  simp [cutFrame]
@[simp] theorem setRx_frame (p : PortId) (r : Option Rx) (s : State) :
    (setRx p r s).sys = s.sys ∧ (setRx p r s).clk = s.clk ∧ (setRx p r s).sec = s.sec ∧ (setRx p r s).pwr = s.pwr ∧
    (setRx p r s).host = s.host ∧ (setRx p r s).ring = s.ring ∧ (setRx p r s).wards = s.wards ∧
    (setRx p r s).cache = s.cache ∧ (setRx p r s).kcc = s.kcc ∧ (setRx p r s).ledger = s.ledger ∧
    (setRx p r s).groups = s.groups ∧ (setRx p r s).cells = s.cells ∧ (setRx p r s).reads = s.reads ∧
    (setRx p r s).recoveries = s.recoveries ∧ (setRx p r s).nextRead = s.nextRead ∧ (setRx p r s).obs = s.obs ∧
    (setRx p r s).pin = s.pin ∧ (setRx p r s).regs = s.regs ∧ (setRx p r s).fresh = s.fresh := by
  simp [setRx]
@[simp] theorem rxEvent_frame (p : PortId) (e : RxEvent) (s : State) :
    (rxEvent p e s).sys = s.sys ∧ (rxEvent p e s).clk = s.clk ∧ (rxEvent p e s).sec = s.sec ∧
    (rxEvent p e s).pwr = s.pwr ∧ (rxEvent p e s).host = s.host ∧ (rxEvent p e s).cache = s.cache ∧
    (rxEvent p e s).kcc = s.kcc ∧ (rxEvent p e s).ledger = s.ledger ∧ (rxEvent p e s).groups = s.groups ∧
    (rxEvent p e s).cells = s.cells ∧ (rxEvent p e s).reads = s.reads ∧ (rxEvent p e s).recoveries = s.recoveries ∧
    (rxEvent p e s).nextRead = s.nextRead ∧ (rxEvent p e s).pin = s.pin ∧ (rxEvent p e s).regs = s.regs ∧
    (rxEvent p e s).fresh = s.fresh := by
  unfold rxEvent; (repeat' split) <;> simp [*]
@[simp] theorem rxMaybe_frame (p : PortId) (e : Option RxEvent) (s : State) :
    (rxMaybe p e s).sys = s.sys ∧ (rxMaybe p e s).clk = s.clk ∧ (rxMaybe p e s).sec = s.sec ∧
    (rxMaybe p e s).pwr = s.pwr ∧ (rxMaybe p e s).host = s.host ∧ (rxMaybe p e s).cache = s.cache ∧
    (rxMaybe p e s).kcc = s.kcc ∧ (rxMaybe p e s).ledger = s.ledger ∧ (rxMaybe p e s).groups = s.groups ∧
    (rxMaybe p e s).cells = s.cells ∧ (rxMaybe p e s).reads = s.reads ∧ (rxMaybe p e s).recoveries = s.recoveries ∧
    (rxMaybe p e s).nextRead = s.nextRead ∧ (rxMaybe p e s).pin = s.pin ∧ (rxMaybe p e s).regs = s.regs ∧
    (rxMaybe p e s).fresh = s.fresh := by
  unfold rxMaybe; (repeat' split) <;> simp [*]
@[simp] theorem changeLock_sys (p : PortId) (got : Nat) (f : State → State) (s : State) (hp : ∀ (s : State), (f s).sys =
    s.sys) :
    (changeLock p got f s).sys = s.sys := by
  unfold changeLock; (repeat' split) <;> first | rfl | exact hp .. | simp [*]
@[simp] theorem changeLock_clk (p : PortId) (got : Nat) (f : State → State) (s : State) (hp : ∀ (s : State), (f s).clk =
    s.clk) :
    (changeLock p got f s).clk = s.clk := by
  unfold changeLock; (repeat' split) <;> first | rfl | exact hp .. | simp [*]
@[simp] theorem changeLock_sec (p : PortId) (got : Nat) (f : State → State) (s : State) (hp : ∀ (s : State), (f s).sec =
    s.sec) :
    (changeLock p got f s).sec = s.sec := by
  unfold changeLock; (repeat' split) <;> first | rfl | exact hp .. | simp [*]
@[simp] theorem changeLock_pwr (p : PortId) (got : Nat) (f : State → State) (s : State) (hp : ∀ (s : State), (f s).pwr =
    s.pwr) :
    (changeLock p got f s).pwr = s.pwr := by
  unfold changeLock; (repeat' split) <;> first | rfl | exact hp .. | simp [*]
@[simp] theorem changeLock_host (p : PortId) (got : Nat) (f : State → State) (s : State) (hp : ∀ (s : State), (f s).host =
    s.host) :
    (changeLock p got f s).host = s.host := by
  unfold changeLock; (repeat' split) <;> first | rfl | exact hp .. | simp [*]
@[simp] theorem changeLock_ring (p : PortId) (got : Nat) (f : State → State) (s : State) (hp : ∀ (s : State), (f s).ring =
    s.ring) :
    (changeLock p got f s).ring = s.ring := by
  unfold changeLock; (repeat' split) <;> first | rfl | exact hp .. | simp [*]
@[simp] theorem changeLock_wards (p : PortId) (got : Nat) (f : State → State) (s : State) (hp : ∀ (s : State), (f s).wards
    = s.wards) :
    (changeLock p got f s).wards = s.wards := by
  unfold changeLock; (repeat' split) <;> first | rfl | exact hp .. | simp [*]
@[simp] theorem changeLock_cache (p : PortId) (got : Nat) (f : State → State) (s : State) (hp : ∀ (s : State), (f s).cache
    = s.cache) :
    (changeLock p got f s).cache = s.cache := by
  unfold changeLock; (repeat' split) <;> first | rfl | exact hp .. | simp [*]
@[simp] theorem changeLock_kcc (p : PortId) (got : Nat) (f : State → State) (s : State) (hp : ∀ (s : State), (f s).kcc =
    s.kcc) :
    (changeLock p got f s).kcc = s.kcc := by
  unfold changeLock; (repeat' split) <;> first | rfl | exact hp .. | simp [*]
@[simp] theorem changeLock_ledger (p : PortId) (got : Nat) (f : State → State) (s : State) (hp : ∀ (s : State), (f
    s).ledger = s.ledger) :
    (changeLock p got f s).ledger = s.ledger := by
  unfold changeLock; (repeat' split) <;> first | rfl | exact hp .. | simp [*]
@[simp] theorem changeLock_groups (p : PortId) (got : Nat) (f : State → State) (s : State) (hp : ∀ (s : State), (f
    s).groups = s.groups) :
    (changeLock p got f s).groups = s.groups := by
  unfold changeLock; (repeat' split) <;> first | rfl | exact hp .. | simp [*]
@[simp] theorem changeLock_cells (p : PortId) (got : Nat) (f : State → State) (s : State) (hp : ∀ (s : State), (f s).cells
    = s.cells) :
    (changeLock p got f s).cells = s.cells := by
  unfold changeLock; (repeat' split) <;> first | rfl | exact hp .. | simp [*]
@[simp] theorem changeLock_reads (p : PortId) (got : Nat) (f : State → State) (s : State) (hp : ∀ (s : State), (f s).reads
    = s.reads) :
    (changeLock p got f s).reads = s.reads := by
  unfold changeLock; (repeat' split) <;> first | rfl | exact hp .. | simp [*]
@[simp] theorem changeLock_recoveries (p : PortId) (got : Nat) (f : State → State) (s : State) (hp : ∀ (s : State), (f
    s).recoveries = s.recoveries) :
    (changeLock p got f s).recoveries = s.recoveries := by
  unfold changeLock; (repeat' split) <;> first | rfl | exact hp .. | simp [*]
@[simp] theorem changeLock_nextRead (p : PortId) (got : Nat) (f : State → State) (s : State) (hp : ∀ (s : State), (f
    s).nextRead = s.nextRead) :
    (changeLock p got f s).nextRead = s.nextRead := by
  unfold changeLock; (repeat' split) <;> first | rfl | exact hp .. | simp [*]
@[simp] theorem changeLock_regs (p : PortId) (got : Nat) (f : State → State) (s : State) (hp : ∀ (s : State), (f s).regs =
    s.regs) :
    (changeLock p got f s).regs = s.regs := by
  unfold changeLock; (repeat' split) <;> first | rfl | exact hp .. | simp [*]
@[simp] theorem changeLock_fresh (p : PortId) (got : Nat) (f : State → State) (s : State) (hp : ∀ (s : State), (f s).fresh
    = s.fresh) :
    (changeLock p got f s).fresh = s.fresh := by
  unfold changeLock; (repeat' split) <;> first | rfl | exact hp .. | simp [*]
@[simp] theorem portCtrlWrite_frame (p : PortId) (v : Word) (s : State) :
    (portCtrlWrite p v s).sys = s.sys ∧ (portCtrlWrite p v s).clk = s.clk ∧ (portCtrlWrite p v s).sec = s.sec ∧
    (portCtrlWrite p v s).pwr = s.pwr ∧ (portCtrlWrite p v s).host = s.host ∧ (portCtrlWrite p v s).ring = s.ring ∧
    (portCtrlWrite p v s).wards = s.wards ∧ (portCtrlWrite p v s).cache = s.cache ∧ (portCtrlWrite p v s).kcc = s.kcc ∧
    (portCtrlWrite p v s).ledger = s.ledger ∧ (portCtrlWrite p v s).groups = s.groups ∧
    (portCtrlWrite p v s).cells = s.cells ∧ (portCtrlWrite p v s).reads = s.reads ∧
    (portCtrlWrite p v s).recoveries = s.recoveries ∧ (portCtrlWrite p v s).nextRead = s.nextRead := by
  simp [portCtrlWrite]
@[simp] theorem rxOff_frame (s : State) :
    (rxOff s).sys = s.sys ∧ (rxOff s).clk = s.clk ∧ (rxOff s).sec = s.sec ∧ (rxOff s).pwr = s.pwr ∧
    (rxOff s).host = s.host ∧ (rxOff s).ring = s.ring ∧ (rxOff s).wards = s.wards ∧ (rxOff s).cache = s.cache ∧
    (rxOff s).kcc = s.kcc ∧ (rxOff s).ledger = s.ledger ∧ (rxOff s).groups = s.groups ∧ (rxOff s).cells = s.cells ∧
    (rxOff s).reads = s.reads ∧ (rxOff s).recoveries = s.recoveries ∧ (rxOff s).nextRead = s.nextRead ∧
    (rxOff s).obs = s.obs ∧ (rxOff s).pin = s.pin ∧ (rxOff s).regs = s.regs ∧ (rxOff s).fresh = s.fresh := by
  simp [rxOff]
@[simp] theorem ageBlock_frame (w : WardId) (s : State) :
    (ageBlock w s).sys = s.sys ∧ (ageBlock w s).clk = s.clk ∧ (ageBlock w s).sec = s.sec ∧ (ageBlock w s).pwr = s.pwr ∧
    (ageBlock w s).host = s.host ∧ (ageBlock w s).cache = s.cache ∧ (ageBlock w s).kcc = s.kcc ∧
    (ageBlock w s).ledger = s.ledger ∧ (ageBlock w s).groups = s.groups ∧ (ageBlock w s).cells = s.cells ∧
    (ageBlock w s).reads = s.reads ∧ (ageBlock w s).recoveries = s.recoveries ∧ (ageBlock w s).nextRead = s.nextRead ∧
    (ageBlock w s).obs = s.obs ∧ (ageBlock w s).pin = s.pin ∧ (ageBlock w s).regs = s.regs ∧
    (ageBlock w s).fresh = s.fresh := by
  unfold ageBlock; (repeat' split) <;> simp [*]
@[simp] theorem endTurn_frame (s : State) :
    (endTurn s).sys = s.sys ∧ (endTurn s).clk = s.clk ∧ (endTurn s).sec = s.sec ∧ (endTurn s).pwr = s.pwr ∧
    (endTurn s).host = s.host ∧ (endTurn s).wards = s.wards ∧ (endTurn s).cap = s.cap ∧ (endTurn s).cache = s.cache ∧
    (endTurn s).kcc = s.kcc ∧ (endTurn s).ledger = s.ledger ∧ (endTurn s).groups = s.groups ∧
    (endTurn s).cells = s.cells ∧ (endTurn s).reads = s.reads ∧ (endTurn s).recoveries = s.recoveries ∧
    (endTurn s).nextRead = s.nextRead ∧ (endTurn s).obs = s.obs ∧ (endTurn s).pin = s.pin ∧ (endTurn s).regs = s.regs ∧
    (endTurn s).fresh = s.fresh := by
  simp [endTurn]
@[simp] theorem dropReads_frame (c : Ctx) (s : State) :
    (dropReads c s).sys = s.sys ∧ (dropReads c s).clk = s.clk ∧ (dropReads c s).sec = s.sec ∧
    (dropReads c s).pwr = s.pwr ∧ (dropReads c s).cap = s.cap ∧ (dropReads c s).cache = s.cache ∧
    (dropReads c s).kcc = s.kcc ∧ (dropReads c s).ledger = s.ledger ∧ (dropReads c s).groups = s.groups ∧
    (dropReads c s).cells = s.cells ∧ (dropReads c s).reads = s.reads ∧ (dropReads c s).recoveries = s.recoveries ∧
    (dropReads c s).nextRead = s.nextRead ∧ (dropReads c s).obs = s.obs ∧ (dropReads c s).pin = s.pin ∧
    (dropReads c s).regs = s.regs ∧ (dropReads c s).fresh = s.fresh := by
  simp [dropReads]
@[simp] theorem stopRings_frame (w : WardId) (s : State) :
    (stopRings w s).sys = s.sys ∧ (stopRings w s).clk = s.clk ∧ (stopRings w s).sec = s.sec ∧
    (stopRings w s).pwr = s.pwr ∧ (stopRings w s).cap = s.cap ∧ (stopRings w s).cache = s.cache ∧
    (stopRings w s).kcc = s.kcc ∧ (stopRings w s).ledger = s.ledger ∧ (stopRings w s).groups = s.groups ∧
    (stopRings w s).cells = s.cells ∧ (stopRings w s).reads = s.reads ∧ (stopRings w s).recoveries = s.recoveries ∧
    (stopRings w s).nextRead = s.nextRead ∧ (stopRings w s).obs = s.obs ∧ (stopRings w s).pin = s.pin ∧
    (stopRings w s).regs = s.regs ∧ (stopRings w s).fresh = s.fresh := by
  simp [stopRings]
@[simp] theorem newJob_frame (c : Ctx) (es : List Bytes) (s : State) :
    (newJob c es s).2.sys = s.sys ∧ (newJob c es s).2.clk = s.clk ∧ (newJob c es s).2.sec = s.sec ∧
    (newJob c es s).2.pwr = s.pwr ∧ (newJob c es s).2.host = s.host ∧ (newJob c es s).2.wards = s.wards ∧
    (newJob c es s).2.cap = s.cap ∧ (newJob c es s).2.cache = s.cache ∧ (newJob c es s).2.kcc = s.kcc ∧
    (newJob c es s).2.ledger = s.ledger ∧ (newJob c es s).2.groups = s.groups ∧ (newJob c es s).2.cells = s.cells ∧
    (newJob c es s).2.reads = s.reads ∧ (newJob c es s).2.recoveries = s.recoveries ∧
    (newJob c es s).2.nextRead = s.nextRead ∧ (newJob c es s).2.obs = s.obs ∧ (newJob c es s).2.pin = s.pin ∧
    (newJob c es s).2.regs = s.regs ∧ (newJob c es s).2.fresh = s.fresh := by
  simp [newJob]
@[simp] theorem addJob_frame (j : Job) (s : State) :
    (addJob j s).sys = s.sys ∧ (addJob j s).clk = s.clk ∧ (addJob j s).sec = s.sec ∧ (addJob j s).pwr = s.pwr ∧
    (addJob j s).host = s.host ∧ (addJob j s).wards = s.wards ∧ (addJob j s).cap = s.cap ∧ (addJob j s).cache = s.cache ∧
    (addJob j s).kcc = s.kcc ∧ (addJob j s).ledger = s.ledger ∧ (addJob j s).groups = s.groups ∧
    (addJob j s).cells = s.cells ∧ (addJob j s).reads = s.reads ∧ (addJob j s).recoveries = s.recoveries ∧
    (addJob j s).nextRead = s.nextRead ∧ (addJob j s).obs = s.obs ∧ (addJob j s).pin = s.pin ∧
    (addJob j s).regs = s.regs ∧ (addJob j s).fresh = s.fresh := by
  simp [addJob]
@[simp] theorem endChain_frame (c : Ctx) (status : Nat) (ch : Chain) (s : State) :
    (endChain c status ch s).sys = s.sys ∧ (endChain c status ch s).clk = s.clk ∧ (endChain c status ch s).sec = s.sec ∧
    (endChain c status ch s).pwr = s.pwr ∧ (endChain c status ch s).cap = s.cap ∧
    (endChain c status ch s).cache = s.cache ∧ (endChain c status ch s).kcc = s.kcc ∧
    (endChain c status ch s).ledger = s.ledger ∧ (endChain c status ch s).groups = s.groups ∧
    (endChain c status ch s).cells = s.cells ∧ (endChain c status ch s).reads = s.reads ∧
    (endChain c status ch s).recoveries = s.recoveries ∧ (endChain c status ch s).nextRead = s.nextRead ∧
    (endChain c status ch s).regs = s.regs ∧ (endChain c status ch s).fresh = s.fresh := by
  simp [endChain]
@[simp] theorem endOpen_frame (c : Ctx) (status : Nat) (s : State) :
    (endOpen c status s).sys = s.sys ∧ (endOpen c status s).clk = s.clk ∧ (endOpen c status s).sec = s.sec ∧
    (endOpen c status s).pwr = s.pwr ∧ (endOpen c status s).cap = s.cap ∧ (endOpen c status s).cache = s.cache ∧
    (endOpen c status s).kcc = s.kcc ∧ (endOpen c status s).ledger = s.ledger ∧ (endOpen c status s).groups = s.groups ∧
    (endOpen c status s).cells = s.cells ∧ (endOpen c status s).reads = s.reads ∧
    (endOpen c status s).recoveries = s.recoveries ∧ (endOpen c status s).nextRead = s.nextRead ∧
    (endOpen c status s).regs = s.regs ∧ (endOpen c status s).fresh = s.fresh := by
  unfold endOpen; (repeat' split) <;> simp [*]
@[simp] theorem checkAppendFull_frame (w : WardId) (s : State) :
    (checkAppendFull w s).sys = s.sys ∧ (checkAppendFull w s).clk = s.clk ∧ (checkAppendFull w s).sec = s.sec ∧
    (checkAppendFull w s).pwr = s.pwr ∧ (checkAppendFull w s).host = s.host ∧ (checkAppendFull w s).ring = s.ring ∧
    (checkAppendFull w s).cap = s.cap ∧ (checkAppendFull w s).cache = s.cache ∧ (checkAppendFull w s).kcc = s.kcc ∧
    (checkAppendFull w s).ledger = s.ledger ∧ (checkAppendFull w s).groups = s.groups ∧
    (checkAppendFull w s).cells = s.cells ∧ (checkAppendFull w s).reads = s.reads ∧
    (checkAppendFull w s).recoveries = s.recoveries ∧ (checkAppendFull w s).nextRead = s.nextRead ∧
    (checkAppendFull w s).regs = s.regs ∧ (checkAppendFull w s).fresh = s.fresh := by
  simp [checkAppendFull]
@[simp] theorem applyRings_frame (w : WardId) (j : Job) (s : State) :
    (applyRings w j s).sys = s.sys ∧ (applyRings w j s).clk = s.clk ∧ (applyRings w j s).sec = s.sec ∧
    (applyRings w j s).pwr = s.pwr ∧ (applyRings w j s).host = s.host ∧ (applyRings w j s).ring = s.ring ∧
    (applyRings w j s).cap = s.cap ∧ (applyRings w j s).cache = s.cache ∧ (applyRings w j s).kcc = s.kcc ∧
    (applyRings w j s).ledger = s.ledger ∧ (applyRings w j s).groups = s.groups ∧ (applyRings w j s).cells = s.cells ∧
    (applyRings w j s).reads = s.reads ∧ (applyRings w j s).recoveries = s.recoveries ∧
    (applyRings w j s).nextRead = s.nextRead ∧ (applyRings w j s).obs = s.obs ∧ (applyRings w j s).pin = s.pin ∧
    (applyRings w j s).regs = s.regs ∧ (applyRings w j s).fresh = s.fresh := by
  simp [applyRings]
@[simp] theorem clearWardRings_frame (w : WardId) (s : State) :
    (clearWardRings w s).sys = s.sys ∧ (clearWardRings w s).clk = s.clk ∧ (clearWardRings w s).sec = s.sec ∧
    (clearWardRings w s).pwr = s.pwr ∧ (clearWardRings w s).ring = s.ring ∧ (clearWardRings w s).cap = s.cap ∧
    (clearWardRings w s).cache = s.cache ∧ (clearWardRings w s).kcc = s.kcc ∧ (clearWardRings w s).ledger = s.ledger ∧
    (clearWardRings w s).groups = s.groups ∧ (clearWardRings w s).cells = s.cells ∧ (clearWardRings w s).reads = s.reads ∧
    (clearWardRings w s).recoveries = s.recoveries ∧ (clearWardRings w s).nextRead = s.nextRead ∧
    (clearWardRings w s).obs = s.obs ∧ (clearWardRings w s).pin = s.pin ∧ (clearWardRings w s).regs = s.regs ∧
    (clearWardRings w s).fresh = s.fresh := by
  simp [clearWardRings]
@[simp] theorem setRings_frame (w : WardId) (j : Job) (s : State) :
    (setRings w j s).sys = s.sys ∧ (setRings w j s).clk = s.clk ∧ (setRings w j s).sec = s.sec ∧
    (setRings w j s).pwr = s.pwr ∧ (setRings w j s).cap = s.cap ∧ (setRings w j s).cache = s.cache ∧
    (setRings w j s).kcc = s.kcc ∧ (setRings w j s).ledger = s.ledger ∧ (setRings w j s).groups = s.groups ∧
    (setRings w j s).cells = s.cells ∧ (setRings w j s).reads = s.reads ∧ (setRings w j s).recoveries = s.recoveries ∧
    (setRings w j s).nextRead = s.nextRead ∧ (setRings w j s).obs = s.obs ∧ (setRings w j s).pin = s.pin ∧
    (setRings w j s).regs = s.regs ∧ (setRings w j s).fresh = s.fresh := by
  simp [setRings]
@[simp] theorem setSched_frame (w : WardId) (j : Job) (s : State) :
    (setSched w j s).sys = s.sys ∧ (setSched w j s).clk = s.clk ∧ (setSched w j s).sec = s.sec ∧
    (setSched w j s).pwr = s.pwr ∧ (setSched w j s).host = s.host ∧ (setSched w j s).ring = s.ring ∧
    (setSched w j s).cap = s.cap ∧ (setSched w j s).cache = s.cache ∧ (setSched w j s).kcc = s.kcc ∧
    (setSched w j s).ledger = s.ledger ∧ (setSched w j s).groups = s.groups ∧ (setSched w j s).cells = s.cells ∧
    (setSched w j s).reads = s.reads ∧ (setSched w j s).recoveries = s.recoveries ∧
    (setSched w j s).nextRead = s.nextRead ∧ (setSched w j s).obs = s.obs ∧ (setSched w j s).pin = s.pin ∧
    (setSched w j s).regs = s.regs ∧ (setSched w j s).fresh = s.fresh := by
  simp [setSched]
@[simp] theorem resizeTo_frame (w : WardId) (b : Extent) (p : Extent) (s : State) :
    (resizeTo w b p s).sys = s.sys ∧ (resizeTo w b p s).clk = s.clk ∧ (resizeTo w b p s).sec = s.sec ∧
    (resizeTo w b p s).pwr = s.pwr ∧ (resizeTo w b p s).host = s.host ∧ (resizeTo w b p s).ring = s.ring ∧
    (resizeTo w b p s).cap = s.cap ∧ (resizeTo w b p s).cache = s.cache ∧ (resizeTo w b p s).kcc = s.kcc ∧
    (resizeTo w b p s).ledger = s.ledger ∧ (resizeTo w b p s).groups = s.groups ∧ (resizeTo w b p s).cells = s.cells ∧
    (resizeTo w b p s).reads = s.reads ∧ (resizeTo w b p s).recoveries = s.recoveries ∧
    (resizeTo w b p s).nextRead = s.nextRead ∧ (resizeTo w b p s).obs = s.obs ∧ (resizeTo w b p s).pin = s.pin ∧
    (resizeTo w b p s).regs = s.regs ∧ (resizeTo w b p s).fresh = s.fresh := by
  simp [resizeTo]
@[simp] theorem dropKey_frame (w : WardId) (s : State) :
    (dropKey w s).sys = s.sys ∧ (dropKey w s).clk = s.clk ∧ (dropKey w s).sec = s.sec ∧ (dropKey w s).pwr = s.pwr ∧
    (dropKey w s).host = s.host ∧ (dropKey w s).ring = s.ring ∧ (dropKey w s).wards = s.wards ∧
    (dropKey w s).cap = s.cap ∧ (dropKey w s).cache = s.cache ∧ (dropKey w s).ledger = s.ledger ∧
    (dropKey w s).groups = s.groups ∧ (dropKey w s).cells = s.cells ∧ (dropKey w s).reads = s.reads ∧
    (dropKey w s).recoveries = s.recoveries ∧ (dropKey w s).nextRead = s.nextRead ∧ (dropKey w s).obs = s.obs ∧
    (dropKey w s).pin = s.pin ∧ (dropKey w s).regs = s.regs ∧ (dropKey w s).fresh = s.fresh := by
  simp [dropKey]
@[simp] theorem resetEnds_frame (w : WardId) (s : State) :
    (resetEnds w s).sys = s.sys ∧ (resetEnds w s).clk = s.clk ∧ (resetEnds w s).sec = s.sec ∧
    (resetEnds w s).pwr = s.pwr ∧ (resetEnds w s).host = s.host ∧ (resetEnds w s).ring = s.ring ∧
    (resetEnds w s).cap = s.cap ∧ (resetEnds w s).cache = s.cache ∧ (resetEnds w s).ledger = s.ledger ∧
    (resetEnds w s).groups = s.groups ∧ (resetEnds w s).cells = s.cells ∧ (resetEnds w s).reads = s.reads ∧
    (resetEnds w s).recoveries = s.recoveries ∧ (resetEnds w s).nextRead = s.nextRead ∧ (resetEnds w s).regs = s.regs ∧
    (resetEnds w s).fresh = s.fresh := by
  simp [resetEnds]
@[simp] theorem destroyEnds_frame (w : WardId) (s : State) :
    (destroyEnds w s).sys = s.sys ∧ (destroyEnds w s).clk = s.clk ∧ (destroyEnds w s).sec = s.sec ∧
    (destroyEnds w s).pwr = s.pwr ∧ (destroyEnds w s).ring = s.ring ∧ (destroyEnds w s).cap = s.cap ∧
    (destroyEnds w s).cache = s.cache ∧ (destroyEnds w s).ledger = s.ledger ∧ (destroyEnds w s).groups = s.groups ∧
    (destroyEnds w s).cells = s.cells ∧ (destroyEnds w s).reads = s.reads ∧ (destroyEnds w s).recoveries = s.recoveries ∧
    (destroyEnds w s).nextRead = s.nextRead ∧ (destroyEnds w s).obs = s.obs ∧ (destroyEnds w s).pin = s.pin ∧
    (destroyEnds w s).regs = s.regs ∧ (destroyEnds w s).fresh = s.fresh := by
  simp [destroyEnds]
@[simp] theorem tumblerApply_frame (first : Nat) (images : List Bytes) (s : State) :
    (tumblerApply first images s).sys = s.sys ∧ (tumblerApply first images s).clk = s.clk ∧
    (tumblerApply first images s).sec = s.sec ∧ (tumblerApply first images s).pwr = s.pwr ∧
    (tumblerApply first images s).host = s.host ∧ (tumblerApply first images s).ring = s.ring ∧
    (tumblerApply first images s).wards = s.wards ∧ (tumblerApply first images s).cache = s.cache ∧
    (tumblerApply first images s).kcc = s.kcc ∧ (tumblerApply first images s).ledger = s.ledger ∧
    (tumblerApply first images s).groups = s.groups ∧ (tumblerApply first images s).cells = s.cells ∧
    (tumblerApply first images s).reads = s.reads ∧ (tumblerApply first images s).recoveries = s.recoveries ∧
    (tumblerApply first images s).nextRead = s.nextRead ∧ (tumblerApply first images s).obs = s.obs ∧
    (tumblerApply first images s).pin = s.pin ∧ (tumblerApply first images s).regs = s.regs ∧
    (tumblerApply first images s).fresh = s.fresh := by
  simp [tumblerApply]
@[simp] theorem groupGone_frame (g : GroupId) (s : State) :
    (groupGone g s).sys = s.sys ∧ (groupGone g s).clk = s.clk ∧ (groupGone g s).sec = s.sec ∧
    (groupGone g s).pwr = s.pwr ∧ (groupGone g s).host = s.host ∧ (groupGone g s).ring = s.ring ∧
    (groupGone g s).wards = s.wards ∧ (groupGone g s).cap = s.cap ∧ (groupGone g s).kcc = s.kcc ∧
    (groupGone g s).reads = s.reads ∧ (groupGone g s).recoveries = s.recoveries ∧ (groupGone g s).nextRead = s.nextRead ∧
    (groupGone g s).obs = s.obs ∧ (groupGone g s).pin = s.pin ∧ (groupGone g s).regs = s.regs ∧
    (groupGone g s).fresh = s.fresh := by
  simp [groupGone]
@[simp] theorem groupSetTo_frame (j : Job) (s : State) :
    (groupSetTo j s).sys = s.sys ∧ (groupSetTo j s).clk = s.clk ∧ (groupSetTo j s).sec = s.sec ∧
    (groupSetTo j s).pwr = s.pwr ∧ (groupSetTo j s).host = s.host ∧ (groupSetTo j s).ring = s.ring ∧
    (groupSetTo j s).wards = s.wards ∧ (groupSetTo j s).cap = s.cap ∧ (groupSetTo j s).kcc = s.kcc ∧
    (groupSetTo j s).reads = s.reads ∧ (groupSetTo j s).recoveries = s.recoveries ∧
    (groupSetTo j s).nextRead = s.nextRead ∧ (groupSetTo j s).obs = s.obs ∧ (groupSetTo j s).pin = s.pin ∧
    (groupSetTo j s).regs = s.regs ∧ (groupSetTo j s).fresh = s.fresh := by
  simp [groupSetTo]
@[simp] theorem rebuildTo_frame (j : Job) (s : State) :
    (rebuildTo j s).sys = s.sys ∧ (rebuildTo j s).clk = s.clk ∧ (rebuildTo j s).sec = s.sec ∧
    (rebuildTo j s).pwr = s.pwr ∧ (rebuildTo j s).host = s.host ∧ (rebuildTo j s).ring = s.ring ∧
    (rebuildTo j s).wards = s.wards ∧ (rebuildTo j s).cap = s.cap ∧ (rebuildTo j s).cache = s.cache ∧
    (rebuildTo j s).kcc = s.kcc ∧ (rebuildTo j s).ledger = s.ledger ∧ (rebuildTo j s).cells = s.cells ∧
    (rebuildTo j s).reads = s.reads ∧ (rebuildTo j s).recoveries = s.recoveries ∧ (rebuildTo j s).nextRead = s.nextRead ∧
    (rebuildTo j s).obs = s.obs ∧ (rebuildTo j s).pin = s.pin ∧ (rebuildTo j s).regs = s.regs ∧
    (rebuildTo j s).fresh = s.fresh := by
  unfold rebuildTo; dsimp only; (repeat' split) <;> simp [*]
@[simp] theorem scrubTo_frame (j : Job) (s : State) :
    (scrubTo j s).sys = s.sys ∧ (scrubTo j s).clk = s.clk ∧ (scrubTo j s).sec = s.sec ∧ (scrubTo j s).pwr = s.pwr ∧
    (scrubTo j s).host = s.host ∧ (scrubTo j s).ring = s.ring ∧ (scrubTo j s).wards = s.wards ∧
    (scrubTo j s).cap = s.cap ∧ (scrubTo j s).cache = s.cache ∧ (scrubTo j s).kcc = s.kcc ∧
    (scrubTo j s).ledger = s.ledger ∧ (scrubTo j s).cells = s.cells ∧ (scrubTo j s).reads = s.reads ∧
    (scrubTo j s).recoveries = s.recoveries ∧ (scrubTo j s).nextRead = s.nextRead ∧ (scrubTo j s).obs = s.obs ∧
    (scrubTo j s).pin = s.pin ∧ (scrubTo j s).regs = s.regs ∧ (scrubTo j s).fresh = s.fresh := by
  simp [scrubTo]
@[simp] theorem waysBack_frame (m : BitVec 16) (s : State) :
    (waysBack m s).sys = s.sys ∧ (waysBack m s).clk = s.clk ∧ (waysBack m s).sec = s.sec ∧ (waysBack m s).pwr = s.pwr ∧
    (waysBack m s).host = s.host ∧ (waysBack m s).ring = s.ring ∧ (waysBack m s).wards = s.wards ∧
    (waysBack m s).cap = s.cap ∧ (waysBack m s).kcc = s.kcc ∧ (waysBack m s).ledger = s.ledger ∧
    (waysBack m s).groups = s.groups ∧ (waysBack m s).cells = s.cells ∧ (waysBack m s).reads = s.reads ∧
    (waysBack m s).recoveries = s.recoveries ∧ (waysBack m s).nextRead = s.nextRead ∧ (waysBack m s).obs = s.obs ∧
    (waysBack m s).pin = s.pin ∧ (waysBack m s).regs = s.regs ∧ (waysBack m s).fresh = s.fresh := by
  simp [waysBack]
@[simp] theorem logTo_frame (j : Job) (s : State) :
    (logTo j s).sys = s.sys ∧ (logTo j s).clk = s.clk ∧ (logTo j s).sec = s.sec ∧ (logTo j s).pwr = s.pwr ∧
    (logTo j s).host = s.host ∧ (logTo j s).ring = s.ring ∧ (logTo j s).wards = s.wards ∧ (logTo j s).cap = s.cap ∧
    (logTo j s).cache = s.cache ∧ (logTo j s).kcc = s.kcc ∧ (logTo j s).ledger = s.ledger ∧
    (logTo j s).groups = s.groups ∧ (logTo j s).cells = s.cells ∧ (logTo j s).reads = s.reads ∧
    (logTo j s).recoveries = s.recoveries ∧ (logTo j s).nextRead = s.nextRead ∧ (logTo j s).pin = s.pin ∧
    (logTo j s).regs = s.regs ∧ (logTo j s).fresh = s.fresh := by
  simp [logTo]
@[simp] theorem entryEffect_frame (i : Intent) (s : State) :
    (entryEffect i s).sys = s.sys ∧ (entryEffect i s).clk = s.clk ∧ (entryEffect i s).sec = s.sec ∧
    (entryEffect i s).pwr = s.pwr ∧ (entryEffect i s).cap = s.cap ∧ (entryEffect i s).kcc = s.kcc ∧
    (entryEffect i s).reads = s.reads ∧ (entryEffect i s).recoveries = s.recoveries ∧
    (entryEffect i s).nextRead = s.nextRead ∧ (entryEffect i s).pin = s.pin ∧ (entryEffect i s).regs = s.regs ∧
    (entryEffect i s).fresh = s.fresh := by
  unfold entryEffect; (repeat' split) <;> simp [*]
@[simp] theorem applyEffect_frame (i : Intent) (s : State) :
    (applyEffect i s).sys = s.sys ∧ (applyEffect i s).clk = s.clk ∧ (applyEffect i s).pwr = s.pwr ∧
    (applyEffect i s).reads = s.reads ∧ (applyEffect i s).recoveries = s.recoveries ∧
    (applyEffect i s).nextRead = s.nextRead ∧ (applyEffect i s).regs = s.regs ∧ (applyEffect i s).fresh = s.fresh := by
  unfold applyEffect; (repeat' split) <;> simp [*]
@[simp] theorem kccLookup_frame (w : WardId) (s : State) :
    (kccLookup w s).2.sys = s.sys ∧ (kccLookup w s).2.clk = s.clk ∧ (kccLookup w s).2.sec = s.sec ∧
    (kccLookup w s).2.pwr = s.pwr ∧ (kccLookup w s).2.host = s.host ∧ (kccLookup w s).2.ring = s.ring ∧
    (kccLookup w s).2.wards = s.wards ∧ (kccLookup w s).2.cap = s.cap ∧ (kccLookup w s).2.cache = s.cache ∧
    (kccLookup w s).2.ledger = s.ledger ∧ (kccLookup w s).2.groups = s.groups ∧ (kccLookup w s).2.cells = s.cells ∧
    (kccLookup w s).2.reads = s.reads ∧ (kccLookup w s).2.recoveries = s.recoveries ∧
    (kccLookup w s).2.nextRead = s.nextRead ∧ (kccLookup w s).2.pin = s.pin ∧ (kccLookup w s).2.regs = s.regs ∧
    (kccLookup w s).2.fresh = s.fresh := by
  unfold kccLookup; (repeat' split) <;> simp [*]
@[simp] theorem queueCommit_frame (n : DWord) (s : State) :
    (queueCommit n s).sys = s.sys ∧ (queueCommit n s).clk = s.clk ∧ (queueCommit n s).sec = s.sec ∧
    (queueCommit n s).pwr = s.pwr ∧ (queueCommit n s).host = s.host ∧ (queueCommit n s).ring = s.ring ∧
    (queueCommit n s).wards = s.wards ∧ (queueCommit n s).cap = s.cap ∧ (queueCommit n s).cache = s.cache ∧
    (queueCommit n s).kcc = s.kcc ∧ (queueCommit n s).groups = s.groups ∧ (queueCommit n s).cells = s.cells ∧
    (queueCommit n s).reads = s.reads ∧ (queueCommit n s).recoveries = s.recoveries ∧
    (queueCommit n s).nextRead = s.nextRead ∧ (queueCommit n s).obs = s.obs ∧ (queueCommit n s).pin = s.pin ∧
    (queueCommit n s).regs = s.regs ∧ (queueCommit n s).fresh = s.fresh := by
  simp [queueCommit]
@[simp] theorem commitHeld_frame (s : State) (i : Intent) :
    (commitHeld s i).sys = s.sys ∧ (commitHeld s i).clk = s.clk ∧ (commitHeld s i).sec = s.sec ∧
    (commitHeld s i).pwr = s.pwr ∧ (commitHeld s i).host = s.host ∧ (commitHeld s i).ring = s.ring ∧
    (commitHeld s i).wards = s.wards ∧ (commitHeld s i).cap = s.cap ∧ (commitHeld s i).cache = s.cache ∧
    (commitHeld s i).kcc = s.kcc ∧ (commitHeld s i).groups = s.groups ∧ (commitHeld s i).cells = s.cells ∧
    (commitHeld s i).reads = s.reads ∧ (commitHeld s i).recoveries = s.recoveries ∧
    (commitHeld s i).nextRead = s.nextRead ∧ (commitHeld s i).obs = s.obs ∧ (commitHeld s i).pin = s.pin ∧
    (commitHeld s i).regs = s.regs ∧ (commitHeld s i).fresh = s.fresh := by
  unfold commitHeld; (repeat' split) <;> simp [*]
@[simp] theorem holdCheck_frame (s : State) :
    (holdCheck s).sys = s.sys ∧ (holdCheck s).clk = s.clk ∧ (holdCheck s).sec = s.sec ∧ (holdCheck s).pwr = s.pwr ∧
    (holdCheck s).host = s.host ∧ (holdCheck s).ring = s.ring ∧ (holdCheck s).wards = s.wards ∧
    (holdCheck s).cap = s.cap ∧ (holdCheck s).cache = s.cache ∧ (holdCheck s).kcc = s.kcc ∧
    (holdCheck s).groups = s.groups ∧ (holdCheck s).cells = s.cells ∧ (holdCheck s).reads = s.reads ∧
    (holdCheck s).recoveries = s.recoveries ∧ (holdCheck s).nextRead = s.nextRead ∧ (holdCheck s).obs = s.obs ∧
    (holdCheck s).pin = s.pin ∧ (holdCheck s).regs = s.regs ∧ (holdCheck s).fresh = s.fresh := by
  simp [holdCheck]
@[simp] theorem recordsDone_frame (n : DWord) (s : State) :
    (recordsDone n s).sys = s.sys ∧ (recordsDone n s).clk = s.clk ∧ (recordsDone n s).sec = s.sec ∧
    (recordsDone n s).pwr = s.pwr ∧ (recordsDone n s).host = s.host ∧ (recordsDone n s).ring = s.ring ∧
    (recordsDone n s).wards = s.wards ∧ (recordsDone n s).cap = s.cap ∧ (recordsDone n s).cache = s.cache ∧
    (recordsDone n s).kcc = s.kcc ∧ (recordsDone n s).groups = s.groups ∧ (recordsDone n s).cells = s.cells ∧
    (recordsDone n s).reads = s.reads ∧ (recordsDone n s).recoveries = s.recoveries ∧
    (recordsDone n s).nextRead = s.nextRead ∧ (recordsDone n s).obs = s.obs ∧ (recordsDone n s).pin = s.pin ∧
    (recordsDone n s).regs = s.regs ∧ (recordsDone n s).fresh = s.fresh := by
  simp [recordsDone]
@[simp] theorem loseBlock_frame (b : SealedBlk) (s : State) :
    (loseBlock b s).sys = s.sys ∧ (loseBlock b s).clk = s.clk ∧ (loseBlock b s).sec = s.sec ∧
    (loseBlock b s).pwr = s.pwr ∧ (loseBlock b s).host = s.host ∧ (loseBlock b s).ring = s.ring ∧
    (loseBlock b s).cache = s.cache ∧ (loseBlock b s).kcc = s.kcc ∧ (loseBlock b s).groups = s.groups ∧
    (loseBlock b s).cells = s.cells ∧ (loseBlock b s).reads = s.reads ∧ (loseBlock b s).recoveries = s.recoveries ∧
    (loseBlock b s).nextRead = s.nextRead ∧ (loseBlock b s).obs = s.obs ∧ (loseBlock b s).pin = s.pin ∧
    (loseBlock b s).regs = s.regs ∧ (loseBlock b s).fresh = s.fresh := by
  simp [loseBlock]
@[simp] theorem newIntent_frame (i : Intent) (s : State) :
    (newIntent i s).sys = s.sys ∧ (newIntent i s).clk = s.clk ∧ (newIntent i s).sec = s.sec ∧
    (newIntent i s).pwr = s.pwr ∧ (newIntent i s).host = s.host ∧ (newIntent i s).ring = s.ring ∧
    (newIntent i s).wards = s.wards ∧ (newIntent i s).cap = s.cap ∧ (newIntent i s).cache = s.cache ∧
    (newIntent i s).kcc = s.kcc ∧ (newIntent i s).groups = s.groups ∧ (newIntent i s).cells = s.cells ∧
    (newIntent i s).reads = s.reads ∧ (newIntent i s).recoveries = s.recoveries ∧ (newIntent i s).nextRead = s.nextRead ∧
    (newIntent i s).obs = s.obs ∧ (newIntent i s).pin = s.pin ∧ (newIntent i s).regs = s.regs ∧
    (newIntent i s).fresh = s.fresh := by
  simp [newIntent]
@[simp] theorem touchOld_frame (g : GroupId) (datas : List DataRec) (s : State) :
    (touchOld g datas s).sys = s.sys ∧ (touchOld g datas s).clk = s.clk ∧ (touchOld g datas s).sec = s.sec ∧
    (touchOld g datas s).pwr = s.pwr ∧ (touchOld g datas s).host = s.host ∧ (touchOld g datas s).ring = s.ring ∧
    (touchOld g datas s).wards = s.wards ∧ (touchOld g datas s).cap = s.cap ∧ (touchOld g datas s).kcc = s.kcc ∧
    (touchOld g datas s).ledger = s.ledger ∧ (touchOld g datas s).groups = s.groups ∧
    (touchOld g datas s).cells = s.cells ∧ (touchOld g datas s).reads = s.reads ∧
    (touchOld g datas s).recoveries = s.recoveries ∧ (touchOld g datas s).nextRead = s.nextRead ∧
    (touchOld g datas s).pin = s.pin ∧ (touchOld g datas s).regs = s.regs ∧ (touchOld g datas s).fresh = s.fresh := by
  simp [touchOld]
@[simp] theorem takeIntent_frame (x : Waiting) (keys : BitVec 512) (s : State) :
    (takeIntent x keys s).sys = s.sys ∧ (takeIntent x keys s).clk = s.clk ∧ (takeIntent x keys s).sec = s.sec ∧
    (takeIntent x keys s).pwr = s.pwr ∧ (takeIntent x keys s).host = s.host ∧ (takeIntent x keys s).wards = s.wards ∧
    (takeIntent x keys s).kcc = s.kcc ∧ (takeIntent x keys s).groups = s.groups ∧ (takeIntent x keys s).cells = s.cells ∧
    (takeIntent x keys s).reads = s.reads ∧ (takeIntent x keys s).recoveries = s.recoveries ∧
    (takeIntent x keys s).nextRead = s.nextRead ∧ (takeIntent x keys s).pin = s.pin ∧
    (takeIntent x keys s).regs = s.regs ∧ (takeIntent x keys s).fresh = s.fresh := by
  unfold takeIntent; (repeat' split) <;> simp [*]
@[simp] theorem journal_frame (phase : JobPhase) (j : Job) (eff : Effect) (detail : Nat) (s : State) :
    (journal phase j eff detail s).sys = s.sys ∧ (journal phase j eff detail s).clk = s.clk ∧
    (journal phase j eff detail s).sec = s.sec ∧ (journal phase j eff detail s).pwr = s.pwr ∧
    (journal phase j eff detail s).cap = s.cap ∧ (journal phase j eff detail s).cache = s.cache ∧
    (journal phase j eff detail s).kcc = s.kcc ∧ (journal phase j eff detail s).groups = s.groups ∧
    (journal phase j eff detail s).cells = s.cells ∧ (journal phase j eff detail s).reads = s.reads ∧
    (journal phase j eff detail s).recoveries = s.recoveries ∧ (journal phase j eff detail s).nextRead = s.nextRead ∧
    (journal phase j eff detail s).regs = s.regs ∧ (journal phase j eff detail s).fresh = s.fresh := by
  simp [journal]
@[simp] theorem takeKeyed_frame (x : Waiting) (s : State) :
    (takeKeyed x s).sys = s.sys ∧ (takeKeyed x s).clk = s.clk ∧ (takeKeyed x s).sec = s.sec ∧
    (takeKeyed x s).pwr = s.pwr ∧ (takeKeyed x s).host = s.host ∧ (takeKeyed x s).wards = s.wards ∧
    (takeKeyed x s).groups = s.groups ∧ (takeKeyed x s).cells = s.cells ∧ (takeKeyed x s).reads = s.reads ∧
    (takeKeyed x s).recoveries = s.recoveries ∧ (takeKeyed x s).nextRead = s.nextRead ∧ (takeKeyed x s).pin = s.pin ∧
    (takeKeyed x s).regs = s.regs ∧ (takeKeyed x s).fresh = s.fresh := by
  unfold takeKeyed; dsimp only; (repeat' split) <;> simp [*]
@[simp] theorem reserve_frame (s : State) :
    (reserve s).sys = s.sys ∧ (reserve s).clk = s.clk ∧ (reserve s).sec = s.sec ∧ (reserve s).pwr = s.pwr ∧
    (reserve s).groups = s.groups ∧ (reserve s).cells = s.cells ∧ (reserve s).reads = s.reads ∧
    (reserve s).recoveries = s.recoveries ∧ (reserve s).nextRead = s.nextRead ∧ (reserve s).regs = s.regs ∧
    (reserve s).fresh = s.fresh := by
  unfold reserve; (repeat' split) <;> simp [*]
@[simp] theorem commitData_frame (cls : Nat) (space : Nat) (w : WardId) (d : DataRec) (s : State) :
    (commitData cls space w d s).2.sys = s.sys ∧ (commitData cls space w d s).2.clk = s.clk ∧
    (commitData cls space w d s).2.sec = s.sec ∧ (commitData cls space w d s).2.pwr = s.pwr ∧
    (commitData cls space w d s).2.host = s.host ∧ (commitData cls space w d s).2.ring = s.ring ∧
    (commitData cls space w d s).2.wards = s.wards ∧ (commitData cls space w d s).2.cap = s.cap ∧
    (commitData cls space w d s).2.kcc = s.kcc ∧ (commitData cls space w d s).2.ledger = s.ledger ∧
    (commitData cls space w d s).2.groups = s.groups ∧ (commitData cls space w d s).2.cells = s.cells ∧
    (commitData cls space w d s).2.reads = s.reads ∧ (commitData cls space w d s).2.recoveries = s.recoveries ∧
    (commitData cls space w d s).2.nextRead = s.nextRead ∧ (commitData cls space w d s).2.pin = s.pin ∧
    (commitData cls space w d s).2.regs = s.regs ∧ (commitData cls space w d s).2.fresh = s.fresh := by
  simp [commitData]
@[simp] theorem commitParity_frame (boot : Word) (policy : Nat) (cls : Nat) (p : ParRec) (s : State) :
    (commitParity boot policy cls p s).sys = s.sys ∧ (commitParity boot policy cls p s).clk = s.clk ∧
    (commitParity boot policy cls p s).sec = s.sec ∧ (commitParity boot policy cls p s).pwr = s.pwr ∧
    (commitParity boot policy cls p s).host = s.host ∧ (commitParity boot policy cls p s).ring = s.ring ∧
    (commitParity boot policy cls p s).wards = s.wards ∧ (commitParity boot policy cls p s).cap = s.cap ∧
    (commitParity boot policy cls p s).kcc = s.kcc ∧ (commitParity boot policy cls p s).ledger = s.ledger ∧
    (commitParity boot policy cls p s).groups = s.groups ∧ (commitParity boot policy cls p s).cells = s.cells ∧
    (commitParity boot policy cls p s).reads = s.reads ∧ (commitParity boot policy cls p s).recoveries = s.recoveries ∧
    (commitParity boot policy cls p s).nextRead = s.nextRead ∧ (commitParity boot policy cls p s).pin = s.pin ∧
    (commitParity boot policy cls p s).regs = s.regs ∧ (commitParity boot policy cls p s).fresh = s.fresh := by
  unfold commitParity; dsimp only; (repeat' split) <;> simp [*]
@[simp] theorem pressure_frame (a0 : Nat) (s : State) :
    (pressure a0 s).sys = s.sys ∧ (pressure a0 s).clk = s.clk ∧ (pressure a0 s).sec = s.sec ∧
    (pressure a0 s).pwr = s.pwr ∧ (pressure a0 s).host = s.host ∧ (pressure a0 s).ring = s.ring ∧
    (pressure a0 s).wards = s.wards ∧ (pressure a0 s).cap = s.cap ∧ (pressure a0 s).kcc = s.kcc ∧
    (pressure a0 s).ledger = s.ledger ∧ (pressure a0 s).groups = s.groups ∧ (pressure a0 s).cells = s.cells ∧
    (pressure a0 s).reads = s.reads ∧ (pressure a0 s).recoveries = s.recoveries ∧ (pressure a0 s).nextRead = s.nextRead ∧
    (pressure a0 s).obs = s.obs ∧ (pressure a0 s).pin = s.pin ∧ (pressure a0 s).regs = s.regs ∧
    (pressure a0 s).fresh = s.fresh := by
  induction a0 generalizing s <;> unfold pressure <;> (repeat' split) <;> simp [*]
@[simp] theorem destagePressure_frame (s : State) :
    (destagePressure s).sys = s.sys ∧ (destagePressure s).clk = s.clk ∧ (destagePressure s).sec = s.sec ∧
    (destagePressure s).pwr = s.pwr ∧ (destagePressure s).host = s.host ∧ (destagePressure s).ring = s.ring ∧
    (destagePressure s).wards = s.wards ∧ (destagePressure s).cap = s.cap ∧ (destagePressure s).kcc = s.kcc ∧
    (destagePressure s).ledger = s.ledger ∧ (destagePressure s).groups = s.groups ∧ (destagePressure s).cells = s.cells ∧
    (destagePressure s).reads = s.reads ∧ (destagePressure s).recoveries = s.recoveries ∧
    (destagePressure s).nextRead = s.nextRead ∧ (destagePressure s).obs = s.obs ∧ (destagePressure s).pin = s.pin ∧
    (destagePressure s).regs = s.regs ∧ (destagePressure s).fresh = s.fresh := by
  simp [destagePressure]
@[simp] theorem commitContext_frame (i : Intent) (s : State) :
    (commitContext i s).sys = s.sys ∧ (commitContext i s).clk = s.clk ∧ (commitContext i s).sec = s.sec ∧
    (commitContext i s).pwr = s.pwr ∧ (commitContext i s).host = s.host ∧ (commitContext i s).cap = s.cap ∧
    (commitContext i s).cache = s.cache ∧ (commitContext i s).kcc = s.kcc ∧ (commitContext i s).ledger = s.ledger ∧
    (commitContext i s).groups = s.groups ∧ (commitContext i s).cells = s.cells ∧ (commitContext i s).reads = s.reads ∧
    (commitContext i s).recoveries = s.recoveries ∧ (commitContext i s).nextRead = s.nextRead ∧
    (commitContext i s).regs = s.regs ∧ (commitContext i s).fresh = s.fresh := by
  unfold commitContext; (repeat' split) <;> simp [*]
@[simp] theorem commitPayload_frame (i : Intent) (s : State) :
    (commitPayload i s).sys = s.sys ∧ (commitPayload i s).clk = s.clk ∧ (commitPayload i s).sec = s.sec ∧
    (commitPayload i s).pwr = s.pwr ∧ (commitPayload i s).host = s.host ∧ (commitPayload i s).ring = s.ring ∧
    (commitPayload i s).wards = s.wards ∧ (commitPayload i s).cap = s.cap ∧ (commitPayload i s).kcc = s.kcc ∧
    (commitPayload i s).groups = s.groups ∧ (commitPayload i s).cells = s.cells ∧ (commitPayload i s).reads = s.reads ∧
    (commitPayload i s).recoveries = s.recoveries ∧ (commitPayload i s).nextRead = s.nextRead ∧
    (commitPayload i s).pin = s.pin ∧ (commitPayload i s).regs = s.regs ∧ (commitPayload i s).fresh = s.fresh := by
  simp [commitPayload]
@[simp] theorem commitDone_frame (i : Intent) (s : State) :
    (commitDone i s).sys = s.sys ∧ (commitDone i s).clk = s.clk ∧ (commitDone i s).pwr = s.pwr ∧
    (commitDone i s).reads = s.reads ∧ (commitDone i s).recoveries = s.recoveries ∧
    (commitDone i s).nextRead = s.nextRead ∧ (commitDone i s).regs = s.regs ∧ (commitDone i s).fresh = s.fresh := by
  unfold commitDone; dsimp only; (repeat' split) <;> simp [*]
@[simp] theorem resolvedDone_frame (n : DWord) (k : Nat) (s : State) :
    (resolvedDone n k s).sys = s.sys ∧ (resolvedDone n k s).clk = s.clk ∧ (resolvedDone n k s).sec = s.sec ∧
    (resolvedDone n k s).pwr = s.pwr ∧ (resolvedDone n k s).host = s.host ∧ (resolvedDone n k s).ring = s.ring ∧
    (resolvedDone n k s).wards = s.wards ∧ (resolvedDone n k s).cap = s.cap ∧ (resolvedDone n k s).kcc = s.kcc ∧
    (resolvedDone n k s).groups = s.groups ∧ (resolvedDone n k s).cells = s.cells ∧ (resolvedDone n k s).reads = s.reads ∧
    (resolvedDone n k s).recoveries = s.recoveries ∧ (resolvedDone n k s).nextRead = s.nextRead ∧
    (resolvedDone n k s).pin = s.pin ∧ (resolvedDone n k s).regs = s.regs ∧ (resolvedDone n k s).fresh = s.fresh := by
  unfold resolvedDone; (repeat' split) <;> simp [*]
@[simp] theorem itemDone_frame (it : PortItem) (s : State) :
    (itemDone it s).clk = s.clk ∧ (itemDone it s).pwr = s.pwr ∧ (itemDone it s).reads = s.reads ∧
    (itemDone it s).recoveries = s.recoveries ∧ (itemDone it s).nextRead = s.nextRead ∧ (itemDone it s).regs = s.regs ∧
    (itemDone it s).fresh = s.fresh := by
  unfold itemDone; dsimp only; (repeat' split) <;> simp [*]
@[simp] theorem retireSlot_frame (n : Nat) (s : State) :
    (retireSlot n s).sys = s.sys ∧ (retireSlot n s).clk = s.clk ∧ (retireSlot n s).sec = s.sec ∧
    (retireSlot n s).cap = s.cap ∧ (retireSlot n s).kcc = s.kcc ∧ (retireSlot n s).nextRead = s.nextRead ∧
    (retireSlot n s).regs = s.regs ∧ (retireSlot n s).fresh = s.fresh := by
  simp [retireSlot]
@[simp] theorem writeSlots_frame (key : BitVec 256) (bad : List Nat) (a2 : Nat) (a3 : Nat) (s : State) :
    (writeSlots key bad a2 a3 s).2.sys = s.sys ∧ (writeSlots key bad a2 a3 s).2.clk = s.clk ∧
    (writeSlots key bad a2 a3 s).2.sec = s.sec ∧ (writeSlots key bad a2 a3 s).2.cap = s.cap ∧
    (writeSlots key bad a2 a3 s).2.kcc = s.kcc ∧ (writeSlots key bad a2 a3 s).2.nextRead = s.nextRead ∧
    (writeSlots key bad a2 a3 s).2.regs = s.regs ∧ (writeSlots key bad a2 a3 s).2.fresh = s.fresh := by
  induction a2 generalizing key bad a3 s <;> unfold writeSlots <;> dsimp only <;> (repeat' split) <;> simp [*]
@[simp] theorem tagFails_frame (slot : Nat) (s : State) :
    (tagFails slot s).sys = s.sys ∧ (tagFails slot s).clk = s.clk ∧ (tagFails slot s).sec = s.sec ∧
    (tagFails slot s).cap = s.cap ∧ (tagFails slot s).kcc = s.kcc ∧ (tagFails slot s).nextRead = s.nextRead ∧
    (tagFails slot s).regs = s.regs ∧ (tagFails slot s).fresh = s.fresh := by
  simp [tagFails]
@[simp] theorem ledgerRound_frame (bad : List Nat) (s : State) :
    (ledgerRound bad s).clk = s.clk ∧ (ledgerRound bad s).nextRead = s.nextRead ∧ (ledgerRound bad s).regs = s.regs ∧
    (ledgerRound bad s).fresh = s.fresh := by
  unfold ledgerRound; (repeat' split) <;> simp [*]
@[simp] theorem drainPort_frame (a0 : Nat) (s : State) :
    (drainPort a0 s).clk = s.clk ∧ (drainPort a0 s).nextRead = s.nextRead ∧ (drainPort a0 s).regs = s.regs ∧
    (drainPort a0 s).fresh = s.fresh := by
  induction a0 generalizing s <;> simp [drainPort, *]
@[simp] theorem kccUnwrap_frame (intact : Bool) (s : State) :
    (kccUnwrap intact s).sys = s.sys ∧ (kccUnwrap intact s).clk = s.clk ∧ (kccUnwrap intact s).sec = s.sec ∧
    (kccUnwrap intact s).pwr = s.pwr ∧ (kccUnwrap intact s).cache = s.cache ∧ (kccUnwrap intact s).groups = s.groups ∧
    (kccUnwrap intact s).cells = s.cells ∧ (kccUnwrap intact s).reads = s.reads ∧
    (kccUnwrap intact s).recoveries = s.recoveries ∧ (kccUnwrap intact s).nextRead = s.nextRead ∧
    (kccUnwrap intact s).regs = s.regs ∧ (kccUnwrap intact s).fresh = s.fresh := by
  unfold kccUnwrap; (repeat' split) <;> simp [*]
@[simp] theorem resolveDeferred_frame (n : DWord) (old : Option Sector) (s : State) :
    (resolveDeferred n old s).sys = s.sys ∧ (resolveDeferred n old s).clk = s.clk ∧
    (resolveDeferred n old s).sec = s.sec ∧ (resolveDeferred n old s).pwr = s.pwr ∧
    (resolveDeferred n old s).host = s.host ∧ (resolveDeferred n old s).ring = s.ring ∧
    (resolveDeferred n old s).wards = s.wards ∧ (resolveDeferred n old s).cap = s.cap ∧
    (resolveDeferred n old s).cache = s.cache ∧ (resolveDeferred n old s).kcc = s.kcc ∧
    (resolveDeferred n old s).groups = s.groups ∧ (resolveDeferred n old s).cells = s.cells ∧
    (resolveDeferred n old s).reads = s.reads ∧ (resolveDeferred n old s).recoveries = s.recoveries ∧
    (resolveDeferred n old s).nextRead = s.nextRead ∧ (resolveDeferred n old s).regs = s.regs ∧
    (resolveDeferred n old s).fresh = s.fresh := by
  unfold resolveDeferred; (repeat' split) <;> simp [*]
@[simp] theorem clearTorn_frame (c : CellId) (a : SubAddr) (s : State) :
    (clearTorn c a s).sys = s.sys ∧ (clearTorn c a s).clk = s.clk ∧ (clearTorn c a s).sec = s.sec ∧
    (clearTorn c a s).pwr = s.pwr ∧ (clearTorn c a s).host = s.host ∧ (clearTorn c a s).ring = s.ring ∧
    (clearTorn c a s).wards = s.wards ∧ (clearTorn c a s).cap = s.cap ∧ (clearTorn c a s).cache = s.cache ∧
    (clearTorn c a s).kcc = s.kcc ∧ (clearTorn c a s).groups = s.groups ∧ (clearTorn c a s).cells = s.cells ∧
    (clearTorn c a s).reads = s.reads ∧ (clearTorn c a s).recoveries = s.recoveries ∧
    (clearTorn c a s).nextRead = s.nextRead ∧ (clearTorn c a s).obs = s.obs ∧ (clearTorn c a s).pin = s.pin ∧
    (clearTorn c a s).regs = s.regs ∧ (clearTorn c a s).fresh = s.fresh := by
  simp [clearTorn]
@[simp] theorem writeOn_frame (c : CellId) (a : SubAddr) (x : Sector) (s : State) :
    (writeOn c a x s).clk = s.clk ∧ (writeOn c a x s).sec = s.sec ∧ (writeOn c a x s).pwr = s.pwr ∧
    (writeOn c a x s).host = s.host ∧ (writeOn c a x s).ring = s.ring ∧ (writeOn c a x s).wards = s.wards ∧
    (writeOn c a x s).cap = s.cap ∧ (writeOn c a x s).cache = s.cache ∧ (writeOn c a x s).kcc = s.kcc ∧
    (writeOn c a x s).groups = s.groups ∧ (writeOn c a x s).cells = s.cells ∧ (writeOn c a x s).reads = s.reads ∧
    (writeOn c a x s).recoveries = s.recoveries ∧ (writeOn c a x s).nextRead = s.nextRead ∧
    (writeOn c a x s).pin = s.pin ∧ (writeOn c a x s).regs = s.regs ∧ (writeOn c a x s).fresh = s.fresh := by
  simp [writeOn]
@[simp] theorem mediaWrite_frame (a : SubAddr) (x : Sector) (s : State) :
    (mediaWrite a x s).clk = s.clk ∧ (mediaWrite a x s).sec = s.sec ∧ (mediaWrite a x s).pwr = s.pwr ∧
    (mediaWrite a x s).host = s.host ∧ (mediaWrite a x s).ring = s.ring ∧ (mediaWrite a x s).wards = s.wards ∧
    (mediaWrite a x s).cap = s.cap ∧ (mediaWrite a x s).cache = s.cache ∧ (mediaWrite a x s).kcc = s.kcc ∧
    (mediaWrite a x s).groups = s.groups ∧ (mediaWrite a x s).cells = s.cells ∧ (mediaWrite a x s).reads = s.reads ∧
    (mediaWrite a x s).recoveries = s.recoveries ∧ (mediaWrite a x s).nextRead = s.nextRead ∧
    (mediaWrite a x s).pin = s.pin ∧ (mediaWrite a x s).regs = s.regs ∧ (mediaWrite a x s).fresh = s.fresh := by
  simp [mediaWrite]
@[simp] theorem replayCheck_frame (s : State) :
    (replayCheck s).sys = s.sys ∧ (replayCheck s).clk = s.clk ∧ (replayCheck s).sec = s.sec ∧
    (replayCheck s).pwr = s.pwr ∧ (replayCheck s).host = s.host ∧ (replayCheck s).ring = s.ring ∧
    (replayCheck s).wards = s.wards ∧ (replayCheck s).cap = s.cap ∧ (replayCheck s).cache = s.cache ∧
    (replayCheck s).kcc = s.kcc ∧ (replayCheck s).groups = s.groups ∧ (replayCheck s).cells = s.cells ∧
    (replayCheck s).reads = s.reads ∧ (replayCheck s).recoveries = s.recoveries ∧ (replayCheck s).nextRead = s.nextRead ∧
    (replayCheck s).regs = s.regs ∧ (replayCheck s).fresh = s.fresh := by
  simp [replayCheck]
@[simp] theorem replayInstall_frame (a : SubAddr) (x : Sector) (s : State) :
    (replayInstall a x s).sys = s.sys ∧ (replayInstall a x s).clk = s.clk ∧ (replayInstall a x s).sec = s.sec ∧
    (replayInstall a x s).pwr = s.pwr ∧ (replayInstall a x s).host = s.host ∧ (replayInstall a x s).ring = s.ring ∧
    (replayInstall a x s).wards = s.wards ∧ (replayInstall a x s).cap = s.cap ∧ (replayInstall a x s).kcc = s.kcc ∧
    (replayInstall a x s).ledger = s.ledger ∧ (replayInstall a x s).groups = s.groups ∧
    (replayInstall a x s).cells = s.cells ∧ (replayInstall a x s).reads = s.reads ∧
    (replayInstall a x s).recoveries = s.recoveries ∧ (replayInstall a x s).nextRead = s.nextRead ∧
    (replayInstall a x s).pin = s.pin ∧ (replayInstall a x s).regs = s.regs ∧ (replayInstall a x s).fresh = s.fresh := by
  simp [replayInstall]
@[simp] theorem replayed_frame (i : Intent) (n : DWord) (s : State) :
    (replayed i n s).sys = s.sys ∧ (replayed i n s).clk = s.clk ∧ (replayed i n s).sec = s.sec ∧
    (replayed i n s).pwr = s.pwr ∧ (replayed i n s).host = s.host ∧ (replayed i n s).ring = s.ring ∧
    (replayed i n s).wards = s.wards ∧ (replayed i n s).cap = s.cap ∧ (replayed i n s).cache = s.cache ∧
    (replayed i n s).kcc = s.kcc ∧ (replayed i n s).groups = s.groups ∧ (replayed i n s).cells = s.cells ∧
    (replayed i n s).reads = s.reads ∧ (replayed i n s).recoveries = s.recoveries ∧
    (replayed i n s).nextRead = s.nextRead ∧ (replayed i n s).obs = s.obs ∧ (replayed i n s).pin = s.pin ∧
    (replayed i n s).regs = s.regs ∧ (replayed i n s).fresh = s.fresh := by
  simp [replayed]
@[simp] theorem replayData_frame (i : Intent) (d : DataRec) (media : Option Sector) (s : State) :
    (replayData i d media s).sys = s.sys ∧ (replayData i d media s).clk = s.clk ∧ (replayData i d media s).sec = s.sec ∧
    (replayData i d media s).pwr = s.pwr ∧ (replayData i d media s).host = s.host ∧
    (replayData i d media s).ring = s.ring ∧ (replayData i d media s).wards = s.wards ∧
    (replayData i d media s).cap = s.cap ∧ (replayData i d media s).kcc = s.kcc ∧
    (replayData i d media s).groups = s.groups ∧ (replayData i d media s).cells = s.cells ∧
    (replayData i d media s).reads = s.reads ∧ (replayData i d media s).recoveries = s.recoveries ∧
    (replayData i d media s).nextRead = s.nextRead ∧ (replayData i d media s).pin = s.pin ∧
    (replayData i d media s).regs = s.regs ∧ (replayData i d media s).fresh = s.fresh := by
  unfold replayData; (repeat' split) <;> simp [*]
@[simp] theorem parApply_frame (i : Intent) (q : ParRec × Nat × ParStep) (rows : List (List (Option Sector))) (s : State)
    :
    (parApply i q rows s).sys = s.sys ∧ (parApply i q rows s).clk = s.clk ∧ (parApply i q rows s).sec = s.sec ∧
    (parApply i q rows s).pwr = s.pwr ∧ (parApply i q rows s).host = s.host ∧ (parApply i q rows s).ring = s.ring ∧
    (parApply i q rows s).wards = s.wards ∧ (parApply i q rows s).cap = s.cap ∧ (parApply i q rows s).kcc = s.kcc ∧
    (parApply i q rows s).groups = s.groups ∧ (parApply i q rows s).cells = s.cells ∧
    (parApply i q rows s).reads = s.reads ∧ (parApply i q rows s).recoveries = s.recoveries ∧
    (parApply i q rows s).nextRead = s.nextRead ∧ (parApply i q rows s).pin = s.pin ∧
    (parApply i q rows s).regs = s.regs ∧ (parApply i q rows s).fresh = s.fresh := by
  unfold parApply; (repeat' split) <;> simp [*]
@[simp] theorem parRecompute_frame (p : ParRec) (row : List (Option Sector)) (s : State) :
    (parRecompute p row s).sys = s.sys ∧ (parRecompute p row s).clk = s.clk ∧ (parRecompute p row s).sec = s.sec ∧
    (parRecompute p row s).pwr = s.pwr ∧ (parRecompute p row s).host = s.host ∧ (parRecompute p row s).ring = s.ring ∧
    (parRecompute p row s).wards = s.wards ∧ (parRecompute p row s).cap = s.cap ∧ (parRecompute p row s).kcc = s.kcc ∧
    (parRecompute p row s).ledger = s.ledger ∧ (parRecompute p row s).groups = s.groups ∧
    (parRecompute p row s).cells = s.cells ∧ (parRecompute p row s).reads = s.reads ∧
    (parRecompute p row s).recoveries = s.recoveries ∧ (parRecompute p row s).nextRead = s.nextRead ∧
    (parRecompute p row s).pin = s.pin ∧ (parRecompute p row s).regs = s.regs ∧
    (parRecompute p row s).fresh = s.fresh := by
  simp [parRecompute]
@[simp] theorem updReplay_frame (i : Intent) (f : Intent → Intent) (s : State) :
    (updReplay i f s).sys = s.sys ∧ (updReplay i f s).clk = s.clk ∧ (updReplay i f s).sec = s.sec ∧
    (updReplay i f s).pwr = s.pwr ∧ (updReplay i f s).host = s.host ∧ (updReplay i f s).ring = s.ring ∧
    (updReplay i f s).wards = s.wards ∧ (updReplay i f s).cap = s.cap ∧ (updReplay i f s).cache = s.cache ∧
    (updReplay i f s).kcc = s.kcc ∧ (updReplay i f s).groups = s.groups ∧ (updReplay i f s).cells = s.cells ∧
    (updReplay i f s).reads = s.reads ∧ (updReplay i f s).recoveries = s.recoveries ∧
    (updReplay i f s).nextRead = s.nextRead ∧ (updReplay i f s).obs = s.obs ∧ (updReplay i f s).pin = s.pin ∧
    (updReplay i f s).regs = s.regs ∧ (updReplay i f s).fresh = s.fresh := by
  simp [updReplay]
@[simp] theorem replayOne_frame (media : List (Option Sector)) (rows : List (List (Option Sector))) (s : State) :
    (replayOne media rows s).sys = s.sys ∧ (replayOne media rows s).clk = s.clk ∧ (replayOne media rows s).sec = s.sec ∧
    (replayOne media rows s).pwr = s.pwr ∧ (replayOne media rows s).host = s.host ∧
    (replayOne media rows s).ring = s.ring ∧ (replayOne media rows s).wards = s.wards ∧
    (replayOne media rows s).cap = s.cap ∧ (replayOne media rows s).kcc = s.kcc ∧
    (replayOne media rows s).groups = s.groups ∧ (replayOne media rows s).cells = s.cells ∧
    (replayOne media rows s).reads = s.reads ∧ (replayOne media rows s).recoveries = s.recoveries ∧
    (replayOne media rows s).nextRead = s.nextRead ∧ (replayOne media rows s).regs = s.regs ∧
    (replayOne media rows s).fresh = s.fresh := by
  unfold replayOne; dsimp only; (repeat' split) <;> simp [*]
@[simp] theorem cellOff_frame (c : CellId) (s : State) :
    (cellOff c s).sys = s.sys ∧ (cellOff c s).clk = s.clk ∧ (cellOff c s).sec = s.sec ∧ (cellOff c s).pwr = s.pwr ∧
    (cellOff c s).host = s.host ∧ (cellOff c s).ring = s.ring ∧ (cellOff c s).wards = s.wards ∧
    (cellOff c s).cap = s.cap ∧ (cellOff c s).kcc = s.kcc ∧ (cellOff c s).groups = s.groups ∧
    (cellOff c s).reads = s.reads ∧ (cellOff c s).nextRead = s.nextRead ∧ (cellOff c s).pin = s.pin ∧
    (cellOff c s).regs = s.regs ∧ (cellOff c s).fresh = s.fresh := by
  simp [cellOff]
@[simp] theorem cellsOff_frame (s : State) :
    (cellsOff s).sys = s.sys ∧ (cellsOff s).clk = s.clk ∧ (cellsOff s).sec = s.sec ∧ (cellsOff s).pwr = s.pwr ∧
    (cellsOff s).host = s.host ∧ (cellsOff s).ring = s.ring ∧ (cellsOff s).wards = s.wards ∧ (cellsOff s).cap = s.cap ∧
    (cellsOff s).kcc = s.kcc ∧ (cellsOff s).groups = s.groups ∧ (cellsOff s).reads = s.reads ∧
    (cellsOff s).nextRead = s.nextRead ∧ (cellsOff s).pin = s.pin ∧ (cellsOff s).regs = s.regs ∧
    (cellsOff s).fresh = s.fresh := by
  simp [cellsOff]
@[simp] theorem portsOff_frame (s : State) :
    (portsOff s).sys = s.sys ∧ (portsOff s).clk = s.clk ∧ (portsOff s).sec = s.sec ∧ (portsOff s).pwr = s.pwr ∧
    (portsOff s).host = s.host ∧ (portsOff s).ring = s.ring ∧ (portsOff s).wards = s.wards ∧
    (portsOff s).cache = s.cache ∧ (portsOff s).kcc = s.kcc ∧ (portsOff s).ledger = s.ledger ∧
    (portsOff s).groups = s.groups ∧ (portsOff s).cells = s.cells ∧ (portsOff s).reads = s.reads ∧
    (portsOff s).recoveries = s.recoveries ∧ (portsOff s).nextRead = s.nextRead ∧ (portsOff s).obs = s.obs ∧
    (portsOff s).pin = s.pin ∧ (portsOff s).regs = s.regs ∧ (portsOff s).fresh = s.fresh := by
  simp [portsOff]
@[simp] theorem mediaOff_frame (s : State) :
    (mediaOff s).sys = s.sys ∧ (mediaOff s).clk = s.clk ∧ (mediaOff s).sec = s.sec ∧ (mediaOff s).host = s.host ∧
    (mediaOff s).ring = s.ring ∧ (mediaOff s).wards = s.wards ∧ (mediaOff s).kcc = s.kcc ∧
    (mediaOff s).groups = s.groups ∧ (mediaOff s).reads = s.reads ∧ (mediaOff s).nextRead = s.nextRead ∧
    (mediaOff s).pin = s.pin ∧ (mediaOff s).regs = s.regs ∧ (mediaOff s).fresh = s.fresh := by
  simp [mediaOff]
@[simp] theorem parkAndBrake_frame (due : DWord) (c : CellId) (s : State) :
    (parkAndBrake due c s).sys = s.sys ∧ (parkAndBrake due c s).clk = s.clk ∧ (parkAndBrake due c s).sec = s.sec ∧
    (parkAndBrake due c s).pwr = s.pwr ∧ (parkAndBrake due c s).host = s.host ∧ (parkAndBrake due c s).ring = s.ring ∧
    (parkAndBrake due c s).wards = s.wards ∧ (parkAndBrake due c s).cap = s.cap ∧ (parkAndBrake due c s).cache = s.cache ∧
    (parkAndBrake due c s).kcc = s.kcc ∧ (parkAndBrake due c s).groups = s.groups ∧
    (parkAndBrake due c s).reads = s.reads ∧ (parkAndBrake due c s).recoveries = s.recoveries ∧
    (parkAndBrake due c s).nextRead = s.nextRead ∧ (parkAndBrake due c s).pin = s.pin ∧
    (parkAndBrake due c s).regs = s.regs ∧ (parkAndBrake due c s).fresh = s.fresh := by
  simp [parkAndBrake]
@[simp] theorem closePort_frame (c : CellId) (s : State) :
    (closePort c s).sys = s.sys ∧ (closePort c s).clk = s.clk ∧ (closePort c s).sec = s.sec ∧
    (closePort c s).pwr = s.pwr ∧ (closePort c s).host = s.host ∧ (closePort c s).ring = s.ring ∧
    (closePort c s).wards = s.wards ∧ (closePort c s).cap = s.cap ∧ (closePort c s).cache = s.cache ∧
    (closePort c s).kcc = s.kcc ∧ (closePort c s).groups = s.groups ∧ (closePort c s).reads = s.reads ∧
    (closePort c s).recoveries = s.recoveries ∧ (closePort c s).nextRead = s.nextRead ∧ (closePort c s).pin = s.pin ∧
    (closePort c s).regs = s.regs ∧ (closePort c s).fresh = s.fresh := by
  simp [closePort]
@[simp] theorem quiesceMedia_frame (s : State) :
    (quiesceMedia s).sys = s.sys ∧ (quiesceMedia s).clk = s.clk ∧ (quiesceMedia s).sec = s.sec ∧
    (quiesceMedia s).pwr = s.pwr ∧ (quiesceMedia s).host = s.host ∧ (quiesceMedia s).cache = s.cache ∧
    (quiesceMedia s).kcc = s.kcc ∧ (quiesceMedia s).reads = s.reads ∧ (quiesceMedia s).nextRead = s.nextRead ∧
    (quiesceMedia s).pin = s.pin ∧ (quiesceMedia s).regs = s.regs ∧ (quiesceMedia s).fresh = s.fresh := by
  simp [quiesceMedia]

end Sys2Proof.Machine
end

