-- ==== Sys2Proof/Laws/FrameBoot.lean ====
section
/-! SUPPORT. Frames of the start-up, the modes, register images, clock, votes and rings: what each operation leaves as it was. -/

set_option linter.unusedTactic false
set_option linter.unreachableTactic false

namespace Sys2Proof.Machine

@[simp] theorem clearCsps_frame (s : State) :
    (clearCsps s).sys = s.sys ∧ (clearCsps s).clk = s.clk ∧ (clearCsps s).pwr = s.pwr ∧ (clearCsps s).host = s.host ∧
    (clearCsps s).ring = s.ring ∧ (clearCsps s).wards = s.wards ∧ (clearCsps s).cap = s.cap ∧
    (clearCsps s).cache = s.cache ∧ (clearCsps s).ledger = s.ledger ∧ (clearCsps s).groups = s.groups ∧
    (clearCsps s).cells = s.cells ∧ (clearCsps s).reads = s.reads ∧ (clearCsps s).recoveries = s.recoveries ∧
    (clearCsps s).nextRead = s.nextRead ∧ (clearCsps s).obs = s.obs ∧ (clearCsps s).pin = s.pin ∧
    (clearCsps s).regs = s.regs ∧ (clearCsps s).fresh = s.fresh := by
  simp [clearCsps]
@[simp] theorem errorState_frame (cause : Nat) (s : State) :
    (errorState cause s).sys = s.sys ∧ (errorState cause s).clk = s.clk ∧ (errorState cause s).cap = s.cap ∧
    (errorState cause s).nextRead = s.nextRead ∧ (errorState cause s).regs = s.regs ∧
    (errorState cause s).fresh = s.fresh := by
  simp [errorState]
@[simp] theorem putMark_frame (slot : Nat) (k : MarkKind) (s : State) :
    (putMark slot k s).sys = s.sys ∧ (putMark slot k s).clk = s.clk ∧ (putMark slot k s).sec = s.sec ∧
    (putMark slot k s).pwr = s.pwr ∧ (putMark slot k s).host = s.host ∧ (putMark slot k s).ring = s.ring ∧
    (putMark slot k s).wards = s.wards ∧ (putMark slot k s).cap = s.cap ∧ (putMark slot k s).cache = s.cache ∧
    (putMark slot k s).kcc = s.kcc ∧ (putMark slot k s).groups = s.groups ∧ (putMark slot k s).cells = s.cells ∧
    (putMark slot k s).reads = s.reads ∧ (putMark slot k s).recoveries = s.recoveries ∧
    (putMark slot k s).nextRead = s.nextRead ∧ (putMark slot k s).pin = s.pin ∧ (putMark slot k s).regs = s.regs ∧
    (putMark slot k s).fresh = s.fresh := by
  unfold putMark; (repeat' split) <;> simp [*]
@[simp] theorem freeNow_frame (l : List Nat) (s : State) :
    (freeNow l s).sys = s.sys ∧ (freeNow l s).clk = s.clk ∧ (freeNow l s).sec = s.sec ∧ (freeNow l s).pwr = s.pwr ∧
    (freeNow l s).host = s.host ∧ (freeNow l s).ring = s.ring ∧ (freeNow l s).wards = s.wards ∧
    (freeNow l s).cap = s.cap ∧ (freeNow l s).cache = s.cache ∧ (freeNow l s).kcc = s.kcc ∧
    (freeNow l s).groups = s.groups ∧ (freeNow l s).cells = s.cells ∧ (freeNow l s).reads = s.reads ∧
    (freeNow l s).recoveries = s.recoveries ∧ (freeNow l s).nextRead = s.nextRead ∧ (freeNow l s).pin = s.pin ∧
    (freeNow l s).regs = s.regs ∧ (freeNow l s).fresh = s.fresh := by
  simp [freeNow]
@[simp] theorem freeMarks_frame (f : Mark → Bool) (s : State) :
    (freeMarks f s).sys = s.sys ∧ (freeMarks f s).clk = s.clk ∧ (freeMarks f s).sec = s.sec ∧
    (freeMarks f s).pwr = s.pwr ∧ (freeMarks f s).host = s.host ∧ (freeMarks f s).ring = s.ring ∧
    (freeMarks f s).wards = s.wards ∧ (freeMarks f s).cap = s.cap ∧ (freeMarks f s).cache = s.cache ∧
    (freeMarks f s).kcc = s.kcc ∧ (freeMarks f s).groups = s.groups ∧ (freeMarks f s).cells = s.cells ∧
    (freeMarks f s).reads = s.reads ∧ (freeMarks f s).recoveries = s.recoveries ∧ (freeMarks f s).nextRead = s.nextRead ∧
    (freeMarks f s).pin = s.pin ∧ (freeMarks f s).regs = s.regs ∧ (freeMarks f s).fresh = s.fresh := by
  simp [freeMarks]
@[simp] theorem zeroKeys_frame (s : State) :
    (zeroKeys s).sys = s.sys ∧ (zeroKeys s).clk = s.clk ∧ (zeroKeys s).pwr = s.pwr ∧ (zeroKeys s).host = s.host ∧
    (zeroKeys s).ring = s.ring ∧ (zeroKeys s).wards = s.wards ∧ (zeroKeys s).cap = s.cap ∧ (zeroKeys s).cache = s.cache ∧
    (zeroKeys s).ledger = s.ledger ∧ (zeroKeys s).groups = s.groups ∧ (zeroKeys s).cells = s.cells ∧
    (zeroKeys s).reads = s.reads ∧ (zeroKeys s).recoveries = s.recoveries ∧ (zeroKeys s).nextRead = s.nextRead ∧
    (zeroKeys s).obs = s.obs ∧ (zeroKeys s).pin = s.pin ∧ (zeroKeys s).regs = s.regs ∧ (zeroKeys s).fresh = s.fresh := by
  simp [zeroKeys]
@[simp] theorem zeroBegin_frame (s : State) :
    (zeroBegin s).sys = s.sys ∧ (zeroBegin s).clk = s.clk ∧ (zeroBegin s).pwr = s.pwr ∧ (zeroBegin s).wards = s.wards ∧
    (zeroBegin s).cap = s.cap ∧ (zeroBegin s).cache = s.cache ∧ (zeroBegin s).groups = s.groups ∧
    (zeroBegin s).reads = s.reads ∧ (zeroBegin s).recoveries = s.recoveries ∧ (zeroBegin s).nextRead = s.nextRead ∧
    (zeroBegin s).pin = s.pin ∧ (zeroBegin s).regs = s.regs ∧ (zeroBegin s).fresh = s.fresh := by
  simp [zeroBegin]
@[simp] theorem zeroComplete_frame (s : State) :
    (zeroComplete s).sys = s.sys ∧ (zeroComplete s).clk = s.clk ∧ (zeroComplete s).sec = s.sec ∧
    (zeroComplete s).pwr = s.pwr ∧ (zeroComplete s).cap = s.cap ∧ (zeroComplete s).cache = s.cache ∧
    (zeroComplete s).kcc = s.kcc ∧ (zeroComplete s).ledger = s.ledger ∧ (zeroComplete s).groups = s.groups ∧
    (zeroComplete s).cells = s.cells ∧ (zeroComplete s).nextRead = s.nextRead ∧ (zeroComplete s).regs = s.regs ∧
    (zeroComplete s).fresh = s.fresh := by
  simp [zeroComplete]
@[simp] theorem zeroWipe_frame (s : State) :
    (zeroWipe s).sys = s.sys ∧ (zeroWipe s).clk = s.clk ∧ (zeroWipe s).host = s.host ∧ (zeroWipe s).groups = s.groups ∧
    (zeroWipe s).reads = s.reads ∧ (zeroWipe s).recoveries = s.recoveries ∧ (zeroWipe s).nextRead = s.nextRead ∧
    (zeroWipe s).pin = s.pin ∧ (zeroWipe s).regs = s.regs ∧ (zeroWipe s).fresh = s.fresh := by
  simp [zeroWipe]
@[simp] theorem State.setVotes_frame (s : State) (v : BitVec 24) :
    (State.setVotes s v).sys = s.sys ∧ (State.setVotes s v).clk = s.clk ∧ (State.setVotes s v).sec = s.sec ∧
    (State.setVotes s v).host = s.host ∧ (State.setVotes s v).ring = s.ring ∧ (State.setVotes s v).wards = s.wards ∧
    (State.setVotes s v).cap = s.cap ∧ (State.setVotes s v).cache = s.cache ∧ (State.setVotes s v).kcc = s.kcc ∧
    (State.setVotes s v).ledger = s.ledger ∧ (State.setVotes s v).groups = s.groups ∧
    (State.setVotes s v).cells = s.cells ∧ (State.setVotes s v).reads = s.reads ∧
    (State.setVotes s v).recoveries = s.recoveries ∧ (State.setVotes s v).nextRead = s.nextRead ∧
    (State.setVotes s v).obs = s.obs ∧ (State.setVotes s v).pin = s.pin ∧ (State.setVotes s v).regs = s.regs ∧
    (State.setVotes s v).fresh = s.fresh := by
  simp [State.setVotes]
@[simp] theorem clearRings_frame (s : State) :
    (clearRings s).sys = s.sys ∧ (clearRings s).clk = s.clk ∧ (clearRings s).sec = s.sec ∧ (clearRings s).pwr = s.pwr ∧
    (clearRings s).cap = s.cap ∧ (clearRings s).cache = s.cache ∧ (clearRings s).kcc = s.kcc ∧
    (clearRings s).ledger = s.ledger ∧ (clearRings s).groups = s.groups ∧ (clearRings s).cells = s.cells ∧
    (clearRings s).reads = s.reads ∧ (clearRings s).recoveries = s.recoveries ∧ (clearRings s).nextRead = s.nextRead ∧
    (clearRings s).obs = s.obs ∧ (clearRings s).pin = s.pin ∧ (clearRings s).fresh = s.fresh := by
  simp [clearRings]
@[simp] theorem waysCheck_frame (s : State) :
    (waysCheck s).sys = s.sys ∧ (waysCheck s).clk = s.clk ∧ (waysCheck s).sec = s.sec ∧ (waysCheck s).cap = s.cap ∧
    (waysCheck s).kcc = s.kcc ∧ (waysCheck s).nextRead = s.nextRead ∧ (waysCheck s).regs = s.regs ∧
    (waysCheck s).fresh = s.fresh := by
  simp [waysCheck]
@[simp] theorem zeroClose_frame (s : State) :
    (zeroClose s).sys = s.sys ∧ (zeroClose s).clk = s.clk ∧ (zeroClose s).cap = s.cap ∧ (zeroClose s).cache = s.cache ∧
    (zeroClose s).kcc = s.kcc ∧ (zeroClose s).ledger = s.ledger ∧ (zeroClose s).groups = s.groups ∧
    (zeroClose s).cells = s.cells ∧ (zeroClose s).reads = s.reads ∧ (zeroClose s).recoveries = s.recoveries ∧
    (zeroClose s).nextRead = s.nextRead ∧ (zeroClose s).fresh = s.fresh := by
  simp [zeroClose]
@[simp] theorem zeroEnd_frame (again : Bool) (test : Option (Fin 10)) (s : State) :
    (zeroEnd again test s).clk = s.clk ∧ (zeroEnd again test s).nextRead = s.nextRead ∧
    (zeroEnd again test s).fresh = s.fresh := by
  unfold zeroEnd; cases again <;> cases test <;> simp
@[simp] theorem toAon_frame (e : Event) (s : State) :
    (toAon e s).sys = s.sys ∧ (toAon e s).clk = s.clk ∧ (toAon e s).sec = s.sec ∧ (toAon e s).host = s.host ∧
    (toAon e s).ring = s.ring ∧ (toAon e s).wards = s.wards ∧ (toAon e s).cap = s.cap ∧ (toAon e s).cache = s.cache ∧
    (toAon e s).kcc = s.kcc ∧ (toAon e s).ledger = s.ledger ∧ (toAon e s).groups = s.groups ∧
    (toAon e s).cells = s.cells ∧ (toAon e s).reads = s.reads ∧ (toAon e s).recoveries = s.recoveries ∧
    (toAon e s).nextRead = s.nextRead ∧ (toAon e s).obs = s.obs ∧ (toAon e s).pin = s.pin ∧ (toAon e s).regs = s.regs ∧
    (toAon e s).fresh = s.fresh := by
  simp [toAon]
@[simp] theorem abandonIntents_frame (f : Intent → Bool) (s : State) :
    (abandonIntents f s).sys = s.sys ∧ (abandonIntents f s).clk = s.clk ∧ (abandonIntents f s).sec = s.sec ∧
    (abandonIntents f s).pwr = s.pwr ∧ (abandonIntents f s).host = s.host ∧ (abandonIntents f s).ring = s.ring ∧
    (abandonIntents f s).wards = s.wards ∧ (abandonIntents f s).cap = s.cap ∧ (abandonIntents f s).cache = s.cache ∧
    (abandonIntents f s).kcc = s.kcc ∧ (abandonIntents f s).groups = s.groups ∧ (abandonIntents f s).cells = s.cells ∧
    (abandonIntents f s).reads = s.reads ∧ (abandonIntents f s).recoveries = s.recoveries ∧
    (abandonIntents f s).nextRead = s.nextRead ∧ (abandonIntents f s).obs = s.obs ∧ (abandonIntents f s).pin = s.pin ∧
    (abandonIntents f s).regs = s.regs ∧ (abandonIntents f s).fresh = s.fresh := by
  simp [abandonIntents]
@[simp] theorem loseQueue_frame (s : State) :
    (loseQueue s).sys = s.sys ∧ (loseQueue s).clk = s.clk ∧ (loseQueue s).sec = s.sec ∧ (loseQueue s).pwr = s.pwr ∧
    (loseQueue s).host = s.host ∧ (loseQueue s).ring = s.ring ∧ (loseQueue s).cache = s.cache ∧
    (loseQueue s).kcc = s.kcc ∧ (loseQueue s).groups = s.groups ∧ (loseQueue s).cells = s.cells ∧
    (loseQueue s).reads = s.reads ∧ (loseQueue s).recoveries = s.recoveries ∧ (loseQueue s).nextRead = s.nextRead ∧
    (loseQueue s).obs = s.obs ∧ (loseQueue s).pin = s.pin ∧ (loseQueue s).regs = s.regs ∧
    (loseQueue s).fresh = s.fresh := by
  simp [loseQueue]
@[simp] theorem coldStore_frame (s : State) :
    (coldStore s).nextRead = s.nextRead ∧ (coldStore s).fresh = s.fresh := by
  simp [coldStore]
@[simp] theorem sealOpen_frame (s : State) :
    (sealOpen s).sys = s.sys ∧ (sealOpen s).clk = s.clk ∧ (sealOpen s).sec = s.sec ∧ (sealOpen s).pwr = s.pwr ∧
    (sealOpen s).host = s.host ∧ (sealOpen s).ring = s.ring ∧ (sealOpen s).wards = s.wards ∧ (sealOpen s).cap = s.cap ∧
    (sealOpen s).cache = s.cache ∧ (sealOpen s).kcc = s.kcc ∧ (sealOpen s).groups = s.groups ∧
    (sealOpen s).cells = s.cells ∧ (sealOpen s).reads = s.reads ∧ (sealOpen s).recoveries = s.recoveries ∧
    (sealOpen s).nextRead = s.nextRead ∧ (sealOpen s).pin = s.pin ∧ (sealOpen s).regs = s.regs ∧
    (sealOpen s).fresh = s.fresh := by
  simp [sealOpen]
@[simp] theorem sealGate_frame (ends : List CellId) (s : State) (c : CellId) :
    (sealGate ends s c).clk = s.clk ∧ (sealGate ends s c).sec = s.sec ∧ (sealGate ends s c).pwr = s.pwr ∧
    (sealGate ends s c).host = s.host ∧ (sealGate ends s c).ring = s.ring ∧ (sealGate ends s c).wards = s.wards ∧
    (sealGate ends s c).cap = s.cap ∧ (sealGate ends s c).cache = s.cache ∧ (sealGate ends s c).kcc = s.kcc ∧
    (sealGate ends s c).groups = s.groups ∧ (sealGate ends s c).reads = s.reads ∧
    (sealGate ends s c).recoveries = s.recoveries ∧ (sealGate ends s c).nextRead = s.nextRead ∧
    (sealGate ends s c).pin = s.pin ∧ (sealGate ends s c).regs = s.regs ∧ (sealGate ends s c).fresh = s.fresh := by
  unfold sealGate; (repeat' split) <;> simp [*]
@[simp] theorem sealTorn_frame (s : State) (c : CellId) :
    (sealTorn s c).sys = s.sys ∧ (sealTorn s c).clk = s.clk ∧ (sealTorn s c).sec = s.sec ∧ (sealTorn s c).pwr = s.pwr ∧
    (sealTorn s c).host = s.host ∧ (sealTorn s c).ring = s.ring ∧ (sealTorn s c).wards = s.wards ∧
    (sealTorn s c).cap = s.cap ∧ (sealTorn s c).cache = s.cache ∧ (sealTorn s c).kcc = s.kcc ∧
    (sealTorn s c).groups = s.groups ∧ (sealTorn s c).cells = s.cells ∧ (sealTorn s c).reads = s.reads ∧
    (sealTorn s c).recoveries = s.recoveries ∧ (sealTorn s c).nextRead = s.nextRead ∧ (sealTorn s c).pin = s.pin ∧
    (sealTorn s c).regs = s.regs ∧ (sealTorn s c).fresh = s.fresh := by
  unfold sealTorn; (repeat' split) <;> simp [*]
@[simp] theorem sealZero_frame (s : State) :
    (sealZero s).sys = s.sys ∧ (sealZero s).clk = s.clk ∧ (sealZero s).pwr = s.pwr ∧ (sealZero s).host = s.host ∧
    (sealZero s).ring = s.ring ∧ (sealZero s).wards = s.wards ∧ (sealZero s).cap = s.cap ∧ (sealZero s).cache = s.cache ∧
    (sealZero s).kcc = s.kcc ∧ (sealZero s).groups = s.groups ∧ (sealZero s).cells = s.cells ∧
    (sealZero s).reads = s.reads ∧ (sealZero s).recoveries = s.recoveries ∧ (sealZero s).nextRead = s.nextRead ∧
    (sealZero s).pin = s.pin ∧ (sealZero s).regs = s.regs ∧ (sealZero s).fresh = s.fresh := by
  simp [sealZero]
@[simp] theorem sealBank_frame (stop : BitVec 3) (src : BitVec 4) (votes : BitVec 24) (s : State) :
    (sealBank stop src votes s).sys = s.sys ∧ (sealBank stop src votes s).clk = s.clk ∧
    (sealBank stop src votes s).sec = s.sec ∧ (sealBank stop src votes s).host = s.host ∧
    (sealBank stop src votes s).ring = s.ring ∧ (sealBank stop src votes s).wards = s.wards ∧
    (sealBank stop src votes s).cap = s.cap ∧ (sealBank stop src votes s).cache = s.cache ∧
    (sealBank stop src votes s).kcc = s.kcc ∧ (sealBank stop src votes s).ledger = s.ledger ∧
    (sealBank stop src votes s).groups = s.groups ∧ (sealBank stop src votes s).cells = s.cells ∧
    (sealBank stop src votes s).reads = s.reads ∧ (sealBank stop src votes s).recoveries = s.recoveries ∧
    (sealBank stop src votes s).nextRead = s.nextRead ∧ (sealBank stop src votes s).obs = s.obs ∧
    (sealBank stop src votes s).pin = s.pin ∧ (sealBank stop src votes s).regs = s.regs ∧
    (sealBank stop src votes s).fresh = s.fresh := by
  simp [sealBank]
@[simp] theorem sealRecords_frame (stop : BitVec 3) (ends : List CellId) (s : State) :
    (sealRecords stop ends s).clk = s.clk ∧ (sealRecords stop ends s).nextRead = s.nextRead ∧
    (sealRecords stop ends s).regs = s.regs ∧ (sealRecords stop ends s).fresh = s.fresh := by
  simp [sealRecords]
@[simp] theorem powerSeal_frame (stop : BitVec 3) (src : BitVec 4) (ends : List CellId) (s : State) :
    (powerSeal stop src ends s).nextRead = s.nextRead ∧ (powerSeal stop src ends s).fresh = s.fresh := by
  simp [powerSeal]
@[simp] theorem powerLost_frame (s : State) :
    (powerLost s).nextRead = s.nextRead ∧ (powerLost s).fresh = s.fresh := by
  simp [powerLost]
@[simp] theorem linkStop_frame (s : State) :
    (linkStop s).sys = s.sys ∧ (linkStop s).clk = s.clk ∧ (linkStop s).pwr = s.pwr ∧ (linkStop s).cap = s.cap ∧
    (linkStop s).cache = s.cache ∧ (linkStop s).groups = s.groups ∧ (linkStop s).cells = s.cells ∧
    (linkStop s).reads = s.reads ∧ (linkStop s).recoveries = s.recoveries ∧ (linkStop s).nextRead = s.nextRead ∧
    (linkStop s).fresh = s.fresh := by
  simp [linkStop]
@[simp] theorem hostRegsReset_frame (s : State) :
    (hostRegsReset s).sys = s.sys ∧ (hostRegsReset s).clk = s.clk ∧ (hostRegsReset s).sec = s.sec ∧
    (hostRegsReset s).pwr = s.pwr ∧ (hostRegsReset s).ring = s.ring ∧ (hostRegsReset s).wards = s.wards ∧
    (hostRegsReset s).cap = s.cap ∧ (hostRegsReset s).cache = s.cache ∧ (hostRegsReset s).kcc = s.kcc ∧
    (hostRegsReset s).ledger = s.ledger ∧ (hostRegsReset s).groups = s.groups ∧ (hostRegsReset s).cells = s.cells ∧
    (hostRegsReset s).reads = s.reads ∧ (hostRegsReset s).recoveries = s.recoveries ∧
    (hostRegsReset s).nextRead = s.nextRead ∧ (hostRegsReset s).obs = s.obs ∧ (hostRegsReset s).pin = s.pin ∧
    (hostRegsReset s).fresh = s.fresh := by
  simp [hostRegsReset]
@[simp] theorem configReset_frame (s : State) :
    (configReset s).sys = s.sys ∧ (configReset s).clk = s.clk ∧ (configReset s).sec = s.sec ∧
    (configReset s).pwr = s.pwr ∧ (configReset s).ring = s.ring ∧ (configReset s).wards = s.wards ∧
    (configReset s).cap = s.cap ∧ (configReset s).cache = s.cache ∧ (configReset s).kcc = s.kcc ∧
    (configReset s).ledger = s.ledger ∧ (configReset s).groups = s.groups ∧ (configReset s).cells = s.cells ∧
    (configReset s).reads = s.reads ∧ (configReset s).recoveries = s.recoveries ∧ (configReset s).nextRead = s.nextRead ∧
    (configReset s).obs = s.obs ∧ (configReset s).pin = s.pin ∧ (configReset s).fresh = s.fresh := by
  simp [configReset]
@[simp] theorem hostLinkReset_frame (s : State) :
    (hostLinkReset s).sys = s.sys ∧ (hostLinkReset s).clk = s.clk ∧ (hostLinkReset s).pwr = s.pwr ∧
    (hostLinkReset s).cap = s.cap ∧ (hostLinkReset s).cache = s.cache ∧ (hostLinkReset s).groups = s.groups ∧
    (hostLinkReset s).cells = s.cells ∧ (hostLinkReset s).reads = s.reads ∧ (hostLinkReset s).recoveries = s.recoveries ∧
    (hostLinkReset s).nextRead = s.nextRead ∧ (hostLinkReset s).fresh = s.fresh := by
  simp [hostLinkReset]
@[simp] theorem standbyBegin_frame (s : State) :
    (standbyBegin s).sys = s.sys ∧ (standbyBegin s).clk = s.clk ∧ (standbyBegin s).sec = s.sec ∧
    (standbyBegin s).wards = s.wards ∧ (standbyBegin s).cap = s.cap ∧ (standbyBegin s).cache = s.cache ∧
    (standbyBegin s).kcc = s.kcc ∧ (standbyBegin s).groups = s.groups ∧ (standbyBegin s).cells = s.cells ∧
    (standbyBegin s).reads = s.reads ∧ (standbyBegin s).recoveries = s.recoveries ∧
    (standbyBegin s).nextRead = s.nextRead ∧ (standbyBegin s).obs = s.obs ∧ (standbyBegin s).pin = s.pin ∧
    (standbyBegin s).regs = s.regs ∧ (standbyBegin s).fresh = s.fresh := by
  simp [standbyBegin]
@[simp] theorem standbyEnd_frame (s : State) :
    (standbyEnd s).nextRead = s.nextRead ∧ (standbyEnd s).fresh = s.fresh := by
  simp [standbyEnd]
@[simp] theorem sleepBegin_frame (s : State) :
    (sleepBegin s).sys = s.sys ∧ (sleepBegin s).clk = s.clk ∧ (sleepBegin s).sec = s.sec ∧ (sleepBegin s).host = s.host ∧
    (sleepBegin s).cache = s.cache ∧ (sleepBegin s).kcc = s.kcc ∧ (sleepBegin s).reads = s.reads ∧
    (sleepBegin s).nextRead = s.nextRead ∧ (sleepBegin s).pin = s.pin ∧ (sleepBegin s).regs = s.regs ∧
    (sleepBegin s).fresh = s.fresh := by
  simp [sleepBegin]
@[simp] theorem sleepEnd_frame (s : State) :
    (sleepEnd s).sys = s.sys ∧ (sleepEnd s).sec = s.sec ∧ (sleepEnd s).ring = s.ring ∧ (sleepEnd s).wards = s.wards ∧
    (sleepEnd s).cache = s.cache ∧ (sleepEnd s).kcc = s.kcc ∧ (sleepEnd s).ledger = s.ledger ∧
    (sleepEnd s).groups = s.groups ∧ (sleepEnd s).cells = s.cells ∧ (sleepEnd s).reads = s.reads ∧
    (sleepEnd s).recoveries = s.recoveries ∧ (sleepEnd s).nextRead = s.nextRead ∧ (sleepEnd s).obs = s.obs ∧
    (sleepEnd s).pin = s.pin ∧ (sleepEnd s).regs = s.regs ∧ (sleepEnd s).fresh = s.fresh := by
  simp [sleepEnd]
@[simp] theorem countLoss_frame (w : WardId) (s : State) :
    (countLoss w s).sys = s.sys ∧ (countLoss w s).clk = s.clk ∧ (countLoss w s).sec = s.sec ∧
    (countLoss w s).pwr = s.pwr ∧ (countLoss w s).host = s.host ∧ (countLoss w s).ring = s.ring ∧
    (countLoss w s).cap = s.cap ∧ (countLoss w s).cache = s.cache ∧ (countLoss w s).kcc = s.kcc ∧
    (countLoss w s).ledger = s.ledger ∧ (countLoss w s).groups = s.groups ∧ (countLoss w s).cells = s.cells ∧
    (countLoss w s).reads = s.reads ∧ (countLoss w s).recoveries = s.recoveries ∧ (countLoss w s).nextRead = s.nextRead ∧
    (countLoss w s).regs = s.regs ∧ (countLoss w s).fresh = s.fresh := by
  simp [countLoss]
@[simp] theorem enterService_frame (s : State) :
    (enterService s).clk = s.clk ∧ (enterService s).sec = s.sec ∧ (enterService s).host = s.host ∧
    (enterService s).ring = s.ring ∧ (enterService s).cap = s.cap ∧ (enterService s).cache = s.cache ∧
    (enterService s).kcc = s.kcc ∧ (enterService s).reads = s.reads ∧ (enterService s).recoveries = s.recoveries ∧
    (enterService s).nextRead = s.nextRead ∧ (enterService s).regs = s.regs ∧ (enterService s).fresh = s.fresh := by
  simp [enterService]
@[simp] theorem evalMode_frame (s : State) :
    (evalMode s).sys = s.sys ∧ (evalMode s).clk = s.clk ∧ (evalMode s).sec = s.sec ∧ (evalMode s).kcc = s.kcc ∧
    (evalMode s).reads = s.reads ∧ (evalMode s).nextRead = s.nextRead ∧ (evalMode s).pin = s.pin ∧
    (evalMode s).regs = s.regs ∧ (evalMode s).fresh = s.fresh := by
  unfold evalMode; dsimp only; (repeat' split) <;> simp [*]
@[simp] theorem zeroFinish_frame (test : Option (Fin 10)) (s : State) :
    (zeroFinish test s).clk = s.clk ∧ (zeroFinish test s).nextRead = s.nextRead ∧
    (zeroFinish test s).fresh = s.fresh := by
  simp [zeroFinish]
@[simp] theorem zeroizeNow_frame (whole : Bool) (test : Option (Fin 10)) (s : State) :
    (zeroizeNow whole test s).clk = s.clk ∧ (zeroizeNow whole test s).nextRead = s.nextRead ∧
    (zeroizeNow whole test s).fresh = s.fresh := by
  simp [zeroizeNow]
@[simp] theorem zeroInStart_frame (b : Boot) (s : State) :
    (zeroInStart b s).clk = s.clk ∧ (zeroInStart b s).pwr = s.pwr ∧ (zeroInStart b s).wards = s.wards ∧
    (zeroInStart b s).cap = s.cap ∧ (zeroInStart b s).cache = s.cache ∧ (zeroInStart b s).groups = s.groups ∧
    (zeroInStart b s).reads = s.reads ∧ (zeroInStart b s).recoveries = s.recoveries ∧
    (zeroInStart b s).nextRead = s.nextRead ∧ (zeroInStart b s).pin = s.pin ∧ (zeroInStart b s).regs = s.regs ∧
    (zeroInStart b s).fresh = s.fresh := by
  simp [zeroInStart]
@[simp] theorem addLoss_frame (w : WardId) (n : Nat) (seq : DWord) (s : State) :
    (addLoss w n seq s).sys = s.sys ∧ (addLoss w n seq s).clk = s.clk ∧ (addLoss w n seq s).sec = s.sec ∧
    (addLoss w n seq s).pwr = s.pwr ∧ (addLoss w n seq s).host = s.host ∧ (addLoss w n seq s).ring = s.ring ∧
    (addLoss w n seq s).cap = s.cap ∧ (addLoss w n seq s).cache = s.cache ∧ (addLoss w n seq s).kcc = s.kcc ∧
    (addLoss w n seq s).ledger = s.ledger ∧ (addLoss w n seq s).groups = s.groups ∧ (addLoss w n seq s).cells = s.cells ∧
    (addLoss w n seq s).reads = s.reads ∧ (addLoss w n seq s).recoveries = s.recoveries ∧
    (addLoss w n seq s).nextRead = s.nextRead ∧ (addLoss w n seq s).obs = s.obs ∧ (addLoss w n seq s).pin = s.pin ∧
    (addLoss w n seq s).regs = s.regs ∧ (addLoss w n seq s).fresh = s.fresh := by
  simp [addLoss]
@[simp] theorem scanEntry_frame (e : (WardId × Nat) × Word × DWord) (s : State) :
    (scanEntry e s).sys = s.sys ∧ (scanEntry e s).clk = s.clk ∧ (scanEntry e s).sec = s.sec ∧
    (scanEntry e s).pwr = s.pwr ∧ (scanEntry e s).host = s.host ∧ (scanEntry e s).ring = s.ring ∧
    (scanEntry e s).cap = s.cap ∧ (scanEntry e s).cache = s.cache ∧ (scanEntry e s).kcc = s.kcc ∧
    (scanEntry e s).ledger = s.ledger ∧ (scanEntry e s).groups = s.groups ∧ (scanEntry e s).cells = s.cells ∧
    (scanEntry e s).reads = s.reads ∧ (scanEntry e s).recoveries = s.recoveries ∧ (scanEntry e s).nextRead = s.nextRead ∧
    (scanEntry e s).obs = s.obs ∧ (scanEntry e s).pin = s.pin ∧ (scanEntry e s).regs = s.regs ∧
    (scanEntry e s).fresh = s.fresh := by
  simp [scanEntry]
@[simp] theorem scanMark_frame (s : State) (m : Mark) :
    (scanMark s m).sys = s.sys ∧ (scanMark s m).clk = s.clk ∧ (scanMark s m).sec = s.sec ∧ (scanMark s m).pwr = s.pwr ∧
    (scanMark s m).host = s.host ∧ (scanMark s m).ring = s.ring ∧ (scanMark s m).cap = s.cap ∧
    (scanMark s m).cache = s.cache ∧ (scanMark s m).kcc = s.kcc ∧ (scanMark s m).ledger = s.ledger ∧
    (scanMark s m).groups = s.groups ∧ (scanMark s m).cells = s.cells ∧ (scanMark s m).reads = s.reads ∧
    (scanMark s m).recoveries = s.recoveries ∧ (scanMark s m).nextRead = s.nextRead ∧ (scanMark s m).obs = s.obs ∧
    (scanMark s m).pin = s.pin ∧ (scanMark s m).regs = s.regs ∧ (scanMark s m).fresh = s.fresh := by
  unfold scanMark; (repeat' split) <;> simp [*]
@[simp] theorem scanMarks_frame (f : Mark → Bool) (s : State) :
    (scanMarks f s).sys = s.sys ∧ (scanMarks f s).clk = s.clk ∧ (scanMarks f s).sec = s.sec ∧
    (scanMarks f s).pwr = s.pwr ∧ (scanMarks f s).host = s.host ∧ (scanMarks f s).ring = s.ring ∧
    (scanMarks f s).cap = s.cap ∧ (scanMarks f s).cache = s.cache ∧ (scanMarks f s).kcc = s.kcc ∧
    (scanMarks f s).groups = s.groups ∧ (scanMarks f s).cells = s.cells ∧ (scanMarks f s).reads = s.reads ∧
    (scanMarks f s).recoveries = s.recoveries ∧ (scanMarks f s).nextRead = s.nextRead ∧ (scanMarks f s).pin = s.pin ∧
    (scanMarks f s).regs = s.regs ∧ (scanMarks f s).fresh = s.fresh := by
  simp [scanMarks]
@[simp] theorem scanOpen_frame (i : Intent) (s : State) :
    (scanOpen i s).sys = s.sys ∧ (scanOpen i s).clk = s.clk ∧ (scanOpen i s).pwr = s.pwr ∧
    (scanOpen i s).reads = s.reads ∧ (scanOpen i s).recoveries = s.recoveries ∧ (scanOpen i s).nextRead = s.nextRead ∧
    (scanOpen i s).regs = s.regs ∧ (scanOpen i s).fresh = s.fresh := by
  unfold scanOpen; (repeat' split) <;> simp [*]
@[simp] theorem scanResetting_frame (w : WardId) (s : State) :
    (scanResetting w s).sys = s.sys ∧ (scanResetting w s).clk = s.clk ∧ (scanResetting w s).sec = s.sec ∧
    (scanResetting w s).pwr = s.pwr ∧ (scanResetting w s).host = s.host ∧ (scanResetting w s).ring = s.ring ∧
    (scanResetting w s).cap = s.cap ∧ (scanResetting w s).cache = s.cache ∧ (scanResetting w s).ledger = s.ledger ∧
    (scanResetting w s).groups = s.groups ∧ (scanResetting w s).cells = s.cells ∧ (scanResetting w s).reads = s.reads ∧
    (scanResetting w s).recoveries = s.recoveries ∧ (scanResetting w s).nextRead = s.nextRead ∧
    (scanResetting w s).regs = s.regs ∧ (scanResetting w s).fresh = s.fresh := by
  simp [scanResetting]
@[simp] theorem scanLedger_frame (s : State) :
    (scanLedger s).sys = s.sys ∧ (scanLedger s).clk = s.clk ∧ (scanLedger s).pwr = s.pwr ∧
    (scanLedger s).reads = s.reads ∧ (scanLedger s).recoveries = s.recoveries ∧ (scanLedger s).nextRead = s.nextRead ∧
    (scanLedger s).regs = s.regs ∧ (scanLedger s).fresh = s.fresh := by
  simp [scanLedger]
@[simp] theorem scanPart_frame (limit : Option (Nat × Nat)) (s : State) :
    (scanPart limit s).sys = s.sys ∧ (scanPart limit s).clk = s.clk ∧ (scanPart limit s).sec = s.sec ∧
    (scanPart limit s).pwr = s.pwr ∧ (scanPart limit s).host = s.host ∧ (scanPart limit s).ring = s.ring ∧
    (scanPart limit s).cap = s.cap ∧ (scanPart limit s).cache = s.cache ∧ (scanPart limit s).kcc = s.kcc ∧
    (scanPart limit s).groups = s.groups ∧ (scanPart limit s).cells = s.cells ∧ (scanPart limit s).reads = s.reads ∧
    (scanPart limit s).recoveries = s.recoveries ∧ (scanPart limit s).nextRead = s.nextRead ∧
    (scanPart limit s).pin = s.pin ∧ (scanPart limit s).regs = s.regs ∧ (scanPart limit s).fresh = s.fresh := by
  simp [scanPart]
@[simp] theorem frontAon_frame (s : State) :
    (frontAon s).sys = s.sys ∧ (frontAon s).clk = s.clk ∧ (frontAon s).sec = s.sec ∧ (frontAon s).host = s.host ∧
    (frontAon s).ring = s.ring ∧ (frontAon s).wards = s.wards ∧ (frontAon s).cap = s.cap ∧ (frontAon s).cache = s.cache ∧
    (frontAon s).kcc = s.kcc ∧ (frontAon s).ledger = s.ledger ∧ (frontAon s).groups = s.groups ∧
    (frontAon s).cells = s.cells ∧ (frontAon s).reads = s.reads ∧ (frontAon s).recoveries = s.recoveries ∧
    (frontAon s).nextRead = s.nextRead ∧ (frontAon s).regs = s.regs ∧ (frontAon s).fresh = s.fresh := by
  unfold frontAon; simp [-List.foldl_reverse]
@[simp] theorem startPins_frame (s : State) :
    (startPins s).sys = s.sys ∧ (startPins s).clk = s.clk ∧ (startPins s).sec = s.sec ∧ (startPins s).pwr = s.pwr ∧
    (startPins s).host = s.host ∧ (startPins s).ring = s.ring ∧ (startPins s).wards = s.wards ∧
    (startPins s).cache = s.cache ∧ (startPins s).kcc = s.kcc ∧ (startPins s).ledger = s.ledger ∧
    (startPins s).groups = s.groups ∧ (startPins s).cells = s.cells ∧ (startPins s).reads = s.reads ∧
    (startPins s).recoveries = s.recoveries ∧ (startPins s).nextRead = s.nextRead ∧ (startPins s).obs = s.obs ∧
    (startPins s).regs = s.regs ∧ (startPins s).fresh = s.fresh := by
  simp [startPins]
@[simp] theorem bootEnds_frame (stage : BitVec 4) (s : State) :
    (bootEnds stage s).clk = s.clk ∧ (bootEnds stage s).sec = s.sec ∧ (bootEnds stage s).pwr = s.pwr ∧
    (bootEnds stage s).host = s.host ∧ (bootEnds stage s).ring = s.ring ∧ (bootEnds stage s).wards = s.wards ∧
    (bootEnds stage s).cap = s.cap ∧ (bootEnds stage s).cache = s.cache ∧ (bootEnds stage s).kcc = s.kcc ∧
    (bootEnds stage s).ledger = s.ledger ∧ (bootEnds stage s).groups = s.groups ∧ (bootEnds stage s).cells = s.cells ∧
    (bootEnds stage s).reads = s.reads ∧ (bootEnds stage s).recoveries = s.recoveries ∧
    (bootEnds stage s).nextRead = s.nextRead ∧ (bootEnds stage s).obs = s.obs ∧ (bootEnds stage s).pin = s.pin ∧
    (bootEnds stage s).regs = s.regs ∧ (bootEnds stage s).fresh = s.fresh := by
  simp [bootEnds]
@[simp] theorem handOff_frame (stage : BitVec 4) (s : State) :
    (handOff stage s).clk = s.clk ∧ (handOff stage s).sec = s.sec ∧ (handOff stage s).kcc = s.kcc ∧
    (handOff stage s).nextRead = s.nextRead ∧ (handOff stage s).regs = s.regs ∧ (handOff stage s).fresh = s.fresh := by
  simp [handOff]
@[simp] theorem startUp_frame (src : BitVec 4) (b : Boot) (s : State) :
    (startUp src b s).sec = s.sec ∧ (startUp src b s).host = s.host ∧ (startUp src b s).ring = s.ring ∧
    (startUp src b s).wards = s.wards ∧ (startUp src b s).cap = s.cap ∧ (startUp src b s).cache = s.cache ∧
    (startUp src b s).kcc = s.kcc ∧ (startUp src b s).ledger = s.ledger ∧ (startUp src b s).groups = s.groups ∧
    (startUp src b s).cells = s.cells ∧ (startUp src b s).reads = s.reads ∧ (startUp src b s).recoveries = s.recoveries ∧
    (startUp src b s).nextRead = s.nextRead ∧ (startUp src b s).regs = s.regs ∧ (startUp src b s).fresh = s.fresh := by
  simp [startUp]
@[simp] theorem bootLife_frame (s : State) :
    (bootLife s).clk = s.clk ∧ (bootLife s).pwr = s.pwr ∧ (bootLife s).host = s.host ∧ (bootLife s).ring = s.ring ∧
    (bootLife s).wards = s.wards ∧ (bootLife s).cap = s.cap ∧ (bootLife s).cache = s.cache ∧ (bootLife s).kcc = s.kcc ∧
    (bootLife s).groups = s.groups ∧ (bootLife s).cells = s.cells ∧ (bootLife s).reads = s.reads ∧
    (bootLife s).recoveries = s.recoveries ∧ (bootLife s).nextRead = s.nextRead ∧ (bootLife s).regs = s.regs ∧
    (bootLife s).fresh = s.fresh := by
  unfold bootLife; (repeat' split) <;> simp [*]
@[simp] theorem fuseDone_frame (b : Boot) (s : State) :
    (fuseDone b s).host = s.host ∧ (fuseDone b s).ring = s.ring ∧ (fuseDone b s).wards = s.wards ∧
    (fuseDone b s).cap = s.cap ∧ (fuseDone b s).groups = s.groups ∧ (fuseDone b s).cells = s.cells ∧
    (fuseDone b s).reads = s.reads ∧ (fuseDone b s).recoveries = s.recoveries ∧ (fuseDone b s).nextRead = s.nextRead ∧
    (fuseDone b s).regs = s.regs ∧ (fuseDone b s).fresh = s.fresh := by
  simp [fuseDone]
@[simp] theorem zeroStage_frame (s : State) :
    (zeroStage s).clk = s.clk ∧ (zeroStage s).groups = s.groups ∧ (zeroStage s).reads = s.reads ∧
    (zeroStage s).recoveries = s.recoveries ∧ (zeroStage s).nextRead = s.nextRead ∧ (zeroStage s).fresh = s.fresh := by
  simp [zeroStage]
@[simp] theorem zeroAfterTests_frame (s : State) :
    (zeroAfterTests s).sys = s.sys ∧ (zeroAfterTests s).clk = s.clk ∧ (zeroAfterTests s).cap = s.cap ∧
    (zeroAfterTests s).cache = s.cache ∧ (zeroAfterTests s).kcc = s.kcc ∧ (zeroAfterTests s).ledger = s.ledger ∧
    (zeroAfterTests s).groups = s.groups ∧ (zeroAfterTests s).cells = s.cells ∧ (zeroAfterTests s).reads = s.reads ∧
    (zeroAfterTests s).recoveries = s.recoveries ∧ (zeroAfterTests s).nextRead = s.nextRead ∧
    (zeroAfterTests s).fresh = s.fresh := by
  simp [zeroAfterTests]
@[simp] theorem testsDone_frame (b : Boot) (s : State) :
    (testsDone b s).nextRead = s.nextRead ∧ (testsDone b s).fresh = s.fresh := by
  unfold testsDone; (repeat' split) <;> simp [*]
@[simp] theorem scanDone_frame (b : Boot) (s : State) :
    (scanDone b s).clk = s.clk ∧ (scanDone b s).nextRead = s.nextRead ∧ (scanDone b s).regs = s.regs ∧
    (scanDone b s).fresh = s.fresh := by
  simp [scanDone]
@[simp] theorem bootStep_frame (s : State) :
    (bootStep s).nextRead = s.nextRead ∧ (bootStep s).fresh = s.fresh := by
  unfold bootStep; (repeat' split) <;> simp [*]
@[simp] theorem idleStep_frame (s : State) :
    (idleStep s).nextRead = s.nextRead ∧ (idleStep s).fresh = s.fresh := by
  simp [idleStep]
@[simp] theorem latchWake_frame (src : BitVec 4) (s : State) :
    (latchWake src s).sys = s.sys ∧ (latchWake src s).clk = s.clk ∧ (latchWake src s).sec = s.sec ∧
    (latchWake src s).host = s.host ∧ (latchWake src s).ring = s.ring ∧ (latchWake src s).wards = s.wards ∧
    (latchWake src s).cap = s.cap ∧ (latchWake src s).cache = s.cache ∧ (latchWake src s).kcc = s.kcc ∧
    (latchWake src s).ledger = s.ledger ∧ (latchWake src s).groups = s.groups ∧ (latchWake src s).cells = s.cells ∧
    (latchWake src s).reads = s.reads ∧ (latchWake src s).recoveries = s.recoveries ∧
    (latchWake src s).nextRead = s.nextRead ∧ (latchWake src s).obs = s.obs ∧ (latchWake src s).pin = s.pin ∧
    (latchWake src s).regs = s.regs ∧ (latchWake src s).fresh = s.fresh := by
  simp [latchWake]
@[simp] theorem replayAon_frame (s : State) :
    (replayAon s).sys = s.sys ∧ (replayAon s).clk = s.clk ∧ (replayAon s).sec = s.sec ∧ (replayAon s).host = s.host ∧
    (replayAon s).ring = s.ring ∧ (replayAon s).wards = s.wards ∧ (replayAon s).cap = s.cap ∧
    (replayAon s).cache = s.cache ∧ (replayAon s).kcc = s.kcc ∧ (replayAon s).ledger = s.ledger ∧
    (replayAon s).groups = s.groups ∧ (replayAon s).cells = s.cells ∧ (replayAon s).reads = s.reads ∧
    (replayAon s).recoveries = s.recoveries ∧ (replayAon s).nextRead = s.nextRead ∧ (replayAon s).regs = s.regs ∧
    (replayAon s).fresh = s.fresh := by
  unfold replayAon; simp [-List.foldl_reverse]
@[simp] theorem retentionWake_frame (s : State) :
    (retentionWake s).sec = s.sec ∧ (retentionWake s).kcc = s.kcc ∧ (retentionWake s).reads = s.reads ∧
    (retentionWake s).nextRead = s.nextRead ∧ (retentionWake s).regs = s.regs ∧ (retentionWake s).fresh = s.fresh := by
  simp [retentionWake]
@[simp] theorem wakeNow_frame (b : Boot) (test : Option (Fin 10)) (s : State) :
    (wakeNow b test s).nextRead = s.nextRead ∧ (wakeNow b test s).fresh = s.fresh := by
  unfold wakeNow; (repeat' split) <;> simp [*]
@[simp] theorem latchBeat_frame (s : State) :
    (latchBeat s).sys = s.sys ∧ (latchBeat s).sec = s.sec ∧ (latchBeat s).pwr = s.pwr ∧ (latchBeat s).host = s.host ∧
    (latchBeat s).ring = s.ring ∧ (latchBeat s).wards = s.wards ∧ (latchBeat s).cap = s.cap ∧
    (latchBeat s).cache = s.cache ∧ (latchBeat s).kcc = s.kcc ∧ (latchBeat s).ledger = s.ledger ∧
    (latchBeat s).groups = s.groups ∧ (latchBeat s).cells = s.cells ∧ (latchBeat s).reads = s.reads ∧
    (latchBeat s).recoveries = s.recoveries ∧ (latchBeat s).nextRead = s.nextRead ∧ (latchBeat s).obs = s.obs ∧
    (latchBeat s).pin = s.pin ∧ (latchBeat s).regs = s.regs ∧ (latchBeat s).fresh = s.fresh := by
  simp [latchBeat]
@[simp] theorem latchTai_frame (s : State) :
    (latchTai s).sys = s.sys ∧ (latchTai s).sec = s.sec ∧ (latchTai s).pwr = s.pwr ∧ (latchTai s).host = s.host ∧
    (latchTai s).ring = s.ring ∧ (latchTai s).wards = s.wards ∧ (latchTai s).cap = s.cap ∧ (latchTai s).cache = s.cache ∧
    (latchTai s).kcc = s.kcc ∧ (latchTai s).ledger = s.ledger ∧ (latchTai s).groups = s.groups ∧
    (latchTai s).cells = s.cells ∧ (latchTai s).reads = s.reads ∧ (latchTai s).recoveries = s.recoveries ∧
    (latchTai s).nextRead = s.nextRead ∧ (latchTai s).obs = s.obs ∧ (latchTai s).pin = s.pin ∧
    (latchTai s).regs = s.regs ∧ (latchTai s).fresh = s.fresh := by
  simp [latchTai]
@[simp] theorem latchHigh_frame (s : State) :
    (latchHigh s).sys = s.sys ∧ (latchHigh s).clk = s.clk ∧ (latchHigh s).sec = s.sec ∧ (latchHigh s).pwr = s.pwr ∧
    (latchHigh s).host = s.host ∧ (latchHigh s).wards = s.wards ∧ (latchHigh s).cap = s.cap ∧
    (latchHigh s).cache = s.cache ∧ (latchHigh s).kcc = s.kcc ∧ (latchHigh s).ledger = s.ledger ∧
    (latchHigh s).groups = s.groups ∧ (latchHigh s).cells = s.cells ∧ (latchHigh s).reads = s.reads ∧
    (latchHigh s).recoveries = s.recoveries ∧ (latchHigh s).nextRead = s.nextRead ∧ (latchHigh s).obs = s.obs ∧
    (latchHigh s).pin = s.pin ∧ (latchHigh s).regs = s.regs ∧ (latchHigh s).fresh = s.fresh := by
  simp [latchHigh]
@[simp] theorem latchSerial_frame (s : State) :
    (latchSerial s).sys = s.sys ∧ (latchSerial s).clk = s.clk ∧ (latchSerial s).sec = s.sec ∧
    (latchSerial s).pwr = s.pwr ∧ (latchSerial s).host = s.host ∧ (latchSerial s).ring = s.ring ∧
    (latchSerial s).wards = s.wards ∧ (latchSerial s).cap = s.cap ∧ (latchSerial s).cache = s.cache ∧
    (latchSerial s).kcc = s.kcc ∧ (latchSerial s).groups = s.groups ∧ (latchSerial s).cells = s.cells ∧
    (latchSerial s).reads = s.reads ∧ (latchSerial s).recoveries = s.recoveries ∧ (latchSerial s).nextRead = s.nextRead ∧
    (latchSerial s).obs = s.obs ∧ (latchSerial s).pin = s.pin ∧ (latchSerial s).regs = s.regs ∧
    (latchSerial s).fresh = s.fresh := by
  simp [latchSerial]
@[simp] theorem readReg_frame (a : Nat) (s : State) :
    (readReg a s).2.sys = s.sys ∧ (readReg a s).2.sec = s.sec ∧ (readReg a s).2.pwr = s.pwr ∧
    (readReg a s).2.host = s.host ∧ (readReg a s).2.wards = s.wards ∧ (readReg a s).2.cap = s.cap ∧
    (readReg a s).2.cache = s.cache ∧ (readReg a s).2.kcc = s.kcc ∧ (readReg a s).2.groups = s.groups ∧
    (readReg a s).2.cells = s.cells ∧ (readReg a s).2.reads = s.reads ∧ (readReg a s).2.recoveries = s.recoveries ∧
    (readReg a s).2.nextRead = s.nextRead ∧ (readReg a s).2.obs = s.obs ∧ (readReg a s).2.pin = s.pin ∧
    (readReg a s).2.regs = s.regs ∧ (readReg a s).2.fresh = s.fresh := by
  simp [readReg]
@[simp] theorem ppsHold_frame (s : State) :
    (ppsHold s).sys = s.sys ∧ (ppsHold s).sec = s.sec ∧ (ppsHold s).pwr = s.pwr ∧ (ppsHold s).host = s.host ∧
    (ppsHold s).ring = s.ring ∧ (ppsHold s).wards = s.wards ∧ (ppsHold s).cap = s.cap ∧ (ppsHold s).cache = s.cache ∧
    (ppsHold s).kcc = s.kcc ∧ (ppsHold s).ledger = s.ledger ∧ (ppsHold s).groups = s.groups ∧
    (ppsHold s).cells = s.cells ∧ (ppsHold s).reads = s.reads ∧ (ppsHold s).recoveries = s.recoveries ∧
    (ppsHold s).nextRead = s.nextRead ∧ (ppsHold s).obs = s.obs ∧ (ppsHold s).pin = s.pin ∧ (ppsHold s).regs = s.regs ∧
    (ppsHold s).fresh = s.fresh := by
  simp [ppsHold]
@[simp] theorem srcPll_frame (s : State) :
    (srcPll s).sys = s.sys ∧ (srcPll s).sec = s.sec ∧ (srcPll s).pwr = s.pwr ∧ (srcPll s).host = s.host ∧
    (srcPll s).ring = s.ring ∧ (srcPll s).wards = s.wards ∧ (srcPll s).cap = s.cap ∧ (srcPll s).cache = s.cache ∧
    (srcPll s).kcc = s.kcc ∧ (srcPll s).ledger = s.ledger ∧ (srcPll s).groups = s.groups ∧ (srcPll s).cells = s.cells ∧
    (srcPll s).reads = s.reads ∧ (srcPll s).recoveries = s.recoveries ∧ (srcPll s).nextRead = s.nextRead ∧
    (srcPll s).regs = s.regs ∧ (srcPll s).fresh = s.fresh := by
  simp [srcPll]
@[simp] theorem toOscillator_frame (s : State) :
    (toOscillator s).sys = s.sys ∧ (toOscillator s).sec = s.sec ∧ (toOscillator s).pwr = s.pwr ∧
    (toOscillator s).host = s.host ∧ (toOscillator s).ring = s.ring ∧ (toOscillator s).wards = s.wards ∧
    (toOscillator s).cap = s.cap ∧ (toOscillator s).cache = s.cache ∧ (toOscillator s).kcc = s.kcc ∧
    (toOscillator s).ledger = s.ledger ∧ (toOscillator s).groups = s.groups ∧ (toOscillator s).cells = s.cells ∧
    (toOscillator s).reads = s.reads ∧ (toOscillator s).recoveries = s.recoveries ∧
    (toOscillator s).nextRead = s.nextRead ∧ (toOscillator s).regs = s.regs ∧ (toOscillator s).fresh = s.fresh := by
  simp [toOscillator]
@[simp] theorem taiRefuse_frame (s : State) :
    (taiRefuse s).sys = s.sys ∧ (taiRefuse s).sec = s.sec ∧ (taiRefuse s).pwr = s.pwr ∧ (taiRefuse s).host = s.host ∧
    (taiRefuse s).ring = s.ring ∧ (taiRefuse s).wards = s.wards ∧ (taiRefuse s).cap = s.cap ∧
    (taiRefuse s).cache = s.cache ∧ (taiRefuse s).kcc = s.kcc ∧ (taiRefuse s).ledger = s.ledger ∧
    (taiRefuse s).groups = s.groups ∧ (taiRefuse s).cells = s.cells ∧ (taiRefuse s).reads = s.reads ∧
    (taiRefuse s).recoveries = s.recoveries ∧ (taiRefuse s).nextRead = s.nextRead ∧ (taiRefuse s).regs = s.regs ∧
    (taiRefuse s).fresh = s.fresh := by
  simp [taiRefuse]
@[simp] theorem taiLoad_frame (s : State) :
    (taiLoad s).sys = s.sys ∧ (taiLoad s).sec = s.sec ∧ (taiLoad s).pwr = s.pwr ∧ (taiLoad s).host = s.host ∧
    (taiLoad s).ring = s.ring ∧ (taiLoad s).wards = s.wards ∧ (taiLoad s).cap = s.cap ∧ (taiLoad s).cache = s.cache ∧
    (taiLoad s).kcc = s.kcc ∧ (taiLoad s).ledger = s.ledger ∧ (taiLoad s).groups = s.groups ∧
    (taiLoad s).cells = s.cells ∧ (taiLoad s).reads = s.reads ∧ (taiLoad s).recoveries = s.recoveries ∧
    (taiLoad s).nextRead = s.nextRead ∧ (taiLoad s).obs = s.obs ∧ (taiLoad s).pin = s.pin ∧ (taiLoad s).regs = s.regs ∧
    (taiLoad s).fresh = s.fresh := by
  simp [taiLoad]
@[simp] theorem taiLoadAtEdge_frame (s : State) :
    (taiLoadAtEdge s).sys = s.sys ∧ (taiLoadAtEdge s).sec = s.sec ∧ (taiLoadAtEdge s).pwr = s.pwr ∧
    (taiLoadAtEdge s).host = s.host ∧ (taiLoadAtEdge s).ring = s.ring ∧ (taiLoadAtEdge s).wards = s.wards ∧
    (taiLoadAtEdge s).cap = s.cap ∧ (taiLoadAtEdge s).cache = s.cache ∧ (taiLoadAtEdge s).kcc = s.kcc ∧
    (taiLoadAtEdge s).ledger = s.ledger ∧ (taiLoadAtEdge s).groups = s.groups ∧ (taiLoadAtEdge s).cells = s.cells ∧
    (taiLoadAtEdge s).reads = s.reads ∧ (taiLoadAtEdge s).recoveries = s.recoveries ∧
    (taiLoadAtEdge s).nextRead = s.nextRead ∧ (taiLoadAtEdge s).obs = s.obs ∧ (taiLoadAtEdge s).pin = s.pin ∧
    (taiLoadAtEdge s).regs = s.regs ∧ (taiLoadAtEdge s).fresh = s.fresh := by
  simp [taiLoadAtEdge]
@[simp] theorem setNow_frame (s : State) :
    (setNow s).sys = s.sys ∧ (setNow s).sec = s.sec ∧ (setNow s).pwr = s.pwr ∧ (setNow s).host = s.host ∧
    (setNow s).ring = s.ring ∧ (setNow s).wards = s.wards ∧ (setNow s).cap = s.cap ∧ (setNow s).cache = s.cache ∧
    (setNow s).kcc = s.kcc ∧ (setNow s).ledger = s.ledger ∧ (setNow s).groups = s.groups ∧ (setNow s).cells = s.cells ∧
    (setNow s).reads = s.reads ∧ (setNow s).recoveries = s.recoveries ∧ (setNow s).nextRead = s.nextRead ∧
    (setNow s).regs = s.regs ∧ (setNow s).fresh = s.fresh := by
  simp [setNow]
@[simp] theorem cancelSet_frame (s : State) :
    (cancelSet s).sys = s.sys ∧ (cancelSet s).sec = s.sec ∧ (cancelSet s).pwr = s.pwr ∧ (cancelSet s).host = s.host ∧
    (cancelSet s).ring = s.ring ∧ (cancelSet s).wards = s.wards ∧ (cancelSet s).cap = s.cap ∧
    (cancelSet s).cache = s.cache ∧ (cancelSet s).kcc = s.kcc ∧ (cancelSet s).ledger = s.ledger ∧
    (cancelSet s).groups = s.groups ∧ (cancelSet s).cells = s.cells ∧ (cancelSet s).reads = s.reads ∧
    (cancelSet s).recoveries = s.recoveries ∧ (cancelSet s).nextRead = s.nextRead ∧ (cancelSet s).regs = s.regs ∧
    (cancelSet s).fresh = s.fresh := by
  simp [cancelSet]
@[simp] theorem setAtPps_frame (s : State) :
    (setAtPps s).sys = s.sys ∧ (setAtPps s).sec = s.sec ∧ (setAtPps s).pwr = s.pwr ∧ (setAtPps s).host = s.host ∧
    (setAtPps s).ring = s.ring ∧ (setAtPps s).wards = s.wards ∧ (setAtPps s).cap = s.cap ∧ (setAtPps s).cache = s.cache ∧
    (setAtPps s).kcc = s.kcc ∧ (setAtPps s).ledger = s.ledger ∧ (setAtPps s).groups = s.groups ∧
    (setAtPps s).cells = s.cells ∧ (setAtPps s).reads = s.reads ∧ (setAtPps s).recoveries = s.recoveries ∧
    (setAtPps s).nextRead = s.nextRead ∧ (setAtPps s).regs = s.regs ∧ (setAtPps s).fresh = s.fresh := by
  simp [setAtPps]
@[simp] theorem taiCmdWrite_frame (v : Word) (s : State) :
    (taiCmdWrite v s).sys = s.sys ∧ (taiCmdWrite v s).sec = s.sec ∧ (taiCmdWrite v s).pwr = s.pwr ∧
    (taiCmdWrite v s).host = s.host ∧ (taiCmdWrite v s).ring = s.ring ∧ (taiCmdWrite v s).wards = s.wards ∧
    (taiCmdWrite v s).cap = s.cap ∧ (taiCmdWrite v s).cache = s.cache ∧ (taiCmdWrite v s).kcc = s.kcc ∧
    (taiCmdWrite v s).ledger = s.ledger ∧ (taiCmdWrite v s).groups = s.groups ∧ (taiCmdWrite v s).cells = s.cells ∧
    (taiCmdWrite v s).reads = s.reads ∧ (taiCmdWrite v s).recoveries = s.recoveries ∧
    (taiCmdWrite v s).nextRead = s.nextRead ∧ (taiCmdWrite v s).regs = s.regs ∧ (taiCmdWrite v s).fresh = s.fresh := by
  simp [taiCmdWrite]
@[simp] theorem taiRateWrite_frame (v : Word) (s : State) :
    (taiRateWrite v s).sys = s.sys ∧ (taiRateWrite v s).sec = s.sec ∧ (taiRateWrite v s).pwr = s.pwr ∧
    (taiRateWrite v s).host = s.host ∧ (taiRateWrite v s).ring = s.ring ∧ (taiRateWrite v s).wards = s.wards ∧
    (taiRateWrite v s).cap = s.cap ∧ (taiRateWrite v s).cache = s.cache ∧ (taiRateWrite v s).kcc = s.kcc ∧
    (taiRateWrite v s).ledger = s.ledger ∧ (taiRateWrite v s).groups = s.groups ∧ (taiRateWrite v s).cells = s.cells ∧
    (taiRateWrite v s).reads = s.reads ∧ (taiRateWrite v s).recoveries = s.recoveries ∧
    (taiRateWrite v s).nextRead = s.nextRead ∧ (taiRateWrite v s).pin = s.pin ∧ (taiRateWrite v s).fresh = s.fresh := by
  simp [taiRateWrite]
@[simp] theorem ppsCtrlWrite_frame (v : Word) (s : State) :
    (ppsCtrlWrite v s).sec = s.sec ∧ (ppsCtrlWrite v s).pwr = s.pwr ∧ (ppsCtrlWrite v s).host = s.host ∧
    (ppsCtrlWrite v s).ring = s.ring ∧ (ppsCtrlWrite v s).wards = s.wards ∧ (ppsCtrlWrite v s).cap = s.cap ∧
    (ppsCtrlWrite v s).cache = s.cache ∧ (ppsCtrlWrite v s).kcc = s.kcc ∧ (ppsCtrlWrite v s).ledger = s.ledger ∧
    (ppsCtrlWrite v s).groups = s.groups ∧ (ppsCtrlWrite v s).cells = s.cells ∧ (ppsCtrlWrite v s).reads = s.reads ∧
    (ppsCtrlWrite v s).recoveries = s.recoveries ∧ (ppsCtrlWrite v s).nextRead = s.nextRead ∧
    (ppsCtrlWrite v s).fresh = s.fresh := by
  simp [ppsCtrlWrite]
@[simp] theorem ppsAccept_frame (s : State) :
    (ppsAccept s).sys = s.sys ∧ (ppsAccept s).sec = s.sec ∧ (ppsAccept s).pwr = s.pwr ∧ (ppsAccept s).host = s.host ∧
    (ppsAccept s).ring = s.ring ∧ (ppsAccept s).wards = s.wards ∧ (ppsAccept s).cap = s.cap ∧
    (ppsAccept s).cache = s.cache ∧ (ppsAccept s).kcc = s.kcc ∧ (ppsAccept s).ledger = s.ledger ∧
    (ppsAccept s).groups = s.groups ∧ (ppsAccept s).cells = s.cells ∧ (ppsAccept s).reads = s.reads ∧
    (ppsAccept s).recoveries = s.recoveries ∧ (ppsAccept s).nextRead = s.nextRead ∧ (ppsAccept s).regs = s.regs ∧
    (ppsAccept s).fresh = s.fresh := by
  simp [ppsAccept]
@[simp] theorem ppsRise_frame (s : State) :
    (ppsRise s).sys = s.sys ∧ (ppsRise s).sec = s.sec ∧ (ppsRise s).pwr = s.pwr ∧ (ppsRise s).host = s.host ∧
    (ppsRise s).ring = s.ring ∧ (ppsRise s).wards = s.wards ∧ (ppsRise s).cap = s.cap ∧ (ppsRise s).cache = s.cache ∧
    (ppsRise s).kcc = s.kcc ∧ (ppsRise s).ledger = s.ledger ∧ (ppsRise s).groups = s.groups ∧
    (ppsRise s).cells = s.cells ∧ (ppsRise s).reads = s.reads ∧ (ppsRise s).recoveries = s.recoveries ∧
    (ppsRise s).nextRead = s.nextRead ∧ (ppsRise s).regs = s.regs ∧ (ppsRise s).fresh = s.fresh := by
  unfold ppsRise; (repeat' split) <;> simp [*]
@[simp] theorem holdoverEnd_frame (s : State) :
    (holdoverEnd s).sys = s.sys ∧ (holdoverEnd s).sec = s.sec ∧ (holdoverEnd s).pwr = s.pwr ∧
    (holdoverEnd s).host = s.host ∧ (holdoverEnd s).ring = s.ring ∧ (holdoverEnd s).wards = s.wards ∧
    (holdoverEnd s).cap = s.cap ∧ (holdoverEnd s).cache = s.cache ∧ (holdoverEnd s).kcc = s.kcc ∧
    (holdoverEnd s).ledger = s.ledger ∧ (holdoverEnd s).groups = s.groups ∧ (holdoverEnd s).cells = s.cells ∧
    (holdoverEnd s).reads = s.reads ∧ (holdoverEnd s).recoveries = s.recoveries ∧ (holdoverEnd s).nextRead = s.nextRead ∧
    (holdoverEnd s).regs = s.regs ∧ (holdoverEnd s).fresh = s.fresh := by
  simp [holdoverEnd]
@[simp] theorem elapseToTai_frame (t : Nat) (s : State) :
    (elapseToTai t s).sys = s.sys ∧ (elapseToTai t s).sec = s.sec ∧ (elapseToTai t s).pwr = s.pwr ∧
    (elapseToTai t s).host = s.host ∧ (elapseToTai t s).ring = s.ring ∧ (elapseToTai t s).wards = s.wards ∧
    (elapseToTai t s).cap = s.cap ∧ (elapseToTai t s).cache = s.cache ∧ (elapseToTai t s).kcc = s.kcc ∧
    (elapseToTai t s).ledger = s.ledger ∧ (elapseToTai t s).groups = s.groups ∧ (elapseToTai t s).cells = s.cells ∧
    (elapseToTai t s).reads = s.reads ∧ (elapseToTai t s).recoveries = s.recoveries ∧
    (elapseToTai t s).nextRead = s.nextRead ∧ (elapseToTai t s).regs = s.regs ∧ (elapseToTai t s).fresh = s.fresh := by
  simp [elapseToTai]
@[simp] theorem pllLoss_frame (s : State) :
    (pllLoss s).sys = s.sys ∧ (pllLoss s).sec = s.sec ∧ (pllLoss s).cap = s.cap ∧ (pllLoss s).kcc = s.kcc ∧
    (pllLoss s).nextRead = s.nextRead ∧ (pllLoss s).regs = s.regs ∧ (pllLoss s).fresh = s.fresh := by
  simp [pllLoss]
@[simp] theorem restartWrite_frame (key : BitVec 16) (ends : List CellId) (s : State) :
    (restartWrite key ends s).nextRead = s.nextRead ∧ (restartWrite key ends s).fresh = s.fresh := by
  simp [restartWrite]
@[simp] theorem voteCorrupt_frame (s : State) :
    (voteCorrupt s).sys = s.sys ∧ (voteCorrupt s).clk = s.clk ∧ (voteCorrupt s).sec = s.sec ∧
    (voteCorrupt s).cap = s.cap ∧ (voteCorrupt s).kcc = s.kcc ∧ (voteCorrupt s).nextRead = s.nextRead ∧
    (voteCorrupt s).regs = s.regs ∧ (voteCorrupt s).fresh = s.fresh := by
  simp [voteCorrupt]
@[simp] theorem recordVotes_frame (got : BitVec 24) (bad : BitVec 24) (s : State) :
    (recordVotes got bad s).sys = s.sys ∧ (recordVotes got bad s).clk = s.clk ∧ (recordVotes got bad s).sec = s.sec ∧
    (recordVotes got bad s).host = s.host ∧ (recordVotes got bad s).ring = s.ring ∧
    (recordVotes got bad s).wards = s.wards ∧ (recordVotes got bad s).cap = s.cap ∧
    (recordVotes got bad s).cache = s.cache ∧ (recordVotes got bad s).kcc = s.kcc ∧
    (recordVotes got bad s).ledger = s.ledger ∧ (recordVotes got bad s).groups = s.groups ∧
    (recordVotes got bad s).cells = s.cells ∧ (recordVotes got bad s).reads = s.reads ∧
    (recordVotes got bad s).recoveries = s.recoveries ∧ (recordVotes got bad s).nextRead = s.nextRead ∧
    (recordVotes got bad s).regs = s.regs ∧ (recordVotes got bad s).fresh = s.fresh := by
  unfold recordVotes; (repeat' split) <;> simp [*]
@[simp] theorem openSlots_frame (got : BitVec 24) (s : State) :
    (openSlots got s).sys = s.sys ∧ (openSlots got s).clk = s.clk ∧ (openSlots got s).sec = s.sec ∧
    (openSlots got s).pwr = s.pwr ∧ (openSlots got s).host = s.host ∧ (openSlots got s).ring = s.ring ∧
    (openSlots got s).wards = s.wards ∧ (openSlots got s).cap = s.cap ∧ (openSlots got s).cache = s.cache ∧
    (openSlots got s).kcc = s.kcc ∧ (openSlots got s).ledger = s.ledger ∧ (openSlots got s).groups = s.groups ∧
    (openSlots got s).reads = s.reads ∧ (openSlots got s).recoveries = s.recoveries ∧
    (openSlots got s).nextRead = s.nextRead ∧ (openSlots got s).obs = s.obs ∧ (openSlots got s).pin = s.pin ∧
    (openSlots got s).regs = s.regs ∧ (openSlots got s).fresh = s.fresh := by
  simp [openSlots]
@[simp] theorem closeSlots_frame (gone : BitVec 24) (s : State) :
    (closeSlots gone s).sys = s.sys ∧ (closeSlots gone s).clk = s.clk ∧ (closeSlots gone s).sec = s.sec ∧
    (closeSlots gone s).pwr = s.pwr ∧ (closeSlots gone s).host = s.host ∧ (closeSlots gone s).ring = s.ring ∧
    (closeSlots gone s).wards = s.wards ∧ (closeSlots gone s).cap = s.cap ∧ (closeSlots gone s).cache = s.cache ∧
    (closeSlots gone s).kcc = s.kcc ∧ (closeSlots gone s).groups = s.groups ∧ (closeSlots gone s).reads = s.reads ∧
    (closeSlots gone s).recoveries = s.recoveries ∧ (closeSlots gone s).nextRead = s.nextRead ∧
    (closeSlots gone s).pin = s.pin ∧ (closeSlots gone s).regs = s.regs ∧ (closeSlots gone s).fresh = s.fresh := by
  simp [closeSlots]
@[simp] theorem voteSet_frame (v : Word) (s : State) :
    (voteSet v s).sys = s.sys ∧ (voteSet v s).clk = s.clk ∧ (voteSet v s).sec = s.sec ∧ (voteSet v s).kcc = s.kcc ∧
    (voteSet v s).nextRead = s.nextRead ∧ (voteSet v s).regs = s.regs ∧ (voteSet v s).fresh = s.fresh := by
  simp [voteSet]
@[simp] theorem withdrawVotes_frame (gone : BitVec 24) (s : State) :
    (withdrawVotes gone s).sys = s.sys ∧ (withdrawVotes gone s).clk = s.clk ∧ (withdrawVotes gone s).sec = s.sec ∧
    (withdrawVotes gone s).host = s.host ∧ (withdrawVotes gone s).ring = s.ring ∧ (withdrawVotes gone s).wards = s.wards ∧
    (withdrawVotes gone s).cap = s.cap ∧ (withdrawVotes gone s).cache = s.cache ∧ (withdrawVotes gone s).kcc = s.kcc ∧
    (withdrawVotes gone s).ledger = s.ledger ∧ (withdrawVotes gone s).groups = s.groups ∧
    (withdrawVotes gone s).cells = s.cells ∧ (withdrawVotes gone s).reads = s.reads ∧
    (withdrawVotes gone s).recoveries = s.recoveries ∧ (withdrawVotes gone s).nextRead = s.nextRead ∧
    (withdrawVotes gone s).obs = s.obs ∧ (withdrawVotes gone s).pin = s.pin ∧ (withdrawVotes gone s).regs = s.regs ∧
    (withdrawVotes gone s).fresh = s.fresh := by
  simp [withdrawVotes]
@[simp] theorem voteClr_frame (v : Word) (s : State) :
    (voteClr v s).sys = s.sys ∧ (voteClr v s).clk = s.clk ∧ (voteClr v s).sec = s.sec ∧ (voteClr v s).kcc = s.kcc ∧
    (voteClr v s).nextRead = s.nextRead ∧ (voteClr v s).regs = s.regs ∧ (voteClr v s).fresh = s.fresh := by
  simp [voteClr]
@[simp] theorem sleepVote_frame (s : State) :
    (sleepVote s).sys = s.sys ∧ (sleepVote s).clk = s.clk ∧ (sleepVote s).sec = s.sec ∧ (sleepVote s).kcc = s.kcc ∧
    (sleepVote s).reads = s.reads ∧ (sleepVote s).nextRead = s.nextRead ∧ (sleepVote s).regs = s.regs ∧
    (sleepVote s).fresh = s.fresh := by
  simp [sleepVote]
@[simp] theorem transitionEnd_frame (b : Boot) (s : State) :
    (transitionEnd b s).nextRead = s.nextRead ∧ (transitionEnd b s).fresh = s.fresh := by
  unfold transitionEnd; (repeat' split) <;> simp [*]
@[simp] theorem holdRelease_frame (key : BitVec 16) (s : State) :
    (holdRelease key s).sys = s.sys ∧ (holdRelease key s).clk = s.clk ∧ (holdRelease key s).sec = s.sec ∧
    (holdRelease key s).kcc = s.kcc ∧ (holdRelease key s).reads = s.reads ∧ (holdRelease key s).nextRead = s.nextRead ∧
    (holdRelease key s).regs = s.regs ∧ (holdRelease key s).fresh = s.fresh := by
  simp [holdRelease]
@[simp] theorem parkTimeout_frame (c : Option CellId) (s : State) :
    (parkTimeout c s).sys = s.sys ∧ (parkTimeout c s).sec = s.sec ∧ (parkTimeout c s).host = s.host ∧
    (parkTimeout c s).ring = s.ring ∧ (parkTimeout c s).wards = s.wards ∧ (parkTimeout c s).kcc = s.kcc ∧
    (parkTimeout c s).groups = s.groups ∧ (parkTimeout c s).reads = s.reads ∧ (parkTimeout c s).nextRead = s.nextRead ∧
    (parkTimeout c s).regs = s.regs ∧ (parkTimeout c s).fresh = s.fresh := by
  unfold parkTimeout; (repeat' split) <;> simp [*]
@[simp] theorem evalBell_frame (c : Ctx) (head : Bool) (v : BitVec 16) (s : State) :
    (evalBell c head v s).sys = s.sys ∧ (evalBell c head v s).clk = s.clk ∧ (evalBell c head v s).sec = s.sec ∧
    (evalBell c head v s).pwr = s.pwr ∧ (evalBell c head v s).host = s.host ∧ (evalBell c head v s).cap = s.cap ∧
    (evalBell c head v s).cache = s.cache ∧ (evalBell c head v s).kcc = s.kcc ∧ (evalBell c head v s).ledger = s.ledger ∧
    (evalBell c head v s).groups = s.groups ∧ (evalBell c head v s).cells = s.cells ∧
    (evalBell c head v s).reads = s.reads ∧ (evalBell c head v s).recoveries = s.recoveries ∧
    (evalBell c head v s).nextRead = s.nextRead ∧ (evalBell c head v s).pin = s.pin ∧
    (evalBell c head v s).regs = s.regs ∧ (evalBell c head v s).fresh = s.fresh := by
  simp [evalBell]
@[simp] theorem landBell_frame (w : WardId) (head : Bool) (v : BitVec 16) (s : State) :
    (landBell w head v s).sys = s.sys ∧ (landBell w head v s).clk = s.clk ∧ (landBell w head v s).sec = s.sec ∧
    (landBell w head v s).pwr = s.pwr ∧ (landBell w head v s).host = s.host ∧ (landBell w head v s).cap = s.cap ∧
    (landBell w head v s).cache = s.cache ∧ (landBell w head v s).kcc = s.kcc ∧ (landBell w head v s).ledger = s.ledger ∧
    (landBell w head v s).groups = s.groups ∧ (landBell w head v s).cells = s.cells ∧
    (landBell w head v s).reads = s.reads ∧ (landBell w head v s).recoveries = s.recoveries ∧
    (landBell w head v s).nextRead = s.nextRead ∧ (landBell w head v s).pin = s.pin ∧
    (landBell w head v s).regs = s.regs ∧ (landBell w head v s).fresh = s.fresh := by
  simp [landBell]
@[simp] theorem orphanBell_frame (w : WardId) (d : BellDone) (s : State) :
    (orphanBell w d s).sys = s.sys ∧ (orphanBell w d s).clk = s.clk ∧ (orphanBell w d s).sec = s.sec ∧
    (orphanBell w d s).pwr = s.pwr ∧ (orphanBell w d s).host = s.host ∧ (orphanBell w d s).ring = s.ring ∧
    (orphanBell w d s).cap = s.cap ∧ (orphanBell w d s).cache = s.cache ∧ (orphanBell w d s).kcc = s.kcc ∧
    (orphanBell w d s).ledger = s.ledger ∧ (orphanBell w d s).groups = s.groups ∧ (orphanBell w d s).cells = s.cells ∧
    (orphanBell w d s).reads = s.reads ∧ (orphanBell w d s).recoveries = s.recoveries ∧
    (orphanBell w d s).nextRead = s.nextRead ∧ (orphanBell w d s).pin = s.pin ∧ (orphanBell w d s).regs = s.regs ∧
    (orphanBell w d s).fresh = s.fresh := by
  unfold orphanBell; (repeat' split) <;> simp [*]
@[simp] theorem orphanBells_frame (w : WardId) (s : State) :
    (orphanBells w s).sys = s.sys ∧ (orphanBells w s).clk = s.clk ∧ (orphanBells w s).sec = s.sec ∧
    (orphanBells w s).pwr = s.pwr ∧ (orphanBells w s).host = s.host ∧ (orphanBells w s).ring = s.ring ∧
    (orphanBells w s).cap = s.cap ∧ (orphanBells w s).cache = s.cache ∧ (orphanBells w s).kcc = s.kcc ∧
    (orphanBells w s).ledger = s.ledger ∧ (orphanBells w s).groups = s.groups ∧ (orphanBells w s).cells = s.cells ∧
    (orphanBells w s).reads = s.reads ∧ (orphanBells w s).recoveries = s.recoveries ∧
    (orphanBells w s).nextRead = s.nextRead ∧ (orphanBells w s).pin = s.pin ∧ (orphanBells w s).regs = s.regs ∧
    (orphanBells w s).fresh = s.fresh := by
  unfold orphanBells; split <;> simp [-List.foldl_reverse]
@[simp] theorem request_frame (c : Ctx) (s : State) :
    (request c s).sys = s.sys ∧ (request c s).clk = s.clk ∧ (request c s).sec = s.sec ∧ (request c s).pwr = s.pwr ∧
    (request c s).cap = s.cap ∧ (request c s).cache = s.cache ∧ (request c s).kcc = s.kcc ∧
    (request c s).ledger = s.ledger ∧ (request c s).groups = s.groups ∧ (request c s).cells = s.cells ∧
    (request c s).reads = s.reads ∧ (request c s).recoveries = s.recoveries ∧ (request c s).nextRead = s.nextRead ∧
    (request c s).obs = s.obs ∧ (request c s).pin = s.pin ∧ (request c s).regs = s.regs ∧
    (request c s).fresh = s.fresh := by
  simp [request]
@[simp] theorem takeRead_frame (c : Ctx) (s : State) :
    (takeRead c s).sys = s.sys ∧ (takeRead c s).clk = s.clk ∧ (takeRead c s).sec = s.sec ∧ (takeRead c s).pwr = s.pwr ∧
    (takeRead c s).ring = s.ring ∧ (takeRead c s).wards = s.wards ∧ (takeRead c s).cap = s.cap ∧
    (takeRead c s).cache = s.cache ∧ (takeRead c s).kcc = s.kcc ∧ (takeRead c s).ledger = s.ledger ∧
    (takeRead c s).groups = s.groups ∧ (takeRead c s).cells = s.cells ∧ (takeRead c s).reads = s.reads ∧
    (takeRead c s).recoveries = s.recoveries ∧ (takeRead c s).nextRead = s.nextRead ∧ (takeRead c s).obs = s.obs ∧
    (takeRead c s).pin = s.pin ∧ (takeRead c s).regs = s.regs ∧ (takeRead c s).fresh = s.fresh := by
  simp [takeRead]
@[simp] theorem loseRead_frame (c : Ctx) (s : State) :
    (loseRead c s).sys = s.sys ∧ (loseRead c s).clk = s.clk ∧ (loseRead c s).sec = s.sec ∧ (loseRead c s).pwr = s.pwr ∧
    (loseRead c s).cap = s.cap ∧ (loseRead c s).cache = s.cache ∧ (loseRead c s).kcc = s.kcc ∧
    (loseRead c s).ledger = s.ledger ∧ (loseRead c s).groups = s.groups ∧ (loseRead c s).cells = s.cells ∧
    (loseRead c s).reads = s.reads ∧ (loseRead c s).recoveries = s.recoveries ∧ (loseRead c s).nextRead = s.nextRead ∧
    (loseRead c s).obs = s.obs ∧ (loseRead c s).pin = s.pin ∧ (loseRead c s).regs = s.regs ∧
    (loseRead c s).fresh = s.fresh := by
  simp [loseRead]
@[simp] theorem requestAdmin_frame (a0 : Nat) (s : State) :
    (requestAdmin a0 s).sys = s.sys ∧ (requestAdmin a0 s).clk = s.clk ∧ (requestAdmin a0 s).sec = s.sec ∧
    (requestAdmin a0 s).pwr = s.pwr ∧ (requestAdmin a0 s).cap = s.cap ∧ (requestAdmin a0 s).cache = s.cache ∧
    (requestAdmin a0 s).kcc = s.kcc ∧ (requestAdmin a0 s).ledger = s.ledger ∧ (requestAdmin a0 s).groups = s.groups ∧
    (requestAdmin a0 s).cells = s.cells ∧ (requestAdmin a0 s).reads = s.reads ∧
    (requestAdmin a0 s).recoveries = s.recoveries ∧ (requestAdmin a0 s).nextRead = s.nextRead ∧
    (requestAdmin a0 s).obs = s.obs ∧ (requestAdmin a0 s).pin = s.pin ∧ (requestAdmin a0 s).regs = s.regs ∧
    (requestAdmin a0 s).fresh = s.fresh := by
  induction a0 generalizing s <;> simp [requestAdmin, *]
@[simp] theorem adminFetch_frame (s : State) :
    (adminFetch s).sys = s.sys ∧ (adminFetch s).clk = s.clk ∧ (adminFetch s).sec = s.sec ∧ (adminFetch s).pwr = s.pwr ∧
    (adminFetch s).cap = s.cap ∧ (adminFetch s).cache = s.cache ∧ (adminFetch s).kcc = s.kcc ∧
    (adminFetch s).ledger = s.ledger ∧ (adminFetch s).groups = s.groups ∧ (adminFetch s).cells = s.cells ∧
    (adminFetch s).reads = s.reads ∧ (adminFetch s).recoveries = s.recoveries ∧ (adminFetch s).nextRead = s.nextRead ∧
    (adminFetch s).obs = s.obs ∧ (adminFetch s).pin = s.pin ∧ (adminFetch s).regs = s.regs ∧
    (adminFetch s).fresh = s.fresh := by
  simp [adminFetch]
@[simp] theorem newRound_frame (s : State) :
    (newRound s).sys = s.sys ∧ (newRound s).clk = s.clk ∧ (newRound s).sec = s.sec ∧ (newRound s).pwr = s.pwr ∧
    (newRound s).host = s.host ∧ (newRound s).ring = s.ring ∧ (newRound s).cap = s.cap ∧ (newRound s).cache = s.cache ∧
    (newRound s).kcc = s.kcc ∧ (newRound s).ledger = s.ledger ∧ (newRound s).groups = s.groups ∧
    (newRound s).cells = s.cells ∧ (newRound s).reads = s.reads ∧ (newRound s).recoveries = s.recoveries ∧
    (newRound s).nextRead = s.nextRead ∧ (newRound s).obs = s.obs ∧ (newRound s).pin = s.pin ∧
    (newRound s).regs = s.regs ∧ (newRound s).fresh = s.fresh := by
  simp [newRound]
@[simp] theorem nextTurn_frame (s : State) :
    (nextTurn s).2.sys = s.sys ∧ (nextTurn s).2.clk = s.clk ∧ (nextTurn s).2.sec = s.sec ∧ (nextTurn s).2.pwr = s.pwr ∧
    (nextTurn s).2.host = s.host ∧ (nextTurn s).2.ring = s.ring ∧ (nextTurn s).2.cap = s.cap ∧
    (nextTurn s).2.cache = s.cache ∧ (nextTurn s).2.kcc = s.kcc ∧ (nextTurn s).2.ledger = s.ledger ∧
    (nextTurn s).2.groups = s.groups ∧ (nextTurn s).2.cells = s.cells ∧ (nextTurn s).2.reads = s.reads ∧
    (nextTurn s).2.recoveries = s.recoveries ∧ (nextTurn s).2.nextRead = s.nextRead ∧ (nextTurn s).2.obs = s.obs ∧
    (nextTurn s).2.pin = s.pin ∧ (nextTurn s).2.regs = s.regs ∧ (nextTurn s).2.fresh = s.fresh := by
  unfold nextTurn; dsimp only; (repeat' split) <;> simp [*]
@[simp] theorem adminTurn_frame (s : State) :
    (adminTurn s).sys = s.sys ∧ (adminTurn s).clk = s.clk ∧ (adminTurn s).sec = s.sec ∧ (adminTurn s).pwr = s.pwr ∧
    (adminTurn s).cap = s.cap ∧ (adminTurn s).cache = s.cache ∧ (adminTurn s).kcc = s.kcc ∧
    (adminTurn s).ledger = s.ledger ∧ (adminTurn s).groups = s.groups ∧ (adminTurn s).cells = s.cells ∧
    (adminTurn s).reads = s.reads ∧ (adminTurn s).recoveries = s.recoveries ∧ (adminTurn s).nextRead = s.nextRead ∧
    (adminTurn s).obs = s.obs ∧ (adminTurn s).pin = s.pin ∧ (adminTurn s).regs = s.regs ∧
    (adminTurn s).fresh = s.fresh := by
  simp [adminTurn]
@[simp] theorem goOnTurn_frame (s : State) :
    (goOnTurn s).sys = s.sys ∧ (goOnTurn s).clk = s.clk ∧ (goOnTurn s).sec = s.sec ∧ (goOnTurn s).pwr = s.pwr ∧
    (goOnTurn s).cap = s.cap ∧ (goOnTurn s).cache = s.cache ∧ (goOnTurn s).kcc = s.kcc ∧ (goOnTurn s).ledger = s.ledger ∧
    (goOnTurn s).groups = s.groups ∧ (goOnTurn s).cells = s.cells ∧ (goOnTurn s).reads = s.reads ∧
    (goOnTurn s).recoveries = s.recoveries ∧ (goOnTurn s).nextRead = s.nextRead ∧ (goOnTurn s).obs = s.obs ∧
    (goOnTurn s).pin = s.pin ∧ (goOnTurn s).regs = s.regs ∧ (goOnTurn s).fresh = s.fresh := by
  unfold goOnTurn; (repeat' split) <;> simp [*]
@[simp] theorem beginTurn_frame (w : WardId) (s : State) :
    (beginTurn w s).sys = s.sys ∧ (beginTurn w s).clk = s.clk ∧ (beginTurn w s).sec = s.sec ∧
    (beginTurn w s).pwr = s.pwr ∧ (beginTurn w s).cap = s.cap ∧ (beginTurn w s).cache = s.cache ∧
    (beginTurn w s).kcc = s.kcc ∧ (beginTurn w s).ledger = s.ledger ∧ (beginTurn w s).groups = s.groups ∧
    (beginTurn w s).cells = s.cells ∧ (beginTurn w s).reads = s.reads ∧ (beginTurn w s).recoveries = s.recoveries ∧
    (beginTurn w s).nextRead = s.nextRead ∧ (beginTurn w s).obs = s.obs ∧ (beginTurn w s).pin = s.pin ∧
    (beginTurn w s).regs = s.regs ∧ (beginTurn w s).fresh = s.fresh := by
  simp [beginTurn]
@[simp] theorem roundaboutTurn_frame (s : State) :
    (roundaboutTurn s).sys = s.sys ∧ (roundaboutTurn s).clk = s.clk ∧ (roundaboutTurn s).sec = s.sec ∧
    (roundaboutTurn s).pwr = s.pwr ∧ (roundaboutTurn s).cap = s.cap ∧ (roundaboutTurn s).cache = s.cache ∧
    (roundaboutTurn s).kcc = s.kcc ∧ (roundaboutTurn s).ledger = s.ledger ∧ (roundaboutTurn s).groups = s.groups ∧
    (roundaboutTurn s).cells = s.cells ∧ (roundaboutTurn s).reads = s.reads ∧
    (roundaboutTurn s).recoveries = s.recoveries ∧ (roundaboutTurn s).nextRead = s.nextRead ∧
    (roundaboutTurn s).obs = s.obs ∧ (roundaboutTurn s).pin = s.pin ∧ (roundaboutTurn s).regs = s.regs ∧
    (roundaboutTurn s).fresh = s.fresh := by
  unfold roundaboutTurn; dsimp only; (repeat' split) <;> simp [*]
@[simp] theorem askNext_frame (j : Job) (s : State) :
    (askNext j s).sys = s.sys ∧ (askNext j s).clk = s.clk ∧ (askNext j s).sec = s.sec ∧ (askNext j s).pwr = s.pwr ∧
    (askNext j s).wards = s.wards ∧ (askNext j s).cap = s.cap ∧ (askNext j s).cache = s.cache ∧
    (askNext j s).kcc = s.kcc ∧ (askNext j s).ledger = s.ledger ∧ (askNext j s).groups = s.groups ∧
    (askNext j s).cells = s.cells ∧ (askNext j s).reads = s.reads ∧ (askNext j s).recoveries = s.recoveries ∧
    (askNext j s).nextRead = s.nextRead ∧ (askNext j s).obs = s.obs ∧ (askNext j s).pin = s.pin ∧
    (askNext j s).regs = s.regs ∧ (askNext j s).fresh = s.fresh := by
  simp [askNext]
@[simp] theorem askWaiting_frame (s : State) :
    (askWaiting s).sys = s.sys ∧ (askWaiting s).clk = s.clk ∧ (askWaiting s).sec = s.sec ∧ (askWaiting s).pwr = s.pwr ∧
    (askWaiting s).wards = s.wards ∧ (askWaiting s).cap = s.cap ∧ (askWaiting s).cache = s.cache ∧
    (askWaiting s).kcc = s.kcc ∧ (askWaiting s).ledger = s.ledger ∧ (askWaiting s).groups = s.groups ∧
    (askWaiting s).cells = s.cells ∧ (askWaiting s).reads = s.reads ∧ (askWaiting s).recoveries = s.recoveries ∧
    (askWaiting s).nextRead = s.nextRead ∧ (askWaiting s).obs = s.obs ∧ (askWaiting s).pin = s.pin ∧
    (askWaiting s).regs = s.regs ∧ (askWaiting s).fresh = s.fresh := by
  simp [askWaiting]
@[simp] theorem submit_frame (c : Ctx) (bad : Option Nat) (es : List Bytes) (s : State) :
    (submit c bad es s).sys = s.sys ∧ (submit c bad es s).clk = s.clk ∧ (submit c bad es s).sec = s.sec ∧
    (submit c bad es s).pwr = s.pwr ∧ (submit c bad es s).cap = s.cap ∧ (submit c bad es s).cache = s.cache ∧
    (submit c bad es s).kcc = s.kcc ∧ (submit c bad es s).ledger = s.ledger ∧ (submit c bad es s).groups = s.groups ∧
    (submit c bad es s).cells = s.cells ∧ (submit c bad es s).reads = s.reads ∧
    (submit c bad es s).recoveries = s.recoveries ∧ (submit c bad es s).nextRead = s.nextRead ∧
    (submit c bad es s).regs = s.regs := by
  unfold submit; dsimp only; (repeat' split) <;> simp [*]
@[simp] theorem flushJob_frame (w : WardId) (p : Option Nat × List Bytes) (s : State) :
    (flushJob w p s).sys = s.sys ∧ (flushJob w p s).clk = s.clk ∧ (flushJob w p s).sec = s.sec ∧
    (flushJob w p s).pwr = s.pwr ∧ (flushJob w p s).cap = s.cap ∧ (flushJob w p s).cache = s.cache ∧
    (flushJob w p s).kcc = s.kcc ∧ (flushJob w p s).ledger = s.ledger ∧ (flushJob w p s).groups = s.groups ∧
    (flushJob w p s).cells = s.cells ∧ (flushJob w p s).reads = s.reads ∧ (flushJob w p s).recoveries = s.recoveries ∧
    (flushJob w p s).nextRead = s.nextRead ∧ (flushJob w p s).regs = s.regs ∧ (flushJob w p s).fresh = s.fresh := by
  unfold flushJob; dsimp only; (repeat' split) <;> simp [*]
@[simp] theorem flushStep_frame (w : WardId) (s : State) :
    (flushStep w s).sys = s.sys ∧ (flushStep w s).clk = s.clk ∧ (flushStep w s).sec = s.sec ∧
    (flushStep w s).pwr = s.pwr ∧ (flushStep w s).cap = s.cap ∧ (flushStep w s).cache = s.cache ∧
    (flushStep w s).kcc = s.kcc ∧ (flushStep w s).groups = s.groups ∧ (flushStep w s).cells = s.cells ∧
    (flushStep w s).reads = s.reads ∧ (flushStep w s).recoveries = s.recoveries ∧ (flushStep w s).nextRead = s.nextRead ∧
    (flushStep w s).regs = s.regs ∧ (flushStep w s).fresh = s.fresh := by
  unfold flushStep; dsimp only; (repeat' split) <;> simp [*]
@[simp] theorem ringBell_frame (c : Ctx) (head : Bool) (v : BitVec 16) (s : State) :
    (ringBell c head v s).sys = s.sys ∧ (ringBell c head v s).clk = s.clk ∧ (ringBell c head v s).sec = s.sec ∧
    (ringBell c head v s).pwr = s.pwr ∧ (ringBell c head v s).cap = s.cap ∧ (ringBell c head v s).cache = s.cache ∧
    (ringBell c head v s).kcc = s.kcc ∧ (ringBell c head v s).groups = s.groups ∧ (ringBell c head v s).cells = s.cells ∧
    (ringBell c head v s).reads = s.reads ∧ (ringBell c head v s).recoveries = s.recoveries ∧
    (ringBell c head v s).nextRead = s.nextRead ∧ (ringBell c head v s).regs = s.regs ∧
    (ringBell c head v s).fresh = s.fresh := by
  unfold ringBell; dsimp only; (repeat' split) <;> simp [*]
@[simp] theorem accept_frame (c : Ctx) (e : Bytes) (s : State) :
    (accept c e s).sys = s.sys ∧ (accept c e s).clk = s.clk ∧ (accept c e s).pwr = s.pwr ∧ (accept c e s).cap = s.cap ∧
    (accept c e s).cache = s.cache ∧ (accept c e s).kcc = s.kcc ∧ (accept c e s).groups = s.groups ∧
    (accept c e s).cells = s.cells ∧ (accept c e s).reads = s.reads ∧ (accept c e s).recoveries = s.recoveries ∧
    (accept c e s).nextRead = s.nextRead ∧ (accept c e s).regs = s.regs := by
  unfold accept; (repeat' split) <;> simp [*]
@[simp] theorem afterEntry_frame (w : WardId) (s : State) :
    (afterEntry w s).sys = s.sys ∧ (afterEntry w s).clk = s.clk ∧ (afterEntry w s).sec = s.sec ∧
    (afterEntry w s).pwr = s.pwr ∧ (afterEntry w s).cap = s.cap ∧ (afterEntry w s).cache = s.cache ∧
    (afterEntry w s).kcc = s.kcc ∧ (afterEntry w s).ledger = s.ledger ∧ (afterEntry w s).groups = s.groups ∧
    (afterEntry w s).cells = s.cells ∧ (afterEntry w s).reads = s.reads ∧ (afterEntry w s).recoveries = s.recoveries ∧
    (afterEntry w s).nextRead = s.nextRead ∧ (afterEntry w s).obs = s.obs ∧ (afterEntry w s).pin = s.pin ∧
    (afterEntry w s).regs = s.regs ∧ (afterEntry w s).fresh = s.fresh := by
  simp [afterEntry]
@[simp] theorem entryArrival_frame (c : Ctx) (entry : Bytes) (s : State) :
    (entryArrival c entry s).sys = s.sys ∧ (entryArrival c entry s).clk = s.clk ∧ (entryArrival c entry s).pwr = s.pwr ∧
    (entryArrival c entry s).cap = s.cap ∧ (entryArrival c entry s).cache = s.cache ∧
    (entryArrival c entry s).kcc = s.kcc ∧ (entryArrival c entry s).groups = s.groups ∧
    (entryArrival c entry s).cells = s.cells ∧ (entryArrival c entry s).reads = s.reads ∧
    (entryArrival c entry s).recoveries = s.recoveries ∧ (entryArrival c entry s).nextRead = s.nextRead ∧
    (entryArrival c entry s).regs = s.regs := by
  unfold entryArrival; (repeat' split) <;> simp [*]
@[simp] theorem readLost_frame (c : Ctx) (s : State) :
    (readLost c s).sys = s.sys ∧ (readLost c s).clk = s.clk ∧ (readLost c s).sec = s.sec ∧ (readLost c s).pwr = s.pwr ∧
    (readLost c s).cap = s.cap ∧ (readLost c s).cache = s.cache ∧ (readLost c s).kcc = s.kcc ∧
    (readLost c s).ledger = s.ledger ∧ (readLost c s).groups = s.groups ∧ (readLost c s).cells = s.cells ∧
    (readLost c s).reads = s.reads ∧ (readLost c s).recoveries = s.recoveries ∧ (readLost c s).nextRead = s.nextRead ∧
    (readLost c s).regs = s.regs ∧ (readLost c s).fresh = s.fresh := by
  unfold readLost; (repeat' split) <;> simp [*]
@[simp] theorem markRead_frame (c : Ctx) (f : RingRead → RingRead) (s : State) :
    (markRead c f s).sys = s.sys ∧ (markRead c f s).clk = s.clk ∧ (markRead c f s).sec = s.sec ∧
    (markRead c f s).pwr = s.pwr ∧ (markRead c f s).ring = s.ring ∧ (markRead c f s).wards = s.wards ∧
    (markRead c f s).cap = s.cap ∧ (markRead c f s).cache = s.cache ∧ (markRead c f s).kcc = s.kcc ∧
    (markRead c f s).ledger = s.ledger ∧ (markRead c f s).groups = s.groups ∧ (markRead c f s).cells = s.cells ∧
    (markRead c f s).reads = s.reads ∧ (markRead c f s).recoveries = s.recoveries ∧
    (markRead c f s).nextRead = s.nextRead ∧ (markRead c f s).obs = s.obs ∧ (markRead c f s).pin = s.pin ∧
    (markRead c f s).regs = s.regs ∧ (markRead c f s).fresh = s.fresh := by
  simp [markRead]
@[simp] theorem readFails_frame (why : ReadFail) (sent : DWord) (s : State) :
    (readFails why sent s).sys = s.sys ∧ (readFails why sent s).sec = s.sec ∧ (readFails why sent s).pwr = s.pwr ∧
    (readFails why sent s).ring = s.ring ∧ (readFails why sent s).wards = s.wards ∧ (readFails why sent s).cap = s.cap ∧
    (readFails why sent s).cache = s.cache ∧ (readFails why sent s).kcc = s.kcc ∧
    (readFails why sent s).ledger = s.ledger ∧ (readFails why sent s).groups = s.groups ∧
    (readFails why sent s).cells = s.cells ∧ (readFails why sent s).reads = s.reads ∧
    (readFails why sent s).recoveries = s.recoveries ∧ (readFails why sent s).nextRead = s.nextRead ∧
    (readFails why sent s).regs = s.regs ∧ (readFails why sent s).fresh = s.fresh := by
  unfold readFails; (repeat' split) <;> simp [*]
@[simp] theorem ringReadFail_frame (c : Ctx) (why : ReadFail) (s : State) :
    (ringReadFail c why s).sys = s.sys ∧ (ringReadFail c why s).sec = s.sec ∧ (ringReadFail c why s).pwr = s.pwr ∧
    (ringReadFail c why s).cap = s.cap ∧ (ringReadFail c why s).cache = s.cache ∧ (ringReadFail c why s).kcc = s.kcc ∧
    (ringReadFail c why s).ledger = s.ledger ∧ (ringReadFail c why s).groups = s.groups ∧
    (ringReadFail c why s).cells = s.cells ∧ (ringReadFail c why s).reads = s.reads ∧
    (ringReadFail c why s).recoveries = s.recoveries ∧ (ringReadFail c why s).nextRead = s.nextRead ∧
    (ringReadFail c why s).regs = s.regs ∧ (ringReadFail c why s).fresh = s.fresh := by
  unfold ringReadFail; (repeat' split) <;> simp [*]
@[simp] theorem ringReadRetry_frame (c : Ctx) (s : State) :
    (ringReadRetry c s).sys = s.sys ∧ (ringReadRetry c s).sec = s.sec ∧ (ringReadRetry c s).pwr = s.pwr ∧
    (ringReadRetry c s).cap = s.cap ∧ (ringReadRetry c s).cache = s.cache ∧ (ringReadRetry c s).kcc = s.kcc ∧
    (ringReadRetry c s).ledger = s.ledger ∧ (ringReadRetry c s).groups = s.groups ∧ (ringReadRetry c s).cells = s.cells ∧
    (ringReadRetry c s).reads = s.reads ∧ (ringReadRetry c s).recoveries = s.recoveries ∧
    (ringReadRetry c s).nextRead = s.nextRead ∧ (ringReadRetry c s).regs = s.regs ∧
    (ringReadRetry c s).fresh = s.fresh := by
  unfold ringReadRetry; (repeat' split) <;> simp [*]
@[simp] theorem dmaAbort_frame (id : Nat) (why : ReadFail) (s : State) :
    (dmaAbort id why s).sys = s.sys ∧ (dmaAbort id why s).sec = s.sec ∧ (dmaAbort id why s).pwr = s.pwr ∧
    (dmaAbort id why s).cap = s.cap ∧ (dmaAbort id why s).cache = s.cache ∧ (dmaAbort id why s).kcc = s.kcc ∧
    (dmaAbort id why s).ledger = s.ledger ∧ (dmaAbort id why s).groups = s.groups ∧ (dmaAbort id why s).cells = s.cells ∧
    (dmaAbort id why s).reads = s.reads ∧ (dmaAbort id why s).recoveries = s.recoveries ∧
    (dmaAbort id why s).nextRead = s.nextRead ∧ (dmaAbort id why s).regs = s.regs ∧
    (dmaAbort id why s).fresh = s.fresh := by
  unfold dmaAbort; (repeat' split) <;> simp [*]
@[simp] theorem dataFetch_frame (id : Nat) (data : Bytes) (s : State) :
    (dataFetch id data s).sys = s.sys ∧ (dataFetch id data s).clk = s.clk ∧ (dataFetch id data s).sec = s.sec ∧
    (dataFetch id data s).pwr = s.pwr ∧ (dataFetch id data s).cap = s.cap ∧ (dataFetch id data s).cache = s.cache ∧
    (dataFetch id data s).kcc = s.kcc ∧ (dataFetch id data s).ledger = s.ledger ∧
    (dataFetch id data s).groups = s.groups ∧ (dataFetch id data s).cells = s.cells ∧
    (dataFetch id data s).reads = s.reads ∧ (dataFetch id data s).recoveries = s.recoveries ∧
    (dataFetch id data s).nextRead = s.nextRead ∧ (dataFetch id data s).regs = s.regs := by
  unfold dataFetch; dsimp only; (repeat' split) <;> simp [*]
@[simp] theorem askData_frame (j : Job) (s : State) :
    (askData j s).sys = s.sys ∧ (askData j s).clk = s.clk ∧ (askData j s).sec = s.sec ∧ (askData j s).pwr = s.pwr ∧
    (askData j s).wards = s.wards ∧ (askData j s).cap = s.cap ∧ (askData j s).cache = s.cache ∧
    (askData j s).kcc = s.kcc ∧ (askData j s).ledger = s.ledger ∧ (askData j s).groups = s.groups ∧
    (askData j s).cells = s.cells ∧ (askData j s).reads = s.reads ∧ (askData j s).recoveries = s.recoveries ∧
    (askData j s).nextRead = s.nextRead ∧ (askData j s).obs = s.obs ∧ (askData j s).pin = s.pin ∧
    (askData j s).regs = s.regs ∧ (askData j s).fresh = s.fresh := by
  simp [askData]
@[simp] theorem jobBegin_frame (id : Nat) (s : State) :
    (jobBegin id s).sys = s.sys ∧ (jobBegin id s).clk = s.clk ∧ (jobBegin id s).sec = s.sec ∧
    (jobBegin id s).pwr = s.pwr ∧ (jobBegin id s).host = s.host ∧ (jobBegin id s).wards = s.wards ∧
    (jobBegin id s).cap = s.cap ∧ (jobBegin id s).cache = s.cache ∧ (jobBegin id s).kcc = s.kcc ∧
    (jobBegin id s).ledger = s.ledger ∧ (jobBegin id s).groups = s.groups ∧ (jobBegin id s).cells = s.cells ∧
    (jobBegin id s).reads = s.reads ∧ (jobBegin id s).recoveries = s.recoveries ∧ (jobBegin id s).nextRead = s.nextRead ∧
    (jobBegin id s).obs = s.obs ∧ (jobBegin id s).pin = s.pin ∧ (jobBegin id s).regs = s.regs ∧
    (jobBegin id s).fresh = s.fresh := by
  unfold jobBegin; (repeat' split) <;> simp [*]
@[simp] theorem runJob_sys (id : Nat) (op : Nat) (admin : Bool) (f : Job → State → State) (s : State) (hp : ∀ (x0 : Job)
    (s : State), (f x0 s).sys = s.sys) :
    (runJob id op admin f s).sys = s.sys := by
  unfold runJob; (repeat' split) <;> simp [*]
@[simp] theorem runJob_clk (id : Nat) (op : Nat) (admin : Bool) (f : Job → State → State) (s : State) (hp : ∀ (x0 : Job)
    (s : State), (f x0 s).clk = s.clk) :
    (runJob id op admin f s).clk = s.clk := by
  unfold runJob; (repeat' split) <;> simp [*]
@[simp] theorem runJob_sec (id : Nat) (op : Nat) (admin : Bool) (f : Job → State → State) (s : State) (hp : ∀ (x0 : Job)
    (s : State), (f x0 s).sec = s.sec) :
    (runJob id op admin f s).sec = s.sec := by
  unfold runJob; (repeat' split) <;> simp [*]
@[simp] theorem runJob_pwr (id : Nat) (op : Nat) (admin : Bool) (f : Job → State → State) (s : State) (hp : ∀ (x0 : Job)
    (s : State), (f x0 s).pwr = s.pwr) :
    (runJob id op admin f s).pwr = s.pwr := by
  unfold runJob; (repeat' split) <;> simp [*]
@[simp] theorem runJob_host (id : Nat) (op : Nat) (admin : Bool) (f : Job → State → State) (s : State) (hp : ∀ (x0 : Job)
    (s : State), (f x0 s).host = s.host) :
    (runJob id op admin f s).host = s.host := by
  unfold runJob; (repeat' split) <;> simp [*]
@[simp] theorem runJob_wards (id : Nat) (op : Nat) (admin : Bool) (f : Job → State → State) (s : State) (hp : ∀ (x0 : Job)
    (s : State), (f x0 s).wards = s.wards) :
    (runJob id op admin f s).wards = s.wards := by
  unfold runJob; (repeat' split) <;> simp [*]
@[simp] theorem runJob_cap (id : Nat) (op : Nat) (admin : Bool) (f : Job → State → State) (s : State) (hp : ∀ (x0 : Job)
    (s : State), (f x0 s).cap = s.cap) :
    (runJob id op admin f s).cap = s.cap := by
  unfold runJob; (repeat' split) <;> simp [*]
@[simp] theorem runJob_cache (id : Nat) (op : Nat) (admin : Bool) (f : Job → State → State) (s : State) (hp : ∀ (x0 : Job)
    (s : State), (f x0 s).cache = s.cache) :
    (runJob id op admin f s).cache = s.cache := by
  unfold runJob; (repeat' split) <;> simp [*]
@[simp] theorem runJob_kcc (id : Nat) (op : Nat) (admin : Bool) (f : Job → State → State) (s : State) (hp : ∀ (x0 : Job)
    (s : State), (f x0 s).kcc = s.kcc) :
    (runJob id op admin f s).kcc = s.kcc := by
  unfold runJob; (repeat' split) <;> simp [*]
@[simp] theorem runJob_ledger (id : Nat) (op : Nat) (admin : Bool) (f : Job → State → State) (s : State) (hp : ∀ (x0 :
    Job) (s : State), (f x0 s).ledger = s.ledger) :
    (runJob id op admin f s).ledger = s.ledger := by
  unfold runJob; (repeat' split) <;> simp [*]
@[simp] theorem runJob_groups (id : Nat) (op : Nat) (admin : Bool) (f : Job → State → State) (s : State) (hp : ∀ (x0 :
    Job) (s : State), (f x0 s).groups = s.groups) :
    (runJob id op admin f s).groups = s.groups := by
  unfold runJob; (repeat' split) <;> simp [*]
@[simp] theorem runJob_cells (id : Nat) (op : Nat) (admin : Bool) (f : Job → State → State) (s : State) (hp : ∀ (x0 : Job)
    (s : State), (f x0 s).cells = s.cells) :
    (runJob id op admin f s).cells = s.cells := by
  unfold runJob; (repeat' split) <;> simp [*]
@[simp] theorem runJob_reads (id : Nat) (op : Nat) (admin : Bool) (f : Job → State → State) (s : State) (hp : ∀ (x0 : Job)
    (s : State), (f x0 s).reads = s.reads) :
    (runJob id op admin f s).reads = s.reads := by
  unfold runJob; (repeat' split) <;> simp [*]
@[simp] theorem runJob_recoveries (id : Nat) (op : Nat) (admin : Bool) (f : Job → State → State) (s : State) (hp : ∀ (x0 :
    Job) (s : State), (f x0 s).recoveries = s.recoveries) :
    (runJob id op admin f s).recoveries = s.recoveries := by
  unfold runJob; (repeat' split) <;> simp [*]
@[simp] theorem runJob_nextRead (id : Nat) (op : Nat) (admin : Bool) (f : Job → State → State) (s : State) (hp : ∀ (x0 :
    Job) (s : State), (f x0 s).nextRead = s.nextRead) :
    (runJob id op admin f s).nextRead = s.nextRead := by
  unfold runJob; (repeat' split) <;> simp [*]
@[simp] theorem runJob_obs (id : Nat) (op : Nat) (admin : Bool) (f : Job → State → State) (s : State) (hp : ∀ (x0 : Job)
    (s : State), (f x0 s).obs = s.obs) :
    (runJob id op admin f s).obs = s.obs := by
  unfold runJob; (repeat' split) <;> simp [*]
@[simp] theorem runJob_pin (id : Nat) (op : Nat) (admin : Bool) (f : Job → State → State) (s : State) (hp : ∀ (x0 : Job)
    (s : State), (f x0 s).pin = s.pin) :
    (runJob id op admin f s).pin = s.pin := by
  unfold runJob; (repeat' split) <;> simp [*]
@[simp] theorem runJob_regs (id : Nat) (op : Nat) (admin : Bool) (f : Job → State → State) (s : State) (hp : ∀ (x0 : Job)
    (s : State), (f x0 s).regs = s.regs) :
    (runJob id op admin f s).regs = s.regs := by
  unfold runJob; (repeat' split) <;> simp [*]
@[simp] theorem runJob_fresh (id : Nat) (op : Nat) (admin : Bool) (f : Job → State → State) (s : State) (hp : ∀ (x0 : Job)
    (s : State), (f x0 s).fresh = s.fresh) :
    (runJob id op admin f s).fresh = s.fresh := by
  unfold runJob; (repeat' split) <;> simp [*]
@[simp] theorem adminCtrl_frame (on : Bool) (s : State) :
    (adminCtrl on s).sys = s.sys ∧ (adminCtrl on s).clk = s.clk ∧ (adminCtrl on s).sec = s.sec ∧
    (adminCtrl on s).pwr = s.pwr ∧ (adminCtrl on s).cap = s.cap ∧ (adminCtrl on s).cache = s.cache ∧
    (adminCtrl on s).kcc = s.kcc ∧ (adminCtrl on s).ledger = s.ledger ∧ (adminCtrl on s).groups = s.groups ∧
    (adminCtrl on s).cells = s.cells ∧ (adminCtrl on s).reads = s.reads ∧ (adminCtrl on s).recoveries = s.recoveries ∧
    (adminCtrl on s).nextRead = s.nextRead ∧ (adminCtrl on s).regs = s.regs ∧ (adminCtrl on s).fresh = s.fresh := by
  simp [adminCtrl]
@[simp] theorem chainTorn_frame (c : Ctx) (s : State) :
    (chainTorn c s).sys = s.sys ∧ (chainTorn c s).clk = s.clk ∧ (chainTorn c s).sec = s.sec ∧
    (chainTorn c s).pwr = s.pwr ∧ (chainTorn c s).cap = s.cap ∧ (chainTorn c s).cache = s.cache ∧
    (chainTorn c s).kcc = s.kcc ∧ (chainTorn c s).ledger = s.ledger ∧ (chainTorn c s).groups = s.groups ∧
    (chainTorn c s).cells = s.cells ∧ (chainTorn c s).reads = s.reads ∧ (chainTorn c s).recoveries = s.recoveries ∧
    (chainTorn c s).nextRead = s.nextRead ∧ (chainTorn c s).regs = s.regs ∧ (chainTorn c s).fresh = s.fresh := by
  simp [chainTorn]

end Sys2Proof.Machine
end

