-- ==== Sys2Proof/Laws/FrameUnits.lean ====
section
/-! SUPPORT. Frames of the tick, pins, host link and media reads: what each operation leaves as it was. -/

set_option linter.unusedTactic false
set_option linter.unreachableTactic false
set_option linter.unnecessarySeqFocus false

namespace Sys2Proof.Machine

@[simp] theorem State.setImage_frame (s : State) (i : Nat) (im : Image) :
    (State.setImage s i im).sys = s.sys ∧ (State.setImage s i im).clk = s.clk ∧ (State.setImage s i im).sec = s.sec ∧
    (State.setImage s i im).pwr = s.pwr ∧ (State.setImage s i im).host = s.host ∧ (State.setImage s i im).ring = s.ring ∧
    (State.setImage s i im).wards = s.wards ∧ (State.setImage s i im).cap = s.cap ∧
    (State.setImage s i im).cache = s.cache ∧ (State.setImage s i im).kcc = s.kcc ∧
    (State.setImage s i im).ledger = s.ledger ∧ (State.setImage s i im).groups = s.groups ∧
    (State.setImage s i im).cells = s.cells ∧ (State.setImage s i im).reads = s.reads ∧
    (State.setImage s i im).recoveries = s.recoveries ∧ (State.setImage s i im).nextRead = s.nextRead ∧
    (State.setImage s i im).pin = s.pin ∧ (State.setImage s i im).regs = s.regs ∧
    (State.setImage s i im).fresh = s.fresh := by
  simp [State.setImage]
@[simp] theorem snapshot_frame (tick : Nat) (b : DWord) (s : State) :
    (snapshot tick b s).sys = s.sys ∧ (snapshot tick b s).clk = s.clk ∧ (snapshot tick b s).sec = s.sec ∧
    (snapshot tick b s).pwr = s.pwr ∧ (snapshot tick b s).host = s.host ∧ (snapshot tick b s).ring = s.ring ∧
    (snapshot tick b s).wards = s.wards ∧ (snapshot tick b s).cap = s.cap ∧ (snapshot tick b s).cache = s.cache ∧
    (snapshot tick b s).kcc = s.kcc ∧ (snapshot tick b s).ledger = s.ledger ∧ (snapshot tick b s).groups = s.groups ∧
    (snapshot tick b s).cells = s.cells ∧ (snapshot tick b s).reads = s.reads ∧
    (snapshot tick b s).recoveries = s.recoveries ∧ (snapshot tick b s).nextRead = s.nextRead ∧
    (snapshot tick b s).pin = s.pin ∧ (snapshot tick b s).regs = s.regs ∧ (snapshot tick b s).fresh = s.fresh := by
  simp [snapshot]
@[simp] theorem publish_frame (s : State) :
    (publish s).sys = s.sys ∧ (publish s).clk = s.clk ∧ (publish s).sec = s.sec ∧ (publish s).pwr = s.pwr ∧
    (publish s).host = s.host ∧ (publish s).ring = s.ring ∧ (publish s).wards = s.wards ∧ (publish s).cap = s.cap ∧
    (publish s).cache = s.cache ∧ (publish s).kcc = s.kcc ∧ (publish s).ledger = s.ledger ∧
    (publish s).groups = s.groups ∧ (publish s).cells = s.cells ∧ (publish s).reads = s.reads ∧
    (publish s).recoveries = s.recoveries ∧ (publish s).nextRead = s.nextRead ∧ (publish s).pin = s.pin ∧
    (publish s).regs = s.regs ∧ (publish s).fresh = s.fresh := by
  simp [publish]
@[simp] theorem supplyWarn_frame (old : Tab (BitVec 16)) (sampled : Bool) (e : TickEnv) (s : State) (i : Fin 4) :
    (supplyWarn old sampled e s i).sys = s.sys ∧ (supplyWarn old sampled e s i).clk = s.clk ∧
    (supplyWarn old sampled e s i).sec = s.sec ∧ (supplyWarn old sampled e s i).pwr = s.pwr ∧
    (supplyWarn old sampled e s i).host = s.host ∧ (supplyWarn old sampled e s i).ring = s.ring ∧
    (supplyWarn old sampled e s i).wards = s.wards ∧ (supplyWarn old sampled e s i).cap = s.cap ∧
    (supplyWarn old sampled e s i).cache = s.cache ∧ (supplyWarn old sampled e s i).kcc = s.kcc ∧
    (supplyWarn old sampled e s i).ledger = s.ledger ∧ (supplyWarn old sampled e s i).groups = s.groups ∧
    (supplyWarn old sampled e s i).cells = s.cells ∧ (supplyWarn old sampled e s i).reads = s.reads ∧
    (supplyWarn old sampled e s i).recoveries = s.recoveries ∧ (supplyWarn old sampled e s i).nextRead = s.nextRead ∧
    (supplyWarn old sampled e s i).regs = s.regs ∧ (supplyWarn old sampled e s i).fresh = s.fresh := by
  simp [supplyWarn]
@[simp] theorem takeSample_frame (e : TickEnv) (s : State) :
    (takeSample e s).sys = s.sys ∧ (takeSample e s).clk = s.clk ∧ (takeSample e s).sec = s.sec ∧
    (takeSample e s).pwr = s.pwr ∧ (takeSample e s).host = s.host ∧ (takeSample e s).ring = s.ring ∧
    (takeSample e s).wards = s.wards ∧ (takeSample e s).cap = s.cap ∧ (takeSample e s).cache = s.cache ∧
    (takeSample e s).kcc = s.kcc ∧ (takeSample e s).ledger = s.ledger ∧ (takeSample e s).groups = s.groups ∧
    (takeSample e s).cells = s.cells ∧ (takeSample e s).reads = s.reads ∧ (takeSample e s).recoveries = s.recoveries ∧
    (takeSample e s).nextRead = s.nextRead ∧ (takeSample e s).pin = s.pin ∧ (takeSample e s).regs = s.regs ∧
    (takeSample e s).fresh = s.fresh := by
  simp [takeSample]
@[simp] theorem tempWarned_frame (old : ObsBlk) (e : TickEnv) (s : State) :
    (tempWarned old e s).sys = s.sys ∧ (tempWarned old e s).clk = s.clk ∧ (tempWarned old e s).sec = s.sec ∧
    (tempWarned old e s).pwr = s.pwr ∧ (tempWarned old e s).host = s.host ∧ (tempWarned old e s).ring = s.ring ∧
    (tempWarned old e s).wards = s.wards ∧ (tempWarned old e s).cap = s.cap ∧ (tempWarned old e s).cache = s.cache ∧
    (tempWarned old e s).kcc = s.kcc ∧ (tempWarned old e s).ledger = s.ledger ∧ (tempWarned old e s).groups = s.groups ∧
    (tempWarned old e s).cells = s.cells ∧ (tempWarned old e s).reads = s.reads ∧
    (tempWarned old e s).recoveries = s.recoveries ∧ (tempWarned old e s).nextRead = s.nextRead ∧
    (tempWarned old e s).regs = s.regs ∧ (tempWarned old e s).fresh = s.fresh := by
  simp [tempWarned]
@[simp] theorem suppliesWarned_frame (old : ObsBlk) (e : TickEnv) (s : State) :
    (suppliesWarned old e s).sys = s.sys ∧ (suppliesWarned old e s).clk = s.clk ∧ (suppliesWarned old e s).sec = s.sec ∧
    (suppliesWarned old e s).pwr = s.pwr ∧ (suppliesWarned old e s).host = s.host ∧
    (suppliesWarned old e s).ring = s.ring ∧ (suppliesWarned old e s).wards = s.wards ∧
    (suppliesWarned old e s).cap = s.cap ∧ (suppliesWarned old e s).cache = s.cache ∧
    (suppliesWarned old e s).kcc = s.kcc ∧ (suppliesWarned old e s).ledger = s.ledger ∧
    (suppliesWarned old e s).groups = s.groups ∧ (suppliesWarned old e s).cells = s.cells ∧
    (suppliesWarned old e s).reads = s.reads ∧ (suppliesWarned old e s).recoveries = s.recoveries ∧
    (suppliesWarned old e s).nextRead = s.nextRead ∧ (suppliesWarned old e s).regs = s.regs ∧
    (suppliesWarned old e s).fresh = s.fresh := by
  simp [suppliesWarned]
@[simp] theorem sample_frame (e : TickEnv) (s : State) :
    (sample e s).sys = s.sys ∧ (sample e s).clk = s.clk ∧ (sample e s).sec = s.sec ∧ (sample e s).cap = s.cap ∧
    (sample e s).kcc = s.kcc ∧ (sample e s).nextRead = s.nextRead ∧ (sample e s).regs = s.regs ∧
    (sample e s).fresh = s.fresh := by
  simp [sample]
@[simp] theorem dezia_frame (tick : Nat) (s : State) :
    (dezia tick s).sys = s.sys ∧ (dezia tick s).clk = s.clk ∧ (dezia tick s).sec = s.sec ∧ (dezia tick s).pwr = s.pwr ∧
    (dezia tick s).host = s.host ∧ (dezia tick s).ring = s.ring ∧ (dezia tick s).wards = s.wards ∧
    (dezia tick s).cap = s.cap ∧ (dezia tick s).cache = s.cache ∧ (dezia tick s).kcc = s.kcc ∧
    (dezia tick s).ledger = s.ledger ∧ (dezia tick s).groups = s.groups ∧ (dezia tick s).cells = s.cells ∧
    (dezia tick s).reads = s.reads ∧ (dezia tick s).recoveries = s.recoveries ∧ (dezia tick s).nextRead = s.nextRead ∧
    (dezia tick s).pin = s.pin ∧ (dezia tick s).regs = s.regs ∧ (dezia tick s).fresh = s.fresh := by
  unfold dezia; (repeat' split) <;> simp [*]
@[simp] theorem officerIdle_frame (s : State) :
    (officerIdle s).sys = s.sys ∧ (officerIdle s).clk = s.clk ∧ (officerIdle s).pwr = s.pwr ∧
    (officerIdle s).cap = s.cap ∧ (officerIdle s).cache = s.cache ∧ (officerIdle s).kcc = s.kcc ∧
    (officerIdle s).ledger = s.ledger ∧ (officerIdle s).groups = s.groups ∧ (officerIdle s).cells = s.cells ∧
    (officerIdle s).reads = s.reads ∧ (officerIdle s).recoveries = s.recoveries ∧ (officerIdle s).nextRead = s.nextRead ∧
    (officerIdle s).regs = s.regs ∧ (officerIdle s).fresh = s.fresh := by
  simp [officerIdle]
@[simp] theorem lockoutEnd_frame (s : State) :
    (lockoutEnd s).sys = s.sys ∧ (lockoutEnd s).clk = s.clk ∧ (lockoutEnd s).pwr = s.pwr ∧ (lockoutEnd s).host = s.host ∧
    (lockoutEnd s).ring = s.ring ∧ (lockoutEnd s).wards = s.wards ∧ (lockoutEnd s).cap = s.cap ∧
    (lockoutEnd s).cache = s.cache ∧ (lockoutEnd s).kcc = s.kcc ∧ (lockoutEnd s).ledger = s.ledger ∧
    (lockoutEnd s).groups = s.groups ∧ (lockoutEnd s).cells = s.cells ∧ (lockoutEnd s).reads = s.reads ∧
    (lockoutEnd s).recoveries = s.recoveries ∧ (lockoutEnd s).nextRead = s.nextRead ∧ (lockoutEnd s).obs = s.obs ∧
    (lockoutEnd s).pin = s.pin ∧ (lockoutEnd s).regs = s.regs ∧ (lockoutEnd s).fresh = s.fresh := by
  simp [lockoutEnd]
@[simp] theorem officerLockout_frame (s : State) :
    (officerLockout s).sys = s.sys ∧ (officerLockout s).clk = s.clk ∧ (officerLockout s).pwr = s.pwr ∧
    (officerLockout s).host = s.host ∧ (officerLockout s).ring = s.ring ∧ (officerLockout s).wards = s.wards ∧
    (officerLockout s).cap = s.cap ∧ (officerLockout s).cache = s.cache ∧ (officerLockout s).kcc = s.kcc ∧
    (officerLockout s).ledger = s.ledger ∧ (officerLockout s).groups = s.groups ∧ (officerLockout s).cells = s.cells ∧
    (officerLockout s).reads = s.reads ∧ (officerLockout s).recoveries = s.recoveries ∧
    (officerLockout s).nextRead = s.nextRead ∧ (officerLockout s).regs = s.regs ∧ (officerLockout s).fresh = s.fresh := by
  simp [officerLockout]
@[simp] theorem wardLockout_frame (w : WardId) (s : State) :
    (wardLockout w s).sys = s.sys ∧ (wardLockout w s).clk = s.clk ∧ (wardLockout w s).sec = s.sec ∧
    (wardLockout w s).pwr = s.pwr ∧ (wardLockout w s).host = s.host ∧ (wardLockout w s).ring = s.ring ∧
    (wardLockout w s).cap = s.cap ∧ (wardLockout w s).cache = s.cache ∧ (wardLockout w s).kcc = s.kcc ∧
    (wardLockout w s).ledger = s.ledger ∧ (wardLockout w s).groups = s.groups ∧ (wardLockout w s).cells = s.cells ∧
    (wardLockout w s).reads = s.reads ∧ (wardLockout w s).recoveries = s.recoveries ∧
    (wardLockout w s).nextRead = s.nextRead ∧ (wardLockout w s).regs = s.regs ∧ (wardLockout w s).fresh = s.fresh := by
  simp [wardLockout]
@[simp] theorem malformedRate_frame (w : WardId) (s : State) :
    (malformedRate w s).sys = s.sys ∧ (malformedRate w s).clk = s.clk ∧ (malformedRate w s).sec = s.sec ∧
    (malformedRate w s).pwr = s.pwr ∧ (malformedRate w s).host = s.host ∧ (malformedRate w s).ring = s.ring ∧
    (malformedRate w s).cap = s.cap ∧ (malformedRate w s).cache = s.cache ∧ (malformedRate w s).kcc = s.kcc ∧
    (malformedRate w s).ledger = s.ledger ∧ (malformedRate w s).groups = s.groups ∧ (malformedRate w s).cells = s.cells ∧
    (malformedRate w s).reads = s.reads ∧ (malformedRate w s).recoveries = s.recoveries ∧
    (malformedRate w s).nextRead = s.nextRead ∧ (malformedRate w s).regs = s.regs ∧
    (malformedRate w s).fresh = s.fresh := by
  simp [malformedRate]
@[simp] theorem noiseFail_frame (adaptive : Bool) (s : State) :
    (noiseFail adaptive s).sys = s.sys ∧ (noiseFail adaptive s).clk = s.clk ∧ (noiseFail adaptive s).cap = s.cap ∧
    (noiseFail adaptive s).nextRead = s.nextRead ∧ (noiseFail adaptive s).regs = s.regs ∧
    (noiseFail adaptive s).fresh = s.fresh := by
  simp [noiseFail]
@[simp] theorem idlePark_frame (s : State) (c : CellId) :
    (idlePark s c).sys = s.sys ∧ (idlePark s c).clk = s.clk ∧ (idlePark s c).sec = s.sec ∧ (idlePark s c).pwr = s.pwr ∧
    (idlePark s c).host = s.host ∧ (idlePark s c).ring = s.ring ∧ (idlePark s c).wards = s.wards ∧
    (idlePark s c).cap = s.cap ∧ (idlePark s c).cache = s.cache ∧ (idlePark s c).kcc = s.kcc ∧
    (idlePark s c).ledger = s.ledger ∧ (idlePark s c).groups = s.groups ∧ (idlePark s c).reads = s.reads ∧
    (idlePark s c).recoveries = s.recoveries ∧ (idlePark s c).nextRead = s.nextRead ∧ (idlePark s c).pin = s.pin ∧
    (idlePark s c).regs = s.regs ∧ (idlePark s c).fresh = s.fresh := by
  simp [idlePark]
@[simp] theorem presentAbsent_frame (c : CellId) (s : State) :
    (presentAbsent c s).sys = s.sys ∧ (presentAbsent c s).clk = s.clk ∧ (presentAbsent c s).sec = s.sec ∧
    (presentAbsent c s).pwr = s.pwr ∧ (presentAbsent c s).host = s.host ∧ (presentAbsent c s).ring = s.ring ∧
    (presentAbsent c s).wards = s.wards ∧ (presentAbsent c s).cap = s.cap ∧ (presentAbsent c s).kcc = s.kcc ∧
    (presentAbsent c s).reads = s.reads ∧ (presentAbsent c s).nextRead = s.nextRead ∧ (presentAbsent c s).regs = s.regs ∧
    (presentAbsent c s).fresh = s.fresh := by
  simp [presentAbsent]
@[simp] theorem presentSample_frame (s : State) (c : CellId) :
    (presentSample s c).sys = s.sys ∧ (presentSample s c).clk = s.clk ∧ (presentSample s c).sec = s.sec ∧
    (presentSample s c).pwr = s.pwr ∧ (presentSample s c).host = s.host ∧ (presentSample s c).ring = s.ring ∧
    (presentSample s c).wards = s.wards ∧ (presentSample s c).cap = s.cap ∧ (presentSample s c).kcc = s.kcc ∧
    (presentSample s c).reads = s.reads ∧ (presentSample s c).nextRead = s.nextRead ∧ (presentSample s c).regs = s.regs ∧
    (presentSample s c).fresh = s.fresh := by
  unfold presentSample; (repeat' split) <;> simp [*]
@[simp] theorem ageCache_frame (s : State) :
    (ageCache s).sys = s.sys ∧ (ageCache s).clk = s.clk ∧ (ageCache s).sec = s.sec ∧ (ageCache s).pwr = s.pwr ∧
    (ageCache s).host = s.host ∧ (ageCache s).ring = s.ring ∧ (ageCache s).wards = s.wards ∧ (ageCache s).cap = s.cap ∧
    (ageCache s).kcc = s.kcc ∧ (ageCache s).ledger = s.ledger ∧ (ageCache s).groups = s.groups ∧
    (ageCache s).cells = s.cells ∧ (ageCache s).reads = s.reads ∧ (ageCache s).recoveries = s.recoveries ∧
    (ageCache s).nextRead = s.nextRead ∧ (ageCache s).obs = s.obs ∧ (ageCache s).pin = s.pin ∧
    (ageCache s).regs = s.regs ∧ (ageCache s).fresh = s.fresh := by
  simp [ageCache]
@[simp] theorem destageAged_frame (a : SubAddr) (s : State) :
    (destageAged a s).sys = s.sys ∧ (destageAged a s).clk = s.clk ∧ (destageAged a s).sec = s.sec ∧
    (destageAged a s).pwr = s.pwr ∧ (destageAged a s).host = s.host ∧ (destageAged a s).ring = s.ring ∧
    (destageAged a s).wards = s.wards ∧ (destageAged a s).cap = s.cap ∧ (destageAged a s).kcc = s.kcc ∧
    (destageAged a s).ledger = s.ledger ∧ (destageAged a s).groups = s.groups ∧ (destageAged a s).cells = s.cells ∧
    (destageAged a s).reads = s.reads ∧ (destageAged a s).recoveries = s.recoveries ∧
    (destageAged a s).nextRead = s.nextRead ∧ (destageAged a s).obs = s.obs ∧ (destageAged a s).pin = s.pin ∧
    (destageAged a s).regs = s.regs ∧ (destageAged a s).fresh = s.fresh := by
  unfold destageAged; (repeat' split) <;> simp [*]
@[simp] theorem mediaStall_frame (s : State) :
    (mediaStall s).clk = s.clk ∧ (mediaStall s).sec = s.sec ∧ (mediaStall s).cap = s.cap ∧ (mediaStall s).kcc = s.kcc ∧
    (mediaStall s).nextRead = s.nextRead ∧ (mediaStall s).regs = s.regs ∧ (mediaStall s).fresh = s.fresh := by
  simp [mediaStall]
@[simp] theorem stallTick_frame (s : State) :
    (stallTick s).clk = s.clk ∧ (stallTick s).sec = s.sec ∧ (stallTick s).cap = s.cap ∧ (stallTick s).kcc = s.kcc ∧
    (stallTick s).nextRead = s.nextRead ∧ (stallTick s).regs = s.regs ∧ (stallTick s).fresh = s.fresh := by
  simp [stallTick]
@[simp] theorem closeWindows_frame (s : State) :
    (closeWindows s).sys = s.sys ∧ (closeWindows s).clk = s.clk ∧ (closeWindows s).sec = s.sec ∧
    (closeWindows s).pwr = s.pwr ∧ (closeWindows s).host = s.host ∧ (closeWindows s).ring = s.ring ∧
    (closeWindows s).cap = s.cap ∧ (closeWindows s).kcc = s.kcc ∧ (closeWindows s).ledger = s.ledger ∧
    (closeWindows s).groups = s.groups ∧ (closeWindows s).reads = s.reads ∧ (closeWindows s).recoveries = s.recoveries ∧
    (closeWindows s).nextRead = s.nextRead ∧ (closeWindows s).obs = s.obs ∧ (closeWindows s).pin = s.pin ∧
    (closeWindows s).regs = s.regs ∧ (closeWindows s).fresh = s.fresh := by
  simp [closeWindows]
@[simp] theorem countTick_frame (s : State) :
    (countTick s).sys = s.sys ∧ (countTick s).clk = s.clk ∧ (countTick s).pwr = s.pwr ∧ (countTick s).host = s.host ∧
    (countTick s).cap = s.cap ∧ (countTick s).cache = s.cache ∧ (countTick s).kcc = s.kcc ∧
    (countTick s).ledger = s.ledger ∧ (countTick s).reads = s.reads ∧ (countTick s).recoveries = s.recoveries ∧
    (countTick s).nextRead = s.nextRead ∧ (countTick s).obs = s.obs ∧ (countTick s).pin = s.pin ∧
    (countTick s).regs = s.regs ∧ (countTick s).fresh = s.fresh := by
  simp [countTick]
@[simp] theorem tickLimits_frame (s : State) :
    (tickLimits s).clk = s.clk ∧ (tickLimits s).kcc = s.kcc ∧ (tickLimits s).nextRead = s.nextRead ∧
    (tickLimits s).regs = s.regs ∧ (tickLimits s).fresh = s.fresh := by
  simp [tickLimits]
@[simp] theorem raiseTick_frame (s : State) :
    (raiseTick s).clk = s.clk ∧ (raiseTick s).sec = s.sec ∧ (raiseTick s).pwr = s.pwr ∧ (raiseTick s).host = s.host ∧
    (raiseTick s).ring = s.ring ∧ (raiseTick s).wards = s.wards ∧ (raiseTick s).cap = s.cap ∧
    (raiseTick s).cache = s.cache ∧ (raiseTick s).kcc = s.kcc ∧ (raiseTick s).ledger = s.ledger ∧
    (raiseTick s).groups = s.groups ∧ (raiseTick s).cells = s.cells ∧ (raiseTick s).reads = s.reads ∧
    (raiseTick s).recoveries = s.recoveries ∧ (raiseTick s).nextRead = s.nextRead ∧ (raiseTick s).pin = s.pin ∧
    (raiseTick s).regs = s.regs ∧ (raiseTick s).fresh = s.fresh := by
  simp [raiseTick]
@[simp] theorem boundary_frame (n : Nat) (b : DWord) (e : TickEnv) (s : State) :
    (boundary n b e s).kcc = s.kcc ∧ (boundary n b e s).nextRead = s.nextRead ∧ (boundary n b e s).regs = s.regs ∧
    (boundary n b e s).fresh = s.fresh := by
  simp [boundary]
@[simp] theorem hingePause_frame (s : State) (p : Nat × Fin 6) :
    (hingePause s p).sys = s.sys ∧ (hingePause s p).sec = s.sec ∧ (hingePause s p).pwr = s.pwr ∧
    (hingePause s p).host = s.host ∧ (hingePause s p).ring = s.ring ∧ (hingePause s p).wards = s.wards ∧
    (hingePause s p).cap = s.cap ∧ (hingePause s p).cache = s.cache ∧ (hingePause s p).kcc = s.kcc ∧
    (hingePause s p).ledger = s.ledger ∧ (hingePause s p).groups = s.groups ∧ (hingePause s p).cells = s.cells ∧
    (hingePause s p).reads = s.reads ∧ (hingePause s p).recoveries = s.recoveries ∧
    (hingePause s p).nextRead = s.nextRead ∧ (hingePause s p).regs = s.regs ∧ (hingePause s p).fresh = s.fresh := by
  simp [hingePause]
@[simp] theorem reachTick_frame (e : TickEnv) (s : State) :
    (reachTick e s).sys = s.sys ∧ (reachTick e s).sec = s.sec ∧ (reachTick e s).pwr = s.pwr ∧
    (reachTick e s).host = s.host ∧ (reachTick e s).ring = s.ring ∧ (reachTick e s).wards = s.wards ∧
    (reachTick e s).cap = s.cap ∧ (reachTick e s).cache = s.cache ∧ (reachTick e s).kcc = s.kcc ∧
    (reachTick e s).groups = s.groups ∧ (reachTick e s).reads = s.reads ∧ (reachTick e s).recoveries = s.recoveries ∧
    (reachTick e s).nextRead = s.nextRead ∧ (reachTick e s).regs = s.regs ∧ (reachTick e s).fresh = s.fresh := by
  simp [reachTick]
@[simp] theorem takeTick_frame (e : TickEnv) (s : State) :
    (takeTick e s).kcc = s.kcc ∧ (takeTick e s).nextRead = s.nextRead ∧ (takeTick e s).regs = s.regs ∧
    (takeTick e s).fresh = s.fresh := by
  unfold takeTick; (repeat' split) <;> simp [*]
@[simp] theorem tick_frame (e : TickEnv) (s : State) :
    (tick e s).kcc = s.kcc ∧ (tick e s).nextRead = s.nextRead ∧ (tick e s).regs = s.regs ∧
    (tick e s).fresh = s.fresh := by
  simp [tick]
@[simp] theorem cutSmb_frame (s : State) :
    (cutSmb s).sys = s.sys ∧ (cutSmb s).clk = s.clk ∧ (cutSmb s).sec = s.sec ∧ (cutSmb s).pwr = s.pwr ∧
    (cutSmb s).ring = s.ring ∧ (cutSmb s).wards = s.wards ∧ (cutSmb s).cap = s.cap ∧ (cutSmb s).cache = s.cache ∧
    (cutSmb s).kcc = s.kcc ∧ (cutSmb s).ledger = s.ledger ∧ (cutSmb s).groups = s.groups ∧ (cutSmb s).cells = s.cells ∧
    (cutSmb s).reads = s.reads ∧ (cutSmb s).recoveries = s.recoveries ∧ (cutSmb s).nextRead = s.nextRead ∧
    (cutSmb s).regs = s.regs ∧ (cutSmb s).fresh = s.fresh := by
  simp [cutSmb]
@[simp] theorem loseFunction_frame (n : Nat) (s : State) :
    (loseFunction n s).sys = s.sys ∧ (loseFunction n s).sec = s.sec ∧ (loseFunction n s).pwr = s.pwr ∧
    (loseFunction n s).ring = s.ring ∧ (loseFunction n s).wards = s.wards ∧ (loseFunction n s).cap = s.cap ∧
    (loseFunction n s).cache = s.cache ∧ (loseFunction n s).kcc = s.kcc ∧ (loseFunction n s).ledger = s.ledger ∧
    (loseFunction n s).groups = s.groups ∧ (loseFunction n s).reads = s.reads ∧
    (loseFunction n s).recoveries = s.recoveries ∧ (loseFunction n s).nextRead = s.nextRead ∧
    (loseFunction n s).regs = s.regs ∧ (loseFunction n s).fresh = s.fresh := by
  simp [loseFunction]
@[simp] theorem switchPin_frame (n : Nat) (v : Word) (s : State) :
    (switchPin n v s).sys = s.sys ∧ (switchPin n v s).sec = s.sec ∧ (switchPin n v s).pwr = s.pwr ∧
    (switchPin n v s).ring = s.ring ∧ (switchPin n v s).wards = s.wards ∧ (switchPin n v s).cap = s.cap ∧
    (switchPin n v s).cache = s.cache ∧ (switchPin n v s).kcc = s.kcc ∧ (switchPin n v s).ledger = s.ledger ∧
    (switchPin n v s).groups = s.groups ∧ (switchPin n v s).reads = s.reads ∧
    (switchPin n v s).recoveries = s.recoveries ∧ (switchPin n v s).nextRead = s.nextRead ∧
    (switchPin n v s).regs = s.regs ∧ (switchPin n v s).fresh = s.fresh := by
  simp [switchPin]
@[simp] theorem judgePin_frame (n : Nat) (v : Word) (s : State) :
    (judgePin n v s).sec = s.sec ∧ (judgePin n v s).pwr = s.pwr ∧ (judgePin n v s).ring = s.ring ∧
    (judgePin n v s).wards = s.wards ∧ (judgePin n v s).cap = s.cap ∧ (judgePin n v s).cache = s.cache ∧
    (judgePin n v s).kcc = s.kcc ∧ (judgePin n v s).ledger = s.ledger ∧ (judgePin n v s).groups = s.groups ∧
    (judgePin n v s).reads = s.reads ∧ (judgePin n v s).recoveries = s.recoveries ∧
    (judgePin n v s).nextRead = s.nextRead ∧ (judgePin n v s).regs = s.regs ∧ (judgePin n v s).fresh = s.fresh := by
  simp [judgePin]
@[simp] theorem upCfgWrite_frame (n : Nat) (v : Word) (s : State) :
    (upCfgWrite n v s).sec = s.sec ∧ (upCfgWrite n v s).pwr = s.pwr ∧ (upCfgWrite n v s).ring = s.ring ∧
    (upCfgWrite n v s).wards = s.wards ∧ (upCfgWrite n v s).cap = s.cap ∧ (upCfgWrite n v s).cache = s.cache ∧
    (upCfgWrite n v s).kcc = s.kcc ∧ (upCfgWrite n v s).ledger = s.ledger ∧ (upCfgWrite n v s).groups = s.groups ∧
    (upCfgWrite n v s).reads = s.reads ∧ (upCfgWrite n v s).recoveries = s.recoveries ∧
    (upCfgWrite n v s).nextRead = s.nextRead ∧ (upCfgWrite n v s).regs = s.regs ∧ (upCfgWrite n v s).fresh = s.fresh := by
  unfold upCfgWrite; (repeat' split) <;> simp [*]
@[simp] theorem setGpio_frame (n : Nat) (level : Bool) (s : State) :
    (setGpio n level s).sys = s.sys ∧ (setGpio n level s).clk = s.clk ∧ (setGpio n level s).sec = s.sec ∧
    (setGpio n level s).pwr = s.pwr ∧ (setGpio n level s).host = s.host ∧ (setGpio n level s).ring = s.ring ∧
    (setGpio n level s).wards = s.wards ∧ (setGpio n level s).cap = s.cap ∧ (setGpio n level s).cache = s.cache ∧
    (setGpio n level s).kcc = s.kcc ∧ (setGpio n level s).ledger = s.ledger ∧ (setGpio n level s).groups = s.groups ∧
    (setGpio n level s).cells = s.cells ∧ (setGpio n level s).reads = s.reads ∧
    (setGpio n level s).recoveries = s.recoveries ∧ (setGpio n level s).nextRead = s.nextRead ∧
    (setGpio n level s).obs = s.obs ∧ (setGpio n level s).regs = s.regs ∧ (setGpio n level s).fresh = s.fresh := by
  simp [setGpio]
@[simp] theorem pinSettle_frame (n : Nat) (s : State) :
    (pinSettle n s).sec = s.sec ∧ (pinSettle n s).pwr = s.pwr ∧ (pinSettle n s).ring = s.ring ∧
    (pinSettle n s).wards = s.wards ∧ (pinSettle n s).cap = s.cap ∧ (pinSettle n s).cache = s.cache ∧
    (pinSettle n s).kcc = s.kcc ∧ (pinSettle n s).ledger = s.ledger ∧ (pinSettle n s).groups = s.groups ∧
    (pinSettle n s).reads = s.reads ∧ (pinSettle n s).recoveries = s.recoveries ∧ (pinSettle n s).nextRead = s.nextRead ∧
    (pinSettle n s).regs = s.regs ∧ (pinSettle n s).fresh = s.fresh := by
  unfold pinSettle; (repeat' split) <;> simp [*]
@[simp] theorem gpioChange_frame (n : Nat) (level : Bool) (s : State) :
    (gpioChange n level s).sys = s.sys ∧ (gpioChange n level s).clk = s.clk ∧ (gpioChange n level s).sec = s.sec ∧
    (gpioChange n level s).pwr = s.pwr ∧ (gpioChange n level s).host = s.host ∧ (gpioChange n level s).ring = s.ring ∧
    (gpioChange n level s).wards = s.wards ∧ (gpioChange n level s).cap = s.cap ∧ (gpioChange n level s).cache = s.cache ∧
    (gpioChange n level s).kcc = s.kcc ∧ (gpioChange n level s).ledger = s.ledger ∧
    (gpioChange n level s).groups = s.groups ∧ (gpioChange n level s).cells = s.cells ∧
    (gpioChange n level s).reads = s.reads ∧ (gpioChange n level s).recoveries = s.recoveries ∧
    (gpioChange n level s).nextRead = s.nextRead ∧ (gpioChange n level s).obs = s.obs ∧
    (gpioChange n level s).regs = s.regs ∧ (gpioChange n level s).fresh = s.fresh := by
  simp [gpioChange]
@[simp] theorem setTap_frame (code : BitVec 4) (s : State) :
    (setTap code s).sys = s.sys ∧ (setTap code s).clk = s.clk ∧ (setTap code s).sec = s.sec ∧
    (setTap code s).pwr = s.pwr ∧ (setTap code s).host = s.host ∧ (setTap code s).ring = s.ring ∧
    (setTap code s).wards = s.wards ∧ (setTap code s).cap = s.cap ∧ (setTap code s).cache = s.cache ∧
    (setTap code s).kcc = s.kcc ∧ (setTap code s).ledger = s.ledger ∧ (setTap code s).groups = s.groups ∧
    (setTap code s).cells = s.cells ∧ (setTap code s).reads = s.reads ∧ (setTap code s).recoveries = s.recoveries ∧
    (setTap code s).nextRead = s.nextRead ∧ (setTap code s).obs = s.obs ∧ (setTap code s).regs = s.regs ∧
    (setTap code s).fresh = s.fresh := by
  simp [setTap]
@[simp] theorem tapRefuse_frame (s : State) :
    (tapRefuse s).sys = s.sys ∧ (tapRefuse s).clk = s.clk ∧ (tapRefuse s).pwr = s.pwr ∧ (tapRefuse s).host = s.host ∧
    (tapRefuse s).ring = s.ring ∧ (tapRefuse s).wards = s.wards ∧ (tapRefuse s).cap = s.cap ∧
    (tapRefuse s).cache = s.cache ∧ (tapRefuse s).kcc = s.kcc ∧ (tapRefuse s).ledger = s.ledger ∧
    (tapRefuse s).groups = s.groups ∧ (tapRefuse s).cells = s.cells ∧ (tapRefuse s).reads = s.reads ∧
    (tapRefuse s).recoveries = s.recoveries ∧ (tapRefuse s).nextRead = s.nextRead ∧ (tapRefuse s).regs = s.regs ∧
    (tapRefuse s).fresh = s.fresh := by
  simp [tapRefuse]
@[simp] theorem smbBegin_frame (s : State) :
    (smbBegin s).sys = s.sys ∧ (smbBegin s).clk = s.clk ∧ (smbBegin s).sec = s.sec ∧ (smbBegin s).pwr = s.pwr ∧
    (smbBegin s).host = s.host ∧ (smbBegin s).ring = s.ring ∧ (smbBegin s).wards = s.wards ∧ (smbBegin s).cap = s.cap ∧
    (smbBegin s).cache = s.cache ∧ (smbBegin s).kcc = s.kcc ∧ (smbBegin s).ledger = s.ledger ∧
    (smbBegin s).groups = s.groups ∧ (smbBegin s).cells = s.cells ∧ (smbBegin s).reads = s.reads ∧
    (smbBegin s).recoveries = s.recoveries ∧ (smbBegin s).nextRead = s.nextRead ∧ (smbBegin s).obs = s.obs ∧
    (smbBegin s).regs = s.regs ∧ (smbBegin s).fresh = s.fresh := by
  simp [smbBegin]
@[simp] theorem smbRead_frame (addr : BitVec 7) (cmd : Byte) (pec : Bool) (s : State) :
    (smbRead addr cmd pec s).sys = s.sys ∧ (smbRead addr cmd pec s).clk = s.clk ∧ (smbRead addr cmd pec s).sec = s.sec ∧
    (smbRead addr cmd pec s).pwr = s.pwr ∧ (smbRead addr cmd pec s).ring = s.ring ∧
    (smbRead addr cmd pec s).wards = s.wards ∧ (smbRead addr cmd pec s).cap = s.cap ∧
    (smbRead addr cmd pec s).cache = s.cache ∧ (smbRead addr cmd pec s).kcc = s.kcc ∧
    (smbRead addr cmd pec s).ledger = s.ledger ∧ (smbRead addr cmd pec s).groups = s.groups ∧
    (smbRead addr cmd pec s).cells = s.cells ∧ (smbRead addr cmd pec s).reads = s.reads ∧
    (smbRead addr cmd pec s).recoveries = s.recoveries ∧ (smbRead addr cmd pec s).nextRead = s.nextRead ∧
    (smbRead addr cmd pec s).obs = s.obs ∧ (smbRead addr cmd pec s).regs = s.regs ∧
    (smbRead addr cmd pec s).fresh = s.fresh := by
  unfold smbRead; (repeat' split) <;> simp [*]
@[simp] theorem uartXoff_frame (s : State) :
    (uartXoff s).sys = s.sys ∧ (uartXoff s).sec = s.sec ∧ (uartXoff s).pwr = s.pwr ∧ (uartXoff s).host = s.host ∧
    (uartXoff s).ring = s.ring ∧ (uartXoff s).wards = s.wards ∧ (uartXoff s).cap = s.cap ∧ (uartXoff s).cache = s.cache ∧
    (uartXoff s).kcc = s.kcc ∧ (uartXoff s).ledger = s.ledger ∧ (uartXoff s).groups = s.groups ∧
    (uartXoff s).cells = s.cells ∧ (uartXoff s).reads = s.reads ∧ (uartXoff s).recoveries = s.recoveries ∧
    (uartXoff s).nextRead = s.nextRead ∧ (uartXoff s).regs = s.regs ∧ (uartXoff s).fresh = s.fresh := by
  simp [uartXoff]
@[simp] theorem eachVector_sys (f : Nat → State → State) (l : List Nat) (s : State) (hp : ∀ (x0 : Nat) (s : State), (f x0
    s).sys = s.sys) :
    (eachVector f l s).sys = s.sys := by
  unfold eachVector; (repeat' split) <;> first | rfl | exact hp .. | simp [*]
@[simp] theorem eachVector_clk (f : Nat → State → State) (l : List Nat) (s : State) (hp : ∀ (x0 : Nat) (s : State), (f x0
    s).clk = s.clk) :
    (eachVector f l s).clk = s.clk := by
  unfold eachVector; (repeat' split) <;> first | rfl | exact hp .. | simp [*]
@[simp] theorem eachVector_sec (f : Nat → State → State) (l : List Nat) (s : State) (hp : ∀ (x0 : Nat) (s : State), (f x0
    s).sec = s.sec) :
    (eachVector f l s).sec = s.sec := by
  unfold eachVector; (repeat' split) <;> first | rfl | exact hp .. | simp [*]
@[simp] theorem eachVector_pwr (f : Nat → State → State) (l : List Nat) (s : State) (hp : ∀ (x0 : Nat) (s : State), (f x0
    s).pwr = s.pwr) :
    (eachVector f l s).pwr = s.pwr := by
  unfold eachVector; (repeat' split) <;> first | rfl | exact hp .. | simp [*]
@[simp] theorem eachVector_host (f : Nat → State → State) (l : List Nat) (s : State) (hp : ∀ (x0 : Nat) (s : State), (f x0
    s).host = s.host) :
    (eachVector f l s).host = s.host := by
  unfold eachVector; (repeat' split) <;> first | rfl | exact hp .. | simp [*]
@[simp] theorem eachVector_ring (f : Nat → State → State) (l : List Nat) (s : State) (hp : ∀ (x0 : Nat) (s : State), (f x0
    s).ring = s.ring) :
    (eachVector f l s).ring = s.ring := by
  unfold eachVector; (repeat' split) <;> first | rfl | exact hp .. | simp [*]
@[simp] theorem eachVector_wards (f : Nat → State → State) (l : List Nat) (s : State) (hp : ∀ (x0 : Nat) (s : State), (f
    x0 s).wards = s.wards) :
    (eachVector f l s).wards = s.wards := by
  unfold eachVector; (repeat' split) <;> first | rfl | exact hp .. | simp [*]
@[simp] theorem eachVector_cap (f : Nat → State → State) (l : List Nat) (s : State) (hp : ∀ (x0 : Nat) (s : State), (f x0
    s).cap = s.cap) :
    (eachVector f l s).cap = s.cap := by
  unfold eachVector; (repeat' split) <;> first | rfl | exact hp .. | simp [*]
@[simp] theorem eachVector_cache (f : Nat → State → State) (l : List Nat) (s : State) (hp : ∀ (x0 : Nat) (s : State), (f
    x0 s).cache = s.cache) :
    (eachVector f l s).cache = s.cache := by
  unfold eachVector; (repeat' split) <;> first | rfl | exact hp .. | simp [*]
@[simp] theorem eachVector_kcc (f : Nat → State → State) (l : List Nat) (s : State) (hp : ∀ (x0 : Nat) (s : State), (f x0
    s).kcc = s.kcc) :
    (eachVector f l s).kcc = s.kcc := by
  unfold eachVector; (repeat' split) <;> first | rfl | exact hp .. | simp [*]
@[simp] theorem eachVector_ledger (f : Nat → State → State) (l : List Nat) (s : State) (hp : ∀ (x0 : Nat) (s : State), (f
    x0 s).ledger = s.ledger) :
    (eachVector f l s).ledger = s.ledger := by
  unfold eachVector; (repeat' split) <;> first | rfl | exact hp .. | simp [*]
@[simp] theorem eachVector_groups (f : Nat → State → State) (l : List Nat) (s : State) (hp : ∀ (x0 : Nat) (s : State), (f
    x0 s).groups = s.groups) :
    (eachVector f l s).groups = s.groups := by
  unfold eachVector; (repeat' split) <;> first | rfl | exact hp .. | simp [*]
@[simp] theorem eachVector_cells (f : Nat → State → State) (l : List Nat) (s : State) (hp : ∀ (x0 : Nat) (s : State), (f
    x0 s).cells = s.cells) :
    (eachVector f l s).cells = s.cells := by
  unfold eachVector; (repeat' split) <;> first | rfl | exact hp .. | simp [*]
@[simp] theorem eachVector_reads (f : Nat → State → State) (l : List Nat) (s : State) (hp : ∀ (x0 : Nat) (s : State), (f
    x0 s).reads = s.reads) :
    (eachVector f l s).reads = s.reads := by
  unfold eachVector; (repeat' split) <;> first | rfl | exact hp .. | simp [*]
@[simp] theorem eachVector_recoveries (f : Nat → State → State) (l : List Nat) (s : State) (hp : ∀ (x0 : Nat) (s : State),
    (f x0 s).recoveries = s.recoveries) :
    (eachVector f l s).recoveries = s.recoveries := by
  unfold eachVector; (repeat' split) <;> first | rfl | exact hp .. | simp [*]
@[simp] theorem eachVector_nextRead (f : Nat → State → State) (l : List Nat) (s : State) (hp : ∀ (x0 : Nat) (s : State),
    (f x0 s).nextRead = s.nextRead) :
    (eachVector f l s).nextRead = s.nextRead := by
  unfold eachVector; (repeat' split) <;> first | rfl | exact hp .. | simp [*]
@[simp] theorem eachVector_obs (f : Nat → State → State) (l : List Nat) (s : State) (hp : ∀ (x0 : Nat) (s : State), (f x0
    s).obs = s.obs) :
    (eachVector f l s).obs = s.obs := by
  unfold eachVector; (repeat' split) <;> first | rfl | exact hp .. | simp [*]
@[simp] theorem eachVector_pin (f : Nat → State → State) (l : List Nat) (s : State) (hp : ∀ (x0 : Nat) (s : State), (f x0
    s).pin = s.pin) :
    (eachVector f l s).pin = s.pin := by
  unfold eachVector; (repeat' split) <;> first | rfl | exact hp .. | simp [*]
@[simp] theorem eachVector_regs (f : Nat → State → State) (l : List Nat) (s : State) (hp : ∀ (x0 : Nat) (s : State), (f x0
    s).regs = s.regs) :
    (eachVector f l s).regs = s.regs := by
  unfold eachVector; (repeat' split) <;> first | rfl | exact hp .. | simp [*]
@[simp] theorem releaseHeld_frame (s : State) :
    (releaseHeld s).sys = s.sys ∧ (releaseHeld s).clk = s.clk ∧ (releaseHeld s).sec = s.sec ∧
    (releaseHeld s).pwr = s.pwr ∧ (releaseHeld s).ring = s.ring ∧ (releaseHeld s).wards = s.wards ∧
    (releaseHeld s).cap = s.cap ∧ (releaseHeld s).cache = s.cache ∧ (releaseHeld s).kcc = s.kcc ∧
    (releaseHeld s).ledger = s.ledger ∧ (releaseHeld s).groups = s.groups ∧ (releaseHeld s).cells = s.cells ∧
    (releaseHeld s).reads = s.reads ∧ (releaseHeld s).recoveries = s.recoveries ∧ (releaseHeld s).nextRead = s.nextRead ∧
    (releaseHeld s).obs = s.obs ∧ (releaseHeld s).pin = s.pin ∧ (releaseHeld s).regs = s.regs := by
  simp [releaseHeld]
@[simp] theorem flrBegin_frame (s : State) :
    (flrBegin s).sys = s.sys ∧ (flrBegin s).clk = s.clk ∧ (flrBegin s).pwr = s.pwr ∧ (flrBegin s).cap = s.cap ∧
    (flrBegin s).cache = s.cache ∧ (flrBegin s).groups = s.groups ∧ (flrBegin s).cells = s.cells ∧
    (flrBegin s).reads = s.reads ∧ (flrBegin s).recoveries = s.recoveries ∧ (flrBegin s).nextRead = s.nextRead ∧
    (flrBegin s).fresh = s.fresh := by
  simp [flrBegin]
@[simp] theorem flrEnd_frame (s : State) :
    (flrEnd s).sys = s.sys ∧ (flrEnd s).clk = s.clk ∧ (flrEnd s).sec = s.sec ∧ (flrEnd s).pwr = s.pwr ∧
    (flrEnd s).ring = s.ring ∧ (flrEnd s).wards = s.wards ∧ (flrEnd s).cap = s.cap ∧ (flrEnd s).cache = s.cache ∧
    (flrEnd s).kcc = s.kcc ∧ (flrEnd s).ledger = s.ledger ∧ (flrEnd s).groups = s.groups ∧ (flrEnd s).cells = s.cells ∧
    (flrEnd s).reads = s.reads ∧ (flrEnd s).recoveries = s.recoveries ∧ (flrEnd s).nextRead = s.nextRead ∧
    (flrEnd s).fresh = s.fresh := by
  simp [flrEnd]
@[simp] theorem d3hotEntry_frame (s : State) :
    (d3hotEntry s).sys = s.sys ∧ (d3hotEntry s).clk = s.clk ∧ (d3hotEntry s).sec = s.sec ∧ (d3hotEntry s).pwr = s.pwr ∧
    (d3hotEntry s).wards = s.wards ∧ (d3hotEntry s).cap = s.cap ∧ (d3hotEntry s).cache = s.cache ∧
    (d3hotEntry s).kcc = s.kcc ∧ (d3hotEntry s).ledger = s.ledger ∧ (d3hotEntry s).groups = s.groups ∧
    (d3hotEntry s).cells = s.cells ∧ (d3hotEntry s).reads = s.reads ∧ (d3hotEntry s).recoveries = s.recoveries ∧
    (d3hotEntry s).nextRead = s.nextRead ∧ (d3hotEntry s).obs = s.obs ∧ (d3hotEntry s).pin = s.pin ∧
    (d3hotEntry s).regs = s.regs ∧ (d3hotEntry s).fresh = s.fresh := by
  simp [d3hotEntry]
@[simp] theorem d0Return_frame (s : State) :
    (d0Return s).sys = s.sys ∧ (d0Return s).clk = s.clk ∧ (d0Return s).sec = s.sec ∧ (d0Return s).pwr = s.pwr ∧
    (d0Return s).ring = s.ring ∧ (d0Return s).wards = s.wards ∧ (d0Return s).cap = s.cap ∧ (d0Return s).cache = s.cache ∧
    (d0Return s).kcc = s.kcc ∧ (d0Return s).ledger = s.ledger ∧ (d0Return s).groups = s.groups ∧
    (d0Return s).cells = s.cells ∧ (d0Return s).reads = s.reads ∧ (d0Return s).recoveries = s.recoveries ∧
    (d0Return s).nextRead = s.nextRead ∧ (d0Return s).obs = s.obs ∧ (d0Return s).pin = s.pin ∧
    (d0Return s).regs = s.regs := by
  simp [d0Return]
@[simp] theorem cfgWrite_sys (f : State → State) (s : State) (hp : ∀ (s : State), (f s).sys = s.sys) :
    (cfgWrite f s).sys = s.sys := by
  unfold cfgWrite; (repeat' split) <;> first | rfl | exact hp .. | simp [*]
@[simp] theorem cfgWrite_clk (f : State → State) (s : State) (hp : ∀ (s : State), (f s).clk = s.clk) :
    (cfgWrite f s).clk = s.clk := by
  unfold cfgWrite; (repeat' split) <;> first | rfl | exact hp .. | simp [*]
@[simp] theorem cfgWrite_sec (f : State → State) (s : State) (hp : ∀ (s : State), (f s).sec = s.sec) :
    (cfgWrite f s).sec = s.sec := by
  unfold cfgWrite; (repeat' split) <;> first | rfl | exact hp .. | simp [*]
@[simp] theorem cfgWrite_pwr (f : State → State) (s : State) (hp : ∀ (s : State), (f s).pwr = s.pwr) :
    (cfgWrite f s).pwr = s.pwr := by
  unfold cfgWrite; (repeat' split) <;> first | rfl | exact hp .. | simp [*]
@[simp] theorem cfgWrite_ring (f : State → State) (s : State) (hp : ∀ (s : State), (f s).ring = s.ring) :
    (cfgWrite f s).ring = s.ring := by
  unfold cfgWrite; (repeat' split) <;> first | rfl | exact hp .. | simp [*]
@[simp] theorem cfgWrite_wards (f : State → State) (s : State) (hp : ∀ (s : State), (f s).wards = s.wards) :
    (cfgWrite f s).wards = s.wards := by
  unfold cfgWrite; (repeat' split) <;> first | rfl | exact hp .. | simp [*]
@[simp] theorem cfgWrite_cap (f : State → State) (s : State) (hp : ∀ (s : State), (f s).cap = s.cap) :
    (cfgWrite f s).cap = s.cap := by
  unfold cfgWrite; (repeat' split) <;> first | rfl | exact hp .. | simp [*]
@[simp] theorem cfgWrite_cache (f : State → State) (s : State) (hp : ∀ (s : State), (f s).cache = s.cache) :
    (cfgWrite f s).cache = s.cache := by
  unfold cfgWrite; (repeat' split) <;> first | rfl | exact hp .. | simp [*]
@[simp] theorem cfgWrite_kcc (f : State → State) (s : State) (hp : ∀ (s : State), (f s).kcc = s.kcc) :
    (cfgWrite f s).kcc = s.kcc := by
  unfold cfgWrite; (repeat' split) <;> first | rfl | exact hp .. | simp [*]
@[simp] theorem cfgWrite_ledger (f : State → State) (s : State) (hp : ∀ (s : State), (f s).ledger = s.ledger) :
    (cfgWrite f s).ledger = s.ledger := by
  unfold cfgWrite; (repeat' split) <;> first | rfl | exact hp .. | simp [*]
@[simp] theorem cfgWrite_groups (f : State → State) (s : State) (hp : ∀ (s : State), (f s).groups = s.groups) :
    (cfgWrite f s).groups = s.groups := by
  unfold cfgWrite; (repeat' split) <;> first | rfl | exact hp .. | simp [*]
@[simp] theorem cfgWrite_cells (f : State → State) (s : State) (hp : ∀ (s : State), (f s).cells = s.cells) :
    (cfgWrite f s).cells = s.cells := by
  unfold cfgWrite; (repeat' split) <;> first | rfl | exact hp .. | simp [*]
@[simp] theorem cfgWrite_reads (f : State → State) (s : State) (hp : ∀ (s : State), (f s).reads = s.reads) :
    (cfgWrite f s).reads = s.reads := by
  unfold cfgWrite; (repeat' split) <;> first | rfl | exact hp .. | simp [*]
@[simp] theorem cfgWrite_recoveries (f : State → State) (s : State) (hp : ∀ (s : State), (f s).recoveries = s.recoveries)
    :
    (cfgWrite f s).recoveries = s.recoveries := by
  unfold cfgWrite; (repeat' split) <;> first | rfl | exact hp .. | simp [*]
@[simp] theorem cfgWrite_nextRead (f : State → State) (s : State) (hp : ∀ (s : State), (f s).nextRead = s.nextRead) :
    (cfgWrite f s).nextRead = s.nextRead := by
  unfold cfgWrite; (repeat' split) <;> first | rfl | exact hp .. | simp [*]
@[simp] theorem cfgWrite_obs (f : State → State) (s : State) (hp : ∀ (s : State), (f s).obs = s.obs) :
    (cfgWrite f s).obs = s.obs := by
  unfold cfgWrite; (repeat' split) <;> first | rfl | exact hp .. | simp [*]
@[simp] theorem cfgWrite_pin (f : State → State) (s : State) (hp : ∀ (s : State), (f s).pin = s.pin) :
    (cfgWrite f s).pin = s.pin := by
  unfold cfgWrite; (repeat' split) <;> first | rfl | exact hp .. | simp [*]
@[simp] theorem cfgWrite_regs (f : State → State) (s : State) (hp : ∀ (s : State), (f s).regs = s.regs) :
    (cfgWrite f s).regs = s.regs := by
  unfold cfgWrite; (repeat' split) <;> first | rfl | exact hp .. | simp [*]
@[simp] theorem cfgWrite_fresh (f : State → State) (s : State) (hp : ∀ (s : State), (f s).fresh = s.fresh) :
    (cfgWrite f s).fresh = s.fresh := by
  unfold cfgWrite; (repeat' split) <;> first | rfl | exact hp .. | simp [*]
@[simp] theorem l1Entry_frame (partner : Bool) (s : State) :
    (l1Entry partner s).sys = s.sys ∧ (l1Entry partner s).sec = s.sec ∧ (l1Entry partner s).pwr = s.pwr ∧
    (l1Entry partner s).ring = s.ring ∧ (l1Entry partner s).wards = s.wards ∧ (l1Entry partner s).cap = s.cap ∧
    (l1Entry partner s).cache = s.cache ∧ (l1Entry partner s).kcc = s.kcc ∧ (l1Entry partner s).ledger = s.ledger ∧
    (l1Entry partner s).groups = s.groups ∧ (l1Entry partner s).cells = s.cells ∧ (l1Entry partner s).reads = s.reads ∧
    (l1Entry partner s).recoveries = s.recoveries ∧ (l1Entry partner s).nextRead = s.nextRead ∧
    (l1Entry partner s).regs = s.regs ∧ (l1Entry partner s).fresh = s.fresh := by
  simp [l1Entry]
@[simp] theorem msixEnable_frame (s : State) :
    (msixEnable s).sys = s.sys ∧ (msixEnable s).clk = s.clk ∧ (msixEnable s).sec = s.sec ∧ (msixEnable s).pwr = s.pwr ∧
    (msixEnable s).ring = s.ring ∧ (msixEnable s).wards = s.wards ∧ (msixEnable s).cap = s.cap ∧
    (msixEnable s).cache = s.cache ∧ (msixEnable s).kcc = s.kcc ∧ (msixEnable s).ledger = s.ledger ∧
    (msixEnable s).groups = s.groups ∧ (msixEnable s).cells = s.cells ∧ (msixEnable s).reads = s.reads ∧
    (msixEnable s).recoveries = s.recoveries ∧ (msixEnable s).nextRead = s.nextRead ∧ (msixEnable s).obs = s.obs ∧
    (msixEnable s).pin = s.pin ∧ (msixEnable s).regs = s.regs := by
  simp [msixEnable]
@[simp] theorem afterUnmask_frame (v : Nat) (s : State) :
    (afterUnmask v s).sys = s.sys ∧ (afterUnmask v s).clk = s.clk ∧ (afterUnmask v s).sec = s.sec ∧
    (afterUnmask v s).pwr = s.pwr ∧ (afterUnmask v s).ring = s.ring ∧ (afterUnmask v s).wards = s.wards ∧
    (afterUnmask v s).cap = s.cap ∧ (afterUnmask v s).cache = s.cache ∧ (afterUnmask v s).kcc = s.kcc ∧
    (afterUnmask v s).ledger = s.ledger ∧ (afterUnmask v s).groups = s.groups ∧ (afterUnmask v s).cells = s.cells ∧
    (afterUnmask v s).reads = s.reads ∧ (afterUnmask v s).recoveries = s.recoveries ∧
    (afterUnmask v s).nextRead = s.nextRead ∧ (afterUnmask v s).obs = s.obs ∧ (afterUnmask v s).pin = s.pin ∧
    (afterUnmask v s).regs = s.regs ∧ (afterUnmask v s).fresh = s.fresh := by
  simp [afterUnmask]
@[simp] theorem funcUnmask_frame (s : State) :
    (funcUnmask s).sys = s.sys ∧ (funcUnmask s).clk = s.clk ∧ (funcUnmask s).sec = s.sec ∧ (funcUnmask s).pwr = s.pwr ∧
    (funcUnmask s).ring = s.ring ∧ (funcUnmask s).wards = s.wards ∧ (funcUnmask s).cap = s.cap ∧
    (funcUnmask s).cache = s.cache ∧ (funcUnmask s).kcc = s.kcc ∧ (funcUnmask s).ledger = s.ledger ∧
    (funcUnmask s).groups = s.groups ∧ (funcUnmask s).cells = s.cells ∧ (funcUnmask s).reads = s.reads ∧
    (funcUnmask s).recoveries = s.recoveries ∧ (funcUnmask s).nextRead = s.nextRead ∧ (funcUnmask s).obs = s.obs ∧
    (funcUnmask s).pin = s.pin ∧ (funcUnmask s).regs = s.regs := by
  simp [funcUnmask]
@[simp] theorem msixUnmask_frame (v : Option (Fin 256)) (s : State) :
    (msixUnmask v s).sys = s.sys ∧ (msixUnmask v s).clk = s.clk ∧ (msixUnmask v s).sec = s.sec ∧
    (msixUnmask v s).pwr = s.pwr ∧ (msixUnmask v s).ring = s.ring ∧ (msixUnmask v s).wards = s.wards ∧
    (msixUnmask v s).cap = s.cap ∧ (msixUnmask v s).cache = s.cache ∧ (msixUnmask v s).kcc = s.kcc ∧
    (msixUnmask v s).ledger = s.ledger ∧ (msixUnmask v s).groups = s.groups ∧ (msixUnmask v s).cells = s.cells ∧
    (msixUnmask v s).reads = s.reads ∧ (msixUnmask v s).recoveries = s.recoveries ∧
    (msixUnmask v s).nextRead = s.nextRead ∧ (msixUnmask v s).obs = s.obs ∧ (msixUnmask v s).pin = s.pin := by
  unfold msixUnmask; (repeat' split) <;> simp [*]
@[simp] theorem tlpDiscard_frame (e : TlpError) (s : State) :
    (tlpDiscard e s).sys = s.sys ∧ (tlpDiscard e s).clk = s.clk ∧ (tlpDiscard e s).sec = s.sec ∧
    (tlpDiscard e s).pwr = s.pwr ∧ (tlpDiscard e s).ring = s.ring ∧ (tlpDiscard e s).wards = s.wards ∧
    (tlpDiscard e s).cap = s.cap ∧ (tlpDiscard e s).cache = s.cache ∧ (tlpDiscard e s).kcc = s.kcc ∧
    (tlpDiscard e s).ledger = s.ledger ∧ (tlpDiscard e s).groups = s.groups ∧ (tlpDiscard e s).cells = s.cells ∧
    (tlpDiscard e s).reads = s.reads ∧ (tlpDiscard e s).recoveries = s.recoveries ∧
    (tlpDiscard e s).nextRead = s.nextRead ∧ (tlpDiscard e s).obs = s.obs ∧ (tlpDiscard e s).pin = s.pin ∧
    (tlpDiscard e s).regs = s.regs ∧ (tlpDiscard e s).fresh = s.fresh := by
  unfold tlpDiscard; (repeat' split) <;> simp [*]
@[simp] theorem msixCtlWrite_frame (v : Word) (s : State) :
    (msixCtlWrite v s).sys = s.sys ∧ (msixCtlWrite v s).clk = s.clk ∧ (msixCtlWrite v s).sec = s.sec ∧
    (msixCtlWrite v s).pwr = s.pwr ∧ (msixCtlWrite v s).ring = s.ring ∧ (msixCtlWrite v s).wards = s.wards ∧
    (msixCtlWrite v s).cap = s.cap ∧ (msixCtlWrite v s).cache = s.cache ∧ (msixCtlWrite v s).kcc = s.kcc ∧
    (msixCtlWrite v s).ledger = s.ledger ∧ (msixCtlWrite v s).groups = s.groups ∧ (msixCtlWrite v s).cells = s.cells ∧
    (msixCtlWrite v s).reads = s.reads ∧ (msixCtlWrite v s).recoveries = s.recoveries ∧
    (msixCtlWrite v s).nextRead = s.nextRead ∧ (msixCtlWrite v s).obs = s.obs ∧ (msixCtlWrite v s).pin = s.pin ∧
    (msixCtlWrite v s).regs = s.regs := by
  simp [msixCtlWrite]
@[simp] theorem cfgSet_frame (r : CfgReg) (v : Word) (s : State) :
    (cfgSet r v s).sys = s.sys ∧ (cfgSet r v s).clk = s.clk ∧ (cfgSet r v s).pwr = s.pwr ∧ (cfgSet r v s).cap = s.cap ∧
    (cfgSet r v s).cache = s.cache ∧ (cfgSet r v s).groups = s.groups ∧ (cfgSet r v s).cells = s.cells ∧
    (cfgSet r v s).reads = s.reads ∧ (cfgSet r v s).recoveries = s.recoveries ∧ (cfgSet r v s).nextRead = s.nextRead := by
  unfold cfgSet; (repeat' split) <;> simp [*]
@[simp] theorem startSeek_frame (c : CellId) (track : Int) (surface : Nat) (s : State) :
    (startSeek c track surface s).sys = s.sys ∧ (startSeek c track surface s).clk = s.clk ∧
    (startSeek c track surface s).sec = s.sec ∧ (startSeek c track surface s).pwr = s.pwr ∧
    (startSeek c track surface s).host = s.host ∧ (startSeek c track surface s).ring = s.ring ∧
    (startSeek c track surface s).wards = s.wards ∧ (startSeek c track surface s).cap = s.cap ∧
    (startSeek c track surface s).cache = s.cache ∧ (startSeek c track surface s).kcc = s.kcc ∧
    (startSeek c track surface s).ledger = s.ledger ∧ (startSeek c track surface s).groups = s.groups ∧
    (startSeek c track surface s).reads = s.reads ∧ (startSeek c track surface s).recoveries = s.recoveries ∧
    (startSeek c track surface s).nextRead = s.nextRead ∧ (startSeek c track surface s).pin = s.pin ∧
    (startSeek c track surface s).regs = s.regs ∧ (startSeek c track surface s).fresh = s.fresh := by
  simp [startSeek]
@[simp] theorem serveNext_frame (c : CellId) (s : State) :
    (serveNext c s).sys = s.sys ∧ (serveNext c s).clk = s.clk ∧ (serveNext c s).sec = s.sec ∧
    (serveNext c s).pwr = s.pwr ∧ (serveNext c s).host = s.host ∧ (serveNext c s).ring = s.ring ∧
    (serveNext c s).wards = s.wards ∧ (serveNext c s).cap = s.cap ∧ (serveNext c s).cache = s.cache ∧
    (serveNext c s).kcc = s.kcc ∧ (serveNext c s).ledger = s.ledger ∧ (serveNext c s).groups = s.groups ∧
    (serveNext c s).reads = s.reads ∧ (serveNext c s).recoveries = s.recoveries ∧ (serveNext c s).nextRead = s.nextRead ∧
    (serveNext c s).pin = s.pin ∧ (serveNext c s).regs = s.regs ∧ (serveNext c s).fresh = s.fresh := by
  unfold serveNext; (repeat' split) <;> simp [*]
@[simp] theorem requestCell_frame (c : CellId) (s : State) :
    (requestCell c s).sys = s.sys ∧ (requestCell c s).clk = s.clk ∧ (requestCell c s).sec = s.sec ∧
    (requestCell c s).pwr = s.pwr ∧ (requestCell c s).host = s.host ∧ (requestCell c s).ring = s.ring ∧
    (requestCell c s).wards = s.wards ∧ (requestCell c s).cap = s.cap ∧ (requestCell c s).cache = s.cache ∧
    (requestCell c s).kcc = s.kcc ∧ (requestCell c s).ledger = s.ledger ∧ (requestCell c s).groups = s.groups ∧
    (requestCell c s).reads = s.reads ∧ (requestCell c s).recoveries = s.recoveries ∧
    (requestCell c s).nextRead = s.nextRead ∧ (requestCell c s).obs = s.obs ∧ (requestCell c s).pin = s.pin ∧
    (requestCell c s).regs = s.regs ∧ (requestCell c s).fresh = s.fresh := by
  simp [requestCell]
@[simp] theorem settleBusy_frame (a : SubAddr) (s : State) :
    (settleBusy a s).sys = s.sys ∧ (settleBusy a s).clk = s.clk ∧ (settleBusy a s).sec = s.sec ∧
    (settleBusy a s).pwr = s.pwr ∧ (settleBusy a s).host = s.host ∧ (settleBusy a s).ring = s.ring ∧
    (settleBusy a s).wards = s.wards ∧ (settleBusy a s).cap = s.cap ∧ (settleBusy a s).kcc = s.kcc ∧
    (settleBusy a s).ledger = s.ledger ∧ (settleBusy a s).groups = s.groups ∧ (settleBusy a s).cells = s.cells ∧
    (settleBusy a s).reads = s.reads ∧ (settleBusy a s).recoveries = s.recoveries ∧
    (settleBusy a s).nextRead = s.nextRead ∧ (settleBusy a s).obs = s.obs ∧ (settleBusy a s).pin = s.pin ∧
    (settleBusy a s).regs = s.regs ∧ (settleBusy a s).fresh = s.fresh := by
  unfold settleBusy; (repeat' split) <;> simp [*]
@[simp] theorem beginSector_frame (c : CellId) (block : Nat) (s : State) :
    (beginSector c block s).sys = s.sys ∧ (beginSector c block s).clk = s.clk ∧ (beginSector c block s).sec = s.sec ∧
    (beginSector c block s).pwr = s.pwr ∧ (beginSector c block s).host = s.host ∧ (beginSector c block s).ring = s.ring ∧
    (beginSector c block s).wards = s.wards ∧ (beginSector c block s).cap = s.cap ∧
    (beginSector c block s).cache = s.cache ∧ (beginSector c block s).kcc = s.kcc ∧
    (beginSector c block s).ledger = s.ledger ∧ (beginSector c block s).groups = s.groups ∧
    (beginSector c block s).reads = s.reads ∧ (beginSector c block s).recoveries = s.recoveries ∧
    (beginSector c block s).nextRead = s.nextRead ∧ (beginSector c block s).obs = s.obs ∧
    (beginSector c block s).pin = s.pin ∧ (beginSector c block s).regs = s.regs ∧
    (beginSector c block s).fresh = s.fresh := by
  simp [beginSector]
@[simp] theorem addRead_frame (a : SubAddr) (why : ReadFor) (cls : Nat) (around : Bool) (path : Option Nat) (s : State) :
    (addRead a why cls around path s).sys = s.sys ∧ (addRead a why cls around path s).clk = s.clk ∧
    (addRead a why cls around path s).sec = s.sec ∧ (addRead a why cls around path s).pwr = s.pwr ∧
    (addRead a why cls around path s).host = s.host ∧ (addRead a why cls around path s).ring = s.ring ∧
    (addRead a why cls around path s).wards = s.wards ∧ (addRead a why cls around path s).cap = s.cap ∧
    (addRead a why cls around path s).cache = s.cache ∧ (addRead a why cls around path s).kcc = s.kcc ∧
    (addRead a why cls around path s).ledger = s.ledger ∧ (addRead a why cls around path s).groups = s.groups ∧
    (addRead a why cls around path s).recoveries = s.recoveries ∧ (addRead a why cls around path s).pin = s.pin ∧
    (addRead a why cls around path s).regs = s.regs ∧ (addRead a why cls around path s).fresh = s.fresh := by
  simp [addRead]
@[simp] theorem allocLine_frame (cls : Nat) (v : Nat) (a : SubAddr) (s : State) :
    (allocLine cls v a s).sys = s.sys ∧ (allocLine cls v a s).clk = s.clk ∧ (allocLine cls v a s).sec = s.sec ∧
    (allocLine cls v a s).pwr = s.pwr ∧ (allocLine cls v a s).host = s.host ∧ (allocLine cls v a s).ring = s.ring ∧
    (allocLine cls v a s).wards = s.wards ∧ (allocLine cls v a s).cap = s.cap ∧ (allocLine cls v a s).kcc = s.kcc ∧
    (allocLine cls v a s).ledger = s.ledger ∧ (allocLine cls v a s).groups = s.groups ∧
    (allocLine cls v a s).cells = s.cells ∧ (allocLine cls v a s).reads = s.reads ∧
    (allocLine cls v a s).recoveries = s.recoveries ∧ (allocLine cls v a s).nextRead = s.nextRead ∧
    (allocLine cls v a s).pin = s.pin ∧ (allocLine cls v a s).regs = s.regs ∧ (allocLine cls v a s).fresh = s.fresh := by
  simp [allocLine]
@[simp] theorem claim_frame (cls : Nat) (a : SubAddr) (s : State) :
    (claim cls a s).2.sys = s.sys ∧ (claim cls a s).2.clk = s.clk ∧ (claim cls a s).2.sec = s.sec ∧
    (claim cls a s).2.pwr = s.pwr ∧ (claim cls a s).2.host = s.host ∧ (claim cls a s).2.ring = s.ring ∧
    (claim cls a s).2.wards = s.wards ∧ (claim cls a s).2.cap = s.cap ∧ (claim cls a s).2.kcc = s.kcc ∧
    (claim cls a s).2.ledger = s.ledger ∧ (claim cls a s).2.groups = s.groups ∧ (claim cls a s).2.cells = s.cells ∧
    (claim cls a s).2.reads = s.reads ∧ (claim cls a s).2.recoveries = s.recoveries ∧
    (claim cls a s).2.nextRead = s.nextRead ∧ (claim cls a s).2.pin = s.pin ∧ (claim cls a s).2.regs = s.regs ∧
    (claim cls a s).2.fresh = s.fresh := by
  unfold claim; (repeat' split) <;> simp [*]
@[simp] theorem fillLine_frame (cls : Nat) (asked : Bool) (a : SubAddr) (x : Sector) (s : State) :
    (fillLine cls asked a x s).sys = s.sys ∧ (fillLine cls asked a x s).clk = s.clk ∧
    (fillLine cls asked a x s).sec = s.sec ∧ (fillLine cls asked a x s).pwr = s.pwr ∧
    (fillLine cls asked a x s).host = s.host ∧ (fillLine cls asked a x s).ring = s.ring ∧
    (fillLine cls asked a x s).wards = s.wards ∧ (fillLine cls asked a x s).cap = s.cap ∧
    (fillLine cls asked a x s).kcc = s.kcc ∧ (fillLine cls asked a x s).ledger = s.ledger ∧
    (fillLine cls asked a x s).groups = s.groups ∧ (fillLine cls asked a x s).cells = s.cells ∧
    (fillLine cls asked a x s).reads = s.reads ∧ (fillLine cls asked a x s).recoveries = s.recoveries ∧
    (fillLine cls asked a x s).nextRead = s.nextRead ∧ (fillLine cls asked a x s).pin = s.pin ∧
    (fillLine cls asked a x s).regs = s.regs ∧ (fillLine cls asked a x s).fresh = s.fresh := by
  simp [fillLine]
@[simp] theorem endRead_frame (j : Job) (s : State) :
    (endRead j s).sys = s.sys ∧ (endRead j s).clk = s.clk ∧ (endRead j s).sec = s.sec ∧ (endRead j s).pwr = s.pwr ∧
    (endRead j s).cap = s.cap ∧ (endRead j s).cache = s.cache ∧ (endRead j s).kcc = s.kcc ∧
    (endRead j s).ledger = s.ledger ∧ (endRead j s).groups = s.groups ∧ (endRead j s).cells = s.cells ∧
    (endRead j s).reads = s.reads ∧ (endRead j s).recoveries = s.recoveries ∧ (endRead j s).nextRead = s.nextRead ∧
    (endRead j s).regs = s.regs ∧ (endRead j s).fresh = s.fresh := by
  unfold endRead; (repeat' split) <;> simp [*]
@[simp] theorem settleRead_frame (j : Job) (s : State) :
    (settleRead j s).sys = s.sys ∧ (settleRead j s).clk = s.clk ∧ (settleRead j s).sec = s.sec ∧
    (settleRead j s).pwr = s.pwr ∧ (settleRead j s).cap = s.cap ∧ (settleRead j s).cache = s.cache ∧
    (settleRead j s).kcc = s.kcc ∧ (settleRead j s).ledger = s.ledger ∧ (settleRead j s).groups = s.groups ∧
    (settleRead j s).cells = s.cells ∧ (settleRead j s).reads = s.reads ∧ (settleRead j s).recoveries = s.recoveries ∧
    (settleRead j s).nextRead = s.nextRead ∧ (settleRead j s).regs = s.regs ∧ (settleRead j s).fresh = s.fresh := by
  simp [settleRead]
@[simp] theorem setBlk_frame (id : Nat) (i : Nat) (b : BlkRes) (s : State) :
    (setBlk id i b s).sys = s.sys ∧ (setBlk id i b s).clk = s.clk ∧ (setBlk id i b s).sec = s.sec ∧
    (setBlk id i b s).pwr = s.pwr ∧ (setBlk id i b s).host = s.host ∧ (setBlk id i b s).wards = s.wards ∧
    (setBlk id i b s).cap = s.cap ∧ (setBlk id i b s).cache = s.cache ∧ (setBlk id i b s).kcc = s.kcc ∧
    (setBlk id i b s).ledger = s.ledger ∧ (setBlk id i b s).groups = s.groups ∧ (setBlk id i b s).cells = s.cells ∧
    (setBlk id i b s).reads = s.reads ∧ (setBlk id i b s).recoveries = s.recoveries ∧
    (setBlk id i b s).nextRead = s.nextRead ∧ (setBlk id i b s).obs = s.obs ∧ (setBlk id i b s).pin = s.pin ∧
    (setBlk id i b s).regs = s.regs ∧ (setBlk id i b s).fresh = s.fresh := by
  unfold setBlk; (repeat' split) <;> simp [*]
@[simp] theorem answerReads_frame (a : SubAddr) (f : WardId → Nat → Nat → BitVec 512 → BlkRes) (s : State) :
    (answerReads a f s).sys = s.sys ∧ (answerReads a f s).clk = s.clk ∧ (answerReads a f s).sec = s.sec ∧
    (answerReads a f s).pwr = s.pwr ∧ (answerReads a f s).cap = s.cap ∧ (answerReads a f s).cache = s.cache ∧
    (answerReads a f s).kcc = s.kcc ∧ (answerReads a f s).ledger = s.ledger ∧ (answerReads a f s).groups = s.groups ∧
    (answerReads a f s).cells = s.cells ∧ (answerReads a f s).reads = s.reads ∧
    (answerReads a f s).recoveries = s.recoveries ∧ (answerReads a f s).nextRead = s.nextRead ∧
    (answerReads a f s).regs = s.regs ∧ (answerReads a f s).fresh = s.fresh := by
  simp (disch := (intros; (repeat' split) <;> simp [*])) [answerReads]
@[simp] theorem serveReads_frame (a : SubAddr) (x : Sector) (how : Nat) (s : State) :
    (serveReads a x how s).sys = s.sys ∧ (serveReads a x how s).clk = s.clk ∧ (serveReads a x how s).sec = s.sec ∧
    (serveReads a x how s).pwr = s.pwr ∧ (serveReads a x how s).cap = s.cap ∧ (serveReads a x how s).cache = s.cache ∧
    (serveReads a x how s).kcc = s.kcc ∧ (serveReads a x how s).ledger = s.ledger ∧
    (serveReads a x how s).groups = s.groups ∧ (serveReads a x how s).cells = s.cells ∧
    (serveReads a x how s).reads = s.reads ∧ (serveReads a x how s).recoveries = s.recoveries ∧
    (serveReads a x how s).nextRead = s.nextRead ∧ (serveReads a x how s).regs = s.regs ∧
    (serveReads a x how s).fresh = s.fresh := by
  simp [serveReads]
@[simp] theorem State.setRecovery_frame (s : State) (r : Recovery) :
    (State.setRecovery s r).sys = s.sys ∧ (State.setRecovery s r).clk = s.clk ∧ (State.setRecovery s r).sec = s.sec ∧
    (State.setRecovery s r).pwr = s.pwr ∧ (State.setRecovery s r).host = s.host ∧ (State.setRecovery s r).ring = s.ring ∧
    (State.setRecovery s r).wards = s.wards ∧ (State.setRecovery s r).cap = s.cap ∧
    (State.setRecovery s r).cache = s.cache ∧ (State.setRecovery s r).kcc = s.kcc ∧
    (State.setRecovery s r).ledger = s.ledger ∧ (State.setRecovery s r).groups = s.groups ∧
    (State.setRecovery s r).cells = s.cells ∧ (State.setRecovery s r).reads = s.reads ∧
    (State.setRecovery s r).nextRead = s.nextRead ∧ (State.setRecovery s r).obs = s.obs ∧
    (State.setRecovery s r).pin = s.pin ∧ (State.setRecovery s r).regs = s.regs ∧
    (State.setRecovery s r).fresh = s.fresh := by
  simp [State.setRecovery]
@[simp] theorem nextRetry_frame (c : CellId) (s : State) :
    (nextRetry c s).sys = s.sys ∧ (nextRetry c s).clk = s.clk ∧ (nextRetry c s).sec = s.sec ∧
    (nextRetry c s).pwr = s.pwr ∧ (nextRetry c s).host = s.host ∧ (nextRetry c s).ring = s.ring ∧
    (nextRetry c s).wards = s.wards ∧ (nextRetry c s).cap = s.cap ∧ (nextRetry c s).cache = s.cache ∧
    (nextRetry c s).kcc = s.kcc ∧ (nextRetry c s).ledger = s.ledger ∧ (nextRetry c s).groups = s.groups ∧
    (nextRetry c s).reads = s.reads ∧ (nextRetry c s).recoveries = s.recoveries ∧ (nextRetry c s).nextRead = s.nextRead ∧
    (nextRetry c s).obs = s.obs ∧ (nextRetry c s).pin = s.pin ∧ (nextRetry c s).regs = s.regs ∧
    (nextRetry c s).fresh = s.fresh := by
  unfold nextRetry; dsimp only; (repeat' split) <;> simp [*]
@[simp] theorem dropRetry_frame (k : Nat) (c : CellId) (s : State) :
    (dropRetry k c s).sys = s.sys ∧ (dropRetry k c s).clk = s.clk ∧ (dropRetry k c s).sec = s.sec ∧
    (dropRetry k c s).pwr = s.pwr ∧ (dropRetry k c s).host = s.host ∧ (dropRetry k c s).ring = s.ring ∧
    (dropRetry k c s).wards = s.wards ∧ (dropRetry k c s).cap = s.cap ∧ (dropRetry k c s).cache = s.cache ∧
    (dropRetry k c s).kcc = s.kcc ∧ (dropRetry k c s).ledger = s.ledger ∧ (dropRetry k c s).groups = s.groups ∧
    (dropRetry k c s).reads = s.reads ∧ (dropRetry k c s).recoveries = s.recoveries ∧
    (dropRetry k c s).nextRead = s.nextRead ∧ (dropRetry k c s).obs = s.obs ∧ (dropRetry k c s).pin = s.pin ∧
    (dropRetry k c s).regs = s.regs ∧ (dropRetry k c s).fresh = s.fresh := by
  simp [dropRetry]
@[simp] theorem queueRepair_frame (c : CellId) (a : SubAddr) (x : Sector) (s : State) :
    (queueRepair c a x s).sys = s.sys ∧ (queueRepair c a x s).clk = s.clk ∧ (queueRepair c a x s).sec = s.sec ∧
    (queueRepair c a x s).pwr = s.pwr ∧ (queueRepair c a x s).host = s.host ∧ (queueRepair c a x s).ring = s.ring ∧
    (queueRepair c a x s).wards = s.wards ∧ (queueRepair c a x s).cap = s.cap ∧ (queueRepair c a x s).cache = s.cache ∧
    (queueRepair c a x s).kcc = s.kcc ∧ (queueRepair c a x s).ledger = s.ledger ∧
    (queueRepair c a x s).groups = s.groups ∧ (queueRepair c a x s).reads = s.reads ∧
    (queueRepair c a x s).recoveries = s.recoveries ∧ (queueRepair c a x s).obs = s.obs ∧
    (queueRepair c a x s).pin = s.pin ∧ (queueRepair c a x s).regs = s.regs ∧ (queueRepair c a x s).fresh = s.fresh := by
  simp [queueRepair]
@[simp] theorem enqueueWrite_frame (c : CellId) (a : SubAddr) (x : Sector) (s : State) :
    (enqueueWrite c a x s).sys = s.sys ∧ (enqueueWrite c a x s).clk = s.clk ∧ (enqueueWrite c a x s).sec = s.sec ∧
    (enqueueWrite c a x s).pwr = s.pwr ∧ (enqueueWrite c a x s).host = s.host ∧ (enqueueWrite c a x s).ring = s.ring ∧
    (enqueueWrite c a x s).wards = s.wards ∧ (enqueueWrite c a x s).cap = s.cap ∧ (enqueueWrite c a x s).cache = s.cache ∧
    (enqueueWrite c a x s).kcc = s.kcc ∧ (enqueueWrite c a x s).ledger = s.ledger ∧
    (enqueueWrite c a x s).groups = s.groups ∧ (enqueueWrite c a x s).reads = s.reads ∧
    (enqueueWrite c a x s).recoveries = s.recoveries ∧ (enqueueWrite c a x s).obs = s.obs ∧
    (enqueueWrite c a x s).pin = s.pin ∧ (enqueueWrite c a x s).regs = s.regs ∧
    (enqueueWrite c a x s).fresh = s.fresh := by
  simp [enqueueWrite]
@[simp] theorem supply_frame (a : SubAddr) (x : Sector) (how : Nat) (s : State) :
    (supply a x how s).sys = s.sys ∧ (supply a x how s).clk = s.clk ∧ (supply a x how s).sec = s.sec ∧
    (supply a x how s).pwr = s.pwr ∧ (supply a x how s).cap = s.cap ∧ (supply a x how s).cache = s.cache ∧
    (supply a x how s).kcc = s.kcc ∧ (supply a x how s).ledger = s.ledger ∧ (supply a x how s).groups = s.groups ∧
    (supply a x how s).cells = s.cells ∧ (supply a x how s).reads = s.reads ∧
    (supply a x how s).recoveries = s.recoveries ∧ (supply a x how s).nextRead = s.nextRead ∧
    (supply a x how s).regs = s.regs ∧ (supply a x how s).fresh = s.fresh := by
  unfold supply; (repeat' split) <;> simp [*]
@[simp] theorem deliver_frame (why : ReadFor) (cls : Nat) (around : Bool) (a : SubAddr) (x : Sector) (how : Nat) (s :
    State) :
    (deliver why cls around a x how s).sys = s.sys ∧ (deliver why cls around a x how s).clk = s.clk ∧
    (deliver why cls around a x how s).sec = s.sec ∧ (deliver why cls around a x how s).pwr = s.pwr ∧
    (deliver why cls around a x how s).cap = s.cap ∧ (deliver why cls around a x how s).kcc = s.kcc ∧
    (deliver why cls around a x how s).ledger = s.ledger ∧ (deliver why cls around a x how s).groups = s.groups ∧
    (deliver why cls around a x how s).reads = s.reads ∧ (deliver why cls around a x how s).recoveries = s.recoveries ∧
    (deliver why cls around a x how s).regs = s.regs ∧ (deliver why cls around a x how s).fresh = s.fresh := by
  unfold deliver; (repeat' split) <;> simp [*]
@[simp] theorem recovered_frame (r : Recovery) (x : Sector) (how : Nat) (s : State) :
    (recovered r x how s).sys = s.sys ∧ (recovered r x how s).clk = s.clk ∧ (recovered r x how s).sec = s.sec ∧
    (recovered r x how s).pwr = s.pwr ∧ (recovered r x how s).cap = s.cap ∧ (recovered r x how s).kcc = s.kcc ∧
    (recovered r x how s).ledger = s.ledger ∧ (recovered r x how s).groups = s.groups ∧
    (recovered r x how s).reads = s.reads ∧ (recovered r x how s).regs = s.regs ∧
    (recovered r x how s).fresh = s.fresh := by
  simp [recovered]
@[simp] theorem pathWon_frame (r : Recovery) (x : Sector) (s : State) :
    (pathWon r x s).sys = s.sys ∧ (pathWon r x s).clk = s.clk ∧ (pathWon r x s).sec = s.sec ∧
    (pathWon r x s).pwr = s.pwr ∧ (pathWon r x s).host = s.host ∧ (pathWon r x s).ring = s.ring ∧
    (pathWon r x s).wards = s.wards ∧ (pathWon r x s).cap = s.cap ∧ (pathWon r x s).cache = s.cache ∧
    (pathWon r x s).kcc = s.kcc ∧ (pathWon r x s).ledger = s.ledger ∧ (pathWon r x s).groups = s.groups ∧
    (pathWon r x s).reads = s.reads ∧ (pathWon r x s).nextRead = s.nextRead ∧ (pathWon r x s).obs = s.obs ∧
    (pathWon r x s).pin = s.pin ∧ (pathWon r x s).regs = s.regs ∧ (pathWon r x s).fresh = s.fresh := by
  simp [pathWon]
@[simp] theorem recoveryFailed_frame (r : Recovery) (s : State) :
    (recoveryFailed r s).sys = s.sys ∧ (recoveryFailed r s).clk = s.clk ∧ (recoveryFailed r s).sec = s.sec ∧
    (recoveryFailed r s).pwr = s.pwr ∧ (recoveryFailed r s).cap = s.cap ∧ (recoveryFailed r s).kcc = s.kcc ∧
    (recoveryFailed r s).ledger = s.ledger ∧ (recoveryFailed r s).groups = s.groups ∧
    (recoveryFailed r s).reads = s.reads ∧ (recoveryFailed r s).nextRead = s.nextRead ∧
    (recoveryFailed r s).regs = s.regs ∧ (recoveryFailed r s).fresh = s.fresh := by
  simp [recoveryFailed]
@[simp] theorem askColumn_frame (k : Nat) (s : State) (c : Nat) :
    (askColumn k s c).sys = s.sys ∧ (askColumn k s c).clk = s.clk ∧ (askColumn k s c).sec = s.sec ∧
    (askColumn k s c).pwr = s.pwr ∧ (askColumn k s c).host = s.host ∧ (askColumn k s c).ring = s.ring ∧
    (askColumn k s c).wards = s.wards ∧ (askColumn k s c).cap = s.cap ∧ (askColumn k s c).kcc = s.kcc ∧
    (askColumn k s c).ledger = s.ledger ∧ (askColumn k s c).groups = s.groups ∧ (askColumn k s c).pin = s.pin ∧
    (askColumn k s c).regs = s.regs ∧ (askColumn k s c).fresh = s.fresh := by
  unfold askColumn; dsimp only; (repeat' split) <;> simp [*]
@[simp] theorem askPath_frame (k : Nat) (s : State) :
    (askPath k s).sys = s.sys ∧ (askPath k s).clk = s.clk ∧ (askPath k s).sec = s.sec ∧ (askPath k s).pwr = s.pwr ∧
    (askPath k s).host = s.host ∧ (askPath k s).ring = s.ring ∧ (askPath k s).wards = s.wards ∧
    (askPath k s).cap = s.cap ∧ (askPath k s).kcc = s.kcc ∧ (askPath k s).ledger = s.ledger ∧
    (askPath k s).groups = s.groups ∧ (askPath k s).pin = s.pin ∧ (askPath k s).regs = s.regs ∧
    (askPath k s).fresh = s.fresh := by
  unfold askPath; (repeat' split) <;> simp [*]
@[simp] theorem pathFails_frame (r : Recovery) (s : State) :
    (pathFails r s).sys = s.sys ∧ (pathFails r s).clk = s.clk ∧ (pathFails r s).sec = s.sec ∧
    (pathFails r s).pwr = s.pwr ∧ (pathFails r s).cap = s.cap ∧ (pathFails r s).kcc = s.kcc ∧
    (pathFails r s).ledger = s.ledger ∧ (pathFails r s).groups = s.groups ∧ (pathFails r s).reads = s.reads ∧
    (pathFails r s).nextRead = s.nextRead ∧ (pathFails r s).regs = s.regs ∧ (pathFails r s).fresh = s.fresh := by
  simp [pathFails]
@[simp] theorem checkRecovery_frame (k : Nat) (s : State) :
    (checkRecovery k s).sys = s.sys ∧ (checkRecovery k s).clk = s.clk ∧ (checkRecovery k s).sec = s.sec ∧
    (checkRecovery k s).pwr = s.pwr ∧ (checkRecovery k s).cap = s.cap ∧ (checkRecovery k s).kcc = s.kcc ∧
    (checkRecovery k s).ledger = s.ledger ∧ (checkRecovery k s).groups = s.groups ∧ (checkRecovery k s).regs = s.regs ∧
    (checkRecovery k s).fresh = s.fresh := by
  unfold checkRecovery; dsimp only; (repeat' split) <;> simp [*]
@[simp] theorem startRecovery_frame (a : SubAddr) (why : ReadFor) (cls : Nat) (around : Bool) (retry : Bool) (obs : Option
    Sector) (s : State) :
    (startRecovery a why cls around retry obs s).sys = s.sys ∧ (startRecovery a why cls around retry obs s).clk = s.clk ∧
    (startRecovery a why cls around retry obs s).sec = s.sec ∧ (startRecovery a why cls around retry obs s).pwr = s.pwr ∧
    (startRecovery a why cls around retry obs s).cap = s.cap ∧ (startRecovery a why cls around retry obs s).kcc = s.kcc ∧
    (startRecovery a why cls around retry obs s).ledger = s.ledger ∧
    (startRecovery a why cls around retry obs s).groups = s.groups ∧
    (startRecovery a why cls around retry obs s).regs = s.regs ∧
    (startRecovery a why cls around retry obs s).fresh = s.fresh := by
  simp [startRecovery]
@[simp] theorem startFill_frame (cls : Nat) (around : Bool) (a : SubAddr) (s : State) :
    (startFill cls around a s).sys = s.sys ∧ (startFill cls around a s).clk = s.clk ∧
    (startFill cls around a s).sec = s.sec ∧ (startFill cls around a s).pwr = s.pwr ∧
    (startFill cls around a s).cap = s.cap ∧ (startFill cls around a s).kcc = s.kcc ∧
    (startFill cls around a s).ledger = s.ledger ∧ (startFill cls around a s).groups = s.groups ∧
    (startFill cls around a s).regs = s.regs ∧ (startFill cls around a s).fresh = s.fresh := by
  simp [startFill]
@[simp] theorem askFill_frame (cls : Nat) (a : SubAddr) (pol : Nat) (counted : Bool) (s : State) :
    (askFill cls a pol counted s).2.sys = s.sys ∧ (askFill cls a pol counted s).2.clk = s.clk ∧
    (askFill cls a pol counted s).2.sec = s.sec ∧ (askFill cls a pol counted s).2.pwr = s.pwr ∧
    (askFill cls a pol counted s).2.cap = s.cap ∧ (askFill cls a pol counted s).2.kcc = s.kcc ∧
    (askFill cls a pol counted s).2.ledger = s.ledger ∧ (askFill cls a pol counted s).2.groups = s.groups ∧
    (askFill cls a pol counted s).2.regs = s.regs ∧ (askFill cls a pol counted s).2.fresh = s.fresh := by
  unfold askFill; dsimp only; (repeat' split) <;> simp [*]
@[simp] theorem askBlock_frame (id : Nat) (i : Nat) (pol : Nat) (counted : Bool) (a : SubAddr) (s : State) :
    (askBlock id i pol counted a s).sys = s.sys ∧ (askBlock id i pol counted a s).clk = s.clk ∧
    (askBlock id i pol counted a s).sec = s.sec ∧ (askBlock id i pol counted a s).pwr = s.pwr ∧
    (askBlock id i pol counted a s).cap = s.cap ∧ (askBlock id i pol counted a s).kcc = s.kcc ∧
    (askBlock id i pol counted a s).ledger = s.ledger ∧ (askBlock id i pol counted a s).groups = s.groups ∧
    (askBlock id i pol counted a s).regs = s.regs ∧ (askBlock id i pol counted a s).fresh = s.fresh := by
  unfold askBlock; dsimp only; (repeat' split) <;> simp [*]
@[simp] theorem askAgain_frame (id : Nat) (i : Nat) (pol : Nat) (counted : Bool) (a : SubAddr) (s : State) :
    (askAgain id i pol counted a s).sys = s.sys ∧ (askAgain id i pol counted a s).clk = s.clk ∧
    (askAgain id i pol counted a s).sec = s.sec ∧ (askAgain id i pol counted a s).pwr = s.pwr ∧
    (askAgain id i pol counted a s).cap = s.cap ∧ (askAgain id i pol counted a s).kcc = s.kcc ∧
    (askAgain id i pol counted a s).ledger = s.ledger ∧ (askAgain id i pol counted a s).groups = s.groups ∧
    (askAgain id i pol counted a s).regs = s.regs ∧ (askAgain id i pol counted a s).fresh = s.fresh := by
  unfold askAgain; (repeat' split) <;> simp [*]
@[simp] theorem pumpBlk_frame (j : Job) (s : State) (p : BlkRes × Nat) :
    (pumpBlk j s p).sys = s.sys ∧ (pumpBlk j s p).clk = s.clk ∧ (pumpBlk j s p).sec = s.sec ∧
    (pumpBlk j s p).pwr = s.pwr ∧ (pumpBlk j s p).cap = s.cap ∧ (pumpBlk j s p).kcc = s.kcc ∧
    (pumpBlk j s p).ledger = s.ledger ∧ (pumpBlk j s p).groups = s.groups ∧ (pumpBlk j s p).regs = s.regs ∧
    (pumpBlk j s p).fresh = s.fresh := by
  unfold pumpBlk; (repeat' split) <;> simp [*]
@[simp] theorem pumpReads_frame (s : State) :
    (pumpReads s).sys = s.sys ∧ (pumpReads s).clk = s.clk ∧ (pumpReads s).sec = s.sec ∧ (pumpReads s).pwr = s.pwr ∧
    (pumpReads s).cap = s.cap ∧ (pumpReads s).kcc = s.kcc ∧ (pumpReads s).ledger = s.ledger ∧
    (pumpReads s).groups = s.groups ∧ (pumpReads s).regs = s.regs ∧ (pumpReads s).fresh = s.fresh := by
  simp [pumpReads]
@[simp] theorem moveOn_frame (s : State) :
    (moveOn s).sys = s.sys ∧ (moveOn s).clk = s.clk ∧ (moveOn s).sec = s.sec ∧ (moveOn s).pwr = s.pwr ∧
    (moveOn s).cap = s.cap ∧ (moveOn s).kcc = s.kcc ∧ (moveOn s).groups = s.groups ∧ (moveOn s).regs = s.regs ∧
    (moveOn s).fresh = s.fresh := by
  simp [moveOn]
@[simp] theorem countPass_frame (c : CellId) (block : Nat) (o : SectorObs) (good : Bool) (s : State) :
    (countPass c block o good s).sys = s.sys ∧ (countPass c block o good s).clk = s.clk ∧
    (countPass c block o good s).sec = s.sec ∧ (countPass c block o good s).pwr = s.pwr ∧
    (countPass c block o good s).host = s.host ∧ (countPass c block o good s).ring = s.ring ∧
    (countPass c block o good s).wards = s.wards ∧ (countPass c block o good s).cap = s.cap ∧
    (countPass c block o good s).cache = s.cache ∧ (countPass c block o good s).kcc = s.kcc ∧
    (countPass c block o good s).ledger = s.ledger ∧ (countPass c block o good s).groups = s.groups ∧
    (countPass c block o good s).cells = s.cells ∧ (countPass c block o good s).reads = s.reads ∧
    (countPass c block o good s).recoveries = s.recoveries ∧ (countPass c block o good s).nextRead = s.nextRead ∧
    (countPass c block o good s).pin = s.pin ∧ (countPass c block o good s).regs = s.regs ∧
    (countPass c block o good s).fresh = s.fresh := by
  simp [countPass]
@[simp] theorem dropRead_frame (k : Nat) (s : State) :
    (dropRead k s).sys = s.sys ∧ (dropRead k s).clk = s.clk ∧ (dropRead k s).sec = s.sec ∧ (dropRead k s).pwr = s.pwr ∧
    (dropRead k s).host = s.host ∧ (dropRead k s).ring = s.ring ∧ (dropRead k s).wards = s.wards ∧
    (dropRead k s).cap = s.cap ∧ (dropRead k s).cache = s.cache ∧ (dropRead k s).kcc = s.kcc ∧
    (dropRead k s).ledger = s.ledger ∧ (dropRead k s).groups = s.groups ∧ (dropRead k s).cells = s.cells ∧
    (dropRead k s).recoveries = s.recoveries ∧ (dropRead k s).nextRead = s.nextRead ∧ (dropRead k s).obs = s.obs ∧
    (dropRead k s).pin = s.pin ∧ (dropRead k s).regs = s.regs ∧ (dropRead k s).fresh = s.fresh := by
  simp [dropRead]
@[simp] theorem remapSector_frame (c : CellId) (block : Nat) (x : Sector) (s : State) :
    (remapSector c block x s).sys = s.sys ∧ (remapSector c block x s).clk = s.clk ∧
    (remapSector c block x s).sec = s.sec ∧ (remapSector c block x s).pwr = s.pwr ∧
    (remapSector c block x s).host = s.host ∧ (remapSector c block x s).ring = s.ring ∧
    (remapSector c block x s).wards = s.wards ∧ (remapSector c block x s).cap = s.cap ∧
    (remapSector c block x s).cache = s.cache ∧ (remapSector c block x s).kcc = s.kcc ∧
    (remapSector c block x s).ledger = s.ledger ∧ (remapSector c block x s).groups = s.groups ∧
    (remapSector c block x s).reads = s.reads ∧ (remapSector c block x s).recoveries = s.recoveries ∧
    (remapSector c block x s).nextRead = s.nextRead ∧ (remapSector c block x s).regs = s.regs ∧
    (remapSector c block x s).fresh = s.fresh := by
  simp [remapSector]
@[simp] theorem verifyBack_frame (r : MediaRead) (good : Bool) (s : State) :
    (verifyBack r good s).sys = s.sys ∧ (verifyBack r good s).clk = s.clk ∧ (verifyBack r good s).sec = s.sec ∧
    (verifyBack r good s).pwr = s.pwr ∧ (verifyBack r good s).host = s.host ∧ (verifyBack r good s).ring = s.ring ∧
    (verifyBack r good s).wards = s.wards ∧ (verifyBack r good s).cap = s.cap ∧ (verifyBack r good s).cache = s.cache ∧
    (verifyBack r good s).kcc = s.kcc ∧ (verifyBack r good s).ledger = s.ledger ∧
    (verifyBack r good s).groups = s.groups ∧ (verifyBack r good s).reads = s.reads ∧
    (verifyBack r good s).recoveries = s.recoveries ∧ (verifyBack r good s).nextRead = s.nextRead ∧
    (verifyBack r good s).regs = s.regs ∧ (verifyBack r good s).fresh = s.fresh := by
  unfold verifyBack; (repeat' split) <;> simp [*]
@[simp] theorem pathRead_frame (p : Nat) (a : SubAddr) (x : Option Sector) (s : State) :
    (pathRead p a x s).sys = s.sys ∧ (pathRead p a x s).clk = s.clk ∧ (pathRead p a x s).sec = s.sec ∧
    (pathRead p a x s).pwr = s.pwr ∧ (pathRead p a x s).cap = s.cap ∧ (pathRead p a x s).kcc = s.kcc ∧
    (pathRead p a x s).ledger = s.ledger ∧ (pathRead p a x s).groups = s.groups ∧ (pathRead p a x s).regs = s.regs ∧
    (pathRead p a x s).fresh = s.fresh := by
  unfold pathRead; cases x <;> dsimp only <;> (repeat' split) <;> simp [*]
@[simp] theorem readMoved_frame (r : MediaRead) (s : State) :
    (readMoved r s).sys = s.sys ∧ (readMoved r s).clk = s.clk ∧ (readMoved r s).sec = s.sec ∧
    (readMoved r s).pwr = s.pwr ∧ (readMoved r s).cap = s.cap ∧ (readMoved r s).kcc = s.kcc ∧
    (readMoved r s).ledger = s.ledger ∧ (readMoved r s).groups = s.groups ∧ (readMoved r s).regs = s.regs ∧
    (readMoved r s).fresh = s.fresh := by
  unfold readMoved; (repeat' split) <;> simp [*]
@[simp] theorem sectorRead_frame (k : Nat) (o : SectorObs) (s : State) :
    (sectorRead k o s).sys = s.sys ∧ (sectorRead k o s).clk = s.clk ∧ (sectorRead k o s).sec = s.sec ∧
    (sectorRead k o s).pwr = s.pwr ∧ (sectorRead k o s).cap = s.cap ∧ (sectorRead k o s).kcc = s.kcc ∧
    (sectorRead k o s).ledger = s.ledger ∧ (sectorRead k o s).groups = s.groups ∧ (sectorRead k o s).regs = s.regs ∧
    (sectorRead k o s).fresh = s.fresh := by
  unfold sectorRead; dsimp only; (repeat' split) <;> simp [*]
@[simp] theorem cacheFill_frame (a : SubAddr) (s : State) :
    (cacheFill a s).sys = s.sys ∧ (cacheFill a s).clk = s.clk ∧ (cacheFill a s).sec = s.sec ∧
    (cacheFill a s).pwr = s.pwr ∧ (cacheFill a s).cap = s.cap ∧ (cacheFill a s).kcc = s.kcc ∧
    (cacheFill a s).groups = s.groups ∧ (cacheFill a s).regs = s.regs ∧ (cacheFill a s).fresh = s.fresh := by
  unfold cacheFill; (repeat' split) <;> simp [*]
@[simp] theorem retryPass_frame (k : Nat) (o : SectorObs) (s : State) :
    (retryPass k o s).sys = s.sys ∧ (retryPass k o s).clk = s.clk ∧ (retryPass k o s).sec = s.sec ∧
    (retryPass k o s).pwr = s.pwr ∧ (retryPass k o s).cap = s.cap ∧ (retryPass k o s).kcc = s.kcc ∧
    (retryPass k o s).ledger = s.ledger ∧ (retryPass k o s).groups = s.groups ∧ (retryPass k o s).regs = s.regs ∧
    (retryPass k o s).fresh = s.fresh := by
  unfold retryPass; dsimp only; (repeat' split) <;> simp [*]

end Sys2Proof.Machine
end

