-- ==== Sys2Proof/Laws/FrameCmds.lean ====
section
/-! SUPPORT. Frames of the admin and ward commands, destage, background work, the servo and the apertures: what each operation leaves as it was. -/

set_option linter.unusedTactic false
set_option linter.unreachableTactic false
set_option linter.unnecessarySeqFocus false

namespace Sys2Proof.Machine

@[simp] theorem runAdmin_sys (id : Nat) (op : Nat) (f : Job → State → State) (s : State) (hp : ∀ (x0 : Job) (s : State),
    (f x0 s).sys = s.sys) :
    (runAdmin id op f s).sys = s.sys := by
  refine runJob_sys _ _ _ _ _ fun j s => ?_; (repeat' split) <;> first | rfl | exact hp .. | simp
@[simp] theorem runAdmin_clk (id : Nat) (op : Nat) (f : Job → State → State) (s : State) (hp : ∀ (x0 : Job) (s : State),
    (f x0 s).clk = s.clk) :
    (runAdmin id op f s).clk = s.clk := by
  refine runJob_clk _ _ _ _ _ fun j s => ?_; (repeat' split) <;> first | rfl | exact hp .. | simp
@[simp] theorem runAdmin_sec (id : Nat) (op : Nat) (f : Job → State → State) (s : State) (hp : ∀ (x0 : Job) (s : State),
    (f x0 s).sec = s.sec) :
    (runAdmin id op f s).sec = s.sec := by
  refine runJob_sec _ _ _ _ _ fun j s => ?_; (repeat' split) <;> first | rfl | exact hp .. | simp
@[simp] theorem runAdmin_pwr (id : Nat) (op : Nat) (f : Job → State → State) (s : State) (hp : ∀ (x0 : Job) (s : State),
    (f x0 s).pwr = s.pwr) :
    (runAdmin id op f s).pwr = s.pwr := by
  refine runJob_pwr _ _ _ _ _ fun j s => ?_; (repeat' split) <;> first | rfl | exact hp .. | simp
@[simp] theorem runAdmin_cap (id : Nat) (op : Nat) (f : Job → State → State) (s : State) (hp : ∀ (x0 : Job) (s : State),
    (f x0 s).cap = s.cap) :
    (runAdmin id op f s).cap = s.cap := by
  refine runJob_cap _ _ _ _ _ fun j s => ?_; (repeat' split) <;> first | rfl | exact hp .. | simp
@[simp] theorem runAdmin_cache (id : Nat) (op : Nat) (f : Job → State → State) (s : State) (hp : ∀ (x0 : Job) (s : State),
    (f x0 s).cache = s.cache) :
    (runAdmin id op f s).cache = s.cache := by
  refine runJob_cache _ _ _ _ _ fun j s => ?_; (repeat' split) <;> first | rfl | exact hp .. | simp
@[simp] theorem runAdmin_kcc (id : Nat) (op : Nat) (f : Job → State → State) (s : State) (hp : ∀ (x0 : Job) (s : State),
    (f x0 s).kcc = s.kcc) :
    (runAdmin id op f s).kcc = s.kcc := by
  refine runJob_kcc _ _ _ _ _ fun j s => ?_; (repeat' split) <;> first | rfl | exact hp .. | simp
@[simp] theorem runAdmin_groups (id : Nat) (op : Nat) (f : Job → State → State) (s : State) (hp : ∀ (x0 : Job) (s :
    State), (f x0 s).groups = s.groups) :
    (runAdmin id op f s).groups = s.groups := by
  refine runJob_groups _ _ _ _ _ fun j s => ?_; (repeat' split) <;> first | rfl | exact hp .. | simp
@[simp] theorem runAdmin_cells (id : Nat) (op : Nat) (f : Job → State → State) (s : State) (hp : ∀ (x0 : Job) (s : State),
    (f x0 s).cells = s.cells) :
    (runAdmin id op f s).cells = s.cells := by
  refine runJob_cells _ _ _ _ _ fun j s => ?_; (repeat' split) <;> first | rfl | exact hp .. | simp
@[simp] theorem runAdmin_reads (id : Nat) (op : Nat) (f : Job → State → State) (s : State) (hp : ∀ (x0 : Job) (s : State),
    (f x0 s).reads = s.reads) :
    (runAdmin id op f s).reads = s.reads := by
  refine runJob_reads _ _ _ _ _ fun j s => ?_; (repeat' split) <;> first | rfl | exact hp .. | simp
@[simp] theorem runAdmin_recoveries (id : Nat) (op : Nat) (f : Job → State → State) (s : State) (hp : ∀ (x0 : Job) (s :
    State), (f x0 s).recoveries = s.recoveries) :
    (runAdmin id op f s).recoveries = s.recoveries := by
  refine runJob_recoveries _ _ _ _ _ fun j s => ?_; (repeat' split) <;> first | rfl | exact hp .. | simp
@[simp] theorem runAdmin_nextRead (id : Nat) (op : Nat) (f : Job → State → State) (s : State) (hp : ∀ (x0 : Job) (s :
    State), (f x0 s).nextRead = s.nextRead) :
    (runAdmin id op f s).nextRead = s.nextRead := by
  refine runJob_nextRead _ _ _ _ _ fun j s => ?_; (repeat' split) <;> first | rfl | exact hp .. | simp
@[simp] theorem runAdmin_regs (id : Nat) (op : Nat) (f : Job → State → State) (s : State) (hp : ∀ (x0 : Job) (s : State),
    (f x0 s).regs = s.regs) :
    (runAdmin id op f s).regs = s.regs := by
  refine runJob_regs _ _ _ _ _ fun j s => ?_; (repeat' split) <;> first | rfl | exact hp .. | simp
@[simp] theorem runAdmin_fresh (id : Nat) (op : Nat) (f : Job → State → State) (s : State) (hp : ∀ (x0 : Job) (s : State),
    (f x0 s).fresh = s.fresh) :
    (runAdmin id op f s).fresh = s.fresh := by
  refine runJob_fresh _ _ _ _ _ fun j s => ?_; (repeat' split) <;> first | rfl | exact hp .. | simp
@[simp] theorem malformed_frame (j : Job) (off : Nat) (s : State) :
    (malformed j off s).sys = s.sys ∧ (malformed j off s).clk = s.clk ∧ (malformed j off s).sec = s.sec ∧
    (malformed j off s).pwr = s.pwr ∧ (malformed j off s).cap = s.cap ∧ (malformed j off s).cache = s.cache ∧
    (malformed j off s).kcc = s.kcc ∧ (malformed j off s).ledger = s.ledger ∧ (malformed j off s).groups = s.groups ∧
    (malformed j off s).cells = s.cells ∧ (malformed j off s).reads = s.reads ∧
    (malformed j off s).recoveries = s.recoveries ∧ (malformed j off s).nextRead = s.nextRead ∧
    (malformed j off s).regs = s.regs ∧ (malformed j off s).fresh = s.fresh := by
  simp [malformed]
@[simp] theorem malformedOpen_frame (j : Job) (s : State) :
    (malformedOpen j s).sys = s.sys ∧ (malformedOpen j s).clk = s.clk ∧ (malformedOpen j s).sec = s.sec ∧
    (malformedOpen j s).pwr = s.pwr ∧ (malformedOpen j s).cap = s.cap ∧ (malformedOpen j s).cache = s.cache ∧
    (malformedOpen j s).kcc = s.kcc ∧ (malformedOpen j s).ledger = s.ledger ∧ (malformedOpen j s).groups = s.groups ∧
    (malformedOpen j s).cells = s.cells ∧ (malformedOpen j s).reads = s.reads ∧
    (malformedOpen j s).recoveries = s.recoveries ∧ (malformedOpen j s).nextRead = s.nextRead ∧
    (malformedOpen j s).regs = s.regs := by
  simp [malformedOpen]
@[simp] theorem officerAuth_frame (j : Job) (s : State) :
    (officerAuth j s).sys = s.sys ∧ (officerAuth j s).clk = s.clk ∧ (officerAuth j s).pwr = s.pwr ∧
    (officerAuth j s).cap = s.cap ∧ (officerAuth j s).cache = s.cache ∧ (officerAuth j s).kcc = s.kcc ∧
    (officerAuth j s).ledger = s.ledger ∧ (officerAuth j s).groups = s.groups ∧ (officerAuth j s).cells = s.cells ∧
    (officerAuth j s).reads = s.reads ∧ (officerAuth j s).recoveries = s.recoveries ∧
    (officerAuth j s).nextRead = s.nextRead ∧ (officerAuth j s).regs = s.regs ∧ (officerAuth j s).fresh = s.fresh := by
  unfold officerAuth; (repeat' split) <;> simp [*]
@[simp] theorem drawRandom_frame (s : State) :
    (drawRandom s).2.sys = s.sys ∧ (drawRandom s).2.clk = s.clk ∧ (drawRandom s).2.pwr = s.pwr ∧
    (drawRandom s).2.host = s.host ∧ (drawRandom s).2.ring = s.ring ∧ (drawRandom s).2.wards = s.wards ∧
    (drawRandom s).2.cap = s.cap ∧ (drawRandom s).2.cache = s.cache ∧ (drawRandom s).2.kcc = s.kcc ∧
    (drawRandom s).2.ledger = s.ledger ∧ (drawRandom s).2.groups = s.groups ∧ (drawRandom s).2.cells = s.cells ∧
    (drawRandom s).2.reads = s.reads ∧ (drawRandom s).2.recoveries = s.recoveries ∧
    (drawRandom s).2.nextRead = s.nextRead ∧ (drawRandom s).2.obs = s.obs ∧ (drawRandom s).2.pin = s.pin ∧
    (drawRandom s).2.regs = s.regs ∧ (drawRandom s).2.fresh = s.fresh := by
  simp [drawRandom]
@[simp] theorem stage_frame (cred : Bytes) (s : State) :
    (stage cred s).sys = s.sys ∧ (stage cred s).clk = s.clk ∧ (stage cred s).pwr = s.pwr ∧ (stage cred s).host = s.host ∧
    (stage cred s).ring = s.ring ∧ (stage cred s).wards = s.wards ∧ (stage cred s).cap = s.cap ∧
    (stage cred s).cache = s.cache ∧ (stage cred s).kcc = s.kcc ∧ (stage cred s).ledger = s.ledger ∧
    (stage cred s).groups = s.groups ∧ (stage cred s).cells = s.cells ∧ (stage cred s).reads = s.reads ∧
    (stage cred s).recoveries = s.recoveries ∧ (stage cred s).nextRead = s.nextRead ∧ (stage cred s).obs = s.obs ∧
    (stage cred s).pin = s.pin ∧ (stage cred s).regs = s.regs ∧ (stage cred s).fresh = s.fresh := by
  simp [stage]
@[simp] theorem provision_frame (s : State) :
    (provision s).sys = s.sys ∧ (provision s).clk = s.clk ∧ (provision s).pwr = s.pwr ∧ (provision s).host = s.host ∧
    (provision s).ring = s.ring ∧ (provision s).wards = s.wards ∧ (provision s).cap = s.cap ∧
    (provision s).cache = s.cache ∧ (provision s).kcc = s.kcc ∧ (provision s).ledger = s.ledger ∧
    (provision s).groups = s.groups ∧ (provision s).cells = s.cells ∧ (provision s).reads = s.reads ∧
    (provision s).recoveries = s.recoveries ∧ (provision s).nextRead = s.nextRead ∧ (provision s).obs = s.obs ∧
    (provision s).regs = s.regs ∧ (provision s).fresh = s.fresh := by
  unfold provision; (repeat' split) <;> simp [*]
@[simp] theorem setOfficerCredential_frame (whole : Bool) (j : Job) (s : State) :
    (setOfficerCredential whole j s).sys = s.sys ∧ (setOfficerCredential whole j s).clk = s.clk ∧
    (setOfficerCredential whole j s).kcc = s.kcc ∧ (setOfficerCredential whole j s).reads = s.reads ∧
    (setOfficerCredential whole j s).nextRead = s.nextRead ∧ (setOfficerCredential whole j s).regs = s.regs ∧
    (setOfficerCredential whole j s).fresh = s.fresh := by
  simp [setOfficerCredential]
@[simp] theorem setTelemetryKey_frame (j : Job) (s : State) :
    (setTelemetryKey j s).sys = s.sys ∧ (setTelemetryKey j s).clk = s.clk ∧ (setTelemetryKey j s).sec = s.sec ∧
    (setTelemetryKey j s).pwr = s.pwr ∧ (setTelemetryKey j s).cap = s.cap ∧ (setTelemetryKey j s).cache = s.cache ∧
    (setTelemetryKey j s).kcc = s.kcc ∧ (setTelemetryKey j s).groups = s.groups ∧ (setTelemetryKey j s).cells = s.cells ∧
    (setTelemetryKey j s).reads = s.reads ∧ (setTelemetryKey j s).recoveries = s.recoveries ∧
    (setTelemetryKey j s).nextRead = s.nextRead ∧ (setTelemetryKey j s).regs = s.regs ∧
    (setTelemetryKey j s).fresh = s.fresh := by
  unfold setTelemetryKey; (repeat' split) <;> simp [*]
@[simp] theorem runSelfTest_frame (fail : Option TestFail) (j : Job) (s : State) :
    (runSelfTest fail j s).sys = s.sys ∧ (runSelfTest fail j s).clk = s.clk ∧ (runSelfTest fail j s).cap = s.cap ∧
    (runSelfTest fail j s).nextRead = s.nextRead ∧ (runSelfTest fail j s).regs = s.regs := by
  unfold runSelfTest; (repeat' split) <;> simp [*]
@[simp] theorem holdReset_frame (j : Job) (s : State) :
    (holdReset j s).sys = s.sys ∧ (holdReset j s).clk = s.clk ∧ (holdReset j s).sec = s.sec ∧
    (holdReset j s).pwr = s.pwr ∧ (holdReset j s).host = s.host ∧ (holdReset j s).wards = s.wards ∧
    (holdReset j s).cap = s.cap ∧ (holdReset j s).cache = s.cache ∧ (holdReset j s).kcc = s.kcc ∧
    (holdReset j s).ledger = s.ledger ∧ (holdReset j s).groups = s.groups ∧ (holdReset j s).cells = s.cells ∧
    (holdReset j s).reads = s.reads ∧ (holdReset j s).recoveries = s.recoveries ∧ (holdReset j s).nextRead = s.nextRead ∧
    (holdReset j s).obs = s.obs ∧ (holdReset j s).pin = s.pin ∧ (holdReset j s).regs = s.regs ∧
    (holdReset j s).fresh = s.fresh := by
  simp [holdReset]
@[simp] theorem drawPair_frame (s : State) :
    (drawPair s).2.sys = s.sys ∧ (drawPair s).2.clk = s.clk ∧ (drawPair s).2.pwr = s.pwr ∧ (drawPair s).2.host = s.host ∧
    (drawPair s).2.ring = s.ring ∧ (drawPair s).2.wards = s.wards ∧ (drawPair s).2.cap = s.cap ∧
    (drawPair s).2.cache = s.cache ∧ (drawPair s).2.kcc = s.kcc ∧ (drawPair s).2.ledger = s.ledger ∧
    (drawPair s).2.groups = s.groups ∧ (drawPair s).2.cells = s.cells ∧ (drawPair s).2.reads = s.reads ∧
    (drawPair s).2.recoveries = s.recoveries ∧ (drawPair s).2.nextRead = s.nextRead ∧ (drawPair s).2.obs = s.obs ∧
    (drawPair s).2.pin = s.pin ∧ (drawPair s).2.regs = s.regs ∧ (drawPair s).2.fresh = s.fresh := by
  simp [drawPair]
@[simp] theorem makeWard_frame (j : Job) (b : Extent) (p : Extent) (s : State) :
    (makeWard j b p s).sys = s.sys ∧ (makeWard j b p s).clk = s.clk ∧ (makeWard j b p s).pwr = s.pwr ∧
    (makeWard j b p s).cap = s.cap ∧ (makeWard j b p s).cache = s.cache ∧ (makeWard j b p s).kcc = s.kcc ∧
    (makeWard j b p s).groups = s.groups ∧ (makeWard j b p s).cells = s.cells ∧ (makeWard j b p s).reads = s.reads ∧
    (makeWard j b p s).recoveries = s.recoveries ∧ (makeWard j b p s).nextRead = s.nextRead ∧
    (makeWard j b p s).regs = s.regs ∧ (makeWard j b p s).fresh = s.fresh := by
  simp [makeWard]
@[simp] theorem createCmd_frame (j : Job) (s : State) :
    (createCmd j s).sys = s.sys ∧ (createCmd j s).clk = s.clk ∧ (createCmd j s).pwr = s.pwr ∧
    (createCmd j s).cap = s.cap ∧ (createCmd j s).cache = s.cache ∧ (createCmd j s).kcc = s.kcc ∧
    (createCmd j s).groups = s.groups ∧ (createCmd j s).cells = s.cells ∧ (createCmd j s).reads = s.reads ∧
    (createCmd j s).recoveries = s.recoveries ∧ (createCmd j s).nextRead = s.nextRead ∧
    (createCmd j s).regs = s.regs := by
  unfold createCmd; dsimp only; (repeat' split) <;> simp [*]
@[simp] theorem abortWard_frame (w : WardId) (s : State) :
    (abortWard w s).2.sys = s.sys ∧ (abortWard w s).2.clk = s.clk ∧ (abortWard w s).2.sec = s.sec ∧
    (abortWard w s).2.pwr = s.pwr ∧ (abortWard w s).2.cap = s.cap ∧ (abortWard w s).2.cache = s.cache ∧
    (abortWard w s).2.groups = s.groups ∧ (abortWard w s).2.cells = s.cells ∧ (abortWard w s).2.reads = s.reads ∧
    (abortWard w s).2.recoveries = s.recoveries ∧ (abortWard w s).2.nextRead = s.nextRead ∧
    (abortWard w s).2.regs = s.regs ∧ (abortWard w s).2.fresh = s.fresh := by
  simp [abortWard]
@[simp] theorem resetBegin_frame (w : WardId) (s : State) :
    (resetBegin w s).sys = s.sys ∧ (resetBegin w s).clk = s.clk ∧ (resetBegin w s).sec = s.sec ∧
    (resetBegin w s).pwr = s.pwr ∧ (resetBegin w s).cache = s.cache ∧ (resetBegin w s).groups = s.groups ∧
    (resetBegin w s).cells = s.cells ∧ (resetBegin w s).reads = s.reads ∧ (resetBegin w s).recoveries = s.recoveries ∧
    (resetBegin w s).nextRead = s.nextRead ∧ (resetBegin w s).regs = s.regs ∧ (resetBegin w s).fresh = s.fresh := by
  simp [resetBegin]
@[simp] theorem resetCmd_frame (destroy : Bool) (j : Job) (s : State) :
    (resetCmd destroy j s).sys = s.sys ∧ (resetCmd destroy j s).clk = s.clk ∧ (resetCmd destroy j s).sec = s.sec ∧
    (resetCmd destroy j s).pwr = s.pwr ∧ (resetCmd destroy j s).cache = s.cache ∧
    (resetCmd destroy j s).groups = s.groups ∧ (resetCmd destroy j s).cells = s.cells ∧
    (resetCmd destroy j s).reads = s.reads ∧ (resetCmd destroy j s).recoveries = s.recoveries ∧
    (resetCmd destroy j s).nextRead = s.nextRead ∧ (resetCmd destroy j s).regs = s.regs ∧
    (resetCmd destroy j s).fresh = s.fresh := by
  unfold resetCmd; dsimp only; (repeat' split) <;> simp [*]
@[simp] theorem resetRow_frame (job : Nat) (op : Nat) (destroy : Bool) (s : State) :
    (resetRow job op destroy s).sys = s.sys ∧ (resetRow job op destroy s).clk = s.clk ∧
    (resetRow job op destroy s).sec = s.sec ∧ (resetRow job op destroy s).pwr = s.pwr ∧
    (resetRow job op destroy s).cache = s.cache ∧ (resetRow job op destroy s).groups = s.groups ∧
    (resetRow job op destroy s).cells = s.cells ∧ (resetRow job op destroy s).reads = s.reads ∧
    (resetRow job op destroy s).recoveries = s.recoveries ∧ (resetRow job op destroy s).nextRead = s.nextRead ∧
    (resetRow job op destroy s).regs = s.regs ∧ (resetRow job op destroy s).fresh = s.fresh := by
  unfold resetRow; (repeat' split) <;> simp [*]
@[simp] theorem withKey_sys (f : WardId → Job → State → State) (j : Job) (s : State) (hp : ∀ (x0 : WardId) (x1 : Job) (s :
    State), (f x0 x1 s).sys = s.sys) :
    (withKey f j s).sys = s.sys := by
  unfold withKey; (repeat' split) <;> first | rfl | exact hp .. | simp [*]
@[simp] theorem withKey_clk (f : WardId → Job → State → State) (j : Job) (s : State) (hp : ∀ (x0 : WardId) (x1 : Job) (s :
    State), (f x0 x1 s).clk = s.clk) :
    (withKey f j s).clk = s.clk := by
  unfold withKey; (repeat' split) <;> first | rfl | exact hp .. | simp [*]
@[simp] theorem withKey_sec (f : WardId → Job → State → State) (j : Job) (s : State) (hp : ∀ (x0 : WardId) (x1 : Job) (s :
    State), (f x0 x1 s).sec = s.sec) :
    (withKey f j s).sec = s.sec := by
  unfold withKey; (repeat' split) <;> first | rfl | exact hp .. | simp [*]
@[simp] theorem withKey_pwr (f : WardId → Job → State → State) (j : Job) (s : State) (hp : ∀ (x0 : WardId) (x1 : Job) (s :
    State), (f x0 x1 s).pwr = s.pwr) :
    (withKey f j s).pwr = s.pwr := by
  unfold withKey; (repeat' split) <;> first | rfl | exact hp .. | simp [*]
@[simp] theorem withKey_cap (f : WardId → Job → State → State) (j : Job) (s : State) (hp : ∀ (x0 : WardId) (x1 : Job) (s :
    State), (f x0 x1 s).cap = s.cap) :
    (withKey f j s).cap = s.cap := by
  unfold withKey; (repeat' split) <;> first | rfl | exact hp .. | simp [*]
@[simp] theorem withKey_cache (f : WardId → Job → State → State) (j : Job) (s : State) (hp : ∀ (x0 : WardId) (x1 : Job) (s
    : State), (f x0 x1 s).cache = s.cache) :
    (withKey f j s).cache = s.cache := by
  unfold withKey; (repeat' split) <;> first | rfl | exact hp .. | simp [*]
@[simp] theorem withKey_kcc (f : WardId → Job → State → State) (j : Job) (s : State) (hp : ∀ (x0 : WardId) (x1 : Job) (s :
    State), (f x0 x1 s).kcc = s.kcc) :
    (withKey f j s).kcc = s.kcc := by
  unfold withKey; (repeat' split) <;> first | rfl | exact hp .. | simp [*]
@[simp] theorem withKey_ledger (f : WardId → Job → State → State) (j : Job) (s : State) (hp : ∀ (x0 : WardId) (x1 : Job)
    (s : State), (f x0 x1 s).ledger = s.ledger) :
    (withKey f j s).ledger = s.ledger := by
  unfold withKey; (repeat' split) <;> first | rfl | exact hp .. | simp [*]
@[simp] theorem withKey_groups (f : WardId → Job → State → State) (j : Job) (s : State) (hp : ∀ (x0 : WardId) (x1 : Job)
    (s : State), (f x0 x1 s).groups = s.groups) :
    (withKey f j s).groups = s.groups := by
  unfold withKey; (repeat' split) <;> first | rfl | exact hp .. | simp [*]
@[simp] theorem withKey_cells (f : WardId → Job → State → State) (j : Job) (s : State) (hp : ∀ (x0 : WardId) (x1 : Job) (s
    : State), (f x0 x1 s).cells = s.cells) :
    (withKey f j s).cells = s.cells := by
  unfold withKey; (repeat' split) <;> first | rfl | exact hp .. | simp [*]
@[simp] theorem withKey_reads (f : WardId → Job → State → State) (j : Job) (s : State) (hp : ∀ (x0 : WardId) (x1 : Job) (s
    : State), (f x0 x1 s).reads = s.reads) :
    (withKey f j s).reads = s.reads := by
  unfold withKey; (repeat' split) <;> first | rfl | exact hp .. | simp [*]
@[simp] theorem withKey_recoveries (f : WardId → Job → State → State) (j : Job) (s : State) (hp : ∀ (x0 : WardId) (x1 :
    Job) (s : State), (f x0 x1 s).recoveries = s.recoveries) :
    (withKey f j s).recoveries = s.recoveries := by
  unfold withKey; (repeat' split) <;> first | rfl | exact hp .. | simp [*]
@[simp] theorem withKey_nextRead (f : WardId → Job → State → State) (j : Job) (s : State) (hp : ∀ (x0 : WardId) (x1 : Job)
    (s : State), (f x0 x1 s).nextRead = s.nextRead) :
    (withKey f j s).nextRead = s.nextRead := by
  unfold withKey; (repeat' split) <;> first | rfl | exact hp .. | simp [*]
@[simp] theorem withKey_regs (f : WardId → Job → State → State) (j : Job) (s : State) (hp : ∀ (x0 : WardId) (x1 : Job) (s
    : State), (f x0 x1 s).regs = s.regs) :
    (withKey f j s).regs = s.regs := by
  unfold withKey; (repeat' split) <;> first | rfl | exact hp .. | simp [*]
@[simp] theorem withKey_fresh (f : WardId → Job → State → State) (j : Job) (s : State) (hp : ∀ (x0 : WardId) (x1 : Job) (s
    : State), (f x0 x1 s).fresh = s.fresh) :
    (withKey f j s).fresh = s.fresh := by
  unfold withKey; (repeat' split) <;> first | rfl | exact hp .. | simp [*]
@[simp] theorem resizeWard_frame (w : WardId) (j : Job) (s : State) :
    (resizeWard w j s).sys = s.sys ∧ (resizeWard w j s).clk = s.clk ∧ (resizeWard w j s).sec = s.sec ∧
    (resizeWard w j s).pwr = s.pwr ∧ (resizeWard w j s).cap = s.cap ∧ (resizeWard w j s).cache = s.cache ∧
    (resizeWard w j s).kcc = s.kcc ∧ (resizeWard w j s).groups = s.groups ∧ (resizeWard w j s).cells = s.cells ∧
    (resizeWard w j s).reads = s.reads ∧ (resizeWard w j s).recoveries = s.recoveries ∧
    (resizeWard w j s).nextRead = s.nextRead ∧ (resizeWard w j s).regs = s.regs ∧ (resizeWard w j s).fresh = s.fresh := by
  unfold resizeWard; dsimp only; (repeat' split) <;> simp [*]
@[simp] theorem setWardRings_frame (w : WardId) (j : Job) (s : State) :
    (setWardRings w j s).sys = s.sys ∧ (setWardRings w j s).clk = s.clk ∧ (setWardRings w j s).sec = s.sec ∧
    (setWardRings w j s).pwr = s.pwr ∧ (setWardRings w j s).cap = s.cap ∧ (setWardRings w j s).cache = s.cache ∧
    (setWardRings w j s).kcc = s.kcc ∧ (setWardRings w j s).groups = s.groups ∧ (setWardRings w j s).cells = s.cells ∧
    (setWardRings w j s).reads = s.reads ∧ (setWardRings w j s).recoveries = s.recoveries ∧
    (setWardRings w j s).nextRead = s.nextRead ∧ (setWardRings w j s).regs = s.regs := by
  simp [setWardRings]
@[simp] theorem setWardSched_frame (w : WardId) (j : Job) (s : State) :
    (setWardSched w j s).sys = s.sys ∧ (setWardSched w j s).clk = s.clk ∧ (setWardSched w j s).sec = s.sec ∧
    (setWardSched w j s).pwr = s.pwr ∧ (setWardSched w j s).cap = s.cap ∧ (setWardSched w j s).cache = s.cache ∧
    (setWardSched w j s).kcc = s.kcc ∧ (setWardSched w j s).groups = s.groups ∧ (setWardSched w j s).cells = s.cells ∧
    (setWardSched w j s).reads = s.reads ∧ (setWardSched w j s).recoveries = s.recoveries ∧
    (setWardSched w j s).nextRead = s.nextRead ∧ (setWardSched w j s).regs = s.regs := by
  simp [setWardSched]
@[simp] theorem flushBegin_frame (j : Job) (s : State) :
    (flushBegin j s).sys = s.sys ∧ (flushBegin j s).clk = s.clk ∧ (flushBegin j s).sec = s.sec ∧
    (flushBegin j s).pwr = s.pwr ∧ (flushBegin j s).cap = s.cap ∧ (flushBegin j s).cache = s.cache ∧
    (flushBegin j s).groups = s.groups ∧ (flushBegin j s).cells = s.cells ∧ (flushBegin j s).reads = s.reads ∧
    (flushBegin j s).recoveries = s.recoveries ∧ (flushBegin j s).nextRead = s.nextRead ∧ (flushBegin j s).regs = s.regs ∧
    (flushBegin j s).fresh = s.fresh := by
  simp [flushBegin]
@[simp] theorem heldEval_frame (id : Nat) (s : State) :
    (heldEval id s).sys = s.sys ∧ (heldEval id s).clk = s.clk ∧ (heldEval id s).sec = s.sec ∧
    (heldEval id s).pwr = s.pwr ∧ (heldEval id s).cap = s.cap ∧ (heldEval id s).cache = s.cache ∧
    (heldEval id s).kcc = s.kcc ∧ (heldEval id s).groups = s.groups ∧ (heldEval id s).cells = s.cells ∧
    (heldEval id s).reads = s.reads ∧ (heldEval id s).recoveries = s.recoveries ∧ (heldEval id s).nextRead = s.nextRead ∧
    (heldEval id s).regs = s.regs ∧ (heldEval id s).fresh = s.fresh := by
  unfold heldEval; (repeat' split) <;> simp [*]
@[simp] theorem tumblerWrite_frame (j : Job) (s : State) :
    (tumblerWrite j s).sys = s.sys ∧ (tumblerWrite j s).clk = s.clk ∧ (tumblerWrite j s).sec = s.sec ∧
    (tumblerWrite j s).pwr = s.pwr ∧ (tumblerWrite j s).cap = s.cap ∧ (tumblerWrite j s).cache = s.cache ∧
    (tumblerWrite j s).kcc = s.kcc ∧ (tumblerWrite j s).groups = s.groups ∧ (tumblerWrite j s).cells = s.cells ∧
    (tumblerWrite j s).reads = s.reads ∧ (tumblerWrite j s).recoveries = s.recoveries ∧
    (tumblerWrite j s).nextRead = s.nextRead ∧ (tumblerWrite j s).regs = s.regs := by
  simp [tumblerWrite]
@[simp] theorem groupSet_sys (job : Nat) (action : Nat) (f : Job → State → State) (s : State) (hp : ∀ (x0 : Job) (s :
    State), (f x0 s).sys = s.sys) :
    (groupSet job action f s).sys = s.sys := by
  unfold groupSet; (repeat' split) <;> first | rfl | exact hp .. | simp [*]
@[simp] theorem groupSet_clk (job : Nat) (action : Nat) (f : Job → State → State) (s : State) (hp : ∀ (x0 : Job) (s :
    State), (f x0 s).clk = s.clk) :
    (groupSet job action f s).clk = s.clk := by
  unfold groupSet; (repeat' split) <;> first | rfl | exact hp .. | simp [*]
@[simp] theorem groupSet_sec (job : Nat) (action : Nat) (f : Job → State → State) (s : State) (hp : ∀ (x0 : Job) (s :
    State), (f x0 s).sec = s.sec) :
    (groupSet job action f s).sec = s.sec := by
  unfold groupSet; (repeat' split) <;> first | rfl | exact hp .. | simp [*]
@[simp] theorem groupSet_pwr (job : Nat) (action : Nat) (f : Job → State → State) (s : State) (hp : ∀ (x0 : Job) (s :
    State), (f x0 s).pwr = s.pwr) :
    (groupSet job action f s).pwr = s.pwr := by
  unfold groupSet; (repeat' split) <;> first | rfl | exact hp .. | simp [*]
@[simp] theorem groupSet_cap (job : Nat) (action : Nat) (f : Job → State → State) (s : State) (hp : ∀ (x0 : Job) (s :
    State), (f x0 s).cap = s.cap) :
    (groupSet job action f s).cap = s.cap := by
  unfold groupSet; (repeat' split) <;> first | rfl | exact hp .. | simp [*]
@[simp] theorem groupSet_cache (job : Nat) (action : Nat) (f : Job → State → State) (s : State) (hp : ∀ (x0 : Job) (s :
    State), (f x0 s).cache = s.cache) :
    (groupSet job action f s).cache = s.cache := by
  unfold groupSet; (repeat' split) <;> first | rfl | exact hp .. | simp [*]
@[simp] theorem groupSet_kcc (job : Nat) (action : Nat) (f : Job → State → State) (s : State) (hp : ∀ (x0 : Job) (s :
    State), (f x0 s).kcc = s.kcc) :
    (groupSet job action f s).kcc = s.kcc := by
  unfold groupSet; (repeat' split) <;> first | rfl | exact hp .. | simp [*]
@[simp] theorem groupSet_groups (job : Nat) (action : Nat) (f : Job → State → State) (s : State) (hp : ∀ (x0 : Job) (s :
    State), (f x0 s).groups = s.groups) :
    (groupSet job action f s).groups = s.groups := by
  unfold groupSet; (repeat' split) <;> first | rfl | exact hp .. | simp [*]
@[simp] theorem groupSet_cells (job : Nat) (action : Nat) (f : Job → State → State) (s : State) (hp : ∀ (x0 : Job) (s :
    State), (f x0 s).cells = s.cells) :
    (groupSet job action f s).cells = s.cells := by
  unfold groupSet; (repeat' split) <;> first | rfl | exact hp .. | simp [*]
@[simp] theorem groupSet_reads (job : Nat) (action : Nat) (f : Job → State → State) (s : State) (hp : ∀ (x0 : Job) (s :
    State), (f x0 s).reads = s.reads) :
    (groupSet job action f s).reads = s.reads := by
  unfold groupSet; (repeat' split) <;> first | rfl | exact hp .. | simp [*]
@[simp] theorem groupSet_recoveries (job : Nat) (action : Nat) (f : Job → State → State) (s : State) (hp : ∀ (x0 : Job) (s
    : State), (f x0 s).recoveries = s.recoveries) :
    (groupSet job action f s).recoveries = s.recoveries := by
  unfold groupSet; (repeat' split) <;> first | rfl | exact hp .. | simp [*]
@[simp] theorem groupSet_nextRead (job : Nat) (action : Nat) (f : Job → State → State) (s : State) (hp : ∀ (x0 : Job) (s :
    State), (f x0 s).nextRead = s.nextRead) :
    (groupSet job action f s).nextRead = s.nextRead := by
  unfold groupSet; (repeat' split) <;> first | rfl | exact hp .. | simp [*]
@[simp] theorem groupSet_regs (job : Nat) (action : Nat) (f : Job → State → State) (s : State) (hp : ∀ (x0 : Job) (s :
    State), (f x0 s).regs = s.regs) :
    (groupSet job action f s).regs = s.regs := by
  unfold groupSet; (repeat' split) <;> first | rfl | exact hp .. | simp [*]
@[simp] theorem groupSet_fresh (job : Nat) (action : Nat) (f : Job → State → State) (s : State) (hp : ∀ (x0 : Job) (s :
    State), (f x0 s).fresh = s.fresh) :
    (groupSet job action f s).fresh = s.fresh := by
  unfold groupSet; (repeat' split) <;> first | rfl | exact hp .. | simp [*]
@[simp] theorem groupCreate_frame (j : Job) (s : State) :
    (groupCreate j s).sys = s.sys ∧ (groupCreate j s).clk = s.clk ∧ (groupCreate j s).sec = s.sec ∧
    (groupCreate j s).pwr = s.pwr ∧ (groupCreate j s).cap = s.cap ∧ (groupCreate j s).cache = s.cache ∧
    (groupCreate j s).kcc = s.kcc ∧ (groupCreate j s).groups = s.groups ∧ (groupCreate j s).cells = s.cells ∧
    (groupCreate j s).reads = s.reads ∧ (groupCreate j s).recoveries = s.recoveries ∧
    (groupCreate j s).nextRead = s.nextRead ∧ (groupCreate j s).regs = s.regs ∧ (groupCreate j s).fresh = s.fresh := by
  simp [groupCreate]
@[simp] theorem groupSpare_frame (j : Job) (s : State) :
    (groupSpare j s).sys = s.sys ∧ (groupSpare j s).clk = s.clk ∧ (groupSpare j s).sec = s.sec ∧
    (groupSpare j s).pwr = s.pwr ∧ (groupSpare j s).cap = s.cap ∧ (groupSpare j s).cache = s.cache ∧
    (groupSpare j s).kcc = s.kcc ∧ (groupSpare j s).groups = s.groups ∧ (groupSpare j s).cells = s.cells ∧
    (groupSpare j s).reads = s.reads ∧ (groupSpare j s).recoveries = s.recoveries ∧
    (groupSpare j s).nextRead = s.nextRead ∧ (groupSpare j s).regs = s.regs ∧ (groupSpare j s).fresh = s.fresh := by
  simp [groupSpare]
@[simp] theorem groupDelete_frame (j : Job) (s : State) :
    (groupDelete j s).sys = s.sys ∧ (groupDelete j s).clk = s.clk ∧ (groupDelete j s).sec = s.sec ∧
    (groupDelete j s).pwr = s.pwr ∧ (groupDelete j s).cap = s.cap ∧ (groupDelete j s).cache = s.cache ∧
    (groupDelete j s).kcc = s.kcc ∧ (groupDelete j s).groups = s.groups ∧ (groupDelete j s).cells = s.cells ∧
    (groupDelete j s).reads = s.reads ∧ (groupDelete j s).recoveries = s.recoveries ∧
    (groupDelete j s).nextRead = s.nextRead ∧ (groupDelete j s).regs = s.regs ∧ (groupDelete j s).fresh = s.fresh := by
  simp [groupDelete]
@[simp] theorem workCtrl_sys (job : Nat) (op : Nat) (action : Nat) (f : Job → State → State) (s : State) (hp : ∀ (x0 :
    Job) (s : State), (f x0 s).sys = s.sys) :
    (workCtrl job op action f s).sys = s.sys := by
  unfold workCtrl; (repeat' split) <;> first | rfl | exact hp .. | simp [*]
@[simp] theorem workCtrl_clk (job : Nat) (op : Nat) (action : Nat) (f : Job → State → State) (s : State) (hp : ∀ (x0 :
    Job) (s : State), (f x0 s).clk = s.clk) :
    (workCtrl job op action f s).clk = s.clk := by
  unfold workCtrl; (repeat' split) <;> first | rfl | exact hp .. | simp [*]
@[simp] theorem workCtrl_sec (job : Nat) (op : Nat) (action : Nat) (f : Job → State → State) (s : State) (hp : ∀ (x0 :
    Job) (s : State), (f x0 s).sec = s.sec) :
    (workCtrl job op action f s).sec = s.sec := by
  unfold workCtrl; (repeat' split) <;> first | rfl | exact hp .. | simp [*]
@[simp] theorem workCtrl_pwr (job : Nat) (op : Nat) (action : Nat) (f : Job → State → State) (s : State) (hp : ∀ (x0 :
    Job) (s : State), (f x0 s).pwr = s.pwr) :
    (workCtrl job op action f s).pwr = s.pwr := by
  unfold workCtrl; (repeat' split) <;> first | rfl | exact hp .. | simp [*]
@[simp] theorem workCtrl_cap (job : Nat) (op : Nat) (action : Nat) (f : Job → State → State) (s : State) (hp : ∀ (x0 :
    Job) (s : State), (f x0 s).cap = s.cap) :
    (workCtrl job op action f s).cap = s.cap := by
  unfold workCtrl; (repeat' split) <;> first | rfl | exact hp .. | simp [*]
@[simp] theorem workCtrl_cache (job : Nat) (op : Nat) (action : Nat) (f : Job → State → State) (s : State) (hp : ∀ (x0 :
    Job) (s : State), (f x0 s).cache = s.cache) :
    (workCtrl job op action f s).cache = s.cache := by
  unfold workCtrl; (repeat' split) <;> first | rfl | exact hp .. | simp [*]
@[simp] theorem workCtrl_kcc (job : Nat) (op : Nat) (action : Nat) (f : Job → State → State) (s : State) (hp : ∀ (x0 :
    Job) (s : State), (f x0 s).kcc = s.kcc) :
    (workCtrl job op action f s).kcc = s.kcc := by
  unfold workCtrl; (repeat' split) <;> first | rfl | exact hp .. | simp [*]
@[simp] theorem workCtrl_groups (job : Nat) (op : Nat) (action : Nat) (f : Job → State → State) (s : State) (hp : ∀ (x0 :
    Job) (s : State), (f x0 s).groups = s.groups) :
    (workCtrl job op action f s).groups = s.groups := by
  unfold workCtrl; (repeat' split) <;> first | rfl | exact hp .. | simp [*]
@[simp] theorem workCtrl_cells (job : Nat) (op : Nat) (action : Nat) (f : Job → State → State) (s : State) (hp : ∀ (x0 :
    Job) (s : State), (f x0 s).cells = s.cells) :
    (workCtrl job op action f s).cells = s.cells := by
  unfold workCtrl; (repeat' split) <;> first | rfl | exact hp .. | simp [*]
@[simp] theorem workCtrl_reads (job : Nat) (op : Nat) (action : Nat) (f : Job → State → State) (s : State) (hp : ∀ (x0 :
    Job) (s : State), (f x0 s).reads = s.reads) :
    (workCtrl job op action f s).reads = s.reads := by
  unfold workCtrl; (repeat' split) <;> first | rfl | exact hp .. | simp [*]
@[simp] theorem workCtrl_recoveries (job : Nat) (op : Nat) (action : Nat) (f : Job → State → State) (s : State) (hp : ∀
    (x0 : Job) (s : State), (f x0 s).recoveries = s.recoveries) :
    (workCtrl job op action f s).recoveries = s.recoveries := by
  unfold workCtrl; (repeat' split) <;> first | rfl | exact hp .. | simp [*]
@[simp] theorem workCtrl_nextRead (job : Nat) (op : Nat) (action : Nat) (f : Job → State → State) (s : State) (hp : ∀ (x0
    : Job) (s : State), (f x0 s).nextRead = s.nextRead) :
    (workCtrl job op action f s).nextRead = s.nextRead := by
  unfold workCtrl; (repeat' split) <;> first | rfl | exact hp .. | simp [*]
@[simp] theorem workCtrl_regs (job : Nat) (op : Nat) (action : Nat) (f : Job → State → State) (s : State) (hp : ∀ (x0 :
    Job) (s : State), (f x0 s).regs = s.regs) :
    (workCtrl job op action f s).regs = s.regs := by
  unfold workCtrl; (repeat' split) <;> first | rfl | exact hp .. | simp [*]
@[simp] theorem workCtrl_fresh (job : Nat) (op : Nat) (action : Nat) (f : Job → State → State) (s : State) (hp : ∀ (x0 :
    Job) (s : State), (f x0 s).fresh = s.fresh) :
    (workCtrl job op action f s).fresh = s.fresh := by
  unfold workCtrl; (repeat' split) <;> first | rfl | exact hp .. | simp [*]
@[simp] theorem rebuildStart_frame (j : Job) (s : State) :
    (rebuildStart j s).sys = s.sys ∧ (rebuildStart j s).clk = s.clk ∧ (rebuildStart j s).sec = s.sec ∧
    (rebuildStart j s).pwr = s.pwr ∧ (rebuildStart j s).cap = s.cap ∧ (rebuildStart j s).cache = s.cache ∧
    (rebuildStart j s).kcc = s.kcc ∧ (rebuildStart j s).groups = s.groups ∧ (rebuildStart j s).cells = s.cells ∧
    (rebuildStart j s).reads = s.reads ∧ (rebuildStart j s).recoveries = s.recoveries ∧
    (rebuildStart j s).nextRead = s.nextRead ∧ (rebuildStart j s).regs = s.regs ∧ (rebuildStart j s).fresh = s.fresh := by
  unfold rebuildStart; dsimp only; (repeat' split) <;> simp [*]
@[simp] theorem workJournal_frame (j : Job) (s : State) :
    (workJournal j s).sys = s.sys ∧ (workJournal j s).clk = s.clk ∧ (workJournal j s).sec = s.sec ∧
    (workJournal j s).pwr = s.pwr ∧ (workJournal j s).cap = s.cap ∧ (workJournal j s).cache = s.cache ∧
    (workJournal j s).kcc = s.kcc ∧ (workJournal j s).groups = s.groups ∧ (workJournal j s).cells = s.cells ∧
    (workJournal j s).reads = s.reads ∧ (workJournal j s).recoveries = s.recoveries ∧
    (workJournal j s).nextRead = s.nextRead ∧ (workJournal j s).regs = s.regs ∧ (workJournal j s).fresh = s.fresh := by
  simp [workJournal]
@[simp] theorem wayRestore_frame (j : Job) (s : State) :
    (wayRestore j s).sys = s.sys ∧ (wayRestore j s).clk = s.clk ∧ (wayRestore j s).sec = s.sec ∧
    (wayRestore j s).pwr = s.pwr ∧ (wayRestore j s).cap = s.cap ∧ (wayRestore j s).cache = s.cache ∧
    (wayRestore j s).kcc = s.kcc ∧ (wayRestore j s).groups = s.groups ∧ (wayRestore j s).cells = s.cells ∧
    (wayRestore j s).reads = s.reads ∧ (wayRestore j s).recoveries = s.recoveries ∧
    (wayRestore j s).nextRead = s.nextRead ∧ (wayRestore j s).regs = s.regs ∧ (wayRestore j s).fresh = s.fresh := by
  simp [wayRestore]
@[simp] theorem eventLogSet_frame (job : Nat) (on : Nat) (s : State) :
    (eventLogSet job on s).sys = s.sys ∧ (eventLogSet job on s).clk = s.clk ∧ (eventLogSet job on s).sec = s.sec ∧
    (eventLogSet job on s).pwr = s.pwr ∧ (eventLogSet job on s).cap = s.cap ∧ (eventLogSet job on s).cache = s.cache ∧
    (eventLogSet job on s).kcc = s.kcc ∧ (eventLogSet job on s).groups = s.groups ∧
    (eventLogSet job on s).cells = s.cells ∧ (eventLogSet job on s).reads = s.reads ∧
    (eventLogSet job on s).recoveries = s.recoveries ∧ (eventLogSet job on s).nextRead = s.nextRead ∧
    (eventLogSet job on s).regs = s.regs ∧ (eventLogSet job on s).fresh = s.fresh := by
  unfold eventLogSet; (repeat' split) <;> simp [*]
@[simp] theorem runWard_sys (id : Nat) (op : Nat) (f : WardId → Job → State → State) (s : State) (hp : ∀ (x0 : WardId) (x1
    : Job) (s : State), (f x0 x1 s).sys = s.sys) :
    (runWard id op f s).sys = s.sys := by
  unfold runWard; (repeat' split) <;> first | rfl | exact hp .. | simp [*]
@[simp] theorem runWard_clk (id : Nat) (op : Nat) (f : WardId → Job → State → State) (s : State) (hp : ∀ (x0 : WardId) (x1
    : Job) (s : State), (f x0 x1 s).clk = s.clk) :
    (runWard id op f s).clk = s.clk := by
  unfold runWard; (repeat' split) <;> first | rfl | exact hp .. | simp [*]
@[simp] theorem runWard_sec (id : Nat) (op : Nat) (f : WardId → Job → State → State) (s : State) (hp : ∀ (x0 : WardId) (x1
    : Job) (s : State), (f x0 x1 s).sec = s.sec) :
    (runWard id op f s).sec = s.sec := by
  unfold runWard; (repeat' split) <;> first | rfl | exact hp .. | simp [*]
@[simp] theorem runWard_pwr (id : Nat) (op : Nat) (f : WardId → Job → State → State) (s : State) (hp : ∀ (x0 : WardId) (x1
    : Job) (s : State), (f x0 x1 s).pwr = s.pwr) :
    (runWard id op f s).pwr = s.pwr := by
  unfold runWard; (repeat' split) <;> first | rfl | exact hp .. | simp [*]
@[simp] theorem runWard_cap (id : Nat) (op : Nat) (f : WardId → Job → State → State) (s : State) (hp : ∀ (x0 : WardId) (x1
    : Job) (s : State), (f x0 x1 s).cap = s.cap) :
    (runWard id op f s).cap = s.cap := by
  unfold runWard; (repeat' split) <;> first | rfl | exact hp .. | simp [*]
@[simp] theorem runWard_cache (id : Nat) (op : Nat) (f : WardId → Job → State → State) (s : State) (hp : ∀ (x0 : WardId)
    (x1 : Job) (s : State), (f x0 x1 s).cache = s.cache) :
    (runWard id op f s).cache = s.cache := by
  unfold runWard; (repeat' split) <;> first | rfl | exact hp .. | simp [*]
@[simp] theorem runWard_kcc (id : Nat) (op : Nat) (f : WardId → Job → State → State) (s : State) (hp : ∀ (x0 : WardId) (x1
    : Job) (s : State), (f x0 x1 s).kcc = s.kcc) :
    (runWard id op f s).kcc = s.kcc := by
  unfold runWard; (repeat' split) <;> first | rfl | exact hp .. | simp [*]
@[simp] theorem runWard_ledger (id : Nat) (op : Nat) (f : WardId → Job → State → State) (s : State) (hp : ∀ (x0 : WardId)
    (x1 : Job) (s : State), (f x0 x1 s).ledger = s.ledger) :
    (runWard id op f s).ledger = s.ledger := by
  unfold runWard; (repeat' split) <;> first | rfl | exact hp .. | simp [*]
@[simp] theorem runWard_groups (id : Nat) (op : Nat) (f : WardId → Job → State → State) (s : State) (hp : ∀ (x0 : WardId)
    (x1 : Job) (s : State), (f x0 x1 s).groups = s.groups) :
    (runWard id op f s).groups = s.groups := by
  unfold runWard; (repeat' split) <;> first | rfl | exact hp .. | simp [*]
@[simp] theorem runWard_cells (id : Nat) (op : Nat) (f : WardId → Job → State → State) (s : State) (hp : ∀ (x0 : WardId)
    (x1 : Job) (s : State), (f x0 x1 s).cells = s.cells) :
    (runWard id op f s).cells = s.cells := by
  unfold runWard; (repeat' split) <;> first | rfl | exact hp .. | simp [*]
@[simp] theorem runWard_reads (id : Nat) (op : Nat) (f : WardId → Job → State → State) (s : State) (hp : ∀ (x0 : WardId)
    (x1 : Job) (s : State), (f x0 x1 s).reads = s.reads) :
    (runWard id op f s).reads = s.reads := by
  unfold runWard; (repeat' split) <;> first | rfl | exact hp .. | simp [*]
@[simp] theorem runWard_recoveries (id : Nat) (op : Nat) (f : WardId → Job → State → State) (s : State) (hp : ∀ (x0 :
    WardId) (x1 : Job) (s : State), (f x0 x1 s).recoveries = s.recoveries) :
    (runWard id op f s).recoveries = s.recoveries := by
  unfold runWard; (repeat' split) <;> first | rfl | exact hp .. | simp [*]
@[simp] theorem runWard_nextRead (id : Nat) (op : Nat) (f : WardId → Job → State → State) (s : State) (hp : ∀ (x0 :
    WardId) (x1 : Job) (s : State), (f x0 x1 s).nextRead = s.nextRead) :
    (runWard id op f s).nextRead = s.nextRead := by
  unfold runWard; (repeat' split) <;> first | rfl | exact hp .. | simp [*]
@[simp] theorem runWard_regs (id : Nat) (op : Nat) (f : WardId → Job → State → State) (s : State) (hp : ∀ (x0 : WardId)
    (x1 : Job) (s : State), (f x0 x1 s).regs = s.regs) :
    (runWard id op f s).regs = s.regs := by
  unfold runWard; (repeat' split) <;> first | rfl | exact hp .. | simp [*]
@[simp] theorem runWard_fresh (id : Nat) (op : Nat) (f : WardId → Job → State → State) (s : State) (hp : ∀ (x0 : WardId)
    (x1 : Job) (s : State), (f x0 x1 s).fresh = s.fresh) :
    (runWard id op f s).fresh = s.fresh := by
  unfold runWard; (repeat' split) <;> first | rfl | exact hp .. | simp [*]
@[simp] theorem askFirst_frame (w : WardId) (space : Nat) (b : Nat) (id : Nat) (i : Nat) (s : State) :
    (askFirst w space b id i s).sys = s.sys ∧ (askFirst w space b id i s).clk = s.clk ∧
    (askFirst w space b id i s).sec = s.sec ∧ (askFirst w space b id i s).pwr = s.pwr ∧
    (askFirst w space b id i s).cap = s.cap ∧ (askFirst w space b id i s).kcc = s.kcc ∧
    (askFirst w space b id i s).ledger = s.ledger ∧ (askFirst w space b id i s).groups = s.groups ∧
    (askFirst w space b id i s).regs = s.regs ∧ (askFirst w space b id i s).fresh = s.fresh := by
  unfold askFirst; (repeat' split) <;> simp [*]
@[simp] theorem countHits_frame (w : WardId) (space : Nat) (first : Nat) (count : Nat) (s : State) :
    (countHits w space first count s).sys = s.sys ∧ (countHits w space first count s).clk = s.clk ∧
    (countHits w space first count s).sec = s.sec ∧ (countHits w space first count s).pwr = s.pwr ∧
    (countHits w space first count s).host = s.host ∧ (countHits w space first count s).ring = s.ring ∧
    (countHits w space first count s).wards = s.wards ∧ (countHits w space first count s).cap = s.cap ∧
    (countHits w space first count s).kcc = s.kcc ∧ (countHits w space first count s).ledger = s.ledger ∧
    (countHits w space first count s).groups = s.groups ∧ (countHits w space first count s).cells = s.cells ∧
    (countHits w space first count s).reads = s.reads ∧ (countHits w space first count s).recoveries = s.recoveries ∧
    (countHits w space first count s).nextRead = s.nextRead ∧ (countHits w space first count s).pin = s.pin ∧
    (countHits w space first count s).regs = s.regs ∧ (countHits w space first count s).fresh = s.fresh := by
  simp [countHits]
@[simp] theorem beginRead_frame (w : WardId) (keys : BitVec 512) (j : Job) (s : State) :
    (beginRead w keys j s).sys = s.sys ∧ (beginRead w keys j s).clk = s.clk ∧ (beginRead w keys j s).sec = s.sec ∧
    (beginRead w keys j s).pwr = s.pwr ∧ (beginRead w keys j s).cap = s.cap ∧ (beginRead w keys j s).kcc = s.kcc ∧
    (beginRead w keys j s).ledger = s.ledger ∧ (beginRead w keys j s).groups = s.groups ∧
    (beginRead w keys j s).regs = s.regs ∧ (beginRead w keys j s).fresh = s.fresh := by
  unfold beginRead; dsimp only; (repeat' split) <;> simp [*]
@[simp] theorem readCmd_frame (tagFail : Option Nat) (w : WardId) (j : Job) (s : State) :
    (readCmd tagFail w j s).sys = s.sys ∧ (readCmd tagFail w j s).clk = s.clk ∧ (readCmd tagFail w j s).sec = s.sec ∧
    (readCmd tagFail w j s).cap = s.cap ∧ (readCmd tagFail w j s).regs = s.regs ∧
    (readCmd tagFail w j s).fresh = s.fresh := by
  unfold readCmd; (repeat' split) <;> simp [*]
@[simp] theorem writeCmd_frame (w : WardId) (j : Job) (s : State) :
    (writeCmd w j s).sys = s.sys ∧ (writeCmd w j s).clk = s.clk ∧ (writeCmd w j s).sec = s.sec ∧
    (writeCmd w j s).pwr = s.pwr ∧ (writeCmd w j s).cap = s.cap ∧ (writeCmd w j s).cache = s.cache ∧
    (writeCmd w j s).kcc = s.kcc ∧ (writeCmd w j s).groups = s.groups ∧ (writeCmd w j s).cells = s.cells ∧
    (writeCmd w j s).reads = s.reads ∧ (writeCmd w j s).recoveries = s.recoveries ∧
    (writeCmd w j s).nextRead = s.nextRead ∧ (writeCmd w j s).regs = s.regs ∧ (writeCmd w j s).fresh = s.fresh := by
  unfold writeCmd; (repeat' split) <;> simp [*]
@[simp] theorem trimCmd_frame (w : WardId) (j : Job) (s : State) :
    (trimCmd w j s).sys = s.sys ∧ (trimCmd w j s).clk = s.clk ∧ (trimCmd w j s).sec = s.sec ∧
    (trimCmd w j s).pwr = s.pwr ∧ (trimCmd w j s).cap = s.cap ∧ (trimCmd w j s).cache = s.cache ∧
    (trimCmd w j s).kcc = s.kcc ∧ (trimCmd w j s).groups = s.groups ∧ (trimCmd w j s).cells = s.cells ∧
    (trimCmd w j s).reads = s.reads ∧ (trimCmd w j s).recoveries = s.recoveries ∧ (trimCmd w j s).nextRead = s.nextRead ∧
    (trimCmd w j s).regs = s.regs ∧ (trimCmd w j s).fresh = s.fresh := by
  unfold trimCmd; (repeat' split) <;> simp [*]
@[simp] theorem slotBad_frame (w : WardId) (j : Job) (s : State) :
    (slotBad w j s).sys = s.sys ∧ (slotBad w j s).clk = s.clk ∧ (slotBad w j s).sec = s.sec ∧
    (slotBad w j s).pwr = s.pwr ∧ (slotBad w j s).cap = s.cap ∧ (slotBad w j s).cache = s.cache ∧
    (slotBad w j s).kcc = s.kcc ∧ (slotBad w j s).ledger = s.ledger ∧ (slotBad w j s).groups = s.groups ∧
    (slotBad w j s).cells = s.cells ∧ (slotBad w j s).reads = s.reads ∧ (slotBad w j s).recoveries = s.recoveries ∧
    (slotBad w j s).nextRead = s.nextRead ∧ (slotBad w j s).regs = s.regs ∧ (slotBad w j s).fresh = s.fresh := by
  simp [slotBad]
@[simp] theorem openCmd_frame (intact : Bool) (w : WardId) (j : Job) (s : State) :
    (openCmd intact w j s).sys = s.sys ∧ (openCmd intact w j s).clk = s.clk ∧ (openCmd intact w j s).sec = s.sec ∧
    (openCmd intact w j s).pwr = s.pwr ∧ (openCmd intact w j s).cap = s.cap ∧ (openCmd intact w j s).cache = s.cache ∧
    (openCmd intact w j s).kcc = s.kcc ∧ (openCmd intact w j s).ledger = s.ledger ∧
    (openCmd intact w j s).groups = s.groups ∧ (openCmd intact w j s).cells = s.cells ∧
    (openCmd intact w j s).reads = s.reads ∧ (openCmd intact w j s).recoveries = s.recoveries ∧
    (openCmd intact w j s).nextRead = s.nextRead ∧ (openCmd intact w j s).regs = s.regs ∧
    (openCmd intact w j s).fresh = s.fresh := by
  unfold openCmd; dsimp only; (repeat' split) <;> simp [*]
@[simp] theorem sealCmd_frame (w : WardId) (j : Job) (s : State) :
    (sealCmd w j s).sys = s.sys ∧ (sealCmd w j s).clk = s.clk ∧ (sealCmd w j s).sec = s.sec ∧
    (sealCmd w j s).pwr = s.pwr ∧ (sealCmd w j s).cap = s.cap ∧ (sealCmd w j s).cache = s.cache ∧
    (sealCmd w j s).kcc = s.kcc ∧ (sealCmd w j s).ledger = s.ledger ∧ (sealCmd w j s).groups = s.groups ∧
    (sealCmd w j s).cells = s.cells ∧ (sealCmd w j s).reads = s.reads ∧ (sealCmd w j s).recoveries = s.recoveries ∧
    (sealCmd w j s).nextRead = s.nextRead ∧ (sealCmd w j s).regs = s.regs ∧ (sealCmd w j s).fresh = s.fresh := by
  simp [sealCmd]
@[simp] theorem credCmd_frame (intact : Bool) (w : WardId) (j : Job) (s : State) :
    (credCmd intact w j s).sys = s.sys ∧ (credCmd intact w j s).clk = s.clk ∧ (credCmd intact w j s).sec = s.sec ∧
    (credCmd intact w j s).pwr = s.pwr ∧ (credCmd intact w j s).cap = s.cap ∧ (credCmd intact w j s).cache = s.cache ∧
    (credCmd intact w j s).kcc = s.kcc ∧ (credCmd intact w j s).groups = s.groups ∧
    (credCmd intact w j s).cells = s.cells ∧ (credCmd intact w j s).reads = s.reads ∧
    (credCmd intact w j s).recoveries = s.recoveries ∧ (credCmd intact w j s).nextRead = s.nextRead ∧
    (credCmd intact w j s).regs = s.regs ∧ (credCmd intact w j s).fresh = s.fresh := by
  simp [credCmd]
@[simp] theorem startWrite_frame (c : CellId) (s : State) :
    (startWrite c s).sys = s.sys ∧ (startWrite c s).clk = s.clk ∧ (startWrite c s).sec = s.sec ∧
    (startWrite c s).pwr = s.pwr ∧ (startWrite c s).host = s.host ∧ (startWrite c s).ring = s.ring ∧
    (startWrite c s).wards = s.wards ∧ (startWrite c s).cap = s.cap ∧ (startWrite c s).cache = s.cache ∧
    (startWrite c s).kcc = s.kcc ∧ (startWrite c s).ledger = s.ledger ∧ (startWrite c s).groups = s.groups ∧
    (startWrite c s).reads = s.reads ∧ (startWrite c s).recoveries = s.recoveries ∧
    (startWrite c s).nextRead = s.nextRead ∧ (startWrite c s).pin = s.pin ∧ (startWrite c s).regs = s.regs ∧
    (startWrite c s).fresh = s.fresh := by
  unfold startWrite; dsimp only; (repeat' split) <;> simp [*]
@[simp] theorem settleSub_frame (a : SubAddr) (s : State) :
    (settleSub a s).sys = s.sys ∧ (settleSub a s).clk = s.clk ∧ (settleSub a s).sec = s.sec ∧
    (settleSub a s).pwr = s.pwr ∧ (settleSub a s).host = s.host ∧ (settleSub a s).ring = s.ring ∧
    (settleSub a s).wards = s.wards ∧ (settleSub a s).cap = s.cap ∧ (settleSub a s).kcc = s.kcc ∧
    (settleSub a s).ledger = s.ledger ∧ (settleSub a s).groups = s.groups ∧ (settleSub a s).cells = s.cells ∧
    (settleSub a s).reads = s.reads ∧ (settleSub a s).recoveries = s.recoveries ∧ (settleSub a s).nextRead = s.nextRead ∧
    (settleSub a s).obs = s.obs ∧ (settleSub a s).pin = s.pin ∧ (settleSub a s).regs = s.regs ∧
    (settleSub a s).fresh = s.fresh := by
  simp [settleSub]
@[simp] theorem destageLost_frame (a : SubAddr) (s : State) :
    (destageLost a s).sys = s.sys ∧ (destageLost a s).clk = s.clk ∧ (destageLost a s).sec = s.sec ∧
    (destageLost a s).pwr = s.pwr ∧ (destageLost a s).host = s.host ∧ (destageLost a s).ring = s.ring ∧
    (destageLost a s).wards = s.wards ∧ (destageLost a s).cap = s.cap ∧ (destageLost a s).kcc = s.kcc ∧
    (destageLost a s).groups = s.groups ∧ (destageLost a s).cells = s.cells ∧ (destageLost a s).reads = s.reads ∧
    (destageLost a s).recoveries = s.recoveries ∧ (destageLost a s).nextRead = s.nextRead ∧
    (destageLost a s).obs = s.obs ∧ (destageLost a s).pin = s.pin ∧ (destageLost a s).regs = s.regs ∧
    (destageLost a s).fresh = s.fresh := by
  simp [destageLost]
@[simp] theorem beginDestage_frame (a : SubAddr) (x : Sector) (s : State) :
    (beginDestage a x s).sys = s.sys ∧ (beginDestage a x s).clk = s.clk ∧ (beginDestage a x s).sec = s.sec ∧
    (beginDestage a x s).pwr = s.pwr ∧ (beginDestage a x s).host = s.host ∧ (beginDestage a x s).ring = s.ring ∧
    (beginDestage a x s).wards = s.wards ∧ (beginDestage a x s).cap = s.cap ∧ (beginDestage a x s).cache = s.cache ∧
    (beginDestage a x s).kcc = s.kcc ∧ (beginDestage a x s).ledger = s.ledger ∧ (beginDestage a x s).groups = s.groups ∧
    (beginDestage a x s).reads = s.reads ∧ (beginDestage a x s).recoveries = s.recoveries ∧
    (beginDestage a x s).pin = s.pin ∧ (beginDestage a x s).regs = s.regs ∧ (beginDestage a x s).fresh = s.fresh := by
  simp [beginDestage]
@[simp] theorem destageData_frame (a : SubAddr) (s : State) :
    (destageData a s).sys = s.sys ∧ (destageData a s).clk = s.clk ∧ (destageData a s).sec = s.sec ∧
    (destageData a s).pwr = s.pwr ∧ (destageData a s).host = s.host ∧ (destageData a s).ring = s.ring ∧
    (destageData a s).wards = s.wards ∧ (destageData a s).cap = s.cap ∧ (destageData a s).kcc = s.kcc ∧
    (destageData a s).ledger = s.ledger ∧ (destageData a s).groups = s.groups ∧ (destageData a s).reads = s.reads ∧
    (destageData a s).recoveries = s.recoveries ∧ (destageData a s).pin = s.pin ∧ (destageData a s).regs = s.regs ∧
    (destageData a s).fresh = s.fresh := by
  unfold destageData; (repeat' split) <;> simp [*]
@[simp] theorem destageParity_frame (a : SubAddr) (s : State) :
    (destageParity a s).sys = s.sys ∧ (destageParity a s).clk = s.clk ∧ (destageParity a s).sec = s.sec ∧
    (destageParity a s).pwr = s.pwr ∧ (destageParity a s).host = s.host ∧ (destageParity a s).ring = s.ring ∧
    (destageParity a s).wards = s.wards ∧ (destageParity a s).cap = s.cap ∧ (destageParity a s).kcc = s.kcc ∧
    (destageParity a s).ledger = s.ledger ∧ (destageParity a s).groups = s.groups ∧
    (destageParity a s).recoveries = s.recoveries ∧ (destageParity a s).pin = s.pin ∧ (destageParity a s).regs = s.regs ∧
    (destageParity a s).fresh = s.fresh := by
  unfold destageParity; (repeat' split) <;> simp [*]
@[simp] theorem destageStart_frame (a : SubAddr) (s : State) :
    (destageStart a s).sys = s.sys ∧ (destageStart a s).clk = s.clk ∧ (destageStart a s).sec = s.sec ∧
    (destageStart a s).pwr = s.pwr ∧ (destageStart a s).host = s.host ∧ (destageStart a s).ring = s.ring ∧
    (destageStart a s).wards = s.wards ∧ (destageStart a s).cap = s.cap ∧ (destageStart a s).kcc = s.kcc ∧
    (destageStart a s).groups = s.groups ∧ (destageStart a s).recoveries = s.recoveries ∧ (destageStart a s).pin = s.pin ∧
    (destageStart a s).regs = s.regs ∧ (destageStart a s).fresh = s.fresh := by
  unfold destageStart; (repeat' split) <;> simp [*]
@[simp] theorem subWritten_frame (a : SubAddr) (x : Sector) (s : State) :
    (subWritten a x s).sys = s.sys ∧ (subWritten a x s).clk = s.clk ∧ (subWritten a x s).sec = s.sec ∧
    (subWritten a x s).pwr = s.pwr ∧ (subWritten a x s).host = s.host ∧ (subWritten a x s).ring = s.ring ∧
    (subWritten a x s).wards = s.wards ∧ (subWritten a x s).cap = s.cap ∧ (subWritten a x s).kcc = s.kcc ∧
    (subWritten a x s).groups = s.groups ∧ (subWritten a x s).cells = s.cells ∧ (subWritten a x s).reads = s.reads ∧
    (subWritten a x s).recoveries = s.recoveries ∧ (subWritten a x s).nextRead = s.nextRead ∧
    (subWritten a x s).obs = s.obs ∧ (subWritten a x s).pin = s.pin ∧ (subWritten a x s).regs = s.regs ∧
    (subWritten a x s).fresh = s.fresh := by
  simp [subWritten]
@[simp] theorem takeWrite_frame (c : CellId) (k : Nat) (s : State) :
    (takeWrite c k s).sys = s.sys ∧ (takeWrite c k s).clk = s.clk ∧ (takeWrite c k s).sec = s.sec ∧
    (takeWrite c k s).pwr = s.pwr ∧ (takeWrite c k s).host = s.host ∧ (takeWrite c k s).ring = s.ring ∧
    (takeWrite c k s).wards = s.wards ∧ (takeWrite c k s).cap = s.cap ∧ (takeWrite c k s).cache = s.cache ∧
    (takeWrite c k s).kcc = s.kcc ∧ (takeWrite c k s).ledger = s.ledger ∧ (takeWrite c k s).groups = s.groups ∧
    (takeWrite c k s).reads = s.reads ∧ (takeWrite c k s).recoveries = s.recoveries ∧
    (takeWrite c k s).nextRead = s.nextRead ∧ (takeWrite c k s).pin = s.pin ∧ (takeWrite c k s).regs = s.regs ∧
    (takeWrite c k s).fresh = s.fresh := by
  simp [takeWrite]
@[simp] theorem repairDone_frame (c : CellId) (q : QWrite) (s : State) :
    (repairDone c q s).clk = s.clk ∧ (repairDone c q s).sec = s.sec ∧ (repairDone c q s).pwr = s.pwr ∧
    (repairDone c q s).host = s.host ∧ (repairDone c q s).ring = s.ring ∧ (repairDone c q s).wards = s.wards ∧
    (repairDone c q s).cap = s.cap ∧ (repairDone c q s).cache = s.cache ∧ (repairDone c q s).kcc = s.kcc ∧
    (repairDone c q s).groups = s.groups ∧ (repairDone c q s).recoveries = s.recoveries ∧ (repairDone c q s).pin = s.pin ∧
    (repairDone c q s).regs = s.regs ∧ (repairDone c q s).fresh = s.fresh := by
  simp [repairDone]
@[simp] theorem writeDone_frame (c : CellId) (q : QWrite) (s : State) :
    (writeDone c q s).clk = s.clk ∧ (writeDone c q s).sec = s.sec ∧ (writeDone c q s).pwr = s.pwr ∧
    (writeDone c q s).cap = s.cap ∧ (writeDone c q s).kcc = s.kcc ∧ (writeDone c q s).groups = s.groups ∧
    (writeDone c q s).regs = s.regs ∧ (writeDone c q s).fresh = s.fresh := by
  simp [writeDone]
@[simp] theorem retireWay_frame (v : Fin 16) (kind : EccKind) (s : State) :
    (retireWay v kind s).sys = s.sys ∧ (retireWay v kind s).clk = s.clk ∧ (retireWay v kind s).sec = s.sec ∧
    (retireWay v kind s).cap = s.cap ∧ (retireWay v kind s).kcc = s.kcc ∧ (retireWay v kind s).nextRead = s.nextRead ∧
    (retireWay v kind s).regs = s.regs ∧ (retireWay v kind s).fresh = s.fresh := by
  simp [retireWay]
@[simp] theorem eccError_frame (v : Fin 16) (kind : EccKind) (s : State) :
    (eccError v kind s).sys = s.sys ∧ (eccError v kind s).clk = s.clk ∧ (eccError v kind s).sec = s.sec ∧
    (eccError v kind s).cap = s.cap ∧ (eccError v kind s).kcc = s.kcc ∧ (eccError v kind s).nextRead = s.nextRead ∧
    (eccError v kind s).regs = s.regs ∧ (eccError v kind s).fresh = s.fresh := by
  unfold eccError; (repeat' split) <;> simp [*]
@[simp] theorem wayRetires_frame (v : Fin 16) (kind : EccKind) (s : State) :
    (wayRetires v kind s).sys = s.sys ∧ (wayRetires v kind s).clk = s.clk ∧ (wayRetires v kind s).sec = s.sec ∧
    (wayRetires v kind s).cap = s.cap ∧ (wayRetires v kind s).kcc = s.kcc ∧ (wayRetires v kind s).nextRead = s.nextRead ∧
    (wayRetires v kind s).regs = s.regs ∧ (wayRetires v kind s).fresh = s.fresh := by
  unfold wayRetires; (repeat' split) <;> simp [*]
@[simp] theorem queueStripe_frame (g : GroupId) (stripe : Nat) (s : State) :
    (queueStripe g stripe s).sys = s.sys ∧ (queueStripe g stripe s).clk = s.clk ∧ (queueStripe g stripe s).sec = s.sec ∧
    (queueStripe g stripe s).pwr = s.pwr ∧ (queueStripe g stripe s).host = s.host ∧
    (queueStripe g stripe s).ring = s.ring ∧ (queueStripe g stripe s).wards = s.wards ∧
    (queueStripe g stripe s).cap = s.cap ∧ (queueStripe g stripe s).kcc = s.kcc ∧
    (queueStripe g stripe s).ledger = s.ledger ∧ (queueStripe g stripe s).groups = s.groups ∧
    (queueStripe g stripe s).cells = s.cells ∧ (queueStripe g stripe s).reads = s.reads ∧
    (queueStripe g stripe s).recoveries = s.recoveries ∧ (queueStripe g stripe s).nextRead = s.nextRead ∧
    (queueStripe g stripe s).obs = s.obs ∧ (queueStripe g stripe s).pin = s.pin ∧ (queueStripe g stripe s).regs = s.regs ∧
    (queueStripe g stripe s).fresh = s.fresh := by
  simp [queueStripe]
@[simp] theorem putSector_frame (c : CellId) (a : SubAddr) (x : Sector) (s : State) :
    (putSector c a x s).clk = s.clk ∧ (putSector c a x s).sec = s.sec ∧ (putSector c a x s).pwr = s.pwr ∧
    (putSector c a x s).host = s.host ∧ (putSector c a x s).ring = s.ring ∧ (putSector c a x s).wards = s.wards ∧
    (putSector c a x s).cap = s.cap ∧ (putSector c a x s).cache = s.cache ∧ (putSector c a x s).kcc = s.kcc ∧
    (putSector c a x s).groups = s.groups ∧ (putSector c a x s).reads = s.reads ∧
    (putSector c a x s).recoveries = s.recoveries ∧ (putSector c a x s).nextRead = s.nextRead ∧
    (putSector c a x s).pin = s.pin ∧ (putSector c a x s).regs = s.regs ∧ (putSector c a x s).fresh = s.fresh := by
  simp [putSector]
@[simp] theorem writeColumn_frame (c : CellId) (g : GroupId) (stripe : Nat) (col : Nat) (f : Nat → Sector) (s : State) :
    (writeColumn c g stripe col f s).clk = s.clk ∧ (writeColumn c g stripe col f s).sec = s.sec ∧
    (writeColumn c g stripe col f s).pwr = s.pwr ∧ (writeColumn c g stripe col f s).host = s.host ∧
    (writeColumn c g stripe col f s).ring = s.ring ∧ (writeColumn c g stripe col f s).wards = s.wards ∧
    (writeColumn c g stripe col f s).cap = s.cap ∧ (writeColumn c g stripe col f s).cache = s.cache ∧
    (writeColumn c g stripe col f s).kcc = s.kcc ∧ (writeColumn c g stripe col f s).groups = s.groups ∧
    (writeColumn c g stripe col f s).reads = s.reads ∧ (writeColumn c g stripe col f s).recoveries = s.recoveries ∧
    (writeColumn c g stripe col f s).nextRead = s.nextRead ∧ (writeColumn c g stripe col f s).pin = s.pin ∧
    (writeColumn c g stripe col f s).regs = s.regs ∧ (writeColumn c g stripe col f s).fresh = s.fresh := by
  simp [writeColumn]
@[simp] theorem rebuildEnd_frame (g : GroupId) (s : State) :
    (rebuildEnd g s).sys = s.sys ∧ (rebuildEnd g s).clk = s.clk ∧ (rebuildEnd g s).sec = s.sec ∧
    (rebuildEnd g s).pwr = s.pwr ∧ (rebuildEnd g s).host = s.host ∧ (rebuildEnd g s).ring = s.ring ∧
    (rebuildEnd g s).wards = s.wards ∧ (rebuildEnd g s).cap = s.cap ∧ (rebuildEnd g s).cache = s.cache ∧
    (rebuildEnd g s).kcc = s.kcc ∧ (rebuildEnd g s).ledger = s.ledger ∧ (rebuildEnd g s).cells = s.cells ∧
    (rebuildEnd g s).reads = s.reads ∧ (rebuildEnd g s).recoveries = s.recoveries ∧
    (rebuildEnd g s).nextRead = s.nextRead ∧ (rebuildEnd g s).regs = s.regs ∧ (rebuildEnd g s).fresh = s.fresh := by
  unfold rebuildEnd; dsimp only; (repeat' split) <;> simp [*]
@[simp] theorem spareColumn_frame (g : Group) (stripe : Nat) (s : State) :
    (spareColumn g stripe s).2.sys = s.sys ∧ (spareColumn g stripe s).2.clk = s.clk ∧
    (spareColumn g stripe s).2.sec = s.sec ∧ (spareColumn g stripe s).2.pwr = s.pwr ∧
    (spareColumn g stripe s).2.host = s.host ∧ (spareColumn g stripe s).2.ring = s.ring ∧
    (spareColumn g stripe s).2.wards = s.wards ∧ (spareColumn g stripe s).2.cap = s.cap ∧
    (spareColumn g stripe s).2.cache = s.cache ∧ (spareColumn g stripe s).2.kcc = s.kcc ∧
    (spareColumn g stripe s).2.ledger = s.ledger ∧ (spareColumn g stripe s).2.groups = s.groups ∧
    (spareColumn g stripe s).2.cells = s.cells ∧ (spareColumn g stripe s).2.reads = s.reads ∧
    (spareColumn g stripe s).2.recoveries = s.recoveries ∧ (spareColumn g stripe s).2.nextRead = s.nextRead ∧
    (spareColumn g stripe s).2.obs = s.obs ∧ (spareColumn g stripe s).2.pin = s.pin ∧
    (spareColumn g stripe s).2.regs = s.regs := by
  unfold spareColumn; (repeat' split) <;> simp [*]
@[simp] theorem initStripe_frame (g : GroupId) (s : State) :
    (initStripe g s).clk = s.clk ∧ (initStripe g s).sec = s.sec ∧ (initStripe g s).pwr = s.pwr ∧
    (initStripe g s).host = s.host ∧ (initStripe g s).ring = s.ring ∧ (initStripe g s).wards = s.wards ∧
    (initStripe g s).cap = s.cap ∧ (initStripe g s).cache = s.cache ∧ (initStripe g s).kcc = s.kcc ∧
    (initStripe g s).reads = s.reads ∧ (initStripe g s).recoveries = s.recoveries ∧
    (initStripe g s).nextRead = s.nextRead ∧ (initStripe g s).regs = s.regs := by
  unfold initStripe; dsimp only; (repeat' split) <;> simp [*]
@[simp] theorem keepRow_frame (cls : Nat) (a : SubAddr) (x : Sector) (s : State) :
    (keepRow cls a x s).sys = s.sys ∧ (keepRow cls a x s).clk = s.clk ∧ (keepRow cls a x s).sec = s.sec ∧
    (keepRow cls a x s).pwr = s.pwr ∧ (keepRow cls a x s).host = s.host ∧ (keepRow cls a x s).ring = s.ring ∧
    (keepRow cls a x s).wards = s.wards ∧ (keepRow cls a x s).cap = s.cap ∧ (keepRow cls a x s).kcc = s.kcc ∧
    (keepRow cls a x s).ledger = s.ledger ∧ (keepRow cls a x s).groups = s.groups ∧ (keepRow cls a x s).cells = s.cells ∧
    (keepRow cls a x s).reads = s.reads ∧ (keepRow cls a x s).recoveries = s.recoveries ∧
    (keepRow cls a x s).nextRead = s.nextRead ∧ (keepRow cls a x s).pin = s.pin ∧ (keepRow cls a x s).regs = s.regs ∧
    (keepRow cls a x s).fresh = s.fresh := by
  simp [keepRow]
@[simp] theorem readCol_frame (cls : Nat) (x : Group) (a : SubAddr) (row : List RowRead) (c : Nat) (s : State) :
    (readCol cls x a row c s).2.sys = s.sys ∧ (readCol cls x a row c s).2.clk = s.clk ∧
    (readCol cls x a row c s).2.sec = s.sec ∧ (readCol cls x a row c s).2.pwr = s.pwr ∧
    (readCol cls x a row c s).2.host = s.host ∧ (readCol cls x a row c s).2.ring = s.ring ∧
    (readCol cls x a row c s).2.wards = s.wards ∧ (readCol cls x a row c s).2.cap = s.cap ∧
    (readCol cls x a row c s).2.kcc = s.kcc ∧ (readCol cls x a row c s).2.ledger = s.ledger ∧
    (readCol cls x a row c s).2.groups = s.groups ∧ (readCol cls x a row c s).2.reads = s.reads ∧
    (readCol cls x a row c s).2.recoveries = s.recoveries ∧ (readCol cls x a row c s).2.pin = s.pin ∧
    (readCol cls x a row c s).2.regs = s.regs ∧ (readCol cls x a row c s).2.fresh = s.fresh := by
  unfold readCol; dsimp only; (repeat' split) <;> simp [*]
@[simp] theorem readNext_frame (cls : Nat) (x : Group) (a : SubAddr) (row : List RowRead) (enough : List (Nat × Sector) →
    Bool) (acc : List (Nat × Sector) × State) (c : Nat) :
    (readNext cls x a row enough acc c).2.sys = acc.2.sys ∧ (readNext cls x a row enough acc c).2.clk = acc.2.clk ∧
    (readNext cls x a row enough acc c).2.sec = acc.2.sec ∧ (readNext cls x a row enough acc c).2.pwr = acc.2.pwr ∧
    (readNext cls x a row enough acc c).2.host = acc.2.host ∧ (readNext cls x a row enough acc c).2.ring = acc.2.ring ∧
    (readNext cls x a row enough acc c).2.wards = acc.2.wards ∧ (readNext cls x a row enough acc c).2.cap = acc.2.cap ∧
    (readNext cls x a row enough acc c).2.kcc = acc.2.kcc ∧ (readNext cls x a row enough acc c).2.ledger = acc.2.ledger ∧
    (readNext cls x a row enough acc c).2.groups = acc.2.groups ∧
    (readNext cls x a row enough acc c).2.reads = acc.2.reads ∧
    (readNext cls x a row enough acc c).2.recoveries = acc.2.recoveries ∧
    (readNext cls x a row enough acc c).2.pin = acc.2.pin ∧ (readNext cls x a row enough acc c).2.regs = acc.2.regs ∧
    (readNext cls x a row enough acc c).2.fresh = acc.2.fresh := by
  unfold readNext; (repeat' split) <;> simp [*]
@[simp] theorem readCols_frame (cls : Nat) (x : Group) (a : SubAddr) (row : List RowRead) (enough : List (Nat × Sector) →
    Bool) (cols : List Nat) (acc : List (Nat × Sector) × State) :
    (readCols cls x a row enough cols acc).2.sys = acc.2.sys ∧ (readCols cls x a row enough cols acc).2.clk = acc.2.clk ∧
    (readCols cls x a row enough cols acc).2.sec = acc.2.sec ∧ (readCols cls x a row enough cols acc).2.pwr = acc.2.pwr ∧
    (readCols cls x a row enough cols acc).2.host = acc.2.host ∧
    (readCols cls x a row enough cols acc).2.ring = acc.2.ring ∧
    (readCols cls x a row enough cols acc).2.wards = acc.2.wards ∧
    (readCols cls x a row enough cols acc).2.cap = acc.2.cap ∧ (readCols cls x a row enough cols acc).2.kcc = acc.2.kcc ∧
    (readCols cls x a row enough cols acc).2.ledger = acc.2.ledger ∧
    (readCols cls x a row enough cols acc).2.groups = acc.2.groups ∧
    (readCols cls x a row enough cols acc).2.reads = acc.2.reads ∧
    (readCols cls x a row enough cols acc).2.recoveries = acc.2.recoveries ∧
    (readCols cls x a row enough cols acc).2.pin = acc.2.pin ∧
    (readCols cls x a row enough cols acc).2.regs = acc.2.regs ∧
    (readCols cls x a row enough cols acc).2.fresh = acc.2.fresh := by
  simp [readCols]
@[simp] theorem readRow_frame (cls : Nat) (own : Nat) (x : Group) (a : SubAddr) (row : List RowRead) (s : State) :
    (readRow cls own x a row s).2.sys = s.sys ∧ (readRow cls own x a row s).2.clk = s.clk ∧
    (readRow cls own x a row s).2.sec = s.sec ∧ (readRow cls own x a row s).2.pwr = s.pwr ∧
    (readRow cls own x a row s).2.host = s.host ∧ (readRow cls own x a row s).2.ring = s.ring ∧
    (readRow cls own x a row s).2.wards = s.wards ∧ (readRow cls own x a row s).2.cap = s.cap ∧
    (readRow cls own x a row s).2.kcc = s.kcc ∧ (readRow cls own x a row s).2.ledger = s.ledger ∧
    (readRow cls own x a row s).2.groups = s.groups ∧ (readRow cls own x a row s).2.reads = s.reads ∧
    (readRow cls own x a row s).2.recoveries = s.recoveries ∧ (readRow cls own x a row s).2.pin = s.pin ∧
    (readRow cls own x a row s).2.regs = s.regs ∧ (readRow cls own x a row s).2.fresh = s.fresh := by
  simp [readRow]
@[simp] theorem repairCols_frame (x : Group) (a : SubAddr) (got : List (Nat × Sector)) (cols : List Nat) (s : State) :
    (repairCols x a got cols s).sys = s.sys ∧ (repairCols x a got cols s).clk = s.clk ∧
    (repairCols x a got cols s).sec = s.sec ∧ (repairCols x a got cols s).pwr = s.pwr ∧
    (repairCols x a got cols s).host = s.host ∧ (repairCols x a got cols s).ring = s.ring ∧
    (repairCols x a got cols s).wards = s.wards ∧ (repairCols x a got cols s).cap = s.cap ∧
    (repairCols x a got cols s).cache = s.cache ∧ (repairCols x a got cols s).kcc = s.kcc ∧
    (repairCols x a got cols s).ledger = s.ledger ∧ (repairCols x a got cols s).groups = s.groups ∧
    (repairCols x a got cols s).reads = s.reads ∧ (repairCols x a got cols s).recoveries = s.recoveries ∧
    (repairCols x a got cols s).pin = s.pin ∧ (repairCols x a got cols s).regs = s.regs ∧
    (repairCols x a got cols s).fresh = s.fresh := by
  simp (disch := (intros; (repeat' split) <;> simp [*])) [repairCols]
@[simp] theorem produce_frame (x : Group) (a : SubAddr) (row : List RowRead) (s : State) :
    (produce x a row s).2.sys = s.sys ∧ (produce x a row s).2.clk = s.clk ∧ (produce x a row s).2.sec = s.sec ∧
    (produce x a row s).2.pwr = s.pwr ∧ (produce x a row s).2.host = s.host ∧ (produce x a row s).2.ring = s.ring ∧
    (produce x a row s).2.wards = s.wards ∧ (produce x a row s).2.cap = s.cap ∧ (produce x a row s).2.kcc = s.kcc ∧
    (produce x a row s).2.ledger = s.ledger ∧ (produce x a row s).2.groups = s.groups ∧
    (produce x a row s).2.reads = s.reads ∧ (produce x a row s).2.recoveries = s.recoveries ∧
    (produce x a row s).2.pin = s.pin ∧ (produce x a row s).2.regs = s.regs ∧ (produce x a row s).2.fresh = s.fresh := by
  unfold produce; dsimp only; (repeat' split) <;> simp [*]
@[simp] theorem countOffTrack_frame (x : Group) (a : SubAddr) (row : List RowRead) (s : State) :
    (countOffTrack x a row s).sys = s.sys ∧ (countOffTrack x a row s).clk = s.clk ∧
    (countOffTrack x a row s).sec = s.sec ∧ (countOffTrack x a row s).pwr = s.pwr ∧
    (countOffTrack x a row s).host = s.host ∧ (countOffTrack x a row s).ring = s.ring ∧
    (countOffTrack x a row s).wards = s.wards ∧ (countOffTrack x a row s).cap = s.cap ∧
    (countOffTrack x a row s).cache = s.cache ∧ (countOffTrack x a row s).kcc = s.kcc ∧
    (countOffTrack x a row s).ledger = s.ledger ∧ (countOffTrack x a row s).groups = s.groups ∧
    (countOffTrack x a row s).cells = s.cells ∧ (countOffTrack x a row s).reads = s.reads ∧
    (countOffTrack x a row s).recoveries = s.recoveries ∧ (countOffTrack x a row s).nextRead = s.nextRead ∧
    (countOffTrack x a row s).pin = s.pin ∧ (countOffTrack x a row s).regs = s.regs ∧
    (countOffTrack x a row s).fresh = s.fresh := by
  simp [countOffTrack]
@[simp] theorem rebuildSub_frame (c : CellId) (x : Group) (a : SubAddr) (row : List RowRead) (s : State) :
    (rebuildSub c x a row s).clk = s.clk ∧ (rebuildSub c x a row s).sec = s.sec ∧ (rebuildSub c x a row s).pwr = s.pwr ∧
    (rebuildSub c x a row s).host = s.host ∧ (rebuildSub c x a row s).ring = s.ring ∧
    (rebuildSub c x a row s).wards = s.wards ∧ (rebuildSub c x a row s).cap = s.cap ∧
    (rebuildSub c x a row s).kcc = s.kcc ∧ (rebuildSub c x a row s).reads = s.reads ∧
    (rebuildSub c x a row s).recoveries = s.recoveries ∧ (rebuildSub c x a row s).regs = s.regs ∧
    (rebuildSub c x a row s).fresh = s.fresh := by
  unfold rebuildSub; dsimp only; (repeat' split) <;> simp [*]
@[simp] theorem rebuildSubs_frame (g : GroupId) (c : CellId) (rows : List (List RowRead)) (s : State) :
    (rebuildSubs g c rows s).clk = s.clk ∧ (rebuildSubs g c rows s).sec = s.sec ∧ (rebuildSubs g c rows s).pwr = s.pwr ∧
    (rebuildSubs g c rows s).host = s.host ∧ (rebuildSubs g c rows s).ring = s.ring ∧
    (rebuildSubs g c rows s).wards = s.wards ∧ (rebuildSubs g c rows s).cap = s.cap ∧
    (rebuildSubs g c rows s).kcc = s.kcc ∧ (rebuildSubs g c rows s).reads = s.reads ∧
    (rebuildSubs g c rows s).recoveries = s.recoveries ∧ (rebuildSubs g c rows s).regs = s.regs ∧
    (rebuildSubs g c rows s).fresh = s.fresh := by
  simp [rebuildSubs]
@[simp] theorem rebuildStripe_frame (g : GroupId) (rows : List (List RowRead)) (s : State) :
    (rebuildStripe g rows s).clk = s.clk ∧ (rebuildStripe g rows s).sec = s.sec ∧ (rebuildStripe g rows s).pwr = s.pwr ∧
    (rebuildStripe g rows s).host = s.host ∧ (rebuildStripe g rows s).ring = s.ring ∧
    (rebuildStripe g rows s).wards = s.wards ∧ (rebuildStripe g rows s).cap = s.cap ∧
    (rebuildStripe g rows s).kcc = s.kcc ∧ (rebuildStripe g rows s).reads = s.reads ∧
    (rebuildStripe g rows s).recoveries = s.recoveries ∧ (rebuildStripe g rows s).regs = s.regs ∧
    (rebuildStripe g rows s).fresh = s.fresh := by
  unfold rebuildStripe; dsimp only; (repeat' split) <;> simp [*]
@[simp] theorem scrubRepair_frame (x : Group) (a : SubAddr) (got : List (Nat × Sector)) (s : State) :
    (scrubRepair x a got s).2.sys = s.sys ∧ (scrubRepair x a got s).2.clk = s.clk ∧
    (scrubRepair x a got s).2.sec = s.sec ∧ (scrubRepair x a got s).2.pwr = s.pwr ∧
    (scrubRepair x a got s).2.host = s.host ∧ (scrubRepair x a got s).2.ring = s.ring ∧
    (scrubRepair x a got s).2.wards = s.wards ∧ (scrubRepair x a got s).2.cap = s.cap ∧
    (scrubRepair x a got s).2.cache = s.cache ∧ (scrubRepair x a got s).2.kcc = s.kcc ∧
    (scrubRepair x a got s).2.ledger = s.ledger ∧ (scrubRepair x a got s).2.groups = s.groups ∧
    (scrubRepair x a got s).2.reads = s.reads ∧ (scrubRepair x a got s).2.recoveries = s.recoveries ∧
    (scrubRepair x a got s).2.pin = s.pin ∧ (scrubRepair x a got s).2.regs = s.regs ∧
    (scrubRepair x a got s).2.fresh = s.fresh := by
  simp [scrubRepair]
@[simp] theorem scrubCheck_frame (x : Group) (a : SubAddr) (got : List (Nat × Sector)) (l : List (Nat × Bytes)) (s :
    State) (k : Nat) :
    (scrubCheck x a got l s k).sys = s.sys ∧ (scrubCheck x a got l s k).clk = s.clk ∧
    (scrubCheck x a got l s k).sec = s.sec ∧ (scrubCheck x a got l s k).pwr = s.pwr ∧
    (scrubCheck x a got l s k).host = s.host ∧ (scrubCheck x a got l s k).ring = s.ring ∧
    (scrubCheck x a got l s k).wards = s.wards ∧ (scrubCheck x a got l s k).cap = s.cap ∧
    (scrubCheck x a got l s k).kcc = s.kcc ∧ (scrubCheck x a got l s k).ledger = s.ledger ∧
    (scrubCheck x a got l s k).groups = s.groups ∧ (scrubCheck x a got l s k).reads = s.reads ∧
    (scrubCheck x a got l s k).recoveries = s.recoveries ∧ (scrubCheck x a got l s k).regs = s.regs ∧
    (scrubCheck x a got l s k).fresh = s.fresh := by
  unfold scrubCheck; dsimp only; (repeat' split) <;> simp [*]
@[simp] theorem scrubParity_frame (x : Group) (a : SubAddr) (got : List (Nat × Sector)) (s : State) :
    (scrubParity x a got s).sys = s.sys ∧ (scrubParity x a got s).clk = s.clk ∧ (scrubParity x a got s).sec = s.sec ∧
    (scrubParity x a got s).pwr = s.pwr ∧ (scrubParity x a got s).host = s.host ∧ (scrubParity x a got s).ring = s.ring ∧
    (scrubParity x a got s).wards = s.wards ∧ (scrubParity x a got s).cap = s.cap ∧ (scrubParity x a got s).kcc = s.kcc ∧
    (scrubParity x a got s).ledger = s.ledger ∧ (scrubParity x a got s).groups = s.groups ∧
    (scrubParity x a got s).reads = s.reads ∧ (scrubParity x a got s).recoveries = s.recoveries ∧
    (scrubParity x a got s).regs = s.regs ∧ (scrubParity x a got s).fresh = s.fresh := by
  unfold scrubParity; (repeat' split) <;> simp [*]
@[simp] theorem scrubNext_frame (g : GroupId) (s : State) :
    (scrubNext g s).sys = s.sys ∧ (scrubNext g s).clk = s.clk ∧ (scrubNext g s).sec = s.sec ∧
    (scrubNext g s).pwr = s.pwr ∧ (scrubNext g s).host = s.host ∧ (scrubNext g s).ring = s.ring ∧
    (scrubNext g s).wards = s.wards ∧ (scrubNext g s).cap = s.cap ∧ (scrubNext g s).cache = s.cache ∧
    (scrubNext g s).kcc = s.kcc ∧ (scrubNext g s).ledger = s.ledger ∧ (scrubNext g s).cells = s.cells ∧
    (scrubNext g s).reads = s.reads ∧ (scrubNext g s).recoveries = s.recoveries ∧ (scrubNext g s).nextRead = s.nextRead ∧
    (scrubNext g s).regs = s.regs ∧ (scrubNext g s).fresh = s.fresh := by
  simp [scrubNext]
@[simp] theorem scrubRow_frame (g : GroupId) (row : List RowRead) (s : State) :
    (scrubRow g row s).sys = s.sys ∧ (scrubRow g row s).clk = s.clk ∧ (scrubRow g row s).sec = s.sec ∧
    (scrubRow g row s).pwr = s.pwr ∧ (scrubRow g row s).host = s.host ∧ (scrubRow g row s).ring = s.ring ∧
    (scrubRow g row s).wards = s.wards ∧ (scrubRow g row s).cap = s.cap ∧ (scrubRow g row s).kcc = s.kcc ∧
    (scrubRow g row s).ledger = s.ledger ∧ (scrubRow g row s).reads = s.reads ∧
    (scrubRow g row s).recoveries = s.recoveries ∧ (scrubRow g row s).regs = s.regs ∧
    (scrubRow g row s).fresh = s.fresh := by
  simp [scrubRow]
@[simp] theorem eventRecord_frame (s : State) :
    (eventRecord s).sys = s.sys ∧ (eventRecord s).clk = s.clk ∧ (eventRecord s).sec = s.sec ∧
    (eventRecord s).pwr = s.pwr ∧ (eventRecord s).ring = s.ring ∧ (eventRecord s).wards = s.wards ∧
    (eventRecord s).cap = s.cap ∧ (eventRecord s).cache = s.cache ∧ (eventRecord s).kcc = s.kcc ∧
    (eventRecord s).ledger = s.ledger ∧ (eventRecord s).groups = s.groups ∧ (eventRecord s).cells = s.cells ∧
    (eventRecord s).reads = s.reads ∧ (eventRecord s).recoveries = s.recoveries ∧ (eventRecord s).nextRead = s.nextRead ∧
    (eventRecord s).regs = s.regs ∧ (eventRecord s).fresh = s.fresh := by
  unfold eventRecord; (repeat' split) <;> simp [*]
@[simp] theorem armLost_frame (c : CellId) (s : State) :
    (armLost c s).sys = s.sys ∧ (armLost c s).clk = s.clk ∧ (armLost c s).sec = s.sec ∧ (armLost c s).pwr = s.pwr ∧
    (armLost c s).host = s.host ∧ (armLost c s).ring = s.ring ∧ (armLost c s).wards = s.wards ∧
    (armLost c s).cap = s.cap ∧ (armLost c s).kcc = s.kcc ∧ (armLost c s).reads = s.reads ∧
    (armLost c s).nextRead = s.nextRead ∧ (armLost c s).regs = s.regs ∧ (armLost c s).fresh = s.fresh := by
  simp [armLost]
@[simp] theorem servoDoubt_frame (c : CellId) (cause : BitVec 3) (s : State) :
    (servoDoubt c cause s).sys = s.sys ∧ (servoDoubt c cause s).clk = s.clk ∧ (servoDoubt c cause s).sec = s.sec ∧
    (servoDoubt c cause s).pwr = s.pwr ∧ (servoDoubt c cause s).host = s.host ∧ (servoDoubt c cause s).ring = s.ring ∧
    (servoDoubt c cause s).wards = s.wards ∧ (servoDoubt c cause s).cap = s.cap ∧ (servoDoubt c cause s).kcc = s.kcc ∧
    (servoDoubt c cause s).reads = s.reads ∧ (servoDoubt c cause s).nextRead = s.nextRead ∧
    (servoDoubt c cause s).regs = s.regs ∧ (servoDoubt c cause s).fresh = s.fresh := by
  simp [servoDoubt]
@[simp] theorem thermal_frame (c : CellId) (s : State) :
    (thermal c s).sys = s.sys ∧ (thermal c s).clk = s.clk ∧ (thermal c s).sec = s.sec ∧ (thermal c s).pwr = s.pwr ∧
    (thermal c s).host = s.host ∧ (thermal c s).ring = s.ring ∧ (thermal c s).wards = s.wards ∧
    (thermal c s).cap = s.cap ∧ (thermal c s).kcc = s.kcc ∧ (thermal c s).reads = s.reads ∧
    (thermal c s).nextRead = s.nextRead ∧ (thermal c s).regs = s.regs ∧ (thermal c s).fresh = s.fresh := by
  simp [thermal]
@[simp] theorem treatAbsent_frame (c : CellId) (s : State) :
    (treatAbsent c s).sys = s.sys ∧ (treatAbsent c s).clk = s.clk ∧ (treatAbsent c s).sec = s.sec ∧
    (treatAbsent c s).pwr = s.pwr ∧ (treatAbsent c s).host = s.host ∧ (treatAbsent c s).ring = s.ring ∧
    (treatAbsent c s).wards = s.wards ∧ (treatAbsent c s).cap = s.cap ∧ (treatAbsent c s).kcc = s.kcc ∧
    (treatAbsent c s).reads = s.reads ∧ (treatAbsent c s).nextRead = s.nextRead ∧ (treatAbsent c s).regs = s.regs ∧
    (treatAbsent c s).fresh = s.fresh := by
  simp [treatAbsent]
@[simp] theorem startSpins_frame (s : State) :
    (startSpins s).sys = s.sys ∧ (startSpins s).clk = s.clk ∧ (startSpins s).sec = s.sec ∧ (startSpins s).pwr = s.pwr ∧
    (startSpins s).host = s.host ∧ (startSpins s).ring = s.ring ∧ (startSpins s).wards = s.wards ∧
    (startSpins s).cap = s.cap ∧ (startSpins s).cache = s.cache ∧ (startSpins s).kcc = s.kcc ∧
    (startSpins s).ledger = s.ledger ∧ (startSpins s).groups = s.groups ∧ (startSpins s).reads = s.reads ∧
    (startSpins s).recoveries = s.recoveries ∧ (startSpins s).nextRead = s.nextRead ∧ (startSpins s).obs = s.obs ∧
    (startSpins s).pin = s.pin ∧ (startSpins s).regs = s.regs ∧ (startSpins s).fresh = s.fresh := by
  simp [startSpins]
@[simp] theorem pagesDone_frame (c : CellId) (s : State) :
    (pagesDone c s).sys = s.sys ∧ (pagesDone c s).clk = s.clk ∧ (pagesDone c s).sec = s.sec ∧
    (pagesDone c s).pwr = s.pwr ∧ (pagesDone c s).host = s.host ∧ (pagesDone c s).ring = s.ring ∧
    (pagesDone c s).wards = s.wards ∧ (pagesDone c s).cap = s.cap ∧ (pagesDone c s).kcc = s.kcc ∧
    (pagesDone c s).reads = s.reads ∧ (pagesDone c s).nextRead = s.nextRead ∧ (pagesDone c s).regs = s.regs ∧
    (pagesDone c s).fresh = s.fresh := by
  simp [pagesDone]
@[simp] theorem loadHeads_frame (c : CellId) (s : State) :
    (loadHeads c s).sys = s.sys ∧ (loadHeads c s).clk = s.clk ∧ (loadHeads c s).sec = s.sec ∧
    (loadHeads c s).pwr = s.pwr ∧ (loadHeads c s).host = s.host ∧ (loadHeads c s).ring = s.ring ∧
    (loadHeads c s).wards = s.wards ∧ (loadHeads c s).cap = s.cap ∧ (loadHeads c s).cache = s.cache ∧
    (loadHeads c s).kcc = s.kcc ∧ (loadHeads c s).ledger = s.ledger ∧ (loadHeads c s).groups = s.groups ∧
    (loadHeads c s).reads = s.reads ∧ (loadHeads c s).recoveries = s.recoveries ∧ (loadHeads c s).nextRead = s.nextRead ∧
    (loadHeads c s).obs = s.obs ∧ (loadHeads c s).pin = s.pin ∧ (loadHeads c s).regs = s.regs ∧
    (loadHeads c s).fresh = s.fresh := by
  simp [loadHeads]
@[simp] theorem leftParked_frame (s : State) :
    (leftParked s).sys = s.sys ∧ (leftParked s).clk = s.clk ∧ (leftParked s).sec = s.sec ∧ (leftParked s).host = s.host ∧
    (leftParked s).ring = s.ring ∧ (leftParked s).wards = s.wards ∧ (leftParked s).kcc = s.kcc ∧
    (leftParked s).groups = s.groups ∧ (leftParked s).reads = s.reads ∧ (leftParked s).nextRead = s.nextRead ∧
    (leftParked s).pin = s.pin ∧ (leftParked s).regs = s.regs ∧ (leftParked s).fresh = s.fresh := by
  simp [leftParked]
@[simp] theorem pageBits_frame (c : CellId) (d : BitVec 16) (s : State) :
    (pageBits c d s).sys = s.sys ∧ (pageBits c d s).clk = s.clk ∧ (pageBits c d s).sec = s.sec ∧
    (pageBits c d s).pwr = s.pwr ∧ (pageBits c d s).host = s.host ∧ (pageBits c d s).ring = s.ring ∧
    (pageBits c d s).wards = s.wards ∧ (pageBits c d s).cap = s.cap ∧ (pageBits c d s).cache = s.cache ∧
    (pageBits c d s).kcc = s.kcc ∧ (pageBits c d s).ledger = s.ledger ∧ (pageBits c d s).groups = s.groups ∧
    (pageBits c d s).reads = s.reads ∧ (pageBits c d s).recoveries = s.recoveries ∧
    (pageBits c d s).nextRead = s.nextRead ∧ (pageBits c d s).obs = s.obs ∧ (pageBits c d s).pin = s.pin ∧
    (pageBits c d s).regs = s.regs ∧ (pageBits c d s).fresh = s.fresh := by
  simp [pageBits]
@[simp] theorem watchdogDoubt_frame (c : CellId) (d : BitVec 16) (s : State) :
    (watchdogDoubt c d s).sys = s.sys ∧ (watchdogDoubt c d s).clk = s.clk ∧ (watchdogDoubt c d s).sec = s.sec ∧
    (watchdogDoubt c d s).pwr = s.pwr ∧ (watchdogDoubt c d s).host = s.host ∧ (watchdogDoubt c d s).ring = s.ring ∧
    (watchdogDoubt c d s).wards = s.wards ∧ (watchdogDoubt c d s).cap = s.cap ∧ (watchdogDoubt c d s).kcc = s.kcc ∧
    (watchdogDoubt c d s).reads = s.reads ∧ (watchdogDoubt c d s).nextRead = s.nextRead ∧
    (watchdogDoubt c d s).regs = s.regs ∧ (watchdogDoubt c d s).fresh = s.fresh := by
  simp [watchdogDoubt]
@[simp] theorem pageSpeed_frame (c : CellId) (d : BitVec 16) (s : State) :
    (pageSpeed c d s).sys = s.sys ∧ (pageSpeed c d s).clk = s.clk ∧ (pageSpeed c d s).sec = s.sec ∧
    (pageSpeed c d s).pwr = s.pwr ∧ (pageSpeed c d s).host = s.host ∧ (pageSpeed c d s).ring = s.ring ∧
    (pageSpeed c d s).wards = s.wards ∧ (pageSpeed c d s).cap = s.cap ∧ (pageSpeed c d s).cache = s.cache ∧
    (pageSpeed c d s).kcc = s.kcc ∧ (pageSpeed c d s).ledger = s.ledger ∧ (pageSpeed c d s).groups = s.groups ∧
    (pageSpeed c d s).reads = s.reads ∧ (pageSpeed c d s).recoveries = s.recoveries ∧
    (pageSpeed c d s).nextRead = s.nextRead ∧ (pageSpeed c d s).obs = s.obs ∧ (pageSpeed c d s).pin = s.pin ∧
    (pageSpeed c d s).regs = s.regs ∧ (pageSpeed c d s).fresh = s.fresh := by
  simp [pageSpeed]
@[simp] theorem pageParked_frame (c : CellId) (d : BitVec 16) (s : State) :
    (pageParked c d s).sys = s.sys ∧ (pageParked c d s).clk = s.clk ∧ (pageParked c d s).sec = s.sec ∧
    (pageParked c d s).pwr = s.pwr ∧ (pageParked c d s).host = s.host ∧ (pageParked c d s).ring = s.ring ∧
    (pageParked c d s).wards = s.wards ∧ (pageParked c d s).cap = s.cap ∧ (pageParked c d s).kcc = s.kcc ∧
    (pageParked c d s).groups = s.groups ∧ (pageParked c d s).reads = s.reads ∧ (pageParked c d s).nextRead = s.nextRead ∧
    (pageParked c d s).pin = s.pin ∧ (pageParked c d s).regs = s.regs ∧ (pageParked c d s).fresh = s.fresh := by
  simp [pageParked]
@[simp] theorem page0_frame (c : CellId) (d : BitVec 16) (s : State) :
    (page0 c d s).sys = s.sys ∧ (page0 c d s).clk = s.clk ∧ (page0 c d s).sec = s.sec ∧ (page0 c d s).host = s.host ∧
    (page0 c d s).ring = s.ring ∧ (page0 c d s).wards = s.wards ∧ (page0 c d s).kcc = s.kcc ∧
    (page0 c d s).reads = s.reads ∧ (page0 c d s).nextRead = s.nextRead ∧ (page0 c d s).regs = s.regs ∧
    (page0 c d s).fresh = s.fresh := by
  simp [page0]
@[simp] theorem page2_frame (c : CellId) (d : BitVec 16) (s : State) :
    (page2 c d s).sys = s.sys ∧ (page2 c d s).clk = s.clk ∧ (page2 c d s).sec = s.sec ∧ (page2 c d s).pwr = s.pwr ∧
    (page2 c d s).host = s.host ∧ (page2 c d s).ring = s.ring ∧ (page2 c d s).wards = s.wards ∧
    (page2 c d s).cap = s.cap ∧ (page2 c d s).kcc = s.kcc ∧ (page2 c d s).reads = s.reads ∧
    (page2 c d s).nextRead = s.nextRead ∧ (page2 c d s).regs = s.regs ∧ (page2 c d s).fresh = s.fresh := by
  simp [page2]
@[simp] theorem statusPage_frame (c : CellId) (page : Nat) (d : BitVec 16) (s : State) :
    (statusPage c page d s).sys = s.sys ∧ (statusPage c page d s).clk = s.clk ∧ (statusPage c page d s).sec = s.sec ∧
    (statusPage c page d s).host = s.host ∧ (statusPage c page d s).ring = s.ring ∧
    (statusPage c page d s).wards = s.wards ∧ (statusPage c page d s).kcc = s.kcc ∧
    (statusPage c page d s).reads = s.reads ∧ (statusPage c page d s).nextRead = s.nextRead ∧
    (statusPage c page d s).regs = s.regs ∧ (statusPage c page d s).fresh = s.fresh := by
  simp [statusPage]
@[simp] theorem responseFails_frame (c : CellId) (sent : Word) (s : State) :
    (responseFails c sent s).sys = s.sys ∧ (responseFails c sent s).clk = s.clk ∧ (responseFails c sent s).sec = s.sec ∧
    (responseFails c sent s).pwr = s.pwr ∧ (responseFails c sent s).host = s.host ∧
    (responseFails c sent s).ring = s.ring ∧ (responseFails c sent s).wards = s.wards ∧
    (responseFails c sent s).cap = s.cap ∧ (responseFails c sent s).kcc = s.kcc ∧
    (responseFails c sent s).reads = s.reads ∧ (responseFails c sent s).nextRead = s.nextRead ∧
    (responseFails c sent s).regs = s.regs ∧ (responseFails c sent s).fresh = s.fresh := by
  simp [responseFails]
@[simp] theorem armResponse_frame (c : CellId) (f : Word) (s : State) :
    (armResponse c f s).sys = s.sys ∧ (armResponse c f s).clk = s.clk ∧ (armResponse c f s).sec = s.sec ∧
    (armResponse c f s).host = s.host ∧ (armResponse c f s).ring = s.ring ∧ (armResponse c f s).wards = s.wards ∧
    (armResponse c f s).kcc = s.kcc ∧ (armResponse c f s).reads = s.reads ∧ (armResponse c f s).nextRead = s.nextRead ∧
    (armResponse c f s).regs = s.regs ∧ (armResponse c f s).fresh = s.fresh := by
  unfold armResponse; dsimp only; (repeat' split) <;> simp [*]
@[simp] theorem colzorFrame_frame (c : CellId) (o : ColzorObs) (s : State) :
    (colzorFrame c o s).sys = s.sys ∧ (colzorFrame c o s).clk = s.clk ∧ (colzorFrame c o s).sec = s.sec ∧
    (colzorFrame c o s).pwr = s.pwr ∧ (colzorFrame c o s).host = s.host ∧ (colzorFrame c o s).ring = s.ring ∧
    (colzorFrame c o s).wards = s.wards ∧ (colzorFrame c o s).cap = s.cap ∧ (colzorFrame c o s).kcc = s.kcc ∧
    (colzorFrame c o s).reads = s.reads ∧ (colzorFrame c o s).nextRead = s.nextRead ∧ (colzorFrame c o s).regs = s.regs ∧
    (colzorFrame c o s).fresh = s.fresh := by
  simp [colzorFrame]
@[simp] theorem sendDemand_frame (c : CellId) (s : State) :
    (sendDemand c s).sys = s.sys ∧ (sendDemand c s).clk = s.clk ∧ (sendDemand c s).sec = s.sec ∧
    (sendDemand c s).pwr = s.pwr ∧ (sendDemand c s).host = s.host ∧ (sendDemand c s).ring = s.ring ∧
    (sendDemand c s).wards = s.wards ∧ (sendDemand c s).cap = s.cap ∧ (sendDemand c s).cache = s.cache ∧
    (sendDemand c s).kcc = s.kcc ∧ (sendDemand c s).ledger = s.ledger ∧ (sendDemand c s).groups = s.groups ∧
    (sendDemand c s).reads = s.reads ∧ (sendDemand c s).recoveries = s.recoveries ∧
    (sendDemand c s).nextRead = s.nextRead ∧ (sendDemand c s).obs = s.obs ∧ (sendDemand c s).pin = s.pin ∧
    (sendDemand c s).regs = s.regs ∧ (sendDemand c s).fresh = s.fresh := by
  simp [sendDemand]
@[simp] theorem gateRule_frame (c : CellId) (s : State) :
    (gateRule c s).sys = s.sys ∧ (gateRule c s).clk = s.clk ∧ (gateRule c s).sec = s.sec ∧ (gateRule c s).pwr = s.pwr ∧
    (gateRule c s).host = s.host ∧ (gateRule c s).ring = s.ring ∧ (gateRule c s).wards = s.wards ∧
    (gateRule c s).cap = s.cap ∧ (gateRule c s).cache = s.cache ∧ (gateRule c s).kcc = s.kcc ∧
    (gateRule c s).groups = s.groups ∧ (gateRule c s).reads = s.reads ∧ (gateRule c s).recoveries = s.recoveries ∧
    (gateRule c s).nextRead = s.nextRead ∧ (gateRule c s).regs = s.regs ∧ (gateRule c s).fresh = s.fresh := by
  simp [gateRule]
@[simp] theorem reacquire_frame (c : CellId) (s : State) :
    (reacquire c s).sys = s.sys ∧ (reacquire c s).clk = s.clk ∧ (reacquire c s).sec = s.sec ∧
    (reacquire c s).pwr = s.pwr ∧ (reacquire c s).host = s.host ∧ (reacquire c s).ring = s.ring ∧
    (reacquire c s).wards = s.wards ∧ (reacquire c s).cap = s.cap ∧ (reacquire c s).cache = s.cache ∧
    (reacquire c s).kcc = s.kcc ∧ (reacquire c s).groups = s.groups ∧ (reacquire c s).reads = s.reads ∧
    (reacquire c s).recoveries = s.recoveries ∧ (reacquire c s).nextRead = s.nextRead ∧ (reacquire c s).pin = s.pin ∧
    (reacquire c s).regs = s.regs ∧ (reacquire c s).fresh = s.fresh := by
  simp [reacquire]
@[simp] theorem acquireStep_frame (c : CellId) (s : State) :
    (acquireStep c s).sys = s.sys ∧ (acquireStep c s).clk = s.clk ∧ (acquireStep c s).sec = s.sec ∧
    (acquireStep c s).pwr = s.pwr ∧ (acquireStep c s).host = s.host ∧ (acquireStep c s).ring = s.ring ∧
    (acquireStep c s).wards = s.wards ∧ (acquireStep c s).cap = s.cap ∧ (acquireStep c s).cache = s.cache ∧
    (acquireStep c s).kcc = s.kcc ∧ (acquireStep c s).ledger = s.ledger ∧ (acquireStep c s).groups = s.groups ∧
    (acquireStep c s).reads = s.reads ∧ (acquireStep c s).recoveries = s.recoveries ∧
    (acquireStep c s).nextRead = s.nextRead ∧ (acquireStep c s).pin = s.pin ∧ (acquireStep c s).regs = s.regs ∧
    (acquireStep c s).fresh = s.fresh := by
  simp [acquireStep]
@[simp] theorem profileDemand_frame (v : Servo) (e : Int) (s : State) :
    (profileDemand v e s).2.sys = s.sys ∧ (profileDemand v e s).2.clk = s.clk ∧ (profileDemand v e s).2.sec = s.sec ∧
    (profileDemand v e s).2.pwr = s.pwr ∧ (profileDemand v e s).2.host = s.host ∧ (profileDemand v e s).2.ring = s.ring ∧
    (profileDemand v e s).2.wards = s.wards ∧ (profileDemand v e s).2.cap = s.cap ∧
    (profileDemand v e s).2.cache = s.cache ∧ (profileDemand v e s).2.kcc = s.kcc ∧
    (profileDemand v e s).2.ledger = s.ledger ∧ (profileDemand v e s).2.groups = s.groups ∧
    (profileDemand v e s).2.cells = s.cells ∧ (profileDemand v e s).2.reads = s.reads ∧
    (profileDemand v e s).2.recoveries = s.recoveries ∧ (profileDemand v e s).2.nextRead = s.nextRead ∧
    (profileDemand v e s).2.obs = s.obs ∧ (profileDemand v e s).2.pin = s.pin ∧
    (profileDemand v e s).2.regs = s.regs := by
  unfold profileDemand; (repeat' split) <;> simp [*]
@[simp] theorem wedgeEnd_frame (c : CellId) (v : Servo) (s : State) :
    (wedgeEnd c v s).sys = s.sys ∧ (wedgeEnd c v s).clk = s.clk ∧ (wedgeEnd c v s).sec = s.sec ∧
    (wedgeEnd c v s).pwr = s.pwr ∧ (wedgeEnd c v s).host = s.host ∧ (wedgeEnd c v s).ring = s.ring ∧
    (wedgeEnd c v s).wards = s.wards ∧ (wedgeEnd c v s).cap = s.cap ∧ (wedgeEnd c v s).kcc = s.kcc ∧
    (wedgeEnd c v s).reads = s.reads ∧ (wedgeEnd c v s).nextRead = s.nextRead ∧ (wedgeEnd c v s).regs = s.regs ∧
    (wedgeEnd c v s).fresh = s.fresh := by
  simp [wedgeEnd]
@[simp] theorem wedgeTaken_frame (c : CellId) (o : WedgeObs) (s : State) :
    (wedgeTaken c o s).sys = s.sys ∧ (wedgeTaken c o s).clk = s.clk ∧ (wedgeTaken c o s).sec = s.sec ∧
    (wedgeTaken c o s).pwr = s.pwr ∧ (wedgeTaken c o s).host = s.host ∧ (wedgeTaken c o s).ring = s.ring ∧
    (wedgeTaken c o s).wards = s.wards ∧ (wedgeTaken c o s).cap = s.cap ∧ (wedgeTaken c o s).kcc = s.kcc ∧
    (wedgeTaken c o s).reads = s.reads ∧ (wedgeTaken c o s).nextRead = s.nextRead ∧ (wedgeTaken c o s).regs = s.regs := by
  simp [wedgeTaken]
@[simp] theorem wedgeStep_frame (c : CellId) (o : WedgeObs) (s : State) :
    (wedgeStep c o s).sys = s.sys ∧ (wedgeStep c o s).clk = s.clk ∧ (wedgeStep c o s).sec = s.sec ∧
    (wedgeStep c o s).pwr = s.pwr ∧ (wedgeStep c o s).host = s.host ∧ (wedgeStep c o s).ring = s.ring ∧
    (wedgeStep c o s).wards = s.wards ∧ (wedgeStep c o s).cap = s.cap ∧ (wedgeStep c o s).kcc = s.kcc ∧
    (wedgeStep c o s).reads = s.reads ∧ (wedgeStep c o s).nextRead = s.nextRead ∧ (wedgeStep c o s).regs = s.regs := by
  simp [wedgeStep]
@[simp] theorem seekFail_frame (c : CellId) (s : State) :
    (seekFail c s).sys = s.sys ∧ (seekFail c s).sec = s.sec ∧ (seekFail c s).pwr = s.pwr ∧ (seekFail c s).host = s.host ∧
    (seekFail c s).ring = s.ring ∧ (seekFail c s).wards = s.wards ∧ (seekFail c s).cap = s.cap ∧
    (seekFail c s).kcc = s.kcc ∧ (seekFail c s).reads = s.reads ∧ (seekFail c s).nextRead = s.nextRead ∧
    (seekFail c s).regs = s.regs ∧ (seekFail c s).fresh = s.fresh := by
  simp [seekFail]
@[simp] theorem evlogHeadWrite_frame (v : Word) (s : State) :
    (evlogHeadWrite v s).sys = s.sys ∧ (evlogHeadWrite v s).clk = s.clk ∧ (evlogHeadWrite v s).sec = s.sec ∧
    (evlogHeadWrite v s).pwr = s.pwr ∧ (evlogHeadWrite v s).host = s.host ∧ (evlogHeadWrite v s).ring = s.ring ∧
    (evlogHeadWrite v s).wards = s.wards ∧ (evlogHeadWrite v s).cap = s.cap ∧ (evlogHeadWrite v s).cache = s.cache ∧
    (evlogHeadWrite v s).kcc = s.kcc ∧ (evlogHeadWrite v s).ledger = s.ledger ∧ (evlogHeadWrite v s).groups = s.groups ∧
    (evlogHeadWrite v s).cells = s.cells ∧ (evlogHeadWrite v s).reads = s.reads ∧
    (evlogHeadWrite v s).recoveries = s.recoveries ∧ (evlogHeadWrite v s).nextRead = s.nextRead ∧
    (evlogHeadWrite v s).pin = s.pin ∧ (evlogHeadWrite v s).regs = s.regs ∧ (evlogHeadWrite v s).fresh = s.fresh := by
  simp [evlogHeadWrite]
@[simp] theorem ratBWrite_frame (i : Nat) (v : Word) (s : State) :
    (ratBWrite i v s).clk = s.clk ∧ (ratBWrite i v s).sec = s.sec ∧ (ratBWrite i v s).pwr = s.pwr ∧
    (ratBWrite i v s).host = s.host ∧ (ratBWrite i v s).ring = s.ring ∧ (ratBWrite i v s).wards = s.wards ∧
    (ratBWrite i v s).cap = s.cap ∧ (ratBWrite i v s).kcc = s.kcc ∧ (ratBWrite i v s).ledger = s.ledger ∧
    (ratBWrite i v s).groups = s.groups ∧ (ratBWrite i v s).cells = s.cells ∧ (ratBWrite i v s).reads = s.reads ∧
    (ratBWrite i v s).recoveries = s.recoveries ∧ (ratBWrite i v s).nextRead = s.nextRead ∧
    (ratBWrite i v s).obs = s.obs ∧ (ratBWrite i v s).pin = s.pin ∧ (ratBWrite i v s).fresh = s.fresh := by
  simp [ratBWrite]
@[simp] theorem rejectClear_frame (v : Word) (s : State) :
    (rejectClear v s).clk = s.clk ∧ (rejectClear v s).sec = s.sec ∧ (rejectClear v s).pwr = s.pwr ∧
    (rejectClear v s).host = s.host ∧ (rejectClear v s).ring = s.ring ∧ (rejectClear v s).wards = s.wards ∧
    (rejectClear v s).cap = s.cap ∧ (rejectClear v s).cache = s.cache ∧ (rejectClear v s).kcc = s.kcc ∧
    (rejectClear v s).ledger = s.ledger ∧ (rejectClear v s).groups = s.groups ∧ (rejectClear v s).cells = s.cells ∧
    (rejectClear v s).reads = s.reads ∧ (rejectClear v s).recoveries = s.recoveries ∧
    (rejectClear v s).nextRead = s.nextRead ∧ (rejectClear v s).obs = s.obs ∧ (rejectClear v s).pin = s.pin ∧
    (rejectClear v s).regs = s.regs ∧ (rejectClear v s).fresh = s.fresh := by
  simp [rejectClear]
@[simp] theorem sysClear_frame (a : Nat) (v : Word) (s : State) :
    (sysClear a v s).sec = s.sec ∧ (sysClear a v s).host = s.host ∧ (sysClear a v s).ring = s.ring ∧
    (sysClear a v s).wards = s.wards ∧ (sysClear a v s).cap = s.cap ∧ (sysClear a v s).cache = s.cache ∧
    (sysClear a v s).kcc = s.kcc ∧ (sysClear a v s).ledger = s.ledger ∧ (sysClear a v s).groups = s.groups ∧
    (sysClear a v s).cells = s.cells ∧ (sysClear a v s).reads = s.reads ∧ (sysClear a v s).recoveries = s.recoveries ∧
    (sysClear a v s).nextRead = s.nextRead ∧ (sysClear a v s).obs = s.obs ∧ (sysClear a v s).pin = s.pin ∧
    (sysClear a v s).regs = s.regs ∧ (sysClear a v s).fresh = s.fresh := by
  simp [sysClear]
@[simp] theorem hostClear_frame (a : Nat) (v : Word) (s : State) :
    (hostClear a v s).sys = s.sys ∧ (hostClear a v s).clk = s.clk ∧ (hostClear a v s).sec = s.sec ∧
    (hostClear a v s).pwr = s.pwr ∧ (hostClear a v s).kcc = s.kcc ∧ (hostClear a v s).groups = s.groups ∧
    (hostClear a v s).cells = s.cells ∧ (hostClear a v s).reads = s.reads ∧ (hostClear a v s).recoveries = s.recoveries ∧
    (hostClear a v s).nextRead = s.nextRead ∧ (hostClear a v s).obs = s.obs ∧ (hostClear a v s).pin = s.pin ∧
    (hostClear a v s).regs = s.regs ∧ (hostClear a v s).fresh = s.fresh := by
  simp [hostClear]
@[simp] theorem cellClear_frame (a : Nat) (v : Word) (s : State) :
    (cellClear a v s).sys = s.sys ∧ (cellClear a v s).clk = s.clk ∧ (cellClear a v s).sec = s.sec ∧
    (cellClear a v s).pwr = s.pwr ∧ (cellClear a v s).host = s.host ∧ (cellClear a v s).ring = s.ring ∧
    (cellClear a v s).wards = s.wards ∧ (cellClear a v s).cap = s.cap ∧ (cellClear a v s).cache = s.cache ∧
    (cellClear a v s).kcc = s.kcc ∧ (cellClear a v s).ledger = s.ledger ∧ (cellClear a v s).groups = s.groups ∧
    (cellClear a v s).reads = s.reads ∧ (cellClear a v s).recoveries = s.recoveries ∧
    (cellClear a v s).nextRead = s.nextRead ∧ (cellClear a v s).regs = s.regs ∧ (cellClear a v s).fresh = s.fresh := by
  unfold cellClear; (repeat' split) <;> simp [*]
@[simp] theorem clearBits_frame (a : Nat) (v : Word) (s : State) :
    (clearBits a v s).sec = s.sec ∧ (clearBits a v s).kcc = s.kcc ∧ (clearBits a v s).groups = s.groups ∧
    (clearBits a v s).reads = s.reads ∧ (clearBits a v s).recoveries = s.recoveries ∧
    (clearBits a v s).nextRead = s.nextRead ∧ (clearBits a v s).regs = s.regs ∧ (clearBits a v s).fresh = s.fresh := by
  simp [clearBits]
@[simp] theorem plainWrite_frame (a : Nat) (v : Word) (s : State) :
    (plainWrite a v s).clk = s.clk ∧ (plainWrite a v s).sec = s.sec ∧ (plainWrite a v s).pwr = s.pwr ∧
    (plainWrite a v s).host = s.host ∧ (plainWrite a v s).ring = s.ring ∧ (plainWrite a v s).wards = s.wards ∧
    (plainWrite a v s).kcc = s.kcc ∧ (plainWrite a v s).ledger = s.ledger ∧ (plainWrite a v s).groups = s.groups ∧
    (plainWrite a v s).reads = s.reads ∧ (plainWrite a v s).recoveries = s.recoveries ∧
    (plainWrite a v s).nextRead = s.nextRead := by
  unfold plainWrite; (repeat' split) <;> simp [*]
@[simp] theorem clkCtrlWrite_frame (v : Word) (s : State) :
    (clkCtrlWrite v s).sys = s.sys ∧ (clkCtrlWrite v s).sec = s.sec ∧ (clkCtrlWrite v s).pwr = s.pwr ∧
    (clkCtrlWrite v s).host = s.host ∧ (clkCtrlWrite v s).ring = s.ring ∧ (clkCtrlWrite v s).wards = s.wards ∧
    (clkCtrlWrite v s).cap = s.cap ∧ (clkCtrlWrite v s).cache = s.cache ∧ (clkCtrlWrite v s).kcc = s.kcc ∧
    (clkCtrlWrite v s).ledger = s.ledger ∧ (clkCtrlWrite v s).groups = s.groups ∧ (clkCtrlWrite v s).cells = s.cells ∧
    (clkCtrlWrite v s).reads = s.reads ∧ (clkCtrlWrite v s).recoveries = s.recoveries ∧
    (clkCtrlWrite v s).nextRead = s.nextRead ∧ (clkCtrlWrite v s).fresh = s.fresh := by
  simp [clkCtrlWrite]
@[simp] theorem msixWrite_frame (a : Nat) (v : Word) (s : State) :
    (msixWrite a v s).sys = s.sys ∧ (msixWrite a v s).clk = s.clk ∧ (msixWrite a v s).sec = s.sec ∧
    (msixWrite a v s).pwr = s.pwr ∧ (msixWrite a v s).ring = s.ring ∧ (msixWrite a v s).wards = s.wards ∧
    (msixWrite a v s).cap = s.cap ∧ (msixWrite a v s).cache = s.cache ∧ (msixWrite a v s).kcc = s.kcc ∧
    (msixWrite a v s).ledger = s.ledger ∧ (msixWrite a v s).groups = s.groups ∧ (msixWrite a v s).cells = s.cells ∧
    (msixWrite a v s).reads = s.reads ∧ (msixWrite a v s).recoveries = s.recoveries ∧
    (msixWrite a v s).nextRead = s.nextRead ∧ (msixWrite a v s).obs = s.obs ∧ (msixWrite a v s).pin = s.pin ∧
    (msixWrite a v s).fresh = s.fresh := by
  simp [msixWrite]
@[simp] theorem progressWrite_frame (v : Word) (s : State) :
    (progressWrite v s).clk = s.clk ∧ (progressWrite v s).sec = s.sec ∧ (progressWrite v s).pwr = s.pwr ∧
    (progressWrite v s).host = s.host ∧ (progressWrite v s).ring = s.ring ∧ (progressWrite v s).wards = s.wards ∧
    (progressWrite v s).cap = s.cap ∧ (progressWrite v s).cache = s.cache ∧ (progressWrite v s).kcc = s.kcc ∧
    (progressWrite v s).ledger = s.ledger ∧ (progressWrite v s).groups = s.groups ∧ (progressWrite v s).cells = s.cells ∧
    (progressWrite v s).reads = s.reads ∧ (progressWrite v s).recoveries = s.recoveries ∧
    (progressWrite v s).nextRead = s.nextRead ∧ (progressWrite v s).obs = s.obs ∧ (progressWrite v s).pin = s.pin ∧
    (progressWrite v s).fresh = s.fresh := by
  simp [progressWrite]
@[simp] theorem limitWrite_frame (v : Word) (s : State) :
    (limitWrite v s).sys = s.sys ∧ (limitWrite v s).clk = s.clk ∧ (limitWrite v s).sec = s.sec ∧
    (limitWrite v s).pwr = s.pwr ∧ (limitWrite v s).host = s.host ∧ (limitWrite v s).ring = s.ring ∧
    (limitWrite v s).cap = s.cap ∧ (limitWrite v s).cache = s.cache ∧ (limitWrite v s).kcc = s.kcc ∧
    (limitWrite v s).ledger = s.ledger ∧ (limitWrite v s).groups = s.groups ∧ (limitWrite v s).cells = s.cells ∧
    (limitWrite v s).reads = s.reads ∧ (limitWrite v s).recoveries = s.recoveries ∧
    (limitWrite v s).nextRead = s.nextRead ∧ (limitWrite v s).obs = s.obs ∧ (limitWrite v s).pin = s.pin ∧
    (limitWrite v s).regs = s.regs ∧ (limitWrite v s).fresh = s.fresh := by
  simp [limitWrite]
@[simp] theorem scratchWrite_frame (v : Word) (s : State) :
    (scratchWrite v s).sys = s.sys ∧ (scratchWrite v s).clk = s.clk ∧ (scratchWrite v s).sec = s.sec ∧
    (scratchWrite v s).host = s.host ∧ (scratchWrite v s).ring = s.ring ∧ (scratchWrite v s).wards = s.wards ∧
    (scratchWrite v s).cap = s.cap ∧ (scratchWrite v s).cache = s.cache ∧ (scratchWrite v s).kcc = s.kcc ∧
    (scratchWrite v s).ledger = s.ledger ∧ (scratchWrite v s).groups = s.groups ∧ (scratchWrite v s).cells = s.cells ∧
    (scratchWrite v s).reads = s.reads ∧ (scratchWrite v s).recoveries = s.recoveries ∧
    (scratchWrite v s).nextRead = s.nextRead ∧ (scratchWrite v s).obs = s.obs ∧ (scratchWrite v s).pin = s.pin ∧
    (scratchWrite v s).regs = s.regs ∧ (scratchWrite v s).fresh = s.fresh := by
  simp [scratchWrite]
@[simp] theorem restartReg_frame (v : Word) (s : State) :
    (restartReg v s).nextRead = s.nextRead := by
  simp [restartReg]
@[simp] theorem writeReg_frame (a : Nat) (v : Word) (s : State) :
    (writeReg a v s).nextRead = s.nextRead := by
  simp [writeReg]
@[simp] theorem registerWrite_frame (off : Nat) (size : Nat) (full : Bool) (v : DWord) (s : State) :
    (registerWrite off size full v s).nextRead = s.nextRead := by
  simp [registerWrite]
@[simp] theorem readUnit_frame (off : Nat) (len : Nat) (s : State) :
    (readUnit off len s).sys = s.sys ∧ (readUnit off len s).sec = s.sec ∧ (readUnit off len s).pwr = s.pwr ∧
    (readUnit off len s).wards = s.wards ∧ (readUnit off len s).cap = s.cap ∧ (readUnit off len s).cache = s.cache ∧
    (readUnit off len s).kcc = s.kcc ∧ (readUnit off len s).groups = s.groups ∧ (readUnit off len s).cells = s.cells ∧
    (readUnit off len s).reads = s.reads ∧ (readUnit off len s).recoveries = s.recoveries ∧
    (readUnit off len s).nextRead = s.nextRead ∧ (readUnit off len s).obs = s.obs ∧ (readUnit off len s).pin = s.pin ∧
    (readUnit off len s).regs = s.regs ∧ (readUnit off len s).fresh = s.fresh := by
  unfold readUnit; (repeat' split) <;> simp [*]
@[simp] theorem refuseAccess_frame (read : Bool) (s : State) :
    (refuseAccess read s).sys = s.sys ∧ (refuseAccess read s).clk = s.clk ∧ (refuseAccess read s).sec = s.sec ∧
    (refuseAccess read s).pwr = s.pwr ∧ (refuseAccess read s).ring = s.ring ∧ (refuseAccess read s).wards = s.wards ∧
    (refuseAccess read s).cap = s.cap ∧ (refuseAccess read s).cache = s.cache ∧ (refuseAccess read s).kcc = s.kcc ∧
    (refuseAccess read s).ledger = s.ledger ∧ (refuseAccess read s).groups = s.groups ∧
    (refuseAccess read s).cells = s.cells ∧ (refuseAccess read s).reads = s.reads ∧
    (refuseAccess read s).recoveries = s.recoveries ∧ (refuseAccess read s).nextRead = s.nextRead ∧
    (refuseAccess read s).obs = s.obs ∧ (refuseAccess read s).pin = s.pin ∧ (refuseAccess read s).regs = s.regs ∧
    (refuseAccess read s).fresh = s.fresh := by
  simp [refuseAccess]
@[simp] theorem bar0Read_frame (off : Nat) (len : Nat) (s : State) :
    (bar0Read off len s).sys = s.sys ∧ (bar0Read off len s).sec = s.sec ∧ (bar0Read off len s).pwr = s.pwr ∧
    (bar0Read off len s).wards = s.wards ∧ (bar0Read off len s).cap = s.cap ∧ (bar0Read off len s).cache = s.cache ∧
    (bar0Read off len s).kcc = s.kcc ∧ (bar0Read off len s).groups = s.groups ∧ (bar0Read off len s).cells = s.cells ∧
    (bar0Read off len s).reads = s.reads ∧ (bar0Read off len s).recoveries = s.recoveries ∧
    (bar0Read off len s).nextRead = s.nextRead ∧ (bar0Read off len s).pin = s.pin ∧ (bar0Read off len s).regs = s.regs ∧
    (bar0Read off len s).fresh = s.fresh := by
  simp [bar0Read]
@[simp] theorem bell_frame (c : Ctx) (head : Bool) (v : BitVec 16) (s : State) :
    (bell c head v s).sys = s.sys ∧ (bell c head v s).clk = s.clk ∧ (bell c head v s).sec = s.sec ∧
    (bell c head v s).pwr = s.pwr ∧ (bell c head v s).cap = s.cap ∧ (bell c head v s).cache = s.cache ∧
    (bell c head v s).kcc = s.kcc ∧ (bell c head v s).groups = s.groups ∧ (bell c head v s).cells = s.cells ∧
    (bell c head v s).reads = s.reads ∧ (bell c head v s).recoveries = s.recoveries ∧
    (bell c head v s).nextRead = s.nextRead ∧ (bell c head v s).regs = s.regs ∧ (bell c head v s).fresh = s.fresh := by
  simp [bell]
@[simp] theorem bar2_frame (a : Bar2) (s : State) :
    (bar2 a s).sys = s.sys ∧ (bar2 a s).clk = s.clk ∧ (bar2 a s).sec = s.sec ∧ (bar2 a s).pwr = s.pwr ∧
    (bar2 a s).cap = s.cap ∧ (bar2 a s).cache = s.cache ∧ (bar2 a s).kcc = s.kcc ∧ (bar2 a s).groups = s.groups ∧
    (bar2 a s).cells = s.cells ∧ (bar2 a s).reads = s.reads ∧ (bar2 a s).recoveries = s.recoveries ∧
    (bar2 a s).nextRead = s.nextRead ∧ (bar2 a s).regs = s.regs ∧ (bar2 a s).fresh = s.fresh := by
  unfold bar2; (repeat' split) <;> simp [*]
@[simp] theorem bar4Read_frame (off : Nat) (len : Nat) (s : State) :
    (bar4Read off len s).sys = s.sys ∧ (bar4Read off len s).clk = s.clk ∧ (bar4Read off len s).sec = s.sec ∧
    (bar4Read off len s).pwr = s.pwr ∧ (bar4Read off len s).ring = s.ring ∧ (bar4Read off len s).wards = s.wards ∧
    (bar4Read off len s).cap = s.cap ∧ (bar4Read off len s).cache = s.cache ∧ (bar4Read off len s).kcc = s.kcc ∧
    (bar4Read off len s).ledger = s.ledger ∧ (bar4Read off len s).groups = s.groups ∧
    (bar4Read off len s).cells = s.cells ∧ (bar4Read off len s).reads = s.reads ∧
    (bar4Read off len s).recoveries = s.recoveries ∧ (bar4Read off len s).nextRead = s.nextRead ∧
    (bar4Read off len s).pin = s.pin ∧ (bar4Read off len s).regs = s.regs ∧ (bar4Read off len s).fresh = s.fresh := by
  simp [bar4Read]

end Sys2Proof.Machine
end

