-- ==== Sys2Proof/Laws/KeepOps.lean ====
section
/-! SUPPORT. The register operations, the named operations, the operand checks and the Ledger's records keep the state sound and the queue as it was. -/

set_option linter.unusedTactic false
set_option linter.unreachableTactic false
set_option linter.unnecessarySeqFocus false

namespace Sys2Proof.Machine

@[simp] theorem State_setReg_sound {s : State} (a : Nat) (v : Word) (hS : Sound s) : Sound (State.setReg s a v) := by
  unfold State.setReg
  split
  · rename_i i hi
    have hr : i.reset = regReset a := by simp [regReset, hi]
    have := Tab.set_wf regReset s.regs a (v &&& i.mask) hS.regs
    rw [← hr] at this
    simp [hS, this]
  · exact hS

@[simp] theorem State_setReg_pending (s : State) (a : Nat) (v : Word) : (State.setReg s a v).pending = s.pending := by
  unfold State.setReg
  first | done | with_reducible rfl | skip
  all_goals try dsimp only
  all_goals (repeat' first | with_reducible refine foldl_pending_to _ _ (fun s x => ?_) ?_ | split) <;> first | (simp (maxDischargeDepth := 40) [*]; done) | (simp +contextual (maxDischargeDepth := 40) [*]; done)

@[simp] theorem uartAfter_cfg (n : Nat) (p : PinBlk) : (uartAfter n p).cfg = p.cfg := by
  unfold uartAfter; split <;> rfl
@[simp] theorem uartAfter_switching (n : Nat) (p : PinBlk) : (uartAfter n p).switching = p.switching := by
  unfold uartAfter; split <;> rfl

@[simp] theorem latchReject_keeps (l : List (BitVec 18 × Word)) (s : State) :
    (Sound s → Sound (latchReject l s)) ∧ (latchReject l s).pending = s.pending := by
  unfold latchReject; (repeat' split) <;> simp +contextual [*]
@[simp] theorem reject_keeps (a : Nat) (v : Word) (s : State) :
    (Sound s → Sound (reject a v s)) ∧ (reject a v s).pending = s.pending := by
  simp +contextual [reject]
@[simp] theorem State_setWard_keeps (s : State) (w : WardId) (x : Ward) :
    (Sound s → Sound (State.setWard s w x)) ∧ (State.setWard s w x).pending = s.pending := by
  simp +contextual [State.setWard]
@[simp] theorem State_setGroup_keeps (s : State) (g : GroupId) (x : Group) :
    (Sound s → Sound (State.setGroup s g x)) ∧ (State.setGroup s g x).pending = s.pending := by
  simp +contextual [State.setGroup]
@[simp] theorem State_setCell_keeps (s : State) (c : CellId) (x : Cell) :
    (Sound s → Sound (State.setCell s c x)) ∧ (State.setCell s c x).pending = s.pending := by
  simp +contextual [State.setCell]
@[simp] theorem State_setPort_keeps (s : State) (p : PortId) (x : Port) :
    (Sound s → Sound (State.setPort s p x)) ∧ (State.setPort s p x).pending = s.pending := by
  simp +contextual [State.setPort]
@[simp] theorem State_setTumb_keeps (s : State) (i : Nat) (e : TumbEntry) :
    (Sound s → Sound (State.setTumb s i e)) ∧ (State.setTumb s i e).pending = s.pending := by
  simp +contextual [State.setTumb]
@[simp] theorem State_updWard_keeps (s : State) (w : WardId) (f : Ward → Ward) :
    (Sound s → Sound (State.updWard s w f)) ∧ (State.updWard s w f).pending = s.pending := by
  simp +contextual [State.updWard]
@[simp] theorem State_updCell_keeps (s : State) (c : CellId) (f : Cell → Cell) :
    (Sound s → Sound (State.updCell s c f)) ∧ (State.updCell s c f).pending = s.pending := by
  simp +contextual [State.updCell]
@[simp] theorem State_updServo_keeps (s : State) (c : CellId) (f : Servo → Servo) :
    (Sound s → Sound (State.updServo s c f)) ∧ (State.updServo s c f).pending = s.pending := by
  simp +contextual [State.updServo]
@[simp] theorem State_updArm_keeps (s : State) (c : CellId) (f : ArmLink → ArmLink) :
    (Sound s → Sound (State.updArm s c f)) ∧ (State.updArm s c f).pending = s.pending := by
  simp +contextual [State.updArm]
@[simp] theorem State_updGroup_keeps (s : State) (g : GroupId) (f : Group → Group) :
    (Sound s → Sound (State.updGroup s g f)) ∧ (State.updGroup s g f).pending = s.pending := by
  simp +contextual [State.updGroup]
@[simp] theorem mark_keeps (a : Nat) (k : Nat) (s : State) :
    (Sound s → Sound (mark a k s)) ∧ (mark a k s).pending = s.pending := by
  simp +contextual [mark]
@[simp] theorem unmark_keeps (a : Nat) (k : Nat) (s : State) :
    (Sound s → Sound (unmark a k s)) ∧ (unmark a k s).pending = s.pending := by
  simp +contextual [unmark]
@[simp] theorem bump_keeps (off : Nat) (n : Nat) (s : State) :
    (Sound s → Sound (bump off n s)) ∧ (bump off n s).pending = s.pending := by
  simp +contextual [bump]
@[simp] theorem ppsOutAfter_keeps (t0 : DWord) (s : State) :
    (Sound s → Sound (ppsOutAfter t0 s)) ∧ (ppsOutAfter t0 s).pending = s.pending := by
  simp +contextual [ppsOutAfter]
@[simp] theorem elapseBy_keeps (p : Nat) (n : Nat) (s : State) :
    (Sound s → Sound (elapseBy p n s)) ∧ (elapseBy p n s).pending = s.pending := by
  simp +contextual (maxDischargeDepth := 40) [elapseBy]
@[simp] theorem elapse_keeps (n : Nat) (s : State) :
    (Sound s → Sound (elapse n s)) ∧ (elapse n s).pending = s.pending := by
  simp +contextual [elapse]
@[simp] theorem elapseTo_keeps (b : Nat) (s : State) :
    (Sound s → Sound (elapseTo b s)) ∧ (elapseTo b s).pending = s.pending := by
  simp +contextual [elapseTo]
@[simp] theorem wait_keeps (n : Nat) (s : State) :
    (Sound s → Sound (wait n s)) ∧ (wait n s).pending = s.pending := by
  simp +contextual [wait]
@[simp] theorem console_keeps (e : Event) (s : State) :
    (Sound s → Sound (console e s)) ∧ (console e s).pending = s.pending := by
  simp +contextual [console]
@[simp] theorem insertEvent_keeps (i : Nat) (e : Event) (s : State) :
    (Sound s → Sound (insertEvent i e s)) ∧ (insertEvent i e s).pending = s.pending := by
  simp +contextual (maxDischargeDepth := 40) [insertEvent]
@[simp] theorem joinEvent_keeps (e : Event) (s : State) :
    (Sound s → Sound (joinEvent e s)) ∧ (joinEvent e s).pending = s.pending := by
  simp +contextual [joinEvent]
@[simp] theorem logEvent_keeps (code : Nat) (index : Nat) (arg0 : Nat) (arg1 : Nat) (s : State) :
    (Sound s → Sound (logEvent code index arg0 arg1 s)) ∧ (logEvent code index arg0 arg1 s).pending = s.pending := by
  simp +contextual [logEvent]
@[simp] theorem answer_keeps (r : Resp) (s : State) :
    (Sound s → Sound (answer r s)) ∧ (answer r s).pending = s.pending := by
  simp +contextual [answer]
@[simp] theorem emit_keeps (o : Out) (s : State) :
    (Sound s → Sound (emit o s)) ∧ (emit o s).pending = s.pending := by
  simp +contextual [emit]
@[simp] theorem sendMsix_keeps (v : Nat) (s : State) :
    (Sound s → Sound (sendMsix v s)) ∧ (sendMsix v s).pending = s.pending := by
  simp +contextual [sendMsix]
@[simp] theorem fireVector_keeps (v : Nat) (s : State) :
    (Sound s → Sound (fireVector v s)) ∧ (fireVector v s).pending = s.pending := by
  simp +contextual [fireVector]
@[simp] theorem joinPend_keeps (c : Ctx) (s : State) :
    (Sound s → Sound (joinPend c s)) ∧ (joinPend c s).pending = s.pending := by
  simp +contextual [joinPend]
@[simp] theorem addPend_keeps (c : Ctx) (s : State) :
    (Sound s → Sound (addPend c s)) ∧ (addPend c s).pending = s.pending := by
  simp +contextual [addPend]
@[simp] theorem dropPend_keeps (gone : Ctx → Bool) (s : State) :
    (Sound s → Sound (dropPend gone s)) ∧ (dropPend gone s).pending = s.pending := by
  simp +contextual [dropPend]
@[simp] theorem State_setRing_keeps (s : State) (c : Ctx) (r : Ring) :
    (Sound s → Sound (State.setRing s c r)) ∧ (State.setRing s c r).pending = s.pending := by
  unfold State.setRing; (repeat' split) <;> simp +contextual [*]
@[simp] theorem aer_keeps (k : Nat) (s : State) :
    (Sound s → Sound (aer k s)) ∧ (aer k s).pending = s.pending := by
  simp +contextual [aer]
@[simp] theorem aerRead_keeps (w : ReadFail) (s : State) :
    (Sound s → Sound (aerRead w s)) ∧ (aerRead w s).pending = s.pending := by
  unfold aerRead; (repeat' split) <;> simp +contextual [*]
@[simp] theorem putOut_keeps (h : Held) (s : State) :
    (Sound s → Sound (putOut h s)) ∧ (putOut h s).pending = s.pending := by
  unfold putOut; (repeat' split) <;> simp +contextual [*]
@[simp] theorem send_keeps (h : Held) (s : State) :
    (Sound s → Sound (send h s)) ∧ (send h s).pending = s.pending := by
  unfold send; (repeat' split) <;> simp +contextual [*]
@[simp] theorem faultWard_keeps (w : WardId) (cause : BitVec 2) (s : State) :
    (Sound s → Sound (faultWard w cause s)) ∧ (faultWard w cause s).pending = s.pending := by
  unfold faultWard; (repeat' split) <;> simp +contextual [*]
@[simp] theorem countMalformed_keeps (c : Ctx) (status : Nat) (s : State) :
    (Sound s → Sound (countMalformed c status s)) ∧ (countMalformed c status s).pending = s.pending := by
  unfold countMalformed; (repeat' split) <;> simp +contextual [*]
@[simp] theorem postCompletion_keeps (c : Ctx) (tag : Nat) (status : Nat) (orig : Nat) (detail : Nat) (chained : Bool) (s
    : State) :
    (Sound s → Sound (postCompletion c tag status orig detail chained s)) ∧
    (postCompletion c tag status orig detail chained s).pending = s.pending := by
  simp +contextual (maxDischargeDepth := 40) [postCompletion]
@[simp] theorem State_setJob_keeps (s : State) (j : Job) :
    (Sound s → Sound (State.setJob s j)) ∧ (State.setJob s j).pending = s.pending := by
  simp +contextual [State.setJob]
@[simp] theorem State_dropJob_keeps (s : State) (id : Nat) :
    (Sound s → Sound (State.dropJob s id)) ∧ (State.dropJob s id).pending = s.pending := by
  simp +contextual [State.dropJob]
@[simp] theorem applyAdmin_keeps (s : State) :
    (Sound s → Sound (applyAdmin s)) ∧ (applyAdmin s).pending = s.pending := by
  simp +contextual [applyAdmin]
@[simp] theorem applyWhenClear_keeps (s : State) :
    (Sound s → Sound (applyWhenClear s)) ∧ (applyWhenClear s).pending = s.pending := by
  simp +contextual [applyWhenClear]
@[simp] theorem finish_keeps (j : Job) (status : Nat) (orig : Nat) (detail : Nat) (s : State) :
    (Sound s → Sound (finish j status orig detail s)) ∧ (finish j status orig detail s).pending = s.pending := by
  simp +contextual (maxDischargeDepth := 40) [finish]
@[simp] theorem recordCommit_keeps (c : Ctx) (n : BitVec 48) (status : Nat) (s : State) :
    (Sound s → Sound (recordCommit c n status s)) ∧ (recordCommit c n status s).pending = s.pending := by
  unfold recordCommit; (repeat' split) <;> simp +contextual [*]
@[simp] theorem endSession_keeps (s : State) :
    (Sound s → Sound (endSession s)) ∧ (endSession s).pending = s.pending := by
  simp +contextual [endSession]
@[simp] theorem scatter_keeps (a0 : List (DWord × Nat)) (a1 : Bytes) (s : State) :
    (Sound s → Sound (scatter a0 a1 s)) ∧ (scatter a0 a1 s).pending = s.pending := by
  induction a0 generalizing a1 s <;> simp +contextual [scatter, *]
@[simp] theorem freeWord_keeps (s : State) :
    (Sound s → Sound (freeWord s).2) ∧ (freeWord s).2.pending = s.pending := by
  simp +contextual [freeWord]
@[simp] theorem verdictDetail_keeps (status : Nat) (d : Option Nat) (s : State) :
    (Sound s → Sound (verdictDetail status d s).2) ∧ (verdictDetail status d s).2.pending = s.pending := by
  unfold verdictDetail; (repeat' split) <;> simp +contextual [*]
@[simp] theorem failWith_keeps (j : Job) (status : Nat) (d : Option Nat) (s : State) :
    (Sound s → Sound (failWith j status d s)) ∧ (failWith j status d s).pending = s.pending := by
  simp +contextual [failWith]
@[simp] theorem admitJob_keeps (j : Job) (s : State) :
    (Sound s → Sound (admitJob j s)) ∧ (admitJob j s).pending = s.pending := by
  unfold admitJob; (repeat' split) <;> simp +contextual [*]
@[simp] theorem State_updIntent_keeps (s : State) (n : DWord) (f : Intent → Intent) :
    (Sound s → Sound (State.updIntent s n f)) ∧ (State.updIntent s n f).pending = s.pending := by
  simp +contextual [State.updIntent]
@[simp] theorem putSlots_sound : ∀ (n slot : Nat) (b : Bytes) (s : State), Sound s → Sound (putSlots n slot b s)
  | 0, _, _, _, h => h
  | n + 1, slot, b, s, h => putSlots_sound n _ _ _ (by simp [h])
@[simp] theorem putSlots_pending : ∀ (n slot : Nat) (b : Bytes) (s : State), (putSlots n slot b s).pending = s.pending
  | 0, _, _, _ => rfl
  | n + 1, _, _, _ => putSlots_pending n _ _ _

@[simp] theorem moveRun_keeps (old : Nat) (new : Nat) (s : State) :
    (Sound s → Sound (moveRun old new s)) ∧ (moveRun old new s).pending = s.pending := by
  simp +contextual [moveRun]

end Sys2Proof.Machine
end

