-- ==== Sys2Proof/Laws/KeepStore.lean ====
section
/-! SUPPORT. The media side, capture, what COMMITs bring, the Ledger and the cell ports keep the state sound and the queue as it was. -/

set_option linter.unusedTactic false
set_option linter.unreachableTactic false
set_option linter.unnecessarySeqFocus false

namespace Sys2Proof.Machine

@[simp] theorem State_setLine_keeps (s : State) (k : Nat) (l : Line) :
    (Sound s → Sound (State.setLine s k l)) ∧ (State.setLine s k l).pending = s.pending := by
  simp +contextual [State.setLine]
@[simp] theorem touch_keeps (k : Nat) (s : State) :
    (Sound s → Sound (touch k s)) ∧ (touch k s).pending = s.pending := by
  simp +contextual [touch]
@[simp] theorem startEviction_keeps (c : Nat) (set : Nat) (s : State) :
    (Sound s → Sound (startEviction c set s)) ∧ (startEviction c set s).pending = s.pending := by
  unfold startEviction; dsimp only; (repeat' split) <;> simp +contextual (maxDischargeDepth := 40) [*]
@[simp] theorem install_keeps (c : Nat) (a : SubAddr) (x : Sub) (s : State) :
    (Sound s → Sound (install c a x s)) ∧ (install c a x s).pending = s.pending := by
  unfold install; dsimp only; (repeat' split) <;> simp +contextual (maxDischargeDepth := 40) [*]
@[simp] theorem updCached_keeps (a : SubAddr) (f : Sub → Option Sub) (s : State) :
    (Sound s → Sound (updCached a f s)) ∧ (updCached a f s).pending = s.pending := by
  unfold updCached; (repeat' split) <;> simp +contextual [*]
@[simp] theorem countHit_keeps (a : SubAddr) (s : State) :
    (Sound s → Sound (countHit a s)) ∧ (countHit a s).pending = s.pending := by
  unfold countHit; (repeat' split) <;> simp +contextual [*]
@[simp] theorem retryWait_keeps (w : Nat × SubAddr × Nat) (s : State) :
    (Sound s → Sound (retryWait w s)) ∧ (retryWait w s).pending = s.pending := by
  unfold retryWait; dsimp only; (repeat' split) <;> simp +contextual (maxDischargeDepth := 40) [*]
@[simp] theorem retryWaits_keeps (s : State) :
    (Sound s → Sound (retryWaits s)) ∧ (retryWaits s).pending = s.pending := by
  simp +contextual (maxDischargeDepth := 40) [retryWaits]
@[simp] theorem policyOf_keeps (g : GroupId) (space : Nat) (w : WardId) (s : State) :
    (Sound s → Sound (policyOf g space w s).2) ∧ (policyOf g space w s).2.pending = s.pending := by
  unfold policyOf; dsimp only; (repeat' split) <;> simp +contextual (maxDischargeDepth := 40) [*]
@[simp] theorem refreshCap_keeps (s : State) :
    (Sound s → Sound (refreshCap s)) ∧ (refreshCap s).pending = s.pending := by
  unfold refreshCap; (repeat' split) <;> simp +contextual [*]
@[simp] theorem pumpPort_keeps (s : State) :
    (Sound s → Sound (pumpPort s)) ∧ (pumpPort s).pending = s.pending := by
  simp +contextual [pumpPort]
@[simp] theorem toPort_keeps (l : List (PortItem × Nat)) (s : State) :
    (Sound s → Sound (toPort l s)) ∧ (toPort l s).pending = s.pending := by
  simp +contextual [toPort]
@[simp] theorem addMark_keeps (k : MarkKind) (s : State) :
    (Sound s → Sound (addMark k s)) ∧ (addMark k s).pending = s.pending := by
  simp +contextual [addMark]
@[simp] theorem dropMarks_keeps (f : Mark → Bool) (s : State) :
    (Sound s → Sound (dropMarks f s)) ∧ (dropMarks f s).pending = s.pending := by
  simp +contextual [dropMarks]
@[simp] theorem pruneIntents_keeps (s : State) :
    (Sound s → Sound (pruneIntents s)) ∧ (pruneIntents s).pending = s.pending := by
  simp +contextual [pruneIntents]
@[simp] theorem releaseWhere_keeps (f : Intent → DataRec → Bool) (h : Intent → ParRec → Bool) (s : State) :
    (Sound s → Sound (releaseWhere f h s)) ∧ (releaseWhere f h s).pending = s.pending := by
  simp +contextual (maxDischargeDepth := 40) [releaseWhere]
@[simp] theorem armSend_keeps (c : CellId) (cmd : Nat) (arg : Nat) (s : State) :
    (Sound s → Sound (armSend c cmd arg s)) ∧ (armSend c cmd arg s).pending = s.pending := by
  simp +contextual [armSend]
@[simp] theorem parkCell_keeps (c : CellId) (s : State) :
    (Sound s → Sound (parkCell c s)) ∧ (parkCell c s).pending = s.pending := by
  simp +contextual [parkCell]
@[simp] theorem parkAfter_keeps (c : CellId) (due : Option DWord) (s : State) :
    (Sound s → Sound (parkAfter c due s)) ∧ (parkAfter c due s).pending = s.pending := by
  simp +contextual [parkAfter]
@[simp] theorem dropGate_keeps (c : CellId) (s : State) :
    (Sound s → Sound (dropGate c s)) ∧ (dropGate c s).pending = s.pending := by
  unfold dropGate; dsimp only; (repeat' split) <;> simp +contextual (maxDischargeDepth := 40) [*]
@[simp] theorem endAndPark_keeps (due : DWord) (c : CellId) (s : State) :
    (Sound s → Sound (endAndPark due c s)) ∧ (endAndPark due c s).pending = s.pending := by
  simp +contextual [endAndPark]
@[simp] theorem lateGate_keeps (s : State) (c : CellId) :
    (Sound s → Sound (lateGate s c)) ∧ (lateGate s c).pending = s.pending := by
  unfold lateGate; (repeat' split) <;> simp +contextual [*]
@[simp] theorem lateGates_keeps (s : State) :
    (Sound s → Sound (lateGates s)) ∧ (lateGates s).pending = s.pending := by
  simp +contextual [lateGates]
@[simp] theorem cancelRetries_keeps (c : CellId) (s : State) :
    (Sound s → Sound (cancelRetries c s)) ∧ (cancelRetries c s).pending = s.pending := by
  simp +contextual [cancelRetries]
@[simp] theorem abortRebuild_keeps (g : GroupId) (s : State) :
    (Sound s → Sound (abortRebuild g s)) ∧ (abortRebuild g s).pending = s.pending := by
  simp +contextual [abortRebuild]
@[simp] theorem groupDown_keeps (g : GroupId) (s : State) :
    (Sound s → Sound (groupDown g s)) ∧ (groupDown g s).pending = s.pending := by
  simp +contextual (maxDischargeDepth := 40) [groupDown]
@[simp] theorem requeue_keeps (c : CellId) (s : State) :
    (Sound s → Sound (requeue c s)) ∧ (requeue c s).pending = s.pending := by
  simp +contextual (maxDischargeDepth := 40) [requeue]
@[simp] theorem startRebuild_keeps (g : GroupId) (m : Nat) (rate : Nat) (copy : Bool) (s : State) :
    (Sound s → Sound (startRebuild g m rate copy s)) ∧ (startRebuild g m rate copy s).pending = s.pending := by
  simp +contextual [startRebuild]
@[simp] theorem failMember_keeps (g : GroupId) (m : Nat) (s : State) :
    (Sound s → Sound (failMember g m s)) ∧ (failMember g m s).pending = s.pending := by
  simp +contextual (maxDischargeDepth := 40) [failMember]
@[simp] theorem cellGone_keeps (c : CellId) (s : State) (g : GroupId) :
    (Sound s → Sound (cellGone c s g)) ∧ (cellGone c s g).pending = s.pending := by
  unfold cellGone; dsimp only; (repeat' split) <;> simp +contextual (maxDischargeDepth := 40) [*]
@[simp] theorem cellLost_keeps (c : CellId) (s : State) :
    (Sound s → Sound (cellLost c s)) ∧ (cellLost c s).pending = s.pending := by
  simp +contextual [cellLost]
@[simp] theorem cellFault_keeps (c : CellId) (code : BitVec 3) (s : State) :
    (Sound s → Sound (cellFault c code s)) ∧ (cellFault c code s).pending = s.pending := by
  simp +contextual (maxDischargeDepth := 40) [cellFault]
@[simp] theorem armSlot_keeps (c : CellId) (s : State) :
    (Sound s → Sound (armSlot c s)) ∧ (armSlot c s).pending = s.pending := by
  simp +contextual [armSlot]
@[simp] theorem bringUp_keeps (c : CellId) (s : State) :
    (Sound s → Sound (bringUp c s)) ∧ (bringUp c s).pending = s.pending := by
  simp +contextual [bringUp]
@[simp] theorem bringUpAll_keeps (s : State) :
    (Sound s → Sound (bringUpAll s)) ∧ (bringUpAll s).pending = s.pending := by
  simp +contextual [bringUpAll]
@[simp] theorem dropMedia_keeps (s : State) :
    (Sound s → Sound (dropMedia s)) ∧ (dropMedia s).pending = s.pending := by
  simp +contextual [dropMedia]
@[simp] theorem pauseWork_keeps (s : State) :
    (Sound s → Sound (pauseWork s)) ∧ (pauseWork s).pending = s.pending := by
  simp +contextual [pauseWork]
@[simp] theorem finishWhere_keeps (f : Job → Bool) (status : Nat) (s : State) :
    (Sound s → Sound (finishWhere f status s)) ∧ (finishWhere f status s).pending = s.pending := by
  simp +contextual [finishWhere]
@[simp] theorem refuseVote_keeps (slot : Nat) (cause : Nat) (s : State) :
    (Sound s → Sound (refuseVote slot cause s)) ∧ (refuseVote slot cause s).pending = s.pending := by
  simp +contextual (maxDischargeDepth := 40) [refuseVote]
@[simp] theorem takeBack_keeps (code : BitVec 16) (s : State) :
    (Sound s → Sound (takeBack code s)) ∧ (takeBack code s).pending = s.pending := by
  simp +contextual [takeBack]
@[simp] theorem holdWins_keeps (s : State) :
    (Sound s → Sound (holdWins s)) ∧ (holdWins s).pending = s.pending := by
  unfold holdWins; dsimp only; (repeat' split) <;> simp +contextual (maxDischargeDepth := 40) [*]
@[simp] theorem safeHold_keeps (cause : BitVec 7) (s : State) :
    (Sound s → Sound (safeHold cause s)) ∧ (safeHold cause s).pending = s.pending := by
  simp +contextual (maxDischargeDepth := 40) [safeHold]
@[simp] theorem closeBlock_keeps (w : WardId) (code : Nat) (next : DWord) (s : State) :
    (Sound s → Sound (closeBlock w code next s)) ∧ (closeBlock w code next s).pending = s.pending := by
  unfold closeBlock; (repeat' split) <;> simp +contextual [*]
@[simp] theorem closeAll_keeps (code : Nat) (s : State) :
    (Sound s → Sound (closeAll code s)) ∧ (closeAll code s).pending = s.pending := by
  simp +contextual [closeAll]
@[simp] theorem appendBytes_keeps (n : Nat) (w : WardId) (st : Bool) (q : DWord) (p : Nat) (d : Bytes) (s : State) :
    (Sound s → Sound (appendBytes n w st q p d s)) ∧ (appendBytes n w st q p d s).pending = s.pending := by
  induction n generalizing w st q p d s with
  | zero => simp [appendBytes]
  | succ n ih =>
    unfold appendBytes; dsimp only
    generalize (if st = true then ((s.ward w).openBlk.getD {}).begins q else (s.ward w).openBlk.getD {}) = b
    split
    · exact ⟨fun h => (ih _ _ _ _ _ _).1 (by simp [h]), by rw [(ih _ _ _ _ _ _).2]; simp⟩
    · split <;> simp +contextual

@[simp] theorem addGap_keeps (w : WardId) (n : Nat) (s : State) :
    (Sound s → Sound (addGap w n s)) ∧ (addGap w n s).pending = s.pending := by
  simp +contextual [addGap]
@[simp] theorem keepEntry_keeps (i : Nat) (old : Option TumbEntry) (e : TumbEntry) (s : State) :
    (Sound s → Sound (keepEntry i old e s)) ∧ (keepEntry i old e s).pending = s.pending := by
  unfold keepEntry; (repeat' split) <;> simp +contextual [*]
@[simp] theorem decideFrame_keeps (i : Nat) (old : Option TumbEntry) (p : PortId) (r : Rx) (b : Bytes) (s : State) :
    (Sound s → Sound (decideFrame i old p r b s)) ∧ (decideFrame i old p r b s).pending = s.pending := by
  simp +contextual (maxDischargeDepth := 40) [decideFrame]
@[simp] theorem countError_keeps (p : PortId) (k : Nat) (s : State) :
    (Sound s → Sound (countError p k s)) ∧ (countError p k s).pending = s.pending := by
  simp +contextual (maxDischargeDepth := 40) [countError]
@[simp] theorem frameEnds_keeps (p : PortId) (r : Rx) (f : Frame) (s : State) :
    (Sound s → Sound (frameEnds p r f s)) ∧ (frameEnds p r f s).pending = s.pending := by
  unfold frameEnds; dsimp only; (repeat' split) <;> simp +contextual (maxDischargeDepth := 40) [*]
@[simp] theorem cutFrame_keeps (p : PortId) (got : Nat) (s : State) :
    (Sound s → Sound (cutFrame p got s)) ∧ (cutFrame p got s).pending = s.pending := by
  simp +contextual [cutFrame]
@[simp] theorem setRx_keeps (p : PortId) (r : Option Rx) (s : State) :
    (Sound s → Sound (setRx p r s)) ∧ (setRx p r s).pending = s.pending := by
  simp +contextual [setRx]
@[simp] theorem rxEvent_keeps (p : PortId) (e : RxEvent) (s : State) :
    (Sound s → Sound (rxEvent p e s)) ∧ (rxEvent p e s).pending = s.pending := by
  unfold rxEvent; (repeat' split) <;> simp +contextual [*]
@[simp] theorem rxMaybe_keeps (p : PortId) (e : Option RxEvent) (s : State) :
    (Sound s → Sound (rxMaybe p e s)) ∧ (rxMaybe p e s).pending = s.pending := by
  unfold rxMaybe; (repeat' split) <;> simp +contextual [*]
@[simp] theorem changeLock_sound (p : PortId) (got : Nat) (f : State → State) (s : State)
    (hf : ∀ s : State, Sound s → Sound (f s)) (hS : Sound s) : Sound (changeLock p got f s) := by
  have h := hf s hS
  unfold changeLock; split
  · exact (cutFrame_keeps _ _ _).1 ((mark_keeps _ _ _).1 ((logEvent_keeps _ _ _ _ _).1 ((State_setPort_keeps _ _ _).1 h)))
  · exact h
@[simp] theorem changeLock_pending (p : PortId) (got : Nat) (f : State → State) (s : State)
    (hp : ∀ s : State, (f s).pending = s.pending) : (changeLock p got f s).pending = s.pending := by
  unfold changeLock; split <;> simp [hp]

@[simp] theorem portCtrlWrite_keeps (p : PortId) (v : Word) (s : State) :
    (Sound s → Sound (portCtrlWrite p v s)) ∧ (portCtrlWrite p v s).pending = s.pending := by
  have hs (t : State) : Sound t → Sound (let s1 := t.setReg (0x0C000 + 0x400 * p.val) v
      if portMode p s1 = 4 then s1 else s1.setPort p { s1.port p with amLock := false }) := by
    intro h; dsimp only; split <;> simp [h]
  have hp (t : State) : (let s1 := t.setReg (0x0C000 + 0x400 * p.val) v
      if portMode p s1 = 4 then s1 else s1.setPort p { s1.port p with amLock := false }).pending = t.pending := by
    dsimp only; split <;> simp
  unfold portCtrlWrite; dsimp only
  refine ⟨fun hS => ?_, ?_⟩
  · have h := changeLock_sound p (freeWord s).1.toNat _ _ hs ((freeWord_keeps s).1 hS)
    split
    · exact h
    · exact (setRx_keeps _ _ _).1 h
  · split
    · rw [changeLock_pending _ _ _ _ hp, (freeWord_keeps s).2]
    · rw [(setRx_keeps _ _ _).2, changeLock_pending _ _ _ _ hp, (freeWord_keeps s).2]

@[simp] theorem rxOff_keeps (s : State) :
    (Sound s → Sound (rxOff s)) ∧ (rxOff s).pending = s.pending := by
  simp +contextual [rxOff]
@[simp] theorem ageBlock_keeps (w : WardId) (s : State) :
    (Sound s → Sound (ageBlock w s)) ∧ (ageBlock w s).pending = s.pending := by
  unfold ageBlock; (repeat' split) <;> simp +contextual [*]
@[simp] theorem endTurn_keeps (s : State) :
    (Sound s → Sound (endTurn s)) ∧ (endTurn s).pending = s.pending := by
  simp +contextual [endTurn]
@[simp] theorem dropReads_keeps (c : Ctx) (s : State) :
    (Sound s → Sound (dropReads c s)) ∧ (dropReads c s).pending = s.pending := by
  simp +contextual [dropReads]
@[simp] theorem stopRings_keeps (w : WardId) (s : State) :
    (Sound s → Sound (stopRings w s)) ∧ (stopRings w s).pending = s.pending := by
  simp +contextual [stopRings]
@[simp] theorem newJob_keeps (c : Ctx) (es : List Bytes) (s : State) :
    (Sound s → Sound (newJob c es s).2) ∧ (newJob c es s).2.pending = s.pending := by
  simp +contextual [newJob]
@[simp] theorem addJob_keeps (j : Job) (s : State) :
    (Sound s → Sound (addJob j s)) ∧ (addJob j s).pending = s.pending := by
  simp +contextual [addJob]
@[simp] theorem endChain_keeps (c : Ctx) (status : Nat) (ch : Chain) (s : State) :
    (Sound s → Sound (endChain c status ch s)) ∧ (endChain c status ch s).pending = s.pending := by
  simp +contextual (maxDischargeDepth := 40) [endChain]
@[simp] theorem endOpen_keeps (c : Ctx) (status : Nat) (s : State) :
    (Sound s → Sound (endOpen c status s)) ∧ (endOpen c status s).pending = s.pending := by
  unfold endOpen; (repeat' split) <;> simp +contextual [*]
@[simp] theorem checkAppendFull_keeps (w : WardId) (s : State) :
    (Sound s → Sound (checkAppendFull w s)) ∧ (checkAppendFull w s).pending = s.pending := by
  simp +contextual [checkAppendFull]
@[simp] theorem applyRings_keeps (w : WardId) (j : Job) (s : State) :
    (Sound s → Sound (applyRings w j s)) ∧ (applyRings w j s).pending = s.pending := by
  simp +contextual [applyRings]
@[simp] theorem clearWardRings_keeps (w : WardId) (s : State) :
    (Sound s → Sound (clearWardRings w s)) ∧ (clearWardRings w s).pending = s.pending := by
  simp +contextual [clearWardRings]
@[simp] theorem setRings_keeps (w : WardId) (j : Job) (s : State) :
    (Sound s → Sound (setRings w j s)) ∧ (setRings w j s).pending = s.pending := by
  simp +contextual [setRings]
@[simp] theorem setSched_keeps (w : WardId) (j : Job) (s : State) :
    (Sound s → Sound (setSched w j s)) ∧ (setSched w j s).pending = s.pending := by
  simp +contextual [setSched]
@[simp] theorem resizeTo_keeps (w : WardId) (b : Extent) (p : Extent) (s : State) :
    (Sound s → Sound (resizeTo w b p s)) ∧ (resizeTo w b p s).pending = s.pending := by
  simp +contextual [resizeTo]
@[simp] theorem dropKey_keeps (w : WardId) (s : State) :
    (Sound s → Sound (dropKey w s)) ∧ (dropKey w s).pending = s.pending := by
  simp +contextual [dropKey]
@[simp] theorem resetEnds_keeps (w : WardId) (s : State) :
    (Sound s → Sound (resetEnds w s)) ∧ (resetEnds w s).pending = s.pending := by
  simp +contextual (maxDischargeDepth := 40) [resetEnds]
@[simp] theorem destroyEnds_keeps (w : WardId) (s : State) :
    (Sound s → Sound (destroyEnds w s)) ∧ (destroyEnds w s).pending = s.pending := by
  simp +contextual (maxDischargeDepth := 40) [destroyEnds]
@[simp] theorem tumblerApply_keeps (first : Nat) (images : List Bytes) (s : State) :
    (Sound s → Sound (tumblerApply first images s)) ∧ (tumblerApply first images s).pending = s.pending := by
  simp +contextual (maxDischargeDepth := 40) [tumblerApply]
@[simp] theorem groupGone_keeps (g : GroupId) (s : State) :
    (Sound s → Sound (groupGone g s)) ∧ (groupGone g s).pending = s.pending := by
  simp +contextual (maxDischargeDepth := 40) [groupGone]
@[simp] theorem groupSetTo_keeps (j : Job) (s : State) :
    (Sound s → Sound (groupSetTo j s)) ∧ (groupSetTo j s).pending = s.pending := by
  simp +contextual [groupSetTo]
@[simp] theorem rebuildTo_keeps (j : Job) (s : State) :
    (Sound s → Sound (rebuildTo j s)) ∧ (rebuildTo j s).pending = s.pending := by
  unfold rebuildTo; dsimp only; (repeat' split) <;> simp +contextual (maxDischargeDepth := 40) [*]
@[simp] theorem scrubTo_keeps (j : Job) (s : State) :
    (Sound s → Sound (scrubTo j s)) ∧ (scrubTo j s).pending = s.pending := by
  simp +contextual [scrubTo]
@[simp] theorem waysBack_keeps (m : BitVec 16) (s : State) :
    (Sound s → Sound (waysBack m s)) ∧ (waysBack m s).pending = s.pending := by
  simp +contextual [waysBack]
@[simp] theorem logTo_keeps (j : Job) (s : State) :
    (Sound s → Sound (logTo j s)) ∧ (logTo j s).pending = s.pending := by
  simp +contextual [logTo]
@[simp] theorem entryEffect_keeps (i : Intent) (s : State) :
    (Sound s → Sound (entryEffect i s)) ∧ (entryEffect i s).pending = s.pending := by
  unfold entryEffect; (repeat' split) <;> simp +contextual [*]
@[simp] theorem applyEffect_keeps (i : Intent) (s : State) :
    (Sound s → Sound (applyEffect i s)) ∧ (applyEffect i s).pending = s.pending := by
  unfold applyEffect; (repeat' split) <;> simp +contextual [*]
@[simp] theorem kccLookup_keeps (w : WardId) (s : State) :
    (Sound s → Sound (kccLookup w s).2) ∧ (kccLookup w s).2.pending = s.pending := by
  unfold kccLookup; (repeat' split) <;> simp +contextual [*]
@[simp] theorem queueCommit_keeps (n : DWord) (s : State) :
    (Sound s → Sound (queueCommit n s)) ∧ (queueCommit n s).pending = s.pending := by
  simp +contextual [queueCommit]
@[simp] theorem commitHeld_keeps (s : State) (i : Intent) :
    (Sound s → Sound (commitHeld s i)) ∧ (commitHeld s i).pending = s.pending := by
  unfold commitHeld; (repeat' split) <;> simp +contextual [*]
@[simp] theorem holdCheck_keeps (s : State) :
    (Sound s → Sound (holdCheck s)) ∧ (holdCheck s).pending = s.pending := by
  simp +contextual [holdCheck]
@[simp] theorem recordsDone_keeps (n : DWord) (s : State) :
    (Sound s → Sound (recordsDone n s)) ∧ (recordsDone n s).pending = s.pending := by
  simp +contextual [recordsDone]
@[simp] theorem loseBlock_keeps (b : SealedBlk) (s : State) :
    (Sound s → Sound (loseBlock b s)) ∧ (loseBlock b s).pending = s.pending := by
  simp +contextual (maxDischargeDepth := 40) [loseBlock]
@[simp] theorem newIntent_keeps (i : Intent) (s : State) :
    (Sound s → Sound (newIntent i s)) ∧ (newIntent i s).pending = s.pending := by
  simp +contextual [newIntent]
@[simp] theorem touchOld_keeps (g : GroupId) (datas : List DataRec) (s : State) :
    (Sound s → Sound (touchOld g datas s)) ∧ (touchOld g datas s).pending = s.pending := by
  simp +contextual (maxDischargeDepth := 40) [touchOld]
@[simp] theorem takeIntent_keeps (x : Waiting) (keys : BitVec 512) (s : State) :
    (Sound s → Sound (takeIntent x keys s)) ∧ (takeIntent x keys s).pending = s.pending := by
  unfold takeIntent; dsimp only; (repeat' split) <;> simp +contextual (maxDischargeDepth := 40) [*]
@[simp] theorem journal_keeps (phase : JobPhase) (j : Job) (eff : Effect) (detail : Nat) (s : State) :
    (Sound s → Sound (journal phase j eff detail s)) ∧ (journal phase j eff detail s).pending = s.pending := by
  simp +contextual (maxDischargeDepth := 40) [journal]
@[simp] theorem takeKeyed_keeps (x : Waiting) (s : State) :
    (Sound s → Sound (takeKeyed x s)) ∧ (takeKeyed x s).pending = s.pending := by
  unfold takeKeyed; dsimp only; (repeat' split) <;> simp +contextual (maxDischargeDepth := 40) [*]
@[simp] theorem reserve_keeps (s : State) :
    (Sound s → Sound (reserve s)) ∧ (reserve s).pending = s.pending := by
  unfold reserve; (repeat' split) <;> simp +contextual [*]
@[simp] theorem commitData_keeps (cls : Nat) (space : Nat) (w : WardId) (d : DataRec) (s : State) :
    (Sound s → Sound (commitData cls space w d s).2) ∧ (commitData cls space w d s).2.pending = s.pending := by
  simp +contextual [commitData]
@[simp] theorem commitParity_keeps (boot : Word) (policy : Nat) (cls : Nat) (p : ParRec) (s : State) :
    (Sound s → Sound (commitParity boot policy cls p s)) ∧ (commitParity boot policy cls p s).pending = s.pending := by
  unfold commitParity; dsimp only; (repeat' split) <;> simp +contextual (maxDischargeDepth := 40) [*]
@[simp] theorem pressure_keeps (a0 : Nat) (s : State) :
    (Sound s → Sound (pressure a0 s)) ∧ (pressure a0 s).pending = s.pending := by
  induction a0 generalizing s <;> unfold pressure <;> (repeat' split) <;> simp +contextual [*]
@[simp] theorem destagePressure_keeps (s : State) :
    (Sound s → Sound (destagePressure s)) ∧ (destagePressure s).pending = s.pending := by
  simp +contextual [destagePressure]
@[simp] theorem commitContext_keeps (i : Intent) (s : State) :
    (Sound s → Sound (commitContext i s)) ∧ (commitContext i s).pending = s.pending := by
  unfold commitContext; (repeat' split) <;> simp +contextual [*]
@[simp] theorem commitPayload_keeps (i : Intent) (s : State) :
    (Sound s → Sound (commitPayload i s)) ∧ (commitPayload i s).pending = s.pending := by
  simp +contextual (maxDischargeDepth := 40) [commitPayload]
@[simp] theorem commitDone_keeps (i : Intent) (s : State) :
    (Sound s → Sound (commitDone i s)) ∧ (commitDone i s).pending = s.pending := by
  unfold commitDone; dsimp only; (repeat' split) <;> simp +contextual (maxDischargeDepth := 40) [*]
@[simp] theorem resolvedDone_keeps (n : DWord) (k : Nat) (s : State) :
    (Sound s → Sound (resolvedDone n k s)) ∧ (resolvedDone n k s).pending = s.pending := by
  unfold resolvedDone; (repeat' split) <;> simp +contextual (maxDischargeDepth := 40) [*]
@[simp] theorem itemDone_keeps (it : PortItem) (s : State) :
    (Sound s → Sound (itemDone it s)) ∧ (itemDone it s).pending = s.pending := by
  unfold itemDone; dsimp only; (repeat' split) <;> simp +contextual (maxDischargeDepth := 40) [*]
@[simp] theorem retireSlot_keeps (n : Nat) (s : State) :
    (Sound s → Sound (retireSlot n s)) ∧ (retireSlot n s).pending = s.pending := by
  simp +contextual (maxDischargeDepth := 40) [retireSlot]
@[simp] theorem writeSlots_keeps (key : BitVec 256) (bad : List Nat) (a2 : Nat) (a3 : Nat) (s : State) :
    (Sound s → Sound (writeSlots key bad a2 a3 s).2) ∧ (writeSlots key bad a2 a3 s).2.pending = s.pending := by
  induction a2 generalizing key bad a3 s <;> unfold writeSlots <;> dsimp only <;> (repeat' split) <;> simp +contextual (maxDischargeDepth := 40) [*]
@[simp] theorem tagFails_keeps (slot : Nat) (s : State) :
    (Sound s → Sound (tagFails slot s)) ∧ (tagFails slot s).pending = s.pending := by
  simp +contextual (maxDischargeDepth := 40) [tagFails]
@[simp] theorem ledgerRound_keeps (bad : List Nat) (s : State) :
    (Sound s → Sound (ledgerRound bad s)) ∧ (ledgerRound bad s).pending = s.pending := by
  unfold ledgerRound; dsimp only; (repeat' split) <;> simp +contextual (maxDischargeDepth := 40) [*]
@[simp] theorem drainPort_keeps (a0 : Nat) (s : State) :
    (Sound s → Sound (drainPort a0 s)) ∧ (drainPort a0 s).pending = s.pending := by
  induction a0 generalizing s <;> simp +contextual [drainPort, *]
@[simp] theorem kccUnwrap_keeps (intact : Bool) (s : State) :
    (Sound s → Sound (kccUnwrap intact s)) ∧ (kccUnwrap intact s).pending = s.pending := by
  unfold kccUnwrap; dsimp only; (repeat' split) <;> simp +contextual (maxDischargeDepth := 40) [*]
@[simp] theorem resolveDeferred_keeps (n : DWord) (old : Option Sector) (s : State) :
    (Sound s → Sound (resolveDeferred n old s)) ∧ (resolveDeferred n old s).pending = s.pending := by
  unfold resolveDeferred; dsimp only; (repeat' split) <;> simp +contextual (maxDischargeDepth := 40) [*]
@[simp] theorem clearTorn_keeps (c : CellId) (a : SubAddr) (s : State) :
    (Sound s → Sound (clearTorn c a s)) ∧ (clearTorn c a s).pending = s.pending := by
  simp +contextual [clearTorn]
@[simp] theorem writeOn_keeps (c : CellId) (a : SubAddr) (x : Sector) (s : State) :
    (Sound s → Sound (writeOn c a x s)) ∧ (writeOn c a x s).pending = s.pending := by
  simp +contextual (maxDischargeDepth := 40) [writeOn]
@[simp] theorem mediaWrite_keeps (a : SubAddr) (x : Sector) (s : State) :
    (Sound s → Sound (mediaWrite a x s)) ∧ (mediaWrite a x s).pending = s.pending := by
  simp +contextual [mediaWrite]
@[simp] theorem replayCheck_keeps (s : State) :
    (Sound s → Sound (replayCheck s)) ∧ (replayCheck s).pending = s.pending := by
  simp +contextual [replayCheck]
@[simp] theorem replayInstall_keeps (a : SubAddr) (x : Sector) (s : State) :
    (Sound s → Sound (replayInstall a x s)) ∧ (replayInstall a x s).pending = s.pending := by
  simp +contextual [replayInstall]
@[simp] theorem replayed_keeps (i : Intent) (n : DWord) (s : State) :
    (Sound s → Sound (replayed i n s)) ∧ (replayed i n s).pending = s.pending := by
  simp +contextual [replayed]
@[simp] theorem replayData_keeps (i : Intent) (d : DataRec) (media : Option Sector) (s : State) :
    (Sound s → Sound (replayData i d media s)) ∧ (replayData i d media s).pending = s.pending := by
  unfold replayData; (repeat' split) <;> simp +contextual [*]
@[simp] theorem parApply_keeps (i : Intent) (q : ParRec × Nat × ParStep) (rows : List (List (Option Sector))) (s : State)
    :
    (Sound s → Sound (parApply i q rows s)) ∧ (parApply i q rows s).pending = s.pending := by
  unfold parApply; (repeat' split) <;> simp +contextual [*]
@[simp] theorem parRecompute_keeps (p : ParRec) (row : List (Option Sector)) (s : State) :
    (Sound s → Sound (parRecompute p row s)) ∧ (parRecompute p row s).pending = s.pending := by
  simp +contextual [parRecompute]
@[simp] theorem updReplay_keeps (i : Intent) (f : Intent → Intent) (s : State) :
    (Sound s → Sound (updReplay i f s)) ∧ (updReplay i f s).pending = s.pending := by
  simp +contextual [updReplay]
@[simp] theorem replayOne_keeps (media : List (Option Sector)) (rows : List (List (Option Sector))) (s : State) :
    (Sound s → Sound (replayOne media rows s)) ∧ (replayOne media rows s).pending = s.pending := by
  unfold replayOne; dsimp only; (repeat' split) <;> simp +contextual (maxDischargeDepth := 40) [*]
@[simp] theorem cellOff_keeps (c : CellId) (s : State) :
    (Sound s → Sound (cellOff c s)) ∧ (cellOff c s).pending = s.pending := by
  simp +contextual (maxDischargeDepth := 40) [cellOff]
@[simp] theorem cellsOff_keeps (s : State) :
    (Sound s → Sound (cellsOff s)) ∧ (cellsOff s).pending = s.pending := by
  simp +contextual [cellsOff]
@[simp] theorem portsOff_keeps (s : State) :
    (Sound s → Sound (portsOff s)) ∧ (portsOff s).pending = s.pending := by
  simp +contextual (maxDischargeDepth := 40) [portsOff]
@[simp] theorem mediaOff_keeps (s : State) :
    (Sound s → Sound (mediaOff s)) ∧ (mediaOff s).pending = s.pending := by
  simp +contextual (maxDischargeDepth := 40) [mediaOff]
@[simp] theorem parkAndBrake_keeps (due : DWord) (c : CellId) (s : State) :
    (Sound s → Sound (parkAndBrake due c s)) ∧ (parkAndBrake due c s).pending = s.pending := by
  simp +contextual [parkAndBrake]
@[simp] theorem closePort_keeps (c : CellId) (s : State) :
    (Sound s → Sound (closePort c s)) ∧ (closePort c s).pending = s.pending := by
  simp +contextual (maxDischargeDepth := 40) [closePort]
@[simp] theorem quiesceMedia_keeps (s : State) :
    (Sound s → Sound (quiesceMedia s)) ∧ (quiesceMedia s).pending = s.pending := by
  simp +contextual (maxDischargeDepth := 40) [quiesceMedia]

end Sys2Proof.Machine
end

