-- ==== Sys2Proof/Laws/KeepBoot.lean ====
section
/-! SUPPORT. The start-up, the modes, register images, clock, votes and rings keep the state sound and the queue as it was. -/

set_option linter.unusedTactic false
set_option linter.unreachableTactic false
set_option linter.unnecessarySeqFocus false

namespace Sys2Proof.Machine

@[simp] theorem clearCsps_keeps (s : State) :
    (Sound s → Sound (clearCsps s)) ∧ (clearCsps s).pending = s.pending := by
  simp +contextual [clearCsps]
@[simp] theorem errorState_keeps (cause : Nat) (s : State) :
    (Sound s → Sound (errorState cause s)) ∧ (errorState cause s).pending = s.pending := by
  simp +contextual (maxDischargeDepth := 40) [errorState]
@[simp] theorem putMark_keeps (slot : Nat) (k : MarkKind) (s : State) :
    (Sound s → Sound (putMark slot k s)) ∧ (putMark slot k s).pending = s.pending := by
  unfold putMark; dsimp only; (repeat' split) <;> simp +contextual (maxDischargeDepth := 40) [*]
@[simp] theorem freeNow_keeps (l : List Nat) (s : State) :
    (Sound s → Sound (freeNow l s)) ∧ (freeNow l s).pending = s.pending := by
  simp +contextual (maxDischargeDepth := 40) [freeNow]
@[simp] theorem freeMarks_keeps (f : Mark → Bool) (s : State) :
    (Sound s → Sound (freeMarks f s)) ∧ (freeMarks f s).pending = s.pending := by
  simp +contextual [freeMarks]
@[simp] theorem zeroKeys_keeps (s : State) :
    (Sound s → Sound (zeroKeys s)) ∧ (zeroKeys s).pending = s.pending := by
  simp +contextual [zeroKeys]
@[simp] theorem zeroBegin_keeps (s : State) :
    (Sound s → Sound (zeroBegin s)) ∧ (zeroBegin s).pending = s.pending := by
  simp +contextual (maxDischargeDepth := 40) [zeroBegin]
@[simp] theorem zeroComplete_keeps (s : State) :
    (Sound s → Sound (zeroComplete s)) ∧ (zeroComplete s).pending = s.pending := by
  simp +contextual (maxDischargeDepth := 40) [zeroComplete]
@[simp] theorem zeroWipe_keeps (s : State) :
    (Sound s → Sound (zeroWipe s)) ∧ (zeroWipe s).pending = s.pending := by
  simp +contextual (maxDischargeDepth := 40) [zeroWipe]
@[simp] theorem State_setVotes_keeps (s : State) (v : BitVec 24) :
    (Sound s → Sound (State.setVotes s v)) ∧ (State.setVotes s v).pending = s.pending := by
  simp +contextual [State.setVotes]
@[simp] theorem clearRings_keeps (s : State) :
    (Sound s → Sound (clearRings s)) ∧ (clearRings s).pending = s.pending := by
  simp +contextual (maxDischargeDepth := 40) [clearRings]
@[simp] theorem waysCheck_keeps (s : State) :
    (Sound s → Sound (waysCheck s)) ∧ (waysCheck s).pending = s.pending := by
  simp +contextual [waysCheck]
@[simp] theorem zeroClose_keeps (s : State) :
    (Sound s → Sound (zeroClose s)) ∧ (zeroClose s).pending = s.pending := by
  simp +contextual (maxDischargeDepth := 40) [zeroClose]
@[simp] theorem zeroEnd_keeps (again : Bool) (test : Option (Fin 10)) (s : State) :
    (Sound s → Sound (zeroEnd again test s)) ∧ (zeroEnd again test s).pending = s.pending := by
  unfold zeroEnd
  constructor
  · intro h; split <;> simp (maxDischargeDepth := 40) [h]
  · split <;> simp

@[simp] theorem toAon_keeps (e : Event) (s : State) :
    (Sound s → Sound (toAon e s)) ∧ (toAon e s).pending = s.pending := by
  simp +contextual [toAon]
@[simp] theorem abandonIntents_keeps (f : Intent → Bool) (s : State) :
    (Sound s → Sound (abandonIntents f s)) ∧ (abandonIntents f s).pending = s.pending := by
  simp +contextual [abandonIntents]
@[simp] theorem loseQueue_keeps (s : State) :
    (Sound s → Sound (loseQueue s)) ∧ (loseQueue s).pending = s.pending := by
  simp +contextual [loseQueue]
@[simp] theorem coldStore_keeps (s : State) :
    (Sound s → Sound (coldStore s)) ∧ (coldStore s).pending = s.pending := by
  have hp := pauseWork_keeps s
  unfold coldStore
  generalize pauseWork s = u at hp ⊢
  refine ⟨fun h => ?_, hp.2⟩
  have h := hp.1 h
  simp [h, coldRegs]

@[simp] theorem sealOpen_keeps (s : State) :
    (Sound s → Sound (sealOpen s)) ∧ (sealOpen s).pending = s.pending := by
  simp +contextual [sealOpen]
@[simp] theorem sealGate_keeps (ends : List CellId) (s : State) (c : CellId) :
    (Sound s → Sound (sealGate ends s c)) ∧ (sealGate ends s c).pending = s.pending := by
  unfold sealGate; (repeat' split) <;> simp +contextual [*]
@[simp] theorem sealTorn_keeps (s : State) (c : CellId) :
    (Sound s → Sound (sealTorn s c)) ∧ (sealTorn s c).pending = s.pending := by
  unfold sealTorn; (repeat' split) <;> simp +contextual [*]
@[simp] theorem sealZero_keeps (s : State) :
    (Sound s → Sound (sealZero s)) ∧ (sealZero s).pending = s.pending := by
  simp +contextual [sealZero]
@[simp] theorem sealBank_keeps (stop : BitVec 3) (src : BitVec 4) (votes : BitVec 24) (s : State) :
    (Sound s → Sound (sealBank stop src votes s)) ∧ (sealBank stop src votes s).pending = s.pending := by
  simp +contextual [sealBank]
@[simp] theorem sealRecords_keeps (stop : BitVec 3) (ends : List CellId) (s : State) :
    (Sound s → Sound (sealRecords stop ends s)) ∧ (sealRecords stop ends s).pending = s.pending := by
  simp +contextual (maxDischargeDepth := 40) [sealRecords]
@[simp] theorem powerSeal_keeps (stop : BitVec 3) (src : BitVec 4) (ends : List CellId) (s : State) :
    (Sound s → Sound (powerSeal stop src ends s)) ∧ (powerSeal stop src ends s).pending = s.pending := by
  simp +contextual (maxDischargeDepth := 40) [powerSeal]
@[simp] theorem powerLost_keeps (s : State) :
    (Sound s → Sound (powerLost s)) ∧ (powerLost s).pending = s.pending := by
  refine ⟨fun h => ?_, (coldStore_keeps s).2⟩
  exact { (coldStore_keeps s).1 h with votes := by simp [powerLost], scratch := rfl }

@[simp] theorem linkStop_keeps (s : State) :
    (Sound s → Sound (linkStop s)) ∧ (linkStop s).pending = s.pending := by
  simp +contextual (maxDischargeDepth := 40) [linkStop]
@[simp] theorem hostRegsReset_keeps (s : State) :
    (Sound s → Sound (hostRegsReset s)) ∧ (hostRegsReset s).pending = s.pending := by
  simp +contextual [hostRegsReset, linkRegs]

@[simp] theorem configReset_keeps (s : State) :
    (Sound s → Sound (configReset s)) ∧ (configReset s).pending = s.pending := by
  simp +contextual [configReset]
@[simp] theorem hostLinkReset_keeps (s : State) :
    (Sound s → Sound (hostLinkReset s)) ∧ (hostLinkReset s).pending = s.pending := by
  simp +contextual (maxDischargeDepth := 40) [hostLinkReset]
@[simp] theorem standbyBegin_keeps (s : State) :
    (Sound s → Sound (standbyBegin s)) ∧ (standbyBegin s).pending = s.pending := by
  simp +contextual [standbyBegin]
@[simp] theorem standbyEnd_keeps (s : State) :
    (Sound s → Sound (standbyEnd s)) ∧ (standbyEnd s).pending = s.pending := by
  simp +contextual (maxDischargeDepth := 40) [standbyEnd]
@[simp] theorem sleepBegin_keeps (s : State) :
    (Sound s → Sound (sleepBegin s)) ∧ (sleepBegin s).pending = s.pending := by
  unfold sleepBegin; (repeat' split) <;> simp +contextual [*]
@[simp] theorem sleepEnd_keeps (s : State) :
    (Sound s → Sound (sleepEnd s)) ∧ (sleepEnd s).pending = s.pending := by
  simp +contextual [sleepEnd]
@[simp] theorem countLoss_keeps (w : WardId) (s : State) :
    (Sound s → Sound (countLoss w s)) ∧ (countLoss w s).pending = s.pending := by
  simp +contextual (maxDischargeDepth := 40) [countLoss]
@[simp] theorem enterService_keeps (s : State) :
    (Sound s → Sound (enterService s)) ∧ (enterService s).pending = s.pending := by
  simp +contextual (maxDischargeDepth := 40) [enterService]
@[simp] theorem evalMode_keeps (s : State) :
    (Sound s → Sound (evalMode s)) ∧ (evalMode s).pending = s.pending := by
  unfold evalMode; dsimp only; (repeat' split) <;> simp +contextual (maxDischargeDepth := 40) [*]
@[simp] theorem zeroFinish_keeps (test : Option (Fin 10)) (s : State) :
    (Sound s → Sound (zeroFinish test s)) ∧ (zeroFinish test s).pending = s.pending := by
  simp +contextual (maxDischargeDepth := 40) [zeroFinish]
@[simp] theorem zeroizeNow_keeps (whole : Bool) (test : Option (Fin 10)) (s : State) :
    (Sound s → Sound (zeroizeNow whole test s)) ∧ (zeroizeNow whole test s).pending = s.pending := by
  simp +contextual (maxDischargeDepth := 40) [zeroizeNow]
@[simp] theorem zeroInStart_keeps (b : Boot) (s : State) :
    (Sound s → Sound (zeroInStart b s)) ∧ (zeroInStart b s).pending = s.pending := by
  simp +contextual [zeroInStart]
@[simp] theorem addLoss_keeps (w : WardId) (n : Nat) (seq : DWord) (s : State) :
    (Sound s → Sound (addLoss w n seq s)) ∧ (addLoss w n seq s).pending = s.pending := by
  simp +contextual [addLoss]
@[simp] theorem scanEntry_keeps (e : (WardId × Nat) × Word × DWord) (s : State) :
    (Sound s → Sound (scanEntry e s)) ∧ (scanEntry e s).pending = s.pending := by
  simp +contextual [scanEntry]
@[simp] theorem scanMark_keeps (s : State) (m : Mark) :
    (Sound s → Sound (scanMark s m)) ∧ (scanMark s m).pending = s.pending := by
  unfold scanMark; (repeat' split) <;> simp +contextual [*]
@[simp] theorem scanMarks_keeps (f : Mark → Bool) (s : State) :
    (Sound s → Sound (scanMarks f s)) ∧ (scanMarks f s).pending = s.pending := by
  simp +contextual (maxDischargeDepth := 40) [scanMarks]
@[simp] theorem scanOpen_keeps (i : Intent) (s : State) :
    (Sound s → Sound (scanOpen i s)) ∧ (scanOpen i s).pending = s.pending := by
  unfold scanOpen; (repeat' split) <;> simp +contextual (maxDischargeDepth := 40) [*]
@[simp] theorem scanResetting_keeps (w : WardId) (s : State) :
    (Sound s → Sound (scanResetting w s)) ∧ (scanResetting w s).pending = s.pending := by
  simp +contextual [scanResetting]
@[simp] theorem scanLedger_keeps (s : State) :
    (Sound s → Sound (scanLedger s)) ∧ (scanLedger s).pending = s.pending := by
  simp +contextual (maxDischargeDepth := 40) [scanLedger]
@[simp] theorem scanPart_keeps (limit : Option (Nat × Nat)) (s : State) :
    (Sound s → Sound (scanPart limit s)) ∧ (scanPart limit s).pending = s.pending := by
  simp +contextual (maxDischargeDepth := 40) [scanPart]
@[simp] theorem frontAon_keeps (s : State) :
    (Sound s → Sound (frontAon s)) ∧ (frontAon s).pending = s.pending := by
  unfold frontAon; refine ⟨fun hS => sound_foldl _ _ (fun s x hS => ?_) ?_, foldl_pending_to _ _ (fun s x => ?_) ?_⟩ <;> (try dsimp only) <;> (repeat' split) <;> simp +contextual (maxDischargeDepth := 40) [*]
@[simp] theorem switching_start_wf (d : DWord) (l : List Nat) : ∀ t : Tab (Option PinSwitch), Tab.wf (fun _ => none) t = true →
    Tab.wf (fun _ => none) (l.foldl (fun t n => Tab.set none t n (some { start := d })) t) = true := by
  induction l with
  | nil => exact fun _ h => h
  | cons x l ih => exact fun t h => ih _ (by simp [h])
@[simp] theorem startPins_keeps (s : State) :
    (Sound s → Sound (startPins s)) ∧ (startPins s).pending = s.pending := by
  have hw := switching_start_wf s.clk.beat s.pin.cfg.keys [] rfl
  simp +contextual [startPins, hw]

@[simp] theorem bootEnds_keeps (stage : BitVec 4) (s : State) :
    (Sound s → Sound (bootEnds stage s)) ∧ (bootEnds stage s).pending = s.pending := by
  simp +contextual [bootEnds]
@[simp] theorem handOff_keeps (stage : BitVec 4) (s : State) :
    (Sound s → Sound (handOff stage s)) ∧ (handOff stage s).pending = s.pending := by
  simp +contextual (maxDischargeDepth := 40) [handOff]
@[simp] theorem startUp_keeps (src : BitVec 4) (b : Boot) (s : State) :
    (Sound s → Sound (startUp src b s)) ∧ (startUp src b s).pending = s.pending := by
  have hw := switching_start_wf 0 s.pin.cfg.keys [] rfl
  refine ⟨fun h => ?_, rfl⟩
  unfold startUp
  exact { h with switching := hw, counters := by simp [h] }

@[simp] theorem bootLife_keeps (s : State) :
    (Sound s → Sound (bootLife s)) ∧ (bootLife s).pending = s.pending := by
  unfold bootLife; (repeat' split) <;> simp +contextual [*]
@[simp] theorem fuseDone_keeps (b : Boot) (s : State) :
    (Sound s → Sound (fuseDone b s)) ∧ (fuseDone b s).pending = s.pending := by
  simp +contextual (maxDischargeDepth := 40) [fuseDone]
@[simp] theorem zeroStage_keeps (s : State) :
    (Sound s → Sound (zeroStage s)) ∧ (zeroStage s).pending = s.pending := by
  simp +contextual (maxDischargeDepth := 40) [zeroStage]
@[simp] theorem zeroAfterTests_keeps (s : State) :
    (Sound s → Sound (zeroAfterTests s)) ∧ (zeroAfterTests s).pending = s.pending := by
  simp +contextual [zeroAfterTests]
@[simp] theorem testsDone_keeps (b : Boot) (s : State) :
    (Sound s → Sound (testsDone b s)) ∧ (testsDone b s).pending = s.pending := by
  unfold testsDone; dsimp only; (repeat' split) <;> simp +contextual (maxDischargeDepth := 40) [*]
@[simp] theorem scanDone_keeps (b : Boot) (s : State) :
    (Sound s → Sound (scanDone b s)) ∧ (scanDone b s).pending = s.pending := by
  simp +contextual (maxDischargeDepth := 40) [scanDone]
@[simp] theorem bootStep_keeps (s : State) :
    (Sound s → Sound (bootStep s)) ∧ (bootStep s).pending = s.pending := by
  unfold bootStep; (repeat' split) <;> simp +contextual [*]
@[simp] theorem idleStep_keeps (s : State) :
    (Sound s → Sound (idleStep s)) ∧ (idleStep s).pending = s.pending := by
  simp +contextual [idleStep]
@[simp] theorem latchWake_keeps (src : BitVec 4) (s : State) :
    (Sound s → Sound (latchWake src s)) ∧ (latchWake src s).pending = s.pending := by
  simp +contextual [latchWake]
@[simp] theorem replayAon_keeps (s : State) :
    (Sound s → Sound (replayAon s)) ∧ (replayAon s).pending = s.pending := by
  unfold replayAon; refine ⟨fun hS => sound_foldl _ _ (fun s x hS => ?_) ?_, foldl_pending_to _ _ (fun s x => ?_) ?_⟩ <;> (try dsimp only) <;> (repeat' split) <;> simp +contextual (maxDischargeDepth := 40) [*]
@[simp] theorem retentionWake_keeps (s : State) :
    (Sound s → Sound (retentionWake s)) ∧ (retentionWake s).pending = s.pending := by
  simp +contextual (maxDischargeDepth := 40) [retentionWake]
@[simp] theorem wakeNow_keeps (b : Boot) (test : Option (Fin 10)) (s : State) :
    (Sound s → Sound (wakeNow b test s)) ∧ (wakeNow b test s).pending = s.pending := by
  unfold wakeNow; dsimp only; (repeat' split) <;> simp +contextual (maxDischargeDepth := 40) [*]
@[simp] theorem latchBeat_keeps (s : State) :
    (Sound s → Sound (latchBeat s)) ∧ (latchBeat s).pending = s.pending := by
  simp +contextual [latchBeat]
@[simp] theorem latchTai_keeps (s : State) :
    (Sound s → Sound (latchTai s)) ∧ (latchTai s).pending = s.pending := by
  simp +contextual [latchTai]
@[simp] theorem latchHigh_keeps (s : State) :
    (Sound s → Sound (latchHigh s)) ∧ (latchHigh s).pending = s.pending := by
  simp +contextual [latchHigh]
@[simp] theorem latchSerial_keeps (s : State) :
    (Sound s → Sound (latchSerial s)) ∧ (latchSerial s).pending = s.pending := by
  simp +contextual [latchSerial]
@[simp] theorem readReg_keeps (a : Nat) (s : State) :
    (Sound s → Sound (readReg a s).2) ∧ (readReg a s).2.pending = s.pending := by
  simp +contextual [readReg]
@[simp] theorem ppsHold_keeps (s : State) :
    (Sound s → Sound (ppsHold s)) ∧ (ppsHold s).pending = s.pending := by
  simp +contextual [ppsHold]
@[simp] theorem srcPll_keeps (s : State) :
    (Sound s → Sound (srcPll s)) ∧ (srcPll s).pending = s.pending := by
  simp +contextual (maxDischargeDepth := 40) [srcPll]
@[simp] theorem toOscillator_keeps (s : State) :
    (Sound s → Sound (toOscillator s)) ∧ (toOscillator s).pending = s.pending := by
  simp +contextual (maxDischargeDepth := 40) [toOscillator]
@[simp] theorem taiRefuse_keeps (s : State) :
    (Sound s → Sound (taiRefuse s)) ∧ (taiRefuse s).pending = s.pending := by
  simp +contextual (maxDischargeDepth := 40) [taiRefuse]
@[simp] theorem taiLoad_keeps (s : State) :
    (Sound s → Sound (taiLoad s)) ∧ (taiLoad s).pending = s.pending := by
  simp +contextual [taiLoad]
@[simp] theorem taiLoadAtEdge_keeps (s : State) :
    (Sound s → Sound (taiLoadAtEdge s)) ∧ (taiLoadAtEdge s).pending = s.pending := by
  simp +contextual [taiLoadAtEdge]
@[simp] theorem setNow_keeps (s : State) :
    (Sound s → Sound (setNow s)) ∧ (setNow s).pending = s.pending := by
  simp +contextual [setNow]
@[simp] theorem cancelSet_keeps (s : State) :
    (Sound s → Sound (cancelSet s)) ∧ (cancelSet s).pending = s.pending := by
  simp +contextual [cancelSet]
@[simp] theorem setAtPps_keeps (s : State) :
    (Sound s → Sound (setAtPps s)) ∧ (setAtPps s).pending = s.pending := by
  simp +contextual [setAtPps]
@[simp] theorem taiCmdWrite_keeps (v : Word) (s : State) :
    (Sound s → Sound (taiCmdWrite v s)) ∧ (taiCmdWrite v s).pending = s.pending := by
  simp +contextual [taiCmdWrite]
@[simp] theorem taiRateWrite_keeps (v : Word) (s : State) :
    (Sound s → Sound (taiRateWrite v s)) ∧ (taiRateWrite v s).pending = s.pending := by
  simp +contextual [taiRateWrite]
@[simp] theorem ppsCtrlWrite_keeps (v : Word) (s : State) :
    (Sound s → Sound (ppsCtrlWrite v s)) ∧ (ppsCtrlWrite v s).pending = s.pending := by
  simp +contextual [ppsCtrlWrite]
@[simp] theorem ppsAccept_keeps (s : State) :
    (Sound s → Sound (ppsAccept s)) ∧ (ppsAccept s).pending = s.pending := by
  simp +contextual (maxDischargeDepth := 40) [ppsAccept]
@[simp] theorem ppsRise_keeps (s : State) :
    (Sound s → Sound (ppsRise s)) ∧ (ppsRise s).pending = s.pending := by
  unfold ppsRise; (repeat' split) <;> simp +contextual [*]
@[simp] theorem holdoverEnd_keeps (s : State) :
    (Sound s → Sound (holdoverEnd s)) ∧ (holdoverEnd s).pending = s.pending := by
  simp +contextual (maxDischargeDepth := 40) [holdoverEnd]
@[simp] theorem elapseToTai_keeps (t : Nat) (s : State) :
    (Sound s → Sound (elapseToTai t s)) ∧ (elapseToTai t s).pending = s.pending := by
  simp +contextual [elapseToTai]
@[simp] theorem pllLoss_keeps (s : State) :
    (Sound s → Sound (pllLoss s)) ∧ (pllLoss s).pending = s.pending := by
  simp +contextual (maxDischargeDepth := 40) [pllLoss]
@[simp] theorem restartWrite_keeps (key : BitVec 16) (ends : List CellId) (s : State) :
    (Sound s → Sound (restartWrite key ends s)) ∧ (restartWrite key ends s).pending = s.pending := by
  simp +contextual [restartWrite]
@[simp] theorem voteCorrupt_keeps (s : State) :
    (Sound s → Sound (voteCorrupt s)) ∧ (voteCorrupt s).pending = s.pending := by
  simp +contextual (maxDischargeDepth := 40) [voteCorrupt]
@[simp] theorem recordVotes_keeps (got : BitVec 24) (bad : BitVec 24) (s : State) :
    (Sound s → Sound (recordVotes got bad s)) ∧ (recordVotes got bad s).pending = s.pending := by
  unfold recordVotes; (repeat' split) <;> simp +contextual [*]
@[simp] theorem openSlots_keeps (got : BitVec 24) (s : State) :
    (Sound s → Sound (openSlots got s)) ∧ (openSlots got s).pending = s.pending := by
  simp +contextual [openSlots]
@[simp] theorem closeSlots_keeps (gone : BitVec 24) (s : State) :
    (Sound s → Sound (closeSlots gone s)) ∧ (closeSlots gone s).pending = s.pending := by
  simp +contextual [closeSlots]
@[simp] theorem voteSet_keeps (v : Word) (s : State) :
    (Sound s → Sound (voteSet v s)) ∧ (voteSet v s).pending = s.pending := by
  simp +contextual (maxDischargeDepth := 40) [voteSet]
@[simp] theorem withdrawVotes_keeps (gone : BitVec 24) (s : State) :
    (Sound s → Sound (withdrawVotes gone s)) ∧ (withdrawVotes gone s).pending = s.pending := by
  simp +contextual [withdrawVotes]
@[simp] theorem voteClr_keeps (v : Word) (s : State) :
    (Sound s → Sound (voteClr v s)) ∧ (voteClr v s).pending = s.pending := by
  simp +contextual (maxDischargeDepth := 40) [voteClr]
@[simp] theorem sleepVote_keeps (s : State) :
    (Sound s → Sound (sleepVote s)) ∧ (sleepVote s).pending = s.pending := by
  simp +contextual [sleepVote]
@[simp] theorem transitionEnd_keeps (b : Boot) (s : State) :
    (Sound s → Sound (transitionEnd b s)) ∧ (transitionEnd b s).pending = s.pending := by
  unfold transitionEnd; (repeat' split) <;> simp +contextual [*]
@[simp] theorem holdRelease_keeps (key : BitVec 16) (s : State) :
    (Sound s → Sound (holdRelease key s)) ∧ (holdRelease key s).pending = s.pending := by
  simp +contextual (maxDischargeDepth := 40) [holdRelease]
@[simp] theorem parkTimeout_keeps (c : Option CellId) (s : State) :
    (Sound s → Sound (parkTimeout c s)) ∧ (parkTimeout c s).pending = s.pending := by
  unfold parkTimeout; dsimp only; (repeat' split) <;> simp +contextual (maxDischargeDepth := 40) [*]
@[simp] theorem evalBell_keeps (c : Ctx) (head : Bool) (v : BitVec 16) (s : State) :
    (Sound s → Sound (evalBell c head v s)) ∧ (evalBell c head v s).pending = s.pending := by
  simp +contextual (maxDischargeDepth := 40) [evalBell]
@[simp] theorem landBell_keeps (w : WardId) (head : Bool) (v : BitVec 16) (s : State) :
    (Sound s → Sound (landBell w head v s)) ∧ (landBell w head v s).pending = s.pending := by
  simp +contextual [landBell]
@[simp] theorem orphanBell_keeps (w : WardId) (d : BellDone) (s : State) :
    (Sound s → Sound (orphanBell w d s)) ∧ (orphanBell w d s).pending = s.pending := by
  unfold orphanBell; dsimp only; (repeat' split) <;> simp +contextual (maxDischargeDepth := 40) [*]
@[simp] theorem orphanBells_keeps (w : WardId) (s : State) :
    (Sound s → Sound (orphanBells w s)) ∧ (orphanBells w s).pending = s.pending := by
  unfold orphanBells
  constructor
  · intro h; split
    · exact (State_updWard_keeps _ _ _).1 (sound_foldl _ _ (fun t d ht => (orphanBell_keeps w d t).1 ht) h)
    · exact h
  · split
    · simp [-List.foldl_reverse]
    · rfl

@[simp] theorem request_keeps (c : Ctx) (s : State) :
    (Sound s → Sound (request c s)) ∧ (request c s).pending = s.pending := by
  simp +contextual (maxDischargeDepth := 40) [request]
@[simp] theorem takeRead_keeps (c : Ctx) (s : State) :
    (Sound s → Sound (takeRead c s)) ∧ (takeRead c s).pending = s.pending := by
  simp +contextual [takeRead]
@[simp] theorem loseRead_keeps (c : Ctx) (s : State) :
    (Sound s → Sound (loseRead c s)) ∧ (loseRead c s).pending = s.pending := by
  simp +contextual [loseRead]
@[simp] theorem requestAdmin_keeps (n : Nat) (s : State) :
    (Sound s → Sound (requestAdmin n s)) ∧ (requestAdmin n s).pending = s.pending := by
  induction n generalizing s with
  | zero => exact ⟨id, rfl⟩
  | succ n ih =>
    unfold requestAdmin
    split
    · exact ⟨fun h => (ih _).1 (by simp [h]), by rw [(ih _).2]; simp⟩
    · exact ⟨id, rfl⟩

@[simp] theorem adminFetch_keeps (s : State) :
    (Sound s → Sound (adminFetch s)) ∧ (adminFetch s).pending = s.pending := by
  simp +contextual [adminFetch]
@[simp] theorem newRound_keeps (s : State) :
    (Sound s → Sound (newRound s)) ∧ (newRound s).pending = s.pending := by
  simp +contextual [newRound]
@[simp] theorem nextTurn_keeps (s : State) :
    (Sound s → Sound (nextTurn s).2) ∧ (nextTurn s).2.pending = s.pending := by
  unfold nextTurn; dsimp only; (repeat' split) <;> simp +contextual (maxDischargeDepth := 40) [*]
@[simp] theorem adminTurn_keeps (s : State) :
    (Sound s → Sound (adminTurn s)) ∧ (adminTurn s).pending = s.pending := by
  simp +contextual [adminTurn]
@[simp] theorem goOnTurn_keeps (s : State) :
    (Sound s → Sound (goOnTurn s)) ∧ (goOnTurn s).pending = s.pending := by
  unfold goOnTurn; (repeat' split) <;> simp +contextual [*]
@[simp] theorem beginTurn_keeps (w : WardId) (s : State) :
    (Sound s → Sound (beginTurn w s)) ∧ (beginTurn w s).pending = s.pending := by
  simp +contextual (maxDischargeDepth := 40) [beginTurn]
@[simp] theorem roundaboutTurn_keeps (s : State) :
    (Sound s → Sound (roundaboutTurn s)) ∧ (roundaboutTurn s).pending = s.pending := by
  unfold roundaboutTurn; dsimp only; (repeat' split) <;> simp +contextual (maxDischargeDepth := 40) [*]
@[simp] theorem askNext_keeps (j : Job) (s : State) :
    (Sound s → Sound (askNext j s)) ∧ (askNext j s).pending = s.pending := by
  simp +contextual [askNext]
@[simp] theorem askWaiting_keeps (s : State) :
    (Sound s → Sound (askWaiting s)) ∧ (askWaiting s).pending = s.pending := by
  simp +contextual [askWaiting]
@[simp] theorem submit_keeps (c : Ctx) (bad : Option Nat) (es : List Bytes) (s : State) :
    (Sound s → Sound (submit c bad es s)) ∧ (submit c bad es s).pending = s.pending := by
  unfold submit; dsimp only; (repeat' split) <;> simp +contextual (maxDischargeDepth := 40) [*]
@[simp] theorem flushJob_keeps (w : WardId) (p : Option Nat × List Bytes) (s : State) :
    (Sound s → Sound (flushJob w p s)) ∧ (flushJob w p s).pending = s.pending := by
  unfold flushJob; dsimp only; (repeat' split) <;> simp +contextual (maxDischargeDepth := 40) [*]
@[simp] theorem flushStep_keeps (w : WardId) (s : State) :
    (Sound s → Sound (flushStep w s)) ∧ (flushStep w s).pending = s.pending := by
  unfold flushStep; dsimp only; (repeat' split) <;> simp +contextual (maxDischargeDepth := 40) [*]
@[simp] theorem ringBell_keeps (c : Ctx) (head : Bool) (v : BitVec 16) (s : State) :
    (Sound s → Sound (ringBell c head v s)) ∧ (ringBell c head v s).pending = s.pending := by
  unfold ringBell; dsimp only; (repeat' split) <;> simp +contextual (maxDischargeDepth := 40) [*]
@[simp] theorem accept_keeps (c : Ctx) (e : Bytes) (s : State) :
    (Sound s → Sound (accept c e s)) ∧ (accept c e s).pending = s.pending := by
  unfold accept; dsimp only; (repeat' split) <;> simp +contextual (maxDischargeDepth := 40) [*]
@[simp] theorem afterEntry_keeps (w : WardId) (s : State) :
    (Sound s → Sound (afterEntry w s)) ∧ (afterEntry w s).pending = s.pending := by
  simp +contextual [afterEntry]
@[simp] theorem entryArrival_keeps (c : Ctx) (entry : Bytes) (s : State) :
    (Sound s → Sound (entryArrival c entry s)) ∧ (entryArrival c entry s).pending = s.pending := by
  unfold entryArrival; dsimp only; (repeat' split) <;> simp +contextual (maxDischargeDepth := 40) [*]
@[simp] theorem readLost_keeps (c : Ctx) (s : State) :
    (Sound s → Sound (readLost c s)) ∧ (readLost c s).pending = s.pending := by
  unfold readLost; dsimp only; (repeat' split) <;> simp +contextual (maxDischargeDepth := 40) [*]
@[simp] theorem markRead_keeps (c : Ctx) (f : RingRead → RingRead) (s : State) :
    (Sound s → Sound (markRead c f s)) ∧ (markRead c f s).pending = s.pending := by
  simp +contextual [markRead]
@[simp] theorem readFails_keeps (why : ReadFail) (sent : DWord) (s : State) :
    (Sound s → Sound (readFails why sent s)) ∧ (readFails why sent s).pending = s.pending := by
  unfold readFails; (repeat' split) <;> simp +contextual [*]
@[simp] theorem ringReadFail_keeps (c : Ctx) (why : ReadFail) (s : State) :
    (Sound s → Sound (ringReadFail c why s)) ∧ (ringReadFail c why s).pending = s.pending := by
  unfold ringReadFail; (repeat' split) <;> simp +contextual [*]
@[simp] theorem ringReadRetry_keeps (c : Ctx) (s : State) :
    (Sound s → Sound (ringReadRetry c s)) ∧ (ringReadRetry c s).pending = s.pending := by
  unfold ringReadRetry; dsimp only; (repeat' split) <;> simp +contextual (maxDischargeDepth := 40) [*]
@[simp] theorem dmaAbort_keeps (id : Nat) (why : ReadFail) (s : State) :
    (Sound s → Sound (dmaAbort id why s)) ∧ (dmaAbort id why s).pending = s.pending := by
  unfold dmaAbort; dsimp only; (repeat' split) <;> simp +contextual (maxDischargeDepth := 40) [*]
@[simp] theorem dataFetch_keeps (id : Nat) (data : Bytes) (s : State) :
    (Sound s → Sound (dataFetch id data s)) ∧ (dataFetch id data s).pending = s.pending := by
  unfold dataFetch; dsimp only; (repeat' split) <;> simp +contextual (maxDischargeDepth := 40) [*]
@[simp] theorem askData_keeps (j : Job) (s : State) :
    (Sound s → Sound (askData j s)) ∧ (askData j s).pending = s.pending := by
  simp +contextual [askData]
@[simp] theorem jobBegin_keeps (id : Nat) (s : State) :
    (Sound s → Sound (jobBegin id s)) ∧ (jobBegin id s).pending = s.pending := by
  unfold jobBegin; (repeat' split) <;> simp +contextual [*]
@[simp] theorem runJob_sound (id : Nat) (op : Nat) (admin : Bool) (f : Job → State → State) (s : State) (hf : ∀ (x0 : Job) (s
    : State), Sound s → Sound (f x0 s)) (hS : Sound s) : Sound (runJob id op admin f s) := by
  unfold runJob; (repeat' split) <;> first | exact hS | exact hf _ _ hS | exact hf _ _ _ hS | exact hf _ hS | (simp [*]; done) | (simp +contextual [*]; done)
@[simp] theorem runJob_pending (id : Nat) (op : Nat) (admin : Bool) (f : Job → State → State) (s : State) (hp : ∀ (x0 : Job)
    (s : State), (f x0 s).pending = s.pending) : (runJob id op admin f s).pending = s.pending := by
  unfold runJob; (repeat' split) <;> first | rfl | exact hp .. | (simp [*]; done)
@[simp] theorem adminCtrl_keeps (on : Bool) (s : State) :
    (Sound s → Sound (adminCtrl on s)) ∧ (adminCtrl on s).pending = s.pending := by
  simp +contextual (maxDischargeDepth := 40) [adminCtrl]
@[simp] theorem chainTorn_keeps (c : Ctx) (s : State) :
    (Sound s → Sound (chainTorn c s)) ∧ (chainTorn c s).pending = s.pending := by
  simp +contextual [chainTorn]

end Sys2Proof.Machine
end

