-- ==== Sys2Proof/Laws/KeepUnits.lean ====
section
/-! SUPPORT. The tick, pins, host link and media reads keep the state sound and the queue as it was. -/

set_option linter.unusedTactic false
set_option linter.unreachableTactic false
set_option linter.unnecessarySeqFocus false

namespace Sys2Proof.Machine

theorem State_setImage_sound {s : State} (i : Nat) (im : Image) (hS : Sound s) (h : Tab.wf (fun _ => 0) im.counters = true) :
    Sound (s.setImage i im) := by
  unfold State.setImage; split
  · exact { hS with image0 := h }
  · exact { hS with image1 := h }
@[simp] theorem State_setImage_pending (s : State) (i : Nat) (im : Image) : (s.setImage i im).pending = s.pending := by
  unfold State.setImage; split <;> rfl
theorem State_image_wf {s : State} (hS : Sound s) (i : Nat) : Tab.wf (fun _ => 0) (s.image i).counters = true := by
  unfold State.image; split
  · exact hS.image0
  · exact hS.image1

@[simp] theorem snapshot_keeps (tick : Nat) (b : DWord) (s : State) :
    (Sound s → Sound (snapshot tick b s)) ∧ (snapshot tick b s).pending = s.pending := by
  constructor
  · intro hS
    have h := State_setImage_sound ((s.obs.generation + 1).toNat % 2)
      { seqBegin := s.obs.generation + 1, seqEnd := (s.image ((s.obs.generation + 1).toNat % 2)).seqEnd,
        head := imageHead tick b s, counters := s.obs.counters } hS hS.counters
    exact { h with }
  · simp [snapshot]

@[simp] theorem publish_keeps (s : State) :
    (Sound s → Sound (publish s)) ∧ (publish s).pending = s.pending := by
  constructor
  · intro hS
    unfold publish; split
    · have hi := State_image_wf hS (s.obs.generation.toNat % 2)
      have h := State_setImage_sound (s.obs.generation.toNat % 2)
        { s.image (s.obs.generation.toNat % 2) with seqEnd := s.obs.generation } hS hi
      exact { h with checkpoint := hi }
    · exact hS
  · unfold publish; split <;> simp

@[simp] theorem supplyWarn_keeps (old : Tab (BitVec 16)) (sampled : Bool) (e : TickEnv) (s : State) (i : Fin 4) :
    (Sound s → Sound (supplyWarn old sampled e s i)) ∧ (supplyWarn old sampled e s i).pending = s.pending := by
  simp +contextual (maxDischargeDepth := 40) [supplyWarn]
@[simp] theorem tickVolts_wf (e : TickEnv) : Tab.wf (fun _ => 0) (tickVolts e) = true :=
  foldl_keeps (fun t : Tab (BitVec 16) => Tab.wf (fun _ => 0) t = true) _ (fun t i h => Tab.set_wf (fun _ => 0) t i _ h) _ _ rfl
@[simp] theorem takeSample_keeps (e : TickEnv) (s : State) :
    (Sound s → Sound (takeSample e s)) ∧ (takeSample e s).pending = s.pending :=
  ⟨fun h => { h with volts := tickVolts_wf e }, rfl⟩

@[simp] theorem tempWarned_keeps (old : ObsBlk) (e : TickEnv) (s : State) :
    (Sound s → Sound (tempWarned old e s)) ∧ (tempWarned old e s).pending = s.pending := by
  simp +contextual (maxDischargeDepth := 40) [tempWarned]
@[simp] theorem suppliesWarned_keeps (old : ObsBlk) (e : TickEnv) (s : State) :
    (Sound s → Sound (suppliesWarned old e s)) ∧ (suppliesWarned old e s).pending = s.pending := by
  simp +contextual [suppliesWarned]
@[simp] theorem sample_keeps (e : TickEnv) (s : State) :
    (Sound s → Sound (sample e s)) ∧ (sample e s).pending = s.pending := by
  unfold sample; dsimp only; (repeat' split) <;> simp +contextual (maxDischargeDepth := 40) [*]
@[simp] theorem dezia_keeps (tick : Nat) (s : State) :
    (Sound s → Sound (dezia tick s)) ∧ (dezia tick s).pending = s.pending := by
  unfold dezia; (repeat' split) <;> simp +contextual [*]
@[simp] theorem officerIdle_keeps (s : State) :
    (Sound s → Sound (officerIdle s)) ∧ (officerIdle s).pending = s.pending := by
  simp +contextual [officerIdle]
@[simp] theorem lockoutEnd_keeps (s : State) :
    (Sound s → Sound (lockoutEnd s)) ∧ (lockoutEnd s).pending = s.pending := by
  simp +contextual [lockoutEnd]
@[simp] theorem officerLockout_keeps (s : State) :
    (Sound s → Sound (officerLockout s)) ∧ (officerLockout s).pending = s.pending := by
  simp +contextual [officerLockout]
@[simp] theorem wardLockout_keeps (w : WardId) (s : State) :
    (Sound s → Sound (wardLockout w s)) ∧ (wardLockout w s).pending = s.pending := by
  simp +contextual [wardLockout]
@[simp] theorem malformedRate_keeps (w : WardId) (s : State) :
    (Sound s → Sound (malformedRate w s)) ∧ (malformedRate w s).pending = s.pending := by
  simp +contextual [malformedRate]
@[simp] theorem noiseFail_keeps (adaptive : Bool) (s : State) :
    (Sound s → Sound (noiseFail adaptive s)) ∧ (noiseFail adaptive s).pending = s.pending := by
  simp +contextual [noiseFail]
@[simp] theorem idlePark_keeps (s : State) (c : CellId) :
    (Sound s → Sound (idlePark s c)) ∧ (idlePark s c).pending = s.pending := by
  simp +contextual [idlePark]
@[simp] theorem presentAbsent_keeps (c : CellId) (s : State) :
    (Sound s → Sound (presentAbsent c s)) ∧ (presentAbsent c s).pending = s.pending := by
  simp +contextual (maxDischargeDepth := 40) [presentAbsent]
@[simp] theorem presentSample_keeps (s : State) (c : CellId) :
    (Sound s → Sound (presentSample s c)) ∧ (presentSample s c).pending = s.pending := by
  unfold presentSample; dsimp only; (repeat' split) <;> simp +contextual (maxDischargeDepth := 40) [*]
@[simp] theorem ageCache_keeps (s : State) :
    (Sound s → Sound (ageCache s)) ∧ (ageCache s).pending = s.pending := by
  simp +contextual [ageCache]
@[simp] theorem destageAged_keeps (a : SubAddr) (s : State) :
    (Sound s → Sound (destageAged a s)) ∧ (destageAged a s).pending = s.pending := by
  unfold destageAged; (repeat' split) <;> simp +contextual [*]
@[simp] theorem mediaStall_keeps (s : State) :
    (Sound s → Sound (mediaStall s)) ∧ (mediaStall s).pending = s.pending := by
  simp +contextual (maxDischargeDepth := 40) [mediaStall]
@[simp] theorem stallTick_keeps (s : State) :
    (Sound s → Sound (stallTick s)) ∧ (stallTick s).pending = s.pending := by
  simp +contextual [stallTick]
@[simp] theorem closeWindows_keeps (s : State) :
    (Sound s → Sound (closeWindows s)) ∧ (closeWindows s).pending = s.pending := by
  simp +contextual [closeWindows]
@[simp] theorem countTick_keeps (s : State) :
    (Sound s → Sound (countTick s)) ∧ (countTick s).pending = s.pending := by
  simp +contextual (maxDischargeDepth := 40) [countTick]
@[simp] theorem tickLimits_keeps (s : State) :
    (Sound s → Sound (tickLimits s)) ∧ (tickLimits s).pending = s.pending := by
  simp +contextual (maxDischargeDepth := 40) [tickLimits]
@[simp] theorem raiseTick_keeps (s : State) :
    (Sound s → Sound (raiseTick s)) ∧ (raiseTick s).pending = s.pending := by
  simp +contextual [raiseTick]
@[simp] theorem boundary_keeps (n : Nat) (b : DWord) (e : TickEnv) (s : State) :
    (Sound s → Sound (boundary n b e s)) ∧ (boundary n b e s).pending = s.pending := by
  have h1 : Sound s → Sound (closeWindows { s with clk := { s.clk with tickDone := n } }) := by
    intro h; exact (closeWindows_keeps _).1 { h with }
  unfold boundary; dsimp only
  generalize (e.voteBad && s.handedOff) = v
  generalize s.handedOff = q
  constructor
  · intro h
    have h1 := h1 h
    cases v <;> cases q <;> simp (maxDischargeDepth := 40) only [h1, Bool.false_eq_true, if_true, if_false, voteCorrupt_keeps,
      tickLimits_keeps, countTick_keeps, dezia_keeps, raiseTick_keeps, sample_keeps, snapshot_keeps]
  · cases v <;> cases q <;> simp

@[simp] theorem hingePause_keeps (s : State) (p : Nat × Fin 6) :
    (Sound s → Sound (hingePause s p)) ∧ (hingePause s p).pending = s.pending := by
  simp +contextual (maxDischargeDepth := 40) [hingePause]
@[simp] theorem reachTick_keeps (e : TickEnv) (s : State) :
    (Sound s → Sound (reachTick e s)) ∧ (reachTick e s).pending = s.pending := by
  simp +contextual (maxDischargeDepth := 40) [reachTick]
@[simp] theorem takeTick_keeps (e : TickEnv) (s : State) :
    (Sound s → Sound (takeTick e s)) ∧ (takeTick e s).pending = s.pending := by
  unfold takeTick; (repeat' split) <;> simp +contextual [*]
@[simp] theorem tick_keeps (e : TickEnv) (s : State) :
    (Sound s → Sound (tick e s)) ∧ (tick e s).pending = s.pending := by
  simp +contextual [tick]
@[simp] theorem cutSmb_keeps (s : State) :
    (Sound s → Sound (cutSmb s)) ∧ (cutSmb s).pending = s.pending := by
  simp +contextual (maxDischargeDepth := 40) [cutSmb]
@[simp] theorem loseFunction_keeps (n : Nat) (s : State) :
    (Sound s → Sound (loseFunction n s)) ∧ (loseFunction n s).pending = s.pending := by
  simp +contextual [loseFunction]
@[simp] theorem switchPin_keeps (n : Nat) (v : Word) (s : State) :
    (Sound s → Sound (switchPin n v s)) ∧ (switchPin n v s).pending = s.pending := by
  simp +contextual (maxDischargeDepth := 40) [switchPin]
@[simp] theorem judgePin_keeps (n : Nat) (v : Word) (s : State) :
    (Sound s → Sound (judgePin n v s)) ∧ (judgePin n v s).pending = s.pending := by
  simp +contextual [judgePin]
@[simp] theorem upCfgWrite_keeps (n : Nat) (v : Word) (s : State) :
    (Sound s → Sound (upCfgWrite n v s)) ∧ (upCfgWrite n v s).pending = s.pending := by
  unfold upCfgWrite; (repeat' split) <;> simp +contextual [*]
@[simp] theorem setGpio_keeps (n : Nat) (level : Bool) (s : State) :
    (Sound s → Sound (setGpio n level s)) ∧ (setGpio n level s).pending = s.pending := by
  simp +contextual [setGpio]
@[simp] theorem pinSettle_keeps (n : Nat) (s : State) :
    (Sound s → Sound (pinSettle n s)) ∧ (pinSettle n s).pending = s.pending := by
  unfold pinSettle; dsimp only; (repeat' split) <;> simp +contextual (maxDischargeDepth := 40) [*]
@[simp] theorem gpioChange_keeps (n : Nat) (level : Bool) (s : State) :
    (Sound s → Sound (gpioChange n level s)) ∧ (gpioChange n level s).pending = s.pending := by
  simp +contextual [gpioChange]
@[simp] theorem setTap_keeps (code : BitVec 4) (s : State) :
    (Sound s → Sound (setTap code s)) ∧ (setTap code s).pending = s.pending := by
  simp +contextual [setTap]
@[simp] theorem tapRefuse_keeps (s : State) :
    (Sound s → Sound (tapRefuse s)) ∧ (tapRefuse s).pending = s.pending := by
  simp +contextual (maxDischargeDepth := 40) [tapRefuse]
@[simp] theorem smbBegin_keeps (s : State) :
    (Sound s → Sound (smbBegin s)) ∧ (smbBegin s).pending = s.pending := by
  simp +contextual [smbBegin]
@[simp] theorem smbRead_keeps (addr : BitVec 7) (cmd : Byte) (pec : Bool) (s : State) :
    (Sound s → Sound (smbRead addr cmd pec s)) ∧ (smbRead addr cmd pec s).pending = s.pending := by
  unfold smbRead; (repeat' split) <;> simp +contextual [*]
@[simp] theorem uartXoff_keeps (s : State) :
    (Sound s → Sound (uartXoff s)) ∧ (uartXoff s).pending = s.pending := by
  simp +contextual [uartXoff]
@[simp] theorem eachVector_sound (f : Nat → State → State) (l : List Nat) (s : State) (hf : ∀ (x0 : Nat) (s : State), Sound s
    → Sound (f x0 s)) (hS : Sound s) : Sound (eachVector f l s) := by
  unfold eachVector; (repeat' split) <;> first | exact hS | exact hf _ _ hS | exact hf _ _ _ hS | exact hf _ hS | (simp [*]; done) | (simp +contextual [*]; done)
@[simp] theorem eachVector_pending (f : Nat → State → State) (l : List Nat) (s : State) (hp : ∀ (x0 : Nat) (s : State), (f x0
    s).pending = s.pending) : (eachVector f l s).pending = s.pending := by
  unfold eachVector; (repeat' split) <;> first | rfl | exact hp .. | (simp [*]; done)
@[simp] theorem releaseHeld_keeps (s : State) :
    (Sound s → Sound (releaseHeld s)) ∧ (releaseHeld s).pending = s.pending := by
  simp +contextual (maxDischargeDepth := 40) [releaseHeld]
@[simp] theorem flrBegin_keeps (s : State) :
    (Sound s → Sound (flrBegin s)) ∧ (flrBegin s).pending = s.pending := by
  simp +contextual [flrBegin]
@[simp] theorem flrEnd_keeps (s : State) :
    (Sound s → Sound (flrEnd s)) ∧ (flrEnd s).pending = s.pending := by
  simp +contextual (maxDischargeDepth := 40) [flrEnd]
@[simp] theorem d3hotEntry_keeps (s : State) :
    (Sound s → Sound (d3hotEntry s)) ∧ (d3hotEntry s).pending = s.pending := by
  simp +contextual [d3hotEntry]
@[simp] theorem d0Return_keeps (s : State) :
    (Sound s → Sound (d0Return s)) ∧ (d0Return s).pending = s.pending := by
  simp +contextual [d0Return]
@[simp] theorem cfgWrite_sound (f : State → State) (s : State) (hf : ∀ (s : State), Sound s → Sound (f s)) (hS : Sound s) :
    Sound (cfgWrite f s) := by
  unfold cfgWrite; (repeat' split) <;> first | exact hS | exact hf _ _ hS | exact hf _ _ _ hS | exact hf _ hS | (simp [*]; done) | (simp +contextual [*]; done)
@[simp] theorem cfgWrite_pending (f : State → State) (s : State) (hp : ∀ (s : State), (f s).pending = s.pending) : (cfgWrite
    f s).pending = s.pending := by
  unfold cfgWrite; (repeat' split) <;> first | rfl | exact hp .. | (simp [*]; done)
@[simp] theorem l1Entry_keeps (partner : Bool) (s : State) :
    (Sound s → Sound (l1Entry partner s)) ∧ (l1Entry partner s).pending = s.pending := by
  simp +contextual [l1Entry]
@[simp] theorem msixEnable_keeps (s : State) :
    (Sound s → Sound (msixEnable s)) ∧ (msixEnable s).pending = s.pending := by
  simp +contextual [msixEnable]
@[simp] theorem afterUnmask_keeps (v : Nat) (s : State) :
    (Sound s → Sound (afterUnmask v s)) ∧ (afterUnmask v s).pending = s.pending := by
  simp +contextual [afterUnmask]
@[simp] theorem funcUnmask_keeps (s : State) :
    (Sound s → Sound (funcUnmask s)) ∧ (funcUnmask s).pending = s.pending := by
  simp +contextual [funcUnmask]
@[simp] theorem msixUnmask_keeps (v : Option (Fin 256)) (s : State) :
    (Sound s → Sound (msixUnmask v s)) ∧ (msixUnmask v s).pending = s.pending := by
  unfold msixUnmask; (repeat' split) <;> simp +contextual [*]
@[simp] theorem tlpDiscard_keeps (e : TlpError) (s : State) :
    (Sound s → Sound (tlpDiscard e s)) ∧ (tlpDiscard e s).pending = s.pending := by
  unfold tlpDiscard; (repeat' split) <;> simp +contextual [*]
@[simp] theorem msixCtlWrite_keeps (v : Word) (s : State) :
    (Sound s → Sound (msixCtlWrite v s)) ∧ (msixCtlWrite v s).pending = s.pending := by
  unfold msixCtlWrite; dsimp only; (repeat' split) <;> simp +contextual (maxDischargeDepth := 40) [*]
@[simp] theorem cfgSet_keeps (r : CfgReg) (v : Word) (s : State) :
    (Sound s → Sound (cfgSet r v s)) ∧ (cfgSet r v s).pending = s.pending := by
  unfold cfgSet; (repeat' split) <;> simp +contextual [*]
@[simp] theorem startSeek_keeps (c : CellId) (track : Int) (surface : Nat) (s : State) :
    (Sound s → Sound (startSeek c track surface s)) ∧ (startSeek c track surface s).pending = s.pending := by
  simp +contextual (maxDischargeDepth := 40) [startSeek]
@[simp] theorem serveNext_keeps (c : CellId) (s : State) :
    (Sound s → Sound (serveNext c s)) ∧ (serveNext c s).pending = s.pending := by
  unfold serveNext; (repeat' split) <;> simp +contextual [*]
@[simp] theorem requestCell_keeps (c : CellId) (s : State) :
    (Sound s → Sound (requestCell c s)) ∧ (requestCell c s).pending = s.pending := by
  simp +contextual [requestCell]
@[simp] theorem settleBusy_keeps (a : SubAddr) (s : State) :
    (Sound s → Sound (settleBusy a s)) ∧ (settleBusy a s).pending = s.pending := by
  unfold settleBusy; (repeat' split) <;> simp +contextual [*]
@[simp] theorem beginSector_keeps (c : CellId) (block : Nat) (s : State) :
    (Sound s → Sound (beginSector c block s)) ∧ (beginSector c block s).pending = s.pending := by
  simp +contextual [beginSector]
@[simp] theorem addRead_keeps (a : SubAddr) (why : ReadFor) (cls : Nat) (around : Bool) (path : Option Nat) (s : State) :
    (Sound s → Sound (addRead a why cls around path s)) ∧ (addRead a why cls around path s).pending = s.pending := by
  simp +contextual (maxDischargeDepth := 40) [addRead]
@[simp] theorem allocLine_keeps (cls : Nat) (v : Nat) (a : SubAddr) (s : State) :
    (Sound s → Sound (allocLine cls v a s)) ∧ (allocLine cls v a s).pending = s.pending := by
  simp +contextual (maxDischargeDepth := 40) [allocLine]
@[simp] theorem claim_keeps (cls : Nat) (a : SubAddr) (s : State) :
    (Sound s → Sound (claim cls a s).2) ∧ (claim cls a s).2.pending = s.pending := by
  unfold claim; dsimp only; (repeat' split) <;> simp +contextual (maxDischargeDepth := 40) [*]
@[simp] theorem fillLine_keeps (cls : Nat) (asked : Bool) (a : SubAddr) (x : Sector) (s : State) :
    (Sound s → Sound (fillLine cls asked a x s)) ∧ (fillLine cls asked a x s).pending = s.pending := by
  simp +contextual [fillLine]
@[simp] theorem endRead_keeps (j : Job) (s : State) :
    (Sound s → Sound (endRead j s)) ∧ (endRead j s).pending = s.pending := by
  unfold endRead; (repeat' split) <;> simp +contextual [*]
@[simp] theorem settleRead_keeps (j : Job) (s : State) :
    (Sound s → Sound (settleRead j s)) ∧ (settleRead j s).pending = s.pending := by
  simp +contextual [settleRead]
@[simp] theorem setBlk_keeps (id : Nat) (i : Nat) (b : BlkRes) (s : State) :
    (Sound s → Sound (setBlk id i b s)) ∧ (setBlk id i b s).pending = s.pending := by
  unfold setBlk; (repeat' split) <;> simp +contextual [*]
@[simp] theorem answerReads_keeps (a : SubAddr) (f : WardId → Nat → Nat → BitVec 512 → BlkRes) (s : State) :
    (Sound s → Sound (answerReads a f s)) ∧ (answerReads a f s).pending = s.pending := by
  unfold answerReads; refine ⟨fun hS => sound_foldl _ _ (fun s x hS => ?_) ?_, foldl_pending_to _ _ (fun s x => ?_) ?_⟩ <;> (try dsimp only) <;> (repeat' split) <;> simp +contextual (maxDischargeDepth := 40) [*]
@[simp] theorem serveReads_keeps (a : SubAddr) (x : Sector) (how : Nat) (s : State) :
    (Sound s → Sound (serveReads a x how s)) ∧ (serveReads a x how s).pending = s.pending := by
  simp +contextual [serveReads]
@[simp] theorem State_setRecovery_keeps (s : State) (r : Recovery) :
    (Sound s → Sound (State.setRecovery s r)) ∧ (State.setRecovery s r).pending = s.pending := by
  simp +contextual [State.setRecovery]
@[simp] theorem nextRetry_keeps (c : CellId) (s : State) :
    (Sound s → Sound (nextRetry c s)) ∧ (nextRetry c s).pending = s.pending := by
  unfold nextRetry; dsimp only; (repeat' split) <;> simp +contextual (maxDischargeDepth := 40) [*]
@[simp] theorem dropRetry_keeps (k : Nat) (c : CellId) (s : State) :
    (Sound s → Sound (dropRetry k c s)) ∧ (dropRetry k c s).pending = s.pending := by
  simp +contextual [dropRetry]
@[simp] theorem queueRepair_keeps (c : CellId) (a : SubAddr) (x : Sector) (s : State) :
    (Sound s → Sound (queueRepair c a x s)) ∧ (queueRepair c a x s).pending = s.pending := by
  simp +contextual [queueRepair]
@[simp] theorem enqueueWrite_keeps (c : CellId) (a : SubAddr) (x : Sector) (s : State) :
    (Sound s → Sound (enqueueWrite c a x s)) ∧ (enqueueWrite c a x s).pending = s.pending := by
  simp +contextual [enqueueWrite]
@[simp] theorem supply_keeps (a : SubAddr) (x : Sector) (how : Nat) (s : State) :
    (Sound s → Sound (supply a x how s)) ∧ (supply a x how s).pending = s.pending := by
  unfold supply; (repeat' split) <;> simp +contextual [*]
@[simp] theorem deliver_keeps (why : ReadFor) (cls : Nat) (around : Bool) (a : SubAddr) (x : Sector) (how : Nat) (s :
    State) :
    (Sound s → Sound (deliver why cls around a x how s)) ∧ (deliver why cls around a x how s).pending = s.pending := by
  unfold deliver; dsimp only; (repeat' split) <;> simp +contextual (maxDischargeDepth := 40) [*]
@[simp] theorem recovered_keeps (r : Recovery) (x : Sector) (how : Nat) (s : State) :
    (Sound s → Sound (recovered r x how s)) ∧ (recovered r x how s).pending = s.pending := by
  simp +contextual (maxDischargeDepth := 40) [recovered]
@[simp] theorem pathWon_keeps (r : Recovery) (x : Sector) (s : State) :
    (Sound s → Sound (pathWon r x s)) ∧ (pathWon r x s).pending = s.pending := by
  simp +contextual [pathWon]
@[simp] theorem recoveryFailed_keeps (r : Recovery) (s : State) :
    (Sound s → Sound (recoveryFailed r s)) ∧ (recoveryFailed r s).pending = s.pending := by
  simp +contextual (maxDischargeDepth := 40) [recoveryFailed]
@[simp] theorem askColumn_keeps (k : Nat) (s : State) (c : Nat) :
    (Sound s → Sound (askColumn k s c)) ∧ (askColumn k s c).pending = s.pending := by
  unfold askColumn; dsimp only; (repeat' split) <;> simp +contextual (maxDischargeDepth := 40) [*]
@[simp] theorem askPath_keeps (k : Nat) (s : State) :
    (Sound s → Sound (askPath k s)) ∧ (askPath k s).pending = s.pending := by
  unfold askPath; (repeat' split) <;> simp +contextual [*]
@[simp] theorem pathFails_keeps (r : Recovery) (s : State) :
    (Sound s → Sound (pathFails r s)) ∧ (pathFails r s).pending = s.pending := by
  simp +contextual [pathFails]
@[simp] theorem checkRecovery_keeps (k : Nat) (s : State) :
    (Sound s → Sound (checkRecovery k s)) ∧ (checkRecovery k s).pending = s.pending := by
  unfold checkRecovery; dsimp only; (repeat' split) <;> simp +contextual (maxDischargeDepth := 40) [*]
@[simp] theorem startRecovery_keeps (a : SubAddr) (why : ReadFor) (cls : Nat) (around : Bool) (retry : Bool) (obs : Option
    Sector) (s : State) :
    (Sound s → Sound (startRecovery a why cls around retry obs s)) ∧
    (startRecovery a why cls around retry obs s).pending = s.pending := by
  simp +contextual (maxDischargeDepth := 40) [startRecovery]
@[simp] theorem startFill_keeps (cls : Nat) (around : Bool) (a : SubAddr) (s : State) :
    (Sound s → Sound (startFill cls around a s)) ∧ (startFill cls around a s).pending = s.pending := by
  simp +contextual [startFill]
@[simp] theorem askFill_keeps (cls : Nat) (a : SubAddr) (pol : Nat) (counted : Bool) (s : State) :
    (Sound s → Sound (askFill cls a pol counted s).2) ∧ (askFill cls a pol counted s).2.pending = s.pending := by
  unfold askFill; dsimp only; (repeat' split) <;> simp +contextual (maxDischargeDepth := 40) [*]
@[simp] theorem askBlock_keeps (id : Nat) (i : Nat) (pol : Nat) (counted : Bool) (a : SubAddr) (s : State) :
    (Sound s → Sound (askBlock id i pol counted a s)) ∧ (askBlock id i pol counted a s).pending = s.pending := by
  unfold askBlock; dsimp only; (repeat' split) <;> simp +contextual (maxDischargeDepth := 40) [*]
@[simp] theorem askAgain_keeps (id : Nat) (i : Nat) (pol : Nat) (counted : Bool) (a : SubAddr) (s : State) :
    (Sound s → Sound (askAgain id i pol counted a s)) ∧ (askAgain id i pol counted a s).pending = s.pending := by
  unfold askAgain; (repeat' split) <;> simp +contextual [*]
@[simp] theorem pumpBlk_keeps (j : Job) (s : State) (p : BlkRes × Nat) :
    (Sound s → Sound (pumpBlk j s p)) ∧ (pumpBlk j s p).pending = s.pending := by
  unfold pumpBlk; (repeat' split) <;> simp +contextual [*]
@[simp] theorem pumpReads_keeps (s : State) :
    (Sound s → Sound (pumpReads s)) ∧ (pumpReads s).pending = s.pending := by
  simp +contextual (maxDischargeDepth := 40) [pumpReads]
@[simp] theorem moveOn_keeps (s : State) :
    (Sound s → Sound (moveOn s)) ∧ (moveOn s).pending = s.pending := by
  simp +contextual (maxDischargeDepth := 40) [moveOn]
@[simp] theorem countPass_keeps (c : CellId) (block : Nat) (o : SectorObs) (good : Bool) (s : State) :
    (Sound s → Sound (countPass c block o good s)) ∧ (countPass c block o good s).pending = s.pending := by
  simp +contextual (maxDischargeDepth := 40) [countPass]
@[simp] theorem dropRead_keeps (k : Nat) (s : State) :
    (Sound s → Sound (dropRead k s)) ∧ (dropRead k s).pending = s.pending := by
  simp +contextual [dropRead]
@[simp] theorem remapSector_keeps (c : CellId) (block : Nat) (x : Sector) (s : State) :
    (Sound s → Sound (remapSector c block x s)) ∧ (remapSector c block x s).pending = s.pending := by
  simp +contextual (maxDischargeDepth := 40) [remapSector]
@[simp] theorem verifyBack_keeps (r : MediaRead) (good : Bool) (s : State) :
    (Sound s → Sound (verifyBack r good s)) ∧ (verifyBack r good s).pending = s.pending := by
  unfold verifyBack; (repeat' split) <;> simp +contextual [*]
@[simp] theorem pathRead_keeps (p : Nat) (a : SubAddr) (x : Option Sector) (s : State) :
    (Sound s → Sound (pathRead p a x s)) ∧ (pathRead p a x s).pending = s.pending := by
  constructor
  · intro h
    unfold pathRead
    cases x <;> dsimp only <;> (repeat' split) <;> simp (maxDischargeDepth := 40) [h]
  · unfold pathRead
    cases x <;> dsimp only <;> (repeat' split) <;> simp

@[simp] theorem readMoved_keeps (r : MediaRead) (s : State) :
    (Sound s → Sound (readMoved r s)) ∧ (readMoved r s).pending = s.pending := by
  unfold readMoved; (repeat' split) <;> simp +contextual [*]
@[simp] theorem sectorRead_keeps (k : Nat) (o : SectorObs) (s : State) :
    (Sound s → Sound (sectorRead k o s)) ∧ (sectorRead k o s).pending = s.pending := by
  unfold sectorRead; dsimp only; (repeat' split) <;> simp +contextual (maxDischargeDepth := 40) [*]
@[simp] theorem cacheFill_keeps (a : SubAddr) (s : State) :
    (Sound s → Sound (cacheFill a s)) ∧ (cacheFill a s).pending = s.pending := by
  unfold cacheFill; (repeat' split) <;> simp +contextual (maxDischargeDepth := 40) [*]
@[simp] theorem retryPass_keeps (k : Nat) (o : SectorObs) (s : State) :
    (Sound s → Sound (retryPass k o s)) ∧ (retryPass k o s).pending = s.pending := by
  unfold retryPass; dsimp only; (repeat' split) <;> simp +contextual (maxDischargeDepth := 40) [*]

end Sys2Proof.Machine
end

