-- ==== Sys2Proof/Laws/KeepCmds.lean ====
section
/-! SUPPORT. The admin and ward commands, destage, background work, the servo and the apertures keep the state sound and the queue as it was. -/

set_option linter.unusedTactic false
set_option linter.unreachableTactic false
set_option linter.unnecessarySeqFocus false

namespace Sys2Proof.Machine

@[simp] theorem runAdmin_sound (id : Nat) (op : Nat) (f : Job → State → State) (s : State) (hf : ∀ (x0 : Job) (s : State),
    Sound s → Sound (f x0 s)) (hS : Sound s) : Sound (runAdmin id op f s) := by
  refine runJob_sound _ _ _ _ _ (fun j s hS => ?_) hS; (repeat' split) <;> first | exact hf _ _ hS | (simp [hS]; done)
@[simp] theorem runAdmin_pending (id : Nat) (op : Nat) (f : Job → State → State) (s : State) (hp : ∀ (x0 : Job) (s : State),
    (f x0 s).pending = s.pending) : (runAdmin id op f s).pending = s.pending := by
  refine runJob_pending _ _ _ _ _ (fun j s => ?_); (repeat' split) <;> first | exact hp .. | (simp; done)
@[simp] theorem malformed_keeps (j : Job) (off : Nat) (s : State) :
    (Sound s → Sound (malformed j off s)) ∧ (malformed j off s).pending = s.pending := by
  simp +contextual [malformed]
@[simp] theorem malformedOpen_keeps (j : Job) (s : State) :
    (Sound s → Sound (malformedOpen j s)) ∧ (malformedOpen j s).pending = s.pending := by
  simp +contextual [malformedOpen]
@[simp] theorem officerAuth_keeps (j : Job) (s : State) :
    (Sound s → Sound (officerAuth j s)) ∧ (officerAuth j s).pending = s.pending := by
  unfold officerAuth; dsimp only; (repeat' split) <;> simp +contextual (maxDischargeDepth := 40) [*]
@[simp] theorem drawRandom_keeps (s : State) :
    (Sound s → Sound (drawRandom s).2) ∧ (drawRandom s).2.pending = s.pending := by
  simp +contextual [drawRandom]
@[simp] theorem stage_keeps (cred : Bytes) (s : State) :
    (Sound s → Sound (stage cred s)) ∧ (stage cred s).pending = s.pending := by
  simp +contextual [stage]
@[simp] theorem provision_keeps (s : State) :
    (Sound s → Sound (provision s)) ∧ (provision s).pending = s.pending := by
  unfold provision; (repeat' split) <;> simp +contextual [*]
@[simp] theorem setOfficerCredential_keeps (whole : Bool) (j : Job) (s : State) :
    (Sound s → Sound (setOfficerCredential whole j s)) ∧ (setOfficerCredential whole j s).pending = s.pending := by
  simp +contextual (maxDischargeDepth := 40) [setOfficerCredential]
@[simp] theorem setTelemetryKey_keeps (j : Job) (s : State) :
    (Sound s → Sound (setTelemetryKey j s)) ∧ (setTelemetryKey j s).pending = s.pending := by
  unfold setTelemetryKey; (repeat' split) <;> simp +contextual [*]
@[simp] theorem runSelfTest_keeps (fail : Option TestFail) (j : Job) (s : State) :
    (Sound s → Sound (runSelfTest fail j s)) ∧ (runSelfTest fail j s).pending = s.pending := by
  unfold runSelfTest; (repeat' split) <;> simp +contextual [*]
@[simp] theorem holdReset_keeps (j : Job) (s : State) :
    (Sound s → Sound (holdReset j s)) ∧ (holdReset j s).pending = s.pending := by
  simp +contextual [holdReset]
@[simp] theorem drawPair_keeps (s : State) :
    (Sound s → Sound (drawPair s).2) ∧ (drawPair s).2.pending = s.pending := by
  simp +contextual [drawPair]
@[simp] theorem makeWard_keeps (j : Job) (b : Extent) (p : Extent) (s : State) :
    (Sound s → Sound (makeWard j b p s)) ∧ (makeWard j b p s).pending = s.pending := by
  simp +contextual (maxDischargeDepth := 40) [makeWard]
@[simp] theorem createCmd_keeps (j : Job) (s : State) :
    (Sound s → Sound (createCmd j s)) ∧ (createCmd j s).pending = s.pending := by
  unfold createCmd; dsimp only; (repeat' split) <;> simp +contextual (maxDischargeDepth := 40) [*]
@[simp] theorem abortWard_keeps (w : WardId) (s : State) :
    (Sound s → Sound (abortWard w s).2) ∧ (abortWard w s).2.pending = s.pending := by
  simp +contextual (maxDischargeDepth := 40) [abortWard]
@[simp] theorem resetBegin_keeps (w : WardId) (s : State) :
    (Sound s → Sound (resetBegin w s)) ∧ (resetBegin w s).pending = s.pending := by
  simp +contextual (maxDischargeDepth := 40) [resetBegin]
@[simp] theorem resetCmd_keeps (destroy : Bool) (j : Job) (s : State) :
    (Sound s → Sound (resetCmd destroy j s)) ∧ (resetCmd destroy j s).pending = s.pending := by
  unfold resetCmd; dsimp only; (repeat' split) <;> simp +contextual (maxDischargeDepth := 40) [*]
@[simp] theorem resetRow_keeps (job : Nat) (op : Nat) (destroy : Bool) (s : State) :
    (Sound s → Sound (resetRow job op destroy s)) ∧ (resetRow job op destroy s).pending = s.pending := by
  unfold resetRow; (repeat' split) <;> simp +contextual [*]
@[simp] theorem withKey_sound (f : WardId → Job → State → State) (j : Job) (s : State) (hf : ∀ (x0 : WardId) (x1 : Job) (s :
    State), Sound s → Sound (f x0 x1 s)) (hS : Sound s) : Sound (withKey f j s) := by
  unfold withKey; (repeat' split) <;> first | exact hS | exact hf _ _ hS | exact hf _ _ _ hS | exact hf _ hS | (simp [*]; done) | (simp +contextual [*]; done)
@[simp] theorem withKey_pending (f : WardId → Job → State → State) (j : Job) (s : State) (hp : ∀ (x0 : WardId) (x1 : Job) (s
    : State), (f x0 x1 s).pending = s.pending) : (withKey f j s).pending = s.pending := by
  unfold withKey; (repeat' split) <;> first | rfl | exact hp .. | (simp [*]; done)
@[simp] theorem resizeWard_keeps (w : WardId) (j : Job) (s : State) :
    (Sound s → Sound (resizeWard w j s)) ∧ (resizeWard w j s).pending = s.pending := by
  unfold resizeWard; dsimp only; (repeat' split) <;> simp +contextual (maxDischargeDepth := 40) [*]
@[simp] theorem setWardRings_keeps (w : WardId) (j : Job) (s : State) :
    (Sound s → Sound (setWardRings w j s)) ∧ (setWardRings w j s).pending = s.pending := by
  simp +contextual [setWardRings]
@[simp] theorem setWardSched_keeps (w : WardId) (j : Job) (s : State) :
    (Sound s → Sound (setWardSched w j s)) ∧ (setWardSched w j s).pending = s.pending := by
  simp +contextual [setWardSched]
@[simp] theorem flushBegin_keeps (j : Job) (s : State) :
    (Sound s → Sound (flushBegin j s)) ∧ (flushBegin j s).pending = s.pending := by
  simp +contextual (maxDischargeDepth := 40) [flushBegin]
@[simp] theorem heldEval_keeps (id : Nat) (s : State) :
    (Sound s → Sound (heldEval id s)) ∧ (heldEval id s).pending = s.pending := by
  unfold heldEval; (repeat' split) <;> simp +contextual [*]
@[simp] theorem tumblerWrite_keeps (j : Job) (s : State) :
    (Sound s → Sound (tumblerWrite j s)) ∧ (tumblerWrite j s).pending = s.pending := by
  simp +contextual [tumblerWrite]
@[simp] theorem groupSet_sound (job : Nat) (action : Nat) (f : Job → State → State) (s : State) (hf : ∀ (x0 : Job) (s :
    State), Sound s → Sound (f x0 s)) (hS : Sound s) : Sound (groupSet job action f s) := by
  unfold groupSet; (repeat' split) <;> first | exact hS | exact hf _ _ hS | exact hf _ _ _ hS | exact hf _ hS | (simp [*]; done) | (simp +contextual [*]; done)
@[simp] theorem groupSet_pending (job : Nat) (action : Nat) (f : Job → State → State) (s : State) (hp : ∀ (x0 : Job) (s :
    State), (f x0 s).pending = s.pending) : (groupSet job action f s).pending = s.pending := by
  unfold groupSet; (repeat' split) <;> first | rfl | exact hp .. | (simp [*]; done)
@[simp] theorem groupCreate_keeps (j : Job) (s : State) :
    (Sound s → Sound (groupCreate j s)) ∧ (groupCreate j s).pending = s.pending := by
  simp +contextual [groupCreate]
@[simp] theorem groupSpare_keeps (j : Job) (s : State) :
    (Sound s → Sound (groupSpare j s)) ∧ (groupSpare j s).pending = s.pending := by
  simp +contextual [groupSpare]
@[simp] theorem groupDelete_keeps (j : Job) (s : State) :
    (Sound s → Sound (groupDelete j s)) ∧ (groupDelete j s).pending = s.pending := by
  simp +contextual [groupDelete]
@[simp] theorem workCtrl_sound (job : Nat) (op : Nat) (action : Nat) (f : Job → State → State) (s : State) (hf : ∀ (x0 : Job)
    (s : State), Sound s → Sound (f x0 s)) (hS : Sound s) : Sound (workCtrl job op action f s) := by
  unfold workCtrl; (repeat' split) <;> first | exact hS | exact hf _ _ hS | exact hf _ _ _ hS | exact hf _ hS | (simp [*]; done) | (simp +contextual [*]; done)
@[simp] theorem workCtrl_pending (job : Nat) (op : Nat) (action : Nat) (f : Job → State → State) (s : State) (hp : ∀ (x0 :
    Job) (s : State), (f x0 s).pending = s.pending) : (workCtrl job op action f s).pending = s.pending := by
  unfold workCtrl; (repeat' split) <;> first | rfl | exact hp .. | (simp [*]; done)
@[simp] theorem rebuildStart_keeps (j : Job) (s : State) :
    (Sound s → Sound (rebuildStart j s)) ∧ (rebuildStart j s).pending = s.pending := by
  unfold rebuildStart; dsimp only; (repeat' split) <;> simp +contextual (maxDischargeDepth := 40) [*]
@[simp] theorem workJournal_keeps (j : Job) (s : State) :
    (Sound s → Sound (workJournal j s)) ∧ (workJournal j s).pending = s.pending := by
  simp +contextual [workJournal]
@[simp] theorem wayRestore_keeps (j : Job) (s : State) :
    (Sound s → Sound (wayRestore j s)) ∧ (wayRestore j s).pending = s.pending := by
  simp +contextual [wayRestore]
@[simp] theorem eventLogSet_keeps (job : Nat) (on : Nat) (s : State) :
    (Sound s → Sound (eventLogSet job on s)) ∧ (eventLogSet job on s).pending = s.pending := by
  unfold eventLogSet; (repeat' split) <;> simp +contextual [*]
@[simp] theorem runWard_sound (id : Nat) (op : Nat) (f : WardId → Job → State → State) (s : State) (hf : ∀ (x0 : WardId) (x1
    : Job) (s : State), Sound s → Sound (f x0 x1 s)) (hS : Sound s) : Sound (runWard id op f s) := by
  unfold runWard; (repeat' split) <;> first | exact hS | exact hf _ _ hS | exact hf _ _ _ hS | exact hf _ hS | (simp [*]; done) | (simp +contextual [*]; done)
@[simp] theorem runWard_pending (id : Nat) (op : Nat) (f : WardId → Job → State → State) (s : State) (hp : ∀ (x0 : WardId)
    (x1 : Job) (s : State), (f x0 x1 s).pending = s.pending) : (runWard id op f s).pending = s.pending := by
  unfold runWard; (repeat' split) <;> first | rfl | exact hp .. | (simp [*]; done)
@[simp] theorem askFirst_keeps (w : WardId) (space : Nat) (b : Nat) (id : Nat) (i : Nat) (s : State) :
    (Sound s → Sound (askFirst w space b id i s)) ∧ (askFirst w space b id i s).pending = s.pending := by
  unfold askFirst; (repeat' split) <;> simp +contextual [*]
@[simp] theorem countHits_keeps (w : WardId) (space : Nat) (first : Nat) (count : Nat) (s : State) :
    (Sound s → Sound (countHits w space first count s)) ∧ (countHits w space first count s).pending = s.pending := by
  simp +contextual [countHits]
@[simp] theorem beginRead_keeps (w : WardId) (keys : BitVec 512) (j : Job) (s : State) :
    (Sound s → Sound (beginRead w keys j s)) ∧ (beginRead w keys j s).pending = s.pending := by
  unfold beginRead; dsimp only; (repeat' split) <;> simp +contextual (maxDischargeDepth := 40) [*]
@[simp] theorem readCmd_keeps (tagFail : Option Nat) (w : WardId) (j : Job) (s : State) :
    (Sound s → Sound (readCmd tagFail w j s)) ∧ (readCmd tagFail w j s).pending = s.pending := by
  unfold readCmd; (repeat' split) <;> simp +contextual [*]
@[simp] theorem writeCmd_keeps (w : WardId) (j : Job) (s : State) :
    (Sound s → Sound (writeCmd w j s)) ∧ (writeCmd w j s).pending = s.pending := by
  unfold writeCmd; (repeat' split) <;> simp +contextual [*]
@[simp] theorem trimCmd_keeps (w : WardId) (j : Job) (s : State) :
    (Sound s → Sound (trimCmd w j s)) ∧ (trimCmd w j s).pending = s.pending := by
  unfold trimCmd; (repeat' split) <;> simp +contextual [*]
@[simp] theorem slotBad_keeps (w : WardId) (j : Job) (s : State) :
    (Sound s → Sound (slotBad w j s)) ∧ (slotBad w j s).pending = s.pending := by
  simp +contextual [slotBad]
@[simp] theorem openCmd_keeps (intact : Bool) (w : WardId) (j : Job) (s : State) :
    (Sound s → Sound (openCmd intact w j s)) ∧ (openCmd intact w j s).pending = s.pending := by
  unfold openCmd; dsimp only; (repeat' split) <;> simp +contextual (maxDischargeDepth := 40) [*]
@[simp] theorem sealCmd_keeps (w : WardId) (j : Job) (s : State) :
    (Sound s → Sound (sealCmd w j s)) ∧ (sealCmd w j s).pending = s.pending := by
  simp +contextual [sealCmd]
@[simp] theorem credCmd_keeps (intact : Bool) (w : WardId) (j : Job) (s : State) :
    (Sound s → Sound (credCmd intact w j s)) ∧ (credCmd intact w j s).pending = s.pending := by
  simp +contextual [credCmd]
@[simp] theorem startWrite_keeps (c : CellId) (s : State) :
    (Sound s → Sound (startWrite c s)) ∧ (startWrite c s).pending = s.pending := by
  unfold startWrite; dsimp only; (repeat' split) <;> simp +contextual (maxDischargeDepth := 40) [*]
@[simp] theorem settleSub_keeps (a : SubAddr) (s : State) :
    (Sound s → Sound (settleSub a s)) ∧ (settleSub a s).pending = s.pending := by
  simp +contextual [settleSub]
@[simp] theorem destageLost_keeps (a : SubAddr) (s : State) :
    (Sound s → Sound (destageLost a s)) ∧ (destageLost a s).pending = s.pending := by
  simp +contextual [destageLost]
@[simp] theorem beginDestage_keeps (a : SubAddr) (x : Sector) (s : State) :
    (Sound s → Sound (beginDestage a x s)) ∧ (beginDestage a x s).pending = s.pending := by
  simp +contextual (maxDischargeDepth := 40) [beginDestage]
@[simp] theorem destageData_keeps (a : SubAddr) (s : State) :
    (Sound s → Sound (destageData a s)) ∧ (destageData a s).pending = s.pending := by
  unfold destageData; (repeat' split) <;> simp +contextual [*]
@[simp] theorem destageParity_keeps (a : SubAddr) (s : State) :
    (Sound s → Sound (destageParity a s)) ∧ (destageParity a s).pending = s.pending := by
  unfold destageParity; (repeat' split) <;> simp +contextual [*]
@[simp] theorem destageStart_keeps (a : SubAddr) (s : State) :
    (Sound s → Sound (destageStart a s)) ∧ (destageStart a s).pending = s.pending := by
  unfold destageStart; (repeat' split) <;> simp +contextual [*]
@[simp] theorem subWritten_keeps (a : SubAddr) (x : Sector) (s : State) :
    (Sound s → Sound (subWritten a x s)) ∧ (subWritten a x s).pending = s.pending := by
  simp +contextual (maxDischargeDepth := 40) [subWritten]
@[simp] theorem takeWrite_keeps (c : CellId) (k : Nat) (s : State) :
    (Sound s → Sound (takeWrite c k s)) ∧ (takeWrite c k s).pending = s.pending := by
  simp +contextual [takeWrite]
@[simp] theorem repairDone_keeps (c : CellId) (q : QWrite) (s : State) :
    (Sound s → Sound (repairDone c q s)) ∧ (repairDone c q s).pending = s.pending := by
  simp +contextual (maxDischargeDepth := 40) [repairDone]
@[simp] theorem writeDone_keeps (c : CellId) (q : QWrite) (s : State) :
    (Sound s → Sound (writeDone c q s)) ∧ (writeDone c q s).pending = s.pending := by
  simp +contextual (maxDischargeDepth := 40) [writeDone]
@[simp] theorem retireWay_keeps (v : Fin 16) (kind : EccKind) (s : State) :
    (Sound s → Sound (retireWay v kind s)) ∧ (retireWay v kind s).pending = s.pending := by
  unfold retireWay; dsimp only; (repeat' split) <;> simp +contextual (maxDischargeDepth := 40) [*]
@[simp] theorem eccError_keeps (v : Fin 16) (kind : EccKind) (s : State) :
    (Sound s → Sound (eccError v kind s)) ∧ (eccError v kind s).pending = s.pending := by
  have h1 (u : State) (n : Nat) (h : Sound u) : Sound { u with cache := { u.cache with errors := u.cache.errors.set 0 v.val n } } :=
    { h with errors := Tab.set_wf (fun _ => 0) _ _ _ h.errors }
  unfold eccError
  constructor
  · intro h
    split
    · exact h
    · cases kind
      · dsimp only; split
        · exact (retireWay_keeps _ _ _).1 ((bump_keeps _ _ _).1 (h1 s _ h))
        · exact (bump_keeps _ _ _).1 (h1 s _ h)
      · exact (retireWay_keeps _ _ _).1 ((bump_keeps _ _ _).1 h)
      · exact (retireWay_keeps _ _ _).1 h
  · split
    · rfl
    · cases kind
      · dsimp only; split <;> simp
      · simp
      · simp

@[simp] theorem wayRetires_keeps (v : Fin 16) (kind : EccKind) (s : State) :
    (Sound s → Sound (wayRetires v kind s)) ∧ (wayRetires v kind s).pending = s.pending := by
  unfold wayRetires; (repeat' split) <;> simp +contextual [*]
@[simp] theorem queueStripe_keeps (g : GroupId) (stripe : Nat) (s : State) :
    (Sound s → Sound (queueStripe g stripe s)) ∧ (queueStripe g stripe s).pending = s.pending := by
  simp +contextual [queueStripe]
@[simp] theorem putSector_keeps (c : CellId) (a : SubAddr) (x : Sector) (s : State) :
    (Sound s → Sound (putSector c a x s)) ∧ (putSector c a x s).pending = s.pending := by
  simp +contextual [putSector]
@[simp] theorem writeColumn_keeps (c : CellId) (g : GroupId) (stripe : Nat) (col : Nat) (f : Nat → Sector) (s : State) :
    (Sound s → Sound (writeColumn c g stripe col f s)) ∧ (writeColumn c g stripe col f s).pending = s.pending := by
  simp +contextual [writeColumn]
@[simp] theorem rebuildEnd_keeps (g : GroupId) (s : State) :
    (Sound s → Sound (rebuildEnd g s)) ∧ (rebuildEnd g s).pending = s.pending := by
  unfold rebuildEnd; dsimp only; (repeat' split) <;> simp +contextual (maxDischargeDepth := 40) [*]
@[simp] theorem spareColumn_keeps (g : Group) (stripe : Nat) (s : State) :
    (Sound s → Sound (spareColumn g stripe s).2) ∧ (spareColumn g stripe s).2.pending = s.pending := by
  unfold spareColumn; (repeat' split) <;> simp +contextual [*]
@[simp] theorem initStripe_keeps (g : GroupId) (s : State) :
    (Sound s → Sound (initStripe g s)) ∧ (initStripe g s).pending = s.pending := by
  unfold initStripe; dsimp only; (repeat' split) <;> simp +contextual (maxDischargeDepth := 40) [*]
@[simp] theorem keepRow_keeps (cls : Nat) (a : SubAddr) (x : Sector) (s : State) :
    (Sound s → Sound (keepRow cls a x s)) ∧ (keepRow cls a x s).pending = s.pending := by
  simp +contextual (maxDischargeDepth := 40) [keepRow]
@[simp] theorem readCol_keeps (cls : Nat) (x : Group) (a : SubAddr) (row : List RowRead) (c : Nat) (s : State) :
    (Sound s → Sound (readCol cls x a row c s).2) ∧ (readCol cls x a row c s).2.pending = s.pending := by
  unfold readCol; dsimp only; (repeat' split) <;> simp +contextual (maxDischargeDepth := 40) [*]
@[simp] theorem readNext_keeps (cls : Nat) (x : Group) (a : SubAddr) (row : List RowRead) (enough : List (Nat × Sector) →
    Bool) (acc : List (Nat × Sector) × State) (c : Nat) :
    (Sound acc.2 → Sound (readNext cls x a row enough acc c).2) ∧
    (readNext cls x a row enough acc c).2.pending = acc.2.pending := by
  unfold readNext; (repeat' split) <;> simp +contextual [*]
@[simp] theorem readCols_keeps (cls : Nat) (x : Group) (a : SubAddr) (row : List RowRead) (enough : List (Nat × Sector) →
    Bool) (cols : List Nat) (acc : List (Nat × Sector) × State) :
    (Sound acc.2 → Sound (readCols cls x a row enough cols acc).2) ∧
    (readCols cls x a row enough cols acc).2.pending = acc.2.pending := by
  simp +contextual [readCols]
@[simp] theorem readRow_keeps (cls : Nat) (own : Nat) (x : Group) (a : SubAddr) (row : List RowRead) (s : State) :
    (Sound s → Sound (readRow cls own x a row s).2) ∧ (readRow cls own x a row s).2.pending = s.pending := by
  simp +contextual [readRow]
@[simp] theorem repairCols_keeps (x : Group) (a : SubAddr) (got : List (Nat × Sector)) (cols : List Nat) (s : State) :
    (Sound s → Sound (repairCols x a got cols s)) ∧ (repairCols x a got cols s).pending = s.pending := by
  unfold repairCols; refine ⟨fun hS => sound_foldl _ _ (fun s x hS => ?_) ?_, foldl_pending_to _ _ (fun s x => ?_) ?_⟩ <;> (try dsimp only) <;> (repeat' split) <;> simp +contextual (maxDischargeDepth := 40) [*]
@[simp] theorem produce_keeps (x : Group) (a : SubAddr) (row : List RowRead) (s : State) :
    (Sound s → Sound (produce x a row s).2) ∧ (produce x a row s).2.pending = s.pending := by
  unfold produce; dsimp only; (repeat' split) <;> simp +contextual (maxDischargeDepth := 40) [*]
@[simp] theorem countOffTrack_keeps (x : Group) (a : SubAddr) (row : List RowRead) (s : State) :
    (Sound s → Sound (countOffTrack x a row s)) ∧ (countOffTrack x a row s).pending = s.pending := by
  simp +contextual [countOffTrack]
@[simp] theorem rebuildSub_keeps (c : CellId) (x : Group) (a : SubAddr) (row : List RowRead) (s : State) :
    (Sound s → Sound (rebuildSub c x a row s)) ∧ (rebuildSub c x a row s).pending = s.pending := by
  unfold rebuildSub; dsimp only; (repeat' split) <;> simp +contextual (maxDischargeDepth := 40) [*]
@[simp] theorem rebuildSubs_keeps (g : GroupId) (c : CellId) (rows : List (List RowRead)) (s : State) :
    (Sound s → Sound (rebuildSubs g c rows s)) ∧ (rebuildSubs g c rows s).pending = s.pending := by
  simp +contextual [rebuildSubs]
@[simp] theorem rebuildStripe_keeps (g : GroupId) (rows : List (List RowRead)) (s : State) :
    (Sound s → Sound (rebuildStripe g rows s)) ∧ (rebuildStripe g rows s).pending = s.pending := by
  unfold rebuildStripe; dsimp only; (repeat' split) <;> simp +contextual (maxDischargeDepth := 40) [*]
@[simp] theorem scrubRepair_keeps (x : Group) (a : SubAddr) (got : List (Nat × Sector)) (s : State) :
    (Sound s → Sound (scrubRepair x a got s).2) ∧ (scrubRepair x a got s).2.pending = s.pending := by
  simp +contextual [scrubRepair]
@[simp] theorem scrubCheck_keeps (x : Group) (a : SubAddr) (got : List (Nat × Sector)) (l : List (Nat × Bytes)) (s :
    State) (k : Nat) :
    (Sound s → Sound (scrubCheck x a got l s k)) ∧ (scrubCheck x a got l s k).pending = s.pending := by
  unfold scrubCheck; dsimp only; (repeat' split) <;> simp +contextual (maxDischargeDepth := 40) [*]
@[simp] theorem scrubParity_keeps (x : Group) (a : SubAddr) (got : List (Nat × Sector)) (s : State) :
    (Sound s → Sound (scrubParity x a got s)) ∧ (scrubParity x a got s).pending = s.pending := by
  unfold scrubParity; (repeat' split) <;> simp +contextual [*]
@[simp] theorem scrubNext_keeps (g : GroupId) (s : State) :
    (Sound s → Sound (scrubNext g s)) ∧ (scrubNext g s).pending = s.pending := by
  simp +contextual (maxDischargeDepth := 40) [scrubNext]
@[simp] theorem scrubRow_keeps (g : GroupId) (row : List RowRead) (s : State) :
    (Sound s → Sound (scrubRow g row s)) ∧ (scrubRow g row s).pending = s.pending := by
  simp +contextual (maxDischargeDepth := 40) [scrubRow]
@[simp] theorem eventRecord_keeps (s : State) :
    (Sound s → Sound (eventRecord s)) ∧ (eventRecord s).pending = s.pending := by
  unfold eventRecord; dsimp only; (repeat' split) <;> simp +contextual (maxDischargeDepth := 40) [*]
@[simp] theorem armLost_keeps (c : CellId) (s : State) :
    (Sound s → Sound (armLost c s)) ∧ (armLost c s).pending = s.pending := by
  simp +contextual (maxDischargeDepth := 40) [armLost]
@[simp] theorem servoDoubt_keeps (c : CellId) (cause : BitVec 3) (s : State) :
    (Sound s → Sound (servoDoubt c cause s)) ∧ (servoDoubt c cause s).pending = s.pending := by
  simp +contextual (maxDischargeDepth := 40) [servoDoubt]
@[simp] theorem thermal_keeps (c : CellId) (s : State) :
    (Sound s → Sound (thermal c s)) ∧ (thermal c s).pending = s.pending := by
  simp +contextual [thermal]
@[simp] theorem treatAbsent_keeps (c : CellId) (s : State) :
    (Sound s → Sound (treatAbsent c s)) ∧ (treatAbsent c s).pending = s.pending := by
  simp +contextual (maxDischargeDepth := 40) [treatAbsent]
@[simp] theorem startSpins_keeps (s : State) :
    (Sound s → Sound (startSpins s)) ∧ (startSpins s).pending = s.pending := by
  simp +contextual (maxDischargeDepth := 40) [startSpins]
@[simp] theorem pagesDone_keeps (c : CellId) (s : State) :
    (Sound s → Sound (pagesDone c s)) ∧ (pagesDone c s).pending = s.pending := by
  simp +contextual (maxDischargeDepth := 40) [pagesDone]
@[simp] theorem loadHeads_keeps (c : CellId) (s : State) :
    (Sound s → Sound (loadHeads c s)) ∧ (loadHeads c s).pending = s.pending := by
  simp +contextual [loadHeads]
@[simp] theorem leftParked_keeps (s : State) :
    (Sound s → Sound (leftParked s)) ∧ (leftParked s).pending = s.pending := by
  simp +contextual [leftParked]
@[simp] theorem pageBits_keeps (c : CellId) (d : BitVec 16) (s : State) :
    (Sound s → Sound (pageBits c d s)) ∧ (pageBits c d s).pending = s.pending := by
  simp +contextual [pageBits]
@[simp] theorem watchdogDoubt_keeps (c : CellId) (d : BitVec 16) (s : State) :
    (Sound s → Sound (watchdogDoubt c d s)) ∧ (watchdogDoubt c d s).pending = s.pending := by
  simp +contextual [watchdogDoubt]
@[simp] theorem pageSpeed_keeps (c : CellId) (d : BitVec 16) (s : State) :
    (Sound s → Sound (pageSpeed c d s)) ∧ (pageSpeed c d s).pending = s.pending := by
  simp +contextual [pageSpeed]
@[simp] theorem pageParked_keeps (c : CellId) (d : BitVec 16) (s : State) :
    (Sound s → Sound (pageParked c d s)) ∧ (pageParked c d s).pending = s.pending := by
  simp +contextual [pageParked]
@[simp] theorem page0_keeps (c : CellId) (d : BitVec 16) (s : State) :
    (Sound s → Sound (page0 c d s)) ∧ (page0 c d s).pending = s.pending := by
  unfold page0; dsimp only; (repeat' split) <;> simp +contextual (maxDischargeDepth := 40) [*]
@[simp] theorem page2_keeps (c : CellId) (d : BitVec 16) (s : State) :
    (Sound s → Sound (page2 c d s)) ∧ (page2 c d s).pending = s.pending := by
  simp +contextual [page2]
@[simp] theorem statusPage_keeps (c : CellId) (page : Nat) (d : BitVec 16) (s : State) :
    (Sound s → Sound (statusPage c page d s)) ∧ (statusPage c page d s).pending = s.pending := by
  simp +contextual [statusPage]
@[simp] theorem responseFails_keeps (c : CellId) (sent : Word) (s : State) :
    (Sound s → Sound (responseFails c sent s)) ∧ (responseFails c sent s).pending = s.pending := by
  simp +contextual (maxDischargeDepth := 40) [responseFails]
@[simp] theorem armResponse_keeps (c : CellId) (f : Word) (s : State) :
    (Sound s → Sound (armResponse c f s)) ∧ (armResponse c f s).pending = s.pending := by
  unfold armResponse; dsimp only; (repeat' split) <;> simp +contextual (maxDischargeDepth := 40) [*]
@[simp] theorem colzorFrame_keeps (c : CellId) (o : ColzorObs) (s : State) :
    (Sound s → Sound (colzorFrame c o s)) ∧ (colzorFrame c o s).pending = s.pending := by
  simp +contextual (maxDischargeDepth := 40) [colzorFrame]
@[simp] theorem sendDemand_keeps (c : CellId) (s : State) :
    (Sound s → Sound (sendDemand c s)) ∧ (sendDemand c s).pending = s.pending := by
  simp +contextual [sendDemand]
@[simp] theorem gateRule_keeps (c : CellId) (s : State) :
    (Sound s → Sound (gateRule c s)) ∧ (gateRule c s).pending = s.pending := by
  simp +contextual (maxDischargeDepth := 40) [gateRule]
@[simp] theorem reacquire_keeps (c : CellId) (s : State) :
    (Sound s → Sound (reacquire c s)) ∧ (reacquire c s).pending = s.pending := by
  simp +contextual (maxDischargeDepth := 40) [reacquire]
@[simp] theorem acquireStep_keeps (c : CellId) (s : State) :
    (Sound s → Sound (acquireStep c s)) ∧ (acquireStep c s).pending = s.pending := by
  simp +contextual (maxDischargeDepth := 40) [acquireStep]
@[simp] theorem profileDemand_keeps (v : Servo) (e : Int) (s : State) :
    (Sound s → Sound (profileDemand v e s).2) ∧ (profileDemand v e s).2.pending = s.pending := by
  unfold profileDemand; (repeat' split) <;> simp +contextual [*]
@[simp] theorem wedgeEnd_keeps (c : CellId) (v : Servo) (s : State) :
    (Sound s → Sound (wedgeEnd c v s)) ∧ (wedgeEnd c v s).pending = s.pending := by
  simp +contextual [wedgeEnd]
@[simp] theorem wedgeTaken_keeps (c : CellId) (o : WedgeObs) (s : State) :
    (Sound s → Sound (wedgeTaken c o s)) ∧ (wedgeTaken c o s).pending = s.pending := by
  simp +contextual (maxDischargeDepth := 40) [wedgeTaken]
@[simp] theorem wedgeStep_keeps (c : CellId) (o : WedgeObs) (s : State) :
    (Sound s → Sound (wedgeStep c o s)) ∧ (wedgeStep c o s).pending = s.pending := by
  simp +contextual [wedgeStep]
@[simp] theorem seekFail_keeps (c : CellId) (s : State) :
    (Sound s → Sound (seekFail c s)) ∧ (seekFail c s).pending = s.pending := by
  simp +contextual (maxDischargeDepth := 40) [seekFail]
@[simp] theorem evlogHeadWrite_keeps (v : Word) (s : State) :
    (Sound s → Sound (evlogHeadWrite v s)) ∧ (evlogHeadWrite v s).pending = s.pending := by
  simp +contextual [evlogHeadWrite]
@[simp] theorem ratBWrite_keeps (i : Nat) (v : Word) (s : State) :
    (Sound s → Sound (ratBWrite i v s)) ∧ (ratBWrite i v s).pending = s.pending := by
  simp +contextual [ratBWrite]
@[simp] theorem rejectClear_keeps (v : Word) (s : State) :
    (Sound s → Sound (rejectClear v s)) ∧ (rejectClear v s).pending = s.pending := by
  simp +contextual [rejectClear]
@[simp] theorem sysClear_keeps (a : Nat) (v : Word) (s : State) :
    (Sound s → Sound (sysClear a v s)) ∧ (sysClear a v s).pending = s.pending := by
  simp +contextual [sysClear]
@[simp] theorem hostClear_keeps (a : Nat) (v : Word) (s : State) :
    (Sound s → Sound (hostClear a v s)) ∧ (hostClear a v s).pending = s.pending := by
  simp +contextual [hostClear]
@[simp] theorem cellClear_keeps (a : Nat) (v : Word) (s : State) :
    (Sound s → Sound (cellClear a v s)) ∧ (cellClear a v s).pending = s.pending := by
  unfold cellClear; (repeat' split) <;> simp +contextual [*]
@[simp] theorem clearBits_keeps (a : Nat) (v : Word) (s : State) :
    (Sound s → Sound (clearBits a v s)) ∧ (clearBits a v s).pending = s.pending := by
  simp +contextual [clearBits]
@[simp] theorem plainWrite_keeps (a : Nat) (v : Word) (s : State) :
    (Sound s → Sound (plainWrite a v s)) ∧ (plainWrite a v s).pending = s.pending := by
  unfold plainWrite; (repeat' split) <;> simp +contextual [*]
@[simp] theorem clkCtrlWrite_keeps (v : Word) (s : State) :
    (Sound s → Sound (clkCtrlWrite v s)) ∧ (clkCtrlWrite v s).pending = s.pending := by
  unfold clkCtrlWrite
  constructor
  · intro h; dsimp only; split <;> simp (maxDischargeDepth := 40) only [State_setReg_sound, h, srcPll_keeps, toOscillator_keeps, ppsHold_keeps]
  · dsimp only; split <;> simp

@[simp] theorem msixWrite_keeps (a : Nat) (v : Word) (s : State) :
    (Sound s → Sound (msixWrite a v s)) ∧ (msixWrite a v s).pending = s.pending := by
  simp +contextual [msixWrite]
@[simp] theorem progressWrite_keeps (v : Word) (s : State) :
    (Sound s → Sound (progressWrite v s)) ∧ (progressWrite v s).pending = s.pending := by
  simp +contextual [progressWrite]
@[simp] theorem limitWrite_keeps (v : Word) (s : State) :
    (Sound s → Sound (limitWrite v s)) ∧ (limitWrite v s).pending = s.pending := by
  simp +contextual [limitWrite]
@[simp] theorem scratchWrite_keeps (v : Word) (s : State) :
    (Sound s → Sound (scratchWrite v s)) ∧ (scratchWrite v s).pending = s.pending := by
  simp +contextual [scratchWrite]
@[simp] theorem restartReg_keeps (v : Word) (s : State) :
    (Sound s → Sound (restartReg v s)) ∧ (restartReg v s).pending = s.pending := by
  simp +contextual [restartReg]
@[simp] theorem writeReg_keeps (a : Nat) (v : Word) (s : State) :
    (Sound s → Sound (writeReg a v s)) ∧ (writeReg a v s).pending = s.pending := by
  unfold writeReg
  constructor
  · intro h; (repeat' split) <;> simp [h]
  · (repeat' split) <;> simp

@[simp] theorem registerWrite_keeps (off : Nat) (size : Nat) (full : Bool) (v : DWord) (s : State) :
    (Sound s → Sound (registerWrite off size full v s)) ∧ (registerWrite off size full v s).pending = s.pending := by
  simp +contextual [registerWrite]
@[simp] theorem readUnit_keeps (off : Nat) (len : Nat) (s : State) :
    (Sound s → Sound (readUnit off len s)) ∧ (readUnit off len s).pending = s.pending := by
  unfold readUnit; dsimp only; (repeat' split) <;> simp +contextual (maxDischargeDepth := 40) [*]
@[simp] theorem refuseAccess_keeps (read : Bool) (s : State) :
    (Sound s → Sound (refuseAccess read s)) ∧ (refuseAccess read s).pending = s.pending := by
  simp +contextual [refuseAccess]
@[simp] theorem bar0Read_keeps (off : Nat) (len : Nat) (s : State) :
    (Sound s → Sound (bar0Read off len s)) ∧ (bar0Read off len s).pending = s.pending := by
  simp +contextual (maxDischargeDepth := 40) [bar0Read]
@[simp] theorem bell_keeps (c : Ctx) (head : Bool) (v : BitVec 16) (s : State) :
    (Sound s → Sound (bell c head v s)) ∧ (bell c head v s).pending = s.pending := by
  simp +contextual [bell]
@[simp] theorem bar2_keeps (a : Bar2) (s : State) :
    (Sound s → Sound (bar2 a s)) ∧ (bar2 a s).pending = s.pending := by
  unfold bar2; dsimp only; (repeat' split) <;> simp +contextual (maxDischargeDepth := 40) [*]
@[simp] theorem bar4Read_keeps (off : Nat) (len : Nat) (s : State) :
    (Sound s → Sound (bar4Read off len s)) ∧ (bar4Read off len s).pending = s.pending := by
  simp +contextual (maxDischargeDepth := 40) [bar4Read]

end Sys2Proof.Machine
end

