-- ==== Sys2Proof/Laws/State.lean ====
section
/-! SUPPORT. What each named update of the state writes, and that it leaves every like part alone: wards, groups, cells,
ports, Tumbler entries, cache lines, registers, counters, rings and jobs. -/

set_option linter.unusedTactic false
set_option linter.unreachableTactic false

namespace Sys2Proof.Machine

/-- Equal numbers of like things are equal things. -/
theorem val_ne {n : Nat} {a b : Fin n} (h : a ≠ b) : a.val ≠ b.val := fun e => h (Fin.ext e)

/-- Two states that agree in every field are equal. -/
theorem State.eq_of {a b : State} (h0 : a.sys = b.sys) (h1 : a.clk = b.clk) (h2 : a.sec = b.sec) (h3 : a.pwr = b.pwr) (h4 : a.host = b.host) (h5 : a.ring = b.ring) (h6 : a.wards = b.wards) (h7 : a.cap = b.cap) (h8 : a.cache = b.cache) (h9 : a.kcc = b.kcc) (h10 : a.ledger = b.ledger) (h11 : a.groups = b.groups) (h12 : a.cells = b.cells) (h13 : a.reads = b.reads) (h14 : a.recoveries = b.recoveries) (h15 : a.nextRead = b.nextRead) (h16 : a.obs = b.obs) (h17 : a.pin = b.pin) (h18 : a.regs = b.regs) (h19 : a.fresh = b.fresh) (h20 : a.pending = b.pending) : a = b := by
  cases a; cases b; simp_all

/-! Reads after writes. -/

/-- A ward reads as it was last replaced. -/
@[simp] theorem ward_setWard_self {s : State} (h : Sound s) (w : WardId) (x : Ward) : (s.setWard w x).ward w = x := by
  simp [State.setWard, State.ward, h]
/-- Replacing a ward leaves the others. -/
@[simp] theorem ward_setWard_ne {s : State} (h : Sound s) {w u : WardId} (hu : u ≠ w) (x : Ward) :
    (s.setWard w x).ward u = s.ward u := by
  simp [State.setWard, State.ward, Tab.get_set_ne, val_ne hu, h]
/-- A ward reads as it was last changed. -/
@[simp] theorem ward_updWard_self {s : State} (h : Sound s) (w : WardId) (f : Ward → Ward) :
    (s.updWard w f).ward w = f (s.ward w) := by simp [State.updWard, h]
/-- Changing a ward leaves the others. -/
@[simp] theorem ward_updWard_ne {s : State} (h : Sound s) {w u : WardId} (hu : u ≠ w) (f : Ward → Ward) :
    (s.updWard w f).ward u = s.ward u := by simp [State.updWard, h, hu]
/-- A group reads as it was last replaced. -/
@[simp] theorem group_setGroup_self {s : State} (h : Sound s) (g : GroupId) (x : Group) : (s.setGroup g x).group g = x := by
  simp [State.setGroup, State.group, h]
/-- Replacing a group leaves the others. -/
@[simp] theorem group_setGroup_ne {s : State} (h : Sound s) {g u : GroupId} (hu : u ≠ g) (x : Group) :
    (s.setGroup g x).group u = s.group u := by
  simp [State.setGroup, State.group, Tab.get_set_ne, val_ne hu, h]
/-- A group reads as it was last changed. -/
@[simp] theorem group_updGroup_self {s : State} (h : Sound s) (g : GroupId) (f : Group → Group) :
    (s.updGroup g f).group g = f (s.group g) := by simp [State.updGroup, h]
/-- Changing a group leaves the others. -/
@[simp] theorem group_updGroup_ne {s : State} (h : Sound s) {g u : GroupId} (hu : u ≠ g) (f : Group → Group) :
    (s.updGroup g f).group u = s.group u := by simp [State.updGroup, h, hu]
/-- A cell reads as it was last replaced. -/
@[simp] theorem cell_setCell_self {s : State} (h : Sound s) (c : CellId) (x : Cell) : (s.setCell c x).cell c = x := by
  simp [State.setCell, State.cell, h]
/-- Replacing a cell leaves the others. -/
@[simp] theorem cell_setCell_ne {s : State} (h : Sound s) {c u : CellId} (hu : u ≠ c) (x : Cell) :
    (s.setCell c x).cell u = s.cell u := by
  simp [State.setCell, State.cell, Tab.get_set_ne, val_ne hu, h]
/-- A cell reads as it was last changed. -/
@[simp] theorem cell_updCell_self {s : State} (h : Sound s) (c : CellId) (f : Cell → Cell) :
    (s.updCell c f).cell c = f (s.cell c) := by simp [State.updCell, h]
/-- Changing a cell leaves the others. -/
@[simp] theorem cell_updCell_ne {s : State} (h : Sound s) {c u : CellId} (hu : u ≠ c) (f : Cell → Cell) :
    (s.updCell c f).cell u = s.cell u := by simp [State.updCell, h, hu]
/-- A cell reads as its servo was last changed. -/
@[simp] theorem cell_updServo_self {s : State} (h : Sound s) (c : CellId) (f : Servo → Servo) :
    (s.updServo c f).cell c = { s.cell c with servo := f (s.cell c).servo } := by simp [State.updServo, h]
/-- Changing a servo leaves the other cells. -/
@[simp] theorem cell_updServo_ne {s : State} (h : Sound s) {c u : CellId} (hu : u ≠ c) (f : Servo → Servo) :
    (s.updServo c f).cell u = s.cell u := by simp [State.updServo, h, hu]
/-- A cell reads as its arm link was last changed. -/
@[simp] theorem cell_updArm_self {s : State} (h : Sound s) (c : CellId) (f : ArmLink → ArmLink) :
    (s.updArm c f).cell c = { s.cell c with arm := f (s.cell c).arm } := by simp [State.updArm, h]
/-- Changing an arm link leaves the other cells. -/
@[simp] theorem cell_updArm_ne {s : State} (h : Sound s) {c u : CellId} (hu : u ≠ c) (f : ArmLink → ArmLink) :
    (s.updArm c f).cell u = s.cell u := by simp [State.updArm, h, hu]
/-- A capture port reads as it was last replaced. -/
@[simp] theorem port_setPort_self {s : State} (h : Sound s) (p : PortId) (x : Port) : (s.setPort p x).port p = x := by
  simp [State.setPort, State.port, h]
/-- Replacing a capture port leaves the others. -/
@[simp] theorem port_setPort_ne {s : State} (h : Sound s) {p u : PortId} (hu : u ≠ p) (x : Port) :
    (s.setPort p x).port u = s.port u := by
  simp [State.setPort, State.port, Tab.get_set_ne, val_ne hu, h]
/-- A Tumbler entry reads as it was last replaced. -/
@[simp] theorem tumb_setTumb_self {s : State} (h : Sound s) (i : Nat) (x : TumbEntry) : (s.setTumb i x).tumb i = x := by
  simp [State.setTumb, State.tumb, h]
/-- Replacing a Tumbler entry leaves the others. -/
@[simp] theorem tumb_setTumb_ne {s : State} (h : Sound s) {i u : Nat} (hu : u ≠ i) (x : TumbEntry) :
    (s.setTumb i x).tumb u = s.tumb u := by
  simp [State.setTumb, State.tumb, Tab.get_set_ne, hu, h]
/-- A cache line reads as it was last replaced. -/
@[simp] theorem line_setLine_self {s : State} (h : Sound s) (k : Nat) (x : Line) : (s.setLine k x).line k = x := by
  simp [State.setLine, State.line, h]
/-- Replacing a cache line leaves the others. -/
@[simp] theorem line_setLine_ne {s : State} (h : Sound s) {k u : Nat} (hu : u ≠ k) (x : Line) :
    (s.setLine k x).line u = s.line u := by
  simp [State.setLine, State.line, Tab.get_set_ne, hu, h]
/-- A counter is what it was plus what was added. -/
@[simp] theorem counter_bump_self {s : State} (h : Sound s) (o n : Nat) :
    (bump o n s).counter o = s.counter o + BitVec.ofNat 64 n := by
  simp [bump, State.counter, Tab.upd, h]
/-- Adding to a counter leaves the others. -/
@[simp] theorem counter_bump_ne {s : State} (h : Sound s) {o u : Nat} (hu : u ≠ o) (n : Nat) :
    (bump o n s).counter u = s.counter u := by
  simp [bump, State.counter, Tab.upd, Tab.get_set_ne, hu, h]
/-- A table whose default depends on the index reads a value just set. -/
theorem get_set_at {α : Type} [DecidableEq α] (d : Nat → α) (t : Tab α) (k : Nat) (v : α) (h : Tab.wf d t = true) :
    Tab.get (d k) (Tab.set (d k) t k v) k = v := by
  unfold Tab.set
  split
  · rename_i e; rw [Tab.get_drop_self d (d k) t none k h]; exact e.symm
  · exact Tab.get_put_self ..
/-- A table whose default depends on the index keeps the values at the others. -/
theorem get_set_off {α : Type} [DecidableEq α] (d : Nat → α) (t : Tab α) {k i : Nat} (hi : i ≠ k) (v x : α)
    (h : Tab.wf d t = true) : Tab.get x (Tab.set (d k) t k v) i = Tab.get x t i := by
  unfold Tab.set
  split
  · exact Tab.get_drop_ne d x hi t none h
  · exact Tab.get_put_ne x t hi v
/-- A plain register holds what was written to it, under its mask (R6). -/
theorem reg_setReg_self {s : State} (h : Sound s) {a : Nat} {i : RegInfo} (hi : regInfo a = some i) (v : Word) :
    (s.setReg a v).reg a = v &&& i.mask := by
  have hr : regReset a = i.reset := by simp [regReset, hi]
  simp only [State.setReg, hi, State.reg, hr]
  have := get_set_at regReset s.regs a (v &&& i.mask) h.regs
  rwa [hr] at this
/-- A register write leaves the other registers. -/
@[simp] theorem reg_setReg_ne {s : State} (h : Sound s) {a b : Nat} (hb : b ≠ a) (v : Word) :
    (s.setReg a v).reg b = s.reg b := by
  unfold State.setReg
  cases hi : regInfo a with
  | none => rfl
  | some i =>
    have hr : i.reset = regReset a := by simp [regReset, hi]
    simp only [State.reg, hr]
    exact get_set_off regReset s.regs hb _ _ h.regs

/-! Jobs. -/

/-- The first element that satisfies `p`, after the first one that satisfies it has become one that satisfies it too. -/
theorem find_listUpd {α : Type} (p : α → Bool) (f : α → α) (hf : ∀ x, p x = true → p (f x) = true) :
    ∀ l : List α, (listUpd p f l).find? p = (l.find? p).map f
  | [] => rfl
  | x :: t => by
    unfold listUpd
    cases h : p x with
    | true => simp [List.find?, h, hf x h]
    | false => simp [List.find?, h, find_listUpd p f hf t]
/-- A job reads as it was last replaced. -/
theorem job_setJob {s : State} {j k : Job} (h : s.job k.id = some j) : (s.setJob k).job k.id = some k := by
  simp only [State.job, State.setJob] at *
  rw [find_listUpd (fun x => x.id == k.id) (fun _ => k) (by simp), h]; rfl
/-- Removing an element that was only replaced by one with the same mark removes it. -/
theorem listDrop_listUpd {α : Type} (p : α → Bool) (f : α → α) (hf : ∀ x, p x = true → p (f x) = true) :
    ∀ l : List α, listDrop p (listUpd p f l) = listDrop p l
  | [] => rfl
  | x :: t => by
    unfold listUpd
    cases h : p x with
    | true => simp [listDrop, h, hf x h]
    | false => simp [listDrop, h, listDrop_listUpd p f hf t]

end Sys2Proof.Machine
end

