-- ==== Sys2Proof/Laws/Time.lean ====
section
/-! SUPPORT. What the passage of time does (R27, R36, R38): the beat counter, what stays, and when a wait ends. -/

set_option linter.unusedTactic false
set_option linter.unreachableTactic false

namespace Sys2Proof.Machine

/-- PPS_OUT's bookkeeping moves the pulse alone (R44). -/
theorem ppsOutAfter_clk (t0 : DWord) (s : State) :
    (ppsOutAfter t0 s).clk = { s.clk with ppsOut := (ppsOutAfter t0 s).clk.ppsOut, ppsOutFrom := (ppsOutAfter t0 s).clk.ppsOutFrom } := by
  unfold ppsOutAfter
  split
  · rfl
  · dsimp only; split
    · rfl
    · split <;> rfl
/-- PPS_OUT's bookkeeping changes the clock block alone. -/
theorem ppsOutAfter_eq (t0 : DWord) (s : State) : ppsOutAfter t0 s = { s with clk := (ppsOutAfter t0 s).clk } := by
  unfold ppsOutAfter
  split
  · rfl
  · dsimp only; split
    · rfl
    · split <;> rfl
/-- Counting full stages changes the counters alone. -/
theorem foldl_bump (l : List Nat) (n : Nat) : ∀ s : State,
    l.foldl (fun a o => bump o n a) s = { s with obs := (l.foldl (fun a o => bump o n a) s).obs } := by
  induction l with
  | nil => intro s; rfl
  | cons o t ih => intro s; simp only [List.foldl_cons]; rw [ih (bump o n s)]; rfl
/-- Time passes in the clock, the console and the counters alone. -/
theorem elapse_eq (n : Nat) (s : State) :
    elapse n s = { s with clk := (elapse n s).clk, pin := (elapse n s).pin, obs := (elapse n s).obs } := by
  unfold elapse elapseBy
  split
  · dsimp only; rw [ppsOutAfter_eq, foldl_bump]
  · rfl
/-- While an island is clocked, `n` beats are added (R36). -/
theorem elapse_beat (n : Nat) {s : State} (h : s.awake = true) : (elapse n s).clk.beat = s.clk.beat + BitVec.ofNat 64 n := by
  simp only [elapse, elapseBy, h, if_true]; rw [ppsOutAfter_clk]; rw [foldl_bump]
/-- The clock block after `n` beats, PPS_OUT apart. -/
theorem elapse_clk (n : Nat) {s : State} (h : s.awake = true) :
    (elapse n s).clk = { s.clk with
      beat := s.clk.beat + BitVec.ofNat 64 n, taiQ := taiAfter s n (slewSteps s n)
      due := s.clk.due ++ boundaries s.period s.clk.beat.toNat n
      slewLeft := if s.clk.slewLeft > 0 then s.clk.slewLeft - slewSteps s n else s.clk.slewLeft + slewSteps s n
      slewDue := s.clk.slewDue + BitVec.ofNat 64 (10000 * slewSteps s n)
      ppsOut := (elapse n s).clk.ppsOut, ppsOutFrom := (elapse n s).clk.ppsOutFrom } := by
  simp only [elapse, elapseBy, h, if_true]; rw [ppsOutAfter_clk]; rw [foldl_bump]
/-- Nothing passes while no island is clocked. -/
theorem elapse_asleep (n : Nat) {s : State} (h : s.awake = false) : elapse n s = s := by simp [elapse, elapseBy, h]
/-- The console's passage leaves every other pin alone. -/
theorem uartAfter_eq (n : Nat) (p : PinBlk) : uartAfter n p = { p with
    uart := (uartAfter n p).uart, uartOut := (uartAfter n p).uartOut, uartSent := (uartAfter n p).uartSent,
    uartAcc := (uartAfter n p).uartAcc } := by
  unfold uartAfter; split <;> rfl
/-- The pins while time passes: the console alone moves. -/
theorem elapse_pin (n : Nat) {s : State} (h : s.awake = true) : (elapse n s).pin = uartAfter n s.pin := by
  simp only [elapse, elapseBy, h, if_true]; rw [ppsOutAfter_eq]; dsimp only; rw [foldl_bump]
@[simp] theorem elapse_cfg (n : Nat) (s : State) : (elapse n s).pin.cfg = s.pin.cfg := by
  cases h : s.awake
  · rw [elapse_asleep n h]
  · rw [elapse_pin n h, uartAfter_eq]
@[simp] theorem elapse_switching (n : Nat) (s : State) : (elapse n s).pin.switching = s.pin.switching := by
  cases h : s.awake
  · rw [elapse_asleep n h]
  · rw [elapse_pin n h, uartAfter_eq]
@[simp] theorem elapseTo_cfg (n : Nat) (s : State) : (elapseTo n s).pin.cfg = s.pin.cfg := by simp [elapseTo]
@[simp] theorem elapseTo_switching (n : Nat) (s : State) : (elapseTo n s).pin.switching = s.pin.switching := by simp [elapseTo]
/-! Clock fields that time alone leaves. -/

@[simp] theorem elapse_tickDone (n : Nat) (s : State) : (elapse n s).clk.tickDone = s.clk.tickDone := by
  cases h : s.awake
  · rw [elapse_asleep n h]
  · rw [elapse_clk n h]
@[simp] theorem elapseTo_tickDone (n : Nat) (s : State) : (elapseTo n s).clk.tickDone = s.clk.tickDone := by simp [elapseTo]
@[simp] theorem elapse_src (n : Nat) (s : State) : (elapse n s).clk.src = s.clk.src := by
  cases h : s.awake
  · rw [elapse_asleep n h]
  · rw [elapse_clk n h]
@[simp] theorem elapseTo_src (n : Nat) (s : State) : (elapseTo n s).clk.src = s.clk.src := by simp [elapseTo]
@[simp] theorem elapse_srcActive (n : Nat) (s : State) : (elapse n s).clk.srcActive = s.clk.srcActive := by
  cases h : s.awake
  · rw [elapse_asleep n h]
  · rw [elapse_clk n h]
@[simp] theorem elapseTo_srcActive (n : Nat) (s : State) : (elapseTo n s).clk.srcActive = s.clk.srcActive := by simp [elapseTo]
@[simp] theorem elapse_lock (n : Nat) (s : State) : (elapse n s).clk.lock = s.clk.lock := by
  cases h : s.awake
  · rw [elapse_asleep n h]
  · rw [elapse_clk n h]
@[simp] theorem elapseTo_lock (n : Nat) (s : State) : (elapseTo n s).clk.lock = s.clk.lock := by simp [elapseTo]
@[simp] theorem elapse_pllEnabled (n : Nat) (s : State) : (elapse n s).clk.pllEnabled = s.clk.pllEnabled := by
  cases h : s.awake
  · rw [elapse_asleep n h]
  · rw [elapse_clk n h]
@[simp] theorem elapseTo_pllEnabled (n : Nat) (s : State) : (elapseTo n s).clk.pllEnabled = s.clk.pllEnabled := by simp [elapseTo]
@[simp] theorem elapse_taiValid (n : Nat) (s : State) : (elapse n s).clk.taiValid = s.clk.taiValid := by
  cases h : s.awake
  · rw [elapse_asleep n h]
  · rw [elapse_clk n h]
@[simp] theorem elapseTo_taiValid (n : Nat) (s : State) : (elapseTo n s).clk.taiValid = s.clk.taiValid := by simp [elapseTo]
@[simp] theorem elapse_holdover (n : Nat) (s : State) : (elapse n s).clk.holdover = s.clk.holdover := by
  cases h : s.awake
  · rw [elapse_asleep n h]
  · rw [elapse_clk n h]
@[simp] theorem elapseTo_holdover (n : Nat) (s : State) : (elapseTo n s).clk.holdover = s.clk.holdover := by simp [elapseTo]
@[simp] theorem elapse_ppsFar (n : Nat) (s : State) : (elapse n s).clk.ppsFar = s.clk.ppsFar := by
  cases h : s.awake
  · rw [elapse_asleep n h]
  · rw [elapse_clk n h]
@[simp] theorem elapseTo_ppsFar (n : Nat) (s : State) : (elapseTo n s).clk.ppsFar = s.clk.ppsFar := by simp [elapseTo]
@[simp] theorem elapse_switchRefused (n : Nat) (s : State) : (elapse n s).clk.switchRefused = s.clk.switchRefused := by
  cases h : s.awake
  · rw [elapse_asleep n h]
  · rw [elapse_clk n h]
@[simp] theorem elapseTo_switchRefused (n : Nat) (s : State) : (elapseTo n s).clk.switchRefused = s.clk.switchRefused := by simp [elapseTo]
@[simp] theorem elapse_taiRefused (n : Nat) (s : State) : (elapse n s).clk.taiRefused = s.clk.taiRefused := by
  cases h : s.awake
  · rw [elapse_asleep n h]
  · rw [elapse_clk n h]
@[simp] theorem elapseTo_taiRefused (n : Nat) (s : State) : (elapseTo n s).clk.taiRefused = s.clk.taiRefused := by simp [elapseTo]
@[simp] theorem elapse_pllLoss (n : Nat) (s : State) : (elapse n s).clk.pllLoss = s.clk.pllLoss := by
  cases h : s.awake
  · rw [elapse_asleep n h]
  · rw [elapse_clk n h]
@[simp] theorem elapseTo_pllLoss (n : Nat) (s : State) : (elapseTo n s).clk.pllLoss = s.clk.pllLoss := by simp [elapseTo]
@[simp] theorem elapse_beatLatch (n : Nat) (s : State) : (elapse n s).clk.beatLatch = s.clk.beatLatch := by
  cases h : s.awake
  · rw [elapse_asleep n h]
  · rw [elapse_clk n h]
@[simp] theorem elapseTo_beatLatch (n : Nat) (s : State) : (elapseTo n s).clk.beatLatch = s.clk.beatLatch := by simp [elapseTo]
@[simp] theorem elapse_taiLatch (n : Nat) (s : State) : (elapse n s).clk.taiLatch = s.clk.taiLatch := by
  cases h : s.awake
  · rw [elapse_asleep n h]
  · rw [elapse_clk n h]
@[simp] theorem elapseTo_taiLatch (n : Nat) (s : State) : (elapseTo n s).clk.taiLatch = s.clk.taiLatch := by simp [elapseTo]
@[simp] theorem elapse_setAtPps (n : Nat) (s : State) : (elapse n s).clk.setAtPps = s.clk.setAtPps := by
  cases h : s.awake
  · rw [elapse_asleep n h]
  · rw [elapse_clk n h]
@[simp] theorem elapseTo_setAtPps (n : Nat) (s : State) : (elapseTo n s).clk.setAtPps = s.clk.setAtPps := by simp [elapseTo]
@[simp] theorem elapse_ppsEdge (n : Nat) (s : State) : (elapse n s).clk.ppsEdge = s.clk.ppsEdge := by
  cases h : s.awake
  · rw [elapse_asleep n h]
  · rw [elapse_clk n h]
@[simp] theorem elapseTo_ppsEdge (n : Nat) (s : State) : (elapseTo n s).clk.ppsEdge = s.clk.ppsEdge := by simp [elapseTo]
@[simp] theorem elapse_ppsError (n : Nat) (s : State) : (elapse n s).clk.ppsError = s.clk.ppsError := by
  cases h : s.awake
  · rw [elapse_asleep n h]
  · rw [elapse_clk n h]
@[simp] theorem elapseTo_ppsError (n : Nat) (s : State) : (elapseTo n s).clk.ppsError = s.clk.ppsError := by simp [elapseTo]
@[simp] theorem elapse_lastEdge (n : Nat) (s : State) : (elapse n s).clk.lastEdge = s.clk.lastEdge := by
  cases h : s.awake
  · rw [elapse_asleep n h]
  · rw [elapse_clk n h]
@[simp] theorem elapseTo_lastEdge (n : Nat) (s : State) : (elapseTo n s).clk.lastEdge = s.clk.lastEdge := by simp [elapseTo]
@[simp] theorem elapse_leftOff (n : Nat) (s : State) : (elapse n s).clk.leftOff = s.clk.leftOff := by
  cases h : s.awake
  · rw [elapse_asleep n h]
  · rw [elapse_clk n h]
@[simp] theorem elapseTo_leftOff (n : Nat) (s : State) : (elapseTo n s).clk.leftOff = s.clk.leftOff := by simp [elapseTo]
/-- The period divides what a wait adds, and is 1 or 5 (R27). -/
theorem period_cases (s : State) : s.period = 1 ∨ s.period = 5 := by unfold State.period; split <;> simp
/-- A wait ends at the first counted value at or above its bound. -/
theorem elapseTo_beat (b : Nat) {s : State} (h : s.awake = true) (hb : b + 5 < 2 ^ 64) (hs : s.clk.beat.toNat ≤ b) :
    b ≤ (elapseTo b s).clk.beat.toNat ∧ (elapseTo b s).clk.beat.toNat < b + s.period := by
  unfold elapseTo State.upTo
  rw [elapse_beat _ h]
  have h64 := s.clk.beat.isLt
  rcases period_cases s with hp | hp <;> rw [hp] <;> simp only [BitVec.toNat_add, BitVec.toNat_ofNat] <;> omega
/-- Under the PLL a wait ends at its bound. -/
theorem elapseTo_beat_pll (b : Nat) {s : State} (h : s.awake = true) (hp : s.clk.srcActive = true) (hb : b + 5 < 2 ^ 64)
    (hs : s.clk.beat.toNat ≤ b) : (elapseTo b s).clk.beat = BitVec.ofNat 64 b := by
  have := elapseTo_beat b h hb hs
  have hq : s.period = 1 := by simp [State.period, hp]
  rw [hq] at this
  apply BitVec.eq_of_toNat_eq; simp; omega

end Sys2Proof.Machine
end

