-- ==== Sys2Proof/Laws/Ops.lean ====
section
/-! SUPPORT. What the shared operations do: events join the queue, output is sent or held, a ward faults. -/

set_option linter.unusedTactic false
set_option linter.unreachableTactic false

namespace Sys2Proof.Machine

/-- The console queue takes no part in the observation block. -/
@[simp] theorem console_obs (e : Event) (s : State) : (console e s).obs = s.obs := by unfold console; split <;> rfl
/-- The code of an event as it is made. -/
@[simp] theorem mkEvent_code (s : State) (c i a b : Nat) : (mkEvent s c i a b).code = BitVec.ofNat 16 c := rfl
/-- An event joins the queue where there is room, at one place (R365). -/
theorem logEvent_events {s : State} (h : s.obs.events.length < 512) (c i a b : Nat) :
    ∃ n, (logEvent c i a b s).obs.events = s.obs.events.take n ++ mkEvent s c i a b :: s.obs.events.drop n :=
  ⟨_, by simp [logEvent, joinEvent, insertEvent, h]; rfl⟩
/-- Where there is room, the event is in the queue after it is logged. -/
theorem logEvent_mem {s : State} (h : s.obs.events.length < 512) (c i a b : Nat) :
    mkEvent s c i a b ∈ (logEvent c i a b s).obs.events := by
  obtain ⟨n, hn⟩ := logEvent_events h c i a b
  rw [hn]; simp
/-- An event and its console line change the observation block and the pins alone. -/
theorem logEvent_eq (c i a b : Nat) (s : State) : logEvent c i a b s =
    { s with obs := (logEvent c i a b s).obs, pin := (logEvent c i a b s).pin } := by
  unfold logEvent joinEvent insertEvent
  split
  · unfold console; split <;> rfl
  · rfl
/-- Where there is no room an event is counted lost, and every other counter stays. -/
theorem logEvent_counter {s : State} (hs : Sound s) (c i a b : Nat) {o : Nat} (h : o ≠ cDev 1) :
    (logEvent c i a b s).counter o = s.counter o := by
  unfold logEvent joinEvent insertEvent
  split
  · simp [State.counter]
  · have hw : ∀ u : State, Sound u → (bump (cDev 1) 1 u).counter o = u.counter o := fun u hu => counter_bump_ne hu h 1
    refine (hw _ ?_).trans ?_
    · exact (mark_keeps _ _ _).1 { hs with }
    · rfl
/-- What is sent stays sent when a message fires. -/
theorem fireVector_out (v : Nat) (s : State) {p : Out} (h : p ∈ s.host.out) : p ∈ (fireVector v s).host.out := by
  unfold fireVector; split
  · split
    · exact h
    · simp [sendMsix, emit, h]
  · exact h
/-- A message fires from what is pending: what is held stays. -/
@[simp] theorem fireVector_held (v : Nat) (s : State) : (fireVector v s).host.held = s.host.held := by
  unfold fireVector; split
  · split <;> simp [sendMsix, emit]
  · rfl
/-- What becomes pending is neither sent nor held. -/
@[simp] theorem joinPend_out (c : Ctx) (s : State) : (joinPend c s).host.out = s.host.out := by
  unfold joinPend; split <;> rfl
@[simp] theorem joinPend_held (c : Ctx) (s : State) : (joinPend c s).host.held = s.host.held := by
  unfold joinPend; split <;> rfl
/-- Output is held while DMA may not be issued (R127). -/
theorem send_shut {s : State} (h : s.dmaOpen = false) (o : Held) :
    send o s = { s with host := { s.host with held := s.host.held ++ [o] } } := by simp [send, h]
/-- A completion entry is sent while DMA may be issued, with the head and the beat it is written at (R136). -/
theorem send_entry {s : State} (h : s.dmaOpen = true) (e : Entry) :
    Out.completion e.addr (complBytes e.tag e.status e.orig (s.ringOf e.ctx).sqHead e.detail
      (s.clk.beat.toNat % 2 ^ 32) e.phase e.chained) ∈ (send (.entry e) s).host.out := by
  simp only [send, h, if_true, putOut]
  apply fireVector_out
  rw [joinPend_out]; simp [emit]
/-- Data that is sent goes out in its pieces, in order (R121). -/
theorem send_data {s : State} (h : s.dmaOpen = true) (a : DWord) (b : Bytes) :
    (send (.data a b) s).host.out = s.host.out ++
      (pieces s.maxPayload (b.length / s.maxPayload + 2) a b).map (fun p => Out.data p.1 p.2 s.relaxed) := by
  simp only [send, h, if_true, putOut]
  generalize pieces s.maxPayload (b.length / s.maxPayload + 2) a b = l
  generalize s.relaxed = r
  clear h
  induction l generalizing s with
  | nil => simp
  | cons p t ih => simp only [List.foldl_cons]; rw [ih]; simp [emit]
/-- A SEALED or OPEN ward that faults is FAULTED with the cause (R50, R56). -/
theorem faultWard_self {s : State} (hs : Sound s) (w : WardId) (c : BitVec 2)
    (h : (s.ward w).state = .sealed ∨ (s.ward w).state = .opened) :
    (faultWard w c s).ward w = { s.ward w with state := .faulted, lastFault := c } := by
  have hw (t : State) (a b : Nat) : (logEvent 0x0401 a b 0 t).ward w = t.ward w := by rw [logEvent_eq]; rfl
  rcases h with h | h <;> simp only [faultWard, h] <;> rw [hw] <;> simp [hs]
/-- A ward's fault leaves the others. -/
theorem faultWard_ne {s : State} (hs : Sound s) {w u : WardId} (hu : u ≠ w) (c : BitVec 2) :
    (faultWard w c s).ward u = s.ward u := by
  have hw (t : State) (a b : Nat) : (logEvent 0x0401 a b 0 t).ward u = t.ward u := by rw [logEvent_eq]; rfl
  unfold faultWard
  split
  · rw [hw]; simp [hs, hu]
  · rw [hw]; simp [hs, hu]
  · simp [hs, hu]
  · rfl

end Sys2Proof.Machine
end

