-- ==== Sys2Proof/Laws/Cold.lean ====
section
/-! SUPPORT. The cold stop: what it leaves as it was and what it leaves behind. -/

set_option linter.unusedTactic false
set_option linter.unreachableTactic false

namespace Sys2Proof.Machine

/-- An entry that a filter by index keeps reads as before. -/
theorem get_filter_keep {α : Type} [DecidableEq α] (d : Nat → α) (x : α) (P : Nat → Bool) (k : Nat)
    (hk : P k = true) : ∀ (t : Tab α) (lo : Option Nat),
    Tab.wfFrom d lo t = true → Tab.get x (List.filter (fun p => P p.1) t) k = Tab.get x t k
  | [], _, _ => rfl
  | (j, v) :: t, lo, h => by
    have ht : Tab.wfFrom d (some j) t = true := by simp [Tab.wfFrom] at h; exact h.2
    by_cases hj : P j = true
    · simp only [List.filter, hj, Tab.get]
      split
      · rfl
      · split
        · rfl
        · exact get_filter_keep d x P k hk t _ ht
    · have hne : k ≠ j := by intro e; subst e; exact hj hk
      simp only [List.filter, hj, Tab.get]
      rw [get_filter_keep d x P k hk t _ ht, if_neg hne]
      split
      · exact Tab.get_low d x t j k ht (by omega)
      · rfl
/-- An index that a filter drops reads as unlisted. -/
theorem get_filter_gone {α : Type} (x : α) (P : Nat → Bool) (k : Nat) (hk : P k = false) : ∀ (t : Tab α),
    Tab.get x (List.filter (fun p => P p.1) t) k = x
  | [] => rfl
  | (j, v) :: t => by
    by_cases hj : P j = true
    · have hne : k ≠ j := by intro e; subst e; simp [hk] at hj
      simp only [List.filter, hj, Tab.get, if_neg hne]
      split
      · rfl
      · exact get_filter_gone x P k hk t
    · simp only [List.filter, hj]
      exact get_filter_gone x P k hk t
/-- A change of every ward is a change of each. -/
theorem ward_mapAll {s : State} (hS : Sound s) (f : Ward → Ward) (hf : f {} = {}) (w : WardId) :
    Tab.get {} (s.wards.mapAll {} (fun _ x => f x)) w.val = f (s.ward w) :=
  Tab.get_mapAll ({} : Ward) (fun _ x => f x) (fun _ => hf) s.wards w.val none hS.wards
/-- A change of every cell is a change of each. -/
theorem cell_mapAll {s : State} (hS : Sound s) (f : Cell → Cell) (hf : f {} = {}) (w : CellId) :
    Tab.get {} (s.cells.mapAll {} (fun _ x => f x)) w.val = f (s.cell w) :=
  Tab.get_mapAll ({} : Cell) (fun _ x => f x) (fun _ => hf) s.cells w.val none hS.cells
/-- What power loss leaves of a ward. -/
theorem coldStore_ward {s : State} (hS : Sound s) (w : WardId) : (coldStore s).ward w = coldWard (s.ward w) :=
  ward_mapAll hS coldWard rfl w
/-- What power loss leaves of a cell. -/
theorem coldStore_cell {s : State} (hS : Sound s) (w : CellId) : (coldStore s).cell w = coldCell (s.cell w) :=
  cell_mapAll hS coldCell rfl w
/-- The cold store of a state with the registers and the kept secrets of `s` is a cold stop of `s`. -/
theorem coldStore_stop {s u : State} (hS : Sound u)
    (hsec : u.sec.salt = s.sec.salt ∧ u.sec.verifier = s.sec.verifier ∧ u.sec.telemetry = s.sec.telemetry ∧
      u.sec.provisioned = s.sec.provisioned ∧ u.sec.officerFails = s.sec.officerFails ∧
      u.sec.bootCount = s.sec.bootCount ∧ u.sec.zeroCount = s.sec.zeroCount) (hr : u.regs = s.regs) : ColdStop s (coldStore u) where
  mode := rfl
  transition := rfl
  stored a h := by
    have := get_filter_keep regReset (regReset a) regStored a h u.regs none hS.regs
    simpa [State.reg, coldStore, coldRegs, hr] using this
  lost a h := by
    have := get_filter_gone (regReset a) regStored a h u.regs
    simpa [State.reg, coldStore, coldRegs, hr] using this
  secrets := by simp [coldStore]
  session := by simp [coldStore]
  kept := by simp [coldStore, hsec]
  work := by simp [coldStore]
  wards w := by rw [coldStore_ward hS]; simp [coldWard]
  cells w := by rw [coldStore_cell hS]; simp [coldCell]
/-- A cold stop does not depend on the power state beyond its mode and transition. -/
theorem ColdStop.of_pwr {s t : State} (h : ColdStop s t) (p : PwrBlk) (hm : p.mode = .deepStandby)
    (ht : p.transition = none) : ColdStop s { t with pwr := p } :=
  ⟨hm, ht, h.stored, h.lost, h.secrets, h.session, h.kept, h.work, h.wards, h.cells⟩

end Sys2Proof.Machine
end

