-- ==== Sys2Proof/Laws/Jobs.lean ====
section
/-! SUPPORT. How a job ends: its completion entry and what is left of it (R136, R137, R143). -/

set_option linter.unusedTactic false
set_option linter.unreachableTactic false

namespace Sys2Proof.Machine

theorem applyWhenClear_jobs (s : State) :
    (applyWhenClear s).ring.jobs = s.ring.jobs ∧ (applyWhenClear s).ring.nextJob = s.ring.nextJob := by
  unfold applyWhenClear applyAdmin; split <;> simp
@[simp] theorem State.setRing_jobs (c : Ctx) (x : Ring) (s : State) : (s.setRing c x).ring.jobs = s.ring.jobs := by
  cases c <;> simp [State.setRing]
@[simp] theorem postCompletion_jobs (c : Ctx) (tag st or d : Nat) (ch : Bool) (s : State) :
    (postCompletion c tag st or d ch s).ring.jobs = s.ring.jobs := by
  unfold postCompletion
  (repeat' split) <;> simp
/-- A fault or a count of malformed completions sends nothing. -/
@[simp] theorem countMalformed_host (c : Ctx) (st : Nat) (s : State) : (countMalformed c st s).host = s.host := by simp
/-- A completion entry goes to its slot, or is held (R127, R136, R137). -/
theorem postCompletion_out {c : Ctx} {s : State} (hS : Sound s) (h : s.ringUp c = true) (tag st or d : Nat) (ch : Bool) :
    (s.dmaOpen = true → Out.completion ((s.ringOf c).cqBase + BitVec.ofNat 64 (16 * (s.ringOf c).cqTail))
      (complBytes tag st or (s.ringOf c).sqHead d (s.clk.beat.toNat % 2 ^ 32) (s.ringOf c).phase ch) ∈
      (postCompletion c tag st or d ch s).host.out) ∧
    (s.dmaOpen = false → Held.entry ⟨c, (s.ringOf c).cqBase + BitVec.ofNat 64 (16 * (s.ringOf c).cqTail), tag, st, or, d,
      (s.ringOf c).phase, ch⟩ ∈ (postCompletion c tag st or d ch s).host.held) := by
  unfold postCompletion; simp only [h, if_true]
  generalize hr : s.ringOf c = r
  generalize hx : ({ r with
    cqTail := (r.cqTail + 1) % r.cqSize, phase := if (r.cqTail + 1) % r.cqSize = 0 then !r.phase else r.phase
    reserved := r.reserved - 1 } : Ring) = x
  have h3 : ∀ u : State, (if st = 16 then bump (cQueue c 5) 1 u else if st = 17 then bump (cQueue c 6) 1 u else u) =
      { u with obs := (if st = 16 then bump (cQueue c 5) 1 u else if st = 17 then bump (cQueue c 6) 1 u else u).obs } := by
    intro u; split
    · rfl
    · split <;> rfl
  rw [countMalformed_host, h3]
  generalize (if st = 16 then bump (cQueue c 5) 1 (bump (cQueue c 4) 1 (s.setRing c x))
    else if st = 17 then bump (cQueue c 6) 1 (bump (cQueue c 4) 1 (s.setRing c x))
    else bump (cQueue c 4) 1 (s.setRing c x)).obs = o
  have hd : ({ bump (cQueue c 4) 1 (s.setRing c x) with obs := o } : State).dmaOpen = s.dmaOpen := by
    simp [State.dmaOpen, State.awake]
  have hb : ({ bump (cQueue c 4) 1 (s.setRing c x) with obs := o } : State).clk = s.clk := by simp
  have hq : (({ bump (cQueue c 4) 1 (s.setRing c x) with obs := o } : State).ringOf c).sqHead = r.sqHead := by
    subst hx; subst hr
    cases c
    · simp [State.ringOf, State.setRing]
    · have := ward_updWard_self hS ‹WardId› (fun y => { y with ring := {
        (s.ringOf (.ward ‹WardId›)) with
        cqTail := ((s.ringOf (.ward ‹WardId›)).cqTail + 1) % (s.ringOf (.ward ‹WardId›)).cqSize,
        phase := if ((s.ringOf (.ward ‹WardId›)).cqTail + 1) % (s.ringOf (.ward ‹WardId›)).cqSize = 0 then
          !(s.ringOf (.ward ‹WardId›)).phase else (s.ringOf (.ward ‹WardId›)).phase
        reserved := (s.ringOf (.ward ‹WardId›)).reserved - 1 } })
      simp only [State.ringOf, State.setRing, State.ward, bump] at this ⊢
      rw [this]
  constructor
  · intro hd'
    have := send_entry (hd.trans hd') ⟨c, r.cqBase + BitVec.ofNat 64 (16 * r.cqTail), tag, st, or, d, r.phase, ch⟩
    rw [hq, hb] at this
    exact this
  · intro hd'
    rw [send_shut (hd.trans hd')]; simp
/-- `finish` completes the job. -/
theorem finish_completed (j : Job) (st d : Nat) {s : State} (hS : Sound s) : Completed j st d s (finish j st 0 d s) := by
  have h' : (s.dropJob j.id).ringUp j.ctx = s.ringUp j.ctx := by
    unfold State.ringUp State.dropJob; split <;> simp [State.ward]
  have r : (s.dropJob j.id).ringOf j.ctx = s.ringOf j.ctx := by unfold State.ringOf State.dropJob; split <;> simp [State.ward]
  have hd : (s.dropJob j.id).dmaOpen = s.dmaOpen := rfl
  have hb : (s.dropJob j.id).clk = s.clk := rfl
  have e : ∀ t : State, (applyWhenClear t).host = t.host := fun t => by simp
  have hq := fun h => postCompletion_out (c := j.ctx) ((State_dropJob_keeps s j.id).1 hS) (h'.trans h) j.tag st 0 d j.chained
  rw [r, hd, hb] at hq
  refine ⟨?_, fun hs hd => ?_, fun hs hd => ?_⟩
  · unfold finish; rw [(applyWhenClear_jobs _).1]; simp [State.dropJob]
  · unfold finish; rw [e]; exact (hq hs).1 hd
  · unfold finish; rw [e]; exact (hq hs).2 hd
/-- As `finish_completed`, from a state that agrees with `s` on the jobs, the context's rings, the clock and DMA. -/
theorem finish_completed_of {j : Job} {st d : Nat} {s u : State} (hS : Sound u) (hr : u.ring.jobs = s.ring.jobs)
    (hu : u.ringUp j.ctx = s.ringUp j.ctx) (hd : u.dmaOpen = s.dmaOpen)
    (ho : s.ringUp j.ctx = true → u.ringOf j.ctx = s.ringOf j.ctx) (hb : u.clk.beat = s.clk.beat) :
    Completed j st d s (finish j st 0 d u) := by
  have h := finish_completed j st d hS
  refine ⟨by rw [h.1, hr], fun hs hq => ?_, fun hs hq => ?_⟩
  · have := h.2.1 (by rw [hu]; exact hs) (by rw [hd]; exact hq)
    rw [ho hs, hb] at this
    exact this
  · have := h.2.2 (by rw [hu]; exact hs) (by rw [hd]; exact hq)
    rw [ho hs] at this
    exact this

end Sys2Proof.Machine
end

