-- ==== Sys2Proof/Laws/PerInstr.lean ====
section
/-! SUPPORT. The per-command family Frames: what a command can touch is a list of parts without repeats. -/

namespace Sys2Proof.Laws.Frames

open Sys2Proof.Machine

/-- The parts a command can touch are listed once each. -/
def Statement (i : Instr) : Prop := (touches i).Nodup

/-- The check decides it. -/
theorem of_check {i : Instr} (h : decide (touches i).Nodup = true) : Statement i :=
  of_decide_eq_true (p := (touches i).Nodup) h

theorem powerOn (b : Boot) : Statement (.powerOn b) := of_check rfl
theorem supplyLoss (rail : Fin 4) (mv : Nat) : Statement (.supplyLoss rail mv) := of_check rfl
theorem pfNAssert (ends : List CellId) : Statement (.pfNAssert ends) := of_check rfl
theorem pfNDeassert (b : Boot) : Statement (.pfNDeassert b) := of_check rfl
theorem wakeN (b : Boot) : Statement (.wakeN b) := of_check rfl
theorem perstN (low : Bool) (b : Boot) : Statement (.perstN low b) := of_check rfl
theorem zeroN (whole : Bool) (test : Option (Fin 10)) (b : Boot) : Statement (.zeroN whole test b) := of_check rfl
theorem lpOverload (b : Boot) : Statement (.lpOverload b) := of_check rfl
theorem hostLinkReset (r : LinkReset) : Statement (.hostLinkReset r) := of_check rfl
theorem linkTrained (speed : Nat) (width : Nat) : Statement (.linkTrained speed width) := of_check rfl
theorem flr : Statement (.flr) := of_check rfl
theorem flrCaptureResume : Statement (.flrCaptureResume) := of_check rfl
theorem flrDone : Statement (.flrDone) := of_check rfl
theorem d3hotEntry : Statement (.d3hotEntry) := of_check rfl
theorem d0Return : Statement (.d0Return) := of_check rfl
theorem l1Entry (partner : Bool) : Statement (.l1Entry partner) := of_check rfl
theorem msixEnable : Statement (.msixEnable) := of_check rfl
theorem msixUnmask (v : Option (Fin 256)) : Statement (.msixUnmask v) := of_check rfl
theorem coalesceTime (v : Fin 256) : Statement (.coalesceTime v) := of_check rfl
theorem tlpDiscard (e : TlpError) : Statement (.tlpDiscard e) := of_check rfl
theorem bar0ReadAbort (offset : Nat) (len : Nat) : Statement (.bar0ReadAbort offset len) := of_check rfl
theorem bar2Stray (a : Bar2) : Statement (.bar2Stray a) := of_check rfl
theorem bar4Read (offset : Nat) (len : Nat) : Statement (.bar4Read offset len) := of_check rfl
theorem bar4Write (offset : Nat) (len : Nat) : Statement (.bar4Write offset len) := of_check rfl
theorem registerWrite (offset : Nat) (size : Nat) (full : Bool) (value : DWord) : Statement (.registerWrite offset size full value) :=
    of_check rfl
theorem cfgRejectClear : Statement (.cfgRejectClear) := of_check rfl
theorem beatLoRead : Statement (.beatLoRead) := of_check rfl
theorem taiLoRead : Statement (.taiLoRead) := of_check rfl
theorem wardHighLoRead : Statement (.wardHighLoRead) := of_check rfl
theorem serialLoRead : Statement (.serialLoRead) := of_check rfl
theorem srcPll : Statement (.srcPll) := of_check rfl
theorem srcOscillator : Statement (.srcOscillator) := of_check rfl
theorem setNow : Statement (.setNow) := of_check rfl
theorem setAtPps : Statement (.setAtPps) := of_check rfl
theorem setAtPpsTimeout : Statement (.setAtPpsTimeout) := of_check rfl
theorem taiRateWrite (v : Word) : Statement (.taiRateWrite v) := of_check rfl
theorem ppsCtrlWrite (v : Word) : Statement (.ppsCtrlWrite v) := of_check rfl
theorem ppsEdge (wait : Nat) : Statement (.ppsEdge wait) := of_check rfl
theorem taiSlew : Statement (.taiSlew) := of_check rfl
theorem holdover : Statement (.holdover) := of_check rfl
theorem ppsOutRise : Statement (.ppsOutRise) := of_check rfl
theorem ppsOutFall : Statement (.ppsOutFall) := of_check rfl
theorem pllLock : Statement (.pllLock) := of_check rfl
theorem pllLoss : Statement (.pllLoss) := of_check rfl
theorem tick (e : TickEnv) : Statement (.tick e) := of_check rfl
theorem imagePublish : Statement (.imagePublish) := of_check rfl
theorem officerIdle : Statement (.officerIdle) := of_check rfl
theorem officerLockoutEnd : Statement (.officerLockoutEnd) := of_check rfl
theorem officerLockout : Statement (.officerLockout) := of_check rfl
theorem lockout (w : WardId) : Statement (.lockout w) := of_check rfl
theorem malformedRate (w : WardId) : Statement (.malformedRate w) := of_check rfl
theorem mediaStall : Statement (.mediaStall) := of_check rfl
theorem appendAge (w : WardId) : Statement (.appendAge w) := of_check rfl
theorem destageAge (a : SubAddr) : Statement (.destageAge a) := of_check rfl
theorem idlePark (c : CellId) : Statement (.idlePark c) := of_check rfl
theorem chainWaitTimeout (c : Ctx) : Statement (.chainWaitTimeout c) := of_check rfl
theorem drbgReseed : Statement (.drbgReseed) := of_check rfl
theorem noiseHealthFail (adaptive : Bool) : Statement (.noiseHealthFail adaptive) := of_check rfl
theorem coldRestart (key : BitVec 16) (ends : List CellId) (b : Boot) : Statement (.coldRestart key ends b) := of_check rfl
theorem voteSet (v : Word) : Statement (.voteSet v) := of_check rfl
theorem voteClr (v : Word) : Statement (.voteClr v) := of_check rfl
theorem sleepVote : Statement (.sleepVote) := of_check rfl
theorem transitionEnd (b : Boot) : Statement (.transitionEnd b) := of_check rfl
theorem holdRelease (key : BitVec 16) : Statement (.holdRelease key) := of_check rfl
theorem adminEnable : Statement (.adminEnable) := of_check rfl
theorem adminDisable : Statement (.adminDisable) := of_check rfl
theorem evlogHeadWrite (v : Word) : Statement (.evlogHeadWrite v) := of_check rfl
theorem ratBWrite (i : Fin 16) (v : Word) : Statement (.ratBWrite i v) := of_check rfl
theorem upCfgWrite (n : Fin 32) (v : Word) : Statement (.upCfgWrite n v) := of_check rfl
theorem pinSwitchSettle (n : Fin 32) : Statement (.pinSwitchSettle n) := of_check rfl
theorem adminFetch : Statement (.adminFetch) := of_check rfl
theorem roundaboutTurn : Statement (.roundaboutTurn) := of_check rfl
theorem entryArrival (c : Ctx) (entry : Bytes) : Statement (.entryArrival c entry) := of_check rfl
theorem ringReadFail (c : Ctx) (why : ReadFail) : Statement (.ringReadFail c why) := of_check rfl
theorem ringReadRetry (c : Ctx) : Statement (.ringReadRetry c) := of_check rfl
theorem dmaAbort (job : Nat) (why : ReadFail) : Statement (.dmaAbort job why) := of_check rfl
theorem jobBegin (job : Nat) : Statement (.jobBegin job) := of_check rfl
theorem heldCommandEval (job : Nat) : Statement (.heldCommandEval job) := of_check rfl
theorem read (job : Nat) (tagFail : Option Nat) : Statement (.read job tagFail) := of_check rfl
theorem write (job : Nat) : Statement (.write job) := of_check rfl
theorem trim (job : Nat) : Statement (.trim job) := of_check rfl
theorem openWard (job : Nat) (intact : Bool) : Statement (.openWard job intact) := of_check rfl
theorem sealWard (job : Nat) : Statement (.sealWard job) := of_check rfl
theorem setCredential (job : Nat) (intact : Bool) : Statement (.setCredential job intact) := of_check rfl
theorem wardInfo (job : Nat) : Statement (.wardInfo job) := of_check rfl
theorem identify (job : Nat) : Statement (.identify job) := of_check rfl
theorem officerAuth (job : Nat) : Statement (.officerAuth job) := of_check rfl
theorem officerLogout (job : Nat) : Statement (.officerLogout job) := of_check rfl
theorem setOfficerCredential (job : Nat) (whole : Bool) : Statement (.setOfficerCredential job whole) := of_check rfl
theorem setTelemetryKey (job : Nat) : Statement (.setTelemetryKey job) := of_check rfl
theorem runSelfTest (job : Nat) (fail : Option TestFail) : Statement (.runSelfTest job fail) := of_check rfl
theorem zeroize (job : Nat) (whole : Bool) (test : Option (Fin 10)) : Statement (.zeroize job whole test) := of_check rfl
theorem createWard (job : Nat) : Statement (.createWard job) := of_check rfl
theorem destroyWard (job : Nat) : Statement (.destroyWard job) := of_check rfl
theorem resetWard (job : Nat) : Statement (.resetWard job) := of_check rfl
theorem resizeWard (job : Nat) : Statement (.resizeWard job) := of_check rfl
theorem setWardRings (job : Nat) : Statement (.setWardRings job) := of_check rfl
theorem setWardSched (job : Nat) : Statement (.setWardSched job) := of_check rfl
theorem flushQueue (job : Nat) : Statement (.flushQueue job) := of_check rfl
theorem tumblerWrite (job : Nat) : Statement (.tumblerWrite job) := of_check rfl
theorem groupSetCreate (job : Nat) : Statement (.groupSetCreate job) := of_check rfl
theorem groupSetSetSpare (job : Nat) : Statement (.groupSetSetSpare job) := of_check rfl
theorem groupSetDelete (job : Nat) : Statement (.groupSetDelete job) := of_check rfl
theorem rebuildCtrlStart (job : Nat) : Statement (.rebuildCtrlStart job) := of_check rfl
theorem rebuildCtrlStop (job : Nat) : Statement (.rebuildCtrlStop job) := of_check rfl
theorem scrubCtrlStart (job : Nat) : Statement (.scrubCtrlStart job) := of_check rfl
theorem scrubCtrlStop (job : Nat) : Statement (.scrubCtrlStop job) := of_check rfl
theorem wayRestore (job : Nat) : Statement (.wayRestore job) := of_check rfl
theorem eventLogSetEnable (job : Nat) : Statement (.eventLogSetEnable job) := of_check rfl
theorem eventLogSetDisable (job : Nat) : Statement (.eventLogSetDisable job) := of_check rfl
theorem intentReserve : Statement (.intentReserve) := of_check rfl
theorem ledgerRound (bad : List Nat) (tagFail : Option Nat) : Statement (.ledgerRound bad tagFail) := of_check rfl
theorem kccUnwrap (intact : Bool) : Statement (.kccUnwrap intact) := of_check rfl
theorem cacheFill (a : SubAddr) : Statement (.cacheFill a) := of_check rfl
theorem destageStart (a : SubAddr) (tagFail : Option Nat) : Statement (.destageStart a tagFail) := of_check rfl
theorem sectorWriteDone (c : CellId) (k : Nat) : Statement (.sectorWriteDone c k) := of_check rfl
theorem scacheEccError (way : Fin 16) (kind : EccKind) : Statement (.scacheEccError way kind) := of_check rfl
theorem wayRetired (way : Fin 16) (kind : EccKind) : Statement (.wayRetired way kind) := of_check rfl
theorem deferredDelta (serial : Nat) (old : Option Sector) (tagFail : Option Nat) : Statement (.deferredDelta serial old tagFail) :=
    of_check rfl
theorem replay (media : List (Option Sector)) (rows : List (List (Option Sector))) (tagFail : Option Nat) : Statement (.replay media rows tagFail) :=
    of_check rfl
theorem captureFrame (wait : Nat) (e0 e1 : Option RxEvent) : Statement (.captureFrame wait e0 e1) := of_check rfl
theorem capLinkLost (p : PortId) (what : PcsPart) (got : Nat) : Statement (.capLinkLost p what got) := of_check rfl
theorem eventRecord : Statement (.eventRecord) := of_check rfl
theorem sectorRead (k : Nat) (o : SectorObs) : Statement (.sectorRead k o) := of_check rfl
theorem retryPass (k : Nat) (o : SectorObs) : Statement (.retryPass k o) := of_check rfl
theorem repairRewrite (k : Nat) : Statement (.repairRewrite k) := of_check rfl
theorem tornRewrite (c : CellId) (k : Nat) : Statement (.tornRewrite c k) := of_check rfl
theorem armLinkResponse (c : CellId) (frame : Word) : Statement (.armLinkResponse c frame) := of_check rfl
theorem armLinkLost (c : CellId) : Statement (.armLinkLost c) := of_check rfl
theorem presentAbsent (c : CellId) : Statement (.presentAbsent c) := of_check rfl
theorem spinUpTimeout (c : CellId) : Statement (.spinUpTimeout c) := of_check rfl
theorem clockLockLoss (c : CellId) : Statement (.clockLockLoss c) := of_check rfl
theorem colzorFrame (c : CellId) (o : ColzorObs) : Statement (.colzorFrame c o) := of_check rfl
theorem wedge (c : CellId) (o : WedgeObs) : Statement (.wedge c o) := of_check rfl
theorem reacquisition (c : CellId) : Statement (.reacquisition c) := of_check rfl
theorem seekFail (c : CellId) : Statement (.seekFail c) := of_check rfl
theorem headLoadFail (c : CellId) : Statement (.headLoadFail c) := of_check rfl
theorem servoDoubt (c : CellId) (cause : BitVec 3) : Statement (.servoDoubt c cause) := of_check rfl
theorem initStripe (g : GroupId) : Statement (.initStripe g) := of_check rfl
theorem rebuildStripe (g : GroupId) (rows : List (List RowRead)) : Statement (.rebuildStripe g rows) := of_check rfl
theorem scrubRow (g : GroupId) (row : List RowRead) : Statement (.scrubRow g row) := of_check rfl
theorem jtagIdcode : Statement (.jtagIdcode) := of_check rfl
theorem jtagBypass (code : BitVec 4) : Statement (.jtagBypass code) := of_check rfl
theorem jtagExtest : Statement (.jtagExtest) := of_check rfl
theorem jtagSamplePreload : Statement (.jtagSamplePreload) := of_check rfl
theorem smbReadWord (addr : BitVec 7) (cmd : Byte) (pec : Bool) : Statement (.smbReadWord addr cmd pec) := of_check rfl
theorem smbUnsupported : Statement (.smbUnsupported) := of_check rfl
theorem uartXoff : Statement (.uartXoff) := of_check rfl
theorem uartXon : Statement (.uartXon) := of_check rfl
theorem capLinkUp (p : PortId) (what : PcsPart) : Statement (.capLinkUp p what) := of_check rfl
theorem clockLock (c : CellId) : Statement (.clockLock c) := of_check rfl
theorem dataFetch (job : Nat) (data : Bytes) : Statement (.dataFetch job data) := of_check rfl
theorem busMasterEnable (q : CfgReq) : Statement (.busMasterEnable q) := of_check rfl
theorem l1Exit : Statement (.l1Exit) := of_check rfl
theorem powerRemoval : Statement (.powerRemoval) := of_check rfl
theorem parkTimeout (c : Option CellId) : Statement (.parkTimeout c) := of_check rfl
theorem gpioInChange (n : Fin 32) (level : Bool) : Statement (.gpioInChange n level) := of_check rfl

end Sys2Proof.Laws.Frames
end

