-- ==== Sys2Proof/WellFormed.lean ====
section
/-! DEFINITION. When a command is one that can reach the LW24: the byte counts, the ranges of numbers and the access sizes
that the manual's formats allow. -/

namespace Sys2Proof

/-- A sector's fields have their widths (R256). -/
def Sector.wf (x : Sector) : Bool := x.data.length == 4096 && x.cov.length == 48
/-- A sector that may be missing. -/
def sectorWf (x : Option Sector) : Bool := match x with | some y => y.wf | none => true
/-- A sub-block address lies in a stripe (R251): a column below 16 and a sub-block below 16. -/
def SubAddr.wf (a : SubAddr) : Bool := decide (a.column < 16) && decide (a.sub < 16)
/-- A read pass delivers a whole sector or none, and corrects at most 24 symbols (R290). -/
def SectorObs.wf (o : SectorObs) : Bool := sectorWf o.img && decide (o.corrected ≤ 24)
/-- A wedge's address fields have their widths (R304): a 22-bit track number with its guard band, an index of 0–359. -/
def WedgeObs.wf (o : WedgeObs) : Bool :=
  decide (o.index < 512) && decide (-65536 ≤ o.track) && decide (o.track < 4194304 - 65536)
/-- A Colzor frame carries a 15-bit band and at most 8 timed pairs (R302, R303). -/
def ColzorObs.wf (o : ColzorObs) : Bool := decide (o.band < 32768) && decide (o.pairs.length ≤ 8)
/-- A bus access of at most 8 bytes, naturally sized (R113, R115). -/
def sizeWf (n : Nat) : Bool := n == 1 || n == 2 || n == 4 || n == 8
/-- A read of one or more bytes within a BAR. -/
def readWf (offset len size : Nat) : Bool := decide (0 < len) && decide (offset + len ≤ size)
/-- A doorbell access lies in the 128 KiB aperture (R112, R115). -/
def Bar2.wf (a : Bar2) : Bool := sizeWf a.size && decide (a.offset + a.size ≤ 0x20000)
/-- A row's sectors: one per column of at most 16 cells. -/
def rowWf (row : List (Option Sector)) : Bool := decide (row.length ≤ 16) && row.all sectorWf
/-- A row's reads (R258, R273): one per column of at most 16 cells. -/
def readsWf (row : List RowRead) : Bool :=
  decide (row.length ≤ 16) && row.all (fun r => r.first.wf && sectorWf r.retry)
/-- What a port meets (R183): a frame that has reached its EtherType has at least its 14-byte header. -/
def RxEvent.wf (e : RxEvent) : Bool := match e with | .key head => decide (14 ≤ head.length) | _ => true
/-- What a port meets, if anything. -/
def rxWf (e : Option RxEvent) : Bool := match e with | some x => x.wf | none => true

/-- The command can arrive (DESIGN CHOICE, log 1). -/
def Instr.wf (i : Instr) : Bool :=
  match i with
  | .linkTrained speed width => decide (1 ≤ speed) && decide (speed ≤ 4) && decide (1 ≤ width)
  | .bar0ReadAbort offset len => readWf offset len 0x40000
  | .bar2Stray a => a.wf
  | .bar4Read offset len => readWf offset len 0x400000
  | .bar4Write offset len => readWf offset len 0x400000
  | .registerWrite offset size _ _ => sizeWf size && decide (offset + size ≤ 0x40000)
  | .entryArrival _ entry => entry.length == 64
  | .destageAge a => a.wf
  | .cacheFill a => a.wf
  | .destageStart a _ => a.wf
  | .ledgerRound bad _ => bad.all (fun b => decide (b < 8))
  | .deferredDelta _ old _ => sectorWf old
  | .replay media rows _ => media.all sectorWf && rows.all rowWf
  | .captureFrame _ e0 e1 => rxWf e0 && rxWf e1
  | .sectorRead _ o => o.wf
  | .retryPass _ o => o.wf
  | .colzorFrame _ o => o.wf
  | .wedge _ o => o.wf
  | .rebuildStripe _ rows => decide (rows.length ≤ 16) && rows.all readsWf
  | .scrubRow _ row => readsWf row
  | _ => true

end Sys2Proof
end

