-- ==== Sys2Proof/Tests/Slice0.lean ====
section
/-! SUPPORT. Tests: ill-formed commands are refused, small checks against the manual's worked cases, and for every statement
with hypotheses a state and operands that meet them, at a boundary value of each clause. -/

set_option linter.unusedVariables false

namespace Sys2Proof.Tests

open Sys2Proof Sys2Proof.Machine

/-- A state is sound when its nineteen tables and its vote table check. -/
theorem sound_of {s : State}
    (h : (decide (s.pwr.votesInv = ~~~s.pwr.votes) && Tab.wf (fun _ => 0) s.pwr.scratch && Tab.wf (fun _ => {}) s.wards &&
      Tab.wf (fun _ => {}) s.groups && Tab.wf (fun _ => {}) s.cells && Tab.wf (fun _ => {}) s.cap.ports &&
      Tab.wf (fun _ => {}) s.cap.tumbler && Tab.wf (fun _ => {}) s.cache.lines && Tab.wf (fun _ => 0) s.cache.errors &&
      Tab.wf (fun _ => (0, 0)) s.cache.ratRange && Tab.wf (fun _ => 0) s.obs.counters &&
      Tab.wf (fun _ => 0) s.obs.image0.counters && Tab.wf (fun _ => 0) s.obs.image1.counters &&
      Tab.wf (fun _ => 0) ((s.obs.checkpoint.map (·.counters)).getD []) && Tab.wf (fun _ => 0) s.obs.volts &&
      Tab.wf (fun _ => 0) s.pin.cfg && Tab.wf (fun _ => none) s.pin.switching && Tab.wf regReset s.regs &&
      Tab.wf (fun _ => 0) s.host.bars && Tab.wf (fun _ => []) s.ledger.slots) = true) :
    Sound s := by
  simp only [Bool.and_eq_true, decide_eq_true_eq] at h
  obtain ⟨⟨⟨⟨⟨⟨⟨⟨⟨⟨⟨⟨⟨⟨⟨⟨⟨⟨⟨a, b⟩, c⟩, d⟩, e⟩, f⟩, g⟩, i⟩, j⟩, k⟩, l⟩, m⟩, n⟩, o⟩, p⟩, q⟩, r⟩, t⟩, u⟩, v⟩ := h
  exact ⟨a, b, c, d, e, f, g, i, j, k, l, m, n, o, p, q, r, t, u, v⟩

/-- Management: the host is there, the core runs on the PLL, the device is provisioned and holds its keys. -/
def on : State :=
  { sys := { stage := 6 }
    clk := { lock := true, pllEnabled := true, src := true, srcActive := true, beat := 2000000000 }
    sec := { provisioned := true, drbgReady := true, keys := some ⟨1, 2, 3, 4⟩, verifier := some 0 }
    pwr := { powered := true, pfLow := false }
    host := { speed := 4, width := 8, mse := true, bme := true }
    ring := { enable := true, fetching := true, placed := true }
    cache := { ready := true }, kcc := { ready := true }, ledger := { nextSerial := 1 } }
/-- The same device with other power registers. -/
def pw (f : PwrBlk → PwrBlk) (s : State := on) : State := { s with pwr := f s.pwr }
/-- The same device asleep under PF_N. -/
def asleep : State := pw (fun p => { p with mode := .deepStandby, pfLow := true })
/-- A cell that is ready, on the track of its block 0. -/
def cl : Cell :=
  { ready := true, clockLock := true, bring := .ready
    servo := { loaded := true, tracking := true, writeSettled := true, estimate := some 0
               target := 256 * (locateCell 0).track, surface := (locateCell 0).surface } }
/-- A group of three cells with one parity column, a stripe of it per number below 100. -/
def gr : Group := { defined := true, level := 1, members := [0, 1, 2], spare := some 3, stripes := 100, initFront := 100 }
/-- Service: cells 0 to 3 are ready, and group 0 lies on the first three. -/
def sv : State :=
  { pw (fun p => { p with mode := .service, domains := 0x7F }) with
    cells := [(0, cl), (1, cl), (2, cl), (3, cl)], groups := [(0, gr)] }
/-- An entry that is a chain of its own: the opcode and the bytes named. -/
def ent (op : Nat) (f : List (Nat × Nat)) (flags : Nat := 3) : Bytes :=
  (List.range 64).map (fun i => BitVec.ofNat 8
    (if i = 0 then op else if i = 1 then flags else ((f.find? (fun p => p.1 == i)).map Prod.snd).getD 0))
/-- Job 0 of a context. -/
def jb (c : Ctx) (op : Nat) (f : List (Nat × Nat)) (p : JobPhase := .ready) (data : Bytes := []) (segs : List (DWord × Nat) := []) : Job :=
  { id := 0, ctx := c, entry := ent op f, phase := p, data := data, segs := segs }
/-- A device on which one job is fetched. -/
def run (j : Job) (s : State := on) : State := { s with ring := { s.ring with jobs := [j], nextJob := 1 } }
/-- A ward with a key and one data unit for each of its spaces. -/
def wd (x : WardState) : Ward :=
  { state := x, keyPresent := true, epoch := 1, block := { runs := [(0, 1)] }, append := { group := 1, runs := [(0, 1)] }
    configured := true, weight := 1, burst := 1, ring := { sqLog := 4, cqLog := 4 } }
/-- A device whose ward 0 is as given. -/
def own (x : Ward) (s : State := on) : State := { s with wards := [(0, x)] }
/-- An unwritten sector of the first column of stripe 0. -/
def sec : Sector := ⟨zeros 4096, zeros 48, 0, 0, 0, 0, 0, 0⟩
/-- Its address. -/
def at0 : SubAddr := ⟨0, 0, 0, 0⟩
/-- It is verified. -/
theorem verified_sec : verified 2 at0 sec = true := by
  have h : ∀ n, (zeros n).all (· == 0) = true := fun n => by simp [zeros]
  have h1 : secWritten sec = false := rfl
  have h2 : sec.data.all (· == 0) = true := h 4096
  have h3 : sec.cov.all (· == 0) = true := h 48
  simp only [verified, h1, h2, h3]
  rfl
/-- What a later write of it would leave. -/
def newer : Sector := { sec with cov := zeros 24 ++ [1] ++ zeros 23 }
/-- A start-up that meets nothing. -/
def clean : Boot := ⟨0, false, 100, 200, 300, none, none, false, [], false, false, 1000⟩
/-- What a tick meets on a device that is well. -/
def env : TickEnv := ⟨[], 0, 820, 900, 1800, 1800, false⟩
/-- A set of registers that differ from reset. -/
def withRegs (l : Tab Word) (s : State := on) : State := { s with regs := l }
/-- A value that differs from the one given. -/
theorem ne_flip (v : BitVec 256) : v ≠ ~~~v := by
  intro h
  have := congrArg (fun x => x.getLsbD 0) h
  simp at this

/-! A command that cannot arrive is refused by the check (one term for each check of WellFormed). -/

theorem smoke_sector : Sector.wf ⟨zeros 4095, zeros 48, 0, 0, 0, 0, 0, 0⟩ = false := by
  unfold Sector.wf zeros; simp only [List.length_replicate]; rfl
theorem smoke_cover : Sector.wf ⟨zeros 4096, zeros 47, 0, 0, 0, 0, 0, 0⟩ = false := by
  unfold Sector.wf zeros; simp only [List.length_replicate]; rfl
theorem smoke_operands :
    [Instr.linkTrained 5 8, .linkTrained 0 8, .linkTrained 4 0, .bar0ReadAbort 0x3FFFF 2, .bar0ReadAbort 0 0,
     .bar2Stray ⟨true, 0x1FFFE, 4, 0⟩, .bar2Stray ⟨true, 0, 3, 0⟩, .bar4Read 0x400000 1, .bar4Write 0x3FFFFF 2,
     .registerWrite 0x3FFFE 4 true 0, .registerWrite 0 5 true 0, .entryArrival .admin (ent 0x40 [] ++ [0]),
     .destageAge ⟨0, 0, 16, 0⟩, .cacheFill ⟨0, 0, 0, 16⟩, .destageStart ⟨0, 0, 16, 0⟩ none, .ledgerRound [8] none,
     .deferredDelta 1 (some ⟨[], [], 0, 0, 0, 0, 0, 0⟩) none, .replay [some ⟨[], [], 0, 0, 0, 0, 0, 0⟩] [] none,
     .replay [] [List.replicate 17 none] none, .captureFrame 0 (some (.key (zeros 13))) none,
     .captureFrame 0 none (some (.key (zeros 13))), .sectorRead 0 ⟨none, false, 25, 0, false⟩,
     .sectorRead 0 ⟨some ⟨[], [], 0, 0, 0, 0, 0, 0⟩, false, 0, 0, false⟩, .retryPass 0 ⟨none, false, 25, 0, false⟩,
     .colzorFrame 0 ⟨true, false, true, 32768, []⟩, .colzorFrame 0 ⟨true, false, true, 0, List.replicate 9 0⟩,
     .wedge 0 ⟨true, true, 512, 0, 0, 0⟩, .wedge 0 ⟨true, true, 0, -65537, 0, 0⟩, .wedge 0 ⟨true, true, 0, 4128768, 0, 0⟩,
     .rebuildStripe 0 (List.replicate 17 []), .rebuildStripe 0 [List.replicate 17 ⟨⟨none, false, 0, 0, false⟩, none⟩],
     .scrubRow 0 (List.replicate 17 ⟨⟨none, false, 0, 0, false⟩, none⟩), .scrubRow 0 [⟨⟨none, false, 25, 0, false⟩, none⟩],
     .scrubRow 0 [⟨⟨none, false, 0, 0, false⟩, some ⟨[], [], 0, 0, 0, 0, 0, 0⟩⟩]].all (fun i => !i.wf) = true := by decide

/-! Small checks; the expected results are the manual's worked cases, or worked out by hand from its tables. -/

/-- The state a command answers. -/
def nx (r : Host.Outcome State Fault Refusal) : State := match r with | .next t => t | _ => State.reset

/-- R254, the example under R255: Q and R of a row of three columns, and 6 · 0x81. -/
theorem test_parity_row : (0x5A : Byte) ^^^ gfMul 2 0x3C ^^^ gfMul 4 0x81 = 0x1C ∧
    (0x5A : Byte) ^^^ gfMul 4 0x3C ^^^ gfMul 0x10 0x81 = 0x52 ∧ gfMul 6 0x81 = 0x21 := by decide
/-- R254's coefficient table: column 14. -/
theorem test_coefficients : gfPow 14 = 0x13 ∧ gfPow 28 = 0x18 := by decide
/-- The example under R287: cell block 187,463. -/
theorem test_place : locateCell 187463 = ⟨0, 334, 4, 87⟩ := by decide
/-- A group of the worked case of section 12. -/
def halwick : State :=
  { on with
    groups := [(0, { defined := true, level := 2, members := [0, 1, 2, 3, 4, 5, 6, 7, 8, 9, 10, 11], stripes := 20000 })]
    wards := [(0x2A, { block := { runs := [(40000, 96000)] } })] }
/-- Worked case of section 12: block 1,234,615 of ward 0x02A lies on CELL_1, and its parity on CELL_8 and CELL_9. -/
theorem test_locate : locate 0x2A 0 1234615 halwick = some ⟨0, 11716, 3, 7⟩ ∧ (halwick.group 0).cellOf 11716 3 = 1 ∧
    (halwick.group 0).cellOf 11716 10 = 8 ∧ (halwick.group 0).cellOf 11716 11 = 9 ∧ cacheSet ⟨0, 11716, 3, 7⟩ = 3 := by decide
/-- Worked case of section 17: where ward 0x01C's capture counters lie. -/
theorem test_counter_place : cWard 0x1C 0x40 = 0x023E40 := by decide
/-- Worked case of section 19: READ_LIMIT 45 is dropped, and the rejection is latched. -/
theorem test_limits_refused : (nx (exec (.registerWrite 0x16C14 4 true 0x0006192D) on)).sys.rejAddr = 0x16C14 ∧
    (nx (exec (.registerWrite 0x16C14 4 true 0x0006192D) on)).reg 0x16C14 = 0x00061914 := by decide
/-- Worked case of section 19: STALL_TICKS 50 is refused with the clear beside it; MORE counts it. -/
theorem test_progress_refused :
    let s := { on with sys := { stage := 6, stalled := true, rejValid := true } }
    (nx (exec (.registerWrite 0x1C 4 true 0x00010032) s)).sys.rejMore = 1 ∧
      (nx (exec (.registerWrite 0x1C 4 true 0x00010032) s)).sys.stalled = true := by decide
/-- Worked case of section 19: STALL_TICKS 1,000 with the clear. -/
theorem test_progress_cleared :
    (nx (exec (.registerWrite 0x1C 4 true 0x000103E8) { on with sys := { stage := 6, stalled := true } })).sys.stalled = false := by
  decide
/-- Ward 0x01C of the worked case of section 7. -/
def tollgate : State :=
  { on with wards := [(0x1C, { wd .opened with ring := { sqLog := 8, cqLog := 8, sqHead := 200, sqTail := 200, next := 200, cqTail := 150, cqHead := 140 } })] }
/-- A doorbell write at ward 0x01C. -/
def bell (off : Nat) (v : DWord) : Ring := ((nx (exec (.bar2Stray ⟨true, 0x11C0 + off, 4, v⟩) tollgate)).ward 0x1C).ring
/-- Worked case of section 7: the submission tail 204 is applied, 300 is out of range. -/
theorem test_tail_bells : (bell 0 204).sqTail = 204 ∧ (bell 0 300).sqTail = 200 ∧ (bell 0 300).rangeBit = true := by decide
/-- Worked case of section 7: the completion head 160 is ahead of the tail, 150 is applied. -/
theorem test_head_bells : (bell 4 160).cqHead = 140 ∧ (bell 4 160).aheadBit = true ∧ (bell 4 150).cqHead = 150 := by decide
/-- Worked case of section 3: the 64th malformed entry leaves the ward OPEN, the 65th faults it. -/
theorem test_malformed_rate :
    ((nx (exec (.malformedRate 0x2A) { on with wards := [(0x2A, { wd .opened with malformed := 64 })] })).ward 0x2A).state = .opened ∧
    ((nx (exec (.malformedRate 0x2A) { on with wards := [(0x2A, { wd .opened with malformed := 65 })] })).ward 0x2A).state = .faulted := by
  decide
/-- Worked case of section 10: the 16th corrected error of a tick retires WAY_3. -/
theorem test_way_3 :
    (nx (exec (.scacheEccError 3 .corrected) { on with cache := { ready := true, errors := [(3, 14)] } })).cache.retired = 0 ∧
    (nx (exec (.scacheEccError 3 .corrected) { on with cache := { ready := true, errors := [(3, 15)] } })).cache.retired = 8 := by
  decide
/-- Worked case of section 18: UP_9 cannot take PPS_IN while UP_4 holds it. -/
theorem test_pps_pin : pinLegal 9 6 { on with pin := { cfg := [(4, 6)] } } = false ∧
    pinLegal 9 6 { on with pin := { cfg := [(4, 0x28)] } } = true := by decide
/-- Worked case of section 2: an edge 350 ns after a whole second reads +350 and becomes the slew in progress; the first
held beat is 10,000 beats later. -/
theorem test_pps_350 :
    let s := { on with regs := [(0x02028, 2)], pin := { cfg := [(4, 6)] },
                       clk := { on.clk with beat := 86412337120, taiValid := true, taiQ := (7000000350 <<< 32) } }
    (nx (exec (.ppsEdge 0) s)).clk.ppsError = 350 ∧ (nx (exec (.ppsEdge 0) s)).clk.slewLeft = 350 ∧
      (nx (exec (.ppsEdge 0) s)).clk.slewDue = 86412347120 := by decide
/-- Worked case of section 2: the rate −163. -/
theorem test_rate : (nx (exec (.taiRateWrite 0xFFFFFF5D) on)).taiRate = -163 := by decide
/-- R7: a write of 1 clears TICK, but not in the beat in which the die sets it. -/
theorem test_tick_bit :
    (nx (exec (.registerWrite 0x20 4 true 1) { on with sys := { stage := 6, irqTick := true } })).sys.irqTick = false ∧
    (nx (exec (.registerWrite 0x20 4 true 1)
      { on with sys := { stage := 6, irqTick := true }, obs := { hwBeat := 2000000000, hwSet := [(0x20, 0)] } })).sys.irqTick = true := by
  decide
/-- Worked case of section 9: entry 17 wins the tie with 40, and entry 300 wins over both (R202). -/
theorem test_tumbler_winner : bestOf [(17, 5), (40, 5)] = some (17, 5) ∧ bestOf [(17, 5), (40, 5), (300, 9)] = some (300, 9) := by
  decide
/-- The check value of CRC-32C over "123456789", from its standard (R256 names the code). -/
theorem test_crc32c : crc32c [0x31, 0x32, 0x33, 0x34, 0x35, 0x36, 0x37, 0x38, 0x39] = 0xE3069283 := by decide +kernel
/-- R380: under PF_N the first POWER_ON after reset waits in Deep Standby. -/
theorem test_reset_goes_on : (nx (exec (.powerOn clean) State.reset)).pwr.mode = .deepStandby := by decide
/-- No word spells a command. -/
theorem test_no_words : decodeTableWord 16 0x1234 = none := rfl

/-- A 64-byte frame of zeros with its FCS, by the standard that R196 names. -/
def frame : Frame := ⟨zeros 60 ++ [8, 137, 18, 4], false, false⟩
/-- It ends without an error in every mode (R196). -/
theorem frame_ok (m : Nat) : frameError m frame = none := by
  have h : fcsOk frame.bytes = true := by decide +kernel
  have l : frame.bytes.length = 64 := rfl
  simp [frameError, h, l, show frame.codeErr = false from rfl, show frame.fecBad = false from rfl]

/-! Witnesses. -/

/-- A state-changing command without payload whose COMMIT is next. -/
def it (c : Ctx) (op : Byte) (e : Effect) (args : Bytes := []) : Intent :=
  { serial := 1, boot := 0, ctx := c, job := some 0, op := op, args := args, phase := .commit, commits := [(2, 1)], effect := e }
/-- A device on which the COMMIT of that intent, of job `j`, is due. -/
def dueAt (j : Job) (i : Intent) (s : State := on) : State :=
  run j { s with ledger := { nextSerial := 3, port := [(.commit 1, 1)], intents := [i] } }
/-- A job that waits for its COMMIT. -/
def jj (c : Ctx) : Job := { id := 0, ctx := c, entry := ent 0x48 [], phase := .journal }

/-- StepRunsFrontCommand: states and operands that meet the hypotheses of each clause. -/
theorem witness_StepRunsFrontCommand :
    ∃ (s : State) (c : Instr) (r : List Instr), s.pending = c :: r :=
  ⟨{ on with pending := [.l1Exit, .uartXon] }, .l1Exit, [.uartXon], rfl⟩

/-- IdleStepIsOnePeriod: states and operands that meet the hypotheses of each clause. -/
theorem witness_IdleStepIsOnePeriod :
    ∃ s : State, s.pending = [] ∧ s.sys.boot = none ∧ s.pwr.transition ≠ some .zeroize :=
  ⟨on, rfl, rfl, by decide⟩

/-- StepKeepsSound: states and operands that meet the hypotheses of each clause. -/
theorem witness_StepKeepsSound :
    ∃ s t : State, Sound s ∧ step s = .next t :=
  ⟨on, idleStep on, sound_of rfl, rfl⟩

/-- EpochRule: states and operands that meet the hypotheses of each clause. -/
theorem witness_EpochRule :
    (∃ (c : Instr) (s t : State) (w : WardId), Sound s ∧ exec c s = .next t) ∧
    (∃ (c : Instr) (s t : State) (w : WardId) (x : Ward), ∃ i ∈ t.ledger.intents, Sound s ∧ exec c s = .next t ∧
      i.effect = .create w x) ∧
    (∃ (s : State) (i : Intent) (j : Job) (w : WardId) (x : Ward), Sound s ∧ CommitDue i j s ∧ i.effect = .create w x) :=
  ⟨⟨.l1Exit, on, on, 4095, sound_of rfl, rfl⟩,
   ⟨.l1Exit, dueAt (jj .admin) (it .admin 0x48 (.create 4095 (wd .sealed))),
    dueAt (jj .admin) (it .admin 0x48 (.create 4095 (wd .sealed))), 4095, wd .sealed,
    it .admin 0x48 (.create 4095 (wd .sealed)), .head _, sound_of rfl, rfl, rfl⟩,
   ⟨dueAt (jj .admin) (it .admin 0x48 (.create 4095 (wd .sealed))), it .admin 0x48 (.create 4095 (wd .sealed)),
    jj .admin, 4095, wd .sealed, sound_of rfl, ⟨by decide, rfl, rfl, rfl, rfl, rfl, rfl, by decide, ⟨rfl, rfl, rfl⟩,
    rfl, rfl, rfl⟩, rfl⟩⟩

/-- CommandFrames: states and operands that meet the hypotheses of each clause. -/
theorem witness_CommandFrames :
    ∃ (c : Instr) (s t : State) (p : Part), exec c s = .next t ∧ p ∉ touches c :=
  ⟨.flrCaptureResume, on, on, .wards, rfl, by decide⟩

/-- PowerOnWaitsForPf: states and operands that meet the hypotheses of each clause. -/
theorem witness_PowerOnWaitsForPf :
    (∃ (s : State) (b : Boot), s.pwr.powered = false ∧ s.pwr.pfLow = true) ∧
    (∃ (s : State) (b : Boot), s.pwr.powered = false ∧ s.pwr.pfLow = false) ∧
    (∃ (s : State) (b : Boot), ∃ src, s.pwr.powered = true ∧ s.pwr.pfLow = true ∧ s.pwr.mode = .deepStandby ∧
      s.pwr.coldDue = some src) ∧
    (∃ (s : State) (b : Boot), ∃ w r, s.pwr.powered = true ∧ s.pwr.pfLow = true ∧ s.pwr.mode = .deepStandby ∧
      s.pwr.coldDue = none ∧ s.pwr.wakes = w :: r) ∧
    (∃ (s : State) (b : Boot), s.pwr.powered = true ∧ s.pwr.pfLow = true ∧ s.pwr.mode = .deepStandby ∧
      s.pwr.coldDue = none ∧ s.pwr.wakes = []) :=
  ⟨⟨State.reset, clean, rfl, rfl⟩,
   ⟨{ State.reset with pwr := { pfLow := false } }, clean, rfl, rfl⟩,
   ⟨pw (fun p => { p with pfLow := true, mode := .deepStandby, coldDue := some 4 }), clean, 4, rfl, rfl, rfl, rfl⟩,
   ⟨pw (fun p => { p with pfLow := true, mode := .deepStandby, wakes := [⟨5, 0, true, 0⟩] }), clean, ⟨5, 0, true, 0⟩,
    [], rfl, rfl, rfl, rfl, rfl⟩,
   ⟨asleep, clean, rfl, rfl, rfl, rfl, rfl⟩⟩

/-- PowerIsTakenAway: states and operands that meet the hypotheses of each clause. -/
theorem witness_PowerIsTakenAway :
    (∃ (s : State) (ends : List CellId), Sound s ∧ s.pwr.pfLow = false ∧ s.pwr.powered = true ∧
      s.pwr.mode ≠ .deepStandby) ∧
    (∃ (s : State) (ends : List CellId), Sound s ∧ s.pwr.pfLow = false ∧ s.pwr.powered = true ∧
      s.pwr.mode = .deepStandby) ∧
    (∃ (s : State) (rail : Fin 4) (mv : Nat), Sound s ∧ s.pwr.powered = true ∧ s.pwr.pfLow = false ∧
      within (supplyRange rail).1 (supplyRange rail).2.1 mv = false ∧ mv ≤ (supplyRange rail).2.2) ∧
    (∃ (s : State) (rail : Fin 4) (mv : Nat), Sound s ∧ s.pwr.powered = true ∧ s.pwr.pfLow = true) :=
  ⟨⟨sv, [15], sound_of rfl, rfl, rfl, by decide⟩,
   ⟨pw (fun p => { p with mode := .deepStandby }), [], sound_of rfl, rfl, rfl, rfl⟩,
   ⟨sv, 0, 664, sound_of rfl, rfl, rfl, rfl, by decide⟩,
   ⟨pw (fun p => { p with pfLow := true }), 0, 0, sound_of rfl, rfl, rfl⟩⟩

/-- RestartsWithoutPower: states and operands that meet the hypotheses of each clause. -/
theorem witness_RestartsWithoutPower :
    (∃ (s : State) (b : Boot), Sound s ∧ s.pwr.powered = true ∧
      (s.pwr.mode = .deepStandby ∨ s.pwr.mode = .retentionSleep) ∧ s.pwr.pfLow = true) ∧
    (∃ (s : State) (b : Boot), Sound s ∧ s.pwr.powered = true ∧
      (s.pwr.mode = .deepStandby ∨ s.pwr.mode = .retentionSleep) ∧ s.pwr.pfLow = false) ∧
    (∃ (s : State) (b : Boot) (key : BitVec 16) (ends : List CellId), s.hostOpen = true ∧ s.handedOff = true ∧
      key = 0x5A17 ∧ s.sec.session = true ∧ s.pwr.pfLow = false) ∧
    (∃ (s : State) (b : Boot) (key : BitVec 16) (ends : List CellId), s.hostOpen = true ∧ s.handedOff = true ∧
      (key ≠ 0x5A17 ∨ (s.sec.session = false ∧ s.sys.stage.toNat < 7))) :=
  ⟨⟨asleep, clean, sound_of rfl, rfl, by decide, rfl⟩,
   ⟨pw (fun p => { p with mode := .retentionSleep }), clean, sound_of rfl, rfl, by decide, rfl⟩,
   ⟨{ on with sec := { on.sec with session := true } }, clean, 0x5A17, [], rfl, rfl, rfl, rfl, rfl⟩,
   ⟨on, clean, 0x5A17, [], rfl, rfl, by decide⟩⟩

/-- WakesAreLatched: states and operands that meet the hypotheses of each clause. -/
theorem witness_WakesAreLatched :
    (∃ (s : State) (b : Boot) (whole : Bool) (test : Option (Fin 10)), s.pwr.powered = true ∧
      (s.pwr.mode = .deepStandby ∨ s.pwr.mode = .retentionSleep) ∧ s.pwr.pfLow = true ∧ s.pwr.perstLow = true) ∧
    (∃ (s : State) (b : Boot) (whole : Bool) (test : Option (Fin 10)), s.pwr.powered = true ∧
      (s.pwr.mode = .deepStandby ∨ s.pwr.mode = .retentionSleep) ∧ s.pwr.pfLow = false ∧ s.pwr.mode = .deepStandby ∧
      s.pwr.coldDue = none ∧ s.pwr.wakes = [] ∧ s.pwr.perstLow = true) ∧
    (∃ (s : State) (b : Boot) (whole : Bool) (test : Option (Fin 10)), s.pwr.powered = true ∧
      (s.pwr.mode = .deepStandby ∨ s.pwr.mode = .retentionSleep) ∧ s.pwr.pfLow = false ∧
      s.pwr.mode = .retentionSleep ∧ s.pwr.wakes = [] ∧ s.pwr.zeroLatched = false ∧ s.sec.zeroizePending = false ∧
      s.pwr.holdCause = 0 ∧ s.sec.provisioned = true ∧ s.pwr.votes ≠ 0 ∧ s.pwr.votes &&& serviceSlots = 0) :=
  ⟨⟨pw (fun p => { p with perstLow := true }) asleep, clean, true, none, rfl, by decide, rfl, rfl⟩,
   ⟨pw (fun p => { p with perstLow := true, pfLow := false }) asleep, clean, true, none, rfl, by decide, rfl, rfl,
    rfl, rfl, rfl⟩,
   ⟨pw (fun p => { p with mode := .retentionSleep }), clean, true, none, rfl, by decide, rfl, rfl, rfl, rfl, rfl, rfl,
    rfl, by decide, rfl⟩⟩

/-- StartUpStages: states and operands that meet the hypotheses of each clause. -/
theorem witness_StartUpStages :
    (∃ (s : State) (b : Boot), Sound s ∧ s.pending = [] ∧ s.awake = true ∧ s.sys.boot = some b ∧
      s.pwr.mode = .management ∧ s.sys.stage = 1) ∧
    (∃ (s : State) (b : Boot), Sound s ∧ s.pending = [] ∧ s.awake = true ∧ s.sys.boot = some b ∧
      s.pwr.mode = .management ∧ s.sys.stage = 2 ∧ s.sys.zeroInBoot = false) ∧
    (∃ (s : State) (b : Boot), ∃ f, Sound s ∧ s.pending = [] ∧ s.awake = true ∧ s.sys.boot = some b ∧
      s.pwr.mode = .management ∧ s.sys.stage = 3 ∧ s.sys.zeroInBoot = false ∧ b.test = some f) ∧
    (∃ (s : State) (b : Boot), Sound s ∧ s.pending = [] ∧ s.awake = true ∧ s.sys.boot = some b ∧
      s.pwr.mode = .management ∧ s.sys.stage = 3 ∧ s.sys.zeroInBoot = false ∧ b.test = none ∧
      s.sec.provisioned = true) ∧
    (∃ (s : State) (b : Boot), Sound s ∧ s.pending = [] ∧ s.awake = true ∧ s.sys.boot = some b ∧
      s.pwr.mode = .management ∧ s.sys.stage = 3 ∧ s.sys.zeroInBoot = false ∧ b.test = none ∧
      s.sec.provisioned = false ∧ s.pwr.holdCause = 0 ∧ s.cache.retired ≠ 0xFFFF) ∧
    (∃ (s : State) (b : Boot), Sound s ∧ s.pending = [] ∧ s.awake = true ∧ s.sys.boot = some b ∧
      s.pwr.mode = .management ∧ s.sys.stage = 4 ∧
      (b.scanLate = true ∨ (scanLimit b s).isSome = true ∨ b.adminBad = true)) ∧
    (∃ (s : State) (b : Boot), Sound s ∧ s.pending = [] ∧ s.awake = true ∧ s.sys.boot = some b ∧
      s.pwr.mode = .management ∧ s.sys.stage = 4 ∧ b.scanLate = false ∧ scanLimit b s = none ∧ b.adminBad = false ∧
      s.pwr.holdCause = 0 ∧ s.cache.retired ≠ 0xFFFF) :=
  ⟨⟨{ on with sys := { stage := 1, boot := some clean }, sec := on.sec }, clean, sound_of rfl, rfl, rfl, rfl, rfl,
    rfl⟩,
   ⟨{ on with sys := { stage := 2, boot := some clean }, sec := on.sec }, clean, sound_of rfl, rfl, rfl, rfl, rfl,
    rfl, rfl⟩,
   ⟨{ on with sys := { stage := 3, boot := some { clean with test := some .adaptive } }, sec := on.sec },
    { clean with test := some .adaptive }, .adaptive, sound_of rfl, rfl, rfl, rfl, rfl, rfl, rfl, rfl⟩,
   ⟨{ on with sys := { stage := 3, boot := some clean }, sec := on.sec }, clean, sound_of rfl, rfl, rfl, rfl, rfl,
    rfl, rfl, rfl, rfl⟩,
   ⟨{ on with sys := { stage := 3, boot := some clean }, sec := {}, cache := { retired := 0xFFFE } }, clean,
    sound_of rfl, rfl, rfl, rfl, rfl, rfl, rfl, rfl, rfl, rfl, by decide⟩,
   ⟨{ on with sys := { stage := 4, boot := some { clean with adminBad := true } }, sec := on.sec },
    { clean with adminBad := true }, sound_of rfl, rfl, rfl, rfl, rfl, rfl, by decide⟩,
   ⟨{ on with sys := { stage := 4, boot := some clean }, sec := on.sec, cache := { retired := 0xFFFE } }, clean,
    sound_of rfl, rfl, rfl, rfl, rfl, rfl, rfl, rfl, rfl, rfl, by decide⟩⟩

/-- VotesMoveMode: states and operands that meet the hypotheses of each clause. -/
theorem witness_VotesMoveMode :
    (∃ (s : State) (v : Word), Sound s ∧ s.regOpen = true ∧ s.pwr.transition = none ∧ s.sec.zeroizePending = false ∧
      s.pwr.holdCause = 0 ∧ s.pwr.sleepVote = false ∧ s.pwr.mode = .management ∧ s.clk.srcActive = true ∧
      s.sec.provisioned = true ∧ v.setWidth 24 &&& serviceSlots ≠ 0) ∧
    (∃ (s : State) (v : Word), Sound s ∧ s.regOpen = true ∧ s.pwr.transition = none ∧ s.sec.zeroizePending = false ∧
      s.pwr.mode = .management ∧ s.pwr.votes ≠ 0 ∧ s.pwr.votes &&& ~~~(v.setWidth 24) = 0) ∧
    (∃ (s : State) (v : Word), Sound s ∧ s.regOpen = true ∧ s.pwr.transition = none ∧ s.sec.zeroizePending = false ∧
      s.pwr.holdCause = 0 ∧ s.pwr.sleepVote = false ∧ s.pwr.mode = .service ∧ s.sec.provisioned = true ∧
      s.pwr.votes.getLsbD 0 = true ∧ v.setWidth 24 = serviceSlots) ∧
    (∃ (s : State) (v : Word), Sound s ∧ s.regOpen = true ∧ s.pwr.transition = none ∧ s.sec.zeroizePending = false ∧
      s.pwr.holdCause = 0 ∧ s.pwr.mode = .management ∧ s.pwr.votes ≠ 0) ∧
    (∃ (s : State) (v : Word), ∃ c : BitVec 3, Sound s ∧ s.regOpen = true ∧ s.pwr.transition = none ∧
      s.sec.zeroizePending = false ∧ ((s.pwr.mode = .safeHold ∧ c = 3) ∨ (s.pwr.mode = .provisioning ∧ c = 4))) ∧
    (∃ (s : State) (v : Word), ∃ c : BitVec 3, Sound s ∧ s.regOpen = true ∧ s.pwr.transition = none ∧
      s.sec.zeroizePending = false ∧ ((s.clk.srcActive = false ∧ c = 1) ∨ (s.clk.srcActive = true ∧
      s.sec.provisioned = false ∧ c = 2)) ∧ s.pwr.mode = .provisioning ∧ s.sec.provisioned = false ∧
      s.pwr.holdCause = 0 ∧ s.pwr.sleepVote = false ∧ s.pwr.votes ≠ 0 ∧
      v.setWidth 24 &&& ~~~s.pwr.votes &&& serviceSlots ≠ 0) :=
  ⟨⟨on, 4, sound_of rfl, rfl, rfl, rfl, rfl, rfl, rfl, rfl, rfl, by decide⟩,
   ⟨on, 1, sound_of rfl, rfl, rfl, rfl, rfl, by decide, rfl⟩,
   ⟨pw (fun p => { p with mode := .service, votes := 5, votesInv := 0xFFFFFA }), serviceSlots.setWidth 32,
    sound_of rfl, rfl, rfl, rfl, rfl, rfl, rfl, rfl, rfl, rfl⟩,
   ⟨on, 0, sound_of rfl, rfl, rfl, rfl, rfl, rfl, by decide⟩,
   ⟨pw (fun p => { p with mode := .safeHold }), 0, 3, sound_of rfl, rfl, rfl, rfl, by decide⟩,
   ⟨{ pw (fun p => { p with mode := .provisioning }) with sec := {} }, 4, 2, sound_of rfl, rfl, rfl, rfl, by decide,
    rfl, rfl, rfl, rfl, by decide, by decide⟩⟩

/-- TransitionsEnd: states and operands that meet the hypotheses of each clause. -/
theorem witness_TransitionsEnd :
    (∃ (s : State) (b : Boot), Sound s ∧ s.sec.zeroizePending = false ∧ s.pwr.transition = some .enterService ∧
      s.pwr.holdCause = 0 ∧ s.pwr.sleepVote = false ∧ s.sec.provisioned = true ∧ s.pwr.votes &&& serviceSlots ≠ 0) ∧
    (∃ (s : State) (b : Boot), Sound s ∧ s.sec.zeroizePending = false ∧ s.pwr.transition = some .leaveService ∧
      s.mediaOn = false ∧ s.pwr.holdCause = 0 ∧ s.pwr.sleepVote = false ∧ s.sec.provisioned = true ∧ s.pwr.votes ≠ 0 ∧
      s.pwr.votes &&& serviceSlots = 0) ∧
    (∃ (s : State) (b : Boot), Sound s ∧ s.pwr.transition = some .enterStandby ∧ s.pwr.wakes = [] ∧
      s.pwr.coldDue = none ∧ ledgerQuiet s = true ∧ s.pinsQuiet = true ∧ s.cap.queue = []) ∧
    (∃ (s : State) (b : Boot), Sound s ∧ s.pwr.transition = some .enterSleep ∧ s.pwr.wakes = [] ∧ sleepQuiet s = true) ∧
    (∃ (s : State) (b : Boot), ∃ src, Sound s ∧ s.pwr.transition = none ∧ s.pwr.powered = true ∧ s.pwr.pfLow = false ∧
      s.pwr.mode = .deepStandby ∧ s.pwr.coldDue = some src) :=
  ⟨⟨pw (fun p => { p with transition := some .enterService, votes := 5, votesInv := 0xFFFFFA, domains := 0x7F }),
    clean, sound_of rfl, rfl, rfl, rfl, rfl, rfl, by decide⟩,
   ⟨pw (fun p => { p with transition := some .leaveService, mode := .service }), clean, sound_of rfl, rfl, rfl, rfl,
    rfl, rfl, rfl, by decide, rfl⟩,
   ⟨pw (fun p => { p with transition := some .enterStandby, votes := 0, votesInv := 0xFFFFFF }), clean, sound_of rfl,
    rfl, rfl, rfl, rfl, rfl, rfl⟩,
   ⟨pw (fun p => { p with transition := some .enterSleep, sleepVote := true }), clean, sound_of rfl, rfl, rfl, rfl⟩,
   ⟨pw (fun p => { p with mode := .deepStandby, coldDue := some 4 }), clean, 4, sound_of rfl, rfl, rfl, rfl, rfl,
    rfl⟩⟩

/-- HoldAndParkEnds: states and operands that meet the hypotheses of each clause. -/
theorem witness_HoldAndParkEnds :
    (∃ (s : State) (key : BitVec 16) (c : CellId), Sound s ∧ s.regOpen = true ∧ key = 0x5AFE ∧ s.inHold = true ∧
      s.sec.session = true ∧ causesReleased s = true ∧ s.pwr.transition = none ∧ s.sec.zeroizePending = false ∧
      s.sec.provisioned = true ∧ s.pwr.votes ≠ 0 ∧ s.pwr.sleepVote = false ∧ s.pwr.votes &&& serviceSlots = 0) ∧
    (∃ (s : State) (key : BitVec 16) (c : CellId), Sound s ∧ s.regOpen = true ∧
      (key ≠ 0x5AFE ∨ s.inHold = false ∨ s.sec.session = false ∨ causesReleased s = false)) ∧
    (∃ (s : State) (key : BitVec 16) (c : CellId), Sound s ∧ s.pwr.transition = some .leaveService ∧ s.mediaOn = true) ∧
    (∃ (s : State) (key : BitVec 16) (c : CellId), Sound s ∧ s.pwr.transition = some .enterSleep ∧ s.awake = true ∧
      s.clk.beat.toNat ≤ s.pwr.transBeat.toNat + 20000000 ∧ s.pwr.transBeat.toNat + 20000005 < 2 ^ 64) ∧
    (∃ (s : State) (key : BitVec 16) (c : CellId), Sound s ∧ (s.cell c).closing ≠ none ∧ s.slotHeld c = false ∧
      s.awake = true) :=
  ⟨⟨{ pw (fun p => { p with mode := .safeHold, holdCause := 2 }) with sec := { on.sec with session := true } },
    0x5AFE, 0, sound_of rfl, rfl, rfl, rfl, rfl, rfl, rfl, rfl, rfl, by decide, rfl, rfl⟩,
   ⟨{ pw (fun p => { p with mode := .safeHold, holdCause := 2 }) with sec := { on.sec with session := true } },
    0x5AFF, 0, sound_of rfl, rfl, by decide⟩,
   ⟨pw (fun p => { p with transition := some .leaveService }) sv, 0, 0, sound_of rfl, rfl, rfl⟩,
   ⟨pw (fun p => { p with transition := some .enterSleep, transBeat := 1980000000 }), 0, 0, sound_of rfl, rfl, rfl,
    by decide, by decide⟩,
   ⟨{ sv with cells := [(0, { cl with closing := some 0 })] }, 0, 0, sound_of rfl, by decide, rfl, rfl⟩⟩

/-- HostLinkReset: states and operands that meet the hypotheses of each clause. -/
theorem witness_HostLinkReset :
    ∃ (s : State) (r : LinkReset) (b : Boot), Sound s ∧ s.awake = true ∧ s.pwr.perstLow = false ∧
      s.pwr.transition = none :=
  ⟨on, .perst, clean, sound_of rfl, rfl, rfl, rfl⟩

/-- FunctionLevelReset: states and operands that meet the hypotheses of each clause. -/
theorem witness_FunctionLevelReset :
    (∃ s : State, Sound s ∧ s.cfgOpen = true ∧ s.handedOff = true ∧ s.host.flr = none) ∧
    (∃ s : State, Sound s ∧ s.cfgOpen = true ∧ s.handedOff = false ∧ s.host.flr = none) ∧
    (∃ s : State, Sound s ∧ s.host.flr ≠ none) ∧
    (∃ s : State, ∃ q : CfgReq, Sound s ∧ s.cfgOpen = true ∧ s.host.flr ≠ none) :=
  ⟨⟨on, sound_of rfl, rfl, rfl, rfl⟩,
   ⟨{ on with sys := { stage := 4 } }, sound_of rfl, rfl, rfl, rfl⟩,
   ⟨{ on with host := { on.host with flr := some 0 } }, sound_of rfl, by decide⟩,
   ⟨{ on with host := { on.host with flr := some 0 } }, ⟨false, .ids, 0⟩, sound_of rfl, rfl, by decide⟩⟩

/-- HeldOutputOrder: states and operands that meet the hypotheses of each clause. -/
theorem witness_HeldOutputOrder :
    (∃ (s : State) (v : Word), s.cfgOpen = true ∧ s.host.flr = none ∧ s.host.d3hot = true ∧ s.host.bme = true) ∧
    (∃ (s : State) (v : Word), s.cfgOpen = true ∧ s.host.flr = none ∧ s.host.d3hot = true ∧ s.host.bme = false) ∧
    (∃ (s : State) (v : Word), s.cfgOpen = true ∧ s.host.flr = none ∧ s.host.d3hot = false ∧ v.getLsbD 2 = true) ∧
    (∃ (s : State) (v : Word), s.cfgOpen = true ∧ s.host.flr = none ∧ v.getLsbD 2 = false) ∧
    (∃ (s : State) (v : Word), ∃ i : Fin 6, s.cfgOpen = true ∧ s.host.flr = none ∧ Sound s) :=
  ⟨⟨{ on with host := { on.host with d3hot := true } }, 0, rfl, rfl, rfl, rfl⟩,
   ⟨{ on with host := { on.host with d3hot := true, bme := false } }, 0, rfl, rfl, rfl, rfl⟩,
   ⟨on, 4, rfl, rfl, rfl, rfl⟩,
   ⟨on, 0xFFFB, rfl, rfl, rfl⟩,
   ⟨on, 0, 5, rfl, rfl, sound_of rfl⟩⟩

/-- LinkStates: states and operands that meet the hypotheses of each clause. -/
theorem witness_LinkStates :
    (∃ (s : State) (speed width : Nat), s.linkOpen = true ∧ s.pwr.perstLow = false ∧ 1 ≤ speed ∧ speed ≤ 4 ∧
      1 ≤ width ∧ s.host.held = []) ∧
    (∃ s : State, s.cfgOpen = true ∧ s.host.inL1 = false ∧ s.host.linkCtl.getLsbD 1 = true ∧
      bits 0 8 (s.reg 0x04004) ≠ 0 ∧ s.host.held = [] ∧ s.readsOut = 0) ∧
    (∃ s : State, (bits 0 8 (s.reg 0x04004) = 0 ∨ s.host.linkCtl.getLsbD 1 = false)) ∧
    (∃ s : State, s.awake = true) :=
  ⟨⟨on, 4, 1, rfl, rfl, by decide, by decide, by decide, rfl⟩,
   ⟨{ on with host := { on.host with linkCtl := 2 } }, rfl, rfl, rfl, by decide, rfl, rfl⟩,
   ⟨withRegs [(0x04004, 0)], by decide⟩,
   ⟨on, rfl⟩⟩

/-- MessageSignalling: states and operands that meet the hypotheses of each clause. -/
theorem witness_MessageSignalling :
    (∃ (s : State) (v : Fin 256) (p : Pend), Sound s ∧ s.cfgOpen = true ∧ s.dmaOpen = true ∧ s.sys.stage ≠ 7 ∧
      s.regOpen = true ∧ s.host.msixEnable = true ∧ s.host.msixMask = false ∧ s.host.pba.getLsbD v.val = true) ∧
    (∃ (s : State) (v : Fin 256) (p : Pend), Sound s ∧ s.cfgOpen = true ∧ s.dmaOpen = true ∧ s.sys.stage ≠ 7 ∧
      s.host.msixEnable = true ∧ s.host.pba = 1#256 <<< v.val ∧ s.host.pend = [] ∧
      (s.reg (0x06000 + 16 * v.val + 12)).getLsbD 0 = false) ∧
    (∃ (s : State) (v : Fin 256) (p : Pend), Sound s ∧ s.cfgOpen = true ∧ s.dmaOpen = true ∧ s.sys.stage ≠ 7 ∧
      s.host.pend = [p] ∧ p.vector = v.val ∧ p.beat.toNat + 255005 < 2 ^ 64 ∧
      s.clk.beat.toNat ≤ p.beat.toNat + 1000 * p.time.toNat ∧ s.host.msixEnable = true ∧ masked v.val s = false) ∧
    (∃ (s : State) (v : Fin 256) (p : Pend), Sound s ∧ s.cfgOpen = true ∧ s.dmaOpen = true ∧ s.sys.stage ≠ 7 ∧
      s.host.pend = [p] ∧ p.vector = v.val ∧ p.beat.toNat + 255005 < 2 ^ 64 ∧
      s.clk.beat.toNat ≤ p.beat.toNat + 1000 * p.time.toNat ∧ s.host.msixEnable = true ∧ masked v.val s = true) ∧
    (∃ (s : State) (v : Fin 256) (p : Pend), Sound s ∧ s.cfgOpen = true ∧ s.dmaOpen = true ∧ s.sys.stage ≠ 7 ∧
      s.host.pend = [p] ∧ p.vector = v.val ∧ p.beat.toNat + 255005 < 2 ^ 64 ∧
      s.clk.beat.toNat ≤ p.beat.toNat + 1000 * p.time.toNat ∧ s.host.msixEnable = false) ∧
    (∃ (s : State) (v : Fin 256) (p : Pend), Sound s ∧ s.cfgOpen = true ∧ s.dmaOpen = true ∧ s.sys.stage ≠ 7 ∧
      s.host.pend = [p] ∧ p.vector = v.val ∧ p.time = 0 ∧ s.host.msixEnable = false ∧ s.host.pba = 0 ∧
      masked v.val s = false) :=
  ⟨⟨{ on with host := { on.host with msixEnable := true, pba := 1 <<< 255 } }, 255, ⟨.admin, 255, 1, 255, 1999745000⟩,
    sound_of rfl, rfl, rfl, by decide, rfl, rfl, rfl, rfl⟩,
   ⟨{ withRegs [(0x06FFC, 0)] with host := { on.host with msixEnable := true, pba := 1#256 <<< 255 } }, 255, ⟨.admin,
    255, 1, 255, 1999745000⟩, sound_of rfl, rfl, rfl, by decide, rfl, by decide, rfl, rfl⟩,
   ⟨{ withRegs [(0x06FFC, 0)] with host := { on.host with msixEnable := true, pend := [⟨.admin, 255, 1, 255, 1999745000⟩] } },
    255, ⟨.admin, 255, 1, 255, 1999745000⟩, sound_of rfl, rfl, rfl, by decide, rfl, rfl, by decide, by decide, rfl,
    rfl⟩,
   ⟨{ on with host := { on.host with msixEnable := true, pend := [⟨.admin, 255, 1, 255, 1999745000⟩] } }, 255,
    ⟨.admin, 255, 1, 255, 1999745000⟩, sound_of rfl, rfl, rfl, by decide, rfl, rfl, by decide, by decide, rfl, rfl⟩,
   ⟨{ on with host := { on.host with pend := [⟨.admin, 255, 1, 255, 1999745000⟩] } }, 255, ⟨.admin, 255, 1, 255,
    1999745000⟩, sound_of rfl, rfl, rfl, by decide, rfl, rfl, by decide, by decide, rfl⟩,
   ⟨{ withRegs [(0x0600C, 0)] with host := { on.host with pend := [⟨.admin, 0, 1, 0, 0⟩] } }, 0, ⟨.admin, 0, 1, 0, 0⟩,
    sound_of rfl, rfl, rfl, by decide, rfl, rfl, rfl, rfl, rfl, rfl⟩⟩

/-- RegisterReads: states and operands that meet the hypotheses of each clause. -/
theorem witness_RegisterReads :
    (∃ (s : State) (off len : Nat), 0 < len ∧ s.hostOpen = true ∧ 8 < off % 8 + len) ∧
    (∃ (s : State) (off len : Nat), 0 < len ∧ s.hostOpen = true ∧ off % 8 + len ≤ 8) ∧
    (∃ (s : State) (off len : Nat), 0 < len ∧ s.hostShut = true) ∧
    (∃ (s : State) (a : Nat), s.handedOff = true) ∧
    (∃ (s : State) (a : Nat), s.sys.stage = 8) ∧
    (∃ (s : State) (a : Nat), s.handedOff = false ∧ s.sys.stage ≠ 8) ∧
    (∃ s : State, s.hostOpen = true ∧ s.handedOff = true) :=
  ⟨⟨on, 1, 8, by decide, rfl, by decide⟩,
   ⟨on, 0, 8, by decide, rfl, by decide⟩,
   ⟨{ on with host := { on.host with mse := false } }, 0, 1, by decide, rfl⟩,
   ⟨on, 0, rfl⟩,
   ⟨{ on with sys := { stage := 8 } }, 0, rfl⟩,
   ⟨{ on with sys := { stage := 4 } }, 0, rfl, by decide⟩,
   ⟨on, rfl, rfl⟩⟩

/-- RegisterWrites: states and operands that meet the hypotheses of each clause. -/
theorem witness_RegisterWrites :
    (∃ (s : State) (a size : Nat) (full : Bool) (v : DWord), ∃ i, Sound s ∧ s.regOpen = true ∧ 0x0C000 ≤ a ∧
      a < 0x12000 ∧ a % 4 = 0 ∧ ¬ (0x0E104 ≤ a ∧ a < 0x0E180 ∧ a % 8 = 4) ∧ regInfo a = some i ∧
      regLegal s a (v.setWidth 32) = true) ∧
    (∃ (s : State) (a size : Nat) (full : Bool) (v : DWord), ∃ i, Sound s ∧ s.regOpen = true ∧ 0x0C000 ≤ a ∧
      a < 0x12000 ∧ a % 4 = 0 ∧ ¬ (0x0E104 ≤ a ∧ a < 0x0E180 ∧ a % 8 = 4) ∧ regInfo a = some i ∧
      regLegal s a (v.setWidth 32) = false ∧ s.sys.rejBeat ≠ s.clk.beat ∧ s.sys.rejValid = false) ∧
    (∃ (s : State) (a size : Nat) (full : Bool) (v : DWord), ∃ i, Sound s ∧ s.regOpen = true ∧ 0x0C000 ≤ a ∧
      a < 0x12000 ∧ a % 4 = 0 ∧ ¬ (0x0E104 ≤ a ∧ a < 0x0E180 ∧ a % 8 = 4) ∧ regInfo a = some i ∧
      regLegal s a (v.setWidth 32) = false ∧ s.sys.rejBeat ≠ s.clk.beat ∧ s.sys.rejValid = true) ∧
    (∃ (s : State) (a size : Nat) (full : Bool) (v : DWord), ∃ i, ∃ (k : BitVec 18) (x : Word), Sound s ∧
      s.regOpen = true ∧ 0x0C000 ≤ a ∧ a < 0x12000 ∧ a % 4 = 0 ∧ ¬ (0x0E104 ≤ a ∧ a < 0x0E180 ∧ a % 8 = 4) ∧
      regInfo a = some i ∧ regLegal s a (v.setWidth 32) = false ∧ s.sys.rejBeat = s.clk.beat ∧ s.sys.rejFresh = true ∧
      s.sys.rejNow = [(k, x)]) ∧
    (∃ (s : State) (a size : Nat) (full : Bool) (v : DWord), Sound s ∧ s.regOpen = true ∧ (full = false ∨ (size ≠ 4 ∧
      size ≠ 8) ∨ a % size ≠ 0)) ∧
    (∃ (s : State) (a size : Nat) (full : Bool) (v : DWord), Sound s ∧ s.regOpen = true ∧ v.getLsbD 0 = true ∧
      s.obs.hwBeat ≠ s.clk.beat) ∧
    (∃ (s : State) (a size : Nat) (full : Bool) (v : DWord), Sound s ∧ s.regOpen = true ∧ v.getLsbD 0 = true ∧
      s.obs.hwBeat = s.clk.beat ∧ (0x00020, 0) ∈ s.obs.hwSet) :=
  ⟨⟨on, 0x0C000, 4, true, 9, ⟨0xF, 0x4, true⟩, sound_of rfl, rfl, by decide, by decide, rfl, by decide, rfl, rfl⟩,
   ⟨on, 0x0C000, 4, true, 10, ⟨0xF, 0x4, true⟩, sound_of rfl, rfl, by decide, by decide, rfl, by decide, rfl, rfl,
    by decide, rfl⟩,
   ⟨{ on with sys := { stage := 6, rejValid := true, rejMore := 63 } }, 0x0C000, 4, true, 10, ⟨0xF, 0x4, true⟩,
    sound_of rfl, rfl, by decide, by decide, rfl, by decide, rfl, rfl, by decide, rfl⟩,
   ⟨{ on with sys := { stage := 6, rejValid := true, rejBeat := 2000000000, rejNow := [(0x0C400, 15)] } }, 0x0C000, 4,
    true, 10, ⟨0xF, 0x4, true⟩, 0x0C400, 15, sound_of rfl, rfl, by decide, by decide, rfl, by decide, rfl, rfl, rfl,
    rfl, rfl⟩,
   ⟨on, 0x0C002, 4, true, 0, sound_of rfl, rfl, by decide⟩,
   ⟨on, 0x00020, 4, true, 1, sound_of rfl, rfl, rfl, by decide⟩,
   ⟨{ on with obs := { hwBeat := 2000000000, hwSet := [(0x00020, 0)] } }, 0x00020, 4, true, 1, sound_of rfl, rfl, rfl,
    rfl, by decide⟩⟩

/-- OwnWriteRules: states and operands that meet the hypotheses of each clause. -/
theorem witness_OwnWriteRules :
    (∃ s : State, s.regOpen = true ∧ (s.sys.rejBeat ≠ s.clk.beat ∨ s.sys.rejNow = [])) ∧
    (∃ s : State, s.regOpen = true ∧ s.ring.admin.chain = none ∧ (∀ j ∈ s.ring.jobs, j.ctx ≠ .admin)) ∧
    (∃ (s : State) (v : Word), s.regOpen = true ∧ s.obs.placed = false) ∧
    (∃ (s : State) (v : Word),
      let inRing := bits 0 16 v < 2 ^ s.obs.logLog ∧ modSub (bits 0 16 v) s.obs.head.toNat (2 ^ s.obs.logLog) ≤ modSub s.obs.tail.toNat s.obs.head.toNat (2 ^ s.obs.logLog)
      s.regOpen = true ∧ s.obs.placed = true ∧ inRing) ∧
    (∃ (s : State) (v : Word),
      let inRing := bits 0 16 v < 2 ^ s.obs.logLog ∧ modSub (bits 0 16 v) s.obs.head.toNat (2 ^ s.obs.logLog) ≤ modSub s.obs.tail.toNat s.obs.head.toNat (2 ^ s.obs.logLog)
      s.regOpen = true ∧ s.obs.placed = true ∧ ¬ inRing) ∧
    (∃ (s : State) (n : Fin 16) (v : Word),
      let a := s.reg (0x0E100 + 8 * n.val)
      Sound s ∧ s.regOpen = true ∧ bits 1 3 v ≤ 3 ∧ (bits 0 1 v = 0 ∨ (bits 0 12 a ≤ bits 16 12 a ∧ bits 8 4 v ≠ 0 ∧
      bits 12 2 v ≠ 0))) ∧
    (∃ (s : State) (n : Fin 16) (v : Word),
      let a := s.reg (0x0E100 + 8 * n.val)
      Sound s ∧ s.regOpen = true ∧ bits 0 1 v = 1 ∧ (bits 16 12 a < bits 0 12 a ∨ bits 8 4 v = 0 ∨ bits 12 2 v = 0) ∧
      s.sys.rejBeat ≠ s.clk.beat) :=
  ⟨⟨on, rfl, by decide⟩,
   ⟨on, rfl, rfl, by decide⟩,
   ⟨on, 0, rfl, rfl⟩,
   ⟨{ on with obs := { placed := true, logLog := 7, head := 126, tail := 0 } }, 0, rfl, rfl, by decide⟩,
   ⟨{ on with obs := { placed := true, logLog := 7, head := 126, tail := 0 } }, 128, rfl, rfl, by decide⟩,
   ⟨withRegs [(0x0E178, 0x0FFF0FFF)], 15, 0x3FF7, sound_of rfl, rfl, by decide, by decide⟩,
   ⟨withRegs [(0x0E178, 0x0FFE0FFF)], 15, 0x3FF7, sound_of rfl, rfl, rfl, by decide, by decide⟩⟩

/-- DoorbellsAndImages: states and operands that meet the hypotheses of each clause. -/
theorem witness_DoorbellsAndImages :
    (∃ (s : State) (off size : Nat) (v : DWord) (w : WardId), Sound s ∧ s.regOpen = true ∧ size ≠ 4 ∧ size ≠ 8) ∧
    (∃ (s : State) (off size : Nat) (v : DWord) (w : WardId), Sound s ∧ s.regOpen = true ∧ 0x11000 ≤ off) ∧
    (∃ (s : State) (off size : Nat) (v : DWord) (w : WardId), Sound s ∧ s.regOpen = true ∧ s.host.flr = none ∧
      (s.ward w).configured = true ∧
      ((s.ward w).state = .sealed ∨ (s.ward w).state = .opened ∨ (s.ward w).state = .faulted) ∧
      (s.ward w).flush = none ∧ (v.setWidth 16).toNat < (s.ward w).ring.sqSize) ∧
    (∃ (s : State) (off size : Nat) (v : DWord) (w : WardId), Sound s ∧ s.regOpen = true ∧ s.host.flr = none ∧
      (s.ward w).configured = true ∧
      ((s.ward w).state = .sealed ∨ (s.ward w).state = .opened ∨ (s.ward w).state = .faulted) ∧
      (s.ward w).flush = none ∧ (s.ward w).ring.sqSize ≤ (v.setWidth 16).toNat) ∧
    (∃ (s : State) (off size : Nat) (v : DWord) (w : WardId), Sound s ∧ s.regOpen = true ∧ s.host.flr = none ∧
      ((s.ward w).configured = false ∨ (s.ward w).state = .resetting)) ∧
    (∃ (s : State) (off len : Nat), s.hostOpen = true ∧ 4096 < off % 4096 + len) ∧
    (∃ (s : State) (off len : Nat), s.hostOpen = true ∧ off % 4096 + len ≤ 4096) :=
  ⟨⟨on, 0, 2, 0, 0, sound_of rfl, rfl, by decide, by decide⟩,
   ⟨on, 0x11000, 4, 0, 0, sound_of rfl, rfl, by decide⟩,
   ⟨own (wd .sealed), 0, 4, 15, 0, sound_of rfl, rfl, rfl, rfl, by decide, rfl, by decide⟩,
   ⟨own (wd .sealed), 0, 4, 16, 0, sound_of rfl, rfl, rfl, rfl, by decide, rfl, by decide⟩,
   ⟨on, 0, 4, 0, 4095, sound_of rfl, rfl, rfl, by decide⟩,
   ⟨on, 4095, 2, rfl, by decide⟩,
   ⟨on, 4095, 1, rfl, by decide⟩⟩

/-- SourceToPll: states and operands that meet the hypotheses of each clause. -/
theorem witness_SourceToPll :
    (∃ s : State, s.regOpen = true ∧ s.clk.lock = false) ∧
    (∃ s : State, s.regOpen = true ∧ s.clk.lock = true ∧ s.clk.srcActive = false) ∧
    (∃ s : State, s.regOpen = true ∧ s.clk.lock = true ∧ s.clk.srcActive = true) :=
  ⟨⟨{ on with clk := { on.clk with lock := false } }, rfl, rfl⟩,
   ⟨{ on with clk := { on.clk with src := false, srcActive := false } }, rfl, rfl, rfl⟩,
   ⟨on, rfl, rfl, rfl⟩⟩

/-- SourceToOscillator: states and operands that meet the hypotheses of each clause. -/
theorem witness_SourceToOscillator :
    (∃ s : State, s.regOpen = true ∧ s.clk.srcActive = true) ∧
    (∃ s : State, s.regOpen = true ∧ s.clk.srcActive = false) ∧
    (∃ s : State, s.awake = true ∧ s.clk.pllEnabled = true) ∧
    (∃ s : State, s.awake = true ∧ s.clk.lock = true ∧ s.clk.srcActive = true) ∧
    (∃ s : State, s.awake = true ∧ s.clk.lock = true ∧ s.clk.srcActive = false) :=
  ⟨⟨on, rfl, rfl⟩,
   ⟨{ on with clk := { on.clk with srcActive := false } }, rfl, rfl⟩,
   ⟨on, rfl, rfl⟩,
   ⟨on, rfl, rfl, rfl⟩,
   ⟨{ on with clk := { on.clk with src := false, srcActive := false } }, rfl, rfl, rfl⟩⟩

/-- SetTai: states and operands that meet the hypotheses of each clause. -/
theorem witness_SetTai :
    (∃ s : State, s.regOpen = true ∧ s.clk.srcActive = true ∧
      (s.inService = false ∨ s.clk.taiValid = false ∨ s.tai ≤ s.taiSet)) ∧
    (∃ s : State, s.regOpen = true ∧ (s.clk.srcActive = false ∨ (s.inService = true ∧ s.clk.taiValid = true ∧
      s.taiSet < s.tai))) ∧
    (∃ s : State, s.regOpen = true ∧ s.clk.srcActive = true ∧ s.ppsMode ≠ 0 ∧ s.pinWith 0x6 0 ≠ none) ∧
    (∃ s : State, s.regOpen = true ∧ (s.clk.srcActive = false ∨ s.ppsMode = 0 ∨ s.pinWith 0x6 0 = none)) ∧
    (∃ (s : State) (b : DWord), s.awake = true ∧ s.clk.setAtPps = some b ∧ b.toNat ≤ s.clk.beat.toNat ∧
      s.clk.beat.toNat ≤ b.toNat + 1100000000 ∧ b.toNat + 1100000005 < 2 ^ 64) :=
  ⟨⟨on, rfl, rfl, by decide⟩,
   ⟨{ pw (fun p => { p with mode := .service }) with clk := { on.clk with taiValid := true, taiQ := 1 <<< 32 } }, rfl,
    by decide⟩,
   ⟨{ withRegs [(0x02028, 2)] with pin := { cfg := [(0, 6)] } }, rfl, rfl, by decide, by decide⟩,
   ⟨on, rfl, by decide⟩,
   ⟨{ on with clk := { on.clk with setAtPps := some 900000000 } }, 900000000, rfl, rfl, by decide, by decide,
    by decide⟩⟩

/-- TaiRate: states and operands that meet the hypotheses of each clause. -/
theorem witness_TaiRate :
    (∃ (s : State) (v : Word), Sound s ∧ s.regOpen = true ∧ v.toInt.natAbs ≤ 0x20C49C) ∧
    (∃ (s : State) (v : Word), Sound s ∧ s.regOpen = true ∧ 0x20C49C < v.toInt.natAbs) :=
  ⟨⟨on, 0x20C49C, sound_of rfl, rfl, by decide⟩,
   ⟨on, 0x20C49D, sound_of rfl, rfl, by decide⟩⟩

/-- PpsInput: states and operands that meet the hypotheses of each clause. -/
theorem witness_PpsInput :
    (∃ (s : State) (v : Word), Sound s ∧ s.regOpen = true ∧ bits 0 2 v = 3 ∧ s.sys.rejBeat ≠ s.clk.beat) ∧
    (∃ (s : State) (v : Word), ∃ b, Sound s ∧ s.regOpen = true ∧ bits 0 2 v = 0 ∧ s.clk.setAtPps = some b) ∧
    (∃ (s : State) (v : Word), Sound s ∧ s.regOpen = true ∧ (bits 0 2 v = 1 ∨ bits 0 2 v = 2) ∧ s.ppsMode = 0) ∧
    (∃ s : State, Sound s ∧ s.handedOff = true ∧ s.ppsMode ≠ 0 ∧ s.ppsPin ≠ none ∧ s.clk.slewLeft = 0 ∧
      (s.clk.lastEdge = none ∨ (∃ b, s.clk.lastEdge = some b ∧ b.toNat + 900000000 ≤ s.clk.beat.toNat))) ∧
    (∃ s : State, ∃ b, Sound s ∧ s.handedOff = true ∧ s.ppsMode ≠ 0 ∧ s.ppsPin ≠ none ∧ s.clk.slewLeft = 0 ∧
      s.clk.lastEdge = some b ∧ s.clk.beat.toNat < b.toNat + 900000000) :=
  ⟨⟨on, 3, sound_of rfl, rfl, rfl, by decide⟩,
   ⟨{ on with clk := { on.clk with setAtPps := some 0 } }, 0, 0, sound_of rfl, rfl, rfl, rfl⟩,
   ⟨on, 2, sound_of rfl, rfl, by decide, rfl⟩,
   ⟨{ withRegs [(0x02028, 2)] with pin := { cfg := [(0, 6)] }, clk := { on.clk with lastEdge := some 1100000000 } },
    sound_of rfl, rfl, by decide, by decide, rfl, .inr ⟨1100000000, rfl, by decide⟩⟩,
   ⟨{ withRegs [(0x02028, 2)] with pin := { cfg := [(0, 6)] }, clk := { on.clk with lastEdge := some 1100000001 } },
    1100000001, sound_of rfl, rfl, by decide, by decide, rfl, rfl, by decide⟩⟩

/-- PpsOutput: states and operands that meet the hypotheses of each clause. -/
theorem witness_PpsOutput :
    (∃ s : State, s.awake = true ∧ s.clk.srcActive = true ∧ s.clk.slewLeft ≠ 0 ∧
      s.clk.beat.toNat ≤ s.clk.slewDue.toNat) ∧
    (∃ s : State, ∃ f : Nat, s.handedOff = true ∧ s.ppsMode ≠ 0 ∧
      f = max s.clk.leftOff.toNat ((s.clk.lastEdge.map BitVec.toNat).getD 0) ∧ s.clk.beat.toNat ≤ f + 1100000000 ∧
      f + 1100000010 < 2 ^ 64) ∧
    (∃ (s : State) (n : Nat), s.awake = true ∧ s.clk.srcActive = true ∧ s.clk.taiValid = true ∧
      (s.reg 0x02000).getLsbD 1 = true ∧ s.taiRate = 0 ∧ s.clk.slewLeft = 0 ∧
      s.clk.taiQ = BitVec.ofNat 96 (n * 4294967296) ∧ n + 4000000000 < 2 ^ 64 ∧ s.clk.ppsOut = true ∧
      s.clk.ppsOutFrom.toNat = n / 1000000000 * 1000000000 ∧ n < s.clk.ppsOutFrom.toNat + 100000000) :=
  ⟨⟨{ on with clk := { on.clk with slewLeft := 1, slewDue := 2000000000 } }, rfl, rfl, by decide, by decide⟩,
   ⟨{ withRegs [(0x02028, 2)] with pin := { cfg := [(0, 6)] }, clk := { on.clk with leftOff := 900000000 } },
    900000000, rfl, by decide, rfl, by decide, by decide⟩,
   ⟨{ withRegs [(0x02000, 2)] with clk := { on.clk with taiValid := true, ppsOut := true, taiQ := 99999999 * 4294967296 } },
    99999999, rfl, rfl, rfl, rfl, rfl, rfl, rfl, by decide, rfl, rfl, by decide⟩⟩

/-- TicksAndImages: states and operands that meet the hypotheses of each clause. -/
theorem witness_TicksAndImages :
    (∃ (s : State) (e : TickEnv), ∃ b r, Sound s ∧ s.handedOff = true ∧ s.clk.due = b :: r) ∧
    (∃ (s : State) (e : TickEnv), Sound s ∧ s.handedOff = true ∧ s.clk.due = [] ∧ e.hinges = [] ∧
      s.clk.beat.toNat / 1000000 = s.clk.tickDone ∧ s.clk.beat.toNat + 1000010 < 2 ^ 64) ∧
    (∃ s : State, s.handedOff = true ∧ s.obs.publishing = true) :=
  ⟨⟨{ on with clk := { on.clk with due := [1999000000] } }, env, 1999000000, [], sound_of rfl, rfl, rfl⟩,
   ⟨{ on with clk := { on.clk with tickDone := 2000 } }, env, sound_of rfl, rfl, rfl, rfl, rfl, by decide⟩,
   ⟨{ on with obs := { publishing := true } }, rfl, rfl⟩⟩

/-- FailureLimits: states and operands that meet the hypotheses of each clause. -/
theorem witness_FailureLimits :
    (∃ s : State, s.sec.session = true ∧ s.idleLimit ≤ s.sec.idleTicks ∧
      (∀ j ∈ s.ring.jobs, j.needsSession = true → j.at_ ≠ s.clk.beat)) ∧
    (∃ s : State, ∃ j, s.sec.session = true ∧ s.idleLimit ≤ s.sec.idleTicks ∧ s.ring.jobs = [j] ∧
      j.needsSession = true ∧ j.at_ = s.clk.beat) ∧
    (∃ s : State, s.sec.officerLocked = false ∧ 8 ≤ s.sec.officerFails.toNat) ∧
    (∃ s : State, s.sec.officerLocked = true ∧ s.sec.lockoutLeft = 0) ∧
    (∃ (s : State) (w : WardId), Sound s ∧ ((s.ward w).state = .sealed ∨ (s.ward w).state = .opened) ∧
      8 ≤ (s.ward w).fails) ∧
    (∃ (s : State) (w : WardId), Sound s ∧ ((s.ward w).state = .sealed ∨ (s.ward w).state = .opened) ∧
      (s.ward w).malformedLimit ≠ 0 ∧ (s.ward w).malformedLimit.toNat < (s.ward w).malformed) :=
  ⟨⟨{ on with sec := { on.sec with session := true, idleTicks := 300000 } }, rfl, by decide, by decide⟩,
   ⟨{ run { jb .admin 0x48 [] with at_ := 2000000000 } with sec := { on.sec with session := true, idleTicks := 300000 } },
    { jb .admin 0x48 [] with at_ := 2000000000 }, rfl, by decide, rfl, rfl, rfl⟩,
   ⟨{ on with sec := { on.sec with officerFails := 8 } }, rfl, by decide⟩,
   ⟨{ on with sec := { on.sec with officerLocked := true } }, rfl, rfl⟩,
   ⟨own { wd .sealed with fails := 8 }, 0, sound_of rfl, by decide, by decide⟩,
   ⟨own { wd .opened with malformed := 65 }, 0, sound_of rfl, by decide, by decide, by decide⟩⟩

/-- SafeHoldTriggers: states and operands that meet the hypotheses of each clause. -/
theorem witness_SafeHoldTriggers :
    (∃ (s : State) (adaptive : Bool), s.inService = true ∧
      (s.stallTicks ≤ s.sys.stallNoWrite ∨ s.stallTicks ≤ s.sys.stallNoRelease)) ∧
    (∃ (s : State) (adaptive : Bool), s.handedOff = true ∧ s.sec.drbgReady = true ∧ s.sec.error = false) ∧
    (∃ s : State, s.sec.drbgReady = true ∧ 65536 ≤ s.sec.drbgSince) :=
  ⟨⟨{ sv with sys := { stage := 6, stallNoWrite := 1000 } }, true, rfl, by decide⟩,
   ⟨on, true, rfl, rfl, rfl⟩,
   ⟨{ on with sec := { on.sec with drbgSince := 65536 } }, rfl, by decide⟩⟩

/-- EntriesAreRequested: states and operands that meet the hypotheses of each clause. -/
theorem witness_EntriesAreRequested :
    (∃ s : State, Sound s ∧ fetchOpen s = true ∧ s.ring.enable = true ∧ s.ring.fetching = true ∧
      s.ring.adminTaken < 8 ∧ s.ring.admin.avail = 1 ∧ 0 < s.ring.admin.free ∧
      modSub s.ring.admin.next s.ring.admin.sqHead s.ring.admin.sqSize + 1 = modSub ((s.ring.admin.next + 1) % s.ring.admin.sqSize) s.ring.admin.sqHead s.ring.admin.sqSize) ∧
    (∃ s : State, Sound s ∧ fetchOpen s = true ∧
      (s.ring.enable = false ∨ s.ring.fetching = false ∨ s.ring.admin.avail = 0 ∨ s.ring.admin.free = 0) ∧
      s.ring.adminTaken < 8) ∧
    (∃ s : State, ∃ w, Sound s ∧ fetchOpen s = true ∧ s.ring.adminTaken = 8 ∧ w ∈ s.usedWards ∧ eligible s w = true) ∧
    (∃ s : State, ∃ w u, Sound s ∧ fetchOpen s = true ∧
      (s.ring.enable = false ∨ s.ring.fetching = false ∨ s.ring.admin.avail = 0) ∧ s.ring.turn = none ∧ s.intake < 2 ∧
      nextTurn s = (some w, u)) :=
  ⟨⟨{ on with ring := { on.ring with admin := { sqLog := 4, cqLog := 4, sqTail := 1 }, adminTaken := 7 } },
    sound_of rfl, rfl, rfl, rfl, by decide, rfl, by decide, rfl⟩,
   ⟨on, sound_of rfl, rfl, by decide, by decide⟩,
   ⟨{ own { wd .opened with credit := 1, ring := { sqLog := 4, cqLog := 4, sqTail := 1 } } with ring := { on.ring with adminTaken := 8 } },
    0, sound_of rfl, rfl, rfl, by decide, rfl⟩,
   ⟨own { wd .opened with credit := 1, ring := { sqLog := 4, cqLog := 4, sqTail := 1 } }, 0,
    own { wd .opened with credit := 1, ring := { sqLog := 4, cqLog := 4, sqTail := 1 } }, sound_of rfl, rfl,
    by decide, rfl, by decide, rfl⟩⟩

/-- EntriesBecomeJobs: states and operands that meet the hypotheses of each clause. -/
theorem witness_EntriesBecomeJobs :
    (∃ (s : State) (c : Ctx) (e : Bytes) (r : RingRead) (l : List RingRead), Sound s ∧ s.awake = true ∧
      readsOf c s = r :: l ∧ r.tries ≠ 1 ∧ s.ring.turn = none ∧ e.length = 64 ∧
      (∀ w, c = .ward w → (s.ward w).flush = none) ∧ (s.ringOf c).chain = none ∧ (∀ j ∈ s.ring.jobs, j.toAsk = []) ∧
      (r.slot ≠ (s.ringOf c).sqHead ∨ (s.ringOf c).sqHead = (s.ringOf c).sqTail)) ∧
    (∃ (s : State) (c : Ctx) (e : Bytes) (r : RingRead) (l : List RingRead), Sound s ∧ s.awake = true ∧
      readsOf c s = r :: l ∧ r.tries ≠ 1 ∧ s.ring.turn = none ∧ e.length = 64 ∧
      (∀ w, c = .ward w → (s.ward w).flush = none) ∧ (s.ringOf c).chain = none ∧ (∀ j ∈ s.ring.jobs, j.toAsk = []) ∧
      r.slot = (s.ringOf c).sqHead ∧ (s.ringOf c).sqHead ≠ (s.ringOf c).sqTail ∧ entFirst e = true ∧
      entLast e = false) ∧
    (∃ (s : State) (c : Ctx) (e : Bytes) (r : RingRead) (l : List RingRead), Sound s ∧ s.awake = true ∧
      readsOf c s = r :: l ∧ r.tries ≠ 1 ∧ s.ring.turn = none ∧ e.length = 64 ∧
      (∀ w, c = .ward w → (s.ward w).flush = none) ∧ (s.ringOf c).chain = none ∧ (∀ j ∈ s.ring.jobs, j.toAsk = []) ∧
      r.slot = (s.ringOf c).sqHead ∧ (s.ringOf c).sqHead ≠ (s.ringOf c).sqTail ∧ entFirst e = true ∧
      entLast e = true ∧ opIntent (byteAt 0 e).toNat = false ∧ checkEntries c none [e] s = .pass ∧
      (∀ j ∈ s.ring.jobs, j.id < s.ring.nextJob)) :=
  ⟨⟨{ on with host := { on.host with reads := [⟨.admin, 0, 0, 0, 0⟩] } }, .admin, ent 0x40 [], ⟨.admin, 0, 0, 0, 0⟩,
    [], sound_of rfl, rfl, rfl, by decide, rfl, rfl, (fun _ h => nomatch h), rfl, by decide, by decide⟩,
   ⟨{ on with host := { on.host with reads := [⟨.admin, 0, 0, 0, 0⟩] }, ring := { on.ring with admin := { sqLog := 4, cqLog := 4, sqTail := 1, next := 1, reserved := 1 } } },
    .admin, ent 0x40 [] 1, ⟨.admin, 0, 0, 0, 0⟩, [], sound_of rfl, rfl, rfl, by decide, rfl, rfl,
    (fun _ h => nomatch h), rfl, by decide, rfl, by decide, rfl, rfl⟩,
   ⟨{ on with host := { on.host with reads := [⟨.admin, 0, 0, 0, 0⟩] }, ring := { on.ring with admin := { sqLog := 4, cqLog := 4, sqTail := 1, next := 1, reserved := 1 } } },
    .admin, ent 0x40 [(0x19, 1)], ⟨.admin, 0, 0, 0, 0⟩, [], sound_of rfl, rfl, rfl, by decide, rfl, rfl,
    (fun _ h => nomatch h), rfl, by decide, rfl, by decide, rfl, rfl, rfl, rfl, by decide⟩⟩

/-- RingReadFailures: states and operands that meet the hypotheses of each clause. -/
theorem witness_RingReadFailures :
    (∃ (s : State) (c : Ctx) (why : ReadFail) (r : RingRead) (l : List RingRead), Sound s ∧ s.awake = true ∧
      readsOf c s = r :: l ∧ r.tries = 0) ∧
    (∃ (s : State) (c : Ctx) (why : ReadFail) (r : RingRead) (l : List RingRead), Sound s ∧ s.awake = true ∧
      readsOf c s = r :: l ∧ r.tries = 1 ∧ s.clk.beat.toNat ≤ r.failed.toNat + 1000 ∧ r.failed.toNat + 1010 < 2 ^ 64 ∧
      modSub r.slot (s.ringOf c).sqHead (s.ringOf c).sqSize < modSub (s.ringOf c).sqTail (s.ringOf c).sqHead (s.ringOf c).sqSize) ∧
    (∃ (s : State) (c : Ctx) (why : ReadFail) (r : RingRead) (l : List RingRead), Sound s ∧ s.awake = true ∧
      readsOf c s = r :: l ∧ r.tries = 1 ∧ s.clk.beat.toNat ≤ r.failed.toNat + 1000 ∧ r.failed.toNat + 1010 < 2 ^ 64 ∧
      modSub (s.ringOf c).sqTail (s.ringOf c).sqHead (s.ringOf c).sqSize ≤ modSub r.slot (s.ringOf c).sqHead (s.ringOf c).sqSize ∧
      s.ring.turn = none) ∧
    (∃ (s : State) (c : Ctx) (why : ReadFail) (r : RingRead) (l : List RingRead), Sound s ∧ s.awake = true ∧
      readsOf c s = r :: l ∧ 2 ≤ r.tries ∧ c = .admin) ∧
    (∃ (s : State) (c : Ctx) (why : ReadFail) (r : RingRead) (l : List RingRead), ∃ w, Sound s ∧ s.awake = true ∧
      readsOf c s = r :: l ∧ 2 ≤ r.tries ∧ c = .ward w ∧ ((s.ward w).state = .sealed ∨ (s.ward w).state = .opened)) :=
  ⟨⟨{ own (wd .sealed) with host := { on.host with reads := [⟨.admin, 0, 0, 1999999000, 0⟩] }, ring := { on.ring with admin := { sqLog := 4, cqLog := 4, sqTail := 1, next := 1, reserved := 1 } } },
    .admin, .abort, ⟨.admin, 0, 0, 1999999000, 0⟩, [], sound_of rfl, rfl, rfl, rfl⟩,
   ⟨{ own (wd .sealed) with host := { on.host with reads := [⟨.admin, 0, 1, 1999999000, 0⟩] }, ring := { on.ring with admin := { sqLog := 4, cqLog := 4, sqTail := 1, next := 1, reserved := 1 } } },
    .admin, .abort, ⟨.admin, 0, 1, 1999999000, 0⟩, [], sound_of rfl, rfl, rfl, rfl, by decide, by decide, by decide⟩,
   ⟨{ own (wd .sealed) with host := { on.host with reads := [⟨.admin, 0, 1, 1999999000, 0⟩] }, ring := { on.ring with admin := { sqLog := 4, cqLog := 4, sqTail := 0, next := 1, reserved := 1 } } },
    .admin, .abort, ⟨.admin, 0, 1, 1999999000, 0⟩, [], sound_of rfl, rfl, rfl, rfl, by decide, by decide, by decide,
    rfl⟩,
   ⟨{ own (wd .sealed) with host := { on.host with reads := [⟨.admin, 0, 2, 1999999000, 0⟩] }, ring := { on.ring with admin := { sqLog := 4, cqLog := 4, sqTail := 1, next := 1, reserved := 1 } } },
    .admin, .abort, ⟨.admin, 0, 2, 1999999000, 0⟩, [], sound_of rfl, rfl, rfl, by decide, rfl⟩,
   ⟨{ own (wd .sealed) with host := { on.host with reads := [⟨.ward 0, 0, 2, 1999999000, 0⟩] }, ring := { on.ring with admin := { sqLog := 4, cqLog := 4, sqTail := 1, next := 1, reserved := 1 } } },
    .ward 0, .abort, ⟨.ward 0, 0, 2, 1999999000, 0⟩, [], 0, sound_of rfl, rfl, rfl, by decide, rfl, by decide⟩⟩

/-- JobsMoveOn: states and operands that meet the hypotheses of each clause. -/
theorem witness_JobsMoveOn :
    (∃ (s : State) (id : Nat) (j : Job) (data : Bytes) (why : ReadFail), Sound s ∧ s.awake = true ∧
      s.job id = some j ∧ (∀ k ∈ listDrop (fun x => x.id == id) s.ring.jobs, k.toAsk = []) ∧
      (j.phase = .needData ∨ j.phase = .needTable)) ∧
    (∃ (s : State) (id : Nat) (j : Job) (data : Bytes) (why : ReadFail), Sound s ∧ s.awake = true ∧
      s.job id = some j ∧ (∀ k ∈ listDrop (fun x => x.id == id) s.ring.jobs, k.toAsk = []) ∧ s.dmaOpen = true ∧
      j.phase = .needData) ∧
    (∃ (s : State) (id : Nat) (j : Job) (data : Bytes) (why : ReadFail),
      let l := fragments (entLen j.entry) (fit (16 * entLen j.entry) data)
      Sound s ∧ s.awake = true ∧ s.job id = some j ∧
      (∀ k ∈ listDrop (fun x => x.id == id) s.ring.jobs, k.toAsk = []) ∧ s.dmaOpen = true ∧ j.phase = .needTable ∧
      checkTable j.entry l = .pass ∧ opIntent j.op.toNat = false) ∧
    (∃ (s : State) (id : Nat) (j : Job) (data : Bytes) (why : ReadFail),
      let l := fragments (entLen j.entry) (fit (16 * entLen j.entry) data)
      Sound s ∧ s.awake = true ∧ s.job id = some j ∧
      (∀ k ∈ listDrop (fun x => x.id == id) s.ring.jobs, k.toAsk = []) ∧ s.dmaOpen = true ∧ j.phase = .needTable ∧
      checkTable j.entry l = .error 0x23 (some 0) ∧ j.toAsk = []) ∧
    (∃ (s : State) (id : Nat) (j : Job) (data : Bytes) (why : ReadFail), Sound s ∧ s.awake = true ∧
      s.job id = some j ∧ (∀ k ∈ listDrop (fun x => x.id == id) s.ring.jobs, k.toAsk = []) ∧ j.phase = .waiting ∧
      blocked j s = false ∧ earlierMedia j s = false) ∧
    (∃ (s : State) (id : Nat) (j : Job) (data : Bytes) (why : ReadFail), Sound s ∧ s.awake = true ∧
      s.job id = some j ∧ (∀ k ∈ listDrop (fun x => x.id == id) s.ring.jobs, k.toAsk = []) ∧ j.phase = .waiting ∧
      blocked j s = true) ∧
    (∃ (s : State) (id : Nat) (j : Job) (data : Bytes) (why : ReadFail), Sound s ∧ s.awake = true ∧
      s.job id = some j ∧ (∀ k ∈ listDrop (fun x => x.id == id) s.ring.jobs, k.toAsk = []) ∧ j.phase = .heldReset ∧
      holds j s = false ∧ blocked j s = false ∧ turnedAway j s = false ∧ j.op ≠ 0x4E ∧
      (j.op = 0x4A → (s.ward j.named).state ≠ .sealed) ∧ j.data = []) ∧
    (∃ (s : State) (id : Nat) (j : Job) (data : Bytes) (why : ReadFail), Sound s ∧ s.awake = true ∧
      s.job id = some j ∧ (∀ k ∈ listDrop (fun x => x.id == id) s.ring.jobs, k.toAsk = []) ∧ j.phase = .heldReset ∧
      holds j s = false ∧ blocked j s = false ∧ turnedAway j s = false ∧ LedgerOpen s ∧ (j.op = 0x4E ∨ (j.op = 0x4A ∧
      (s.ward j.named).state = .sealed))) ∧
    (∃ (s : State) (id : Nat) (j : Job) (data : Bytes) (why : ReadFail), Sound s ∧ s.awake = true ∧
      s.job id = some j ∧ (∀ k ∈ listDrop (fun x => x.id == id) s.ring.jobs, k.toAsk = []) ∧ j.phase = .heldIntent ∧
      stepEight j s = .inl .ready ∧ holds j s = false) ∧
    (∃ (s : State) (id : Nat) (j : Job) (data : Bytes) (why : ReadFail), ∃ c ch, Sound s ∧ s.awake = true ∧
      s.job id = some j ∧ (∀ k ∈ listDrop (fun x => x.id == id) s.ring.jobs, k.toAsk = []) ∧
      (s.ringOf c).chain = some ch ∧ chainCounts c s = true ∧ bits 0 8 (s.reg 0x08030) ≠ 0 ∧
      bits 0 8 (s.reg 0x08030) < (s.ringOf c).chainTicks ∧ s.ring.applying = false) :=
  ⟨⟨run (jb (.ward 0) 2 [(0x28, 1)] .needData) (own (wd .opened) sv), 0, jb (.ward 0) 2 [(0x28, 1)] .needData, [],
    .abort, sound_of rfl, rfl, rfl, by decide, by decide⟩,
   ⟨run (jb (.ward 0) 2 [(0x28, 1)] .needData) (own (wd .opened) sv), 0, jb (.ward 0) 2 [(0x28, 1)] .needData, [],
    .abort, sound_of rfl, rfl, rfl, by decide, rfl, rfl⟩,
   ⟨run { jb .admin 0x40 [] .needTable with entry := ent 0x40 [(0x18, 1)] 7 } on, 0,
    { jb .admin 0x40 [] .needTable with entry := ent 0x40 [(0x18, 1)] 7 },
    [0, 0, 0, 0, 0, 0, 0, 0, 0, 1, 0, 0, 0, 0, 0, 0], .abort, sound_of rfl, rfl, rfl, by decide, rfl, rfl, rfl, rfl⟩,
   ⟨run { jb .admin 0x40 [] .needTable with entry := ent 0x40 [(0x18, 1)] 7 } on, 0,
    { jb .admin 0x40 [] .needTable with entry := ent 0x40 [(0x18, 1)] 7 },
    [0, 0, 0, 0, 0, 0, 0, 0, 252, 0, 0, 0, 0, 0, 0, 0], .abort, sound_of rfl, rfl, rfl, by decide, rfl, rfl, rfl,
    rfl⟩,
   ⟨run (jb (.ward 0) 2 [(0x28, 1)] .waiting) (own (wd .opened) sv), 0, jb (.ward 0) 2 [(0x28, 1)] .waiting, [],
    .abort, sound_of rfl, rfl, rfl, by decide, rfl, rfl, rfl⟩,
   ⟨run (jb (.ward 0) 2 [(0x28, 1)] .waiting) (own (wd .opened)), 0, jb (.ward 0) 2 [(0x28, 1)] .waiting, [], .abort,
    sound_of rfl, rfl, rfl, by decide, rfl, rfl⟩,
   ⟨run (jb .admin 0x4D [] .heldReset) (own (wd .sealed)), 0, jb .admin 0x4D [] .heldReset, [], .abort, sound_of rfl,
    rfl, rfl, by decide, rfl, rfl, rfl, rfl, by decide, by decide, rfl⟩,
   ⟨run (jb .admin 0x4E [] .heldReset) (own (wd .sealed)), 0, jb .admin 0x4E [] .heldReset, [], .abort, sound_of rfl,
    rfl, rfl, by decide, rfl, rfl, rfl, rfl, ⟨rfl, rfl, by decide⟩, by decide⟩,
   ⟨run (jb (.ward 0) 2 [(0x08, 1), (0x28, 1)] .heldIntent) (own (wd .opened) sv), 0,
    jb (.ward 0) 2 [(0x08, 1), (0x28, 1)] .heldIntent, [], .abort, sound_of rfl, rfl, rfl, by decide, rfl, rfl, rfl⟩,
   ⟨run (jb (.ward 0) 2 [(0x28, 1)] .waiting) (own { wd .opened with ring := { sqLog := 4, cqLog := 4, chain := some { first := ent 2 [] 1 }, chainTicks := 11 } } sv),
    0, jb (.ward 0) 2 [(0x28, 1)] .waiting, [], .abort, .ward 0, { first := ent 2 [] 1 }, sound_of rfl, rfl, rfl,
    by decide, rfl, rfl, by decide, by decide, rfl⟩⟩

/-- WardReads: states and operands that meet the hypotheses of each clause. -/
theorem witness_WardReads :
    (∃ (s : State) (id : Nat) (w : WardId) (j : Job), ∃ space first count, Sound s ∧ WardBegins id 0x01 w .ready j s ∧
      j.range = (space, first, count) ∧ readEnd (s.ward w) space < first + count) ∧
    (∃ (s : State) (id : Nat) (w : WardId) (j : Job), ∃ space first count, Sound s ∧ WardBegins id 0x01 w .ready j s ∧
      j.range = (space, first, count) ∧ first + count ≤ readEnd (s.ward w) space ∧ s.readBlocks + count ≤ 512 ∧
      s.kccReady = true ∧ s.kccEntry w = none) ∧
    (∃ (s : State) (id : Nat) (w : WardId) (j : Job), ∃ space first count, ∃ k a n,
      let looks := (List.range count).map (fun i => firstLook w space (first + i) k.keys s)
      Sound s ∧ WardBegins id 0x01 w .ready j s ∧ j.range = (space, first, count) ∧
      first + count ≤ readEnd (s.ward w) space ∧ s.readBlocks + count ≤ 512 ∧ s.kccReady = true ∧
      s.kccEntry w = some k ∧ 0 < count ∧ j.segs = [(a, n)] ∧ (∀ b ∈ looks, b.waits = false) ∧
      BlkRes.unrecoverable ∉ looks) ∧
    (∃ (s : State) (id : Nat) (w : WardId) (j : Job), ∃ space first count, ∃ k a n,
      let looks := (List.range count).map (fun i => firstLook w space (first + i) k.keys s)
      ∃ i, Sound s ∧ WardBegins id 0x01 w .ready j s ∧ j.range = (space, first, count) ∧
      first + count ≤ readEnd (s.ward w) space ∧ s.readBlocks + count ≤ 512 ∧ s.kccReady = true ∧
      s.kccEntry w = some k ∧ 0 < count ∧ j.segs = [(a, n)] ∧ (∀ b ∈ looks, b.waits = false) ∧
      looks.findIdx? (fun b => decide (b = .unrecoverable)) = some i) ∧
    (∃ (s : State) (id : Nat) (w : WardId) (j : Job), ∃ space first count, ∃ k slot, Sound s ∧
      WardBegins id 0x01 w .ready j s ∧ j.range = (space, first, count) ∧ first + count ≤ readEnd (s.ward w) space ∧
      s.readBlocks + count ≤ 512 ∧ s.kccReady = true ∧ s.kccEntry w = some k ∧ readsRecord w j slot s = true) ∧
    (∃ (s : State) (id : Nat) (w : WardId) (j : Job), ∃ a n, Sound s ∧ WardBegins id 0x07 w .ready j s ∧
      j.segs = [(a, n)]) :=
  ⟨⟨run (jb (.ward 0) 1 [(0x20, 16), (0x28, 1)] .ready [] [(0, 4096)]) (own (wd .opened) sv), 0, 0,
    jb (.ward 0) 1 [(0x20, 16), (0x28, 1)] .ready [] [(0, 4096)], 0, 16, 1, sound_of rfl,
    ⟨rfl, rfl, rfl, rfl, rfl, rfl, by decide⟩, rfl, by decide⟩,
   ⟨run (jb (.ward 0) 1 [(0x20, 15), (0x28, 1)] .ready [] [(0, 4096)]) (own (wd .opened) sv), 0, 0,
    jb (.ward 0) 1 [(0x20, 15), (0x28, 1)] .ready [] [(0, 4096)], 0, 15, 1, sound_of rfl, ⟨rfl, rfl, rfl, rfl, rfl,
    rfl, by decide⟩, rfl, by decide, by decide, rfl, rfl⟩,
   ⟨run (jb (.ward 0) 1 [(0x20, 15), (0x28, 1)] .ready [] [(0, 4096)]) ({ own (wd .opened) sv with kcc := { ready := true, entries := [⟨0, 1, 5⟩] }, wards := [(0, { wd .opened with trims := [(15, 1)] })] }),
    0, 0, jb (.ward 0) 1 [(0x20, 15), (0x28, 1)] .ready [] [(0, 4096)], 0, 15, 1, ⟨0, 1, 5⟩, 0, 4096, sound_of rfl,
    ⟨rfl, rfl, rfl, rfl, rfl, rfl, by decide⟩, rfl, by decide, by decide, rfl, rfl, by decide, rfl, by decide,
    by decide⟩,
   ⟨run (jb (.ward 0) 1 [(0x20, 15), (0x28, 1)] .ready [] [(0, 4096)]) ({ own (wd .opened) sv with kcc := { ready := true, entries := [⟨0, 1, 5⟩] }, groups := [(0, { gr with failed := [1, 2], down := true })] }),
    0, 0, jb (.ward 0) 1 [(0x20, 15), (0x28, 1)] .ready [] [(0, 4096)], 0, 15, 1, ⟨0, 1, 5⟩, 0, 4096, 0, sound_of rfl,
    ⟨rfl, rfl, rfl, rfl, rfl, rfl, by decide⟩, rfl, by decide, by decide, rfl, rfl, by decide, rfl, by decide, rfl⟩,
   ⟨run (jb (.ward 0) 1 [(0x20, 15), (0x28, 1)] .ready [] [(0, 4096)]) ({ own (wd .opened) sv with kcc := { ready := true, entries := [⟨0, 1, 5⟩] }, ledger := { nextSerial := 9, intents := [{ it (.ward 0) 2 .none with phase := .committed, datas := [({ serial := 3, addr := ⟨0, 0, 0, 15⟩, sector := sec, slot := 5 } : DataRec)] }] } }),
    0, 0, jb (.ward 0) 1 [(0x20, 15), (0x28, 1)] .ready [] [(0, 4096)], 0, 15, 1, ⟨0, 1, 5⟩, 5, sound_of rfl, ⟨rfl,
    rfl, rfl, rfl, rfl, rfl, by decide⟩, rfl, by decide, by decide, rfl, rfl, rfl⟩,
   ⟨run (jb (.ward 0) 7 [] .ready [] [(0, 64)]) (own (wd .opened) sv), 0, 0, jb (.ward 0) 7 [] .ready [] [(0, 64)], 0,
    64, sound_of rfl, ⟨rfl, rfl, rfl, rfl, rfl, rfl, by decide⟩, rfl⟩⟩

/-- WardWrites: states and operands that meet the hypotheses of each clause. -/
theorem witness_WardWrites :
    (∃ (s : State) (id : Nat) (w : WardId) (j : Job), Sound s ∧ WardBegins id 0x02 w .ready j s ∧
      writeBar w j s = none) ∧
    (∃ (s : State) (id : Nat) (w : WardId) (j : Job), Sound s ∧ WardBegins id 0x02 w .dataIn j s ∧
      writeBar w j s = none) ∧
    (∃ (s : State) (id : Nat) (w : WardId) (j : Job), Sound s ∧ WardBegins id 0x03 w .ready j s ∧
      writeBar w j s = none ∧ LedgerOpen s) ∧
    (∃ (s : State) (id : Nat) (w : WardId) (j : Job), ∃ i, Sound s ∧ CommitDue i j s ∧ i.ctx = .ward w ∧ i.op = 0x03 ∧
      i.effect = .entry) ∧
    (∃ (s : State) (id : Nat) (w : WardId) (j : Job), ∃ st, Sound s ∧ writeBar w j s = some st ∧
      WardBegins id 0x02 w .ready j s) ∧
    (∃ (s : State) (id : Nat) (w : WardId) (j : Job), ∃ st, Sound s ∧ writeBar w j s = some st ∧
      WardBegins id 0x03 w .ready j s) ∧
    (∃ (s : State) (id : Nat) (w : WardId) (j : Job), Sound s ∧
      16 * (s.ward w).block.units < j.range.2.1 + j.range.2.2) :=
  ⟨⟨run (jb (.ward 0) 2 [(0x20, 15), (0x28, 1)] .ready) (own (wd .opened) sv), 0, 0,
    jb (.ward 0) 2 [(0x20, 15), (0x28, 1)] .ready, sound_of rfl, ⟨rfl, rfl, rfl, rfl, rfl, rfl, by decide⟩, rfl⟩,
   ⟨run (jb (.ward 0) 2 [(0x20, 15), (0x28, 1)] .dataIn) (own (wd .opened) sv), 0, 0,
    jb (.ward 0) 2 [(0x20, 15), (0x28, 1)] .dataIn, sound_of rfl, ⟨rfl, rfl, rfl, rfl, rfl, rfl, by decide⟩, rfl⟩,
   ⟨run (jb (.ward 0) 3 [(0x20, 15), (0x28, 1)] .ready) (own (wd .opened) sv), 0, 0,
    jb (.ward 0) 3 [(0x20, 15), (0x28, 1)] .ready, sound_of rfl, ⟨rfl, rfl, rfl, rfl, rfl, rfl, by decide⟩, rfl, ⟨rfl,
    rfl, by decide⟩⟩,
   ⟨dueAt (jj (.ward 0)) (it (.ward 0) 3 .entry), 0, 0, jj (.ward 0), it (.ward 0) 3 .entry, sound_of rfl, ⟨by decide,
    rfl, rfl, rfl, rfl, rfl, rfl, by decide, ⟨rfl, rfl, rfl⟩, rfl, rfl, rfl⟩, rfl, rfl, rfl⟩,
   ⟨run (jb (.ward 0) 2 [(0x20, 16), (0x28, 1)] .ready) (own (wd .opened) sv), 0, 0,
    jb (.ward 0) 2 [(0x20, 16), (0x28, 1)] .ready, 0x24, sound_of rfl, rfl, ⟨rfl, rfl, rfl, rfl, rfl, rfl,
    by decide⟩⟩,
   ⟨run (jb (.ward 0) 3 [(0x20, 16), (0x28, 1)] .ready) (own (wd .opened) sv), 0, 0,
    jb (.ward 0) 3 [(0x20, 16), (0x28, 1)] .ready, 0x24, sound_of rfl, rfl, ⟨rfl, rfl, rfl, rfl, rfl, rfl,
    by decide⟩⟩,
   ⟨run (jb (.ward 0) 3 [(0x20, 16), (0x28, 1)] .ready) (own (wd .opened) sv), 0, 0,
    jb (.ward 0) 3 [(0x20, 16), (0x28, 1)] .ready, sound_of rfl, by decide⟩⟩

/-- WardCredentials: states and operands that meet the hypotheses of each clause. -/
theorem witness_WardCredentials :
    (∃ (s : State) (id : Nat) (w : WardId) (j : Job), Sound s ∧ WardBegins id 0x04 w .ready j s ∧
      (s.ward w).state = .sealed ∧ wardMac s w (s.ward w).epoch j.cred = (s.ward w).verifier) ∧
    (∃ (s : State) (id : Nat) (w : WardId) (j : Job), Sound s ∧ WardBegins id 0x04 w .ready j s ∧
      (s.ward w).state = .sealed ∧ wardMac s w (s.ward w).epoch j.cred ≠ (s.ward w).verifier) ∧
    (∃ (s : State) (id : Nat) (w : WardId) (j : Job), Sound s ∧ WardBegins id 0x05 w .ready j s ∧
      (s.ward w).state = .opened) ∧
    (∃ (s : State) (id : Nat) (w : WardId) (j : Job), Sound s ∧ WardBegins id 0x06 w .ready j s ∧
      allEqual j.cred = false ∧ LedgerOpen s) ∧
    (∃ (s : State) (id : Nat) (w : WardId) (j : Job), ∃ i v, Sound s ∧ CommitDue i j s ∧ i.ctx = .ward w ∧
      i.effect = .verifier w v) ∧
    (∃ (s : State) (id : Nat) (w : WardId) (j : Job), Sound s ∧ WardBegins id 0x06 w .ready j s ∧
      allEqual j.cred = true) :=
  ⟨⟨run (jb (.ward 0) 4 [(0x20, 1)]) (own { wd .sealed with verifier := wardMac on 0 1 (Job.cred (jb (.ward 0) 4 [(0x20, 1)])) } sv),
    0, 0, jb (.ward 0) 4 [(0x20, 1)], sound_of rfl, ⟨rfl, rfl, rfl, rfl, rfl, rfl, by decide⟩, rfl, rfl⟩,
   ⟨run (jb (.ward 0) 4 [(0x20, 1)]) (own { wd .sealed with fails := 7, verifier := ~~~(wardMac on 0 1 (Job.cred (jb (.ward 0) 4 [(0x20, 1)]))) } sv),
    0, 0, jb (.ward 0) 4 [(0x20, 1)], sound_of rfl, ⟨rfl, rfl, rfl, rfl, rfl, rfl, by decide⟩, rfl, ne_flip _⟩,
   ⟨run (jb (.ward 0) 5 []) (own (wd .opened)), 0, 0, jb (.ward 0) 5 [], sound_of rfl, ⟨rfl, rfl, rfl, rfl, rfl, rfl,
    by decide⟩, rfl⟩,
   ⟨run (jb (.ward 0) 6 [(0x20, 1)]) (own (wd .sealed)), 0, 0, jb (.ward 0) 6 [(0x20, 1)], sound_of rfl, ⟨rfl, rfl,
    rfl, rfl, rfl, rfl, by decide⟩, rfl, ⟨rfl, rfl, by decide⟩⟩,
   ⟨dueAt (jj (.ward 0)) (it (.ward 0) 6 (.verifier 0 7)), 0, 0, jj (.ward 0), it (.ward 0) 6 (.verifier 0 7), 7,
    sound_of rfl, ⟨by decide, rfl, rfl, rfl, rfl, rfl, rfl, by decide, ⟨rfl, rfl, rfl⟩, rfl, rfl, rfl⟩, rfl, rfl⟩,
   ⟨run (jb (.ward 0) 6 []) (own (wd .sealed)), 0, 0, jb (.ward 0) 6 [], sound_of rfl, ⟨rfl, rfl, rfl, rfl, rfl, rfl,
    by decide⟩, rfl⟩⟩

/-- OfficerCommands: states and operands that meet the hypotheses of each clause. -/
theorem witness_OfficerCommands :
    (∃ (s : State) (id : Nat) (j : Job), ∃ a n, Sound s ∧ AdminBegins id 0x40 .ready j s ∧ j.segs = [(a, n)]) ∧
    (∃ (s : State) (id : Nat) (j : Job), ∃ v, Sound s ∧ AdminBegins id 0x41 .ready j s ∧ s.sec.verifier = some v ∧
      s.sec.officerLocked = false ∧ officerMac s j.cred = v) ∧
    (∃ (s : State) (id : Nat) (j : Job), ∃ v, Sound s ∧ AdminBegins id 0x41 .ready j s ∧ s.sec.verifier = some v ∧
      s.sec.officerLocked = false ∧ officerMac s j.cred ≠ v ∧ s.sec.officerFails.toNat < 8 ∧
      (∀ k ∈ s.ring.jobs, k.needsSession = true → k.at_ ≠ s.clk.beat)) ∧
    (∃ (s : State) (id : Nat) (j : Job), ∃ v, Sound s ∧ AdminBegins id 0x41 .ready j s ∧ s.sec.verifier = some v ∧
      s.sec.officerLocked = true) ∧
    (∃ (s : State) (id : Nat) (j : Job), Sound s ∧ AdminBegins id 0x42 .ready j s ∧
      (∀ k ∈ listDrop (fun x => x.id == j.id) s.ring.jobs, k.needsSession = true → k.at_ ≠ s.clk.beat)) :=
  ⟨⟨run (jb .admin 0x40 [] .ready [] [(0, 64)]) (on), 0, jb .admin 0x40 [] .ready [] [(0, 64)], 0, 64, sound_of rfl,
    ⟨rfl, rfl, rfl, rfl, rfl, rfl, rfl⟩, rfl⟩,
   ⟨run (jb .admin 0x41 [(0x20, 1)]) { on with sec := { on.sec with verifier := some (officerMac on (Job.cred (jb .admin 0x41 [(0x20, 1)]))) } },
    0, jb .admin 0x41 [(0x20, 1)], officerMac on (Job.cred (jb .admin 0x41 [(0x20, 1)])), sound_of rfl, ⟨rfl, rfl,
    rfl, rfl, rfl, rfl, rfl⟩, rfl, rfl, rfl⟩,
   ⟨run (jb .admin 0x41 [(0x20, 1)]) { on with sec := { on.sec with officerFails := 7, verifier := some (~~~(officerMac on (Job.cred (jb .admin 0x41 [(0x20, 1)])))) } },
    0, jb .admin 0x41 [(0x20, 1)], ~~~(officerMac on (Job.cred (jb .admin 0x41 [(0x20, 1)]))), sound_of rfl, ⟨rfl,
    rfl, rfl, rfl, rfl, rfl, rfl⟩, rfl, rfl, ne_flip _, by decide, by decide⟩,
   ⟨run (jb .admin 0x41 [(0x20, 1)]) { on with sec := { on.sec with officerLocked := true } }, 0,
    jb .admin 0x41 [(0x20, 1)], 0, sound_of rfl, ⟨rfl, rfl, rfl, rfl, rfl, rfl, rfl⟩, rfl, rfl⟩,
   ⟨run (jb .admin 0x42 []) (on), 0, jb .admin 0x42 [], sound_of rfl, ⟨rfl, rfl, rfl, rfl, rfl, rfl, rfl⟩, by decide⟩⟩

/-- KeysAndTests: states and operands that meet the hypotheses of each clause. -/
theorem witness_KeysAndTests :
    (∃ (s : State) (id : Nat) (j : Job), Sound s ∧ AdminBegins id 0x43 .ready j s ∧ allEqual j.cred = false ∧
      s.sec.provisioned = true ∧ LedgerOpen s) ∧
    (∃ (s : State) (id : Nat) (j : Job), Sound s ∧ AdminBegins id 0x43 .ready j s ∧ allEqual j.cred = false ∧
      s.sec.provisioned = false ∧ s.sec.staging = none ∧ s.pwr.mode = .provisioning ∧ s.pwr.transition = none ∧
      s.sec.zeroizePending = false ∧ s.pwr.holdCause = 0 ∧ s.pwr.votes ≠ 0 ∧ s.pwr.votes &&& serviceSlots = 0 ∧
      s.pwr.sleepVote = false) ∧
    (∃ (s : State) (id : Nat) (j : Job), Sound s ∧ AdminBegins id 0x43 .ready j s ∧ allEqual j.cred = true) ∧
    (∃ (s : State) (id : Nat) (j : Job), ∃ k, Sound s ∧ AdminBegins id 0x44 .ready j s ∧ LedgerOpen s ∧
      s.sec.keys = some k) ∧
    (∃ (s : State) (id : Nat) (j : Job), ∃ i, ∃ v, Sound s ∧ CommitDue i j s ∧ i.ctx = .admin ∧ i.effect = .officer v) ∧
    (∃ (s : State) (id : Nat) (j : Job), ∃ i, ∃ key, Sound s ∧ CommitDue i j s ∧ i.ctx = .admin ∧
      i.effect = .telemetry key) ∧
    (∃ (s : State) (id : Nat) (j : Job), Sound s ∧ AdminBegins id 0x45 .ready j s ∧ s.pwr.mode = .management) ∧
    (∃ (s : State) (id : Nat) (j : Job), ∃ f cause, Sound s ∧ AdminBegins id 0x45 .ready j s ∧
      s.pwr.mode = .management ∧ selfTestCause f = some cause ∧ s.ring.jobs = [j]) ∧
    (∃ (s : State) (id : Nat) (j : Job), Sound s ∧ AdminBegins id 0x45 .ready j s ∧ s.pwr.mode ≠ .management) :=
  ⟨⟨run (jb .admin 0x43 [(0x20, 1)]) (on), 0, jb .admin 0x43 [(0x20, 1)], sound_of rfl,
    ⟨rfl, rfl, rfl, rfl, rfl, rfl, rfl⟩, rfl, rfl, ⟨rfl, rfl, by decide⟩⟩,
   ⟨run (jb .admin 0x43 [(0x20, 1)]) ({ pw (fun p => { p with mode := .provisioning }) with sec := { drbgReady := true } }),
    0, jb .admin 0x43 [(0x20, 1)], sound_of rfl, ⟨rfl, rfl, rfl, rfl, rfl, rfl, rfl⟩, rfl, rfl, rfl, rfl, rfl, rfl,
    rfl, by decide, rfl, rfl⟩,
   ⟨run (jb .admin 0x43 []) (on), 0, jb .admin 0x43 [], sound_of rfl, ⟨rfl, rfl, rfl, rfl, rfl, rfl, rfl⟩, rfl⟩,
   ⟨run (jb .admin 0x44 []) (on), 0, jb .admin 0x44 [], ⟨1, 2, 3, 4⟩, sound_of rfl, ⟨rfl, rfl, rfl, rfl, rfl, rfl,
    rfl⟩, ⟨rfl, rfl, by decide⟩, rfl⟩,
   ⟨dueAt (jj .admin) (it .admin 0x43 (.officer 7)), 0, jj .admin, it .admin 0x43 (.officer 7), 7, sound_of rfl,
    ⟨by decide, rfl, rfl, rfl, rfl, rfl, rfl, by decide, ⟨rfl, rfl, rfl⟩, rfl, rfl, rfl⟩, rfl, rfl⟩,
   ⟨dueAt (jj .admin) (it .admin 0x44 (.telemetry [7])), 0, jj .admin, it .admin 0x44 (.telemetry [7]), [7],
    sound_of rfl, ⟨by decide, rfl, rfl, rfl, rfl, rfl, rfl, by decide, ⟨rfl, rfl, rfl⟩, rfl, rfl, rfl⟩, rfl, rfl⟩,
   ⟨run (jb .admin 0x45 []) (on), 0, jb .admin 0x45 [], sound_of rfl, ⟨rfl, rfl, rfl, rfl, rfl, rfl, rfl⟩, rfl⟩,
   ⟨run (jb .admin 0x45 []) (on), 0, jb .admin 0x45 [], .test 7, testBit 7 + 1, sound_of rfl, ⟨rfl, rfl, rfl, rfl,
    rfl, rfl, rfl⟩, rfl, rfl, rfl⟩,
   ⟨run (jb .admin 0x45 []) (sv), 0, jb .admin 0x45 [], sound_of rfl, ⟨rfl, rfl, rfl, rfl, rfl, rfl, rfl⟩, by decide⟩⟩

/-- Zeroization: states and operands that meet the hypotheses of each clause. -/
theorem witness_Zeroization :
    (∃ (s : State) (id : Nat) (j : Job) (b : Boot) (f : Fin 10), Sound s ∧ s.awake = true ∧
      s.sec.zeroizePending = false ∧ s.pwr.votes.getLsbD 0 = true ∧ s.sys.stage ≠ 8 ∧ s.sys.boot = none ∧
      entering s = false ∧ s.cache.retired ≠ 0xFFFF ∧ AdminBegins id 0x46 .ready j s) ∧
    (∃ (s : State) (id : Nat) (j : Job) (b : Boot) (f : Fin 10), Sound s ∧ s.awake = true ∧
      s.sec.zeroizePending = false ∧ s.pwr.votes.getLsbD 0 = true ∧ s.sys.stage ≠ 8 ∧ s.sys.boot = none ∧
      entering s = false ∧ s.cache.retired ≠ 0xFFFF ∧ s.sec.error = true) :=
  ⟨⟨run (jb .admin 0x46 [(0x20, 0x4F), (0x21, 0x52), (0x22, 0x45), (0x23, 0x5A)]) (on), 0,
    jb .admin 0x46 [(0x20, 0x4F), (0x21, 0x52), (0x22, 0x45), (0x23, 0x5A)], clean, 9, sound_of rfl, rfl, rfl, rfl,
    by decide, rfl, rfl, by decide, ⟨rfl, rfl, rfl, rfl, rfl, rfl, rfl⟩⟩,
   ⟨run (jb .admin 0x46 [(0x20, 0x4F), (0x21, 0x52), (0x22, 0x45), (0x23, 0x5A)]) { on with sec := { on.sec with error := true } },
    0, jb .admin 0x46 [(0x20, 0x4F), (0x21, 0x52), (0x22, 0x45), (0x23, 0x5A)], clean, 9, sound_of rfl, rfl, rfl, rfl,
    by decide, rfl, rfl, by decide, rfl⟩⟩

/-- WardLifecycle: states and operands that meet the hypotheses of each clause. -/
theorem witness_WardLifecycle :
    (∃ (s : State) (id : Nat) (j : Job), ∃ b p, Sound s ∧ AdminBegins id 0x48 .dataIn j s ∧
      ((s.ward j.named).state = .unprovisioned ∨ (s.ward j.named).state = .destroyed) ∧ allEqual j.data = false ∧
      ((createAsk j).1.2 = 0 ∨ (s.group (createAsk j).1.1).defined = true) ∧
      ((createAsk j).2.2 = 0 ∨ (s.group (createAsk j).2.1).defined = true) ∧ createExtents j s = some (b, p)) ∧
    (∃ (s : State) (id : Nat) (j : Job), ∃ destroy : Bool, Sound s ∧
      AdminBegins id (if destroy then 0x49 else 0x4A) .ready j s ∧ LedgerOpen s ∧ s.ring.jobs = [j] ∧
      j.id < s.ring.nextJob ∧
      ((s.ward j.named).state = .sealed ∨ (s.ward j.named).state = .opened ∨ (s.ward j.named).state = .faulted)) ∧
    (∃ (s : State) (id : Nat) (j : Job), ∃ i w, ∃ x, Sound s ∧ CommitDue i j s ∧ i.ctx = .admin ∧
      i.effect = .create w x) ∧
    (∃ (s : State) (id : Nat) (j : Job), ∃ i w, Sound s ∧ CommitDue i j s ∧ i.ctx = .admin ∧
      i.effect = .reset w false) ∧
    (∃ (s : State) (id : Nat) (j : Job), ∃ i w, Sound s ∧ CommitDue i j s ∧ i.ctx = .admin ∧ i.effect = .reset w true) :=
  ⟨⟨run (jb .admin 0x48 [(0x24, 1), (0x28, 1)] .dataIn [1, 0]) ({ on with groups := [(0, gr)] }), 0,
    jb .admin 0x48 [(0x24, 1), (0x28, 1)] .dataIn [1, 0], { group := 0, runs := [(0, 1)] },
    { group := 0, runs := [(1, 1)] }, sound_of rfl, ⟨rfl, rfl, rfl, rfl, rfl, rfl, rfl⟩, by decide, rfl, by decide,
    by decide, rfl⟩,
   ⟨run (jb .admin 0x49 []) (own (wd .opened)), 0, jb .admin 0x49 [], true, sound_of rfl, ⟨rfl, rfl, rfl, rfl, rfl,
    rfl, rfl⟩, ⟨rfl, rfl, by decide⟩, rfl, by decide, by decide⟩,
   ⟨dueAt (jj .admin) (it .admin 0x48 (.create 4095 (wd .sealed))), 0, jj .admin,
    it .admin 0x48 (.create 4095 (wd .sealed)), 4095, wd .sealed, sound_of rfl, ⟨by decide, rfl, rfl, rfl, rfl, rfl,
    rfl, by decide, ⟨rfl, rfl, rfl⟩, rfl, rfl, rfl⟩, rfl, rfl⟩,
   ⟨dueAt (jj .admin) (it .admin 0x4A (.reset 4095 false)), 0, jj .admin, it .admin 0x4A (.reset 4095 false), 4095,
    sound_of rfl, ⟨by decide, rfl, rfl, rfl, rfl, rfl, rfl, by decide, ⟨rfl, rfl, rfl⟩, rfl, rfl, rfl⟩, rfl, rfl⟩,
   ⟨dueAt (jj .admin) (it .admin 0x49 (.reset 4095 true)), 0, jj .admin, it .admin 0x49 (.reset 4095 true), 4095,
    sound_of rfl, ⟨by decide, rfl, rfl, rfl, rfl, rfl, rfl, by decide, ⟨rfl, rfl, rfl⟩, rfl, rfl, rfl⟩, rfl, rfl⟩⟩

/-- WardSettings: states and operands that meet the hypotheses of each clause. -/
theorem witness_WardSettings :
    (∃ (s : State) (id : Nat) (j : Job),
      let live := (s.ward j.named).state = .sealed ∨ (s.ward j.named).state = .opened ∨ (s.ward j.named).state = .faulted
      ∃ eb ep, Sound s ∧ AdminBegins id 0x4B .ready j s ∧ live ∧ LedgerOpen s ∧
      (s.ward j.named).block.units ≤ j.cmd 0x24 4 ∧ (s.ward j.named).append.units ≤ j.cmd 0x28 4 ∧
      (s.group (s.ward j.named).block.group).defined = true ∧ (s.group (s.ward j.named).append.group).defined = true ∧
      grow (s.ward j.named).block (j.cmd 0x24 4) [] s = some eb ∧
      grow (s.ward j.named).append (j.cmd 0x28 4) (if (s.ward j.named).block.group = (s.ward j.named).append.group then eb.runs.drop ((s.ward j.named).block.runs.length - 1) else []) s = some ep) ∧
    (∃ (s : State) (id : Nat) (j : Job),
      let live := (s.ward j.named).state = .sealed ∨ (s.ward j.named).state = .opened ∨ (s.ward j.named).state = .faulted
      Sound s ∧ AdminBegins id 0x4C .ready j s ∧ live ∧ LedgerOpen s ∧ (s.ward j.named).ring.chain = none ∧
      (∀ k ∈ s.ring.jobs, k.ctx ≠ .ward j.named)) ∧
    (∃ (s : State) (id : Nat) (j : Job),
      let live := (s.ward j.named).state = .sealed ∨ (s.ward j.named).state = .opened ∨ (s.ward j.named).state = .faulted
      Sound s ∧ AdminBegins id 0x4D .ready j s ∧ live ∧ LedgerOpen s ∧ (s.ward j.named).configured = true) ∧
    (∃ (s : State) (id : Nat) (j : Job),
      let live := (s.ward j.named).state = .sealed ∨ (s.ward j.named).state = .opened ∨ (s.ward j.named).state = .faulted
      Sound s ∧ AdminBegins id 0x4E .ready j s ∧ live ∧ LedgerOpen s ∧ s.ring.jobs = [j] ∧
      (s.ward j.named).flush = none ∧ (s.ward j.named).ring.sqHead = (s.ward j.named).ring.sqTail ∧
      (s.ward j.named).ring.chain = none ∧ (∀ i ∈ s.ledger.intents, i.ctx ≠ .ward j.named)) ∧
    (∃ (s : State) (id : Nat) (j : Job), ∃ i, ∃ v b p, Sound s ∧ CommitDue i j s ∧ i.ctx = .admin ∧
      i.effect = .resize v b p) ∧
    (∃ (s : State) (id : Nat) (j : Job), ∃ i,
      let k := i.asJob
      Sound s ∧ CommitDue i j s ∧ i.ctx = .admin ∧ i.effect = .entry ∧ i.op = 0x4C ∧
      (k.entry.drop 0x22).all (· == 0) = false) ∧
    (∃ (s : State) (id : Nat) (j : Job), ∃ i,
      let k := i.asJob
      Sound s ∧ CommitDue i j s ∧ i.ctx = .admin ∧ i.effect = .entry ∧ i.op = 0x4C ∧
      (k.entry.drop 0x22).all (· == 0) = true) ∧
    (∃ (s : State) (id : Nat) (j : Job), ∃ i, Sound s ∧ CommitDue i j s ∧ i.ctx = .admin ∧ i.effect = .entry ∧
      i.op = 0x4D) :=
  ⟨⟨run (jb .admin 0x4B [(0x24, 2), (0x28, 1)]) ({ own (wd .sealed) with groups := [(0, gr), (1, gr)] }), 0,
    jb .admin 0x4B [(0x24, 2), (0x28, 1)], { group := 0, runs := [(0, 2)] }, { group := 1, runs := [(0, 1)] },
    sound_of rfl, ⟨rfl, rfl, rfl, rfl, rfl, rfl, rfl⟩, by decide, ⟨rfl, rfl, by decide⟩, by decide, by decide, rfl,
    rfl, rfl, rfl⟩,
   ⟨run (jb .admin 0x4C [(0x22, 4), (0x23, 4), (0x25, 1), (0x26, 1)]) (own (wd .sealed)), 0,
    jb .admin 0x4C [(0x22, 4), (0x23, 4), (0x25, 1), (0x26, 1)], sound_of rfl, ⟨rfl, rfl, rfl, rfl, rfl, rfl, rfl⟩,
    by decide, ⟨rfl, rfl, by decide⟩, rfl, by decide⟩,
   ⟨run (jb .admin 0x4D [(0x22, 255), (0x23, 1), (0x24, 1)]) (own (wd .opened)), 0,
    jb .admin 0x4D [(0x22, 255), (0x23, 1), (0x24, 1)], sound_of rfl, ⟨rfl, rfl, rfl, rfl, rfl, rfl, rfl⟩, by decide,
    ⟨rfl, rfl, by decide⟩, rfl⟩,
   ⟨run (jb .admin 0x4E []) (own (wd .faulted)), 0, jb .admin 0x4E [], sound_of rfl, ⟨rfl, rfl, rfl, rfl, rfl, rfl,
    rfl⟩, by decide, ⟨rfl, rfl, by decide⟩, rfl, rfl, rfl, rfl, by decide⟩,
   ⟨dueAt (jj .admin) (it .admin 0x4B (.resize 4095 {} {})), 0, jj .admin, it .admin 0x4B (.resize 4095 {} {}), 4095,
    {}, {}, sound_of rfl, ⟨by decide, rfl, rfl, rfl, rfl, rfl, rfl, by decide, ⟨rfl, rfl, rfl⟩, rfl, rfl, rfl⟩, rfl,
    rfl⟩,
   ⟨dueAt (jj .admin) (it .admin 0x4C .entry [0, 0, 4, 4]), 0, jj .admin, it .admin 0x4C .entry [0, 0, 4, 4],
    sound_of rfl, ⟨by decide, rfl, rfl, rfl, rfl, rfl, rfl, by decide, ⟨rfl, rfl, rfl⟩, rfl, rfl, rfl⟩, rfl, rfl, rfl,
    rfl⟩,
   ⟨dueAt (jj .admin) (it .admin 0x4C .entry), 0, jj .admin, it .admin 0x4C .entry, sound_of rfl, ⟨by decide, rfl,
    rfl, rfl, rfl, rfl, rfl, by decide, ⟨rfl, rfl, rfl⟩, rfl, rfl, rfl⟩, rfl, rfl, rfl, rfl⟩,
   ⟨dueAt (jj .admin) (it .admin 0x4D .entry), 0, jj .admin, it .admin 0x4D .entry, sound_of rfl, ⟨by decide, rfl,
    rfl, rfl, rfl, rfl, rfl, by decide, ⟨rfl, rfl, rfl⟩, rfl, rfl, rfl⟩, rfl, rfl, rfl⟩⟩

/-- GroupCommands: states and operands that meet the hypotheses of each clause. -/
theorem witness_GroupCommands :
    (∃ (s : State) (id : Nat) (j : Job),
      let g := j.grp
      Sound s ∧ LedgerOpen s ∧ AdminBegins id 0x51 .ready j s ∧ j.cmd 0x21 1 = 1 ∧ (s.group g).defined = false ∧
      badSpare g j.members j.spare s = false ∧ (if j.cmd 0x22 1 = 3 then 4 else 3) ≤ j.members.length ∧
      (∀ c ∈ j.members, inOther g c s = false)) ∧
    (∃ (s : State) (id : Nat) (j : Job),
      let g := j.grp
      Sound s ∧ LedgerOpen s ∧ AdminBegins id 0x51 .ready j s ∧ j.cmd 0x21 1 = 2 ∧ (s.group g).defined = true ∧
      (s.group g).rebuild.active = false ∧ (s.group g).rebuild.paused = false ∧
      badSpare g (s.group g).members j.spare s = false) ∧
    (∃ (s : State) (id : Nat) (j : Job),
      let g := j.grp
      Sound s ∧ LedgerOpen s ∧ AdminBegins id 0x51 .ready j s ∧ j.cmd 0x21 1 = 3 ∧ (s.group g).defined = true ∧
      groupUsed g s = false) ∧
    (∃ (s : State) (id : Nat) (j : Job),
      let g := j.grp
      ∃ m, Sound s ∧ LedgerOpen s ∧ AdminBegins id 0x52 .ready j s ∧ j.cmd 0x21 1 = 1 ∧ (s.group g).defined = true ∧
      (s.group g).members.findIdx? (· == cellOf (j.cmd 0x22 1)) = some m ∧
      ((s.group g).rebuild.active = true → (s.group g).rebuild.member = m) ∧
      ((s.group g).rebuild.active = false → (s.group g).spare ≠ none)) ∧
    (∃ (s : State) (id : Nat) (j : Job),
      let g := j.grp
      Sound s ∧ LedgerOpen s ∧ AdminBegins id 0x52 .ready j s ∧ j.cmd 0x21 1 = 2 ∧ (s.group g).defined = true) ∧
    (∃ (s : State) (id : Nat) (j : Job),
      let g := j.grp
      Sound s ∧ LedgerOpen s ∧ AdminBegins id 0x53 .ready j s ∧ j.cmd 0x21 1 = 1 ∧ (s.group g).defined = true) ∧
    (∃ (s : State) (id : Nat) (j : Job),
      let g := j.grp
      Sound s ∧ LedgerOpen s ∧ AdminBegins id 0x53 .ready j s ∧ j.cmd 0x21 1 = 2 ∧ (s.group g).defined = true) ∧
    (∃ (s : State) (id : Nat) (j : Job), ∃ i,
      let k := i.asJob
      Sound s ∧ CommitDue i j s ∧ i.ctx = .admin ∧ i.effect = .entry ∧ i.op = 0x51 ∧ k.cmd 0x21 1 = 1) ∧
    (∃ (s : State) (id : Nat) (j : Job), ∃ i,
      let k := i.asJob
      Sound s ∧ CommitDue i j s ∧ i.ctx = .admin ∧ i.effect = .entry ∧ i.op = 0x51 ∧ k.cmd 0x21 1 = 2) ∧
    (∃ (s : State) (id : Nat) (j : Job), ∃ i,
      let k := i.asJob
      Sound s ∧ CommitDue i j s ∧ i.ctx = .admin ∧ i.effect = .entry ∧ i.op = 0x51 ∧ k.cmd 0x21 1 = 3) ∧
    (∃ (s : State) (id : Nat) (j : Job), ∃ i,
      let k := i.asJob
      let g := k.grp
      ∃ m, Sound s ∧ CommitDue i j s ∧ i.ctx = .admin ∧ i.effect = .entry ∧ i.op = 0x52 ∧ k.cmd 0x21 1 = 1 ∧
      (s.group g).members.findIdx? (· == cellOf (k.cmd 0x22 1)) = some m ∧ (s.group g).rebuild.active = true ∧
      (s.group g).rebuild.member = m) ∧
    (∃ (s : State) (id : Nat) (j : Job), ∃ i,
      let k := i.asJob
      let g := k.grp
      ∃ m, Sound s ∧ CommitDue i j s ∧ i.ctx = .admin ∧ i.effect = .entry ∧ i.op = 0x52 ∧ k.cmd 0x21 1 = 1 ∧
      (s.group g).members.findIdx? (· == cellOf (k.cmd 0x22 1)) = some m ∧ (s.group g).rebuild.active = false ∧
      (s.group g).rebuild.paused = false) ∧
    (∃ (s : State) (id : Nat) (j : Job), ∃ i,
      let k := i.asJob
      Sound s ∧ CommitDue i j s ∧ i.ctx = .admin ∧ i.effect = .entry ∧ i.op = 0x52 ∧ k.cmd 0x21 1 = 2) ∧
    (∃ (s : State) (id : Nat) (j : Job), ∃ i,
      let k := i.asJob
      let g := k.grp
      Sound s ∧ CommitDue i j s ∧ i.ctx = .admin ∧ i.effect = .entry ∧ i.op = 0x53 ∧ k.cmd 0x21 1 = 1 ∧
      (s.group g).scrub.active = false) ∧
    (∃ (s : State) (id : Nat) (j : Job), ∃ i,
      let k := i.asJob
      Sound s ∧ CommitDue i j s ∧ i.ctx = .admin ∧ i.effect = .entry ∧ i.op = 0x53 ∧ k.cmd 0x21 1 = 2) :=
  ⟨⟨run (jb .admin 0x51 [(0x21, 1), (0x22, 3), (0x23, 15), (0x24, 15)]) (on), 0,
    jb .admin 0x51 [(0x21, 1), (0x22, 3), (0x23, 15), (0x24, 15)], sound_of rfl, ⟨rfl, rfl, by decide⟩,
    ⟨rfl, rfl, rfl, rfl, rfl, rfl, rfl⟩, rfl, rfl, rfl, by decide, by decide⟩,
   ⟨run (jb .admin 0x51 [(0x21, 2), (0x23, 0xFF)]) ({ on with groups := [(0, gr)] }), 0,
    jb .admin 0x51 [(0x21, 2), (0x23, 0xFF)], sound_of rfl, ⟨rfl, rfl, by decide⟩, ⟨rfl, rfl, rfl, rfl, rfl, rfl,
    rfl⟩, rfl, rfl, rfl, rfl, rfl⟩,
   ⟨run (jb .admin 0x51 [(0x21, 3)]) ({ on with groups := [(0, gr)] }), 0, jb .admin 0x51 [(0x21, 3)], sound_of rfl,
    ⟨rfl, rfl, by decide⟩, ⟨rfl, rfl, rfl, rfl, rfl, rfl, rfl⟩, rfl, rfl, rfl⟩,
   ⟨run (jb .admin 0x52 [(0x21, 1), (0x22, 2), (0x24, 1)]) ({ on with groups := [(0, gr)] }), 0,
    jb .admin 0x52 [(0x21, 1), (0x22, 2), (0x24, 1)], 2, sound_of rfl, ⟨rfl, rfl, by decide⟩, ⟨rfl, rfl, rfl, rfl,
    rfl, rfl, rfl⟩, rfl, rfl, rfl, by decide, by decide⟩,
   ⟨run (jb .admin 0x52 [(0x21, 2)]) ({ on with groups := [(0, gr)] }), 0, jb .admin 0x52 [(0x21, 2)], sound_of rfl,
    ⟨rfl, rfl, by decide⟩, ⟨rfl, rfl, rfl, rfl, rfl, rfl, rfl⟩, rfl, rfl⟩,
   ⟨run (jb .admin 0x53 [(0x21, 1), (0x24, 1)]) ({ on with groups := [(0, gr)] }), 0,
    jb .admin 0x53 [(0x21, 1), (0x24, 1)], sound_of rfl, ⟨rfl, rfl, by decide⟩, ⟨rfl, rfl, rfl, rfl, rfl, rfl, rfl⟩,
    rfl, rfl⟩,
   ⟨run (jb .admin 0x53 [(0x21, 2)]) ({ on with groups := [(0, gr)] }), 0, jb .admin 0x53 [(0x21, 2)], sound_of rfl,
    ⟨rfl, rfl, by decide⟩, ⟨rfl, rfl, rfl, rfl, rfl, rfl, rfl⟩, rfl, rfl⟩,
   ⟨dueAt (jj .admin) (it .admin 0x51 .entry [0, 1]) { on with groups := [(0, gr)] }, 0, jj .admin,
    it .admin 0x51 .entry [0, 1], sound_of rfl, ⟨by decide, rfl, rfl, rfl, rfl, rfl, rfl, by decide, ⟨rfl, rfl, rfl⟩,
    rfl, rfl, rfl⟩, rfl, rfl, rfl, rfl⟩,
   ⟨dueAt (jj .admin) (it .admin 0x51 .entry [0, 2]) { on with groups := [(0, gr)] }, 0, jj .admin,
    it .admin 0x51 .entry [0, 2], sound_of rfl, ⟨by decide, rfl, rfl, rfl, rfl, rfl, rfl, by decide, ⟨rfl, rfl, rfl⟩,
    rfl, rfl, rfl⟩, rfl, rfl, rfl, rfl⟩,
   ⟨dueAt (jj .admin) (it .admin 0x51 .entry [0, 3]) { on with groups := [(0, gr)] }, 0, jj .admin,
    it .admin 0x51 .entry [0, 3], sound_of rfl, ⟨by decide, rfl, rfl, rfl, rfl, rfl, rfl, by decide, ⟨rfl, rfl, rfl⟩,
    rfl, rfl, rfl⟩, rfl, rfl, rfl, rfl⟩,
   ⟨dueAt (jj .admin) (it .admin 0x52 .entry [0, 1, 2]) { on with groups := [(0, { gr with rebuild := { member := 2, active := true } })] },
    0, jj .admin, it .admin 0x52 .entry [0, 1, 2], 2, sound_of rfl, ⟨by decide, rfl, rfl, rfl, rfl, rfl, rfl,
    by decide, ⟨rfl, rfl, rfl⟩, rfl, rfl, rfl⟩, rfl, rfl, rfl, rfl, rfl, rfl, rfl⟩,
   ⟨dueAt (jj .admin) (it .admin 0x52 .entry [0, 1, 2]) { on with groups := [(0, gr)] }, 0, jj .admin,
    it .admin 0x52 .entry [0, 1, 2], 2, sound_of rfl, ⟨by decide, rfl, rfl, rfl, rfl, rfl, rfl, by decide,
    ⟨rfl, rfl, rfl⟩, rfl, rfl, rfl⟩, rfl, rfl, rfl, rfl, rfl, rfl, rfl⟩,
   ⟨dueAt (jj .admin) (it .admin 0x52 .entry [0, 2]) { on with groups := [(0, gr)] }, 0, jj .admin,
    it .admin 0x52 .entry [0, 2], sound_of rfl, ⟨by decide, rfl, rfl, rfl, rfl, rfl, rfl, by decide, ⟨rfl, rfl, rfl⟩,
    rfl, rfl, rfl⟩, rfl, rfl, rfl, rfl⟩,
   ⟨dueAt (jj .admin) (it .admin 0x53 .entry [0, 1]) { on with groups := [(0, gr)] }, 0, jj .admin,
    it .admin 0x53 .entry [0, 1], sound_of rfl, ⟨by decide, rfl, rfl, rfl, rfl, rfl, rfl, by decide, ⟨rfl, rfl, rfl⟩,
    rfl, rfl, rfl⟩, rfl, rfl, rfl, rfl, rfl⟩,
   ⟨dueAt (jj .admin) (it .admin 0x53 .entry [0, 2]) { on with groups := [(0, gr)] }, 0, jj .admin,
    it .admin 0x53 .entry [0, 2], sound_of rfl, ⟨by decide, rfl, rfl, rfl, rfl, rfl, rfl, by decide, ⟨rfl, rfl, rfl⟩,
    rfl, rfl, rfl⟩, rfl, rfl, rfl, rfl⟩⟩

/-- CaptureAndLogCommands: states and operands that meet the hypotheses of each clause. -/
theorem witness_CaptureAndLogCommands :
    (∃ (s : State) (id : Nat) (j : Job), Sound s ∧ LedgerOpen s ∧ AdminBegins id 0x50 .dataIn j s ∧
      j.cmd 0x20 2 + j.cmd 0x22 2 ≤ 8192 ∧ (tumbImages j).any tumbReserved = false) ∧
    (∃ (s : State) (id : Nat) (j : Job), Sound s ∧ LedgerOpen s ∧ AdminBegins id 0x54 .ready j s ∧
      s.cache.drain.any (fun p => (BitVec.ofNat 16 (j.cmd 0x20 2)).getLsbD p.1) = false) ∧
    (∃ (s : State) (id : Nat) (j : Job), Sound s ∧ LedgerOpen s ∧ AdminBegins id 0x54 .ready j s ∧
      s.cache.drain.any (fun p => (BitVec.ofNat 16 (j.cmd 0x20 2)).getLsbD p.1) = true) ∧
    (∃ (s : State) (id : Nat) (j : Job), Sound s ∧ LedgerOpen s ∧ AdminBegins id 0x55 .ready j s ∧ j.cmd 0x29 1 = 1) ∧
    (∃ (s : State) (id : Nat) (j : Job), Sound s ∧ LedgerOpen s ∧ AdminBegins id 0x55 .ready j s ∧ j.cmd 0x29 1 = 0) ∧
    (∃ (s : State) (id : Nat) (j : Job), ∃ i, ∃ first image, Sound s ∧ CommitDue i j s ∧ i.ctx = .admin ∧
      i.effect = .tumbler first [image]) ∧
    (∃ (s : State) (id : Nat) (j : Job), ∃ i, Sound s ∧ CommitDue i j s ∧ i.ctx = .admin ∧ i.effect = .entry ∧
      i.op = 0x54 ∧ s.cache.drain = [] ∧ s.cache.retBeat ≠ s.clk.beat) ∧
    (∃ (s : State) (id : Nat) (j : Job), ∃ i,
      let k := i.asJob
      Sound s ∧ CommitDue i j s ∧ i.ctx = .admin ∧ i.effect = .entry ∧ i.op = 0x55 ∧ k.cmd 0x29 1 = 1) ∧
    (∃ (s : State) (id : Nat) (j : Job), ∃ i,
      let k := i.asJob
      Sound s ∧ CommitDue i j s ∧ i.ctx = .admin ∧ i.effect = .entry ∧ i.op = 0x55 ∧ k.cmd 0x29 1 = 0) :=
  ⟨⟨run (jb .admin 0x50 [(0x20, 0xFF), (0x21, 0x1F), (0x22, 1)] .dataIn (ent 3 [] 0)) (on), 0,
    jb .admin 0x50 [(0x20, 0xFF), (0x21, 0x1F), (0x22, 1)] .dataIn (ent 3 [] 0), sound_of rfl, ⟨rfl, rfl, by decide⟩,
    ⟨rfl, rfl, rfl, rfl, rfl, rfl, rfl⟩, by decide, rfl⟩,
   ⟨run (jb .admin 0x54 [(0x20, 1)]) (on), 0, jb .admin 0x54 [(0x20, 1)], sound_of rfl, ⟨rfl, rfl, by decide⟩, ⟨rfl,
    rfl, rfl, rfl, rfl, rfl, rfl⟩, rfl⟩,
   ⟨run (jb .admin 0x54 [(0x20, 1)]) ({ on with cache := { ready := true, drain := [(0, at0)] } }), 0,
    jb .admin 0x54 [(0x20, 1)], sound_of rfl, ⟨rfl, rfl, by decide⟩, ⟨rfl, rfl, rfl, rfl, rfl, rfl, rfl⟩, rfl⟩,
   ⟨run (jb .admin 0x55 [(0x28, 7), (0x29, 1)]) (on), 0, jb .admin 0x55 [(0x28, 7), (0x29, 1)], sound_of rfl, ⟨rfl,
    rfl, by decide⟩, ⟨rfl, rfl, rfl, rfl, rfl, rfl, rfl⟩, rfl⟩,
   ⟨run (jb .admin 0x55 []) (on), 0, jb .admin 0x55 [], sound_of rfl, ⟨rfl, rfl, by decide⟩, ⟨rfl, rfl, rfl, rfl, rfl,
    rfl, rfl⟩, rfl⟩,
   ⟨dueAt (jj .admin) (it .admin 0x50 (.tumbler 8191 [ent 3 [] 0])), 0, jj .admin,
    it .admin 0x50 (.tumbler 8191 [ent 3 [] 0]), 8191, ent 3 [] 0, sound_of rfl, ⟨by decide, rfl, rfl, rfl, rfl, rfl,
    rfl, by decide, ⟨rfl, rfl, rfl⟩, rfl, rfl, rfl⟩, rfl, rfl⟩,
   ⟨dueAt (jj .admin) (it .admin 0x54 .entry [0xFF]), 0, jj .admin, it .admin 0x54 .entry [0xFF], sound_of rfl,
    ⟨by decide, rfl, rfl, rfl, rfl, rfl, rfl, by decide, ⟨rfl, rfl, rfl⟩, rfl, rfl, rfl⟩, rfl, rfl, rfl, rfl,
    by decide⟩,
   ⟨dueAt (jj .admin) (it .admin 0x55 .entry [0, 0, 0, 0, 0, 0, 0, 0, 7, 1]), 0, jj .admin,
    it .admin 0x55 .entry [0, 0, 0, 0, 0, 0, 0, 0, 7, 1], sound_of rfl, ⟨by decide, rfl, rfl, rfl, rfl, rfl, rfl,
    by decide, ⟨rfl, rfl, rfl⟩, rfl, rfl, rfl⟩, rfl, rfl, rfl, rfl⟩,
   ⟨dueAt (jj .admin) (it .admin 0x55 .entry), 0, jj .admin, it .admin 0x55 .entry, sound_of rfl, ⟨by decide, rfl,
    rfl, rfl, rfl, rfl, rfl, by decide, ⟨rfl, rfl, rfl⟩, rfl, rfl, rfl⟩, rfl, rfl, rfl, rfl⟩⟩

/-- LedgerAndKeys: states and operands that meet the hypotheses of each clause. -/
theorem witness_LedgerAndKeys :
    (∃ (s : State) (j : Job), Sound s ∧ intakeOpen s = true ∧ nextIntake s = some (.job j) ∧ j.op = 2 ∧
      (s.group (Waiting.group (.job j) s)).down = false ∧ s.job j.id = some j ∧ canReserve (.job j) s = true ∧
      s.kccReady = true ∧ s.kccEntry (Waiting.ward (.job j)) ≠ none) ∧
    (∃ (s : State) (j : Job), Sound s ∧ intakeOpen s = true ∧ nextIntake s = some (.job j) ∧ j.op = 2 ∧
      (s.group (Waiting.group (.job j) s)).down = false ∧ s.job j.id = some j ∧ canReserve (.job j) s = false) ∧
    (∃ (s : State) (j : Job), ∃ k, ∃ n i, Sound s ∧ s.ledgerDead = false ∧ s.awake = true ∧ s.sec.keys = some k ∧
      s.ledger.waits = [] ∧ (∀ i ∈ s.ledger.intents, i.phase ≠ .held) ∧ s.ledger.port = [(.intent n, 1)] ∧
      s.intentOf n = some i ∧ 0 < i.payloads ∧ s.ledger.intents = [i]) ∧
    (∃ (s : State) (j : Job), ∃ k, ∃ slot unit, Sound s ∧ s.ledgerDead = false ∧ s.awake = true ∧
      s.sec.keys = some k ∧ s.ledger.waits = [] ∧ (∀ i ∈ s.ledger.intents, i.phase ≠ .held) ∧
      s.ledger.port = [(.release slot unit, 1)] ∧ (s.ledger.slots.get [] slot).length ≤ 256) ∧
    (∃ (s : State) (j : Job), ∃ k, ∃ slot : Nat, Sound s ∧ s.ledgerDead = false ∧ s.awake = true ∧
      s.sec.keys = some k ∧ s.ledger.waits = [] ∧ (∀ i ∈ s.ledger.intents, i.phase ≠ .held) ∧ s.ledger.port ≠ []) ∧
    (∃ (s : State) (j : Job), ∃ i, Sound s ∧ CommitDue i j s ∧ i.effect = .none) ∧
    (∃ (s : State) (w : WardId) (l : List WardId) (k : Keys), Sound s ∧ s.kcc.misses = w :: l ∧ s.sec.keys = some k ∧
      s.kccReady = true ∧ (s.ward w).keyPresent = true ∧ s.kcc.entries.length < 48) ∧
    (∃ (s : State) (w : WardId) (l : List WardId) (k : Keys), Sound s ∧ s.kcc.misses = w :: l ∧ s.sec.keys = some k ∧
      s.kccReady = true ∧ ((s.ward w).state = .sealed ∨ (s.ward w).state = .opened) ∧ s.ring.jobs = [] ∧
      s.cap.queue = []) :=
  ⟨⟨run (jb (.ward 0) 2 [(0x28, 1)] .intake (zeros 4096)) { own (wd .opened) sv with kcc := { ready := true, entries := [⟨0, 1, 5⟩] } },
    jb (.ward 0) 2 [(0x28, 1)] .intake (zeros 4096), sound_of rfl, rfl, rfl, rfl, rfl, rfl, rfl, rfl, by decide⟩,
   ⟨run (jb (.ward 0) 2 [(0x28, 1)] .intake (zeros 4096)) { own (wd .opened) sv with ledger := { nextSerial := 9, intents := [{ it (.ward 1) 2 .none with phase := .committed, datas := List.replicate 2560 ({ serial := 3, addr := ⟨0, 0, 0, 15⟩, sector := sec, slot := 5 } : DataRec) }] } },
    jb (.ward 0) 2 [(0x28, 1)] .intake (zeros 4096), sound_of rfl, rfl, rfl, rfl, rfl, rfl, by decide +kernel⟩,
   ⟨{ sv with ledger := { nextSerial := 9, port := [(.intent 1, 1)], intents := [{ it (.ward 0) 2 .none with phase := .intent, datas := [({ serial := 3, addr := at0, sector := sec } : DataRec)] }] } },
    jb (.ward 0) 2 [(0x28, 1)] .intake (zeros 4096), ⟨1, 2, 3, 4⟩, 1,
    { it (.ward 0) 2 .none with phase := .intent, datas := [({ serial := 3, addr := at0, sector := sec } : DataRec)] },
    sound_of rfl, rfl, rfl, rfl, rfl, by decide, rfl, rfl, by decide, rfl⟩,
   ⟨{ sv with ledger := { nextSerial := 2, port := [(.release 7 true, 1)] } },
    jb (.ward 0) 2 [(0x28, 1)] .intake (zeros 4096), ⟨1, 2, 3, 4⟩, 7, true, sound_of rfl, rfl, rfl, rfl, rfl,
    by decide, rfl, by decide⟩,
   ⟨{ sv with ledger := { nextSerial := 2, port := [(.release 7 true, 1)] } },
    jb (.ward 0) 2 [(0x28, 1)] .intake (zeros 4096), ⟨1, 2, 3, 4⟩, 7, sound_of rfl, rfl, rfl, rfl, rfl, by decide,
    by decide⟩,
   ⟨dueAt (jj .admin) (it .admin 0x49 .none), jj .admin, it .admin 0x49 .none, sound_of rfl, ⟨by decide, rfl, rfl,
    rfl, rfl, rfl, rfl, by decide, ⟨rfl, rfl, rfl⟩, rfl, rfl, rfl⟩, rfl⟩,
   ⟨{ own (wd .opened) with kcc := { ready := true, misses := [0] } }, 0, [], ⟨1, 2, 3, 4⟩, sound_of rfl, rfl, rfl,
    rfl, rfl, by decide⟩,
   ⟨{ own (wd .opened) with kcc := { ready := true, misses := [0] } }, 0, [], ⟨1, 2, 3, 4⟩, sound_of rfl, rfl, rfl,
    rfl, by decide, rfl, rfl⟩⟩

/-- DeferredAndReplay: states and operands that meet the hypotheses of each clause. -/
theorem witness_DeferredAndReplay :
    (∃ s : State, ∃ (n : Nat) (i : Intent) (k m : Nat) (p : ParRec) (d : DataRec) (old : Option Sector), ∃ o,
      Sound s ∧ s.inService = true ∧ s.ledgerDead = false ∧ deferredOf (BitVec.ofNat 64 n) s = some (i, k, p) ∧
      p.deferred = some m ∧ i.datas[m]? = some d ∧ s.intentOf i.serial = some i ∧ k < i.parities.length ∧
      oldData d old s = some o ∧ nextInRow i p m = none) ∧
    (∃ s : State, ∃ (n : Nat) (i : Intent) (k m : Nat) (p : ParRec) (d : DataRec) (old : Option Sector), ∃ o, ∃ m',
      Sound s ∧ s.inService = true ∧ s.ledgerDead = false ∧ deferredOf (BitVec.ofNat 64 n) s = some (i, k, p) ∧
      p.deferred = some m ∧ i.datas[m]? = some d ∧ s.intentOf i.serial = some i ∧ k < i.parities.length ∧
      oldData d old s = some o ∧ nextInRow i p m = some m') ∧
    (∃ s : State, ∃ (n : Nat) (i : Intent) (k m : Nat) (p : ParRec) (d : DataRec) (old : Option Sector), Sound s ∧
      s.inService = true ∧ s.ledgerDead = false ∧ deferredOf (BitVec.ofNat 64 n) s = some (i, k, p) ∧
      p.deferred = some m ∧ i.datas[m]? = some d ∧ s.intentOf i.serial = some i ∧ k < i.parities.length ∧
      oldData d old s = none) ∧
    (∃ s : State, ∃ (i : Intent) (d : DataRec) (m : Sector), Sound s ∧ s.inService = true ∧ s.ledgerDead = false ∧
      s.ledger.intents = [i] ∧ i.replay = true ∧ i.applied = false ∧ i.phase = .committed ∧ i.datas = [d] ∧
      i.parities = [] ∧ d.live = true ∧ (s.group d.addr.group).lostCol d.addr.stripe d.addr.column = false ∧
      cached d.addr s = none ∧ verified (s.group d.addr.group).d d.addr m = true ∧
      keyLt (secKey m) (secKey d.sector) = false) ∧
    (∃ s : State, ∃ (i : Intent) (d : DataRec) (m : Sector), ∃ k, Sound s ∧ s.inService = true ∧
      s.ledgerDead = false ∧ s.ledger.intents = [i] ∧ i.replay = true ∧ i.applied = false ∧ i.phase = .committed ∧
      i.datas = [d] ∧ i.parities = [] ∧ d.live = true ∧
      (s.group d.addr.group).lostCol d.addr.stripe d.addr.column = false ∧ cached d.addr s = none ∧
      verified (s.group d.addr.group).d d.addr m = true ∧ keyLt (secKey m) (secKey d.sector) = true ∧
      findLine d.addr s = some k) ∧
    (∃ s : State, ∃ (media : List (Option Sector)) (rows : List (List (Option Sector))) (slot : Nat), Sound s ∧
      s.inService = true ∧ s.ledgerDead = false ∧ s.replayLeft ≠ []) :=
  ⟨⟨{ sv with ledger := { nextSerial := 9, intents := [{ it (.ward 0) 2 .none with phase := .committed, datas := [({ serial := 0, addr := at0, sector := sec } : DataRec), ({ serial := 1, addr := at0, sector := sec } : DataRec)], parities := [({ serial := 2, addr := ⟨0, 0, 2, 0⟩, kind := 0, full := false, deferred := some 1, delta := [], covDelta := [] } : ParRec)] }] } },
    2,
    { it (.ward 0) 2 .none with phase := .committed, datas := [({ serial := 0, addr := at0, sector := sec } : DataRec), ({ serial := 1, addr := at0, sector := sec } : DataRec)], parities := [({ serial := 2, addr := ⟨0, 0, 2, 0⟩, kind := 0, full := false, deferred := some 1, delta := [], covDelta := [] } : ParRec)] },
    0, 1,
    ({ serial := 2, addr := ⟨0, 0, 2, 0⟩, kind := 0, full := false, deferred := some 1, delta := [], covDelta := [] } : ParRec),
    ({ serial := 1, addr := at0, sector := sec } : DataRec), none, sec, sound_of rfl, rfl, rfl, rfl, rfl, rfl, rfl,
    by decide, rfl, rfl⟩,
   ⟨{ sv with ledger := { nextSerial := 9, intents := [{ it (.ward 0) 2 .none with phase := .committed, datas := [({ serial := 0, addr := at0, sector := sec } : DataRec), ({ serial := 1, addr := at0, sector := sec } : DataRec), ({ serial := 4, addr := at0, sector := sec } : DataRec)], parities := [({ serial := 2, addr := ⟨0, 0, 2, 0⟩, kind := 0, full := false, deferred := some 1, delta := [], covDelta := [] } : ParRec)] }] } },
    2,
    { it (.ward 0) 2 .none with phase := .committed, datas := [({ serial := 0, addr := at0, sector := sec } : DataRec), ({ serial := 1, addr := at0, sector := sec } : DataRec), ({ serial := 4, addr := at0, sector := sec } : DataRec)], parities := [({ serial := 2, addr := ⟨0, 0, 2, 0⟩, kind := 0, full := false, deferred := some 1, delta := [], covDelta := [] } : ParRec)] },
    0, 1,
    ({ serial := 2, addr := ⟨0, 0, 2, 0⟩, kind := 0, full := false, deferred := some 1, delta := [], covDelta := [] } : ParRec),
    ({ serial := 1, addr := at0, sector := sec } : DataRec), none, sec, 2, sound_of rfl, rfl, rfl, rfl, rfl, rfl, rfl,
    by decide, rfl, rfl⟩,
   ⟨{ sv with ledger := { nextSerial := 9, intents := [{ it (.ward 0) 2 .none with phase := .committed, datas := [({ serial := 1, addr := at0, sector := sec } : DataRec), ({ serial := 1, addr := at0, sector := sec } : DataRec)], parities := [({ serial := 2, addr := ⟨0, 0, 2, 0⟩, kind := 0, full := false, deferred := some 1, delta := [], covDelta := [] } : ParRec)] }] } },
    2,
    { it (.ward 0) 2 .none with phase := .committed, datas := [({ serial := 1, addr := at0, sector := sec } : DataRec), ({ serial := 1, addr := at0, sector := sec } : DataRec)], parities := [({ serial := 2, addr := ⟨0, 0, 2, 0⟩, kind := 0, full := false, deferred := some 1, delta := [], covDelta := [] } : ParRec)] },
    0, 1,
    ({ serial := 2, addr := ⟨0, 0, 2, 0⟩, kind := 0, full := false, deferred := some 1, delta := [], covDelta := [] } : ParRec),
    ({ serial := 1, addr := at0, sector := sec } : DataRec), none, sound_of rfl, rfl, rfl, rfl, rfl, rfl, rfl,
    by decide, rfl⟩,
   ⟨{ sv with ledger := { nextSerial := 5, replaying := true, intents := [{ it (.ward 0) 2 .none with phase := .committed, replay := true, datas := [({ serial := 1, addr := at0, sector := sec } : DataRec)] }] } },
    { it (.ward 0) 2 .none with phase := .committed, replay := true, datas := [({ serial := 1, addr := at0, sector := sec } : DataRec)] },
    ({ serial := 1, addr := at0, sector := sec } : DataRec), sec, sound_of rfl, rfl, rfl, rfl, rfl, rfl, rfl, rfl,
    rfl, rfl, rfl, rfl, verified_sec, rfl⟩,
   ⟨{ sv with ledger := { nextSerial := 5, replaying := true, intents := [{ it (.ward 0) 2 .none with phase := .committed, replay := true, datas := [({ serial := 1, addr := at0, sector := newer } : DataRec)] }] }, cache := { ready := true, lines := [(0, { busy := true })] } },
    { it (.ward 0) 2 .none with phase := .committed, replay := true, datas := [({ serial := 1, addr := at0, sector := newer } : DataRec)] },
    ({ serial := 1, addr := at0, sector := newer } : DataRec), sec, 0, sound_of rfl, rfl, rfl, rfl, rfl, rfl, rfl,
    rfl, rfl, rfl, rfl, rfl, verified_sec, rfl, rfl⟩,
   ⟨{ sv with ledger := { nextSerial := 5, replaying := true, intents := [{ it (.ward 0) 2 .none with phase := .committed, replay := true, datas := [({ serial := 1, addr := at0, sector := sec } : DataRec)] }] } },
    [], [], 0, sound_of rfl, rfl, rfl, by decide⟩⟩

/-- CacheAndDestage: states and operands that meet the hypotheses of each clause. -/
theorem witness_CacheAndDestage :
    (∃ (s : State) (a : SubAddr) (k : Nat), ∃ (r : MediaRead) (x : Sector), Sound s ∧ Quiet s ∧ s.recoveries = [] ∧
      findLine a s = some k ∧ s.awake = true ∧
      s.reads.find? (fun r => r.addr == a && r.path.isNone && r.img.isSome && decide (r.why ≠ .verify)) = some r ∧
      r.img = some x ∧ r.why = .fill ∧ r.around = false ∧ cached a s = none ∧ ledgerData a s = none ∧
      a.column < (s.group a.group).d) ∧
    (∃ (s : State) (a : SubAddr) (k : Nat), ∃ x, Sound s ∧ Quiet s ∧ s.recoveries = [] ∧ findLine a s = some k ∧
      cached a s = some x ∧ x.dirty = true ∧ x.queued = false ∧ s.destageAge ≠ 0 ∧ s.destageAge < x.age ∧
      inCellQueue a s = false) ∧
    (∃ (s : State) (a : SubAddr) (k : Nat), ∃ x, Sound s ∧ Quiet s ∧ s.recoveries = [] ∧ findLine a s = some k ∧
      cached a s = some x ∧ x.dirty = true ∧ x.queued = true ∧ s.inService = true ∧ s.ledgerDead = false ∧
      (s.group a.group).defined = true ∧ (s.group a.group).lostCol a.stripe a.column = false ∧
      writeQueued a s = false ∧ deferredOn a s = false ∧
      queueOpen ((s.group a.group).cellOf a.stripe a.column) a s = true) ∧
    (∃ (s : State) (a : SubAddr) (k : Nat), ∃ slot, Sound s ∧ Quiet s ∧ s.recoveries = [] ∧ cached a s = none ∧
      usesRecord a slot s = true ∧ s.inService = true ∧ s.ledgerDead = false) :=
  ⟨⟨{ sv with cache := { ready := true, lines := [(0, { busy := true })] }, reads := [({ key := 7, addr := at0, cell := 1, why := .fill, cls := 0, img := some sec } : MediaRead)], nextRead := 8 },
    at0, 0, ({ key := 7, addr := at0, cell := 1, why := .fill, cls := 0, img := some sec } : MediaRead), sec,
    sound_of rfl, ⟨by decide, rfl, rfl⟩, rfl, rfl, rfl, rfl, rfl, rfl, rfl, rfl, rfl, by decide⟩,
   ⟨{ sv with cache := { ready := true, lines := [(0, { subs := [(0, some { sector := sec, dirty := true, age := 51 })] })] } },
    at0, 0, ({ sector := sec, dirty := true, age := 51 } : Sub), sound_of rfl, ⟨by decide, rfl, rfl⟩, rfl, rfl, rfl,
    rfl, rfl, by decide, by decide, rfl⟩,
   ⟨{ sv with cache := { ready := true, lines := [(0, { subs := [(0, some { sector := sec, dirty := true, queued := true })] })] } },
    at0, 0, ({ sector := sec, dirty := true, queued := true } : Sub), sound_of rfl, ⟨by decide, rfl, rfl⟩, rfl, rfl,
    rfl, rfl, rfl, rfl, rfl, rfl, rfl, rfl, rfl, rfl⟩,
   ⟨{ sv with ledger := { nextSerial := 9, intents := [{ it (.ward 0) 2 .none with phase := .committed, datas := [({ serial := 3, addr := at0, sector := sec, slot := 5 } : DataRec)] }] } },
    at0, 0, 5, sound_of rfl, ⟨by decide, rfl, rfl⟩, rfl, rfl, rfl, rfl, rfl⟩⟩

/-- SectorsAreWritten: states and operands that meet the hypotheses of each clause. -/
theorem witness_SectorsAreWritten :
    (∃ (s : State) (c : CellId) (k : Nat) (q : QWrite), Sound s ∧ Quiet s ∧ s.recoveries = [] ∧
      s.qwrite c k = some q ∧ (∀ d, (s.cell d).gateDue = none) ∧ q.repair = false ∧ (s.cell c).writing = some k) ∧
    (∃ (s : State) (c : CellId) (k : Nat) (q : QWrite), Sound s ∧ Quiet s ∧ s.recoveries = [] ∧
      s.qwrite c k = some q ∧ (∀ d, (s.cell d).gateDue = none) ∧ q.repair = false ∧ q.torn = true ∧
      s.inService = true ∧ (s.cell c).writable = true ∧ onTrack c q.addr s = true) ∧
    (∃ (s : State) (c : CellId) (k : Nat) (q : QWrite), Sound s ∧ Quiet s ∧ s.recoveries = [] ∧
      s.qwrite c k = some q ∧ (∀ d, (s.cell d).gateDue = none) ∧ repairOf k s = some (c, q) ∧ q.key = k ∧
      s.inService = true ∧ (s.cell c).writable = true ∧ onTrack c q.addr s = true ∧ repairStale c q s = false ∧
      q.repair = true) :=
  ⟨⟨{ sv with cells := [(1, { cl with queue := [({ addr := at0, sector := sec, key := 7 } : QWrite)], writing := some 7 })] },
    1, 7, ({ addr := at0, sector := sec, key := 7 } : QWrite), sound_of rfl, ⟨by decide, rfl, rfl⟩, rfl, rfl,
    (fun d => by revert d; decide), rfl, rfl⟩,
   ⟨{ sv with cells := [(1, { cl with queue := [({ addr := at0, sector := sec, key := 7, torn := true } : QWrite)] })] },
    1, 7, ({ addr := at0, sector := sec, key := 7, torn := true } : QWrite), sound_of rfl, ⟨by decide, rfl, rfl⟩, rfl,
    rfl, (fun d => by revert d; decide), rfl, rfl, rfl, rfl, rfl⟩,
   ⟨{ sv with cells := [(1, { cl with queue := [({ addr := at0, sector := sec, key := 7, repair := true } : QWrite)] })] },
    1, 7, ({ addr := at0, sector := sec, key := 7, repair := true } : QWrite), sound_of rfl, ⟨by decide, rfl, rfl⟩,
    rfl, rfl, (fun d => by revert d; decide), rfl, rfl, rfl, rfl, rfl, rfl, rfl⟩⟩

/-- WaysRetire: states and operands that meet the hypotheses of each clause. -/
theorem witness_WaysRetire :
    (∃ (s : State) (v : Fin 16), Sound s ∧ s.handedOff = true ∧ s.cache.ready = true ∧
      s.cache.retired.getLsbD v.val = false ∧ s.cache.errors.get 0 v.val < 15) ∧
    (∃ (s : State) (v : Fin 16), ∃ kind : EccKind, Sound s ∧ s.handedOff = true ∧ s.cache.ready = true ∧
      s.cache.retired.getLsbD v.val = false ∧ s.cache.retired ||| (1#16 <<< v.val) ≠ 0xFFFF ∧ kind ≠ .corrected) ∧
    (∃ (s : State) (v : Fin 16), Sound s ∧ s.handedOff = true ∧ s.cache.ready = true ∧
      s.cache.retired.getLsbD v.val = false ∧ s.cache.retired ||| (1#16 <<< v.val) ≠ 0xFFFF ∧
      16 ≤ s.cache.errors.get 0 v.val) :=
  ⟨⟨{ on with cache := { ready := true, errors := [(15, 14)] } }, 15, sound_of rfl, rfl, rfl, rfl, by decide⟩,
   ⟨{ on with cache := { ready := true, retired := 0x3FFF } }, 15, .tagParity, sound_of rfl, rfl, rfl, rfl, by decide,
    by decide⟩,
   ⟨{ on with cache := { ready := true, errors := [(15, 16)] } }, 15, sound_of rfl, rfl, rfl, rfl, by decide,
    by decide⟩⟩

/-- CaptureUnits: states and operands that meet the hypotheses of each clause. -/
theorem witness_CaptureUnits :
    (∃ (s : State) (n : Nat) (p : PortId) (e : RxEvent),
      let u := wait (n + 1) s
      ∃ fixed, Sound s ∧ receiving p u = true ∧ e = .sfd fixed ∧ (u.port p).rx = none) ∧
    (∃ (s : State) (n : Nat) (p : PortId) (e : RxEvent),
      let u := wait (n + 1) s
      ∃ f r, Sound s ∧ receiving p u = true ∧ e = .ends f ∧ (u.port p).rx = some r ∧ f.bytes.length < 64) ∧
    (∃ (s : State) (n : Nat) (p : PortId) (e : RxEvent),
      let u := wait (n + 1) s
      ∃ f r, Sound s ∧ receiving p u = true ∧ e = .ends f ∧ (u.port p).rx = some r ∧
      frameError (portMode p s) f = none ∧ r.cls = .unmatched) ∧
    (∃ (s : State) (n : Nat) (p : PortId) (e : RxEvent),
      let u := wait (n + 1) s
      ∃ f r, ∃ i tie len, Sound s ∧ receiving p u = true ∧ e = .ends f ∧ (u.port p).rx = some r ∧
      frameError (portMode p s) f = none ∧ r.cls = .won i tie none ∧
      (s.tumb i).count.toNat % 2 ^ (byteAt 0x29 (s.tumb i).image).toNat = 0 ∧ tumbRate (s.tumb i).image = 0 ∧
      len = (match tumbSnap (s.tumb i).image with | some k => min f.bytes.length k | none => f.bytes.length) ∧
      shedHere (tumbWard (s.tumb i).image) (charge len) s = false) ∧
    (∃ (s : State) (p : PortId) (w : WardId), Sound s ∧ s.awake = true ∧ s.pwr.domains.getLsbD 3 = true ∧
      (portCtrl p s).getLsbD 0 = true) ∧
    (∃ (s : State) (p : PortId) (w : WardId), ∃ (what : PcsPart) (got : Nat), Sound s ∧ s.awake = true ∧
      s.pwr.domains.getLsbD 3 = true ∧ linkUp p s = true ∧ (what = .marker → portMode p s = 4)) ∧
    (∃ (s : State) (p : PortId) (w : WardId), ∃ b, Sound s ∧ (s.ward w).openBlk = some b ∧
      bits 0 8 (s.reg 0x0C800) ≠ 0 ∧ bits 0 8 (s.reg 0x0C800) < b.ticks ∧ s.awake = true) ∧
    (∃ (s : State) (p : PortId) (w : WardId), ∃ e l, Sound s ∧ s.handedOff = true ∧ s.obs.enabled = true ∧
      s.evlogFull = false ∧ s.dmaOpen = true ∧ s.host.flr = none ∧ s.obs.events = e :: l ∧ s.obs.lost = 0) :=
  ⟨⟨{ sv with regs := [(0x0C000, 5)], cap := { ports := [(0, { blockLock := true })] } }, 0, 0, .sfd true, true,
    sound_of rfl, rfl, rfl, rfl⟩,
   ⟨{ sv with regs := [(0x0C000, 5)], cap := { ports := [(0, { blockLock := true, rx := some ({ stamp := 0, valid := true, cls := .waits } : Rx) })] } },
    0, 0, .ends ⟨zeros 63, false, false⟩, ⟨zeros 63, false, false⟩,
    ({ stamp := 0, valid := true, cls := .waits } : Rx), sound_of rfl, rfl, rfl, rfl, by decide⟩,
   ⟨{ sv with regs := [(0x0C000, 5)], cap := { ports := [(0, { blockLock := true, rx := some ({ stamp := 0, valid := true, cls := .unmatched } : Rx) })] } },
    0, 0, .ends frame, frame, ({ stamp := 0, valid := true, cls := .unmatched } : Rx), sound_of rfl, rfl, rfl, rfl,
    frame_ok 2, rfl⟩,
   ⟨own (wd .opened) ({ sv with regs := [(0x0C000, 5)], cap := { ports := [(0, { blockLock := true, rx := some ({ stamp := 0, valid := true, cls := .won 8191 true none } : Rx) })], tumbler := [(8191, { image := ent 3 [] 0 })] } }),
    0, 0, .ends frame, frame, ({ stamp := 0, valid := true, cls := .won 8191 true none } : Rx), 8191, true, 64,
    sound_of rfl, rfl, rfl, rfl, frame_ok 2, rfl, rfl, rfl, rfl, rfl⟩,
   ⟨{ sv with regs := [(0x0C000, 5)], cap := { ports := [(0, { blockLock := true })] } }, 0, 0, sound_of rfl, rfl,
    rfl, rfl⟩,
   ⟨{ sv with regs := [(0x0C000, 5)], cap := { ports := [(0, { blockLock := true })] } }, 0, 0, .ber, 255,
    sound_of rfl, rfl, rfl, rfl, by decide⟩,
   ⟨own { wd .opened with openBlk := some { count := 1, ticks := 11 } } sv, 0, 0, { count := 1, ticks := 11 },
    sound_of rfl, rfl, by decide, by decide, rfl⟩,
   ⟨{ on with obs := { enabled := true, placed := true, events := [({ code := 0x0301 } : Event)], head := 2 } }, 0, 0,
    ({ code := 0x0301 } : Event), [], sound_of rfl, rfl, rfl, rfl, rfl, rfl, rfl, rfl⟩⟩

/-- SectorsAreRead: states and operands that meet the hypotheses of each clause. -/
theorem witness_SectorsAreRead :
    (∃ (s : State) (k : Nat) (o : SectorObs), ∃ r, ∃ x, Sound s ∧ Quiet s ∧ s.inService = true ∧ s.recoveries = [] ∧
      s.reads.find? (fun r => r.key == k) = some r ∧ r.img = none ∧ r.why ≠ .verify ∧ r.path = none ∧
      (s.group r.addr.group).lostCol r.addr.stripe r.addr.column = false ∧
      (s.group r.addr.group).cellOf r.addr.stripe r.addr.column = r.cell ∧ (s.cell r.cell).readable = true ∧
      onTrack r.cell r.addr s = true ∧ o.offTrack = false ∧ o.img = some x ∧
      verified (s.group r.addr.group).d r.addr x = true) ∧
    (∃ (s : State) (k : Nat) (o : SectorObs), ∃ r, Sound s ∧ Quiet s ∧ s.inService = true ∧ s.recoveries = [] ∧
      s.reads.find? (fun r => r.key == k) = some r ∧ r.img = none ∧ r.why ≠ .verify ∧ r.path = none ∧
      (s.group r.addr.group).lostCol r.addr.stripe r.addr.column = false ∧
      (s.group r.addr.group).cellOf r.addr.stripe r.addr.column = r.cell ∧ (s.cell r.cell).readable = true ∧
      onTrack r.cell r.addr s = true ∧ o.offTrack = false ∧ o.img = none) ∧
    (∃ (s : State) (k : Nat) (o : SectorObs), ∃ r, Sound s ∧ Quiet s ∧ s.inService = true ∧ s.recoveries = [] ∧
      s.reads.find? (fun r => r.key == k) = some r ∧ r.img = none ∧ r.why ≠ .verify ∧ r.path = none ∧
      (s.group r.addr.group).lostCol r.addr.stripe r.addr.column = false ∧
      (s.group r.addr.group).cellOf r.addr.stripe r.addr.column = r.cell ∧ (s.cell r.cell).readable = true ∧
      onTrack r.cell r.addr s = true ∧ o.offTrack = true) ∧
    (∃ (s : State) (k : Nat) (o : SectorObs), ∃ r, ∃ x, Sound s ∧ Quiet s ∧ s.inService = true ∧ s.recoveries = [r] ∧
      r.key = k ∧ r.retry = true ∧ r.won = none ∧ (s.cell r.cell).retry = some k ∧ (s.cell r.cell).readable = true ∧
      onTrack r.cell r.addr s = true ∧ o.offTrack = false ∧ o.img = some x ∧
      verified (s.group r.addr.group).d r.addr x = true ∧ r.why = .fill ∧ r.degraded = false ∧
      (s.group r.addr.group).lostCol r.addr.stripe r.addr.column = false ∧
      (s.group r.addr.group).cellOf r.addr.stripe r.addr.column = r.cell) ∧
    (∃ (s : State) (k : Nat) (o : SectorObs), ∃ r, Sound s ∧ Quiet s ∧ s.inService = true ∧ s.recoveries = [r] ∧
      r.key = k ∧ r.retry = true ∧ r.won = none ∧ (s.cell r.cell).retry = some k ∧ (s.cell r.cell).readable = true ∧
      onTrack r.cell r.addr s = true ∧ o.offTrack = false ∧ o.img = none ∧ r.parity = false ∧ r.pass < 15) ∧
    (∃ (s : State) (k : Nat) (o : SectorObs), ∃ r, Sound s ∧ Quiet s ∧ s.inService = true ∧ s.recoveries = [r] ∧
      r.key = k ∧ r.retry = true ∧ r.won = none ∧ (s.cell r.cell).retry = some k ∧ (s.cell r.cell).readable = true ∧
      onTrack r.cell r.addr s = true ∧ o.offTrack = false ∧ o.img = none ∧ r.parity = false ∧ r.pass = 15) :=
  ⟨⟨{ sv with reads := [({ key := 7, addr := at0, cell := 1, why := .fill, cls := 0 } : MediaRead)], nextRead := 8 },
    7, ⟨some sec, false, 24, 0, false⟩, ({ key := 7, addr := at0, cell := 1, why := .fill, cls := 0 } : MediaRead),
    sec, sound_of rfl, ⟨by decide, rfl, rfl⟩, rfl, rfl, rfl, rfl, by decide, rfl, rfl, rfl, rfl, rfl, rfl, rfl,
    verified_sec⟩,
   ⟨{ sv with reads := [({ key := 7, addr := at0, cell := 1, why := .fill, cls := 0 } : MediaRead)], nextRead := 8 },
    7, ⟨none, false, 0, 0, false⟩, ({ key := 7, addr := at0, cell := 1, why := .fill, cls := 0 } : MediaRead),
    sound_of rfl, ⟨by decide, rfl, rfl⟩, rfl, rfl, rfl, rfl, by decide, rfl, rfl, rfl, rfl, rfl, rfl, rfl⟩,
   ⟨{ sv with reads := [({ key := 7, addr := at0, cell := 1, why := .fill, cls := 0 } : MediaRead)], nextRead := 8 },
    7, ⟨some sec, false, 0, 0, true⟩, ({ key := 7, addr := at0, cell := 1, why := .fill, cls := 0 } : MediaRead),
    sound_of rfl, ⟨by decide, rfl, rfl⟩, rfl, rfl, rfl, rfl, by decide, rfl, rfl, rfl, rfl, rfl, rfl⟩,
   ⟨{ sv with recoveries := [({ key := 7, addr := at0, cell := 1, why := .fill, cls := 0, pass := 15 } : Recovery)], nextRead := 8, cells := [(0, cl), (1, { cl with retry := some 7 }), (2, cl), (3, cl)] },
    7, ⟨some sec, false, 24, 0, false⟩,
    ({ key := 7, addr := at0, cell := 1, why := .fill, cls := 0, pass := 15 } : Recovery), sec, sound_of rfl,
    ⟨by decide, rfl, rfl⟩, rfl, rfl, rfl, rfl, rfl, rfl, rfl, rfl, rfl, rfl, verified_sec, rfl, rfl, rfl, rfl⟩,
   ⟨{ sv with recoveries := [({ key := 7, addr := at0, cell := 1, why := .fill, cls := 0, pass := 14, parity := false } : Recovery)], nextRead := 8, cells := [(0, cl), (1, { cl with retry := some 7 }), (2, cl), (3, cl)] },
    7, ⟨none, false, 0, 0, false⟩,
    ({ key := 7, addr := at0, cell := 1, why := .fill, cls := 0, pass := 14, parity := false } : Recovery),
    sound_of rfl, ⟨by decide, rfl, rfl⟩, rfl, rfl, rfl, rfl, rfl, rfl, rfl, rfl, rfl, rfl, rfl, by decide⟩,
   ⟨{ sv with recoveries := [({ key := 7, addr := at0, cell := 1, why := .fill, cls := 0, pass := 15, parity := false } : Recovery)], nextRead := 8, cells := [(0, cl), (1, { cl with retry := some 7 }), (2, cl), (3, cl)] },
    7, ⟨none, false, 0, 0, false⟩,
    ({ key := 7, addr := at0, cell := 1, why := .fill, cls := 0, pass := 15, parity := false } : Recovery),
    sound_of rfl, ⟨by decide, rfl, rfl⟩, rfl, rfl, rfl, rfl, rfl, rfl, rfl, rfl, rfl, rfl, rfl, rfl⟩⟩

/-- ArmLinkResponses: states and operands that meet the hypotheses of each clause. -/
theorem witness_ArmLinkResponses :
    (∃ (s : State) (c : CellId) (f sent : Word), Sound s ∧ (s.cell c).bring ≠ .off ∧ s.awake = true ∧
      (s.cell c).arm.sent = some sent ∧ s.mediaOn = true ∧ s.inHold = true ∧ responsePasses sent f = true ∧
      bits 24 2 f = 0 ∧ frmCmd f = 6 ∧ frmArg sent % 8 = 2 ∧
      (BitVec.ofNat 16 (bits 8 16 f)).toInt < 2 * bits 0 8 (s.reg (0x12020 + 0x400 * c.val))) ∧
    (∃ (s : State) (c : CellId) (f sent : Word), Sound s ∧ (s.cell c).bring ≠ .off ∧ s.awake = true ∧
      (s.cell c).arm.sent = some sent ∧ s.mediaOn = true ∧ s.inHold = true ∧ responsePasses sent f = false ∧
      (s.cell c).arm.badRun < 3 ∧ (s.cell c).arm.badTick < 15) ∧
    (∃ (s : State) (c : CellId) (f sent : Word), Sound s ∧ (s.cell c).bring ≠ .off ∧ s.awake = true ∧
      4 ≤ (s.cell c).arm.badRun ∧ (s.cell c).fault ≠ 1) :=
  ⟨⟨{ pw (fun p => { p with mode := .safeHold, domains := 0x7F }) with cells := [(15, { cl with arm := { sent := some 0x60000200 } })] },
    15, 0x60008160, 0x60000200, sound_of rfl, by decide, rfl, rfl, rfl, rfl, by decide +kernel, rfl, rfl, rfl,
    by decide⟩,
   ⟨{ pw (fun p => { p with mode := .safeHold, domains := 0x7F }) with cells := [(15, { cl with arm := { sent := some 0x60000200, badRun := 2, badTick := 14 } })] },
    15, 0, 0x60000200, sound_of rfl, by decide, rfl, rfl, rfl, rfl, by decide +kernel, by decide, by decide⟩,
   ⟨{ pw (fun p => { p with mode := .safeHold, domains := 0x7F }) with cells := [(15, { cl with arm := { sent := some 0x60000200, badRun := 4 } })] },
    15, 0, 0x60000200, sound_of rfl, by decide, rfl, by decide, by decide⟩⟩

/-- CellBringUp: states and operands that meet the hypotheses of each clause. -/
theorem witness_CellBringUp :
    (∃ (s : State) (c : CellId), Sound s ∧ s.awake = true ∧ (s.cell c).bring = .loading ∧
      (s.cell c).servo.loaded = true) ∧
    (∃ (s : State) (c : CellId), Sound s ∧ s.awake = true ∧ (s.cell c).clockLock = true ∧
      (s.cell c).servo.loaded = true ∧ (s.cell c).fault = 0) ∧
    (∃ (s : State) (c : CellId), Sound s ∧ s.awake = true ∧ (s.cell c).bring = .spinning ∧ s.inHold = true) ∧
    (∃ (s : State) (c : CellId), Sound s ∧ s.awake = true ∧ 1 ≤ (s.cell c).high ∧ s.presentHigh c = some true ∧
      (s.cell c).absent = false) ∧
    (∃ (s : State) (c : CellId), Sound s ∧ s.awake = true ∧ bits 0 16 (s.reg (0x16020 + 0x400 * c.val)) ≠ 0 ∧
      bits 0 16 (s.reg (0x16020 + 0x400 * c.val)) < (s.cell c).idle ∧ (s.cell c).servo.loaded = true ∧
      (s.cell c).arm.parking = false) :=
  ⟨⟨{ sv with cells := [(0, { cl with bring := .loading })] }, 0, sound_of rfl, rfl, rfl, rfl⟩,
   ⟨{ sv with cells := [(0, cl)] }, 0, sound_of rfl, rfl, rfl, rfl, rfl⟩,
   ⟨{ pw (fun p => { p with mode := .safeHold, domains := 0x7F }) sv with cells := [(0, { bring := .spinning })] }, 0,
    sound_of rfl, rfl, rfl, rfl⟩,
   ⟨{ sv with cells := [(0, { cl with high := 1 })], pin := { cfg := [(0, 9)], levels := 1 } }, 0, sound_of rfl, rfl,
    by decide, rfl, rfl⟩,
   ⟨{ sv with cells := [(0, { cl with idle := 2 })], regs := [(0x16020, 1)] }, 0, sound_of rfl, rfl, by decide,
    by decide, rfl, rfl⟩⟩

/-- ServoRows: states and operands that meet the hypotheses of each clause. -/
theorem witness_ServoRows :
    (∃ (s : State) (c : CellId), ∃ o : ColzorObs, Sound s ∧ s.awake = true ∧ (s.cell c).servo.loaded = true ∧
      s.mediaOn = true ∧ o.sync = false ∧ (s.cell c).servo.missed ≠ 15) ∧
    (∃ (s : State) (c : CellId), ∃ o : ColzorObs, Sound s ∧ s.awake = true ∧ (s.cell c).servo.loaded = true ∧
      s.mediaOn = true ∧ o.sync = true ∧ o.codeOk = true ∧ 6 ≤ o.pairs.length) ∧
    (∃ (s : State) (c : CellId), ∃ o : WedgeObs, Sound s ∧ s.awake = true ∧ (s.cell c).servo.loaded = true ∧
      (s.cell c).clockLock = true ∧ ((s.cell c).bring = .acquiring ∨ (s.cell c).bring = .ready) ∧
      (∀ d, (s.cell d).gateDue = none)) ∧
    (∃ (s : State) (c : CellId), Sound s ∧ s.awake = true ∧ (s.cell c).servo.loaded = true ∧
      (s.cell c).bring = .ready ∧ (s.cell c).servo.reacquiring = false ∧ 8 ≤ (s.cell c).servo.run) ∧
    (∃ (s : State) (c : CellId), Sound s ∧ s.awake = true ∧ (s.cell c).servo.loaded = true ∧
      (s.cell c).servo.seeking = true ∧ (s.cell c).servo.seekFails < 2) ∧
    (∃ (s : State) (c : CellId), Sound s ∧ s.awake = true ∧ (s.cell c).servo.loaded = true ∧ loadFails c s = true ∧
      (s.cell c).fault = 0) ∧
    (∃ (s : State) (c : CellId), ∃ cause, Sound s ∧ s.awake = true ∧ (s.cell c).servo.loaded = true ∧
      doubtStands c cause s = true ∧ (s.cell c).fault = 0) :=
  ⟨⟨{ sv with cells := [(0, { cl with servo := { cl.servo with missed := 14 } })] }, 0, ⟨false, false, false, 0, []⟩,
    sound_of rfl, rfl, rfl, rfl, rfl, by decide⟩,
   ⟨{ sv with cells := [(0, cl)] }, 0, ⟨true, false, true, 0, [0, 0, 0, 0, 0, 0]⟩, sound_of rfl, rfl, rfl, rfl, rfl,
    rfl, by decide⟩,
   ⟨{ sv with cells := [(0, cl)] }, 0, ⟨true, true, 0, 0, 1, 1⟩, sound_of rfl, rfl, rfl, rfl, by decide,
    (fun d => by revert d; decide)⟩,
   ⟨{ sv with cells := [(0, { cl with servo := { cl.servo with run := 8 } })] }, 0, sound_of rfl, rfl, rfl, rfl, rfl,
    by decide⟩,
   ⟨{ sv with cells := [(0, { cl with servo := { cl.servo with seeking := true, seekFails := 1 } })] }, 0,
    sound_of rfl, rfl, rfl, rfl, by decide⟩,
   ⟨{ sv with cells := [(0, { cl with bring := .loading })] }, 0, sound_of rfl, rfl, rfl, rfl, rfl⟩,
   ⟨{ sv with cells := [(0, { cl with servo := { cl.servo with missed := 16 } })] }, 0, 3, sound_of rfl, rfl, rfl,
    rfl, rfl⟩⟩

/-- BackgroundRows: states and operands that meet the hypotheses of each clause. -/
theorem witness_BackgroundRows :
    (∃ (s : State) (g : GroupId) (rows : List (List RowRead)) (row : List RowRead), Sound s ∧ Quiet s ∧
      s.recoveries = [] ∧ s.inService = true ∧ (∀ l ∈ row :: rows, ∀ o ∈ l, o.first.offTrack = false) ∧
      (s.group g).defined = true ∧ (s.group g).down = false ∧ (s.group g).initFront < (s.group g).stripes ∧
      groupIdle (s.group g) s = true ∧ (s.group g).rebuild.active = false) ∧
    (∃ (s : State) (g : GroupId) (rows : List (List RowRead)) (row : List RowRead), ∃ c, Sound s ∧ Quiet s ∧
      s.recoveries = [] ∧ s.inService = true ∧ (∀ l ∈ row :: rows, ∀ o ∈ l, o.first.offTrack = false) ∧
      (s.group g).spare = some c ∧ (s.group g).rebuild.active = true ∧ (s.group g).down = false ∧
      (s.group g).rebuild.front < (s.group g).stripes ∧ (s.group g).rebuild.front < (s.group g).initFront ∧
      stripeLive g (s.group g).rebuild.front s = true) ∧
    (∃ (s : State) (g : GroupId) (rows : List (List RowRead)) (row : List RowRead), ∃ c, Sound s ∧ Quiet s ∧
      s.recoveries = [] ∧ s.inService = true ∧ (∀ l ∈ row :: rows, ∀ o ∈ l, o.first.offTrack = false) ∧
      (s.group g).spare = some c ∧ (s.group g).rebuild.active = true ∧ (s.group g).down = false ∧
      (s.group g).rebuild.front < (s.group g).stripes ∧ (s.group g).rebuild.front < (s.group g).initFront ∧
      stripeLive g (s.group g).rebuild.front s = false ∧ 65536 ≤ (s.group g).rebuild.credit ∧
      (s.group g).rebuild.sub = 0 ∧ groupIdle (s.group g) s = true ∧
      (s.group g).rebuild.front + 1 < (s.group g).stripes) ∧
    (∃ (s : State) (g : GroupId) (rows : List (List RowRead)) (row : List RowRead), ∃ c, Sound s ∧ Quiet s ∧
      s.recoveries = [] ∧ s.inService = true ∧ (∀ l ∈ row :: rows, ∀ o ∈ l, o.first.offTrack = false) ∧
      (s.group g).spare = some c ∧ (s.group g).rebuild.active = true ∧ (s.group g).down = false ∧
      (s.group g).rebuild.front < (s.group g).stripes ∧ (s.group g).rebuild.front < (s.group g).initFront ∧
      stripeLive g (s.group g).rebuild.front s = false ∧ 65536 ≤ (s.group g).rebuild.credit ∧
      (s.group g).rebuild.sub = 0 ∧ groupIdle (s.group g) s = true ∧
      (s.group g).rebuild.front + 1 = (s.group g).stripes) ∧
    (∃ (s : State) (g : GroupId) (rows : List (List RowRead)) (row : List RowRead), Sound s ∧ Quiet s ∧
      s.recoveries = [] ∧ s.inService = true ∧ (∀ l ∈ row :: rows, ∀ o ∈ l, o.first.offTrack = false) ∧
      (s.group g).scrub.active = true ∧ (s.group g).state = 0 ∧ (s.group g).scrub.front < (s.group g).initFront ∧
      stripeLive g (s.group g).scrub.front s = false ∧ 4096 * (s.group g).n ≤ (s.group g).scrub.credit ∧
      groupIdle (s.group g) s = true ∧ (s.group g).scrub.sub < 15) ∧
    (∃ (s : State) (g : GroupId) (rows : List (List RowRead)) (row : List RowRead), Sound s ∧ Quiet s ∧
      s.recoveries = [] ∧ s.inService = true ∧ (∀ l ∈ row :: rows, ∀ o ∈ l, o.first.offTrack = false) ∧
      (s.group g).scrub.active = true ∧ (s.group g).state = 0 ∧ (s.group g).scrub.front < (s.group g).initFront ∧
      stripeLive g (s.group g).scrub.front s = false ∧ 4096 * (s.group g).n ≤ (s.group g).scrub.credit ∧
      groupIdle (s.group g) s = true ∧ (s.group g).scrub.sub = 15 ∧
      (s.group g).scrub.front + 1 < (s.group g).initFront) :=
  ⟨⟨{ sv with groups := [(0, { gr with initFront := 99 })] }, 0, [], [], sound_of rfl, ⟨by decide, rfl, rfl⟩, rfl,
    rfl, by decide, rfl, rfl, by decide, rfl, rfl⟩,
   ⟨{ sv with groups := [(0, { gr with failed := [0], rebuild := { active := true, front := 98, credit := 65536 } })], ledger := { nextSerial := 5, intents := [{ it (.ward 0) 2 .none with phase := .committed, datas := [({ serial := 1, addr := ⟨0, 98, 0, 0⟩, sector := sec } : DataRec)] }] } },
    0, [], [], 3, sound_of rfl, ⟨by decide, rfl, rfl⟩, rfl, rfl, by decide, rfl, rfl, rfl, by decide, by decide, rfl⟩,
   ⟨{ sv with groups := [(0, { gr with failed := [0], rebuild := { active := true, front := 98, credit := 65536 } })] },
    0, [], [], 3, sound_of rfl, ⟨by decide, rfl, rfl⟩, rfl, rfl, by decide, rfl, rfl, rfl, by decide, by decide, rfl,
    by decide, rfl, rfl, by decide⟩,
   ⟨{ sv with groups := [(0, { gr with failed := [0], rebuild := { active := true, front := 99, credit := 65536 } })] },
    0, [], [], 3, sound_of rfl, ⟨by decide, rfl, rfl⟩, rfl, rfl, by decide, rfl, rfl, rfl, by decide, by decide, rfl,
    by decide, rfl, rfl, rfl⟩,
   ⟨{ sv with groups := [(0, { gr with scrub := { active := true, front := 99, sub := 14, credit := 12288 } })] }, 0,
    [], [], sound_of rfl, ⟨by decide, rfl, rfl⟩, rfl, rfl, by decide, rfl, rfl, by decide, rfl, by decide, rfl,
    by decide⟩,
   ⟨{ sv with groups := [(0, { gr with scrub := { active := true, front := 98, sub := 15, credit := 12288 } })] }, 0,
    [], [], sound_of rfl, ⟨by decide, rfl, rfl⟩, rfl, rfl, by decide, rfl, rfl, by decide, rfl, by decide, rfl, rfl,
    by decide⟩⟩

/-- PinCells: states and operands that meet the hypotheses of each clause. -/
theorem witness_PinCells :
    (∃ (s : State) (n : Fin 32) (v : Word), Sound s ∧ s.regOpen = true ∧ s.pinBusy n.val = false ∧
      pinLegal n.val v s = true ∧ s.pinFunc n.val ∉ [2, 3, 6, 9]) ∧
    (∃ (s : State) (n : Fin 32) (v : Word), Sound s ∧ s.regOpen = true ∧ s.pinBusy n.val = false ∧
      pinLegal n.val v s = false ∧ s.sys.rejBeat ≠ s.clk.beat) ∧
    (∃ (s : State) (n : Fin 32) (v : Word), Sound s ∧ s.regOpen = true ∧ s.pinBusy n.val = true) ∧
    (∃ (s : State) (n : Nat) (v : Word), 9 < bits 0 4 v) ∧
    (∃ (s : State) (n : Nat) (v : Word), bits 8 2 v = 3) ∧
    (∃ (s : State) (n : Nat) (v : Word), ∃ k, k < 32 ∧ k ≠ n ∧ 2 ≤ bits 0 4 v ∧ bits 0 4 v ≤ 7 ∧
      s.pinFunc k = bits 0 4 v) ∧
    (∃ (s : State) (n : Fin 32) (level : Bool), Sound s ∧ s.handedOff = true) ∧
    (∃ (s : State) (n : Fin 32) (level : Bool), ∃ b, Sound s ∧ s.handedOff = true ∧
      s.pin.switching.get none n.val = some { start := b, next := none } ∧ b.toNat ≤ s.clk.beat.toNat ∧
      s.clk.beat.toNat ≤ b.toNat + 10 ∧ b.toNat + 20 < 2 ^ 64) :=
  ⟨⟨on, 31, 8, sound_of rfl, rfl, rfl, rfl, by decide⟩,
   ⟨on, 31, 10, sound_of rfl, rfl, rfl, rfl, by decide⟩,
   ⟨{ on with pin := { switching := [(31, some ⟨0, none⟩)] } }, 31, 0, sound_of rfl, rfl, rfl⟩,
   ⟨on, 0, 10, by decide⟩,
   ⟨on, 0, 0x300, rfl⟩,
   ⟨{ on with pin := { cfg := [(31, 7)] } }, 0, 7, 31, by decide, by decide, by decide, by decide, rfl⟩,
   ⟨on, 31, true, sound_of rfl, rfl⟩,
   ⟨{ on with pin := { switching := [(31, some ⟨1999999990, none⟩)] } }, 31, true, 1999999990, sound_of rfl, rfl, rfl,
    by decide, by decide, by decide⟩⟩

/-- SidePorts: states and operands that meet the hypotheses of each clause. -/
theorem witness_SidePorts :
    (∃ (s : State) (code : BitVec 4), s.awake = true ∧ s.sec.provisioned = false) ∧
    (∃ (s : State) (code : BitVec 4), s.awake = true ∧ (s.sec.provisioned = false ∨ code = 0xF) ∧ 2 < code.toNat) ∧
    (∃ (s : State) (code : BitVec 4), s.awake = true ∧ s.sec.provisioned = true ∧ Sound s ∧ 2 < code.toNat ∧
      code ≠ 0xF) ∧
    (∃ (s : State) (addr : BitVec 7) (cmd : Byte), ∃ w, smbOpen s = true ∧ addr.toNat = bits 0 7 (s.reg 0x1B08C) ∧
      smbWord cmd.toNat s = some w) ∧
    (∃ (s : State) (addr : BitVec 7) (cmd : Byte), smbOpen s = true ∧ addr.toNat = bits 0 7 (s.reg 0x1B08C) ∧
      0x0B < cmd.toNat) ∧
    (∃ s : State, s.handedOff = true ∧ s.pin.holds 0x5 = true) ∧
    (∃ (s : State) (n : Nat), s.handedOff = true ∧ s.pinBusy n = false ∧ s.pinFunc n = 8) :=
  ⟨⟨{ on with sec := {} }, 0, rfl, rfl⟩,
   ⟨on, 0xF, rfl, by decide, by decide⟩,
   ⟨on, 0xE, rfl, rfl, sound_of rfl, by decide, by decide⟩,
   ⟨{ on with pin := { cfg := [(0, 2), (1, 3)] } }, 0x5C, 7, 0, rfl, rfl, rfl⟩,
   ⟨{ on with pin := { cfg := [(0, 2), (1, 3)] } }, 0x5C, 0x0C, rfl, rfl, by decide⟩,
   ⟨{ on with pin := { cfg := [(0, 5)] } }, rfl, rfl⟩,
   ⟨{ on with pin := { cfg := [(31, 8)] } }, 31, rfl, rfl, rfl⟩⟩

end Sys2Proof.Tests
end

/-! ## What a command leaves as it was (O7)

The frame lemmas of the operations (Laws/Frame*.lean) say, field by field, what each operation leaves alone; here they are put
together for the 157 commands. -/

namespace Sys2Proof.Machine

/-- Between `s` and `t` no part outside `l` changes. -/
def ChangesOnly (l : List Part) (s t : State) : Prop := ∀ p, p ∉ l → p.same s t

/-- The frame in the fields of the state, the form in which the frame lemmas of the operations rewrite it. -/
theorem changesOnly_iff (l : List Part) (s t : State) : ChangesOnly l s t ↔
    (Part.sys ∉ l → t.sys = s.sys) ∧ (Part.clk ∉ l → t.clk = s.clk) ∧ (Part.sec ∉ l → t.sec = s.sec) ∧
    (Part.pwr ∉ l → t.pwr = s.pwr) ∧ (Part.host ∉ l → t.host = s.host) ∧ (Part.ring ∉ l → t.ring = s.ring) ∧
    (Part.wards ∉ l → t.wards = s.wards) ∧ (Part.cap ∉ l → t.cap = s.cap) ∧ (Part.cache ∉ l → t.cache = s.cache) ∧
    (Part.kcc ∉ l → t.kcc = s.kcc) ∧ (Part.ledger ∉ l → t.ledger = s.ledger) ∧ (Part.groups ∉ l → t.groups = s.groups) ∧
    (Part.cells ∉ l → t.cells = s.cells) ∧ (Part.reads ∉ l → t.reads = s.reads) ∧ (Part.recoveries ∉ l → t.recoveries = s.recoveries) ∧
    (Part.nextRead ∉ l → t.nextRead = s.nextRead) ∧ (Part.obs ∉ l → t.obs = s.obs) ∧ (Part.pin ∉ l → t.pin = s.pin) ∧
    (Part.regs ∉ l → t.regs = s.regs) ∧ (Part.fresh ∉ l → t.fresh = s.fresh) :=
  ⟨fun h =>
    ⟨h .sys, h .clk, h .sec, h .pwr, h .host, h .ring, h .wards, h .cap, h .cache, h .kcc, h .ledger, h .groups, h
    .cells, h .reads, h .recoveries, h .nextRead, h .obs, h .pin, h .regs, h .fresh⟩,
   fun ⟨sys, clk, sec, pwr, host, ring, wards, cap, cache, kcc, ledger, groups, cells, reads, recoveries, nextRead, obs,
    pin, regs, fresh⟩ p => match p with
    | .sys => sys | .clk => clk | .sec => sec | .pwr => pwr | .host => host
    | .ring => ring | .wards => wards | .cap => cap | .cache => cache | .kcc => kcc
    | .ledger => ledger | .groups => groups | .cells => cells | .reads => reads | .recoveries => recoveries
    | .nextRead => nextRead | .obs => obs | .pin => pin | .regs => regs | .fresh => fresh⟩

/-- Commands that work neither at a ring nor at a cell. -/
theorem exec_changesOnly_of_rings_cells_kept {c : Instr} {s t : State}
    (hk : ((touches c).contains .cells, (touches c).contains .ring) = (false, false))
    (h : exec c s = .next t) : ChangesOnly (touches c) s t := by
  cases c with
  | coalesceTime | setAtPpsTimeout =>
    obtain rfl := Host.Outcome.next.inj h
    split <;> simp [changesOnly_iff, touches]
  | linkTrained | flrCaptureResume | flrDone | d0Return | l1Entry | msixEnable | msixUnmask | tlpDiscard | bar4Read
  | bar4Write | cfgRejectClear | srcPll | srcOscillator | setNow | setAtPps | taiRateWrite | ppsCtrlWrite | ppsEdge
  | taiSlew | holdover | ppsOutRise | ppsOutFall | pllLock | imagePublish | officerLockoutEnd | officerLockout |
  lockout | malformedRate | destageAge | drbgReseed | evlogHeadWrite | ratBWrite | capLinkLost | eventRecord |
  jtagIdcode | jtagBypass | jtagExtest | jtagSamplePreload | smbReadWord | smbUnsupported | uartXoff | uartXon |
  capLinkUp | l1Exit | gpioInChange =>
    obtain rfl := Host.Outcome.next.inj h
    simp [changesOnly_iff, touches]
  | _ => cases hk

/-- Commands that work at the rings and at no cell. -/
theorem exec_changesOnly_of_cells_kept {c : Instr} {s t : State}
    (hk : ((touches c).contains .cells, (touches c).contains .ring) = (false, true))
    (h : exec c s = .next t) : ChangesOnly (touches c) s t := by
  cases c with
  | flushQueue =>
    obtain rfl := Host.Outcome.next.inj h
    split <;> simp [changesOnly_iff, touches]
  | hostLinkReset | flr | d3hotEntry | bar0ReadAbort | bar2Stray | beatLoRead | taiLoRead | wardHighLoRead |
  serialLoRead | officerIdle | appendAge | chainWaitTimeout | adminEnable | adminDisable | adminFetch |
  roundaboutTurn | entryArrival | ringReadFail | ringReadRetry | dmaAbort | jobBegin | heldCommandEval | write |
  trim | openWard | sealWard | setCredential | wardInfo | identify | officerAuth | officerLogout | setTelemetryKey |
  createWard | destroyWard | resetWard | resizeWard | setWardRings | setWardSched | tumblerWrite | groupSetCreate |
  groupSetSetSpare | groupSetDelete | rebuildCtrlStart | rebuildCtrlStop | scrubCtrlStart | scrubCtrlStop |
  wayRestore | eventLogSetEnable | eventLogSetDisable | intentReserve | kccUnwrap | captureFrame | dataFetch |
  busMasterEnable =>
    obtain rfl := Host.Outcome.next.inj h
    simp [changesOnly_iff, touches]
  | _ => cases hk

/-- Commands that work at cells and leave the power state alone. -/
theorem exec_changesOnly_of_power_kept {c : Instr} {s t : State}
    (hk : ((touches c).contains .cells, (touches c).contains .pwr) = (true, false))
    (h : exec c s = .next t) : ChangesOnly (touches c) s t := by
  cases c with
  | sectorWriteDone | sectorRead | retryPass | repairRewrite | tornRewrite =>
    obtain rfl := Host.Outcome.next.inj h
    split <;> simp [changesOnly_iff, touches]
  | idlePark | upCfgWrite | pinSwitchSettle | cacheFill | armLinkLost | presentAbsent | spinUpTimeout |
  clockLockLoss | colzorFrame | wedge | reacquisition | seekFail | headLoadFail | servoDoubt | initStripe |
  rebuildStripe | scrubRow | clockLock =>
    obtain rfl := Host.Outcome.next.inj h
    simp [changesOnly_iff, touches]
  | _ => cases hk

/-- Commands that work at cells and at the power state. -/
theorem exec_changesOnly_of_power_and_cells {c : Instr} {s t : State}
    (hk : ((touches c).contains .cells, (touches c).contains .pwr) = (true, true))
    (h : exec c s = .next t) : ChangesOnly (touches c) s t := by
  cases c with
  | supplyLoss rail mv =>
    simp only [exec, execSupplyLoss] at h
    split at h
    · cases h
    · obtain rfl := Host.Outcome.next.inj h
      simp [changesOnly_iff, touches]
  | replay =>
    obtain rfl := Host.Outcome.next.inj h
    split
    · simp [changesOnly_iff, touches]
    · split <;> simp [changesOnly_iff, touches]
  | ledgerRound | destageStart | deferredDelta =>
    obtain rfl := Host.Outcome.next.inj h
    split <;> simp [changesOnly_iff, touches]
  | powerOn | pfNAssert | pfNDeassert | wakeN | perstN | zeroN | lpOverload | registerWrite | pllLoss | tick |
  mediaStall | noiseHealthFail | coldRestart | voteSet | voteClr | sleepVote | transitionEnd | holdRelease | read |
  setOfficerCredential | runSelfTest | zeroize | scacheEccError | wayRetired | armLinkResponse | powerRemoval |
  parkTimeout =>
    obtain rfl := Host.Outcome.next.inj h
    simp [changesOnly_iff, touches]
  | _ => cases hk

/-- A command changes no part that `touches` does not list. -/
theorem exec_changesOnly {c : Instr} {s t : State} (h : exec c s = .next t) : ChangesOnly (touches c) s t := by
  cases hc : (touches c).contains .cells
  · cases hr : (touches c).contains .ring
    · exact exec_changesOnly_of_rings_cells_kept (by rw [hc, hr]) h
    · exact exec_changesOnly_of_cells_kept (by rw [hc, hr]) h
  · cases hp : (touches c).contains .pwr
    · exact exec_changesOnly_of_power_kept (by rw [hc, hp]) h
    · exact exec_changesOnly_of_power_and_cells (by rw [hc, hp]) h

/-- Settles O7: command by command, from the frames of the operations it is built of. -/
theorem commandFrames : Obligations.CommandFrames := fun _ _ _ p h hp => exec_changesOnly h p hp

end Sys2Proof.Machine

/-! ## Register writes (O22) -/

namespace Sys2Proof.Machine

/-- Where register writes reach their block, no request to a BAR is an Unsupported Request. -/
theorem hostShut_of_regOpen {s : State} (h : s.regOpen = true) : s.hostShut = false := by
  simp only [State.regOpen, State.hostOpen, Bool.and_eq_true] at h
  simp [State.hostShut, h]
/-- Where register writes reach their block, the host reaches the function. -/
theorem hostOpen_of_regOpen {s : State} (h : s.regOpen = true) : s.hostOpen = true := by
  simp only [State.regOpen, Bool.and_eq_true] at h
  exact h.1
/-- Where register writes reach their block, the start-up has handed off. -/
theorem handedOff_of_regOpen {s : State} (h : s.regOpen = true) : s.handedOff = true := by
  simp only [State.regOpen, Bool.and_eq_true] at h
  exact h.2

/-- A whole aligned 4-byte write is the write of one register (R5). -/
theorem registerWrite_word {s : State} (h : s.regOpen = true) {a : Nat} (ha : a % 4 = 0) (v : DWord) :
    registerWrite a 4 true v s = writeReg a (lo32 v) s := by
  simp [registerWrite, hostShut_of_regOpen h, hostOpen_of_regOpen h, ha]

/-- A write of another size, alignment or byte-enable pattern is dropped and sets BAR0_PARTIAL (R113). -/
theorem registerWrite_partial {s : State} (h : s.regOpen = true) {a size : Nat} {full : Bool}
    (hd : full = false ∨ (size ≠ 4 ∧ size ≠ 8) ∨ a % size ≠ 0) (v : DWord) :
    registerWrite a size full v s = mark 0x04014 0 { s with host := { s.host with bar0Partial := true } } := by
  have h4 : ¬ (full = true ∧ size = 4 ∧ a % 4 = 0) := by rintro ⟨rfl, rfl, h0⟩; simp_all
  have h8 : ¬ (full = true ∧ size = 8 ∧ a % 8 = 0) := by rintro ⟨rfl, rfl, h0⟩; simp_all
  simp [registerWrite, hostShut_of_regOpen h, hostOpen_of_regOpen h, handedOff_of_regOpen h, h4, h8]

/-- A plain register of CAP to RDN goes by the rule of plain registers (R405). -/
theorem writeReg_plain {s : State} (h : s.regOpen = true) {a : Nat} (hl : 0x0C000 ≤ a) (hu : a < 0x12000)
    (hb : ¬ (0x0E104 ≤ a ∧ a < 0x0E180 ∧ a % 8 = 4)) {i : RegInfo} (hi : regInfo a = some i) (v : Word) :
    writeReg a v s = plainWrite a v s := by
  have hm : ¬ (0x06000 ≤ a ∧ a < 0x07000) := by omega
  have hp : ¬ (0x1B000 ≤ a ∧ a < 0x1B080 ∧ a % 4 = 0) := by omega
  simp (disch := omega) only [writeReg, hostOpen_of_regOpen h, handedOff_of_regOpen h, hm, hb, hp, hi, if_neg,
    Option.isSome_some, if_true, if_false, Bool.not_true, Bool.false_eq_true]

/-- A first rejection is latched with its address and value (R407). -/
theorem reject_latches {s : State} (hb : s.sys.rejBeat ≠ s.clk.beat) (hv : s.sys.rejValid = false) (a : Nat) (v : Word) :
    reject a v s = { s with sys := { s.sys with
      rejBeat := s.clk.beat, rejNow := [(BitVec.ofNat 18 a, v)], rejFresh := true
      rejValid := true, rejMore := 0, rejAddr := BitVec.ofNat 18 a, rejValue := v } } := by
  simp [reject, latchReject, State.rejections, hb, hv]
/-- Behind a latched rejection of an earlier beat another one is counted alone (R407). -/
theorem reject_counts {s : State} (hb : s.sys.rejBeat ≠ s.clk.beat) (hv : s.sys.rejValid = true) (a : Nat) (v : Word) :
    reject a v s = { s with sys := { s.sys with
      rejBeat := s.clk.beat, rejNow := [(BitVec.ofNat 18 a, v)], rejFresh := false
      rejMore := if s.sys.rejMore = 63 then 63 else s.sys.rejMore + 1 } } := by
  simp [reject, State.rejections, hb, hv]
/-- Of two rejections of one beat the one at the lower address is latched, and the other is counted (R407). -/
theorem reject_second {s : State} {k : BitVec 18} {x : Word} (hb : s.sys.rejBeat = s.clk.beat) (hf : s.sys.rejFresh = true)
    (hn : s.sys.rejNow = [(k, x)]) (a : Nat) (v : Word) :
    reject a v s = { s with sys := { (reject a v s).sys with rejMore := 1 } } ∧
    ((reject a v s).sys.rejAddr, (reject a v s).sys.rejValue) =
      if k ≤ BitVec.ofNat 18 a then (k, x) else (BitVec.ofNat 18 a, v) := by
  by_cases hk : k ≤ BitVec.ofNat 18 a
  · have hk' : ¬ BitVec.ofNat 18 a < k := BitVec.not_lt.mpr hk
    simp [reject, latchReject, State.rejections, hb, hf, hn, hk, hk']
  · have hk' : BitVec.ofNat 18 a < k := BitVec.not_le.mp hk
    simp [reject, latchReject, State.rejections, hb, hf, hn, hk, hk']
/-- MORE counts up to 63 (R407). -/
theorem rejMore_saturates (n : BitVec 6) : (if n = 63 then 63 else n + 1 : BitVec 6).toNat = min 63 (n.toNat + 1) := by
  revert n; decide

/-- A change of a port's locks does to the registers what its step does. -/
theorem changeLock_regs_eq (p : PortId) (got : Nat) (f : State → State) (s : State) :
    (changeLock p got f s).regs = (f s).regs := by
  unfold changeLock; split <;> simp
/-- A write of CAP_PORT_n.CTRL stores the register, whatever it does to the port's locks. -/
theorem portCtrlWrite_regs (p : PortId) (v : Word) (s : State) :
    (portCtrlWrite p v s).regs = (s.setReg (0x0C000 + 0x400 * p.val) v).regs := by
  have hc : ∀ u : State, (setRx p none u).regs = u.regs := fun u => by simp
  have hf : ((freeWord s).2.setReg (0x0C000 + 0x400 * p.val) v).regs = (s.setReg (0x0C000 + 0x400 * p.val) v).regs := by
    unfold State.setReg; split <;> simp
  unfold portCtrlWrite
  simp only [ite_regs, hc, changeLock_regs_eq, ite_self, State.setPort_frame, hf]

/-- A legal value of a plain register is stored, whatever else the write does (R405). -/
theorem plainWrite_regs {s : State} {a : Nat} (hu : a < 0x12000) {v : Word} (hv : regLegal s a v = true) :
    (plainWrite a v s).regs = (s.setReg a v).regs := by
  have hin : inBlock 0x12000 16 a = none := by simp [inBlock]; omega
  simp only [plainWrite, hv, hin]
  split
  · contradiction
  · split
    · subst a; exact portCtrlWrite_regs 0 v s
    · split
      · subst a; exact portCtrlWrite_regs 1 v s
      · split <;> simp
/-- A legal value of a plain register that acts on nothing else is only stored. -/
theorem plainWrite_store {s : State} {a : Nat} (hu : a < 0x12000) {v : Word} (hv : regLegal s a v = true)
    (h0 : a ≠ 0x0C000) (h1 : a ≠ 0x0C400) (h2 : a ≠ 0x0E00C) : plainWrite a v s = s.setReg a v := by
  have hin : inBlock 0x12000 16 a = none := by simp [inBlock]; omega
  simp [plainWrite, hv, hin, h0, h1, h2]
/-- An illegal value is dropped whole and rejected (R407). -/
theorem plainWrite_illegal {s : State} {a : Nat} {v : Word} (hv : regLegal s a v = false) :
    plainWrite a v s = reject a v s := by
  simp [plainWrite, hv]
/-- A register write changes the registers alone. -/
theorem setReg_eq (s : State) (a : Nat) (v : Word) : s.setReg a v = { s with regs := (s.setReg a v).regs } := by
  unfold State.setReg; split <;> rfl

/-- A write of 1 clears no bit that the die has set in its beat (R7): bit `k` of what is cleared reads 0. -/
theorem foldl_clearing_bit {a k : Nat} (hk : k < 32) : ∀ (l : List (Nat × Nat)) (v : Word),
    ((a, k) ∈ l ∨ v.getLsbD k = false) →
    (l.foldl (fun v p => if p.1 = a then v &&& ~~~(1#32 <<< p.2) else v) v).getLsbD k = false
  | [], v, h => by simpa using h
  | (b, j) :: l, v, h => by
    refine foldl_clearing_bit hk l _ ?_
    by_cases hp : (a, k) = (b, j)
    · obtain ⟨rfl, rfl⟩ := Prod.mk.inj hp
      right; simp [hk]
    · rcases h with h | h
      · left; simpa [hp] using h
      · right; dsimp only; split <;> simp [h]
/-- What a write clears is the written word where the die has set nothing in this beat (R7). -/
theorem clearing_of_ne {s : State} (h : s.obs.hwBeat ≠ s.clk.beat) (a : Nat) (v : Word) : clearing a v s = v := by
  simp [clearing, h]
/-- A bit that the die has set in this beat is not cleared (R7). -/
theorem clearing_bit_of_mem {s : State} (h : s.obs.hwBeat = s.clk.beat) {a k : Nat} (hk : k < 32)
    (hm : (a, k) ∈ s.obs.hwSet) (v : Word) : (clearing a v s).getLsbD k = false := by
  simpa [clearing, h] using foldl_clearing_bit hk s.obs.hwSet v (.inl hm)

/-- A write of SYS.IRQ_STATUS clears TICK under the written bit, as far as the die leaves it (R5, R7). -/
theorem writeReg_irqStatus {s : State} (h : s.regOpen = true) (v : Word) :
    writeReg 0x00020 v s =
      { s with sys := { s.sys with irqTick := s.sys.irqTick && !(clearing 0x00020 v s).getLsbD 0 } } := by
  have hi : regInfo 0x00020 = none := by decide
  simp [writeReg, hostOpen_of_regOpen h, handedOff_of_regOpen h, hi, clearBits, w1cKey, sysClear, w1c]

/-- Settles O22: a write reaches its register, and from there the plain register's rule, the rejection or the W1C rule. -/
theorem registerWrites : Obligations.RegisterWrites := by
  intro s a size full v hS ho
  refine ⟨fun hl hu h4 hb i hi => ?_, fun hd => ?_, fun hv => ?_⟩
  · have hw : exec (.registerWrite a 4 true v) s = .next (plainWrite a (v.setWidth 32) s) :=
      congrArg _ ((registerWrite_word ho h4 v).trans (writeReg_plain ho hl hu hb hi _))
    rw [hw]
    refine ⟨fun hv => ⟨_, rfl, ?_, fun b hne => ?_, fun h0 h1 h2 => ?_⟩, fun hv hr hn => ?_, fun hv hr hn => ?_,
      fun k x hv hr hf hn => ?_⟩
    · rw [State.reg, plainWrite_regs hu hv]; exact reg_setReg_self hS hi _
    · rw [State.reg, plainWrite_regs hu hv]; exact reg_setReg_ne hS hne _
    · rw [plainWrite_store hu hv h0 h1 h2]; exact setReg_eq ..
    · rw [plainWrite_illegal hv, reject_latches hr hn]
      exact ⟨_, rfl, rfl, rfl, rfl, rfl, rfl⟩
    · rw [plainWrite_illegal hv, reject_counts hr hn]
      exact ⟨_, rfl, rfl, rfl, rfl, rejMore_saturates _⟩
    · rw [plainWrite_illegal hv]
      obtain ⟨he, hp⟩ := reject_second hr hf hn a (v.setWidth 32)
      exact ⟨_, rfl, by rw [he], by rw [he], hp⟩
  · exact congrArg _ (registerWrite_partial ho hd v)
  · have hw : exec (.registerWrite 0x00020 4 true v) s = .next (writeReg 0x00020 (lo32 v) s) :=
      congrArg _ (registerWrite_word ho (by decide) v)
    have hl : (lo32 v).getLsbD 0 = true := by simpa [lo32] using hv
    rw [hw, writeReg_irqStatus ho]
    refine ⟨fun hb => ?_, fun hb hm => ?_⟩
    · simp [clearing_of_ne hb, hl]
    · rw [clearing_bit_of_mem hb (by decide) hm, Bool.not_false, Bool.and_true]

end Sys2Proof.Machine

/-! ## The PPS input (O29) -/

namespace Sys2Proof.Machine

/-- Where the start-up has handed off, an island is clocked. -/
theorem awake_of_handedOff {s : State} (h : s.handedOff = true) : s.awake = true := by
  simp only [State.handedOff, Bool.and_eq_true] at h
  exact h.1.1

/-! A wait of no beats. -/

/-- A wait of no beats passes none. -/
theorem wait_zero (s : State) : wait 0 s = elapse 0 s := by
  rcases period_cases s with h | h <;> simp [wait, elapseTo, State.upTo, h]
/-- A wait of no beats with no slew in progress leaves the clock block as it is, PPS_OUT apart. -/
theorem wait_zero_clk {s : State} (h : s.awake = true) (hs : s.clk.slewLeft = 0) :
    ∃ o b, (wait 0 s).clk = { s.clk with ppsOut := o, ppsOutFrom := b } := by
  refine ⟨(wait 0 s).clk.ppsOut, (wait 0 s).clk.ppsOutFrom, ?_⟩
  rw [wait_zero, elapse_clk 0 h]
  simp [slewSteps, taiAfter, boundaries, hs]
/-- Adding nothing to some counters leaves every counter. -/
theorem counter_foldl_bump_zero (o : Nat) : ∀ (l : List Nat) {s : State}, Sound s →
    (l.foldl (fun a o => bump o 0 a) s).counter o = s.counter o
  | [], _, _ => rfl
  | k :: l, s, h => by
    rw [List.foldl_cons, counter_foldl_bump_zero o l ((bump_keeps k 0 s).1 h)]
    by_cases ho : o = k
    · subst ho; simp [h]
    · simp [h, ho]
/-- A wait of no beats leaves every counter. -/
theorem counter_wait_zero {s : State} (h : Sound s) (o : Nat) : (wait 0 s).counter o = s.counter o := by
  rw [wait_zero, ← counter_foldl_bump_zero o (fullStages s) h]
  unfold elapse elapseBy
  split
  · dsimp only; rw [ppsOutAfter_eq]; rfl
  · exact (counter_foldl_bump_zero o _ h).symm
/-- A wait moves no utility pin. -/
theorem wait_ppsPin (n : Nat) (s : State) : (wait n s).ppsPin = s.ppsPin := by
  have hw : (wait n s).pinWith 0x6 0 = s.pinWith 0x6 0 := by simp [wait, State.pinWith, State.pinFunc, State.pinCfg]
  have hb : ∀ k, (wait n s).pinBusy k = s.pinBusy k := by simp [wait, State.pinBusy]
  simp only [State.ppsPin, hw, hb]
/-- A wait leaves the mode of the PPS input. -/
theorem wait_ppsMode (n : Nat) (s : State) : (wait n s).ppsMode = s.ppsMode := by
  simp [State.ppsMode, State.reg]

/-! The error of an edge (R41). -/

/-- The error of an edge is what TAI is off the nearest whole second, half a second at most. -/
theorem ppsErrorOf_spec (t : DWord) : ppsErrorOf t % 1000000000 = t.toNat % 1000000000 ∧
    -500000000 ≤ ppsErrorOf t ∧ ppsErrorOf t < 500000000 := by
  unfold ppsErrorOf
  dsimp only
  split <;> omega
/-- The error of an edge is kept whole in CLK.PPS_ERROR. -/
theorem toInt_ppsErrorOf (t : DWord) : (BitVec.ofInt 32 (ppsErrorOf t)).toInt = ppsErrorOf t := by
  obtain ⟨-, hl, hu⟩ := ppsErrorOf_spec t
  exact BitVec.toInt_ofInt_eq_self (by decide) (by omega) (by omega)

/-! An accepted edge (R41–R43). -/

/-- A cancelled SET_AT_PPS is a refusal, and logged. -/
theorem cancelSet_eq (s : State) : cancelSet s = { s with
    clk := { s.clk with setAtPps := none, setPrior := false, taiRefused := true }
    obs := (cancelSet s).obs, pin := (cancelSet s).pin } := by
  unfold cancelSet taiRefuse
  rw [logEvent_eq]
  simp [mark]
/-- The clock block after an edge is recorded at its TAI. -/
def recordedClk (s : State) : ClkBlk :=
  let e := ppsErrorOf s.tai
  let near := decide (e.natAbs ≤ 1000000)
  { s.clk with
    ppsEdge := s.tai, ppsError := BitVec.ofInt 32 e, lastEdge := some s.clk.beat, holdover := false
    ppsFar := if near then false else if s.ppsMode = 2 then true else s.clk.ppsFar
    slewLeft := if decide (s.ppsMode = 2) && near then e else 0
    slewDue := s.clk.beat + 10000 }
/-- The state after an edge is recorded and, in DISCIPLINE, a far one logged. -/
def edgeRecorded (s : State) : State :=
  let s1 := { s with clk := recordedClk s }
  if s.ppsMode = 2 ∧ !decide ((ppsErrorOf s.tai).natAbs ≤ 1000000) then logEvent 0x0104 0 0 s1.clk.ppsError.toNat s1 else s1
/-- An accepted edge is recorded, and then a pending SET_AT_PPS is applied or refused. -/
theorem ppsAccept_eq (s : State) : ppsAccept s =
    if (edgeRecorded s).clk.setAtPps.isNone then edgeRecorded s
    else if taiBlocked (edgeRecorded s) then cancelSet (edgeRecorded s) else taiLoadAtEdge (edgeRecorded s) := rfl
@[simp] theorem edgeRecorded_clk (s : State) : (edgeRecorded s).clk = recordedClk s := by
  unfold edgeRecorded; dsimp only; split <;> simp
/-- Recording an edge changes neither the power state nor the registers. -/
@[simp] theorem edgeRecorded_frame (s : State) : (edgeRecorded s).pwr = s.pwr ∧ (edgeRecorded s).regs = s.regs := by
  unfold edgeRecorded; dsimp only; split <;> simp
/-- What an accepted edge records stands, whatever becomes of a pending SET_AT_PPS. -/
theorem ppsAccept_clk (s : State) : ∃ q v r a p, (ppsAccept s).clk = { recordedClk s with
    taiQ := q, taiValid := v, taiRefused := r, setAtPps := a, setPrior := p } := by
  rw [ppsAccept_eq]
  split
  · exact ⟨_, _, _, _, _, edgeRecorded_clk s⟩
  · split
    · exact ⟨_, _, _, _, _, by rw [cancelSet_eq, edgeRecorded_clk]⟩
    · unfold taiLoadAtEdge; split <;> exact ⟨_, _, _, _, _, by simp only [taiLoad, edgeRecorded_clk]; rfl⟩
/-- An accepted edge is recorded with its TAI and its error, ends HOLDOVER, and in DISCIPLINE is slewed or found too far
(R41–R43). -/
theorem ppsAccept_records (s : State) :
    (ppsAccept s).clk.ppsEdge = s.tai ∧ (ppsAccept s).clk.lastEdge = some s.clk.beat ∧
    (ppsAccept s).clk.holdover = false ∧ (ppsAccept s).clk.ppsError.toInt = ppsErrorOf s.tai ∧
    (s.ppsMode = 2 → (ppsErrorOf s.tai).natAbs ≤ 1000000 → (ppsAccept s).clk.slewLeft = ppsErrorOf s.tai) ∧
    (s.ppsMode = 2 → 1000000 < (ppsErrorOf s.tai).natAbs →
      (ppsAccept s).clk.ppsFar = true ∧ (ppsAccept s).clk.slewLeft = 0) := by
  obtain ⟨q, v, r, a, p, h⟩ := ppsAccept_clk s
  rw [h]
  refine ⟨rfl, rfl, rfl, toInt_ppsErrorOf _, fun hm hn => ?_, fun hm hn => ?_⟩
  · simp [recordedClk, hm, hn]
  · simp [recordedClk, hm, Nat.not_le.mpr hn]
/-- Recording an edge leaves the staged TAI. -/
@[simp] theorem taiSet_edgeRecorded (s : State) : (edgeRecorded s).taiSet = s.taiSet := by simp [State.taiSet, State.reg]
/-- Recording an edge does not bear on whether a TAI command may apply. -/
@[simp] theorem taiBlocked_edgeRecorded (s : State) : taiBlocked (edgeRecorded s) = taiBlocked s := by
  have ht : (edgeRecorded s).tai = s.tai := by rw [State.tai, edgeRecorded_clk]; rfl
  have hm : (edgeRecorded s).inService = s.inService := by simp [State.inService]
  simp [taiBlocked, ht, hm, recordedClk]
/-- A TAI command may apply on the PLL where it does not step a valid TAI back in Service (R27, R39). -/
theorem taiBlocked_false {s : State} (hp : s.clk.srcActive = true)
    (h : s.inService = false ∨ s.clk.taiValid = false ∨ s.tai ≤ s.taiSet) : taiBlocked s = false := by
  rcases h with h | h | h
  · simp [taiBlocked, hp, h]
  · simp [taiBlocked, hp, h]
  · simp [taiBlocked, hp, BitVec.not_lt.mpr h]
/-- With no SET_AT_PPS pending an accepted edge is recorded alone. -/
theorem ppsAccept_of_none {s : State} (h : s.clk.setAtPps = none) : ppsAccept s = edgeRecorded s := by
  rw [ppsAccept_eq]; simp [recordedClk, h]
/-- A pending SET_AT_PPS that may be applied is applied at an accepted edge. -/
theorem ppsAccept_of_set {s : State} {b : DWord} (h : s.clk.setAtPps = some b) (hb : taiBlocked s = false) :
    ppsAccept s = taiLoadAtEdge (edgeRecorded s) := by
  rw [ppsAccept_eq]; simp [recordedClk, h, hb]

/-- What SET_AT_PPS loads is what TAI then reads. -/
theorem tai_taiLoad (s : State) : (taiLoad s).tai = s.taiSet := by
  simp only [State.tai, taiLoad]
  apply BitVec.eq_of_toNat_eq
  have := s.taiSet.isLt
  simp [Nat.shiftLeft_eq, Nat.shiftRight_eq_div_pow]
  omega
/-- A SET_AT_PPS applied at an edge loads TAI, and ends unless it was written in this beat over an earlier one (R8, R40). -/
theorem taiLoadAtEdge_spec {s : State} {b : DWord} (h : s.clk.setAtPps = some b) :
    (taiLoadAtEdge s).tai = s.taiSet ∧ (taiLoadAtEdge s).clk.taiValid = true ∧
    ((s.clk.setPrior = false ∨ b ≠ s.clk.beat) → (taiLoadAtEdge s).clk.setAtPps = none) ∧
    (s.clk.setPrior = true → b = s.clk.beat → (taiLoadAtEdge s).clk.setAtPps = some s.clk.beat) := by
  unfold taiLoadAtEdge
  split
  · next hc =>
    obtain ⟨hp, hb⟩ : s.clk.setPrior = true ∧ b = s.clk.beat := by simpa [h] using hc
    exact ⟨tai_taiLoad s, rfl, by simp [hp, hb], fun _ _ => rfl⟩
  · next hc =>
    exact ⟨tai_taiLoad s, rfl, fun _ => rfl, fun hp hb => absurd (by simp [h, hp, hb]) hc⟩

/-- An edge that the minimum spacing lets through is accepted (R41). -/
theorem ppsRise_accepts {s : State} (hm : s.ppsMode ≠ 0) (hp : s.ppsPin ≠ none)
    (hl : s.clk.lastEdge = none ∨ ∃ b, s.clk.lastEdge = some b ∧ b.toNat + 900000000 ≤ s.clk.beat.toNat) :
    ppsRise s = ppsAccept s := by
  obtain h | ⟨b, h, hb⟩ := hl
  · simp [ppsRise, hm, hp, h]
  · simp [ppsRise, hm, hp, h, Nat.not_lt.mpr hb]
/-- An earlier edge is counted alone (R41). -/
theorem ppsRise_early {s : State} (hm : s.ppsMode ≠ 0) (hp : s.ppsPin ≠ none) {b : DWord}
    (hl : s.clk.lastEdge = some b) (hb : s.clk.beat.toNat < b.toNat + 900000000) : ppsRise s = bump (cDev 4) 1 s := by
  simp [ppsRise, hm, hp, hl, hb]

/-! CLK.PPS_CTRL (R40, R43, R406). -/

/-- The stored mode. -/
theorem ppsMode_setReg {s : State} (h : Sound s) (v : Word) : (s.setReg 0x02028 v).ppsMode = bits 0 2 v := by
  have hr : regInfo 0x02028 = some ⟨0x3, 0, false⟩ := rfl
  rw [State.ppsMode, reg_setReg_self h hr]
  have h3 : v.toNat &&& 3 = v.toNat % 4 := Nat.and_two_pow_sub_one_eq_mod v.toNat 2
  simp [bits, h3]
/-- The illegal mode is rejected: mode 3 (R406). -/
theorem ppsCtrlWrite_rejected {s : State} {v : Word} (hv : bits 0 2 v = 3) : ppsCtrlWrite v s = reject 0x02028 v s := by
  simp [ppsCtrlWrite, regLegal, within, hv]
/-- The legal modes of the PPS input are 0, 1 and 2 (R406). -/
theorem regLegal_ppsCtrl {s : State} {v : Word} (hv : bits 0 2 v ≤ 2) : regLegal s 0x02028 v = true := by
  simp [regLegal, within, hv]
/-- OFF cancels a pending SET_AT_PPS (R40). -/
theorem ppsCtrlWrite_off {s : State} {v : Word} (hv : bits 0 2 v = 0) {b : DWord} (hb : s.clk.setAtPps = some b) :
    ppsCtrlWrite v s = cancelSet (s.setReg 0x02028 v) := by
  simp [ppsCtrlWrite, regLegal_ppsCtrl (s := s) (v := v) (by omega), hv, hb]
/-- Leaving OFF begins the holdover span (R43). -/
theorem ppsCtrlWrite_leavesOff {s : State} {v : Word} (hv : bits 0 2 v = 1 ∨ bits 0 2 v = 2) (hm : s.ppsMode = 0) :
    ppsCtrlWrite v s =
      { s.setReg 0x02028 v with clk := { (s.setReg 0x02028 v).clk with leftOff := (s.setReg 0x02028 v).clk.beat } } := by
  have h0 : bits 0 2 v ≠ 0 := by omega
  simp [ppsCtrlWrite, regLegal_ppsCtrl (s := s) (v := v) (by omega), h0, hm]
/-- A rejection leaves SYS.CFG_REJECT valid where no other came before it in its beat, and changes nothing else (R407). -/
theorem reject_eq {s : State} (hb : s.sys.rejBeat ≠ s.clk.beat) (a : Nat) (v : Word) :
    reject a v s = { s with sys := (reject a v s).sys } ∧ (reject a v s).sys.rejValid = true := by
  cases hv : s.sys.rejValid
  · rw [reject_latches hb hv]; exact ⟨rfl, rfl⟩
  · rw [reject_counts hb hv]; exact ⟨rfl, hv⟩

/-- A write of CLK.PPS_CTRL where registers are written goes by its rule. -/
theorem exec_ppsCtrlWrite {s : State} (h : s.regOpen = true) (v : Word) :
    exec (.ppsCtrlWrite v) s = .next (ppsCtrlWrite v s) := by
  simp [exec, execPpsCtrlWrite, h]

/-- An edge while the start-up has handed off is met at once (R41). -/
theorem exec_ppsEdge {s : State} (h : s.handedOff = true) : exec (.ppsEdge 0) s = .next (ppsRise (wait 0 s)) := by
  simp [exec, execPpsEdge, h]

/-- Settles O29: the write of CLK.PPS_CTRL by its mode; an edge by its spacing and by what a pending SET_AT_PPS meets. -/
theorem ppsInput : Obligations.PpsInput := by
  refine ⟨fun s v hS ho => ⟨fun hv hb => ?_, fun hv b hb => ?_, fun hv hm => ?_⟩, fun s hS hh hm hp hs => ?_⟩
  · obtain ⟨he, hr⟩ := reject_eq hb 0x02028 v
    refine ⟨_, exec_ppsCtrlWrite ho v, ?_⟩
    rw [ppsCtrlWrite_rejected hv]
    exact ⟨he, hr, by rw [he]; rfl⟩
  · refine ⟨_, exec_ppsCtrlWrite ho v, ?_⟩
    rw [ppsCtrlWrite_off hv hb, cancelSet_eq, setReg_eq]
    exact ⟨(ppsMode_setReg hS v).trans hv, rfl, rfl⟩
  · refine ⟨_, exec_ppsCtrlWrite ho v, ?_⟩
    rw [ppsCtrlWrite_leavesOff hv hm, setReg_eq]
    exact ⟨ppsMode_setReg hS v, rfl, rfl⟩
  · rw [exec_ppsEdge hh]
    obtain ⟨o, f, hc⟩ := wait_zero_clk (awake_of_handedOff hh) hs
    have hpm : (wait 0 s).ppsMode = s.ppsMode := wait_ppsMode 0 s
    have hpp : (wait 0 s).ppsPin = s.ppsPin := wait_ppsPin 0 s
    have hset : (wait 0 s).taiSet = s.taiSet := by simp [State.taiSet, State.reg]
    have hsv : (wait 0 s).inService = s.inService := by simp [State.inService]
    have hct := counter_wait_zero hS (cDev 4)
    have hS' := (wait_keeps 0 s).1 hS
    generalize wait 0 s = u at *
    have htai : u.tai = s.tai := by rw [State.tai, hc]; rfl
    refine ⟨fun hl => ?_, fun b hl hb => ?_⟩
    · obtain ⟨hedge, hlast, hhold, herr, hnear, hfar⟩ := ppsAccept_records u
      rw [htai] at hedge herr hnear hfar
      rw [hpm] at hnear hfar
      obtain ⟨hmod, hlo, hhi⟩ := ppsErrorOf_spec s.tai
      refine ⟨_, congrArg _ (ppsRise_accepts (hpm ▸ hm) (hpp ▸ hp) (by rw [hc]; exact hl)), hedge, by rw [hlast, hc], hhold,
        by rw [herr]; exact hmod, by rw [herr]; exact hlo, by rw [herr]; exact hhi, by rw [herr]; exact hnear,
        by rw [herr]; exact hfar, fun hn => ?_, fun hsrc hok b hb => ?_⟩
      · rw [ppsAccept_of_none (by rw [hc]; exact hn), edgeRecorded_clk]
        simp [recordedClk, hc, hn]
      · have hbl : taiBlocked u = false := taiBlocked_false (by rw [hc]; exact hsrc) (by rw [hsv, htai, hset, hc]; exact hok)
        rw [ppsAccept_of_set (by rw [hc]; exact hb) hbl]
        have hload := taiLoadAtEdge_spec (s := edgeRecorded u) (b := b) (by simp [recordedClk, hc, hb])
        simp only [taiSet_edgeRecorded, edgeRecorded_clk, recordedClk, hset, hc] at hload
        exact hload
    · refine ⟨_, congrArg _ (ppsRise_early (hpm ▸ hm) (hpp ▸ hp) (by rw [hc]; exact hl) (by rw [hc]; exact hb)), ?_⟩
      simp [hc, hS', hct]

end Sys2Proof.Machine

/-! ## The tick boundary and the publication of its image (O31) -/

namespace Sys2Proof.Machine

/-! What steps 2 and 3 of R45 leave in OBS. Events, counters, marks and frames may follow in the same boundary, and none of
them touches it. -/

/-- Generation, images and readings. -/
structure Taken where
  generation : DWord
  publishing : Bool
  image0 : Image
  image1 : Image
  sampled : Bool
  temp : BitVec 16
  volts : Tab (BitVec 16)

/-- The generation, the images and the readings of an observation block. -/
def ObsBlk.taken (o : ObsBlk) : Taken :=
  { generation := o.generation, publishing := o.publishing, image0 := o.image0, image1 := o.image1, sampled := o.sampled
    temp := o.temp, volts := o.volts }

/-- Equal images are read as equal. -/
theorem image_of_taken {s t : State} (h : t.obs.taken = s.obs.taken) (i : Nat) : t.image i = s.image i := by
  have h0 : t.obs.image0 = s.obs.image0 := congrArg Taken.image0 h
  have h1 : t.obs.image1 = s.obs.image1 := congrArg Taken.image1 h
  simp only [State.image, h0, h1]
/-- Equal generations. -/
theorem generation_of_taken {s t : State} (h : t.obs.taken = s.obs.taken) : t.obs.generation = s.obs.generation :=
  congrArg Taken.generation h
/-- The generation and the readings, one by one. -/
theorem ObsBlk.of_taken {o : ObsBlk} {k : Taken} (h : o.taken = k) : o.generation = k.generation ∧
    o.publishing = k.publishing ∧ o.sampled = k.sampled ∧ o.temp = k.temp ∧ o.volts = k.volts :=
  h ▸ ⟨rfl, rfl, rfl, rfl, rfl⟩
@[simp] theorem ite_taken (c : Prop) [Decidable c] (a b : ObsBlk) :
    (if c then a else b).taken = if c then a.taken else b.taken := by split <;> rfl
/-- A repetition of steps that leave it leaves it. -/
@[simp] theorem foldl_taken {β : Type} (f : State → β → State) (l : List β)
    (hf : ∀ s x, (f s x).obs.taken = s.obs.taken) (s : State) : (l.foldl f s).obs.taken = s.obs.taken :=
  foldl_keeps (fun t => t.obs.taken = s.obs.taken) f (fun t x h => by rw [hf, h]) l s rfl

/-! Marks, counters and events. -/

@[simp] theorem mark_taken (a k : Nat) (s : State) : (mark a k s).obs.taken = s.obs.taken := rfl
@[simp] theorem bump_taken (o n : Nat) (s : State) : (bump o n s).obs.taken = s.obs.taken := rfl
@[simp] theorem insertEvent_taken (i : Nat) (e : Event) (s : State) : (insertEvent i e s).obs.taken = s.obs.taken := by
  unfold insertEvent; split
  · rw [console_obs]; rfl
  · rfl
@[simp] theorem logEvent_taken (c i a b : Nat) (s : State) : (logEvent c i a b s).obs.taken = s.obs.taken :=
  insertEvent_taken ..
@[simp] theorem takeBack_taken (c : BitVec 16) (s : State) : (takeBack c s).obs.taken = s.obs.taken := rfl
@[simp] theorem elapse_taken (n : Nat) (s : State) : (elapse n s).obs.taken = s.obs.taken := by
  unfold elapse elapseBy
  split
  · simp only [ppsOutAfter_frame]
    exact foldl_taken _ _ (fun s o => bump_taken o n s) s
  · rfl
@[simp] theorem elapseTo_taken (b : Nat) (s : State) : (elapseTo b s).obs.taken = s.obs.taken := elapse_taken ..
@[simp] theorem wait_taken (n : Nat) (s : State) : (wait n s).obs.taken = s.obs.taken := elapse_taken ..

/-! Jobs and wards. -/

@[simp] theorem faultWard_taken (w : WardId) (c : BitVec 2) (s : State) : (faultWard w c s).obs.taken = s.obs.taken := by
  unfold faultWard; split <;> simp
@[simp] theorem countMalformed_taken (c : Ctx) (st : Nat) (s : State) :
    (countMalformed c st s).obs.taken = s.obs.taken := by
  cases c <;> simp [countMalformed]
@[simp] theorem postCompletion_taken (c : Ctx) (tag st or d : Nat) (ch : Bool) (s : State) :
    (postCompletion c tag st or d ch s).obs.taken = s.obs.taken := by
  simp [postCompletion]
@[simp] theorem finish_taken (j : Job) (st or d : Nat) (s : State) : (finish j st or d s).obs.taken = s.obs.taken := by
  simp [finish]
@[simp] theorem finishWhere_taken (f : Job → Bool) (st : Nat) (s : State) :
    (finishWhere f st s).obs.taken = s.obs.taken := by
  simp [finishWhere]
@[simp] theorem endChain_taken (c : Ctx) (st : Nat) (ch : Chain) (s : State) :
    (endChain c st ch s).obs.taken = s.obs.taken := by
  simp [endChain]
@[simp] theorem endOpen_taken (c : Ctx) (st : Nat) (s : State) : (endOpen c st s).obs.taken = s.obs.taken := by
  unfold endOpen; split <;> simp
@[simp] theorem chainTorn_taken (c : Ctx) (s : State) : (chainTorn c s).obs.taken = s.obs.taken := by
  simp [chainTorn]
@[simp] theorem endSession_taken (s : State) : (endSession s).obs.taken = s.obs.taken := by
  simp [endSession]
@[simp] theorem officerIdle_taken (s : State) : (officerIdle s).obs.taken = s.obs.taken := by
  simp [officerIdle]

/-! Cells, groups and Safe Hold. -/

@[simp] theorem parkCell_taken (c : CellId) (s : State) : (parkCell c s).obs.taken = s.obs.taken := by
  simp [parkCell]
@[simp] theorem parkAfter_taken (c : CellId) (d : Option DWord) (s : State) :
    (parkAfter c d s).obs.taken = s.obs.taken := by
  simp [parkAfter]
@[simp] theorem dropGate_taken (c : CellId) (s : State) : (dropGate c s).obs.taken = s.obs.taken := by
  unfold dropGate; dsimp only; (repeat' split) <;> simp
@[simp] theorem endAndPark_taken (d : DWord) (c : CellId) (s : State) : (endAndPark d c s).obs.taken = s.obs.taken := by
  simp [endAndPark]
@[simp] theorem lateGate_taken (s : State) (c : CellId) : (lateGate s c).obs.taken = s.obs.taken := by
  unfold lateGate; (repeat' split) <;> simp
@[simp] theorem lateGates_taken (s : State) : (lateGates s).obs.taken = s.obs.taken := by
  simp [lateGates]
@[simp] theorem abortRebuild_taken (g : GroupId) (s : State) : (abortRebuild g s).obs.taken = s.obs.taken := by
  simp [abortRebuild]
@[simp] theorem groupDown_taken (g : GroupId) (s : State) : (groupDown g s).obs.taken = s.obs.taken := by
  simp [groupDown]
@[simp] theorem failMember_taken (g : GroupId) (m : Nat) (s : State) : (failMember g m s).obs.taken = s.obs.taken := by
  simp [failMember]
@[simp] theorem cellGone_taken (c : CellId) (s : State) (g : GroupId) : (cellGone c s g).obs.taken = s.obs.taken := by
  unfold cellGone; dsimp only; (repeat' split) <;> simp
@[simp] theorem cellLost_taken (c : CellId) (s : State) : (cellLost c s).obs.taken = s.obs.taken := by
  simp [cellLost]
@[simp] theorem cellOff_taken (c : CellId) (s : State) : (cellOff c s).obs.taken = s.obs.taken := by
  simp [cellOff]
@[simp] theorem idlePark_taken (s : State) (c : CellId) : (idlePark s c).obs.taken = s.obs.taken := by
  simp [idlePark]
@[simp] theorem presentAbsent_taken (c : CellId) (s : State) : (presentAbsent c s).obs.taken = s.obs.taken := by
  simp [presentAbsent]
@[simp] theorem presentSample_taken (s : State) (c : CellId) : (presentSample s c).obs.taken = s.obs.taken := by
  unfold presentSample; dsimp only; (repeat' split) <;> simp
@[simp] theorem refuseVote_taken (slot cause : Nat) (s : State) : (refuseVote slot cause s).obs.taken = s.obs.taken := by
  simp [refuseVote]
@[simp] theorem holdWins_taken (s : State) : (holdWins s).obs.taken = s.obs.taken := by
  unfold holdWins; dsimp only; (repeat' split) <;> simp
@[simp] theorem safeHold_taken (cause : BitVec 7) (s : State) : (safeHold cause s).obs.taken = s.obs.taken := by
  simp [safeHold]
@[simp] theorem mediaStall_taken (s : State) : (mediaStall s).obs.taken = s.obs.taken := by
  simp [mediaStall]
@[simp] theorem stallTick_taken (s : State) : (stallTick s).obs.taken = s.obs.taken := by
  simp [stallTick]
@[simp] theorem voteCorrupt_taken (s : State) : (voteCorrupt s).obs.taken = s.obs.taken := by
  simp [voteCorrupt]
@[simp] theorem tickLimits_taken (s : State) : (tickLimits s).obs.taken = s.obs.taken := by
  simp [tickLimits]
@[simp] theorem dezia_taken (n : Nat) (s : State) : (dezia n s).obs.taken = s.obs.taken := by
  unfold dezia; (repeat' split) <;> rfl
@[simp] theorem hingePause_taken (s : State) (p : Nat × Fin 6) : (hingePause s p).obs.taken = s.obs.taken := by
  simp [hingePause]

/-! The boundary (R45). -/

/-- Readings are kept by the warnings they raise (R367). -/
theorem sample_taken (e : TickEnv) (s : State) : (sample e s).obs.taken = (takeSample e s).obs.taken := by
  have ht : ∀ (o : ObsBlk) (u : State), (tempWarned o e u).obs.taken = u.obs.taken := by
    intro o u; unfold tempWarned; split
    · rw [logEvent_taken]; rfl
    · rfl
  have hw : ∀ (o : ObsBlk) (u : State) (i : Fin 4), (supplyWarn o.volts o.sampled e u i).obs.taken = u.obs.taken := by
    intro o u i; unfold supplyWarn; split
    · rw [logEvent_taken]; rfl
    · rfl
  have hs : ∀ (o : ObsBlk) (u : State), (suppliesWarned o e u).obs.taken = u.obs.taken :=
    fun o u => foldl_taken _ _ (hw o) u
  simp only [sample]
  split
  · split
    · rw [safeHold_taken, hs, ht]
    · exact (hs ..).trans (ht ..)
  · rw [hs, ht]

/-- The stall monitor leaves IRQ_STATUS.TICK, at Safe Hold too. -/
theorem mediaStall_irqTick (s : State) : (mediaStall s).sys.irqTick = s.sys.irqTick := by
  unfold mediaStall; split <;> simp
/-- A tick of the stall monitor leaves IRQ_STATUS.TICK. -/
theorem stallTick_irqTick (s : State) : (stallTick s).sys.irqTick = s.sys.irqTick := by
  unfold stallTick; split
  · rfl
  · exact mediaStall_irqTick _
/-- What counts ticks leaves IRQ_STATUS.TICK. -/
theorem tickLimits_irqTick (s : State) : (tickLimits s).sys.irqTick = s.sys.irqTick := by
  rw [tickLimits, stallTick_irqTick]; simp

/-- The state that steps 1 to 3 of R45 are worked on: the windows are closed, and the image is in progress. -/
def imaged (n : Nat) (b : DWord) (s : State) : State :=
  snapshot (n - 1) b (closeWindows { s with clk := { s.clk with tickDone := n } })
/-- After hand-off a boundary has its actions in the order of R45. -/
theorem boundary_eq {s : State} (h : s.handedOff = true) (n : Nat) (b : DWord) (e : TickEnv) : boundary n b e s =
    let s2 := tickLimits (countTick (dezia (n - 1) (raiseTick (sample e (imaged n b s)))))
    if e.voteBad then voteCorrupt s2 else s2 := by
  simp [boundary, imaged, h]
/-- After hand-off a boundary leaves the image and the readings that its steps 2 and 3 took (R45). -/
theorem boundary_taken {s : State} (h : s.handedOff = true) (n : Nat) (b : DWord) (e : TickEnv) :
    (boundary n b e s).obs.taken = (takeSample e (imaged n b s)).obs.taken := by
  have hr : ∀ u : State, (raiseTick u).obs.taken = u.obs.taken := fun _ => rfl
  rw [boundary_eq h]
  dsimp only
  split <;> simp [hr, sample_taken]
/-- After hand-off a boundary sets IRQ_STATUS.TICK (R45). -/
theorem boundary_irqTick {s : State} (h : s.handedOff = true) (n : Nat) (b : DWord) (e : TickEnv) :
    (boundary n b e s).sys.irqTick = true := by
  have hr : ∀ u : State, (raiseTick u).sys.irqTick = true := fun _ => rfl
  rw [boundary_eq h]
  dsimp only
  split <;> simp [tickLimits_irqTick, hr]
/-- A boundary counts its tick and takes no time. -/
theorem boundary_clk {s : State} (h : s.handedOff = true) (n : Nat) (b : DWord) (e : TickEnv) :
    (boundary n b e s).clk = { s.clk with tickDone := n } := by
  rw [boundary_eq h]
  dsimp only
  split <;> simp [imaged]

/-! The image of a boundary (R358, R359). -/

@[simp] theorem length_leBytes : ∀ n v : Nat, (leBytes n v).length = n
  | 0, _ => rfl
  | n + 1, v => by simp [leBytes, length_leBytes n]
/-- Little-endian bytes hold what fits them. -/
theorem ofLe_leBytes : ∀ n v : Nat, ofLe (leBytes n v) = v % 256 ^ n
  | 0, v => by simp [leBytes, ofLe, Nat.mod_one]
  | n + 1, v => by
    simp only [leBytes, ofLe, ofLe_leBytes n, BitVec.toNat_ofNat]
    rw [(Nat.pow_succ' : 256 ^ (n + 1) = 256 * 256 ^ n)]
    exact Nat.mod_mul.symm
/-- A field of a record that is laid out part by part. -/
theorem fieldAt_append {off len : Nat} {a m c : Bytes} (ha : a.length = off) (hm : m.length = len) :
    fieldAt off len (a ++ (m ++ c)) = ofLe m := by
  simp [fieldAt, slice, ← ha, ← hm]
/-- The header carries the boundary's beat (R359). -/
theorem fieldAt_imageHead (tick : Nat) (b : DWord) (s : State) : fieldAt 16 8 (imageHead tick b s) = b.toNat := by
  have hb := b.isLt
  simp only [imageHead, List.append_assoc]
  rw [← List.append_assoc (zeros 8), fieldAt_append (by simp [zeros]) (by simp), ofLe_leBytes]
  omega
/-- An image reads as it was last replaced. -/
theorem image_setImage_self (s : State) (i : Nat) (im : Image) : (s.setImage i im).image i = im := by
  by_cases h : i = 0 <;> simp [State.setImage, State.image, h]
/-- The other image stays. -/
theorem image_setImage_other (s : State) {i : Nat} (hi : i < 2) (im : Image) :
    (s.setImage i im).image (1 - i) = s.image (1 - i) := by
  obtain rfl | rfl : i = 0 ∨ i = 1 := by omega
  · rfl
  · rfl

/-- Replacing an image changes the observation block alone. -/
theorem setImage_eq (s : State) (i : Nat) (im : Image) : s.setImage i im = { s with obs := (s.setImage i im).obs } := by
  unfold State.setImage; split <;> rfl
/-- Replacing an image leaves the checkpoint. -/
theorem setImage_checkpoint (s : State) (i : Nat) (im : Image) : (s.setImage i im).obs.checkpoint = s.obs.checkpoint := by
  unfold State.setImage; split <;> rfl

/-- Steps 2 and 3 of R45 raise the generation, begin its image and take the readings. -/
theorem takeSample_imaged_taken (n : Nat) (b : DWord) (e : TickEnv) (s : State) :
    (takeSample e (imaged n b s)).obs.taken =
      { generation := s.obs.generation + 1, publishing := true
        image0 := (imaged n b s).obs.image0, image1 := (imaged n b s).obs.image1
        sampled := true, temp := e.temp, volts := tickVolts e } := by
  simp [ObsBlk.taken, takeSample, imaged, snapshot]
/-- The image in progress is generation `g` in image `g` mod 2 (R45). -/
theorem snapshot_image (tick : Nat) (b : DWord) (s : State) :
    (snapshot tick b s).image ((s.obs.generation + 1).toNat % 2) =
      { seqBegin := s.obs.generation + 1, seqEnd := (s.image ((s.obs.generation + 1).toNat % 2)).seqEnd
        head := imageHead tick b s, counters := s.obs.counters } :=
  image_setImage_self s _ _
/-- The image of a boundary begins with its generation, and its header carries the boundary's beat. -/
theorem takeSample_imaged_image (n : Nat) (b : DWord) (e : TickEnv) (s : State) :
    ((takeSample e (imaged n b s)).image ((s.obs.generation + 1).toNat % 2)).seqBegin = s.obs.generation + 1 ∧
    fieldAt 16 8 ((takeSample e (imaged n b s)).image ((s.obs.generation + 1).toNat % 2)).head = b.toNat := by
  have hi := snapshot_image (n - 1) b (closeWindows { s with clk := { s.clk with tickDone := n } })
  have ht : ∀ (u : State) i, (takeSample e u).image i = u.image i := fun _ _ => rfl
  simp only [closeWindows_frame] at hi
  rw [ht, imaged, hi]
  exact ⟨rfl, fieldAt_imageHead ..⟩

/-- The first boundary that is due has its actions: it is counted, its image is in progress under its own beat, the samples
are taken, and IRQ_STATUS.TICK is set (R45). -/
theorem takeTick_spec {s : State} (h : s.handedOff = true) {b : DWord} {l : List DWord} (hd : s.clk.due = b :: l)
    (e : TickEnv) : ∃ t, takeTick e s = t ∧
      t.clk.tickDone = s.clk.tickDone + 1 ∧ t.clk.beat = s.clk.beat ∧ t.sys.irqTick = true ∧
      t.obs.generation = s.obs.generation + 1 ∧ t.obs.publishing = true ∧ t.obs.sampled = true ∧ t.obs.temp = e.temp ∧
      t.obs.volts = tickVolts e ∧ (t.image (t.obs.generation.toNat % 2)).seqBegin = t.obs.generation ∧
      fieldAt 16 8 (t.image (t.obs.generation.toNat % 2)).head = b.toNat := by
  generalize hu : { s with clk := { s.clk with due := l } } = u
  have hh : u.handedOff = true := by rw [← hu]; exact h
  have hg : u.obs.generation = s.obs.generation := by rw [← hu]
  have ht : takeTick e s = boundary (s.clk.tickDone + 1) b e u := by simp [takeTick, hd, hu]
  have hk := boundary_taken hh (s.clk.tickDone + 1) b e
  have hc := boundary_clk hh (s.clk.tickDone + 1) b e
  have hirq := boundary_irqTick hh (s.clk.tickDone + 1) b e
  obtain ⟨hgen, hpub, hsam, htemp, hvolts⟩ := ObsBlk.of_taken (hk.trans (takeSample_imaged_taken ..))
  obtain ⟨hseq, hhead⟩ := takeSample_imaged_image (s.clk.tickDone + 1) b e u
  dsimp only at hgen
  rw [← image_of_taken hk, ← hgen] at hseq hhead
  refine ⟨_, ht, by rw [hc], by rw [hc, ← hu], hirq, hg ▸ hgen, hpub, hsam, htemp, hvolts, hseq, hhead⟩

/-! The way to a boundary. -/

/-- Time adds boundaries behind those that are due. -/
theorem elapse_due (n : Nat) (s : State) : ∃ l, (elapse n s).clk.due = s.clk.due ++ l := by
  cases h : s.awake
  · exact ⟨[], by rw [elapse_asleep n h, List.append_nil]⟩
  · exact ⟨_, by rw [elapse_clk n h]⟩
/-- A pause at a hinge leaves the generation and the ticks done, and adds boundaries behind those that are due. -/
theorem hingePause_spec (s : State) (p : Nat × Fin 6) : (∃ l, (hingePause s p).clk.due = s.clk.due ++ l) ∧
    (hingePause s p).clk.tickDone = s.clk.tickDone ∧ (hingePause s p).obs.generation = s.obs.generation := by
  refine ⟨?_, ?_, generation_of_taken (hingePause_taken s p)⟩
  · simpa [hingePause, wait, elapseTo] using elapse_due _ s
  · simp [hingePause, wait]
/-- Pauses at hinges leave the generation and the ticks done, and add boundaries behind those that are due. -/
theorem foldl_hingePause_spec : ∀ (l : List (Nat × Fin 6)) (s : State),
    (∃ m, (l.foldl hingePause s).clk.due = s.clk.due ++ m) ∧ (l.foldl hingePause s).clk.tickDone = s.clk.tickDone ∧
    (l.foldl hingePause s).obs.generation = s.obs.generation
  | [], s => ⟨⟨[], by simp⟩, rfl, rfl⟩
  | p :: l, s => by
    obtain ⟨⟨m, hm⟩, ht, hg⟩ := hingePause_spec s p
    obtain ⟨⟨k, hk⟩, ht', hg'⟩ := foldl_hingePause_spec l (hingePause s p)
    exact ⟨⟨m ++ k, by rw [List.foldl_cons, hk, hm, List.append_assoc]⟩, ht'.trans ht, hg'.trans hg⟩
/-- The publication of an image leaves the generation. -/
theorem publish_generation (s : State) : (publish s).obs.generation = s.obs.generation := by
  unfold publish State.setImage; split
  · dsimp only; split <;> rfl
  · rfl
/-- A boundary that is due stays the first one. -/
theorem reachTick_due {s : State} {b : DWord} {r : List DWord} (hd : s.clk.due = b :: r) (e : TickEnv) :
    ∃ l, (reachTick e s).clk.due = b :: l ∧ (reachTick e s).clk.tickDone = s.clk.tickDone ∧
      (reachTick e s).obs.generation = s.obs.generation := by
  obtain ⟨⟨m, hm⟩, ht, hg⟩ := foldl_hingePause_spec e.hinges (publish s)
  have hp : (publish s).clk = s.clk := by simp
  have hne : (e.hinges.foldl hingePause (publish s)).clk.due = b :: (r ++ m) := by rw [hm, hp, hd]; rfl
  have hr : reachTick e s = lateGates (e.hinges.foldl hingePause (publish s)) := by simp [reachTick, hne]
  have hk := generation_of_taken (lateGates_taken (e.hinges.foldl hingePause (publish s)))
  rw [hr]
  exact ⟨r ++ m, by simp [hne], by simp [ht], hk.trans (hg.trans (publish_generation s))⟩
/-- Up to the first counted value at or above the next boundary `c`, that value is the one boundary beat reached (R3). -/
theorem boundaries_upTo {p b k c : Nat} (hp : p = 1 ∨ p = 5) (hk : b / 1000000 = k) (hc : 1000000 * (k + 1) = c) :
    boundaries p b ((c - b + (p - 1)) / p * p) = [BitVec.ofNat 64 (b + (c - b + (p - 1)) / p * p)] := by
  have h1 : (b + (c - b + (p - 1)) / p * p) / 1000000 - b / 1000000 = 1 := by
    rcases hp with rfl | rfl <;> omega
  rw [boundaries, h1, hk]
  simp [List.range_succ, Nat.mul_comm (k + 1), hc]
/-- Where no boundary is due and no hinge pauses, the clock comes to the first counted value at or above the next one, which
is then due under that beat (R3). -/
theorem reachTick_next {s : State} (h : s.awake = true) (hd : s.clk.due = []) {e : TickEnv} (he : e.hinges = [])
    (hk : s.clk.beat.toNat / 1000000 = s.clk.tickDone) (hb : s.clk.beat.toNat + 1000010 < 2 ^ 64) {c : Nat}
    (hc : 1000000 * (s.clk.tickDone + 1) = c) :
    (reachTick e s).clk.due = [(reachTick e s).clk.beat] ∧ (reachTick e s).clk.tickDone = s.clk.tickDone ∧
    (reachTick e s).obs.generation = s.obs.generation ∧ c ≤ (reachTick e s).clk.beat.toNat ∧
    (reachTick e s).clk.beat.toNat < c + s.period := by
  have hp : (publish s).clk = s.clk := by simp
  have ha : (publish s).awake = true := by simpa [State.awake] using h
  have hper : (publish s).period = s.period := by simp [State.period]
  have hr : reachTick e s = lateGates (elapseTo c (publish s)) := by
    rw [← hc]; simp [reachTick, he, hd]
  have hgen : (reachTick e s).obs.generation = s.obs.generation := by
    rw [hr, generation_of_taken (lateGates_taken _), generation_of_taken (elapseTo_taken _ _), publish_generation]
  have hclk : (reachTick e s).clk = (elapseTo c (publish s)).clk := by simp [hr]
  obtain ⟨hlo, hhi⟩ := elapseTo_beat c ha (by omega) (by rw [hp]; omega)
  refine ⟨?_, by simp [hclk], hgen, by rw [hclk]; exact hlo, by rw [hclk, ← hper]; exact hhi⟩
  rw [hclk, elapseTo, elapse_clk _ ha, hp, hper, hd]
  simp only [State.upTo, hp, hper, List.nil_append, boundaries_upTo (period_cases s) hk hc]
  simp [BitVec.ofNat_add]

/-- Publication ends the image in progress, shows it and takes it as the newest checkpoint (R356, R361). -/
theorem publish_spec {s : State} (h : s.obs.publishing = true) : ∃ t, publish s = t ∧
    t = { s with obs := t.obs } ∧ t.obs.publishing = false ∧ t.obs.shown = s.obs.generation ∧
    t.obs.active = decide (s.obs.generation.toNat % 2 = 1) ∧
    t.obs.shownTick.toNat = fieldAt 8 8 (s.image (s.obs.generation.toNat % 2)).head % 2 ^ 64 ∧
    t.image (s.obs.generation.toNat % 2) = { s.image (s.obs.generation.toNat % 2) with seqEnd := s.obs.generation } ∧
    t.image (1 - s.obs.generation.toNat % 2) = s.image (1 - s.obs.generation.toNat % 2) ∧
    t.obs.checkpoint.map (·.counters) = some (s.image (s.obs.generation.toNat % 2)).counters ∧
    t.obs.checkOld = s.obs.checkpoint := by
  have hi : s.obs.generation.toNat % 2 < 2 := Nat.mod_lt _ (by decide)
  refine ⟨publish s, rfl, ?_⟩
  rw [publish, if_pos h]
  refine ⟨?_, rfl, rfl, rfl, ?_, ?_, ?_, rfl, ?_⟩
  · dsimp only; rw [setImage_eq]
  · exact BitVec.toNat_ofNat ..
  · exact image_setImage_self ..
  · exact image_setImage_other s hi _
  · exact setImage_checkpoint ..

/-- Settles O31: the way to the boundary keeps what it starts from, and the boundary's steps after 2 and 3 keep what these
have taken. -/
theorem ticksAndImages : Obligations.TicksAndImages := by
  refine ⟨fun s e _ hh => ?_, fun s hh hp => ?_⟩
  · have hx : exec (.tick e) s = .next (takeTick e (reachTick e s)) := by
      simp [exec, execTick, tick, awake_of_handedOff hh]
    have hr : (reachTick e s).handedOff = true := by simpa [State.handedOff, State.awake] using hh
    dsimp only
    rw [hx]
    refine ⟨fun b r hd => ?_, fun hd he hk hb => ?_⟩
    · obtain ⟨l, hl, hn, hg⟩ := reachTick_due hd e
      obtain ⟨t, ht, htick, -, hirq, hgen, hpub, hsam, htemp, hvolts, hseq, hhead⟩ := takeTick_spec hr hl e
      rw [ht]
      exact ⟨t, rfl, ⟨by rw [htick, hn], hirq, by rw [hgen, hg], hpub, hseq, hsam, htemp, hvolts⟩, hhead⟩
    · obtain ⟨hl, hn, hg, hlo, hhi⟩ := reachTick_next (awake_of_handedOff hh) hd he hk hb rfl
      obtain ⟨t, ht, htick, hbeat, hirq, hgen, hpub, hsam, htemp, hvolts, hseq, hhead⟩ := takeTick_spec hr hl e
      rw [ht]
      exact ⟨t, rfl, ⟨by rw [htick, hn], hirq, by rw [hgen, hg], hpub, hseq, hsam, htemp, hvolts⟩, by rw [hhead, hbeat],
        by rw [hbeat]; exact hlo, by rw [hbeat]; exact hhi⟩
  · have hx : exec .imagePublish s = .next (publish s) := by simp [exec, execImagePublish, hh]
    obtain ⟨t, ht, heq, hpub, hshown, hact, htick, himg, hother, hcheck, hold⟩ := publish_spec hp
    rw [hx, ht]
    exact ⟨t, rfl, heq, hpub, hshown, hact, htick, by rw [himg], by rw [himg], hother, hcheck, hold⟩

end Sys2Proof.Machine

/-! ## Time, and the clock source (O2, O25, O26) -/

namespace Sys2Proof.Machine

/-- The clock block after `n` beats counted in steps of `p` (R36, R38, R42), before PPS_OUT follows TAI. -/
def elapsedClk (p n : Nat) (s : State) : ClkBlk :=
  { s.clk with
    beat := s.clk.beat + BitVec.ofNat 64 n, taiQ := taiAfter s n (slewSteps s n)
    due := s.clk.due ++ boundaries p s.clk.beat.toNat n
    slewLeft := if s.clk.slewLeft > 0 then s.clk.slewLeft - slewSteps s n else s.clk.slewLeft + slewSteps s n
    slewDue := s.clk.slewDue + BitVec.ofNat 64 (10000 * slewSteps s n) }

/-- While an island is clocked, beats move the clock block, the console and the counters, and then PPS_OUT follows TAI. -/
theorem elapseBy_awake (p n : Nat) {s : State} (h : s.awake = true) : ∃ u : State, elapseBy p n s = ppsOutAfter s.tai u ∧
    u.clk = elapsedClk p n s ∧ u = { s with clk := u.clk, pin := u.pin, obs := u.obs } := by
  refine ⟨_, by rw [elapseBy, if_pos h], ?_, ?_⟩
  · dsimp only; rw [foldl_bump]; rfl
  · dsimp only; rw [foldl_bump]
/-- Beats pass in the clock, the console and the counters alone, in whatever steps they are counted. -/
theorem elapseBy_eq (p n : Nat) (s : State) : elapseBy p n s =
    { s with clk := (elapseBy p n s).clk, pin := (elapseBy p n s).pin, obs := (elapseBy p n s).obs } := by
  cases h : s.awake
  · simp [elapseBy, h]
  · obtain ⟨u, hx, -, hu⟩ := elapseBy_awake p n h
    rw [hx, ppsOutAfter_eq, hu]
/-- The clock block after beats that are counted in given steps, PPS_OUT apart. -/
theorem elapseBy_clk (p n : Nat) {s : State} (h : s.awake = true) : ∃ o f,
    (elapseBy p n s).clk = { elapsedClk p n s with ppsOut := o, ppsOutFrom := f } := by
  obtain ⟨u, hx, hc, -⟩ := elapseBy_awake p n h
  exact ⟨_, _, by rw [hx, ppsOutAfter_clk, hc]⟩

/-- With no command, no start-up and no zeroization to go on with, a step is one clock period (log 6). -/
theorem step_idle {s : State} (hp : s.pending = []) (hb : s.sys.boot = none) (hz : s.pwr.transition ≠ some .zeroize) :
    step s = .next (elapse s.period s) := by
  simp [step, idleStep, hp, hb, hz]

/-- Settles O2: the step is one period of time, which counts while an island is clocked. -/
theorem idleStepIsOnePeriod : Obligations.IdleStepIsOnePeriod := by
  intro s hp hb hz
  refine ⟨_, step_idle hp hb hz, elapse_eq _ s, ?_, fun h => elapse_asleep _ h⟩
  split
  · next h =>
    rw [elapse_beat _ h, State.period]
    split <;> rfl
  · next h => rw [elapse_asleep _ (by simpa using h)]

/-! Commands of CLK where registers are written. -/

theorem exec_srcPll {s : State} (h : s.regOpen = true) : exec .srcPll s = .next (srcPll s) := by
  simp [exec, execSrcPll, h]
theorem exec_srcOscillator {s : State} (h : s.regOpen = true) : exec .srcOscillator s = .next (toOscillator s) := by
  simp [exec, execSrcOscillator, h]
/-- Where register writes reach their block, an island is clocked. -/
theorem awake_of_regOpen {s : State} (h : s.regOpen = true) : s.awake = true :=
  awake_of_handedOff (handedOff_of_regOpen h)

/-! The PLL (R28, R29). -/

/-- With LOCK the core goes from the oscillator to the PLL, and the counter adds 16 for the switch. -/
theorem srcPll_switches {s : State} (h : s.awake = true) (hl : s.clk.lock = true) (ha : s.clk.srcActive = false) :
    (srcPll s).clk.src = true ∧ (srcPll s).clk.srcActive = true ∧ (srcPll s).clk.beat = s.clk.beat + 16 ∧
    (srcPll s).clk.taiValid = s.clk.taiValid ∧
    srcPll s = { s with clk := (srcPll s).clk, pin := (srcPll s).pin, obs := (srcPll s).obs } := by
  have hx : srcPll s =
      let s1 := elapseBy 16 16 { s with clk := { s.clk with src := true } }
      { s1 with clk := { s1.clk with srcActive := true } } := by simp [srcPll, hl, ha]
  have he := elapseBy_eq 16 16 { s with clk := { s.clk with src := true } }
  obtain ⟨o, f, hc⟩ := elapseBy_clk (s := { s with clk := { s.clk with src := true } }) 16 16 h
  rw [hx]
  dsimp only
  rw [hc]
  exact ⟨rfl, rfl, rfl, rfl, by rw [he]⟩

/-- Settles O25: by LOCK and by the source the core runs from. -/
theorem sourceToPll : Obligations.SourceToPll := by
  intro s ho
  rw [exec_srcPll ho]
  refine ⟨fun hl => by simp [srcPll, hl], fun hl ha => ⟨_, rfl, srcPll_switches (awake_of_regOpen ho) hl ha⟩,
    fun hl ha => by simp [srcPll, hl, ha]⟩

/-! The oscillator, and the loss of lock (R26, R27, R29, R30). -/

/-- PPS_OUT is low while TAI is not valid. -/
theorem ppsHold_of_invalid {s : State} (h : s.clk.taiValid = false) :
    ppsHold s = { s with clk := { s.clk with ppsOut := false } } := by
  simp [ppsHold, h]
/-- A core that leaves the PLL adds 16 beats, and TAI and PPS_OUT end with it. -/
theorem toOscillator_switches {s : State} (h : s.awake = true) (ha : s.clk.srcActive = true) :
    (toOscillator s).clk.src = false ∧ (toOscillator s).clk.srcActive = false ∧
    (toOscillator s).clk.beat = s.clk.beat + 16 ∧ (toOscillator s).clk.taiValid = false ∧
    (toOscillator s).clk.ppsOut = false ∧ (toOscillator s).clk.lock = s.clk.lock ∧
    (toOscillator s).clk.pllLoss = s.clk.pllLoss ∧
    toOscillator s = { s with clk := (toOscillator s).clk, pin := (toOscillator s).pin, obs := (toOscillator s).obs } := by
  have hx : toOscillator s =
      let s2 := elapseBy 16 16 { s with clk := { s.clk with src := false, taiValid := false } }
      ppsHold { s2 with clk := { s2.clk with srcActive := false } } := if_pos ha
  have he := elapseBy_eq 16 16 { s with clk := { s.clk with src := false, taiValid := false } }
  obtain ⟨o, f, hc⟩ := elapseBy_clk (s := { s with clk := { s.clk with src := false, taiValid := false } }) 16 16 h
  rw [hx]
  dsimp only
  rw [ppsHold_of_invalid (by rw [hc]; rfl)]
  dsimp only
  rw [hc]
  exact ⟨rfl, rfl, rfl, rfl, rfl, rfl, rfl, by rw [he]⟩
/-- A core on the oscillator is not switched. -/
theorem toOscillator_idle {s : State} (ha : s.clk.srcActive = false) :
    toOscillator s = { s with clk := { s.clk with src := false } } := by
  simp [toOscillator, ha]

/-- Safe Hold is the mode after its trigger, with the trigger's causes among those set (R349, R350). -/
theorem safeHold_pwr (cause : BitVec 7) (s : State) :
    (safeHold cause s).pwr.mode = .safeHold ∧ (safeHold cause s).pwr.holdCause = (holdWins s).pwr.holdCause ||| cause := by
  simp [safeHold]

/-- The PLL loses lock under the core: the loss is latched, TAI ends, and Safe Hold follows on the oscillator (R30). -/
theorem pllLoss_active {s : State} (h : s.awake = true) (ha : s.clk.srcActive = true) :
    (pllLoss s).clk.lock = false ∧ (pllLoss s).clk.pllLoss = true ∧ (pllLoss s).clk.taiValid = false ∧
    (pllLoss s).clk.srcActive = false ∧ (pllLoss s).clk.beat = s.clk.beat + 16 ∧
    (pllLoss s).pwr.holdCause.getLsbD 1 = true ∧ (pllLoss s).pwr.mode = .safeHold := by
  obtain ⟨u, hx, hc, hp⟩ : ∃ u, pllLoss s = safeHold 0x02 (toOscillator u) ∧
      u.clk = { s.clk with lock := false, pllLoss := true, taiValid := false } ∧ u.pwr = s.pwr :=
    ⟨_, if_pos ha, by simp, by simp⟩
  have hw : u.awake = true := by simpa [State.awake, hp] using h
  obtain ⟨-, hact, hbeat, hval, -, hlock, hloss, -⟩ := toOscillator_switches hw (by rw [hc]; exact ha)
  obtain ⟨hmode, hcause⟩ := safeHold_pwr 0x02 (toOscillator u)
  rw [hx, hmode, hcause, (safeHold_frame _ _).2.1, hact, hbeat, hval, hlock, hloss, hc]
  simp

/-- Settles O26: by software and by loss of lock, by the source the core runs from. -/
theorem sourceToOscillator : Obligations.SourceToOscillator := by
  refine ⟨fun s ho => ⟨fun ha => ?_, fun ha => ?_⟩, fun s hw => ⟨fun hp => ?_, fun hl ha => ?_, fun hl ha => ?_⟩⟩
  · obtain ⟨hsrc, hact, hbeat, hval, hout, -, -, heq⟩ := toOscillator_switches (awake_of_regOpen ho) ha
    exact ⟨_, exec_srcOscillator ho, hsrc, hact, hbeat, hval, hout, heq⟩
  · rw [exec_srcOscillator ho, toOscillator_idle ha]
  · simp [exec, execPllLock, hw, hp]
  · exact ⟨pllLoss s, by simp [exec, execPllLoss, hw, hl], pllLoss_active hw ha⟩
  · simp [exec, execPllLoss, hw, hl, pllLoss, ha]

end Sys2Proof.Machine

/-! ## Setting TAI and its rate (O27, O28) -/

namespace Sys2Proof.Machine

theorem exec_setNow {s : State} (h : s.regOpen = true) : exec .setNow s = .next (setNow s) := by
  simp [exec, execSetNow, h]
theorem exec_setAtPps {s : State} (h : s.regOpen = true) : exec .setAtPps s = .next (setAtPps s) := by
  simp [exec, execSetAtPps, h]
theorem exec_taiRateWrite {s : State} (h : s.regOpen = true) (v : Word) :
    exec (.taiRateWrite v) s = .next (taiRateWrite v s) := by
  simp [exec, execTaiRateWrite, h]

/-! Refusals (R39, R40). -/

/-- A refusal sets TAI_REFUSED and changes nothing but events, their console lines and marks. -/
theorem taiRefuse_eq (s : State) : taiRefuse s = { s with
    clk := { s.clk with taiRefused := true }, obs := (taiRefuse s).obs, pin := (taiRefuse s).pin } := by
  rw [taiRefuse, logEvent_eq]; rfl
/-- A refusal is logged in its beat where the event queue has room. -/
theorem taiRefuse_logged {s : State} (h : s.obs.events.length < 512) :
    ∃ e ∈ (taiRefuse s).obs.events, e.code = 0x0103 ∧ e.beat = s.clk.beat :=
  ⟨_, logEvent_mem (s := mark 0x02004 9 { s with clk := { s.clk with taiRefused := true } }) h 0x0103 0 0 0, rfl, rfl⟩
/-- A cancelled SET_AT_PPS is logged as a refusal. -/
theorem cancelSet_logged {s : State} (h : s.obs.events.length < 512) :
    ∃ e ∈ (cancelSet s).obs.events, e.code = 0x0103 ∧ e.beat = s.clk.beat :=
  taiRefuse_logged (s := { s with clk := { s.clk with setAtPps := none, setPrior := false } }) h
/-- A TAI command may not apply on the oscillator, nor where it steps a valid TAI back in Service (R27, R39). -/
theorem taiBlocked_true {s : State}
    (h : s.clk.srcActive = false ∨ (s.inService = true ∧ s.clk.taiValid = true ∧ s.taiSet < s.tai)) :
    taiBlocked s = true := by
  rcases h with h | ⟨hs, hv, ht⟩
  · simp [taiBlocked, h]
  · simp [taiBlocked, hs, hv, ht]

/-! SET_AT_PPS (R40). -/

/-- On the PLL with PPS_IN on a pin and a mode other than OFF, SET_AT_PPS is armed in its beat. -/
theorem setAtPps_arms {s : State} (ha : s.clk.srcActive = true) (hm : s.ppsMode ≠ 0) (hp : s.pinWith 0x6 0 ≠ none) :
    setAtPps s = { s with clk := { s.clk with setAtPps := some s.clk.beat, setPrior := s.clk.setAtPps.isSome } } := by
  simp [setAtPps, ha, hm, hp]
/-- Elsewhere SET_AT_PPS is refused. -/
theorem setAtPps_refused {s : State} (h : s.clk.srcActive = false ∨ s.ppsMode = 0 ∨ s.pinWith 0x6 0 = none) :
    setAtPps s = cancelSet s := by
  rcases h with h | h | h <;> simp [setAtPps, h]
/-- SET_AT_PPS_TIMEOUT brings the beats that are left of the wait, and cancels. -/
theorem exec_setAtPpsTimeout {s : State} (h : s.awake = true) {b : DWord} (hb : s.clk.setAtPps = some b) :
    exec .setAtPpsTimeout s = .next (cancelSet (elapseTo (b.toNat + 1100000000) s)) := by
  simp [exec, execSetAtPpsTimeout, h, hb]

/-- Settles O27: SET_NOW by whether it may apply, SET_AT_PPS by whether it may be armed, and the end of its wait. -/
theorem setTai : Obligations.SetTai := by
  refine ⟨fun s ho => ⟨fun ha hok => ?_, fun hb => ?_⟩, fun s ho => ⟨fun ha hm hp => ?_, fun hr => ?_⟩,
    fun s b hw hset hle hlim hmax => ?_⟩
  · have hx : setNow s = taiLoad s := by rw [setNow, taiBlocked_false ha hok]; rfl
    exact ⟨_, (exec_setNow ho).trans (congrArg _ hx), tai_taiLoad s, rfl, rfl, rfl, rfl⟩
  · have hx : setNow s = taiRefuse s := if_pos (taiBlocked_true hb)
    refine ⟨_, (exec_setNow ho).trans (congrArg _ hx), ?_, ?_, taiRefuse_logged⟩ <;> rw [taiRefuse_eq]
  · exact ⟨_, (exec_setAtPps ho).trans (congrArg _ (setAtPps_arms ha hm hp)), rfl, rfl, rfl⟩
  · refine ⟨_, (exec_setAtPps ho).trans (congrArg _ (setAtPps_refused hr)), ?_, ?_, cancelSet_logged⟩ <;> rw [cancelSet_eq]
  · obtain ⟨hlo, hhi⟩ := elapseTo_beat (b.toNat + 1100000000) hw (by omega) hlim
    have hper := period_cases s
    refine ⟨_, exec_setAtPpsTimeout hw hset, ?_⟩
    rw [cancelSet_eq]
    refine ⟨rfl, rfl, elapseTo_taiValid _ s, hlo, ?_, by rw [elapseTo, elapse_eq]⟩
    dsimp only
    omega

/-! CLK.TAI_RATE (R47). -/

/-- A rate within the limit is stored whole. -/
theorem taiRate_setReg {s : State} (h : Sound s) (v : Word) : (s.setReg 0x02024 v).taiRate = v.toInt := by
  have hr : regInfo 0x02024 = some ⟨0xFFFFFFFF, 0, false⟩ := rfl
  have hm : v &&& 0xFFFFFFFF = v := BitVec.and_allOnes
  exact congrArg BitVec.toInt ((reg_setReg_self h hr v).trans hm)

/-- Settles O28: by the magnitude of the rate. -/
theorem taiRate : Obligations.TaiRate := by
  refine fun s v hS ho => ⟨fun hv => ?_, fun hv => ?_⟩
  · have hx : taiRateWrite v s = s.setReg 0x02024 v := if_neg (Nat.not_lt.mpr hv)
    exact ⟨_, (exec_taiRateWrite ho v).trans (congrArg _ hx), taiRate_setReg hS v, setReg_eq s _ v,
      fun a ha => reg_setReg_ne hS ha v⟩
  · exact ⟨_, (exec_taiRateWrite ho v).trans (congrArg _ (if_pos hv)), rfl, rfl⟩

end Sys2Proof.Machine

/-! ## The slew, HOLDOVER and PPS_OUT (O30) -/

namespace Sys2Proof.Machine

/-! A slew step (R42). -/

/-- On the PLL every beat up to a later one is counted (R27). -/
theorem upTo_pll {s : State} (h : s.clk.srcActive = true) (b : Nat) : s.upTo b = b - s.clk.beat.toNat := by
  simp [State.upTo, State.period, h]
/-- Up to the beat in which the next slew step falls due, that one step falls due. -/
theorem slewSteps_to_due {s : State} (hl : s.clk.slewLeft ≠ 0) (hb : s.clk.beat.toNat ≤ s.clk.slewDue.toNat) :
    slewSteps s (s.clk.slewDue.toNat - s.clk.beat.toNat) = 1 := by
  simp only [slewSteps, if_neg hl, Nat.add_sub_cancel' hb, le_refl, if_true, Nat.sub_self]
  omega
/-- At rate 0 one slew step takes one nanosecond off the beats or adds one to them. -/
theorem taiAfter_one_step {s : State} (hr : s.taiRate = 0) (n : Nat) : taiAfter s n 1 =
    s.clk.taiQ + BitVec.ofNat 96 ((if 0 < s.clk.slewLeft then n - 1 else n + 1) * 4294967296) := by
  simp only [taiAfter, hr, gt_iff_lt]
  congr 2
  split <;> omega
/-- TAI_SLEW on the PLL brings the beats up to the step. -/
theorem exec_taiSlew {s : State} (ha : s.clk.srcActive = true) (hl : s.clk.slewLeft ≠ 0) :
    exec .taiSlew s = .next (elapse (s.clk.slewDue.toNat - s.clk.beat.toNat) s) := by
  simp [exec, execTaiSlew, hl, elapseTo, upTo_pll ha]

/-! HOLDOVER (R43). -/

/-- The later of the last accepted edge and the leaving of OFF. -/
def holdoverFrom (s : State) : Nat := max s.clk.leftOff.toNat ((s.clk.lastEdge.map BitVec.toNat).getD 0)
/-- The span passes from its begin, and then HOLDOVER is set and logged where it was clear. -/
theorem holdoverEnd_eq {s : State} (hm : s.ppsMode ≠ 0) :
    let u := elapseTo (holdoverFrom s + 1100000000) s
    holdoverEnd s = if u.clk.holdover then u else logEvent 0x0105 0 0 0 { u with clk := { u.clk with holdover := true } } := by
  cases h : s.clk.lastEdge <;> simp only [holdoverEnd, holdoverFrom, if_neg hm, h] <;> rfl
/-- The end of the span leaves HOLDOVER set, in its beat, with a new one logged in that beat. -/
theorem holdoverEnd_spec {s : State} (hm : s.ppsMode ≠ 0) :
    (holdoverEnd s).clk = { (elapseTo (holdoverFrom s + 1100000000) s).clk with holdover := true } ∧
    (s.clk.holdover = false → (elapseTo (holdoverFrom s + 1100000000) s).obs.events.length < 512 →
      ∃ e ∈ (holdoverEnd s).obs.events, e.code = 0x0105 ∧ e.beat = (holdoverEnd s).clk.beat) ∧
    holdoverEnd s = { s with clk := (holdoverEnd s).clk, pin := (holdoverEnd s).pin, obs := (holdoverEnd s).obs } := by
  have hx := holdoverEnd_eq hm
  have hu := elapse_eq (s.upTo (holdoverFrom s + 1100000000)) s
  have hh := elapseTo_holdover (holdoverFrom s + 1100000000) s
  rw [← elapseTo] at hu
  dsimp only at hx
  generalize elapseTo (holdoverFrom s + 1100000000) s = u at *
  cases hd : s.clk.holdover
  · rw [hh, hd, if_neg Bool.false_ne_true] at hx
    rw [hx]
    refine ⟨by simp, fun _ hlen => ?_, by rw [logEvent_eq, hu]⟩
    exact ⟨_, logEvent_mem (s := { u with clk := { u.clk with holdover := true } }) hlen 0x0105 0 0 0, rfl, by simp [mkEvent]⟩
  · rw [hh, hd, if_pos rfl] at hx
    rw [hx]
    exact ⟨by rw [← hh.trans hd], nofun, hu⟩
/-- Counting full stages logs no event. -/
theorem foldl_bump_events (n : Nat) : ∀ (l : List Nat) (s : State),
    (l.foldl (fun a o => bump o n a) s).obs.events = s.obs.events
  | [], _ => rfl
  | o :: l, s => foldl_bump_events n l (bump o n s)
/-- Time logs no event. -/
theorem elapse_events (n : Nat) (s : State) : (elapse n s).obs.events = s.obs.events := by
  cases h : s.awake
  · rw [elapse_asleep n h]
  · simp only [elapse, elapseBy, h, if_true]
    rw [ppsOutAfter_eq]
    exact foldl_bump_events n _ s

/-! PPS_OUT (R44): the way to a nanosecond of TAI, and what it does to the pulse. -/

/-- The search finds the threshold of a condition that holds from there on. -/
theorem leastFrom_eq {p : Nat → Bool} {m : Nat} : ∀ k lo hi : Nat, lo ≤ m → m ≤ hi → hi - lo < 2 ^ k →
    (∀ x < hi, p x = decide (m ≤ x)) → leastFrom p k lo hi = m
  | 0, lo, hi, hl, hh, hk, _ => by rw [leastFrom]; omega
  | k + 1, lo, hi, hl, hh, hk, hp => by
    rw [leastFrom]
    split
    · omega
    · next hlt =>
      rw [hp _ (by omega)]
      by_cases hm : m ≤ (lo + hi) / 2
      · rw [if_pos (by simpa using hm)]
        exact leastFrom_eq k _ _ hl hm (by omega) fun x hx => hp x (by omega)
      · rw [if_neg (by simpa using hm)]
        exact leastFrom_eq k _ _ (by omega) hh (by omega) hp

/-- TAI counts the beats of the PLL one to one, from `n` ns on: rate 0, no slew in progress. -/
structure TaiOnBeats (n : Nat) (s : State) : Prop where
  pll : s.clk.srcActive = true
  rate : s.taiRate = 0
  slew : s.clk.slewLeft = 0
  taiQ : s.clk.taiQ = BitVec.ofNat 96 (n * 4294967296)

section
variable {s : State} {n : Nat} (h : TaiOnBeats n s)
include h

/-- TAI reads `n`. -/
theorem TaiOnBeats.tai_eq (hn : n < 2 ^ 64) : s.tai.toNat = n := by
  simp only [State.tai, h.taiQ, BitVec.toNat_setWidth, BitVec.toNat_ushiftRight, BitVec.toNat_ofNat, Nat.shiftRight_eq_div_pow]
  omega
/-- After `m` beats TAI has moved on by `m` ns. -/
theorem TaiOnBeats.taiAfter_eq (m : Nat) :
    taiAfter s m (slewSteps s m) = BitVec.ofNat 96 ((n + m) * 4294967296) := by
  have hk : slewSteps s m = 0 := by simp [slewSteps, h.slew]
  have hmove : ((m : Int) * 4294967296).toNat = m * 4294967296 := by omega
  simp [taiAfter, hk, h.slew, h.rate, h.taiQ, hmove, Nat.add_mul, BitVec.ofNat_add]
/-- TAI reads `t` after `t - n` beats. -/
theorem TaiOnBeats.elapseToTai_eq {t : Nat} (ht : n ≤ t) (hm : n + (2 * (t - n) + 2) < 2 ^ 64) :
    elapseToTai t s = elapse (t - n) s := by
  have hp : s.period = 1 := by simp [State.period, h.pll]
  have hb : beatsToTai t s = t - n := by
    simp only [beatsToTai, hp, Nat.mul_one, h.tai_eq (by omega)]
    refine leastFrom_eq 64 0 _ (Nat.zero_le _) (by omega) (by omega) fun x hx => decide_eq_decide.mpr ?_
    rw [h.taiAfter_eq, BitVec.toNat_ofNat]
    omega
  rw [elapseToTai, hb]

end

/-- PPS_OUT rises where TAI has come to the begin of a later second. -/
theorem ppsOutAfter_rise {t0 : DWord} {u : State} {k : Nat} (hv : u.clk.taiValid = true)
    (he : (u.reg 0x02000).getLsbD 1 = true) (ht : u.tai.toNat = k * 1000000000) (hk : t0.toNat / 1000000000 < k) :
    ppsOutAfter t0 u = { u with clk := { u.clk with ppsOut := true, ppsOutFrom := u.tai } } := by
  have hfrom : BitVec.ofNat 64 (k * 1000000000) = u.tai := by rw [← ht]; simp
  simp [ppsOutAfter, hv, he, hk, hfrom, ht]
/-- PPS_OUT falls 100,000,000 ns after its rise. -/
theorem ppsOutAfter_fall {t0 : DWord} {u : State}
    (ht : u.tai.toNat / 1000000000 ≤ t0.toNat / 1000000000) (hp : u.clk.ppsOut = true)
    (hf : u.clk.ppsOutFrom.toNat + 100000000 ≤ u.tai.toNat) :
    ppsOutAfter t0 u = { u with clk := { u.clk with ppsOut := false } } := by
  simp [ppsOutAfter, Nat.not_lt.mpr ht, hp, hf]
/-- The way to `t` ns of TAI: beats move TAI to `t`, and then PPS_OUT follows it. -/
theorem TaiOnBeats.reach {s : State} {n t : Nat} (h : TaiOnBeats n s) (hw : s.awake = true) (ht : n ≤ t)
    (hm : n + (2 * (t - n) + 2) < 2 ^ 64) : ∃ u : State, elapseToTai t s = ppsOutAfter s.tai u ∧ u.tai.toNat = t ∧
      u.clk.taiValid = s.clk.taiValid ∧ u.clk.ppsOut = s.clk.ppsOut ∧ u.clk.ppsOutFrom = s.clk.ppsOutFrom ∧
      u = { s with clk := u.clk, pin := u.pin, obs := u.obs } := by
  obtain ⟨u, hx, hc, hu⟩ := elapseBy_awake s.period (t - n) hw
  have hq : TaiOnBeats t { s with clk := { s.clk with taiQ := u.clk.taiQ } } :=
    ⟨h.pll, h.rate, h.slew, by rw [hc]; exact (h.taiAfter_eq _).trans (by rw [Nat.add_sub_cancel' ht])⟩
  exact ⟨u, (h.elapseToTai_eq ht hm).trans hx, hq.tai_eq (by omega), by rw [hc]; rfl, by rw [hc]; rfl, by rw [hc]; rfl, hu⟩

/-- PPS_OUT rises where TAI comes to the begin of a later second. -/
theorem TaiOnBeats.rises {s : State} {n k : Nat} (h : TaiOnBeats n s) (hw : s.awake = true) (hv : s.clk.taiValid = true)
    (he : (s.reg 0x02000).getLsbD 1 = true) (hk : n / 1000000000 < k)
    (hm : n + (2 * (k * 1000000000 - n) + 2) < 2 ^ 64) : ∃ t, elapseToTai (k * 1000000000) s = t ∧ t.clk.ppsOut = true ∧
      t.tai.toNat = k * 1000000000 ∧ t.clk.ppsOutFrom = t.tai ∧ t = { s with clk := t.clk, pin := t.pin, obs := t.obs } := by
  have htai := h.tai_eq (by omega)
  obtain ⟨u, hx, ht, hval, -, -, hu⟩ := h.reach hw (t := k * 1000000000) (by omega) hm
  rw [ppsOutAfter_rise (t0 := s.tai) (hval.trans hv) (by rw [hu]; exact he) ht (by omega)] at hx
  exact ⟨_, hx, rfl, ht, rfl, by rw [hu]⟩
/-- PPS_OUT falls where TAI comes to 100,000,000 ns after its rise. -/
theorem TaiOnBeats.falls {s : State} {n : Nat} (h : TaiOnBeats n s) (hw : s.awake = true) (hp : s.clk.ppsOut = true)
    (hf : s.clk.ppsOutFrom.toNat = n / 1000000000 * 1000000000) (hlt : n < s.clk.ppsOutFrom.toNat + 100000000)
    (hn : n + 4000000000 < 2 ^ 64) : ∃ t, elapseToTai (s.clk.ppsOutFrom.toNat + 100000000) s = t ∧ t.clk.ppsOut = false ∧
      t.tai.toNat = s.clk.ppsOutFrom.toNat + 100000000 ∧ t = { s with clk := t.clk, pin := t.pin, obs := t.obs } := by
  have htai := h.tai_eq (by omega)
  obtain ⟨u, hx, ht, -, hout, hof, hu⟩ := h.reach hw (t := s.clk.ppsOutFrom.toNat + 100000000) (by omega) (by omega)
  rw [ppsOutAfter_fall (t0 := s.tai) (by omega) (hout.trans hp) (by rw [hof, ht])] at hx
  exact ⟨_, hx, rfl, ht, by rw [hu]⟩
/-- PPS_OUT_RISE brings the beats up to the next whole second of TAI. -/
theorem exec_ppsOutRise {s : State} (hv : s.clk.taiValid = true) (he : (s.reg 0x02000).getLsbD 1 = true) :
    exec .ppsOutRise s = .next (elapseToTai ((s.tai.toNat / 1000000000 + 1) * 1000000000) s) := by
  simp only [exec, execPpsOutRise, hv, he, Bool.and_self, if_true]
/-- PPS_OUT_FALL brings the beats up to the end of the pulse. -/
theorem exec_ppsOutFall {s : State} (hp : s.clk.ppsOut = true) :
    exec .ppsOutFall s = .next (elapseToTai (s.clk.ppsOutFrom.toNat + 100000000) s) := by
  simp only [exec, execPpsOutFall, hp, if_true]

/-- Settles O30: the slew step by the beats up to it, HOLDOVER by its span, and PPS_OUT by the nanosecond TAI comes to. -/
theorem ppsOutput : Obligations.PpsOutput := by
  refine ⟨fun s => ⟨fun hw ha hl hb => ?_, fun f hh hm hf hb hmax => ?_⟩, fun s n hw ha hv he hr hl hq hn => ?_⟩
  · refine ⟨_, exec_taiSlew ha hl, ?_⟩
    rw [elapse_clk _ hw, slewSteps_to_due hl hb]
    refine ⟨?_, rfl, rfl, fun hr => taiAfter_one_step hr _, ?_⟩
    · have := s.clk.slewDue.isLt
      apply BitVec.eq_of_toNat_eq
      simp only [BitVec.toNat_add, BitVec.toNat_ofNat]
      omega
    · rw [← slewSteps_to_due hl hb, ← elapse_clk _ hw]
      exact elapse_eq _ s
  · have hx : exec .holdover s = .next (holdoverEnd s) := by simp [exec, execHoldover, hh]
    obtain ⟨hc, hlog, heq⟩ := holdoverEnd_spec hm
    obtain rfl : f = holdoverFrom s := hf
    obtain ⟨hlo, hhi⟩ := elapseTo_beat (holdoverFrom s + 1100000000) (awake_of_handedOff hh) (by omega) hb
    have hper := period_cases s
    refine ⟨_, hx, by rw [hc], by rw [hc]; exact hlo, ?_, fun hd hlen => hlog hd (by rwa [elapseTo, elapse_events]), heq⟩
    rw [hc]
    dsimp only
    omega
  · have h : TaiOnBeats n s := ⟨ha, hr, hl, hq⟩
    refine ⟨?_, fun hp hfrom hlt => ?_⟩
    · obtain ⟨t, ht, hrise⟩ := h.rises hw hv he (k := n / 1000000000 + 1) (by omega) (by omega)
      exact ⟨t, by rw [exec_ppsOutRise hv he, h.tai_eq (by omega), ht], hrise⟩
    · obtain ⟨t, ht, hfall⟩ := h.falls hw hp hfrom hlt hn
      exact ⟨t, by rw [exec_ppsOutFall hp, ht], hfall⟩

end Sys2Proof.Machine

/-! ## Reads of BAR0 (O21) -/

namespace Sys2Proof.Machine

/-! What a read leaves and answers. -/

/-- Only the answer and the latches of the four reads that latch may differ (R37, R46, R64, R113, R247). -/
def LatchesOnly (s t : State) : Prop :=
  t = { s with
    host := { s.host with resp := t.host.resp }
    clk := { s.clk with beatLatch := t.clk.beatLatch, taiLatch := t.clk.taiLatch }
    ring := { s.ring with highLatch := t.ring.highLatch }
    ledger := { s.ledger with serialLatch := t.ledger.serialLatch } }
theorem LatchesOnly.trans {s t u : State} (h : LatchesOnly s t) (k : LatchesOnly t u) : LatchesOnly s u :=
  Eq.trans k (by rw [h])
theorem readReg_latchesOnly (a : Nat) (s : State) : LatchesOnly s (readReg a s).2 := by
  unfold readReg; dsimp only
  (repeat' split) <;> rfl
theorem answer_latchesOnly (r : Resp) (s : State) : LatchesOnly s (answer r s) := rfl

/-- A word is four bytes. -/
@[simp] theorem length_wordBytes (w : Word) : (wordBytes w).length = 4 := length_leBytes 4 _
/-- Bytes that end within the first part are the first part's. -/
theorem slice_append_left {off len : Nat} {a : Bytes} (h : off + len ≤ a.length) (b : Bytes) :
    slice off len (a ++ b) = slice off len a := by
  rw [slice, slice, List.drop_append_of_le_length (by omega), List.take_append_of_le_length (by simp; omega)]
/-- Bytes that begin past the first part are the second part's. -/
theorem slice_append_right {off : Nat} {a : Bytes} (h : a.length ≤ off) (len : Nat) (b : Bytes) :
    slice off len (a ++ b) = slice (off - a.length) len b := by
  rw [slice, slice, List.drop_append, List.drop_eq_nil_of_le h, List.nil_append]

/-- A read within the lower register. -/
theorem readUnit_lower {off len : Nat} (h : off % 8 + len ≤ 4) (hl : 0 < len) (s : State) :
    readUnit off len s = answer (.bytes (slice (off % 8) len (leBytes 4 (readValue (off / 8 * 8) s).toNat)))
      (readReg (off / 8 * 8) s).2 := by
  have h1 : off % 8 < 4 := by omega
  simp only [readUnit, h1, if_true, Nat.not_lt.mpr h, if_false]
  rw [slice_append_left (by simpa using h)]
  rfl
/-- A read within the upper register. -/
theorem readUnit_upper {off : Nat} (h : 4 ≤ off % 8) {len : Nat} (hl : 0 < len) (s : State) :
    readUnit off len s = answer (.bytes (slice (off % 8 - 4) len (leBytes 4 (readValue (off / 8 * 8 + 4) s).toNat)))
      (readReg (off / 8 * 8 + 4) s).2 := by
  have h1 : 4 < off % 8 + len := by omega
  simp only [readUnit, h1, if_true, Nat.not_lt.mpr h, if_false]
  rw [slice_append_right (by simpa using h), length_wordBytes]
  rfl
/-- A read of both registers: the upper one as it stands after the read of the lower. -/
theorem readUnit_both {off len : Nat} (h : off % 8 < 4) (h4 : 4 < off % 8 + len) (s : State) :
    readUnit off len s = answer (.bytes (slice (off % 8) len (leBytes 4 (readValue (off / 8 * 8) s).toNat ++
        leBytes 4 (readValue (off / 8 * 8 + 4) (readReg (off / 8 * 8) s).2).toNat)))
      (readReg (off / 8 * 8 + 4) (readReg (off / 8 * 8) s).2).2 := by
  simp only [readUnit, h, h4, if_true]
  rfl
theorem readUnit_latchesOnly (off : Nat) {len : Nat} (hl : 0 < len) (s : State) : LatchesOnly s (readUnit off len s) := by
  by_cases h : off % 8 < 4
  · by_cases h4 : 4 < off % 8 + len
    · rw [readUnit_both h h4]
      exact ((readReg_latchesOnly _ _).trans (readReg_latchesOnly _ _)).trans (answer_latchesOnly _ _)
    · rw [readUnit_lower (Nat.not_lt.mp h4) hl]
      exact (readReg_latchesOnly _ _).trans (answer_latchesOnly _ _)
  · rw [readUnit_upper (Nat.not_lt.mp h) hl]
    exact (readReg_latchesOnly _ _).trans (answer_latchesOnly _ _)

/-! Where the host reaches the function (R113, R122). -/

/-- Where the host reaches the function, no request to a BAR is an Unsupported Request. -/
theorem hostShut_of_hostOpen {s : State} (h : s.hostOpen = true) : s.hostShut = false := by
  simp only [State.hostOpen, Bool.and_eq_true] at h
  simp [State.hostShut, h]
/-- A read within one aligned 8-byte unit is served. -/
theorem bar0Read_served {s : State} (h : s.hostOpen = true) {off len : Nat} (hl : 0 < len) (hu : off % 8 + len ≤ 8) :
    bar0Read off len s = readUnit off len s := by
  simp [bar0Read, hostShut_of_hostOpen h, h, hl.ne', hu]
/-- Any other read aborts. -/
theorem bar0Read_aborts {s : State} (h : s.hostOpen = true) {off len : Nat} (hl : 0 < len) (hu : 8 < off % 8 + len) :
    bar0Read off len s = answer .abort (mark 0x04014 0 { s with host := { s.host with bar0Partial := true } }) := by
  simp [bar0Read, hostShut_of_hostOpen h, h, hl.ne', Nat.not_le.mpr hu]
/-- While Memory Space Enable is 0 or in D3hot a read is an Unsupported Request. -/
theorem bar0Read_shut {s : State} (h : s.hostShut = true) (off len : Nat) : bar0Read off len s =
    { s with host := { s.host with resp := .unsupported, aerUncorr := s.host.aerUncorr ||| 0x100000 } } := by
  simp only [bar0Read, h, if_true, refuseAccess]
  rfl

/-! What reads at which stage (R103). -/

/-- After hand-off every register is readable. -/
theorem readable_of_handedOff {s : State} (h : s.handedOff = true) (a : Nat) : readable a s = true := by
  have h8 : s.sys.stage ≠ 8 := by
    simp only [State.handedOff, Bool.and_eq_true, decide_eq_true_eq] at h
    exact h.2
  rw [readable, if_neg h8, if_pos h]
/-- After hand-off a register reads its image. -/
theorem readValue_of_handedOff {s : State} (h : s.handedOff = true) (a : Nat) : readValue a s = regImage a s :=
  if_pos (readable_of_handedOff h a)
/-- What the host reads of a register by the stage of the start-up. -/
theorem readValue_stage (s : State) (a : Nat) :
    (s.handedOff = true → readValue a s = regImage a s) ∧
    (s.sys.stage = 8 → readValue a s = (if a < 0x01000 then regImage a s else 0)) ∧
    (s.handedOff = false → s.sys.stage ≠ 8 →
      readValue a s = (if a < 0x01000 ∨ (0x02000 ≤ a ∧ a < 0x04000) then regImage a s else 0)) := by
  refine ⟨fun h => readValue_of_handedOff h a, fun h8 => ?_, fun h h8 => ?_⟩
  · simp [readValue, readable, h8]
  · rw [readValue, readable, if_neg h8, h]
    simp

/-! The four reads that latch (R37, R46, R64, R247). -/

/-- A read of one whole register answers its four bytes, and has its side effect. -/
theorem bar0Read_word {s : State} (h : s.hostOpen = true) {a : Nat} (ha : a % 4 = 0) :
    bar0Read a 4 s = answer (.bytes (leBytes 4 (readValue a s).toNat)) (readReg a s).2 := by
  have hslice (w : Word) : slice 0 4 (leBytes 4 w.toNat) = leBytes 4 w.toNat := rfl
  rw [bar0Read_served h (by decide) (by omega)]
  rcases (by omega : a % 8 = 0 ∨ a % 8 = 4) with h8 | h8
  · rw [readUnit_lower (by omega) (by decide), h8, (by omega : a / 8 * 8 = a), hslice]
  · rw [readUnit_upper (by omega) (by decide), h8, (by omega : a / 8 * 8 + 4 = a), hslice]
/-- After hand-off a command that reads one whole register answers its image. -/
theorem next_read_of_handedOff {s : State} (h : s.hostOpen = true) (hh : s.handedOff = true) {i : Instr} {a : Nat}
    (hi : exec i s = .next (bar0Read a 4 s)) (ha : a % 4 = 0) :
    exec i s = .next (answer (.bytes (leBytes 4 (regImage a s).toNat)) (readReg a s).2) := by
  rw [hi, bar0Read_word h ha, readValue_of_handedOff hh]
/-- After hand-off the read of CLK.BEAT_LO latches the count (R37). -/
theorem readReg_beatLo {s : State} (h : s.handedOff = true) : (readReg 0x02008 s).2 = latchBeat s := by
  simp [readReg, readable_of_handedOff h]
/-- After hand-off the read of CLK.TAI_LO latches TAI (R46). -/
theorem readReg_taiLo {s : State} (h : s.handedOff = true) : (readReg 0x02010 s).2 = latchTai s := by
  simp [readReg, readable_of_handedOff h]
/-- After hand-off the read of RING.WARD_HIGH_LO latches the selected ward's mark (R64). -/
theorem readReg_wardHighLo {s : State} (h : s.handedOff = true) : (readReg 0x0840C s).2 = latchHigh s := by
  simp [readReg, readable_of_handedOff h]
/-- After hand-off the read of LEDG.SERIAL_LO latches the serial (R247). -/
theorem readReg_serialLo {s : State} (h : s.handedOff = true) : (readReg 0x1000C s).2 = latchSerial s := by
  simp [readReg, readable_of_handedOff h]
/-- The high part of a mark is latched whole: it has 16 bits (R64). -/
theorem highPart_whole (x : BitVec 48) : ((x >>> 32).setWidth 16).setWidth 32 = (x >>> 32).setWidth 32 := by
  have := x.isLt
  apply BitVec.eq_of_toNat_eq
  simp [Nat.shiftRight_eq_div_pow]
  omega

/-- Settles O21: a read by where it lies, a register by the stage, and the four latching reads as reads of their register. -/
theorem registerReads : Obligations.RegisterReads := by
  refine ⟨fun s off len hl => ⟨fun ho hu => congrArg _ (bar0Read_aborts ho hl hu), fun ho hu => ?_,
    fun hs => congrArg _ (bar0Read_shut hs off len)⟩, fun s a => readValue_stage s a, fun s ho hh => ?_⟩
  · have hx : exec (.bar0ReadAbort off len) s = .next (readUnit off len s) := congrArg _ (bar0Read_served ho hl hu)
    refine ⟨_, hx, readUnit_latchesOnly off hl s, fun h => ?_, fun h => ?_, fun h h4 => ?_⟩
    · rw [readUnit_lower h hl]; rfl
    · rw [readUnit_upper h hl]; rfl
    · rw [readUnit_both h h4]; rfl
  · refine ⟨⟨_, next_read_of_handedOff ho hh (a := 0x02008) rfl rfl, ?_, ?_⟩,
      ⟨_, next_read_of_handedOff ho hh (a := 0x02010) rfl rfl, ?_, ?_⟩,
      ⟨_, next_read_of_handedOff ho hh (a := 0x0840C) rfl rfl, ?_, ?_⟩,
      ⟨_, next_read_of_handedOff ho hh (a := 0x1000C) rfl rfl, ?_, ?_⟩⟩
    · simp [answer, regImage, clkImage, lo32]
    · rw [readReg_beatLo hh]; rfl
    · simp [answer, regImage, clkImage, lo32]
    · rw [readReg_taiLo hh]; rfl
    · simp [answer, regImage, ringImage]
    · rw [readReg_wardHighLo hh]
      simp [regImage, ringImage, answer, latchHigh, highPart_whole]
    · simp [answer, regImage, ledgImage, lo32]
    · rw [readReg_serialLo hh]; rfl

end Sys2Proof.Machine


/-! ## What a completion leaves of the wards

The wards after a job has ended: its rings move, and a malformed status may count against its own ward (R56, R136). -/

namespace Sys2Proof.Machine

/-- The rings of a context once a completion entry has taken its slot (R136, R143). -/
def Ring.posted (r : Ring) : Ring :=
  { r with cqTail := (r.cqTail + 1) % r.cqSize, phase := if (r.cqTail + 1) % r.cqSize = 0 then !r.phase else r.phase
           reserved := r.reserved - 1 }
/-- The wards after a completion entry has taken its slot. -/
def State.posted (s : State) (c : Ctx) : State := if s.ringUp c then s.setRing c (s.ringOf c).posted else s

/-- Setting the rings of a context changes of the wards its own rings alone. -/
theorem setRing_ward {s : State} (hs : Sound s) (c : Ctx) (r : Ring) (u : WardId) :
    (s.setRing c r).ward u = if c = .ward u then { s.ward u with ring := r } else s.ward u := by
  cases c with
  | admin => rfl
  | ward w =>
    rcases eq_or_ne u w with rfl | hu
    · rw [if_pos rfl]; exact ward_updWard_self hs ..
    · rw [if_neg fun h => hu (Ctx.ward.inj h).symm]; exact ward_updWard_ne hs hu _
/-- A completion entry changes rings alone. -/
theorem posted_ward {s : State} (hs : Sound s) (c : Ctx) (u : WardId) :
    (s.posted c).ward u = { s.ward u with ring := ((s.posted c).ward u).ring } := by
  unfold State.posted
  split
  · rw [setRing_ward hs]; split <;> rfl
  · rfl
/-- A completion entry changes no ward but its own. -/
theorem posted_ward_ne {s : State} (hs : Sound s) {c : Ctx} {u : WardId} (hc : c ≠ .ward u) :
    (s.posted c).ward u = s.ward u := by
  unfold State.posted
  split
  · rw [setRing_ward hs, if_neg hc]
  · rfl
theorem posted_sound {s : State} (hs : Sound s) (c : Ctx) : Sound (s.posted c) := by
  unfold State.posted
  split
  · exact (State_setRing_keeps ..).1 hs
  · exact hs

/-- What a fault does to the wards depends on the wards alone. -/
theorem faultWard_wards_congr {s t : State} (h : s.wards = t.wards) (w : WardId) (c : BitVec 2) :
    (faultWard w c s).wards = (faultWard w c t).wards := by
  have hw : s.ward w = t.ward w := by simp only [State.ward, h]
  unfold faultWard
  rw [hw]
  split <;> simp [State.updWard, State.setWard, hw, h]
/-- A fault changes of its ward the state and the cause alone. -/
theorem faultWard_ward {s : State} (hs : Sound s) (w : WardId) (c : BitVec 2) :
    ∃ x f, (faultWard w c s).ward w = { s.ward w with state := x, lastFault := f } := by
  have hw (t : State) (a b : Nat) : (logEvent 0x0401 a b 0 t).ward w = t.ward w := by rw [logEvent_eq]; rfl
  unfold faultWard
  split
  · exact ⟨_, _, by rw [hw, ward_updWard_self hs]⟩
  · exact ⟨_, _, by rw [hw, ward_updWard_self hs]⟩
  · exact ⟨_, _, ward_updWard_self hs ..⟩
  · exact ⟨_, _, rfl⟩
/-- What a count of malformed completions does to the wards depends on the wards alone. -/
theorem countMalformed_wards_congr {s t : State} (h : s.wards = t.wards) (c : Ctx) (st : Nat) :
    (countMalformed c st s).wards = (countMalformed c st t).wards := by
  cases c with
  | admin => exact h
  | ward w =>
    have hw : s.ward w = t.ward w := by simp only [State.ward, h]
    have hu (f : Ward → Ward) : (s.updWard w f).wards = (t.updWard w f).wards := by
      simp only [State.updWard, State.setWard, hw, h]
    unfold countMalformed
    simp only [hw]
    split
    · split
      · exact faultWard_wards_congr (hu _) w 2
      · exact hu _
    · exact h
/-- The wards after a completion: its slot is taken, and a malformed one counts (R56, R136). -/
theorem finish_wards (j : Job) (st or d : Nat) (s : State) :
    (finish j st or d s).wards = (if s.ringUp j.ctx then countMalformed j.ctx st (s.posted j.ctx) else s).wards := by
  have hu : (s.dropJob j.id).ringUp j.ctx = s.ringUp j.ctx := by cases j.ctx <;> rfl
  have hp : ((s.dropJob j.id).setRing j.ctx ((s.dropJob j.id).ringOf j.ctx).posted).wards =
      (s.setRing j.ctx (s.ringOf j.ctx).posted).wards := by cases j.ctx <;> rfl
  have ha (t : State) : (applyWhenClear t).wards = t.wards := by simp
  unfold finish postCompletion
  rw [ha, hu]
  split
  · rw [State.posted, if_pos ‹_›]
    refine countMalformed_wards_congr (Eq.trans ?_ hp) ..
    have hsend (h : Held) (t : State) : (send h t).wards = t.wards := by simp
    have hbump (o n : Nat) (t : State) : (bump o n t).wards = t.wards := rfl
    rw [hsend]
    simp only [apply_ite State.wards, hbump, ite_self]
    rfl
  · rfl
/-- Where its status does not count as malformed, a completion changes of the wards rings alone. -/
theorem finish_wards_of {st : Nat} (h : countsMalformed st = false) (j : Job) (or d : Nat) (s : State) :
    (finish j st or d s).wards = (s.posted j.ctx).wards := by
  have hc (u : State) : countMalformed j.ctx st u = u := by
    unfold countMalformed
    split
    · rfl
    · rw [h]; rfl
  rw [finish_wards, hc]
  unfold State.posted
  split <;> rfl
/-- An admin job's completion changes no ward. -/
theorem finish_wards_of_admin {j : Job} (h : j.ctx = .admin) (st or d : Nat) (s : State) :
    (finish j st or d s).wards = s.wards := by
  rw [finish_wards, h]
  split
  · unfold State.posted; split <;> rfl
  · rfl
/-- A completion changes no ward but its own. -/
theorem finish_ward_ne {s : State} (hs : Sound s) {j : Job} {u : WardId} (hc : j.ctx ≠ .ward u) (st or d : Nat) :
    (finish j st or d s).ward u = s.ward u := by
  have hp := posted_ward_ne hs hc
  have hq := posted_sound hs j.ctx
  have hm : (countMalformed j.ctx st (s.posted j.ctx)).ward u = (s.posted j.ctx).ward u := by
    unfold countMalformed
    split
    · rfl
    · next w hj =>
      have hu : u ≠ w := fun e => hc (e ▸ hj)
      dsimp only
      (repeat' split)
      · rw [faultWard_ne ((State_updWard_keeps ..).1 hq) hu, ward_updWard_ne hq hu]
      · exact ward_updWard_ne hq hu _
      · rfl
  unfold State.ward
  rw [finish_wards]
  split
  · exact hm.trans hp
  · rfl
/-- Where its status does not count as malformed, a completion keeps all of a ward but its rings. -/
theorem finish_ward_of {s : State} (hs : Sound s) {st : Nat} (h : countsMalformed st = false) (j : Job) (or d : Nat) (u : WardId) :
    (finish j st or d s).ward u = { s.ward u with ring := ((finish j st or d s).ward u).ring } := by
  have hw : (finish j st or d s).ward u = (s.posted j.ctx).ward u := by simp only [State.ward, finish_wards_of h]
  rw [hw]
  exact posted_ward hs ..
/-- A completion keeps of a ward all but rings, count and state. -/
theorem finish_ward {s : State} (hs : Sound s) (j : Job) (st or d : Nat) (u : WardId) :
    ∃ r n x f, (finish j st or d s).ward u = { s.ward u with ring := r, malformed := n, state := x, lastFault := f } := by
  by_cases hc : j.ctx = .ward u
  · have hq := posted_sound hs j.ctx
    have hp := posted_ward hs j.ctx u
    have hm : ∃ r n x f, (countMalformed j.ctx st (s.posted j.ctx)).ward u =
        { s.ward u with ring := r, malformed := n, state := x, lastFault := f } := by
      rw [hc] at hq hp ⊢
      generalize s.posted (.ward u) = t at hq hp ⊢
      unfold countMalformed
      dsimp only
      (repeat' split)
      · obtain ⟨x, f, hx⟩ := faultWard_ward ((State_updWard_keeps ..).1 hq) u 2
        exact ⟨_, _, x, f, by rw [hx, ward_updWard_self hq, hp]⟩
      · exact ⟨_, _, _, _, by rw [ward_updWard_self hq, hp]⟩
      · exact ⟨_, _, _, _, hp⟩
    unfold State.ward
    rw [finish_wards]
    split
    · exact hm
    · exact ⟨_, _, _, _, rfl⟩
  · exact ⟨_, _, _, _, finish_ward_ne hs hc st or d⟩
end Sys2Proof.Machine

/-! ## The write round that writes one COMMIT

`CommitDue` leaves one item at the Ledger port. The round writes it, and the effect of its intent comes on a state that differs
from the one before by the Ledger, the cache, the counters and the context entry alone (R231, R235, R240). -/

namespace Sys2Proof.Machine

/-- The state once the slots of the round are written. -/
structure SlotWritten (s u : State) : Prop where
  sound : Sound u
  intents : u.ledger.intents = s.ledger.intents
  events : u.obs.events = s.obs.events
  rest : u = { s with ledger := u.ledger, obs := u.obs }
/-- The state as the effect of intent `i` comes: the slot of its COMMIT is written and its context entry has taken it up. -/
structure Committing (i : Intent) (s v : State) : Prop where
  sound : Sound v
  ring : v.ring = (commitContext i s).ring
  wards : v.wards = (commitContext i s).wards
  events : v.obs.events = s.obs.events
  rest : v = { s with ring := v.ring, wards := v.wards, cache := v.cache, ledger := v.ledger, obs := v.obs }

/-- The intent of the COMMIT is found by its serial. -/
theorem intentOf_of_commitDue {i : Intent} {j : Job} {s u : State} (h : CommitDue i j s)
    (hu : u.ledger.intents = s.ledger.intents) : u.intentOf i.serial = some i := by
  simp [State.intentOf, hu, h.only, h.fresh]
/-- With nothing at the port a round writes nothing. -/
theorem writeSlots_of_empty {s : State} (h : s.ledger.port = []) (key : BitVec 256) (bad : List Nat) (k n : Nat) :
    writeSlots key bad k n s = ([], s) := by
  cases k with
  | zero => rfl
  | succ k =>
    unfold writeSlots
    rw [h]
    exact ite_self _
/-- Writing slots changes no live intent. -/
@[simp] theorem putSlots_liveIntents (n slot : Nat) (b : Bytes) (s : State) :
    (putSlots n slot b s).ledger.intents = s.ledger.intents := by
  induction n generalizing slot b s with
  | zero => rfl
  | succ n ih => exact ih ..
/-- The round writes the one slot of the COMMIT. -/
theorem writeSlots_commitDue {i : Intent} {j : Job} {s : State} (hs : Sound s) (h : CommitDue i j s) (key : BitVec 256) :
    ∃ u, writeSlots key [] 8 0 s = ([.commit i.serial], u) ∧ SlotWritten s u := by
  obtain ⟨c, cs, hc⟩ := List.exists_cons_of_ne_nil h.slot
  have hb : itemBytes key (.commit i.serial) s = some (c.2, i.record key 4 1 c.1 0 (commitBody i) []) := by
    simp [itemBytes, intentOf_of_commitDue h rfl, hc]
  have hk := (writeSlots_keeps key [] 8 0 s).1 hs
  generalize hr : writeSlots key [] 8 0 s = r at hk
  unfold writeSlots at hr
  simp only [h.alive, h.port, hb, Bool.false_eq_true, if_false, List.contains_nil, Nat.le_refl, if_true] at hr
  rw [writeSlots_of_empty (by rfl)] at hr
  subst hr
  refine ⟨_, rfl, hk, ?_, ?_, ?_⟩
  · simp
  · simp [bump]
  · apply State.eq_of <;> simp

/-- The context entry of a command takes the COMMIT up in its rings and wards, whatever the Ledger and the counters hold. -/
theorem commitContext_of_command {i : Intent} (hp : i.capture = false) (s : State) (l : LedgerBlk) (o : ObsBlk) :
    commitContext i { s with ledger := l, obs := o } =
      { s with ledger := l, obs := o, ring := (commitContext i s).ring, wards := (commitContext i s).wards } := by
  unfold commitContext
  rw [hp]
  split <;> rfl
/-- An intent without payload records brings none to the cache. -/
theorem commitPayload_obs_of_plain {i : Intent} (hd : i.datas = []) (hp : i.parities = []) (s : State) :
    (commitPayload i s).obs = s.obs := by
  unfold commitPayload
  split
  · rfl
  · simp [hd, hp]

/-- The write round that writes one COMMIT (R231, R235, R240): the context entry takes it up, its effect comes, and its job
completes with the intent's DETAIL. -/
theorem exec_ledgerRound_commitDue {i : Intent} {j : Job} {s : State} (hs : Sound s) (h : CommitDue i j s) :
    ∃ v t, Committing i s v ∧ exec (.ledgerRound [] none) s = .next t ∧
      ((applyEffect i v).job j.id = some j → t = { finish j 0 0 i.detail (applyEffect i v) with ledger := t.ledger }) := by
  obtain ⟨keys, hk⟩ := Option.ne_none_iff_exists'.1 h.keys
  obtain ⟨u, hw, hu⟩ := writeSlots_commitDue hs h keys.ledger
  obtain ⟨hcap, hdata, hpar⟩ := h.plain
  generalize hu' : bump (cDev 7) 1 (u.updIntent i.serial fun x => { x with phase := .committed }) = u'
  have hsu' : Sound u' := by subst hu'; exact (bump_keeps ..).1 ((State_updIntent_keeps ..).1 hu.sound)
  have hevents : u'.obs.events = s.obs.events := by subst hu'; exact hu.events
  obtain ⟨l, o, hl⟩ : ∃ l o, u' = { s with ledger := l, obs := o } := by
    refine ⟨u'.ledger, u'.obs, ?_⟩
    rw [← hu', hu.rest]
    rfl
  generalize hv : commitPayload i (commitContext i u') = v
  have hv' : v = commitPayload i { s with
      ledger := l, obs := o, ring := (commitContext i s).ring, wards := (commitContext i s).wards } := by
    rw [← commitContext_of_command hcap, ← hl, hv]
  refine ⟨v, refreshCap (pumpPort (holdCheck (commitDone i u))), ⟨?_, ?_, ?_, ?_, ?_⟩, ?_, fun hj => ?_⟩
  · subst hv; exact (commitPayload_keeps ..).1 ((commitContext_keeps ..).1 hsu')
  · simp [hv']
  · simp [hv']
  · rw [hv', commitPayload_obs_of_plain hdata hpar, ← hevents, hl]
  · rw [hv']; apply State.eq_of <;> simp
  · have hround : ledgerRound [] s = refreshCap (pumpPort (holdCheck (itemDone (.commit i.serial) u))) := by
      unfold ledgerRound
      simp [hk, h.alive, h.awake, h.port, hw]
    have hdone : itemDone (.commit i.serial) u = commitDone i u := by
      simp [itemDone, intentOf_of_commitDue h hu.intents]
    exact congrArg _ (hround.trans (by rw [hdone]))
  · have hdone : commitDone i u = pruneIntents (finish j 0 0 i.detail (applyEffect i v)) := by
      subst hv hu'
      unfold commitDone
      simp only [h.job, Option.bind_some, hj]
    rw [hdone]
    apply State.eq_of <;> simp
end Sys2Proof.Machine

/-! ## Where a ward's epoch comes from (O5)

A ward's epoch moves only where the COMMIT of a CREATE_WARD intent brings its ward, and such an intent is journaled by CREATE_WARD
alone. `EpochLaw` says which wards the live intents may bring and which epochs the wards may have; each operation keeps both. -/

namespace Sys2Proof.Machine

/-- Which wards a live CREATE_WARD intent may bring, and which epoch each ward may have: the epoch of a ward that an intent may
bring is one of them. -/
structure EpochLaw where
  brings : WardId → Ward → Prop
  has : WardId → Word → Prop
  link : ∀ w x, brings w x → has w x.epoch

/-- The wards have epochs that the law allows, in a canonical table. -/
structure EpochLaw.Wards (law : EpochLaw) (t : Tab Ward) : Prop where
  wf : Tab.wf (fun _ => {}) t = true
  epoch : ∀ w : WardId, law.has w (t.get {} w.val).epoch

/-- The intents bring wards that the law allows. -/
def EpochLaw.Intents (law : EpochLaw) (l : List Intent) : Prop := ∀ i ∈ l, ∀ w x, i.effect = .create w x → law.brings w x

variable {law : EpochLaw} {s : State}

/-! Tables of wards and lists of intents. -/

/-- A ward of the table has an allowed epoch. -/
@[simp] theorem EpochLaw.Wards.has (h : law.Wards s.wards) (w : WardId) : law.has w (s.ward w).epoch := h.epoch w
/-- A ward is replaced by one with an allowed epoch. -/
@[simp] theorem EpochLaw.Wards.setWard (h : law.Wards s.wards) {w : WardId} {x : Ward} (hx : law.has w x.epoch) :
    law.Wards (s.setWard w x).wards := by
  refine ⟨Tab.set_wf' _ _ _ _ h.wf, fun u => ?_⟩
  rcases eq_or_ne u w with rfl | hu
  · exact (Tab.get_set_self _ s.wards u.val x h.wf).symm ▸ hx
  · exact (Tab.get_set_ne _ s.wards (val_ne hu) x h.wf).symm ▸ h.epoch u
/-- A ward is changed, with its epoch as it was. -/
@[simp] theorem EpochLaw.Wards.updWard (h : law.Wards s.wards)
    {w : WardId} {f : Ward → Ward} (hf : ∀ x, (f x).epoch = x.epoch) :
    law.Wards (s.updWard w f).wards := h.setWard ((hf _).symm ▸ h.has w)
/-- Every ward is changed, with its epoch as it was. -/
@[simp] theorem EpochLaw.Wards.mapAll {t : Tab Ward} (h : law.Wards t) {d : Ward} (hd : d = {}) {f : Nat → Ward → Ward}
    (h0 : ∀ i, f i {} = {}) (hf : ∀ i x, (f i x).epoch = x.epoch) : law.Wards (t.mapAll d f) := by
  subst hd
  refine ⟨Tab.mapAll_wf' _ _ _ h.wf, fun w => ?_⟩
  rw [Tab.get_mapAll _ f h0 t _ none h.wf, hf]
  exact h.epoch w
@[simp] theorem EpochLaw.wards_ite (c : Prop) [Decidable c] (t u : Tab Ward) :
    law.Wards (if c then t else u) ↔ (c → law.Wards t) ∧ (¬c → law.Wards u) := by split <;> simp [*]
/-- A repetition keeps the epochs allowed where each of its steps does. -/
@[simp] theorem EpochLaw.wards_foldl {β : Type} {f : State → β → State} {l : List β}
    (hf : ∀ s x, law.Wards s.wards → law.Wards (f s x).wards) (h : law.Wards s.wards) : law.Wards (l.foldl f s).wards :=
  foldl_keeps (fun t => law.Wards t.wards) f hf l s h
@[simp] theorem EpochLaw.wards_foldl_snd {α β : Type} {f : α × State → β → α × State} {l : List β}
    (hf : ∀ a x, law.Wards a.2.wards → law.Wards (f a x).2.wards) {a : α × State} (h : law.Wards a.2.wards) :
    law.Wards (l.foldl f a).2.wards :=
  foldl_keeps (fun a => law.Wards a.2.wards) f hf l a h

@[simp] theorem EpochLaw.intents_nil : law.Intents [] := fun _ h => absurd h List.not_mem_nil
@[simp] theorem EpochLaw.intents_append (l m : List Intent) : law.Intents (l ++ m) ↔ law.Intents l ∧ law.Intents m := by
  simp only [EpochLaw.Intents, List.mem_append, or_imp, forall_and]
/-- One intent that brings no ward, or an allowed one. -/
@[simp] theorem EpochLaw.intents_singleton (i : Intent) :
    law.Intents [i] ↔ ∀ w x, i.effect = .create w x → law.brings w x := by
  simp [EpochLaw.Intents]
@[simp] theorem EpochLaw.Intents.filter {l : List Intent} (h : law.Intents l) (p : Intent → Bool) : law.Intents (l.filter p) :=
  fun i hi => h i (List.mem_of_mem_filter hi)
@[simp] theorem EpochLaw.Intents.map {l : List Intent} (h : law.Intents l) {f : Intent → Intent}
    (hf : ∀ i, (f i).effect = i.effect) : law.Intents (l.map f) := by
  intro i hi
  obtain ⟨k, hk, rfl⟩ := List.mem_map.1 hi
  rw [hf k]
  exact h k hk
@[simp] theorem EpochLaw.Intents.listUpd {l : List Intent} (h : law.Intents l) {p : Intent → Bool} {f : Intent → Intent}
    (hf : ∀ i, (f i).effect = i.effect) : law.Intents (listUpd p f l) := by
  induction l with
  | nil => exact h
  | cons i l ih =>
    obtain ⟨hi, hl⟩ := List.forall_mem_cons.1 h
    unfold Machine.listUpd
    split
    · exact List.forall_mem_cons.2 ⟨by rwa [hf i], hl⟩
    · exact List.forall_mem_cons.2 ⟨hi, ih hl⟩
@[simp] theorem EpochLaw.intents_ite (c : Prop) [Decidable c] (l m : LedgerBlk) :
    law.Intents (if c then l else m).intents ↔ (c → law.Intents l.intents) ∧ (¬c → law.Intents m.intents) := by
  split <;> simp [*]
@[simp] theorem EpochLaw.intents_foldl {β : Type} {f : State → β → State} {l : List β}
    (hf : ∀ s x, law.Intents s.ledger.intents → law.Intents (f s x).ledger.intents) (h : law.Intents s.ledger.intents) :
    law.Intents (l.foldl f s).ledger.intents :=
  foldl_keeps (fun t => law.Intents t.ledger.intents) f hf l s h
@[simp] theorem EpochLaw.intents_foldl_snd {α β : Type} {f : α × State → β → α × State} {l : List β}
    (hf : ∀ a x, law.Intents a.2.ledger.intents → law.Intents (f a x).2.ledger.intents) {a : α × State}
    (h : law.Intents a.2.ledger.intents) : law.Intents (l.foldl f a).2.ledger.intents :=
  foldl_keeps (fun a => law.Intents a.2.ledger.intents) f hf l a h
/-- A repetition keeps both where each of its steps keeps both. -/
@[simp] theorem EpochLaw.foldl {β : Type} {f : State → β → State} {l : List β}
    (hf : ∀ s x, law.Wards s.wards → law.Intents s.ledger.intents →
      law.Wards (f s x).wards ∧ law.Intents (f s x).ledger.intents)
    (hw : law.Wards s.wards) (hi : law.Intents s.ledger.intents) :
    law.Wards (l.foldl f s).wards ∧ law.Intents (l.foldl f s).ledger.intents :=
  foldl_keeps (fun t => law.Wards t.wards ∧ law.Intents t.ledger.intents) f (fun s x h => hf s x h.1 h.2) l s ⟨hw, hi⟩
/-- An intent of this life is changed, with what it brings as it was. -/
@[simp] theorem EpochLaw.Intents.updIntent (h : law.Intents s.ledger.intents) {n : DWord} {f : Intent → Intent}
    (hf : ∀ i, (f i).effect = i.effect) : law.Intents (s.updIntent n f).ledger.intents := h.listUpd hf
@[simp] theorem putSlots_intents {n slot : Nat} {d : Bytes} (hi : law.Intents s.ledger.intents) :
    law.Intents (putSlots n slot d s).ledger.intents := by
  induction n generalizing slot d s with
  | zero => exact hi
  | succ n ih => exact ih hi

/-! Operations. -/


@[simp] theorem setRing_epochs {c : Ctx} {r : Ring} (hw : law.Wards s.wards) :
    law.Wards (State.setRing s c r).wards := by
  unfold State.setRing; (repeat' split) <;> simp [*]
@[simp] theorem faultWard_epochs {w : WardId} {cause : BitVec 2} (hw : law.Wards s.wards) :
    law.Wards (faultWard w cause s).wards := by
  unfold faultWard; (repeat' split) <;> simp [*]
@[simp] theorem countMalformed_epochs {c : Ctx} {status : Nat} (hw : law.Wards s.wards) :
    law.Wards (countMalformed c status s).wards := by
  unfold countMalformed; (repeat' split) <;> simp [*]
@[simp] theorem postCompletion_epochs {c : Ctx} {tag status orig detail : Nat} {chained : Bool} (hw : law.Wards s.wards) :
    law.Wards (postCompletion c tag status orig detail chained s).wards := by
  simp [postCompletion, hw]
@[simp] theorem finish_epochs {j : Job} {status orig detail : Nat} (hw : law.Wards s.wards) :
    law.Wards (finish j status orig detail s).wards := by
  simp [finish, hw]
@[simp] theorem recordCommit_epochs {c : Ctx} {n : BitVec 48} {status : Nat} (hw : law.Wards s.wards) :
    law.Wards (recordCommit c n status s).wards := by
  unfold recordCommit; (repeat' split) <;> simp [*]
@[simp] theorem endSession_epochs (hw : law.Wards s.wards) :
    law.Wards (endSession s).wards := by
  simp +contextual [endSession, hw]
@[simp] theorem failWith_epochs {j : Job} {status : Nat} {d : Option Nat} (hw : law.Wards s.wards) :
    law.Wards (failWith j status d s).wards := by
  simp [failWith, hw]
@[simp] theorem admitJob_epochs {j : Job} (hw : law.Wards s.wards) :
    law.Wards (admitJob j s).wards := by
  unfold admitJob; (repeat' split) <;> simp [*]
@[simp] theorem moveRun_intents {old new : Nat} (hi : law.Intents s.ledger.intents) :
    law.Intents (moveRun old new s).ledger.intents := by
  simp [moveRun, hi]
@[simp] theorem refreshCap_intents (hi : law.Intents s.ledger.intents) :
    law.Intents (refreshCap s).ledger.intents := by
  unfold refreshCap; (repeat' split) <;> simp [*]
@[simp] theorem pumpPort_intents (hi : law.Intents s.ledger.intents) :
    law.Intents (pumpPort s).ledger.intents := by
  simp [pumpPort, hi]
@[simp] theorem toPort_intents {l : List (PortItem × Nat)} (hi : law.Intents s.ledger.intents) :
    law.Intents (toPort l s).ledger.intents := by
  simp [toPort, hi]
@[simp] theorem addMark_intents {k : MarkKind} (hi : law.Intents s.ledger.intents) :
    law.Intents (addMark k s).ledger.intents := by
  simp [addMark, hi]
@[simp] theorem dropMarks_intents {f : Mark → Bool} (hi : law.Intents s.ledger.intents) :
    law.Intents (dropMarks f s).ledger.intents := by
  simp [dropMarks, hi]
@[simp] theorem pruneIntents_intents (hi : law.Intents s.ledger.intents) :
    law.Intents (pruneIntents s).ledger.intents := by
  simp [pruneIntents, hi]
@[simp] theorem releaseWhere_intents {f : Intent → DataRec → Bool} {h : Intent → ParRec → Bool}
    (hi : law.Intents s.ledger.intents) : law.Intents (releaseWhere f h s).ledger.intents := by
  unfold releaseWhere
  dsimp only
  split
  · exact hi
  · exact pruneIntents_intents (toPort_intents (hi.map fun _ => rfl))
@[simp] theorem dropGate_intents {c : CellId} (hi : law.Intents s.ledger.intents) :
    law.Intents (dropGate c s).ledger.intents := by
  unfold dropGate; dsimp only; (repeat' split) <;> simp [*]
@[simp] theorem endAndPark_intents {due : DWord} {c : CellId} (hi : law.Intents s.ledger.intents) :
    law.Intents (endAndPark due c s).ledger.intents := by
  simp [endAndPark, hi]
@[simp] theorem lateGate_intents {c : CellId} (hi : law.Intents s.ledger.intents) :
    law.Intents (lateGate s c).ledger.intents := by
  unfold lateGate; (repeat' split) <;> simp [*]
@[simp] theorem lateGates_intents (hi : law.Intents s.ledger.intents) :
    law.Intents (lateGates s).ledger.intents := by
  simp +contextual [lateGates, hi]
@[simp] theorem groupDown_intents {g : GroupId} (hi : law.Intents s.ledger.intents) :
    law.Intents (groupDown g s).ledger.intents := by
  simp [groupDown, hi]
@[simp] theorem requeue_intents {c : CellId} (hi : law.Intents s.ledger.intents) :
    law.Intents (requeue c s).ledger.intents := by
  simp [requeue, hi]
@[simp] theorem failMember_intents {g : GroupId} {m : Nat} (hi : law.Intents s.ledger.intents) :
    law.Intents (failMember g m s).ledger.intents := by
  simp [failMember, hi]
@[simp] theorem cellGone_intents {c : CellId} {g : GroupId} (hi : law.Intents s.ledger.intents) :
    law.Intents (cellGone c s g).ledger.intents := by
  unfold cellGone; dsimp only; (repeat' split) <;> simp [*]
@[simp] theorem cellLost_intents {c : CellId} (hi : law.Intents s.ledger.intents) :
    law.Intents (cellLost c s).ledger.intents := by
  simp +contextual [cellLost, hi]
@[simp] theorem cellFault_intents {c : CellId} {code : BitVec 3} (hi : law.Intents s.ledger.intents) :
    law.Intents (cellFault c code s).ledger.intents := by
  simp [cellFault, hi]
@[simp] theorem pauseWork_intents (hi : law.Intents s.ledger.intents) :
    law.Intents (pauseWork s).ledger.intents := by
  simp [pauseWork, hi]
@[simp] theorem finishWhere_epochs {f : Job → Bool} {status : Nat} (hw : law.Wards s.wards) :
    law.Wards (finishWhere f status s).wards := by
  simp +contextual [finishWhere, hw]
@[simp] theorem safeHold_epochs {cause : BitVec 7} (hw : law.Wards s.wards) (hi : law.Intents s.ledger.intents) :
    law.Wards (safeHold cause s).wards ∧ law.Intents (safeHold cause s).ledger.intents := by
  simp +contextual [safeHold, hw, hi]
@[simp] theorem closeBlock_epochs {w : WardId} {code : Nat} {next : DWord} (hw : law.Wards s.wards) :
    law.Wards (closeBlock w code next s).wards := by
  unfold closeBlock; (repeat' split) <;> simp [*]
@[simp] theorem closeAll_epochs {code : Nat} (hw : law.Wards s.wards) :
    law.Wards (closeAll code s).wards := by
  simp +contextual [closeAll, hw]
@[simp] theorem appendBytes_epochs {n : Nat} {w : WardId} {st : Bool} {q : DWord} {p : Nat} {d : Bytes}
    (hw : law.Wards s.wards) : law.Wards (appendBytes n w st q p d s).wards := by
  induction n generalizing w st q p d s with
  | zero => exact hw
  | succ n ih =>
    unfold appendBytes; dsimp only
    generalize (if st = true then ((s.ward w).openBlk.getD {}).begins q else (s.ward w).openBlk.getD {}) = b
    split
    · exact ih (closeBlock_epochs (hw.updWard fun _ => rfl))
    · split
      · exact closeBlock_epochs (hw.updWard fun _ => rfl)
      · exact hw.updWard fun _ => rfl
@[simp] theorem addGap_epochs {w : WardId} {n : Nat} (hw : law.Wards s.wards) :
    law.Wards (addGap w n s).wards := by
  simp [addGap, hw]
@[simp] theorem decideFrame_epochs {i : Nat} {old : Option TumbEntry} {p : PortId} {r : Rx} {b : Bytes} (hw : law.Wards s.wards) :
    law.Wards (decideFrame i old p r b s).wards := by
  simp [decideFrame, hw]
@[simp] theorem frameEnds_epochs {p : PortId} {r : Rx} {f : Frame} (hw : law.Wards s.wards) :
    law.Wards (frameEnds p r f s).wards := by
  unfold frameEnds; dsimp only; (repeat' split) <;> simp [*]
@[simp] theorem rxEvent_epochs {p : PortId} {e : RxEvent} (hw : law.Wards s.wards) :
    law.Wards (rxEvent p e s).wards := by
  unfold rxEvent; (repeat' split) <;> simp [*]
@[simp] theorem rxMaybe_epochs {p : PortId} {e : Option RxEvent} (hw : law.Wards s.wards) :
    law.Wards (rxMaybe p e s).wards := by
  unfold rxMaybe; (repeat' split) <;> simp [*]
@[simp] theorem ageBlock_epochs {w : WardId} (hw : law.Wards s.wards) :
    law.Wards (ageBlock w s).wards := by
  unfold ageBlock; (repeat' split) <;> simp [*]
@[simp] theorem dropReads_epochs {c : Ctx} (hw : law.Wards s.wards) :
    law.Wards (dropReads c s).wards := by
  simp [dropReads, hw]
@[simp] theorem stopRings_epochs {w : WardId} (hw : law.Wards s.wards) :
    law.Wards (stopRings w s).wards := by
  simp [stopRings, hw]
@[simp] theorem endChain_epochs {c : Ctx} {status : Nat} {ch : Chain} (hw : law.Wards s.wards) :
    law.Wards (endChain c status ch s).wards := by
  simp [endChain, hw]
@[simp] theorem endOpen_epochs {c : Ctx} {status : Nat} (hw : law.Wards s.wards) :
    law.Wards (endOpen c status s).wards := by
  unfold endOpen; (repeat' split) <;> simp [*]
@[simp] theorem checkAppendFull_epochs {w : WardId} (hw : law.Wards s.wards) :
    law.Wards (checkAppendFull w s).wards := by
  simp [checkAppendFull, hw]
@[simp] theorem applyRings_epochs {w : WardId} {j : Job} (hw : law.Wards s.wards) :
    law.Wards (applyRings w j s).wards := by
  simp [applyRings, hw]
@[simp] theorem clearWardRings_epochs {w : WardId} (hw : law.Wards s.wards) : law.Wards (clearWardRings w s).wards :=
  hw.updWard (f := Ward.noRings) fun _ => rfl
@[simp] theorem setRings_epochs {w : WardId} {j : Job} (hw : law.Wards s.wards) :
    law.Wards (setRings w j s).wards := by
  simp [setRings, hw]
@[simp] theorem schedule_epoch (x : Ward) (n : Byte) (k : Nat) : (x.schedule n k).epoch = x.epoch := by
  unfold Ward.schedule
  (repeat' split) <;> rfl
@[simp] theorem setSched_epochs {w : WardId} {j : Job} (hw : law.Wards s.wards) : law.Wards (setSched w j s).wards := by
  simp [setSched, hw]
@[simp] theorem resizeTo_epochs {w : WardId} {b p : Extent} (hw : law.Wards s.wards) :
    law.Wards (resizeTo w b p s).wards := by
  simp [resizeTo, hw]
@[simp] theorem resetEnds_epochs {w : WardId} (hw : law.Wards s.wards) :
    law.Wards (resetEnds w s).wards := by
  simp [resetEnds, hw]
@[simp] theorem destroyEnds_epochs {w : WardId} (hw : law.Wards s.wards) :
    law.Wards (destroyEnds w s).wards := by
  simp [destroyEnds, hw]
@[simp] theorem groupGone_intents {g : GroupId} (hi : law.Intents s.ledger.intents) :
    law.Intents (groupGone g s).ledger.intents := by
  simp [groupGone, hi]
@[simp] theorem groupSetTo_intents {j : Job} (hi : law.Intents s.ledger.intents) :
    law.Intents (groupSetTo j s).ledger.intents := by
  simp [groupSetTo, hi]
@[simp] theorem entryEffect_epochs {i : Intent} (hw : law.Wards s.wards) (hi : law.Intents s.ledger.intents) :
    law.Wards (entryEffect i s).wards ∧ law.Intents (entryEffect i s).ledger.intents := by
  unfold entryEffect; (repeat' split) <;> simp [*]
/-- A COMMIT brings an allowed epoch: only that of a CREATE_WARD brings any (R48, R235). -/
@[simp] theorem applyEffect_epochs {i : Intent} (he : ∀ w x, i.effect = .create w x → law.brings w x) (hw : law.Wards s.wards)
    (hi : law.Intents s.ledger.intents) :
    law.Wards (applyEffect i s).wards ∧ law.Intents (applyEffect i s).ledger.intents := by
  unfold applyEffect
  split
  case h_6 w x hx => exact ⟨checkAppendFull_epochs (hw.setWard (law.link w x (he w x hx))), by simpa using hi⟩
  all_goals (repeat' split) <;> simp [hw, hi]
@[simp] theorem queueCommit_intents {n : DWord} (hi : law.Intents s.ledger.intents) :
    law.Intents (queueCommit n s).ledger.intents := by
  simp [queueCommit, hi]
@[simp] theorem commitHeld_intents {i : Intent} (hi : law.Intents s.ledger.intents) :
    law.Intents (commitHeld s i).ledger.intents := by
  unfold commitHeld; (repeat' split) <;> simp [*]
@[simp] theorem holdCheck_intents (hi : law.Intents s.ledger.intents) :
    law.Intents (holdCheck s).ledger.intents := by
  simp +contextual [holdCheck, hi]
@[simp] theorem recordsDone_intents {n : DWord} (hi : law.Intents s.ledger.intents) :
    law.Intents (recordsDone n s).ledger.intents := by
  simp [recordsDone, hi]
@[simp] theorem loseBlock_epochs {b : SealedBlk} (hw : law.Wards s.wards) (hi : law.Intents s.ledger.intents) :
    law.Wards (loseBlock b s).wards ∧ law.Intents (loseBlock b s).ledger.intents := by
  simp [loseBlock, hw, hi]
/-- A new intent brings no ward, or an allowed one. -/
@[simp] theorem newIntent_intents {i : Intent} (he : ∀ w x, i.effect = .create w x → law.brings w x)
    (hi : law.Intents s.ledger.intents) : law.Intents (newIntent i s).ledger.intents :=
  toPort_intents ((EpochLaw.intents_append ..).2 ⟨hi, (EpochLaw.intents_singleton ..).2 he⟩)
@[simp] theorem takeIntent_intents {x : Waiting} {keys : BitVec 512} (hi : law.Intents s.ledger.intents) :
    law.Intents (takeIntent x keys s).ledger.intents := by
  unfold takeIntent; dsimp only; (repeat' split) <;> simp [*]
/-- A command that journals brings what its effect says. -/
@[simp] theorem journal_epochs {phase : JobPhase} {j : Job} {eff : Effect} (he : ∀ w x, eff = .create w x → law.brings w x)
    {detail : Nat} (hw : law.Wards s.wards) (hi : law.Intents s.ledger.intents) :
    law.Wards (journal phase j eff detail s).wards ∧ law.Intents (journal phase j eff detail s).ledger.intents := by
  unfold journal
  split
  · simp [hw, hi]
  · split
    · simp [hw, hi]
    · exact ⟨by simpa using hw, newIntent_intents he hi⟩
@[simp] theorem takeKeyed_intents {x : Waiting} (hi : law.Intents s.ledger.intents) :
    law.Intents (takeKeyed x s).ledger.intents := by
  unfold takeKeyed; dsimp only; (repeat' split) <;> simp [*]
@[simp] theorem reserve_epochs (hw : law.Wards s.wards) (hi : law.Intents s.ledger.intents) :
    law.Wards (reserve s).wards ∧ law.Intents (reserve s).ledger.intents := by
  unfold reserve; (repeat' split) <;> simp [*]
@[simp] theorem commitContext_epochs {i : Intent} (hw : law.Wards s.wards) :
    law.Wards (commitContext i s).wards := by
  unfold commitContext; (repeat' split) <;> simp [*]
@[simp] theorem commitPayload_intents {i : Intent} (hi : law.Intents s.ledger.intents) :
    law.Intents (commitPayload i s).ledger.intents := by
  simp [commitPayload, hi]
/-- The intent with a serial brings what the live intents may bring. -/
theorem EpochLaw.Intents.intentOf (h : law.Intents s.ledger.intents) {n : DWord} {i : Intent} (hn : s.intentOf n = some i) :
    ∀ w x, i.effect = .create w x → law.brings w x := h i (List.mem_of_find?_eq_some hn)
@[simp] theorem commitDone_epochs {i : Intent} (he : ∀ w x, i.effect = .create w x → law.brings w x) (hw : law.Wards s.wards)
    (hi : law.Intents s.ledger.intents) :
    law.Wards (commitDone i s).wards ∧ law.Intents (commitDone i s).ledger.intents := by
  have h := applyEffect_epochs (law := law) he
    (s := commitPayload i (commitContext i (bump (cDev 7) 1 (s.updIntent i.serial fun x => { x with phase := .committed }))))
    (by simp [hw]) (commitPayload_intents (by simp [hi]))
  unfold commitDone
  dsimp only
  split
  · exact ⟨by simp [h.1], pruneIntents_intents (by simp [h.2])⟩
  · exact ⟨by simp [h.1], pruneIntents_intents h.2⟩
@[simp] theorem resolvedDone_intents {n : DWord} {k : Nat} (hi : law.Intents s.ledger.intents) :
    law.Intents (resolvedDone n k s).ledger.intents := by
  unfold resolvedDone; (repeat' split) <;> simp [*]
@[simp] theorem itemDone_epochs {it : PortItem} (hw : law.Wards s.wards) (hi : law.Intents s.ledger.intents) :
    law.Wards (itemDone it s).wards ∧ law.Intents (itemDone it s).ledger.intents := by
  have hu {n : DWord} {f : Intent → Intent} (hf : ∀ i, (f i).effect = i.effect) := hi.updIntent (n := n) hf
  cases it with
  | commit n =>
    unfold itemDone; dsimp only
    split
    · exact commitDone_epochs (hi.intentOf ‹_›) hw hi
    · exact ⟨hw, hi⟩
  | intent n =>
    unfold itemDone; dsimp only
    (repeat' split) <;> simp [hw, hi]
  | data n k | parity n k =>
    unfold itemDone; dsimp only
    (repeat' split) <;> simp [hw, hi]
  | resolved | recommit | release | mark =>
    unfold itemDone; dsimp only
    (repeat' split) <;> simp [hw, hi]
@[simp] theorem retireSlot_epochs {n : Nat} (hw : law.Wards s.wards) (hi : law.Intents s.ledger.intents) :
    law.Wards (retireSlot n s).wards ∧ law.Intents (retireSlot n s).ledger.intents := by
  simp [retireSlot, hw, hi]
@[simp] theorem writeSlots_epochs {key : BitVec 256} {bad : List Nat} {k n : Nat} (hw : law.Wards s.wards)
    (hi : law.Intents s.ledger.intents) :
    law.Wards (writeSlots key bad k n s).2.wards ∧ law.Intents (writeSlots key bad k n s).2.ledger.intents := by
  induction k generalizing n s with
  | zero => exact ⟨hw, hi⟩
  | succ k ih =>
    have hp (m : Nat) (d : Bytes) : law.Wards (bump (cDev 9) 1 (putSlots 1 m d s)).wards ∧
        law.Intents (bump (cDev 9) 1 (putSlots 1 m d s)).ledger.intents := by simp [hw, hi]
    have hr (m : Nat) (d : Bytes) := retireSlot_epochs (n := m) (hp m d).1 (hp m d).2
    unfold writeSlots; dsimp only
    split
    · exact ⟨hw, hi⟩
    · split
      · exact ⟨hw, hi⟩
      · split
        · exact ih hw hi
        · next slot d _ =>
          split
          · split
            · exact ih (by simpa using (hr _ _).1) (moveRun_intents (by simpa using (hr _ _).2))
            · exact safeHold_epochs (hr _ _).1 (hr _ _).2
          · split
            · exact ih (by simp [hw]) (by simp [hi])
            · exact ih (by simp [hw]) (by simp [hi])
@[simp] theorem tagFails_epochs {slot : Nat} (hw : law.Wards s.wards) (hi : law.Intents s.ledger.intents) :
    law.Wards (tagFails slot s).wards ∧ law.Intents (tagFails slot s).ledger.intents := by
  simp [tagFails, hw, hi]
@[simp] theorem ledgerRound_epochs {bad : List Nat} (hw : law.Wards s.wards) (hi : law.Intents s.ledger.intents) :
    law.Wards (ledgerRound bad s).wards ∧ law.Intents (ledgerRound bad s).ledger.intents := by
  unfold ledgerRound
  split
  · exact ⟨hw, hi⟩
  · split
    · exact ⟨hw, hi⟩
    · have h := writeSlots_epochs (key := ‹Keys›.ledger) (bad := bad) (k := 8) (n := 0) hw hi
      have h := EpochLaw.foldl (law := law) (l := (writeSlots ‹Keys›.ledger bad 8 0 s).1)
        (f := fun s it => itemDone it s) (fun s it hw hi => itemDone_epochs hw hi) h.1 h.2
      exact ⟨by simpa using h.1, refreshCap_intents (pumpPort_intents (holdCheck_intents h.2))⟩
@[simp] theorem drainPort_epochs {a0 : Nat} (hw : law.Wards s.wards) (hi : law.Intents s.ledger.intents) :
    law.Wards (drainPort a0 s).wards ∧ law.Intents (drainPort a0 s).ledger.intents := by
  induction a0 generalizing s <;> simp [drainPort, *]
@[simp] theorem kccUnwrap_epochs {intact : Bool} (hw : law.Wards s.wards) (hi : law.Intents s.ledger.intents) :
    law.Wards (kccUnwrap intact s).wards ∧ law.Intents (kccUnwrap intact s).ledger.intents := by
  unfold kccUnwrap
  split
  · dsimp only
    split
    · exact ⟨hw, hi⟩
    · split
      · split <;> simp [hw, hi]
      · exact EpochLaw.foldl (fun _ _ hw hi => loseBlock_epochs hw hi)
          (EpochLaw.wards_foldl (fun _ _ h => finish_epochs h) (faultWard_epochs hw))
          (by simpa using hi)
  · exact ⟨hw, hi⟩
@[simp] theorem resolveDeferred_intents {n : DWord} {old : Option Sector} (hi : law.Intents s.ledger.intents) :
    law.Intents (resolveDeferred n old s).ledger.intents := by
  unfold resolveDeferred; dsimp only; (repeat' split) <;> simp [*]
@[simp] theorem clearTorn_intents {c : CellId} {a : SubAddr} (hi : law.Intents s.ledger.intents) :
    law.Intents (clearTorn c a s).ledger.intents := by
  simp [clearTorn, hi]
@[simp] theorem writeOn_intents {c : CellId} {a : SubAddr} {x : Sector} (hi : law.Intents s.ledger.intents) :
    law.Intents (writeOn c a x s).ledger.intents := by
  simp [writeOn, hi]
@[simp] theorem mediaWrite_intents {a : SubAddr} {x : Sector} (hi : law.Intents s.ledger.intents) :
    law.Intents (mediaWrite a x s).ledger.intents := by
  simp [mediaWrite, hi]
@[simp] theorem replayCheck_intents (hi : law.Intents s.ledger.intents) :
    law.Intents (replayCheck s).ledger.intents := by
  simp [replayCheck, hi]
@[simp] theorem replayed_intents {i : Intent} {n : DWord} (hi : law.Intents s.ledger.intents) :
    law.Intents (replayed i n s).ledger.intents := by
  simp [replayed, hi]
@[simp] theorem replayData_intents {i : Intent} {d : DataRec} {media : Option Sector} (hi : law.Intents s.ledger.intents) :
    law.Intents (replayData i d media s).ledger.intents := by
  unfold replayData; (repeat' split) <;> simp [*]
@[simp] theorem parApply_intents {i : Intent} {q : ParRec × Nat × ParStep} {rows : List (List (Option Sector))}
    (hi : law.Intents s.ledger.intents) :
    law.Intents (parApply i q rows s).ledger.intents := by
  unfold parApply; (repeat' split) <;> simp [*]
@[simp] theorem updReplay_intents {i : Intent} {f : Intent → Intent} (hf : ∀ x, (f x).effect = x.effect)
    (hi : law.Intents s.ledger.intents) : law.Intents (updReplay i f s).ledger.intents := hi.listUpd hf
@[simp] theorem replayOne_intents {media : List (Option Sector)} {rows : List (List (Option Sector))}
    (hi : law.Intents s.ledger.intents) : law.Intents (replayOne media rows s).ledger.intents := by
  unfold replayOne
  split
  · dsimp only
    split
    · simpa using hi
    · exact replayCheck_intents (EpochLaw.intents_foldl (fun _ _ h => parApply_intents h)
        (EpochLaw.intents_foldl (fun _ _ h => replayData_intents h) (updReplay_intents (fun _ => rfl) hi)))
  · split
    · simpa using hi
    · exact hi
@[simp] theorem cellOff_intents {c : CellId} (hi : law.Intents s.ledger.intents) :
    law.Intents (cellOff c s).ledger.intents := by
  simp [cellOff, hi]
@[simp] theorem cellsOff_intents (hi : law.Intents s.ledger.intents) :
    law.Intents (cellsOff s).ledger.intents := by
  simp +contextual [cellsOff, hi]
@[simp] theorem mediaOff_intents (hi : law.Intents s.ledger.intents) :
    law.Intents (mediaOff s).ledger.intents := by
  simp [mediaOff, hi]
@[simp] theorem parkAndBrake_intents {due : DWord} {c : CellId} (hi : law.Intents s.ledger.intents) :
    law.Intents (parkAndBrake due c s).ledger.intents := by
  simp [parkAndBrake, hi]
@[simp] theorem closePort_intents {c : CellId} (hi : law.Intents s.ledger.intents) :
    law.Intents (closePort c s).ledger.intents := by
  simp [closePort, hi]
@[simp] theorem quiesceMedia_epochs (hw : law.Wards s.wards) (hi : law.Intents s.ledger.intents) :
    law.Wards (quiesceMedia s).wards ∧ law.Intents (quiesceMedia s).ledger.intents := by
  simp +contextual [quiesceMedia, hw, hi]
@[simp] theorem errorState_epochs {cause : Nat} (hw : law.Wards s.wards) (hi : law.Intents s.ledger.intents) :
    law.Wards (errorState cause s).wards ∧ law.Intents (errorState cause s).ledger.intents := by
  simp [errorState, hw, hi]
@[simp] theorem putMark_intents {slot : Nat} {k : MarkKind} (hi : law.Intents s.ledger.intents) :
    law.Intents (putMark slot k s).ledger.intents := by
  unfold putMark; dsimp only; (repeat' split) <;> simp [*]
@[simp] theorem freeNow_intents {l : List Nat} (hi : law.Intents s.ledger.intents) :
    law.Intents (freeNow l s).ledger.intents := by
  simp +contextual [freeNow, hi]
@[simp] theorem freeMarks_intents {f : Mark → Bool} (hi : law.Intents s.ledger.intents) :
    law.Intents (freeMarks f s).ledger.intents := by
  simp [freeMarks, hi]
@[simp] theorem zeroBegin_intents (hi : law.Intents s.ledger.intents) :
    law.Intents (zeroBegin s).ledger.intents := by
  simp +contextual [zeroBegin, hi]
@[simp] theorem zeroComplete_epochs (hw : law.Wards s.wards) : law.Wards (zeroComplete s).wards :=
  (EpochLaw.wards_foldl (fun _ _ h => endOpen_epochs h)
    (endOpen_epochs (finishWhere_epochs (finishWhere_epochs hw)))).mapAll rfl (fun _ => rfl) fun _ _ => rfl
@[simp] theorem zeroWipe_epochs (hw : law.Wards s.wards) :
    law.Wards (zeroWipe s).wards ∧ law.Intents (zeroWipe s).ledger.intents := by
  unfold zeroWipe
  dsimp only
  refine ⟨EpochLaw.Wards.mapAll ?_ rfl (fun _ => rfl) fun _ _ => rfl, EpochLaw.intents_nil⟩
  simpa using hw
@[simp] theorem clearRings_epochs (hw : law.Wards s.wards) : law.Wards (clearRings s).wards := by
  unfold clearRings
  simpa using hw.mapAll (f := fun _ x => { x.noRings with flush := none }) rfl (fun _ => rfl) fun _ _ => rfl
@[simp] theorem waysCheck_epochs (hw : law.Wards s.wards) (hi : law.Intents s.ledger.intents) :
    law.Wards (waysCheck s).wards ∧ law.Intents (waysCheck s).ledger.intents := by
  simp [waysCheck, hw, hi]
@[simp] theorem zeroClose_epochs (hw : law.Wards s.wards) :
    law.Wards (zeroClose s).wards := by
  simp [zeroClose, hw]
@[simp] theorem zeroEnd_epochs {again : Bool} {test : Option (Fin 10)} (hw : law.Wards s.wards)
    (hi : law.Intents s.ledger.intents) :
    law.Wards (zeroEnd again test s).wards ∧ law.Intents (zeroEnd again test s).ledger.intents := by
  unfold zeroEnd
  split
  · have h := errorState_epochs (law := law) (cause := testBit ‹Fin 10›.val + 1)
      (s := { s with sec := { s.sec with selftest := passedBefore ‹Fin 10›.val }, sys := { s.sys with stage := 0x7 } }) hw hi
    exact ⟨zeroClose_epochs h.1, by simpa using h.2⟩
  · have hl (u : State) (h : law.Intents u.ledger.intents) : law.Intents (zeroClose u).ledger.intents := by simpa using h
    exact waysCheck_epochs (zeroClose_epochs (by simpa using hw)) (hl _ (mediaOff_intents hi))
@[simp] theorem abandonIntents_intents {f : Intent → Bool} (hi : law.Intents s.ledger.intents) :
    law.Intents (abandonIntents f s).ledger.intents := by
  simp [abandonIntents, hi]
@[simp] theorem loseQueue_epochs (hw : law.Wards s.wards) (hi : law.Intents s.ledger.intents) :
    law.Wards (loseQueue s).wards ∧ law.Intents (loseQueue s).ledger.intents := by
  simp +contextual [loseQueue, hw, hi]
@[simp] theorem coldStore_epochs (hw : law.Wards s.wards) (hi : law.Intents s.ledger.intents) :
    law.Wards (coldStore s).wards ∧ law.Intents (coldStore s).ledger.intents := by
  have h : law.Wards (pauseWork s).wards := by simpa using hw
  exact ⟨h.mapAll rfl (fun _ => rfl) fun _ _ => rfl, ((pauseWork_intents hi).filter _).map fun _ => rfl⟩
@[simp] theorem sealOpen_intents (hi : law.Intents s.ledger.intents) :
    law.Intents (sealOpen s).ledger.intents := by
  simp +contextual [sealOpen, hi]
@[simp] theorem sealGate_intents {ends : List CellId} {c : CellId} (hi : law.Intents s.ledger.intents) :
    law.Intents (sealGate ends s c).ledger.intents := by
  unfold sealGate; (repeat' split) <;> simp [*]
@[simp] theorem sealTorn_intents {c : CellId} (hi : law.Intents s.ledger.intents) :
    law.Intents (sealTorn s c).ledger.intents := by
  unfold sealTorn; (repeat' split) <;> simp [*]
@[simp] theorem sealZero_intents (hi : law.Intents s.ledger.intents) :
    law.Intents (sealZero s).ledger.intents := by
  simp [sealZero, hi]
@[simp] theorem sealRecords_epochs {stop : BitVec 3} {ends : List CellId} (hw : law.Wards s.wards)
    (hi : law.Intents s.ledger.intents) :
    law.Wards (sealRecords stop ends s).wards ∧ law.Intents (sealRecords stop ends s).ledger.intents := by
  have h := drainPort_epochs (law := law) (a0 := 4096) (s := sealZero (allCells.foldl (sealGate ends) s)) (by simpa using hw)
    (sealZero_intents (EpochLaw.intents_foldl (fun _ _ h => sealGate_intents h) hi))
  unfold sealRecords
  dsimp only
  refine ⟨by simpa using h.1, putMark_intents (EpochLaw.intents_foldl (fun _ _ h => sealTorn_intents h) ?_)⟩
  exact sealOpen_intents h.2
@[simp] theorem powerSeal_epochs {stop : BitVec 3} {src : BitVec 4} {ends : List CellId}
    (hw : law.Wards s.wards) (hi : law.Intents s.ledger.intents) :
    law.Wards (powerSeal stop src ends s).wards ∧ law.Intents (powerSeal stop src ends s).ledger.intents := by
  simp [powerSeal, hw, hi]
@[simp] theorem powerLost_epochs (hw : law.Wards s.wards) (hi : law.Intents s.ledger.intents) :
    law.Wards (powerLost s).wards ∧ law.Intents (powerLost s).ledger.intents := coldStore_epochs hw hi
@[simp] theorem linkStop_epochs (hw : law.Wards s.wards) (hi : law.Intents s.ledger.intents) :
    law.Wards (linkStop s).wards ∧ law.Intents (linkStop s).ledger.intents := by
  have h : law.Wards (abandonIntents (fun i => !i.capture && !i.isReset) s).wards := by simpa using hw
  have h2 := h.mapAll (f := fun _ x => flrWard x) rfl (fun _ => rfl) fun _ _ => rfl
  unfold linkStop
  dsimp only
  have hc (u : State) (hu : law.Wards u.wards) : law.Wards (refreshCap (endSession (clearRings u))).wards := by
    simpa using endSession_epochs (clearRings_epochs hu)
  exact ⟨hc _ h2, refreshCap_intents (by simpa using abandonIntents_intents hi)⟩
@[simp] theorem hostLinkReset_epochs (hw : law.Wards s.wards) (hi : law.Intents s.ledger.intents) :
    law.Wards (hostLinkReset s).wards ∧ law.Intents (hostLinkReset s).ledger.intents := by
  simp [hostLinkReset, hw, hi]
@[simp] theorem standbyBegin_intents (hi : law.Intents s.ledger.intents) :
    law.Intents (standbyBegin s).ledger.intents := by
  simp [standbyBegin, hi]
@[simp] theorem standbyEnd_epochs (hw : law.Wards s.wards) (hi : law.Intents s.ledger.intents) :
    law.Wards (standbyEnd s).wards ∧ law.Intents (standbyEnd s).ledger.intents := by
  simp [standbyEnd, hw, hi]
@[simp] theorem sleepBegin_epochs (hw : law.Wards s.wards) (hi : law.Intents s.ledger.intents) :
    law.Wards (sleepBegin s).wards ∧ law.Intents (sleepBegin s).ledger.intents := by
  unfold sleepBegin; (repeat' split) <;> simp [*]
@[simp] theorem countLoss_epochs {w : WardId} (hw : law.Wards s.wards) :
    law.Wards (countLoss w s).wards := by
  simp [countLoss, hw]
@[simp] theorem enterService_epochs (hw : law.Wards s.wards) (hi : law.Intents s.ledger.intents) :
    law.Wards (enterService s).wards ∧ law.Intents (enterService s).ledger.intents := by
  simp +contextual [enterService, hw, hi]
@[simp] theorem evalMode_epochs (hw : law.Wards s.wards) (hi : law.Intents s.ledger.intents) :
    law.Wards (evalMode s).wards ∧ law.Intents (evalMode s).ledger.intents := by
  unfold evalMode; dsimp only; (repeat' split) <;> simp [*]
@[simp] theorem zeroFinish_epochs {test : Option (Fin 10)} (hw : law.Wards s.wards) :
    law.Wards (zeroFinish test s).wards ∧ law.Intents (zeroFinish test s).ledger.intents := by
  have h := zeroWipe_epochs (zeroComplete_epochs hw)
  have h := zeroEnd_epochs (again := s.sec.error) (test := test) h.1 h.2
  exact evalMode_epochs h.1 h.2
@[simp] theorem zeroizeNow_epochs {whole : Bool} {test : Option (Fin 10)}
    (hw : law.Wards s.wards) (hi : law.Intents s.ledger.intents) :
    law.Wards (zeroizeNow whole test s).wards ∧ law.Intents (zeroizeNow whole test s).ledger.intents := by
  simp [zeroizeNow, hw, hi]
@[simp] theorem zeroInStart_intents {b : Boot} (hi : law.Intents s.ledger.intents) :
    law.Intents (zeroInStart b s).ledger.intents := by
  simp [zeroInStart, hi]
@[simp] theorem addLoss_epochs {w : WardId} {n : Nat} {seq : DWord} (hw : law.Wards s.wards) :
    law.Wards (addLoss w n seq s).wards := by
  simp [addLoss, hw]
@[simp] theorem scanEntry_epochs {e : (WardId × Nat) × Word × DWord} (hw : law.Wards s.wards) :
    law.Wards (scanEntry e s).wards := by
  simp [scanEntry, hw]
@[simp] theorem scanMark_epochs {m : Mark} (hw : law.Wards s.wards) :
    law.Wards (scanMark s m).wards := by
  unfold scanMark; (repeat' split) <;> simp +contextual [*]
@[simp] theorem scanMarks_epochs {f : Mark → Bool} (hw : law.Wards s.wards) (hi : law.Intents s.ledger.intents) :
    law.Wards (scanMarks f s).wards ∧ law.Intents (scanMarks f s).ledger.intents := by
  simp +contextual [scanMarks, hw, hi]
@[simp] theorem scanOpen_epochs {i : Intent} (hw : law.Wards s.wards) (hi : law.Intents s.ledger.intents) :
    law.Wards (scanOpen i s).wards ∧ law.Intents (scanOpen i s).ledger.intents := by
  unfold scanOpen
  split
  · split <;> simp [hw, hi]
  · next heq => exact applyEffect_epochs (by simp [heq]) (recordCommit_epochs (hw.updWard fun _ => rfl)) (by simpa using hi)
  · exact ⟨hw, hi⟩
@[simp] theorem scanResetting_epochs {w : WardId} (hw : law.Wards s.wards) :
    law.Wards (scanResetting w s).wards := by
  simp [scanResetting, hw]
@[simp] theorem scanWard_epoch (x : Ward) : (scanWard x).epoch = x.epoch := by unfold scanWard; split <;> rfl
@[simp] theorem scanLedger_epochs (hw : law.Wards s.wards) (hi : law.Intents s.ledger.intents) :
    law.Wards (scanLedger s).wards ∧ law.Intents (scanLedger s).ledger.intents := by
  have h1 (l : List Intent) {t : State} (h : law.Wards t.wards ∧ law.Intents t.ledger.intents) :=
    EpochLaw.foldl (l := l) (f := fun s i => scanOpen i s) (fun _ _ hw hi => scanOpen_epochs hw hi) h.1 h.2
  have h2 := scanMarks_epochs (f := fun _ => true) (h1 (List.filter (·.capture)
    (s.ledger.intents.filter (fun i => decide (i.phase ≠ .committed)))) ⟨hw, hi⟩).1 (h1 _ ⟨hw, hi⟩).2
  have h3 := h1 (List.filter (fun i => !i.capture) (s.ledger.intents.filter (fun i => decide (i.phase ≠ .committed)))) h2
  unfold scanLedger
  dsimp only
  refine ⟨EpochLaw.Wards.mapAll ?_ rfl (fun _ => rfl) fun _ x => scanWard_epoch x,
    (EpochLaw.Intents.filter ?_ _).map fun _ => rfl⟩
  · simpa using EpochLaw.wards_foldl (fun _ _ h => scanResetting_epochs h) h3.1
  · exact freeMarks_intents (freeNow_intents (by simpa using h3.2))
@[simp] theorem scanPart_epochs {limit : Option (Nat × Nat)} (hw : law.Wards s.wards) (hi : law.Intents s.ledger.intents) :
    law.Wards (scanPart limit s).wards ∧ law.Intents (scanPart limit s).ledger.intents := by
  have h (f : Mark → Bool) := scanMarks_epochs (f := f) hw hi
  unfold scanPart
  dsimp only
  refine ⟨(h _).1.mapAll rfl (fun _ => rfl) fun _ x => scanWard_epoch x, EpochLaw.Intents.map (h _).2 fun i => ?_⟩
  simp only [apply_ite Intent.effect, ite_self]
@[simp] theorem handOff_epochs {stage : BitVec 4} (hw : law.Wards s.wards) (hi : law.Intents s.ledger.intents) :
    law.Wards (handOff stage s).wards ∧ law.Intents (handOff stage s).ledger.intents := by
  simp [handOff, hw, hi]
@[simp] theorem bootLife_intents (hi : law.Intents s.ledger.intents) :
    law.Intents (bootLife s).ledger.intents := by
  unfold bootLife; (repeat' split) <;> simp [*]
@[simp] theorem fuseDone_intents {b : Boot} (hi : law.Intents s.ledger.intents) :
    law.Intents (fuseDone b s).ledger.intents := by
  simp [fuseDone, hi]
@[simp] theorem zeroStage_epochs (hw : law.Wards s.wards) (_hi : law.Intents s.ledger.intents) :
    law.Wards (zeroStage s).wards ∧ law.Intents (zeroStage s).ledger.intents := by
  simp [zeroStage, hw]
@[simp] theorem zeroAfterTests_epochs (hw : law.Wards s.wards) :
    law.Wards (zeroAfterTests s).wards := by
  simp [zeroAfterTests, hw]
@[simp] theorem testsDone_epochs {b : Boot} (hw : law.Wards s.wards) (hi : law.Intents s.ledger.intents) :
    law.Wards (testsDone b s).wards ∧ law.Intents (testsDone b s).ledger.intents := by
  unfold testsDone
  split
  · next t _ =>
    have h := handOff_epochs (law := law) (stage := 7) (s := { s with sec := { s.sec with selftest := failPassed t } }) hw hi
    have h := errorState_epochs (cause := failCause t) h.1 h.2
    dsimp only
    split
    · exact ⟨zeroClose_epochs h.1, by simpa using h.2⟩
    · exact h
  · have h := zeroAfterTests_epochs (law := law) (s := { s with sec := { s.sec with
      selftest := allPassed, drbgReady := true, keys := s.sec.salt.map deriveKeys } }) hw
    dsimp only
    split
    · exact ⟨h, by simpa using hi⟩
    · exact handOff_epochs (by simpa using h) (freeMarks_intents (by simpa using hi))
@[simp] theorem scanDone_epochs {b : Boot} (hw : law.Wards s.wards) (hi : law.Intents s.ledger.intents) :
    law.Wards (scanDone b s).wards ∧ law.Intents (scanDone b s).ledger.intents := by
  unfold scanDone
  dsimp only
  generalize hs : (if (b.scanLate || (scanLimit b s).isSome) = true then scanPart (scanLimit b s) s else scanLedger s) = s1
  have h1 : law.Wards s1.wards ∧ law.Intents s1.ledger.intents := by
    subst hs
    split
    · exact scanPart_epochs hw hi
    · exact scanLedger_epochs hw hi
  generalize hs2 : b.badWards.foldl (fun s w => faultWard w 1 s) s1 = s2
  have h2 : law.Wards s2.wards ∧ law.Intents s2.ledger.intents := by
    subst hs2
    exact ⟨EpochLaw.wards_foldl (fun _ _ h => faultWard_epochs h) h1.1, by simpa using h1.2⟩
  generalize hs3 : (if (scanLimit b s).isSome = true then
    mark 0x10000 8 { s2 with ledger := { s2.ledger with tagFail := true } } else s2) = s3
  have h3 : law.Wards s3.wards ∧ law.Intents s3.ledger.intents := by
    subst hs3
    split
    · exact ⟨by simpa using h2.1, by simpa using h2.2⟩
    · exact h2
  split
  · have h := handOff_epochs (stage := 9) h3.1 h3.2
    exact safeHold_epochs h.1 h.2
  · exact handOff_epochs h3.1 h3.2
@[simp] theorem bootStep_epochs (hw : law.Wards s.wards) (hi : law.Intents s.ledger.intents) :
    law.Wards (bootStep s).wards ∧ law.Intents (bootStep s).ledger.intents := by
  unfold bootStep; (repeat' split) <;> simp [*]
@[simp] theorem idleStep_epochs (hw : law.Wards s.wards) (hi : law.Intents s.ledger.intents) :
    law.Wards (idleStep s).wards ∧ law.Intents (idleStep s).ledger.intents := by
  simp [idleStep, hw, hi]
@[simp] theorem retentionWake_epochs (hw : law.Wards s.wards) (hi : law.Intents s.ledger.intents) :
    law.Wards (retentionWake s).wards ∧ law.Intents (retentionWake s).ledger.intents := by
  simp [retentionWake, hw, hi]
@[simp] theorem wakeNow_epochs {b : Boot} {test : Option (Fin 10)} (hw : law.Wards s.wards) (hi : law.Intents s.ledger.intents) :
    law.Wards (wakeNow b test s).wards ∧ law.Intents (wakeNow b test s).ledger.intents := by
  have h := retentionWake_epochs hw hi
  have h2 := hostLinkReset_epochs h.1 h.2
  unfold wakeNow
  split
  · exact ⟨hw, hi⟩
  · split
    · split <;> simp [hw, hi]
    · dsimp only
      split
      · exact ⟨hw, hi⟩
      · split
        · split
          · exact zeroizeNow_epochs h2.1 h2.2
          · exact zeroizeNow_epochs h.1 h.2
        · split
          · exact h2
          · exact h
    · exact ⟨hw, hi⟩
@[simp] theorem latchSerial_intents (hi : law.Intents s.ledger.intents) :
    law.Intents (latchSerial s).ledger.intents := by
  simp [latchSerial, hi]
@[simp] theorem readReg_intents {a : Nat} (hi : law.Intents s.ledger.intents) :
    law.Intents (readReg a s).2.ledger.intents := by
  simp [readReg, hi]
@[simp] theorem pllLoss_epochs (hw : law.Wards s.wards) (hi : law.Intents s.ledger.intents) :
    law.Wards (pllLoss s).wards ∧ law.Intents (pllLoss s).ledger.intents := by
  simp [pllLoss, hw, hi]
@[simp] theorem restartWrite_epochs {key : BitVec 16} {ends : List CellId}
    (hw : law.Wards s.wards) (hi : law.Intents s.ledger.intents) :
    law.Wards (restartWrite key ends s).wards ∧ law.Intents (restartWrite key ends s).ledger.intents := by
  simp [restartWrite, hw, hi]
@[simp] theorem voteCorrupt_epochs (hw : law.Wards s.wards) (hi : law.Intents s.ledger.intents) :
    law.Wards (voteCorrupt s).wards ∧ law.Intents (voteCorrupt s).ledger.intents := by
  simp [voteCorrupt, hw, hi]
@[simp] theorem closeSlots_intents {gone : BitVec 24} (hi : law.Intents s.ledger.intents) :
    law.Intents (closeSlots gone s).ledger.intents := by
  simp +contextual [closeSlots, hi]
@[simp] theorem voteSet_epochs {v : Word} (hw : law.Wards s.wards) (hi : law.Intents s.ledger.intents) :
    law.Wards (voteSet v s).wards ∧ law.Intents (voteSet v s).ledger.intents := by
  simp [voteSet, hw, hi]
@[simp] theorem voteClr_epochs {v : Word} (hw : law.Wards s.wards) (hi : law.Intents s.ledger.intents) :
    law.Wards (voteClr v s).wards ∧ law.Intents (voteClr v s).ledger.intents := by
  simp [voteClr, hw, hi]
@[simp] theorem sleepVote_epochs (hw : law.Wards s.wards) (hi : law.Intents s.ledger.intents) :
    law.Wards (sleepVote s).wards ∧ law.Intents (sleepVote s).ledger.intents := by
  simp [sleepVote, hw, hi]
@[simp] theorem transitionEnd_epochs {b : Boot} (hw : law.Wards s.wards) (hi : law.Intents s.ledger.intents) :
    law.Wards (transitionEnd b s).wards ∧ law.Intents (transitionEnd b s).ledger.intents := by
  unfold transitionEnd; (repeat' split) <;> simp [*]
@[simp] theorem holdRelease_epochs {key : BitVec 16} (hw : law.Wards s.wards) (hi : law.Intents s.ledger.intents) :
    law.Wards (holdRelease key s).wards ∧ law.Intents (holdRelease key s).ledger.intents := by
  simp [holdRelease, hw, hi]
@[simp] theorem parkTimeout_intents {c : Option CellId} (hi : law.Intents s.ledger.intents) :
    law.Intents (parkTimeout c s).ledger.intents := by
  unfold parkTimeout; dsimp only; (repeat' split) <;> simp [*]
@[simp] theorem evalBell_epochs {c : Ctx} {head : Bool} {v : BitVec 16} (hw : law.Wards s.wards) :
    law.Wards (evalBell c head v s).wards := by
  simp [evalBell, hw]
@[simp] theorem landBell_epochs {w : WardId} {head : Bool} {v : BitVec 16} (hw : law.Wards s.wards) :
    law.Wards (landBell w head v s).wards := by
  simp [landBell, hw]
@[simp] theorem orphanBell_epochs {w : WardId} {d : BellDone} (hw : law.Wards s.wards) :
    law.Wards (orphanBell w d s).wards := by
  unfold orphanBell; dsimp only; (repeat' split) <;> simp [*]
@[simp] theorem orphanBells_epochs {w : WardId} (hw : law.Wards s.wards) : law.Wards (orphanBells w s).wards := by
  unfold orphanBells
  split
  · exact EpochLaw.Wards.updWard (EpochLaw.wards_foldl (fun _ _ h => orphanBell_epochs h) hw) fun _ => rfl
  · exact hw
@[simp] theorem request_epochs {c : Ctx} (hw : law.Wards s.wards) :
    law.Wards (request c s).wards := by
  simp [request, hw]
@[simp] theorem loseRead_epochs {c : Ctx} (hw : law.Wards s.wards) :
    law.Wards (loseRead c s).wards := by
  simp [loseRead, hw]
@[simp] theorem requestAdmin_epochs {n : Nat} (hw : law.Wards s.wards) : law.Wards (requestAdmin n s).wards := by
  induction n generalizing s with
  | zero => exact hw
  | succ n ih =>
    unfold requestAdmin
    split
    · exact ih (request_epochs hw)
    · exact hw
@[simp] theorem adminFetch_epochs (hw : law.Wards s.wards) :
    law.Wards (adminFetch s).wards := by
  simp [adminFetch, hw]
@[simp] theorem newRound_epochs (hw : law.Wards s.wards) : law.Wards (newRound s).wards :=
  hw.mapAll rfl (fun _ => rfl) fun _ x => by split <;> rfl
@[simp] theorem nextTurn_epochs (hw : law.Wards s.wards) :
    law.Wards (nextTurn s).2.wards := by
  unfold nextTurn; dsimp only; (repeat' split) <;> simp [*]
@[simp] theorem adminTurn_epochs (hw : law.Wards s.wards) :
    law.Wards (adminTurn s).wards := by
  simp [adminTurn, hw]
@[simp] theorem goOnTurn_epochs (hw : law.Wards s.wards) :
    law.Wards (goOnTurn s).wards := by
  unfold goOnTurn; (repeat' split) <;> simp [*]
@[simp] theorem beginTurn_epochs {w : WardId} (hw : law.Wards s.wards) :
    law.Wards (beginTurn w s).wards := by
  simp [beginTurn, hw]
@[simp] theorem roundaboutTurn_epochs (hw : law.Wards s.wards) : law.Wards (roundaboutTurn s).wards := by
  have h := nextTurn_epochs (adminFetch_epochs hw)
  unfold roundaboutTurn
  split
  · exact hw
  · dsimp only
    split
    · exact h
    · exact beginTurn_epochs h
@[simp] theorem submit_epochs {c : Ctx} {bad : Option Nat} {es : List Bytes} (hw : law.Wards s.wards) :
    law.Wards (submit c bad es s).wards := by
  unfold submit; dsimp only; (repeat' split) <;> simp [*]
@[simp] theorem flushJob_epochs {w : WardId} {p : Option Nat × List Bytes} (hw : law.Wards s.wards) :
    law.Wards (flushJob w p s).wards := by
  unfold flushJob; dsimp only; (repeat' split) <;> simp [*]
/-- A doorbell that waited for the end of a flush is evaluated. -/
theorem evalBell_epochs_of_waiting {w : WardId} {head : Bool} (o : Option (BitVec 16))
    (h : law.Wards s.wards ∧ law.Intents s.ledger.intents) :
    law.Wards (match o with | some v => evalBell (.ward w) head v s | none => s).wards ∧
    law.Intents (match o with | some v => evalBell (.ward w) head v s | none => s).ledger.intents := by
  cases o <;> simp [h]
@[simp] theorem flushStep_epochs {w : WardId} (hw : law.Wards s.wards) (hi : law.Intents s.ledger.intents) :
    law.Wards (flushStep w s).wards ∧ law.Intents (flushStep w s).ledger.intents := by
  have h1 (u : State) (h : law.Wards u.wards ∧ law.Intents u.ledger.intents) :
      law.Wards (u.updWard w fun x => { x with flush := none }).wards ∧
      law.Intents (u.updWard w fun x => { x with flush := none }).ledger.intents := by simp [h]
  unfold flushStep
  split
  · exact ⟨hw, hi⟩
  · next f _ =>
    dsimp only
    split
    · split <;> simp [hw, hi]
    · have h2 := evalBell_epochs_of_waiting (w := w) (head := true) f.cqBell
        (evalBell_epochs_of_waiting (w := w) (head := false) f.sqBell (h1 (match (s.ward w).ring.chain with
          | some ch => endChain (.ward w) 0x11 ch s | none => s) (by split <;> simp [hw, hi])))
      split
      · exact journal_epochs (by simp) h2.1 h2.2
      · exact h2
@[simp] theorem ringBell_epochs {c : Ctx} {head : Bool} {v : BitVec 16} (hw : law.Wards s.wards)
    (hi : law.Intents s.ledger.intents) :
    law.Wards (ringBell c head v s).wards ∧ law.Intents (ringBell c head v s).ledger.intents := by
  have hl (w : WardId) (k : Bool) := landBell_epochs (w := w) (head := k) (v := v) hw
  unfold ringBell
  split
  · split <;> simp [hw, hi]
  · dsimp only
    split
    · simp [hw, hi]
    · split
      · exact ⟨hl _ _, by simpa using hi⟩
      · split
        · exact flushStep_epochs ((hl _ _).updWard fun _ => rfl) (by simpa using hi)
        · split
          · split
            · exact flushStep_epochs ((hl _ _).updWard fun _ => rfl) (by simpa using hi)
            · exact ⟨hw.updWard fun _ => rfl, by simpa using hi⟩
          · exact ⟨hw.updWard fun _ => rfl, by simpa using hi⟩
@[simp] theorem accept_epochs {c : Ctx} {e : Bytes} (hw : law.Wards s.wards) (hi : law.Intents s.ledger.intents) :
    law.Wards (accept c e s).wards ∧ law.Intents (accept c e s).ledger.intents := by
  unfold accept
  dsimp only
  cases c with
  | admin => exact ⟨EpochLaw.wards_foldl (fun _ _ h => submit_epochs h) (by simp [hw]), by simp [hi]⟩
  | ward w =>
    dsimp only
    split
    · exact flushStep_epochs (EpochLaw.wards_foldl (fun _ _ h => flushJob_epochs h) (by simp [hw])) (by simp [hi])
    · exact ⟨EpochLaw.wards_foldl (fun _ _ h => submit_epochs h) (by simp [hw]), by simp [hi]⟩
@[simp] theorem afterEntry_epochs {w : WardId} (hw : law.Wards s.wards) :
    law.Wards (afterEntry w s).wards := by
  simp [afterEntry, hw]
@[simp] theorem entryArrival_epochs {c : Ctx} {entry : Bytes} (hw : law.Wards s.wards) (hi : law.Intents s.ledger.intents) :
    law.Wards (entryArrival c entry s).wards ∧ law.Intents (entryArrival c entry s).ledger.intents := by
  have ha := accept_epochs (law := law) (c := c) (e := fit 64 entry) (s := takeRead c s) (by simpa using hw) (by simpa using hi)
  unfold entryArrival
  split
  · exact ⟨hw, hi⟩
  · next x _ _ =>
    split
    · exact ⟨hw, hi⟩
    · dsimp only
      generalize hu : (if x.slot = (s.ringOf c).sqHead ∧ (s.ringOf c).sqHead ≠ (s.ringOf c).sqTail then
        if turnOver c (fit 64 entry) s = true then endTurn (accept c (fit 64 entry) (takeRead c s))
        else accept c (fit 64 entry) (takeRead c s) else loseRead c s) = u
      have h : law.Wards (askWaiting u).wards ∧ law.Intents (askWaiting u).ledger.intents := by
        subst hu
        split
        · split <;> simpa using ha
        · simp [hw, hi]
      cases c with
      | admin => exact h
      | ward w =>
        have h := flushStep_epochs (w := w) h.1 h.2
        exact ⟨afterEntry_epochs h.1, by simpa using h.2⟩
@[simp] theorem readLost_epochs {c : Ctx} (hw : law.Wards s.wards) :
    law.Wards (readLost c s).wards := by
  unfold readLost; dsimp only; (repeat' split) <;> simp [*]
@[simp] theorem ringReadFail_epochs {c : Ctx} {why : ReadFail} (hw : law.Wards s.wards) :
    law.Wards (ringReadFail c why s).wards := by
  unfold ringReadFail; (repeat' split) <;> simp [*]
@[simp] theorem ringReadRetry_epochs {c : Ctx} (hw : law.Wards s.wards) :
    law.Wards (ringReadRetry c s).wards := by
  unfold ringReadRetry; dsimp only; (repeat' split) <;> simp [*]
@[simp] theorem dmaAbort_epochs {id : Nat} {why : ReadFail} (hw : law.Wards s.wards) :
    law.Wards (dmaAbort id why s).wards := by
  unfold dmaAbort; dsimp only; (repeat' split) <;> simp [*]
@[simp] theorem dataFetch_epochs {id : Nat} {data : Bytes} (hw : law.Wards s.wards) :
    law.Wards (dataFetch id data s).wards := by
  unfold dataFetch; dsimp only; (repeat' split) <;> simp [*]
@[simp] theorem adminCtrl_epochs {on : Bool} (hw : law.Wards s.wards) :
    law.Wards (adminCtrl on s).wards := by
  simp [adminCtrl, hw]
@[simp] theorem chainTorn_epochs {c : Ctx} (hw : law.Wards s.wards) :
    law.Wards (chainTorn c s).wards := by
  simp [chainTorn, hw]
@[simp] theorem sample_epochs {e : TickEnv} (hw : law.Wards s.wards) (hi : law.Intents s.ledger.intents) :
    law.Wards (sample e s).wards ∧ law.Intents (sample e s).ledger.intents := by
  unfold sample; dsimp only; (repeat' split) <;> simp [*]
@[simp] theorem officerIdle_epochs (hw : law.Wards s.wards) :
    law.Wards (officerIdle s).wards := by
  simp [officerIdle, hw]
@[simp] theorem wardLockout_epochs {w : WardId} (hw : law.Wards s.wards) :
    law.Wards (wardLockout w s).wards := by
  simp [wardLockout, hw]
@[simp] theorem malformedRate_epochs {w : WardId} (hw : law.Wards s.wards) :
    law.Wards (malformedRate w s).wards := by
  simp [malformedRate, hw]
@[simp] theorem noiseFail_epochs {adaptive : Bool} (hw : law.Wards s.wards) (hi : law.Intents s.ledger.intents) :
    law.Wards (noiseFail adaptive s).wards ∧ law.Intents (noiseFail adaptive s).ledger.intents := by
  simp [noiseFail, hw, hi]
@[simp] theorem presentAbsent_intents {c : CellId} (hi : law.Intents s.ledger.intents) :
    law.Intents (presentAbsent c s).ledger.intents :=
  cellLost_intents (by simpa using cellOff_intents (dropGate_intents hi))
@[simp] theorem presentSample_intents {c : CellId} (hi : law.Intents s.ledger.intents) :
    law.Intents (presentSample s c).ledger.intents := by
  unfold presentSample; dsimp only; (repeat' split) <;> simp [*]
@[simp] theorem mediaStall_epochs (hw : law.Wards s.wards) (hi : law.Intents s.ledger.intents) :
    law.Wards (mediaStall s).wards ∧ law.Intents (mediaStall s).ledger.intents := by
  simp [mediaStall, hw, hi]
@[simp] theorem stallTick_epochs (hw : law.Wards s.wards) (hi : law.Intents s.ledger.intents) :
    law.Wards (stallTick s).wards ∧ law.Intents (stallTick s).ledger.intents := by
  simp [stallTick, hw, hi]
@[simp] theorem closeWindows_epochs (hw : law.Wards s.wards) :
    law.Wards (closeWindows s).wards := by
  simp [closeWindows, hw]
@[simp] theorem countTick_epochs (hw : law.Wards s.wards) :
    law.Wards (countTick s).wards := by
  simp +contextual [countTick, hw]
@[simp] theorem tickLimits_epochs (hw : law.Wards s.wards) (hi : law.Intents s.ledger.intents) :
    law.Wards (tickLimits s).wards ∧ law.Intents (tickLimits s).ledger.intents := by
  have h : law.Wards (chainTorn .admin (lockoutEnd (officerIdle s))).wards :=
    chainTorn_epochs (by simpa using officerIdle_epochs hw)
  have h := EpochLaw.wards_foldl (l := (chainTorn .admin (lockoutEnd (officerIdle s))).usedWards)
    (f := fun s w => ageBlock w (chainTorn (.ward w) s)) (fun _ _ h => ageBlock_epochs (chainTorn_epochs h)) h
  have hl := EpochLaw.intents_foldl (law := law) (l := allCells) (f := fun s c => idlePark (presentSample s c) c)
    (s := (chainTorn .admin (lockoutEnd (officerIdle s))).usedWards.foldl (fun s w => ageBlock w (chainTorn (.ward w) s))
      (chainTorn .admin (lockoutEnd (officerIdle s))))
    (fun s c h => by simpa using presentSample_intents (c := c) h) (by simpa using hi)
  exact stallTick_epochs (by simpa using h) (by simpa using hl)
@[simp] theorem boundary_epochs {n : Nat} {b : DWord} {e : TickEnv} (hw : law.Wards s.wards) (hi : law.Intents s.ledger.intents) :
    law.Wards (boundary n b e s).wards ∧ law.Intents (boundary n b e s).ledger.intents := by
  unfold boundary
  dsimp only
  generalize hs0 : closeWindows { s with clk := { s.clk with tickDone := n } } = s0
  have h0 : law.Wards s0.wards ∧ law.Intents s0.ledger.intents := by
    subst hs0
    exact ⟨closeWindows_epochs hw, by simpa using hi⟩
  generalize hs1 : sample e (if s.handedOff = true then snapshot (n - 1) b s0 else s0) = s1
  have h1 : law.Wards s1.wards ∧ law.Intents s1.ledger.intents := by
    subst hs1
    split
    · exact sample_epochs (by simpa using h0.1) (by simpa using h0.2)
    · exact sample_epochs h0.1 h0.2
  generalize hs2 : (if s.handedOff = true then dezia (n - 1) (raiseTick s1) else raiseTick s1) = s2
  have h2 : law.Wards s2.wards ∧ law.Intents s2.ledger.intents := by
    subst hs2
    split <;> simpa using h1
  have h3 := tickLimits_epochs (countTick_epochs h2.1) (by simpa using h2.2)
  split
  · exact voteCorrupt_epochs h3.1 h3.2
  · exact h3
@[simp] theorem reachTick_intents {e : TickEnv} (hi : law.Intents s.ledger.intents) :
    law.Intents (reachTick e s).ledger.intents := by
  simp [reachTick, hi]
@[simp] theorem takeTick_epochs {e : TickEnv} (hw : law.Wards s.wards) (hi : law.Intents s.ledger.intents) :
    law.Wards (takeTick e s).wards ∧ law.Intents (takeTick e s).ledger.intents := by
  unfold takeTick; (repeat' split) <;> simp [*]
@[simp] theorem tick_epochs {e : TickEnv} (hw : law.Wards s.wards) (hi : law.Intents s.ledger.intents) :
    law.Wards (tick e s).wards ∧ law.Intents (tick e s).ledger.intents := by
  simp [tick, hw, hi]
@[simp] theorem flrBegin_epochs (hw : law.Wards s.wards) (hi : law.Intents s.ledger.intents) :
    law.Wards (flrBegin s).wards ∧ law.Intents (flrBegin s).ledger.intents := by
  simp [flrBegin, hw, hi]
@[simp] theorem cfgSet_epochs {r : CfgReg} {v : Word} (hw : law.Wards s.wards) (hi : law.Intents s.ledger.intents) :
    law.Wards (cfgSet r v s).wards ∧ law.Intents (cfgSet r v s).ledger.intents := by
  unfold cfgSet; (repeat' split) <;> simp [*]
@[simp] theorem endRead_epochs {j : Job} (hw : law.Wards s.wards) :
    law.Wards (endRead j s).wards := by
  unfold endRead; (repeat' split) <;> simp [*]
@[simp] theorem settleRead_epochs {j : Job} (hw : law.Wards s.wards) :
    law.Wards (settleRead j s).wards := by
  simp [settleRead, hw]
@[simp] theorem answerReads_epochs {a : SubAddr} {f : WardId → Nat → Nat → BitVec 512 → BlkRes} (hw : law.Wards s.wards) :
    law.Wards (answerReads a f s).wards := by
  refine EpochLaw.wards_foldl (fun s j h => ?_) hw
  split
  · exact h
  · dsimp only
    split
    · exact h
    · exact settleRead_epochs h
@[simp] theorem serveReads_epochs {a : SubAddr} {x : Sector} {how : Nat} (hw : law.Wards s.wards) :
    law.Wards (serveReads a x how s).wards := by
  simp [serveReads, hw]
@[simp] theorem supply_epochs {a : SubAddr} {x : Sector} {how : Nat} (hw : law.Wards s.wards) :
    law.Wards (supply a x how s).wards := by
  unfold supply; (repeat' split) <;> simp [*]
@[simp] theorem deliver_epochs {why : ReadFor} {cls : Nat} {around : Bool} {a : SubAddr} {x : Sector} {how : Nat}
    (hw : law.Wards s.wards) :
    law.Wards (deliver why cls around a x how s).wards := by
  unfold deliver; dsimp only; (repeat' split) <;> simp [*]
@[simp] theorem recovered_epochs {r : Recovery} {x : Sector} {how : Nat} (hw : law.Wards s.wards) :
    law.Wards (recovered r x how s).wards := by
  simp [recovered, hw]
@[simp] theorem recoveryFailed_epochs {r : Recovery} (hw : law.Wards s.wards) :
    law.Wards (recoveryFailed r s).wards := by
  simp [recoveryFailed, hw]
@[simp] theorem pathFails_epochs {r : Recovery} (hw : law.Wards s.wards) :
    law.Wards (pathFails r s).wards := by
  simp [pathFails, hw]
@[simp] theorem checkRecovery_epochs {k : Nat} (hw : law.Wards s.wards) :
    law.Wards (checkRecovery k s).wards := by
  unfold checkRecovery; dsimp only; (repeat' split) <;> simp [*]
@[simp] theorem startRecovery_epochs {a : SubAddr} {why : ReadFor} {cls : Nat} {around retry : Bool} {obs : Option Sector}
    (hw : law.Wards s.wards) :
    law.Wards (startRecovery a why cls around retry obs s).wards := by
  simp [startRecovery, hw]
@[simp] theorem startFill_epochs {cls : Nat} {around : Bool} {a : SubAddr} (hw : law.Wards s.wards) :
    law.Wards (startFill cls around a s).wards := by
  simp [startFill, hw]
@[simp] theorem askFill_epochs {cls : Nat} {a : SubAddr} {pol : Nat} {counted : Bool} (hw : law.Wards s.wards) :
    law.Wards (askFill cls a pol counted s).2.wards := by
  unfold askFill; dsimp only; (repeat' split) <;> simp [*]
@[simp] theorem askBlock_epochs {id i pol : Nat} {counted : Bool} {a : SubAddr} (hw : law.Wards s.wards) :
    law.Wards (askBlock id i pol counted a s).wards := by
  unfold askBlock; dsimp only; (repeat' split) <;> simp [*]
@[simp] theorem askAgain_epochs {id i pol : Nat} {counted : Bool} {a : SubAddr} (hw : law.Wards s.wards) :
    law.Wards (askAgain id i pol counted a s).wards := by
  unfold askAgain; (repeat' split) <;> simp [*]
@[simp] theorem pumpBlk_epochs {j : Job} {p : BlkRes × Nat} (hw : law.Wards s.wards) :
    law.Wards (pumpBlk j s p).wards := by
  unfold pumpBlk; (repeat' split) <;> simp [*]
@[simp] theorem pumpReads_epochs (hw : law.Wards s.wards) : law.Wards (pumpReads s).wards :=
  EpochLaw.wards_foldl (fun _ _ h => EpochLaw.wards_foldl (fun _ _ h => pumpBlk_epochs h) h) hw
@[simp] theorem moveOn_epochs (hw : law.Wards s.wards) (hi : law.Intents s.ledger.intents) :
    law.Wards (moveOn s).wards ∧ law.Intents (moveOn s).ledger.intents := by
  unfold moveOn
  dsimp only
  generalize hs1 : pumpReads (retryWaits s) = s1
  have h1 : law.Wards s1.wards ∧ law.Intents s1.ledger.intents := by
    subst hs1
    exact ⟨pumpReads_epochs (by simpa using hw), by simpa using hi⟩
  have h2 : law.Wards (s1.recoveries.foldl (fun s r => checkRecovery r.key s) s1).wards :=
    EpochLaw.wards_foldl (fun _ _ h => checkRecovery_epochs h) h1.1
  exact ⟨by simpa using h2, replayCheck_intents (refreshCap_intents (by simpa using h1.2))⟩
@[simp] theorem pathRead_epochs {p : Nat} {a : SubAddr} {x : Option Sector} (hw : law.Wards s.wards) :
    law.Wards (pathRead p a x s).wards := by
  have h : law.Wards (settleBusy a (match x with | some y => fillLine 3 false a y (supply a y 0 s) | none => s)).wards := by
    cases x with
    | none => simpa using hw
    | some y => simpa using supply_epochs hw
  unfold pathRead
  dsimp only
  split
  · exact h
  · exact checkRecovery_epochs h
@[simp] theorem readMoved_epochs {r : MediaRead} (hw : law.Wards s.wards) :
    law.Wards (readMoved r s).wards := by
  unfold readMoved; (repeat' split) <;> simp [*]
@[simp] theorem sectorRead_epochs {k : Nat} {o : SectorObs} (hw : law.Wards s.wards) :
    law.Wards (sectorRead k o s).wards := by
  unfold sectorRead; dsimp only; (repeat' split) <;> simp [*]
@[simp] theorem cacheFill_epochs {a : SubAddr} (hw : law.Wards s.wards) (hi : law.Intents s.ledger.intents) :
    law.Wards (cacheFill a s).wards ∧ law.Intents (cacheFill a s).ledger.intents := by
  unfold cacheFill; (repeat' split) <;> simp [*]
@[simp] theorem retryPass_epochs {k : Nat} {o : SectorObs} (hw : law.Wards s.wards) :
    law.Wards (retryPass k o s).wards := by
  unfold retryPass; dsimp only; (repeat' split) <;> simp [*]
@[simp] theorem malformed_epochs {j : Job} {off : Nat} (hw : law.Wards s.wards) : law.Wards (malformed j off s).wards :=
  finish_epochs hw
/-- A job that begins keeps both where its work does. -/
@[simp] theorem runJob_epochs {id op : Nat} {admin : Bool} {f : Job → State → State}
    (hf : ∀ j s, law.Wards s.wards → law.Intents s.ledger.intents →
      law.Wards (f j s).wards ∧ law.Intents (f j s).ledger.intents)
    (hw : law.Wards s.wards) (hi : law.Intents s.ledger.intents) :
    law.Wards (runJob id op admin f s).wards ∧ law.Intents (runJob id op admin f s).ledger.intents := by
  unfold runJob
  split
  · next j _ =>
    have h := hf j s hw hi
    (repeat' split) <;> simp [hw, hi, h]
  · exact ⟨hw, hi⟩
@[simp] theorem runAdmin_epochs {id op : Nat} {f : Job → State → State}
    (hf : ∀ j s, law.Wards s.wards → law.Intents s.ledger.intents →
      law.Wards (f j s).wards ∧ law.Intents (f j s).ledger.intents)
    (hw : law.Wards s.wards) (hi : law.Intents s.ledger.intents) :
    law.Wards (runAdmin id op f s).wards ∧ law.Intents (runAdmin id op f s).ledger.intents := by
  refine runJob_epochs (fun j s hw hi => ?_) hw hi
  split
  · simp [hw, hi]
  · split
    · simp [hw, hi]
    · split
      · simp [hw, hi]
      · exact hf j s hw hi
/-- A command on a ward with a key keeps both where its work does. -/
@[simp] theorem withKey_epochs {f : WardId → Job → State → State} {j : Job}
    (hf : ∀ w j s, law.Wards s.wards → law.Intents s.ledger.intents →
      law.Wards (f w j s).wards ∧ law.Intents (f w j s).ledger.intents)
    (hw : law.Wards s.wards) (hi : law.Intents s.ledger.intents) :
    law.Wards (withKey f j s).wards ∧ law.Intents (withKey f j s).ledger.intents := by
  unfold withKey
  split
  · simp [hw, hi]
  · simp [hw, hi]
  · simp [holdReset, hw, hi]
  · exact hf _ j s hw hi
@[simp] theorem runWard_epochs {id op : Nat} {f : WardId → Job → State → State}
    (hf : ∀ w j s, law.Wards s.wards → law.Intents s.ledger.intents →
      law.Wards (f w j s).wards ∧ law.Intents (f w j s).ledger.intents)
    (hw : law.Wards s.wards) (hi : law.Intents s.ledger.intents) :
    law.Wards (runWard id op f s).wards ∧ law.Intents (runWard id op f s).ledger.intents := by
  refine runJob_epochs (fun j s hw hi => ?_) hw hi
  split
  · simp [hw, hi]
  · split
    · simp [hw, hi]
    · exact hf _ j s hw hi
@[simp] theorem groupSet_epochs {job kind : Nat} {f : Job → State → State}
    (hf : ∀ j s, law.Wards s.wards → law.Intents s.ledger.intents →
      law.Wards (f j s).wards ∧ law.Intents (f j s).ledger.intents)
    (hw : law.Wards s.wards) (hi : law.Intents s.ledger.intents) :
    law.Wards (groupSet job kind f s).wards ∧ law.Intents (groupSet job kind f s).ledger.intents := by
  unfold groupSet
  (repeat' split)
  · exact runAdmin_epochs hf hw hi
  all_goals exact ⟨hw, hi⟩
@[simp] theorem workCtrl_epochs {job op kind : Nat} {f : Job → State → State}
    (hf : ∀ j s, law.Wards s.wards → law.Intents s.ledger.intents →
      law.Wards (f j s).wards ∧ law.Intents (f j s).ledger.intents)
    (hw : law.Wards s.wards) (hi : law.Intents s.ledger.intents) :
    law.Wards (workCtrl job op kind f s).wards ∧ law.Intents (workCtrl job op kind f s).ledger.intents := by
  unfold workCtrl
  (repeat' split)
  · refine runAdmin_epochs (fun j s hw hi => ?_) hw hi
    split
    · exact hf j s hw hi
    · simp [hw, hi]
  all_goals exact ⟨hw, hi⟩
@[simp] theorem malformedOpen_epochs {j : Job} (hw : law.Wards s.wards) :
    law.Wards (malformedOpen j s).wards := by
  simp [malformedOpen, hw]
@[simp] theorem officerAuth_epochs {j : Job} (hw : law.Wards s.wards) :
    law.Wards (officerAuth j s).wards := by
  unfold officerAuth; dsimp only; (repeat' split) <;> simp [*]
@[simp] theorem setOfficerCredential_epochs {whole : Bool} {j : Job}
    (hw : law.Wards s.wards) (hi : law.Intents s.ledger.intents) :
    law.Wards (setOfficerCredential whole j s).wards ∧ law.Intents (setOfficerCredential whole j s).ledger.intents := by
  have hs : law.Wards (if s.sec.staging.isSome then s else stage j.cred s).wards ∧
      (if s.sec.staging.isSome then s else stage j.cred s).ledger = s.ledger := by split <;> simp [hw]
  unfold setOfficerCredential
  split
  · simp [hw, hi]
  · split
    · simp [hw, hi]
    · dsimp only
      split
      · exact evalMode_epochs (finish_epochs (recordCommit_epochs (by simpa using hs.1))) (by simpa [hs.2] using hi)
      · exact ⟨hs.1, hs.2 ▸ hi⟩
@[simp] theorem setTelemetryKey_epochs {j : Job} (hw : law.Wards s.wards) (hi : law.Intents s.ledger.intents) :
    law.Wards (setTelemetryKey j s).wards ∧ law.Intents (setTelemetryKey j s).ledger.intents := by
  unfold setTelemetryKey; (repeat' split) <;> simp [*]
@[simp] theorem runSelfTest_epochs {fail : Option TestFail} {j : Job}
    (hw : law.Wards s.wards) (hi : law.Intents s.ledger.intents) :
    law.Wards (runSelfTest fail j s).wards ∧ law.Intents (runSelfTest fail j s).ledger.intents := by
  unfold runSelfTest; (repeat' split) <;> simp [*]
/-- CREATE_WARD journals the ward of its next epoch (R48). -/
theorem makeWard_epochs {j : Job} {b p : Extent} (hn : ∀ x : Ward, x.state = .sealed → x.epoch = (s.ward j.named).epoch + 1 →
      law.brings j.named x) (hw : law.Wards s.wards) (hi : law.Intents s.ledger.intents) :
    law.Wards (makeWard j b p s).wards ∧ law.Intents (makeWard j b p s).ledger.intents := by
  unfold makeWard
  dsimp only
  split
  · exact ⟨hw, hi⟩
  · refine journal_epochs (fun w x h => ?_) hw hi
    obtain ⟨rfl, rfl⟩ := Effect.create.inj h
    exact hn _ rfl rfl
theorem createCmd_epochs {j : Job} (hn : ∀ x : Ward, x.state = .sealed → x.epoch = (s.ward j.named).epoch + 1 →
      law.brings j.named x) (hw : law.Wards s.wards) (hi : law.Intents s.ledger.intents) :
    law.Wards (createCmd j s).wards ∧ law.Intents (createCmd j s).ledger.intents := by
  unfold createCmd
  dsimp only
  split
  · simp [hw, hi]
  · simp [hw, hi]
  · simp [hw, hi]
  · simp [holdReset, hw, hi]
  · split
    · simp [hw, hi]
    · split
      · simp [hw, hi]
      · split
        · simp [hw, hi]
        · split
          · simp [hw, hi]
          · exact makeWard_epochs hn hw hi
@[simp] theorem abortWard_epochs {w : WardId} (hw : law.Wards s.wards) (hi : law.Intents s.ledger.intents) :
    law.Wards (abortWard w s).2.wards ∧ law.Intents (abortWard w s).2.ledger.intents := by
  simp [abortWard, hw, hi]
@[simp] theorem resetBegin_epochs {w : WardId} (hw : law.Wards s.wards) (hi : law.Intents s.ledger.intents) :
    law.Wards (resetBegin w s).wards ∧ law.Intents (resetBegin w s).ledger.intents := by
  unfold resetBegin
  dsimp only
  generalize hs1 : stopRings w ((orphanBells w s).updWard w fun x => { x with state := .resetting, flush := none }) = s1
  have h1 : law.Wards s1.wards ∧ law.Intents s1.ledger.intents := by
    subst hs1
    exact ⟨stopRings_epochs (EpochLaw.Wards.updWard (orphanBells_epochs hw) fun _ => rfl), by simpa using hi⟩
  generalize hs2 : (abortWard w (endOpen (.ward w) 0x10 s1)).2 = s2
  have h2 : law.Wards s2.wards ∧ law.Intents s2.ledger.intents := by
    subst hs2
    exact abortWard_epochs (endOpen_epochs h1.1) (by simpa using h1.2)
  generalize hs3 : finishWhere (flushJobs w) 0x10 s2 = s3
  have h3 : law.Wards s3.wards ∧ law.Intents s3.ledger.intents := by
    subst hs3
    exact ⟨finishWhere_epochs h2.1, by simpa using h2.2⟩
  refine ⟨?_, by simpa using h3.2⟩
  have hd (u : State) : (dropKey w u).wards = u.wards := by simp
  rw [hd]
  exact EpochLaw.Wards.updWard (closeBlock_epochs h3.1) fun _ => rfl
@[simp] theorem resetCmd_epochs {destroy : Bool} {j : Job} (hw : law.Wards s.wards) (hi : law.Intents s.ledger.intents) :
    law.Wards (resetCmd destroy j s).wards ∧ law.Intents (resetCmd destroy j s).ledger.intents := by
  unfold resetCmd; dsimp only; (repeat' split) <;> simp [*]
@[simp] theorem resetRow_epochs {job op : Nat} {destroy : Bool} (hw : law.Wards s.wards) (hi : law.Intents s.ledger.intents) :
    law.Wards (resetRow job op destroy s).wards ∧ law.Intents (resetRow job op destroy s).ledger.intents := by
  unfold resetRow; (repeat' split) <;> simp [*]
@[simp] theorem resizeWard_epochs {w : WardId} {j : Job} (hw : law.Wards s.wards) (hi : law.Intents s.ledger.intents) :
    law.Wards (resizeWard w j s).wards ∧ law.Intents (resizeWard w j s).ledger.intents := by
  unfold resizeWard; dsimp only; (repeat' split) <;> simp [*]
@[simp] theorem setWardRings_epochs {w : WardId} {j : Job} (hw : law.Wards s.wards) (hi : law.Intents s.ledger.intents) :
    law.Wards (setWardRings w j s).wards ∧ law.Intents (setWardRings w j s).ledger.intents := by
  simp [setWardRings, hw, hi]
@[simp] theorem setWardSched_epochs {w : WardId} {j : Job} (hw : law.Wards s.wards) (hi : law.Intents s.ledger.intents) :
    law.Wards (setWardSched w j s).wards ∧ law.Intents (setWardSched w j s).ledger.intents := by
  simp [setWardSched, hw, hi]
@[simp] theorem flushBegin_epochs {j : Job} (hw : law.Wards s.wards) (hi : law.Intents s.ledger.intents) :
    law.Wards (flushBegin j s).wards ∧ law.Intents (flushBegin j s).ledger.intents := by
  have h (u : State) (hu : u.wards = s.wards) (hl : u.ledger = s.ledger) :=
    abortWard_epochs (law := law) (w := j.named) (s := u) (hu ▸ hw) (hl ▸ hi)
  unfold flushBegin
  dsimp only
  split
  · simp [holdReset, hw, hi]
  · split
    · simp [hw, hi]
    · split
      · exact flushStep_epochs ((h _ (by simp) (by simp)).1.updWard fun _ => rfl) (by simpa using (h _ (by simp) (by simp)).2)
      · exact flushStep_epochs ((h _ (by simp) (by simp)).1.updWard fun _ => rfl) (by simpa using (h _ (by simp) (by simp)).2)
@[simp] theorem heldEval_epochs {id : Nat} (hw : law.Wards s.wards) (hi : law.Intents s.ledger.intents) :
    law.Wards (heldEval id s).wards ∧ law.Intents (heldEval id s).ledger.intents := by
  unfold heldEval; (repeat' split) <;> simp [*]
@[simp] theorem tumblerWrite_epochs {j : Job} (hw : law.Wards s.wards) (hi : law.Intents s.ledger.intents) :
    law.Wards (tumblerWrite j s).wards ∧ law.Intents (tumblerWrite j s).ledger.intents := by
  simp [tumblerWrite, hw, hi]
@[simp] theorem groupCreate_epochs {j : Job} (hw : law.Wards s.wards) (hi : law.Intents s.ledger.intents) :
    law.Wards (groupCreate j s).wards ∧ law.Intents (groupCreate j s).ledger.intents := by
  simp [groupCreate, hw, hi]
@[simp] theorem groupSpare_epochs {j : Job} (hw : law.Wards s.wards) (hi : law.Intents s.ledger.intents) :
    law.Wards (groupSpare j s).wards ∧ law.Intents (groupSpare j s).ledger.intents := by
  simp [groupSpare, hw, hi]
@[simp] theorem groupDelete_epochs {j : Job} (hw : law.Wards s.wards) (hi : law.Intents s.ledger.intents) :
    law.Wards (groupDelete j s).wards ∧ law.Intents (groupDelete j s).ledger.intents := by
  simp [groupDelete, hw, hi]
@[simp] theorem rebuildStart_epochs {j : Job} (hw : law.Wards s.wards) (hi : law.Intents s.ledger.intents) :
    law.Wards (rebuildStart j s).wards ∧ law.Intents (rebuildStart j s).ledger.intents := by
  unfold rebuildStart; dsimp only; (repeat' split) <;> simp [*]
@[simp] theorem workJournal_epochs {j : Job} (hw : law.Wards s.wards) (hi : law.Intents s.ledger.intents) :
    law.Wards (workJournal j s).wards ∧ law.Intents (workJournal j s).ledger.intents := by
  simp [workJournal, hw, hi]
@[simp] theorem wayRestore_epochs {j : Job} (hw : law.Wards s.wards) (hi : law.Intents s.ledger.intents) :
    law.Wards (wayRestore j s).wards ∧ law.Intents (wayRestore j s).ledger.intents := by
  simp [wayRestore, hw, hi]
@[simp] theorem eventLogSet_epochs {job on : Nat} (hw : law.Wards s.wards) (hi : law.Intents s.ledger.intents) :
    law.Wards (eventLogSet job on s).wards ∧ law.Intents (eventLogSet job on s).ledger.intents := by
  unfold eventLogSet
  split
  · split
    · exact runAdmin_epochs (fun _ _ hw hi => journal_epochs (by simp) hw hi) hw hi
    · exact ⟨hw, hi⟩
  · exact ⟨hw, hi⟩
@[simp] theorem askFirst_epochs {w : WardId} {space b id i : Nat} (hw : law.Wards s.wards) :
    law.Wards (askFirst w space b id i s).wards := by
  unfold askFirst; (repeat' split) <;> simp [*]
@[simp] theorem beginRead_epochs {w : WardId} {keys : BitVec 512} {j : Job} (hw : law.Wards s.wards) :
    law.Wards (beginRead w keys j s).wards := by
  unfold beginRead
  dsimp only
  have h (u : State) (l : List (BlkRes × Nat)) (hu : u.wards = s.wards) := EpochLaw.wards_foldl (law := law) (l := l) (s := u)
    (f := fun s p => askFirst w j.range.1 (j.range.2.1 + p.2) j.id p.2 s) (fun _ _ h => askFirst_epochs h) (hu ▸ hw)
  split
  · exact settleRead_epochs (h _ _ (by simp))
  · exact h _ _ (by simp)
@[simp] theorem readCmd_epochs {tagFail : Option Nat} {w : WardId} {j : Job}
    (hw : law.Wards s.wards) (hi : law.Intents s.ledger.intents) :
    law.Wards (readCmd tagFail w j s).wards ∧ law.Intents (readCmd tagFail w j s).ledger.intents := by
  unfold readCmd; (repeat' split) <;> simp [*]
@[simp] theorem writeCmd_epochs {w : WardId} {j : Job} (hw : law.Wards s.wards) (hi : law.Intents s.ledger.intents) :
    law.Wards (writeCmd w j s).wards ∧ law.Intents (writeCmd w j s).ledger.intents := by
  unfold writeCmd; (repeat' split) <;> simp [*]
@[simp] theorem trimCmd_epochs {w : WardId} {j : Job} (hw : law.Wards s.wards) (hi : law.Intents s.ledger.intents) :
    law.Wards (trimCmd w j s).wards ∧ law.Intents (trimCmd w j s).ledger.intents := by
  unfold trimCmd; (repeat' split) <;> simp [*]
@[simp] theorem slotBad_epochs {w : WardId} {j : Job} (hw : law.Wards s.wards) :
    law.Wards (slotBad w j s).wards := by
  simp [slotBad, hw]
@[simp] theorem openCmd_epochs {intact : Bool} {w : WardId} {j : Job} (hw : law.Wards s.wards) :
    law.Wards (openCmd intact w j s).wards := by
  have h (x : Ward) (hx : x.epoch = (s.ward w).epoch) := hw.setWard (w := w) (x := x) (hx ▸ hw.has w)
  unfold openCmd
  dsimp only
  split
  · exact finish_epochs hw
  · split
    · exact slotBad_epochs hw
    · split
      · exact finish_epochs (h _ rfl)
      · exact finish_epochs (wardLockout_epochs (h _ rfl))
  · exact finish_epochs hw
@[simp] theorem sealCmd_epochs {w : WardId} {j : Job} (hw : law.Wards s.wards) :
    law.Wards (sealCmd w j s).wards := by
  simp [sealCmd, hw]
@[simp] theorem credCmd_epochs {intact : Bool} {w : WardId} {j : Job}
    (hw : law.Wards s.wards) (hi : law.Intents s.ledger.intents) :
    law.Wards (credCmd intact w j s).wards ∧ law.Intents (credCmd intact w j s).ledger.intents := by
  simp [credCmd, hw, hi]
@[simp] theorem destageLost_intents {a : SubAddr} (hi : law.Intents s.ledger.intents) :
    law.Intents (destageLost a s).ledger.intents := by
  simp [destageLost, hi]
@[simp] theorem destageStart_intents {a : SubAddr} (hi : law.Intents s.ledger.intents) :
    law.Intents (destageStart a s).ledger.intents := by
  unfold destageStart; (repeat' split) <;> simp [*]
@[simp] theorem subWritten_intents {a : SubAddr} {x : Sector} (hi : law.Intents s.ledger.intents) :
    law.Intents (subWritten a x s).ledger.intents := by
  simp [subWritten, hi]
@[simp] theorem repairDone_intents {c : CellId} {q : QWrite} (hi : law.Intents s.ledger.intents) :
    law.Intents (repairDone c q s).ledger.intents := by
  simp [repairDone, hi]
@[simp] theorem writeDone_epochs {c : CellId} {q : QWrite} (hw : law.Wards s.wards) (hi : law.Intents s.ledger.intents) :
    law.Wards (writeDone c q s).wards ∧ law.Intents (writeDone c q s).ledger.intents := by
  have h := moveOn_epochs (law := law)
    (s := if q.repair then repairDone c q s else subWritten q.addr q.sector (writeOn c q.addr q.sector (takeWrite c q.key s)))
    (by split <;> simpa using hw) (by
      split
      · exact repairDone_intents hi
      · exact subWritten_intents (writeOn_intents (by simpa using hi)))
  exact ⟨by simpa [writeDone] using h.1, by simpa [writeDone] using h.2⟩
@[simp] theorem retireWay_epochs {v : Fin 16} {kind : EccKind} (hw : law.Wards s.wards) (hi : law.Intents s.ledger.intents) :
    law.Wards (retireWay v kind s).wards ∧ law.Intents (retireWay v kind s).ledger.intents := by
  unfold retireWay; dsimp only; (repeat' split) <;> simp [*]
@[simp] theorem eccError_epochs {v : Fin 16} {kind : EccKind} (hw : law.Wards s.wards) (hi : law.Intents s.ledger.intents) :
    law.Wards (eccError v kind s).wards ∧ law.Intents (eccError v kind s).ledger.intents := by
  unfold eccError
  split
  · exact ⟨hw, hi⟩
  · cases kind with
    | corrected =>
      dsimp only
      split
      · exact retireWay_epochs (by simpa using hw) (by simpa using hi)
      · exact ⟨hw, hi⟩
    | uncorrectable => exact retireWay_epochs hw hi
    | tagParity => exact retireWay_epochs hw hi
@[simp] theorem wayRetires_epochs {v : Fin 16} {kind : EccKind} (hw : law.Wards s.wards) (hi : law.Intents s.ledger.intents) :
    law.Wards (wayRetires v kind s).wards ∧ law.Intents (wayRetires v kind s).ledger.intents := by
  unfold wayRetires; (repeat' split) <;> simp [*]
@[simp] theorem putSector_intents {c : CellId} {a : SubAddr} {x : Sector} (hi : law.Intents s.ledger.intents) :
    law.Intents (putSector c a x s).ledger.intents := by
  simp [putSector, hi]
@[simp] theorem writeColumn_intents {c : CellId} {g : GroupId} {stripe col : Nat} {f : Nat → Sector}
    (hi : law.Intents s.ledger.intents) :
    law.Intents (writeColumn c g stripe col f s).ledger.intents := by
  simp +contextual [writeColumn, hi]
@[simp] theorem initStripe_intents {g : GroupId} (hi : law.Intents s.ledger.intents) :
    law.Intents (initStripe g s).ledger.intents := by
  unfold initStripe
  dsimp only
  split
  · exact hi
  · generalize hs1 : List.foldl _ s _ = s1
    have h1 : law.Intents s1.ledger.intents := by
      subst hs1
      exact EpochLaw.intents_foldl (fun _ _ h => writeColumn_intents h) hi
    (repeat' split) <;> simp [h1]
@[simp] theorem rebuildSub_intents {c : CellId} {x : Group} {a : SubAddr} {row : List RowRead}
    (hi : law.Intents s.ledger.intents) :
    law.Intents (rebuildSub c x a row s).ledger.intents := by
  unfold rebuildSub; dsimp only; (repeat' split) <;> simp [*]
@[simp] theorem rebuildSubs_intents {g : GroupId} {c : CellId} {rows : List (List RowRead)} (hi : law.Intents s.ledger.intents) :
    law.Intents (rebuildSubs g c rows s).ledger.intents := by
  simp +contextual [rebuildSubs, hi]
@[simp] theorem rebuildStripe_intents {g : GroupId} {rows : List (List RowRead)} (hi : law.Intents s.ledger.intents) :
    law.Intents (rebuildStripe g rows s).ledger.intents := by
  unfold rebuildStripe; dsimp only; (repeat' split) <;> simp [*]
@[simp] theorem armLost_intents {c : CellId} (hi : law.Intents s.ledger.intents) :
    law.Intents (armLost c s).ledger.intents := by
  simp [armLost, hi]
@[simp] theorem servoDoubt_intents {c : CellId} {cause : BitVec 3} (hi : law.Intents s.ledger.intents) :
    law.Intents (servoDoubt c cause s).ledger.intents := by
  simp [servoDoubt, hi]
@[simp] theorem thermal_intents {c : CellId} (hi : law.Intents s.ledger.intents) :
    law.Intents (thermal c s).ledger.intents := by
  simp [thermal, hi]
@[simp] theorem treatAbsent_intents {c : CellId} (hi : law.Intents s.ledger.intents) :
    law.Intents (treatAbsent c s).ledger.intents := by
  simp [treatAbsent, hi]
@[simp] theorem pagesDone_intents {c : CellId} (hi : law.Intents s.ledger.intents) :
    law.Intents (pagesDone c s).ledger.intents := by
  simp [pagesDone, hi]
@[simp] theorem leftParked_intents (hi : law.Intents s.ledger.intents) :
    law.Intents (leftParked s).ledger.intents := by
  simp [leftParked, hi]
@[simp] theorem watchdogDoubt_intents {c : CellId} {d : BitVec 16} (hi : law.Intents s.ledger.intents) :
    law.Intents (watchdogDoubt c d s).ledger.intents := by
  simp [watchdogDoubt, hi]
@[simp] theorem pageParked_intents {c : CellId} {d : BitVec 16} (hi : law.Intents s.ledger.intents) :
    law.Intents (pageParked c d s).ledger.intents := by
  simp [pageParked, hi]
@[simp] theorem page0_intents {c : CellId} {d : BitVec 16} (hi : law.Intents s.ledger.intents) :
    law.Intents (page0 c d s).ledger.intents := by
  unfold page0
  dsimp only
  generalize hs1 : (if d.getLsbD 3 = true then thermal c (pageBits c d s) else pageBits c d s) = s1
  have h1 : law.Intents s1.ledger.intents := by
    subst hs1
    split
    · exact thermal_intents (by simpa using hi)
    · simpa using hi
  generalize hs2 : (if watchdogBit c d s = true then watchdogDoubt c d s1 else s1) = s2
  have h2 : law.Intents s2.ledger.intents := by
    subst hs2
    split
    · exact watchdogDoubt_intents h1
    · exact h1
  exact leftParked_intents (pageParked_intents (by simpa using h2))
@[simp] theorem page2_intents {c : CellId} {d : BitVec 16} (hi : law.Intents s.ledger.intents) :
    law.Intents (page2 c d s).ledger.intents := by
  simp [page2, hi]
@[simp] theorem statusPage_intents {c : CellId} {page : Nat} {d : BitVec 16} (hi : law.Intents s.ledger.intents) :
    law.Intents (statusPage c page d s).ledger.intents := by
  simp [statusPage, hi]
@[simp] theorem responseFails_intents {c : CellId} {sent : Word} (hi : law.Intents s.ledger.intents) :
    law.Intents (responseFails c sent s).ledger.intents := by
  simp [responseFails, hi]
@[simp] theorem armResponse_intents {c : CellId} {f : Word} (hi : law.Intents s.ledger.intents) :
    law.Intents (armResponse c f s).ledger.intents := by
  unfold armResponse; dsimp only; (repeat' split) <;> simp [*]
@[simp] theorem colzorFrame_intents {c : CellId} {o : ColzorObs} (hi : law.Intents s.ledger.intents) :
    law.Intents (colzorFrame c o s).ledger.intents := by
  simp [colzorFrame, hi]
@[simp] theorem gateRule_intents {c : CellId} (hi : law.Intents s.ledger.intents) :
    law.Intents (gateRule c s).ledger.intents := by
  simp [gateRule, hi]
@[simp] theorem reacquire_intents {c : CellId} (hi : law.Intents s.ledger.intents) :
    law.Intents (reacquire c s).ledger.intents := by
  simp [reacquire, hi]
@[simp] theorem wedgeEnd_intents {c : CellId} {v : Servo} (hi : law.Intents s.ledger.intents) :
    law.Intents (wedgeEnd c v s).ledger.intents := by
  simp [wedgeEnd, hi]
@[simp] theorem wedgeTaken_intents {c : CellId} {o : WedgeObs} (hi : law.Intents s.ledger.intents) :
    law.Intents (wedgeTaken c o s).ledger.intents :=
  wedgeEnd_intents (reacquire_intents (by simpa using gateRule_intents (by simpa using hi)))
@[simp] theorem wedgeStep_intents {c : CellId} {o : WedgeObs} (hi : law.Intents s.ledger.intents) :
    law.Intents (wedgeStep c o s).ledger.intents := by
  simp [wedgeStep, hi]
@[simp] theorem seekFail_intents {c : CellId} (hi : law.Intents s.ledger.intents) :
    law.Intents (seekFail c s).ledger.intents := by
  simp [seekFail, hi]
@[simp] theorem hostClear_epochs {a : Nat} {v : Word} (hw : law.Wards s.wards) (hi : law.Intents s.ledger.intents) :
    law.Wards (hostClear a v s).wards ∧ law.Intents (hostClear a v s).ledger.intents := by
  simp [hostClear, hw, hi]
@[simp] theorem clearBits_epochs {a : Nat} {v : Word} (hw : law.Wards s.wards) (hi : law.Intents s.ledger.intents) :
    law.Wards (clearBits a v s).wards ∧ law.Intents (clearBits a v s).ledger.intents := by
  simp [clearBits, hw, hi]
@[simp] theorem limitWrite_epochs {v : Word} (hw : law.Wards s.wards) :
    law.Wards (limitWrite v s).wards := by
  simp [limitWrite, hw]
@[simp] theorem restartReg_epochs {v : Word} (hw : law.Wards s.wards) (hi : law.Intents s.ledger.intents) :
    law.Wards (restartReg v s).wards ∧ law.Intents (restartReg v s).ledger.intents := by
  simp [restartReg, hw, hi]
@[simp] theorem writeReg_epochs {a : Nat} {v : Word} (hw : law.Wards s.wards) (hi : law.Intents s.ledger.intents) :
    law.Wards (writeReg a v s).wards ∧ law.Intents (writeReg a v s).ledger.intents := by
  simp [writeReg, hw, hi]
@[simp] theorem registerWrite_epochs {off size : Nat} {full : Bool} {v : DWord}
    (hw : law.Wards s.wards) (hi : law.Intents s.ledger.intents) :
    law.Wards (registerWrite off size full v s).wards ∧ law.Intents (registerWrite off size full v s).ledger.intents := by
  simp [registerWrite, hw, hi]
@[simp] theorem readUnit_intents {off len : Nat} (hi : law.Intents s.ledger.intents) :
    law.Intents (readUnit off len s).ledger.intents := by
  unfold readUnit; dsimp only; (repeat' split) <;> simp [*]
@[simp] theorem bar0Read_intents {off len : Nat} (hi : law.Intents s.ledger.intents) :
    law.Intents (bar0Read off len s).ledger.intents := by
  simp [bar0Read, hi]
@[simp] theorem bell_epochs {c : Ctx} {head : Bool} {v : BitVec 16} (hw : law.Wards s.wards) (hi : law.Intents s.ledger.intents) :
    law.Wards (bell c head v s).wards ∧ law.Intents (bell c head v s).ledger.intents := by
  simp [bell, hw, hi]
@[simp] theorem bar2_epochs {a : Bar2} (hw : law.Wards s.wards) (hi : law.Intents s.ledger.intents) :
    law.Wards (bar2 a s).wards ∧ law.Intents (bar2 a s).ledger.intents := by
  unfold bar2; dsimp only; (repeat' split) <;> simp [*]

/-- A configuration request keeps both where its work does. -/
@[simp] theorem cfgWrite_epochs {f : State → State}
    (hf : law.Wards s.wards → law.Intents s.ledger.intents → law.Wards (f s).wards ∧ law.Intents (f s).ledger.intents)
    (hw : law.Wards s.wards) (hi : law.Intents s.ledger.intents) :
    law.Wards (cfgWrite f s).wards ∧ law.Intents (cfgWrite f s).ledger.intents := by
  unfold cfgWrite
  split
  · exact ⟨hw, hi⟩
  · split
    · simp [hw, hi]
    · exact hf hw hi

/-! Commands. -/

/-- Where neither the wards nor the Ledger are touched, both stay as the law allows. -/
theorem exec_epochs_of_kept {c : Instr} {t : State}
    (hk : ((touches c).contains .wards || (touches c).contains .ledger) = false) (h : exec c s = .next t)
    (hw : law.Wards s.wards) (hi : law.Intents s.ledger.intents) : law.Wards t.wards ∧ law.Intents t.ledger.intents := by
  obtain ⟨hkw, hkl⟩ := Bool.or_eq_false_iff.1 hk
  have hc := exec_changesOnly h
  have h1 : t.wards = s.wards := hc .wards (by simpa using hkw)
  have h2 : t.ledger = s.ledger := hc .ledger (by simpa using hkl)
  exact ⟨h1.symm ▸ hw, h2.symm ▸ hi⟩

/-- Every command but CREATE_WARD keeps the epochs and the intents that the law allows. -/
theorem exec_epochs {c : Instr} {t : State} (hc : ∀ id, c ≠ .createWard id) (h : exec c s = .next t)
    (hw : law.Wards s.wards) (hi : law.Intents s.ledger.intents) : law.Wards t.wards ∧ law.Intents t.ledger.intents := by
  cases hk : (touches c).contains .wards || (touches c).contains .ledger
  · exact exec_epochs_of_kept hk h hw hi
  cases c with
  | createWard id => exact absurd rfl (hc id)
  | supplyLoss rail mv =>
    simp only [exec, execSupplyLoss] at h
    split at h
    · cases h
    · obtain rfl := Host.Outcome.next.inj h
      simp [hw, hi]
  | flushQueue =>
    obtain rfl := Host.Outcome.next.inj h
    split
    · split
      · simp [hw, hi]
      · exact runAdmin_epochs (fun _ _ => flushBegin_epochs) hw hi
    · exact ⟨hw, hi⟩
  | resizeWard =>
    obtain rfl := Host.Outcome.next.inj h
    exact runAdmin_epochs (fun _ _ => withKey_epochs fun _ _ _ => resizeWard_epochs) hw hi
  | setWardRings =>
    obtain rfl := Host.Outcome.next.inj h
    exact runAdmin_epochs (fun _ _ => withKey_epochs fun _ _ _ => setWardRings_epochs) hw hi
  | setWardSched =>
    obtain rfl := Host.Outcome.next.inj h
    exact runAdmin_epochs (fun _ _ => withKey_epochs fun _ _ _ => setWardSched_epochs) hw hi
  | officerLogout =>
    obtain rfl := Host.Outcome.next.inj h
    exact runAdmin_epochs (fun _ _ hw hi => by simp [hw, hi]) hw hi
  | busMasterEnable =>
    obtain rfl := Host.Outcome.next.inj h
    refine cfgWrite_epochs (fun hw hi => ?_) hw hi
    split <;> simp [hw, hi]
  | replay | sectorWriteDone | sectorRead | retryPass | repairRewrite | tornRewrite | ledgerRound | destageStart |
  deferredDelta =>
    obtain rfl := Host.Outcome.next.inj h
    (repeat' split) <;> simp [hw, hi]
  | powerOn | pfNAssert | pfNDeassert | wakeN | perstN | zeroN | lpOverload | coldRestart | transitionEnd | powerRemoval |
  hostLinkReset | flr | bar0ReadAbort | beatLoRead | taiLoRead | wardHighLoRead | serialLoRead | bar2Stray |
  heldCommandEval | write | trim | setCredential | identify | setTelemetryKey | groupSetCreate | groupSetSetSpare |
  groupSetDelete | rebuildCtrlStart | rebuildCtrlStop | scrubCtrlStart | scrubCtrlStop | wayRestore | eventLogSetEnable |
  eventLogSetDisable | registerWrite | pllLoss | tick | officerIdle | lockout | malformedRate | mediaStall | appendAge |
  chainWaitTimeout | adminEnable | adminDisable | openWard | sealWard | wardInfo | noiseHealthFail | voteSet | voteClr |
  sleepVote | holdRelease | adminFetch | roundaboutTurn | entryArrival | ringReadFail | ringReadRetry | dmaAbort | read |
  officerAuth | setOfficerCredential | runSelfTest | zeroize | destroyWard | resetWard | kccUnwrap | tumblerWrite |
  intentReserve | cacheFill | scacheEccError | wayRetired | captureFrame | armLinkResponse | armLinkLost | presentAbsent |
  clockLockLoss | colzorFrame | servoDoubt | spinUpTimeout | seekFail | headLoadFail | wedge | reacquisition | initStripe |
  rebuildStripe | scrubRow | dataFetch | parkTimeout =>
    obtain rfl := Host.Outcome.next.inj h
    simp +contextual [hw, hi]
  | _ => cases hk

/-! CREATE_WARD, which alone may journal a ward. -/

/-- What a begun admin command may do: nothing, wait, end with a status, journal that its work is done, or its own work. -/
theorem runAdmin_cases (P : State → Prop) {id op : Nat} {f : Job → State → State} (hs : P s)
    (hwait : ∀ j : Job, P (s.setJob j)) (hend : ∀ j status, P (finish j status 0 0 s))
    (hdone : ∀ j detail, P (journal .journal j .none detail s)) (hf : ∀ j, P (f j s)) : P (runAdmin id op f s) := by
  have hbody (j : Job) : P (if turnedAway j s then finish j 0x12 0 0 s
      else match j.doneWith with
      | some detail => journal .journal j .none detail s
      | none => if pastLimit j.entry then finish j 0x24 0 0 s else f j s) := by
    split
    · exact hend ..
    · split
      · exact hdone ..
      · split
        · exact hend ..
        · exact hf j
  unfold runAdmin runJob
  split
  · (repeat' split)
    · exact hs
    · exact hwait _
    · exact hbody _
    · exact hbody _
    · exact hs
  · exact hs
/-- A journaled command changes no ward but through a refusal's completion. -/
theorem journal_wards {phase : JobPhase} {j : Job} {eff : Effect} {detail : Nat} (hw : law.Wards s.wards) :
    law.Wards (journal phase j eff detail s).wards := by
  unfold journal
  split
  · exact finish_epochs hw
  · split <;> simpa using hw
/-- CREATE_WARD changes no epoch before its COMMIT. -/
theorem createCmd_wards {j : Job} (hw : law.Wards s.wards) : law.Wards (createCmd j s).wards := by
  unfold createCmd
  dsimp only
  split
  · exact finish_epochs hw
  · exact finish_epochs hw
  · exact malformed_epochs hw
  · simpa [holdReset] using hw
  · split
    · simp [hw]
    · split
      · exact malformedOpen_epochs hw
      · split
        · exact finish_epochs hw
        · split
          · exact finish_epochs hw
          · unfold makeWard
            dsimp only
            split
            · exact hw
            · exact journal_wards hw

/-- The wards have their present epochs or those that a live intent brings, and intents bring the wards they bring. -/
def liveLaw (s : State) : EpochLaw where
  brings w x := ∃ i ∈ s.ledger.intents, i.effect = .create w x
  has w e := e = (s.ward w).epoch ∨ ∃ i ∈ s.ledger.intents, ∃ x : Ward, i.effect = .create w x ∧ e = x.epoch
  link _ x := fun ⟨i, hi, he⟩ => .inr ⟨i, hi, x, he, rfl⟩
/-- As `liveLaw`, and an intent may also bring a ward SEALED in its next epoch. -/
def nextLaw (s : State) : EpochLaw where
  brings w x := (∃ i ∈ s.ledger.intents, i.effect = .create w x) ∨ (x.epoch = (s.ward w).epoch + 1 ∧ x.state = .sealed)
  has _ _ := True
  link _ _ _ := trivial
/-- A sound state obeys its own law. -/
theorem liveLaw_self (hs : Sound s) : (liveLaw s).Wards s.wards ∧ (liveLaw s).Intents s.ledger.intents :=
  ⟨⟨hs.wards, fun _ => .inl rfl⟩, fun i hi _ _ he => ⟨i, hi, he⟩⟩
theorem nextLaw_self (hs : Sound s) : (nextLaw s).Wards s.wards ∧ (nextLaw s).Intents s.ledger.intents :=
  ⟨⟨hs.wards, fun _ => trivial⟩, fun i hi _ _ he => .inl ⟨i, hi, he⟩⟩
/-- CREATE_WARD changes no epoch. -/
theorem createWard_wards {id : Nat} {t : State} (hw : law.Wards s.wards) (h : exec (.createWard id) s = .next t) :
    law.Wards t.wards := by
  obtain rfl := Host.Outcome.next.inj h
  exact runAdmin_cases (fun t => law.Wards t.wards) hw (fun _ => by simpa using hw) (fun _ _ => finish_epochs hw)
    (fun _ _ => journal_wards hw) fun _ => createCmd_wards hw
/-- CREATE_WARD journals a ward of the next epoch, SEALED, or brings what was live. -/
theorem createWard_intents {id : Nat} {t : State} (hs : Sound s) (h : exec (.createWard id) s = .next t) :
    (nextLaw s).Intents t.ledger.intents := by
  obtain rfl := Host.Outcome.next.inj h
  obtain ⟨hw, hi⟩ := nextLaw_self hs
  exact runAdmin_cases (fun t => (nextLaw s).Intents t.ledger.intents) hi (fun _ => by simpa using hi)
    (fun _ _ => by simpa using hi) (fun _ _ => (journal_epochs (by simp) hw hi).2)
    fun _ => (createCmd_epochs (fun _ hx he => Or.inr ⟨he, hx⟩) hw hi).2

/-- Whether a command is CREATE_WARD. -/
theorem eq_createWard_or (c : Instr) : (∃ id, c = .createWard id) ∨ ∀ id, c ≠ .createWard id := by
  by_cases h : ∃ id, c = .createWard id
  · exact .inl h
  · exact .inr fun id hc => h ⟨id, hc⟩
/-- A command changes an epoch through a live CREATE_WARD intent alone (R48). -/
theorem exec_epoch {c : Instr} {t : State} (hs : Sound s) (h : exec c s = .next t) (w : WardId) :
    (t.ward w).epoch = (s.ward w).epoch ∨
    ∃ i ∈ s.ledger.intents, ∃ x : Ward, i.effect = .create w x ∧ (t.ward w).epoch = x.epoch := by
  obtain ⟨hw, hi⟩ := liveLaw_self hs
  obtain ⟨id, rfl⟩ | hc := eq_createWard_or c
  · exact (createWard_wards hw h).has w
  · exact (exec_epochs hc h hw hi).1.has w
/-- An intent that brings a ward was live, or comes from CREATE_WARD with the ward's next epoch (R48). -/
theorem exec_create_intent {c : Instr} {t : State} (hs : Sound s) (h : exec c s = .next t) {i : Intent}
    (hi : i ∈ t.ledger.intents) {w : WardId} {x : Ward} (he : i.effect = .create w x) :
    (∃ k ∈ s.ledger.intents, k.effect = .create w x) ∨
    ((∃ id, c = .createWard id) ∧ x.epoch = (s.ward w).epoch + 1 ∧ x.state = .sealed) := by
  obtain ⟨hsw, hsi⟩ := liveLaw_self hs
  obtain ⟨id, rfl⟩ | hc := eq_createWard_or c
  · exact (createWard_intents hs h i hi w x he).imp_right fun hx => ⟨⟨id, rfl⟩, hx⟩
  · exact .inl ((exec_epochs hc h hsw hsi).2 i hi w x he)

/-! The COMMIT of CREATE_WARD. -/

/-- The append extent's end changes of a ward its full flag alone. -/
theorem checkAppendFull_ward {s : State} (hs : Sound s) (w : WardId) :
    (checkAppendFull w s).ward w = { s.ward w with appendFull := ((checkAppendFull w s).ward w).appendFull } := by
  have hw (t : State) (a b : Nat) : (logEvent 0x0403 a b 0 t).ward w = t.ward w := by rw [logEvent_eq]; rfl
  unfold checkAppendFull
  dsimp only
  split
  · rw [hw, ward_updWard_self hs]
  · rfl
/-- The append extent's end changes no other ward. -/
theorem checkAppendFull_ward_ne {s : State} (hs : Sound s) {w u : WardId} (hu : u ≠ w) :
    (checkAppendFull w s).ward u = s.ward u := by
  have hw (t : State) (a b : Nat) : (logEvent 0x0403 a b 0 t).ward u = t.ward u := by rw [logEvent_eq]; rfl
  unfold checkAppendFull
  dsimp only
  split
  · rw [hw, ward_updWard_ne hs hu]
  · rfl
/-- The COMMIT of CREATE_WARD brings its ward, with the malformed limit and the rings as they were. -/
theorem create_ward {i : Intent} {v : State} (hv : Sound v) {w : WardId} {x : Ward} (he : i.effect = .create w x) :
    (applyEffect i v).ward w =
      { x with malformedLimit := (v.ward w).malformedLimit, appendFull := ((applyEffect i v).ward w).appendFull } := by
  have hx : applyEffect i v = checkAppendFull w (v.setWard w { x with malformedLimit := (v.ward w).malformedLimit }) := by
    unfold applyEffect; rw [he]
  rw [hx, checkAppendFull_ward ((State_setWard_keeps ..).1 hv), ward_setWard_self hv]
/-- The COMMIT of CREATE_WARD keeps the jobs. -/
theorem create_ring {i : Intent} {v : State} {w : WardId} {x : Ward} (he : i.effect = .create w x) :
    (applyEffect i v).ring = v.ring := by
  unfold applyEffect; rw [he]; simp
/-- The job of a COMMIT is among the fetched ones as its effect comes. -/
theorem Committing.job {i : Intent} {j : Job} {s v u : State} (h : CommitDue i j s) (hv : Committing i s v)
    (hu : u.ring.jobs = v.ring.jobs) : u.job j.id = some j := by
  have hj : v.ring.jobs = s.ring.jobs := by
    rw [hv.ring]
    unfold commitContext
    rw [h.plain.1]
    split <;> simp [recordCommit]
  unfold State.job
  rw [hu, hj]
  exact h.found
/-- The COMMIT of CREATE_WARD sets the ward's epoch and state (R48). -/
theorem commit_create {i : Intent} {j : Job} {s : State} (hs : Sound s) (h : CommitDue i j s) {w : WardId} {x : Ward}
    (he : i.effect = .create w x) :
    ∃ t, exec (.ledgerRound [] none) s = .next t ∧ (t.ward w).epoch = x.epoch ∧ (t.ward w).state = x.state := by
  obtain ⟨v, t, hv, ht, hfin⟩ := exec_ledgerRound_commitDue hs h
  have hw : t.ward w = (finish j 0 0 i.detail (applyEffect i v)).ward w := by
    rw [hfin (hv.job h (congrArg (·.jobs) (create_ring he)))]; rfl
  refine ⟨t, ht, ?_⟩
  rw [hw, finish_ward_of ((applyEffect_keeps ..).1 hv.sound) rfl, create_ward hv.sound he]
  exact ⟨rfl, rfl⟩

/-- Settles O5: the law of the live intents holds through every command but CREATE_WARD; CREATE_WARD changes no epoch and adds the
next one; and the effect of a CREATE_WARD intent sets its ward. -/
theorem epochRule : Obligations.EpochRule :=
  ⟨fun _ _ _ w hs h => exec_epoch hs h w, fun _ _ _ _ _ hs h _ hi he => exec_create_intent hs h hi he,
   fun _ _ _ _ _ hs h he => commit_create hs h he⟩

end Sys2Proof.Machine

/-! ## Limits of officer sessions and ward failures (O32) -/

namespace Sys2Proof.Machine

/-- An admin job's completion goes to the admin rings, whatever else the state holds (R136, R137). -/
theorem finish_completed_of_admin {j : Job} (hj : j.ctx = .admin) (st d : Nat) (s : State) :
    Completed j st d s (finish j st 0 d s) := by
  have hjobs : (finish j st 0 d s).ring.jobs = listDrop (fun x => x.id == j.id) s.ring.jobs := by
    unfold finish
    rw [(applyWhenClear_jobs _).1]
    simp [State.dropJob]
  have hhost : s.ringUp .admin = true → ∃ u, (finish j st 0 d s).host = (send (.entry ⟨.admin, s.ring.admin.cqBase +
      BitVec.ofNat 64 (16 * s.ring.admin.cqTail), j.tag, st, 0, d, s.ring.admin.phase, j.chained⟩) u).host ∧
      u.dmaOpen = s.dmaOpen ∧ u.clk = s.clk ∧ u.ring.admin.sqHead = s.ring.admin.sqHead := by
    intro hup
    have ha (t : State) : (applyWhenClear t).host = t.host := by simp
    have hup' : (s.dropJob j.id).ringUp .admin = true := hup
    unfold finish postCompletion
    rw [ha, hj, if_pos hup']
    refine ⟨_, rfl, ?_⟩
    (repeat' split) <;> exact ⟨rfl, rfl, rfl⟩
  unfold Completed
  rw [hj]
  refine ⟨hjobs, fun hup hd => ?_, fun hup hd => ?_⟩
  · obtain ⟨u, hu, hdma, hclk, hhead⟩ := hhost hup
    have hout := send_entry (hdma.trans hd) ⟨.admin, s.ring.admin.cqBase + BitVec.ofNat 64 (16 * s.ring.admin.cqTail), j.tag,
      st, 0, d, s.ring.admin.phase, j.chained⟩
    rw [hu]
    simpa only [State.ringOf, hclk, hhead] using hout
  · obtain ⟨u, hu, hdma, -, -⟩ := hhost hup
    rw [hu, send_shut (hdma.trans hd)]
    exact List.mem_append_right _ List.mem_cons_self

/-- Where no entry that needs the session was fetched in this beat, the session ends and nothing else changes. -/
theorem endSession_of_none {s : State} (h : ∀ j ∈ s.ring.jobs, j.needsSession = true → j.at_ ≠ s.clk.beat) :
    endSession s = { s with sec := { s.sec with session := false, idleTicks := 0 } } := by
  have hl : s.ring.jobs.filter (fun j => s.sec.session && j.needsSession && decide (j.at_ = s.clk.beat)) = [] := by
    rw [List.filter_eq_nil_iff]
    intro j hj
    have := h j hj
    simpa using fun _ => this
  simp only [endSession, hl, List.foldl_nil]
/-- The one entry that needs the session completes NOT_OFFICER as it ends. -/
theorem endSession_of_one {s : State} (hs : s.sec.session = true) {j : Job} (hj : s.ring.jobs = [j])
    (hn : j.needsSession = true) (ha : j.at_ = s.clk.beat) :
    endSession s = finish j 0x33 0 0 { s with sec := { s.sec with session := false, idleTicks := 0 } } := by
  simp [endSession, hj, hs, hn, ha]

/-- What an event says as it joins the queue. -/
theorem logEvent_logged {s : State} (h : s.obs.events.length < 512) (c i a b : Nat) :
    ∃ e ∈ (logEvent c i a b s).obs.events, e.code = BitVec.ofNat 16 c ∧ e.index = BitVec.ofNat 16 i ∧
      e.arg0 = BitVec.ofNat 16 a ∧ e.beat = s.clk.beat :=
  ⟨_, logEvent_mem h c i a b, rfl, rfl, rfl, rfl⟩
/-- A FAULTED ward, its cause, and the event of it (R56). -/
def WardFaulted (w : WardId) (cause : BitVec 2) (s t : State) : Prop :=
  t = { s with wards := t.wards, obs := t.obs, pin := t.pin } ∧
  t.ward w = { s.ward w with state := .faulted, lastFault := cause } ∧ (∀ u, u ≠ w → t.ward u = s.ward u) ∧
  (s.obs.events.length < 512 →
    ∃ e ∈ t.obs.events, e.code = 0x0401 ∧ e.index.toNat = w.val ∧ e.arg0.toNat = cause.toNat ∧ e.beat = s.clk.beat)
/-- A SEALED or OPEN ward that faults changes alone, and the fault is logged. -/
theorem faultWard_faulted {s : State} (hs : Sound s) {w : WardId} (h : (s.ward w).state = .sealed ∨ (s.ward w).state = .opened)
    (c : BitVec 2) : WardFaulted w c s (faultWard w c s) := by
  refine ⟨State.eq_of (by simp) (by simp) (by simp) (by simp) (by simp) (by simp) rfl (by simp) (by simp) (by simp) (by simp)
    (by simp) (by simp) (by simp) (by simp) (by simp) rfl rfl (by simp) (by simp) (by simp), faultWard_self hs w c h,
    fun u hu => faultWard_ne hs hu c, fun hroom => ?_⟩
  have he : faultWard w c s =
      logEvent 0x0401 w.val c.toNat 0 (s.updWard w (fun x => { x with state := .faulted, lastFault := c })) := by
    unfold faultWard
    rcases h with h | h <;> rw [h]
  rw [he]
  obtain ⟨e, hmem, hcode, hindex, harg, hbeat⟩ := logEvent_logged (s := s.updWard w _) hroom 0x0401 w.val c.toNat 0
  have hw := w.isLt
  have hc := c.isLt
  refine ⟨e, hmem, hcode, ?_, ?_, hbeat⟩
  · rw [hindex, BitVec.toNat_ofNat]; omega
  · rw [harg, BitVec.toNat_ofNat]; omega

/-- Settles O32: each limit's command is its one step, `endSession`, `logEvent` or `faultWard`. -/
theorem failureLimits : Obligations.FailureLimits := by
  unfold Obligations.FailureLimits
  refine ⟨fun s => ⟨fun hsess hidle => ?_, fun hl hf => ?_, fun hl h0 => ?_⟩,
    fun s w hs hst => ⟨fun hf => ?_, fun hm hlt => ?_⟩⟩
  · have hend : exec .officerIdle s = .next (endSession s) := congrArg _ (if_pos (by simp [hsess, hidle]))
    refine ⟨fun hnone => by rw [hend, endSession_of_none hnone], fun j hj hn ha => ?_⟩
    have hadm : j.ctx = .admin := by simp only [Job.needsSession, Bool.and_eq_true, decide_eq_true_eq] at hn; exact hn.1.1.1
    refine ⟨_, hend, ?_⟩
    rw [endSession_of_one hsess hj hn ha]
    exact ⟨by simp, finish_completed_of_admin hadm 0x33 0 _⟩
  · refine ⟨officerLockout s, rfl, ?_⟩
    rw [officerLockout, if_pos (by simp [hl, hf])]
    refine ⟨by rw [logEvent_eq], by rw [logEvent_eq], fun hroom => ?_⟩
    obtain ⟨e, hmem, hcode, -, -, hbeat⟩ := logEvent_logged (s := { s with
      sec := { s.sec with officerLocked := true, lockoutLeft := 60000 } }) hroom 0x0203 0 0 0
    exact ⟨e, hmem, hcode, hbeat⟩
  · exact congrArg _ (if_pos (by simp [hl, h0]))
  · exact ⟨faultWard w 3 s, congrArg _ (if_pos hf), faultWard_faulted hs hst 3⟩
  · exact ⟨faultWard w 2 s, congrArg _ (if_pos ⟨hm, hlt⟩), faultWard_faulted hs hst 2⟩

end Sys2Proof.Machine

/-! ## How a command begins and journals

A job that may begin runs its command's own work; where the Ledger is open, a state-changing command journals (R157, R235). -/

namespace Sys2Proof.Machine

/-- A job that is found carries its number. -/
theorem id_of_jobFor {s : State} {id op : Nat} {admin : Bool} {j : Job} (h : s.jobFor id op admin = some j) :
    j.id = id ∧ s.job j.id = some j ∧ j.op.toNat = op ∧ decide (j.ctx = .admin) = admin := by
  unfold State.jobFor at h
  split at h
  · next k hk =>
    split at h
    · next hop =>
      obtain rfl := Option.some.inj h
      have hid : k.id = id := by simpa using List.find?_some hk
      exact ⟨hid, hid.symm ▸ hk, hop⟩
    · cases h
  · cases h
/-- A job that no earlier one holds back runs. -/
theorem runJob_begins {s : State} {id op : Nat} {admin : Bool} {j : Job} {p : JobPhase} (f : Job → State → State)
    (hj : s.jobFor id op admin = some j) (ha : s.awake = true) (hp : j.phase = p) (hp' : p = .ready ∨ p = .dataIn)
    (hb : blocked j s = false) : runJob id op admin f s = f j s := by
  unfold runJob
  simp only [hj, ha, hp, hb]
  rcases hp' with rfl | rfl <;> simp
/-- An admin command that begins does its own work. -/
theorem runAdmin_begins {s : State} {id op : Nat} {j : Job} {p : JobPhase} (h : AdminBegins id op p j s)
    (hp : p = .ready ∨ p = .dataIn) (f : Job → State → State) : runAdmin id op f s = f j s := by
  unfold runAdmin
  rw [runJob_begins _ h.job h.awake h.phase hp h.free, h.allowed, h.todo, h.limits]
  rfl
/-- A ward command that begins does its own work. -/
theorem runWard_begins {s : State} {id op : Nat} {w : WardId} {j : Job} {p : JobPhase} (h : WardBegins id op w p j s)
    (hp : p = .ready ∨ p = .dataIn) (f : WardId → Job → State → State) : runWard id op f s = f w j s := by
  have hw : j.ward = w := by unfold Job.ward; rw [h.ctx]
  unfold runWard
  rw [runJob_begins _ h.job h.awake h.phase hp h.free, hw, if_neg h.sound, h.limits]
  rfl

/-- With nothing waiting for the port and room in it, an item joins the port. -/
theorem toPort_joins {s : State} (h : s.ledgerDead = false) (hw : s.ledger.waits = []) {it : PortItem} {n : Nat}
    (hn : (s.ledger.port.map Prod.snd).sum + n ≤ portLimit it) :
    toPort [(it, n)] s = { s with ledger := { s.ledger with port := s.ledger.port ++ [(it, n)], waits := [] } } := by
  unfold toPort pumpPort
  simp [h, hw, hn]

/-- The intent of a command that journals, before its serial and slots (R233, R235). -/
def commandIntent (j : Job) (eff : Effect) (detail : Nat) : Intent :=
  { serial := 0, boot := 0, ctx := j.ctx, job := some j.id, number := j.intent, op := j.op
    block := if j.op = 0x03 then j.cmd 0x20 8 else 0, count := if j.op = 0x03 then j.cmd 0x28 4 else 0
    args := j.args, detail, effect := eff }
/-- A command's intent takes the next serial and joins the port (R235). -/
theorem newIntent_command {s : State} (h : LedgerOpen s) (j : Job) (eff : Effect) (detail : Nat) :
    newIntent (commandIntent j eff detail) s = { s with ledger := { s.ledger with
        intents := s.ledger.intents ++ [{ commandIntent j eff detail with
          serial := s.ledger.nextSerial, boot := s.sec.bootCount, slot := (s.singles 2).getD 0 0
          commits := [(s.ledger.nextSerial + 1, (s.singles 2).getD 1 0)] }]
        nextSerial := s.ledger.nextSerial + 2
        port := s.ledger.port ++ [(.intent s.ledger.nextSerial, 1)], waits := [] } } := by
  have hopen := h.intake
  simp only [intakeOpen, Bool.and_eq_true, beq_iff_eq, decide_eq_true_eq] at hopen
  obtain ⟨⟨-, hport⟩, hwaits⟩ := hopen
  unfold newIntent
  rw [toPort_joins]
  · rfl
  · exact h.alive
  · exact hwaits
  · exact hport
/-- Where the Ledger is open a command's intent is queued, and its job stands where the command says (R157, R235). -/
theorem journal_open {s : State} (h : LedgerOpen s) (phase : JobPhase) (j : Job) (eff : Effect) (detail : Nat) :
    journal phase j eff detail s = { s.setJob { j with phase } with ledger := { s.ledger with
      intents := s.ledger.intents ++ [{ commandIntent j eff detail with
        serial := s.ledger.nextSerial, boot := s.sec.bootCount, slot := ((s.setJob { j with phase }).singles 2).getD 0 0
        commits := [(s.ledger.nextSerial + 1, ((s.setJob { j with phase }).singles 2).getD 1 0)] }]
      nextSerial := s.ledger.nextSerial + 2
      port := s.ledger.port ++ [(.intent s.ledger.nextSerial, 1)], waits := [], owed := none } } := by
  have hcan : (!(intakeOpen s) || decide (s.poolFree < 2)) = false := by
    have := h.pool
    simp only [h.intake, Bool.not_true, Bool.false_or, decide_eq_false_iff_not]
    omega
  have ho : LedgerOpen (s.setJob { j with phase }) := ⟨h.alive, h.intake, h.pool⟩
  have hstate : journal phase j eff detail s = (
      let n := newIntent (commandIntent j eff detail) (s.setJob { j with phase })
      { n with ledger := { n.ledger with owed := none } }) := by
    unfold journal
    simp only [h.alive, hcan, Bool.false_eq_true, if_false]
    rfl
  rw [hstate, newIntent_command ho]
  rfl
/-- Where the Ledger is open a command journals (R157, R235). -/
theorem journal_journaled {s : State} {j : Job} (h : LedgerOpen s) (hj : s.job j.id = some j) (eff : Effect) (detail : Nat) :
    Journaled j eff detail s (journal .journal j eff detail s) := by
  have hjob : (s.setJob { j with phase := .journal }).job j.id = some { j with phase := .journal } :=
    job_setJob (k := { j with phase := .journal }) hj
  rw [journal_open h]
  refine ⟨hjob, ⟨_, rfl, rfl, rfl, rfl, rfl, rfl, rfl, rfl, rfl, rfl, rfl, rfl, rfl, fun hop => ?_⟩, rfl, rfl, rfl⟩
  simp [commandIntent, hop]
end Sys2Proof.Machine

/-! ## What the COMMIT of a command leaves

Where its effect leaves the jobs, DMA and the rings of its own context, the command completes SUCCESS with its DETAIL, and the wards
are those of the effect but for the rings of the context (R136, R235, R240). -/

namespace Sys2Proof.Machine

/-- The effect leaves the jobs and rings of context `c`, and DMA, as they were. -/
structure KeepsRings (c : Ctx) (u v : State) : Prop where
  jobs : v.ring.jobs = u.ring.jobs
  up : v.ringUp c = u.ringUp c
  rings : v.ringOf c = u.ringOf c
  dma : v.dmaOpen = u.dmaOpen
theorem KeepsRings.trans {c : Ctx} {u v x : State} (h : KeepsRings c u v) (k : KeepsRings c v x) : KeepsRings c u x :=
  ⟨k.jobs.trans h.jobs, k.up.trans h.up, k.rings.trans h.rings, k.dma.trans h.dma⟩

/-- What a COMMIT leaves where its effect keeps the rings: all that no completion touches is the effect's. -/
structure Committed (i : Intent) (j : Job) (s v t : State) : Prop where
  begins : Committing i s v
  run : exec (.ledgerRound [] none) s = .next t
  completed : Completed j 0 i.detail s t
  rest : t = { finish j 0 0 i.detail (applyEffect i v) with ledger := t.ledger }

/-- The wards after the context of an admin command has taken its COMMIT up. -/
theorem Committing.wards_of_admin {i : Intent} {s v : State} (h : Committing i s v) (hc : i.ctx = .admin) : v.wards = s.wards := by
  rw [h.wards]
  unfold commitContext
  rw [hc]
  rfl
/-- The ward of a ward command after its context has taken the COMMIT up: its number is recorded (R240). -/
theorem Committing.ward_self {i : Intent} {j : Job} {s v : State} (hs : Sound s) (h : CommitDue i j s) (hv : Committing i s v)
    {w : WardId} (hc : i.ctx = .ward w) :
    v.ward w = { s.ward w with
      high := if (s.ward w).high < i.number then i.number else (s.ward w).high
      window := (v.ward w).window, winOldest := (v.ward w).winOldest, gapKept := (v.ward w).gapKept } := by
  have hw : v.ward w = (commitContext i s).ward w := by simp only [State.ward, hv.wards]
  rw [hw]
  unfold commitContext
  rw [hc]
  simp only [h.plain.1, h.plain.2.1, Bool.false_eq_true, if_false]
  rw [ward_updWard_self ((recordCommit_keeps ..).1 hs)]
  unfold recordCommit
  dsimp only
  rw [ward_updWard_self hs]
  rfl
/-- A ward command's COMMIT is taken up by no other ward. -/
theorem Committing.ward_ne {i : Intent} {j : Job} {s v : State} (hs : Sound s) (h : CommitDue i j s) (hv : Committing i s v)
    {u : WardId} (hc : i.ctx ≠ .ward u) : v.ward u = s.ward u := by
  have hw : v.ward u = (commitContext i s).ward u := by simp only [State.ward, hv.wards]
  rw [hw]
  unfold commitContext
  split
  · rfl
  · next w hi =>
    have hu : u ≠ w := fun e => hc (e ▸ hi)
    simp only [h.plain.1, Bool.false_eq_true, if_false]
    rw [ward_updWard_ne ((recordCommit_keeps ..).1 hs) hu]
    exact ward_updWard_ne hs hu _
/-- The context entry takes a COMMIT up with the jobs and rings as they were. -/
theorem Committing.keepsRings {i : Intent} {j : Job} {s v : State} (hs : Sound s) (h : CommitDue i j s) (hv : Committing i s v) :
    KeepsRings j.ctx s v := by
  have hrest := hv.rest
  have hjobs : v.ring.jobs = s.ring.jobs ∧ v.ring.admin = s.ring.admin ∧ v.ring.placed = s.ring.placed := by
    rw [hv.ring]
    unfold commitContext
    rw [h.plain.1]
    split
    · exact ⟨rfl, rfl, rfl⟩
    · exact ⟨rfl, rfl, rfl⟩
  have hdma : v.dmaOpen = s.dmaOpen := by rw [hrest]; rfl
  rw [← h.ctx]
  cases hc : i.ctx with
  | admin => exact ⟨hjobs.1, hjobs.2.2, hjobs.2.1, hdma⟩
  | ward w =>
    have hw := hv.ward_self hs h hc
    refine ⟨hjobs.1, ?_, ?_, hdma⟩
    · show (v.ward w).configured = (s.ward w).configured
      rw [hw]
    · show (v.ward w).ring = (s.ward w).ring
      rw [hw]

/-- The COMMIT of a command whose effect keeps the rings. -/
theorem exec_commit {i : Intent} {j : Job} {s : State} (hs : Sound s) (h : CommitDue i j s)
    (he : ∀ v, Committing i s v → KeepsRings j.ctx v (applyEffect i v)) : ∃ v t, Committed i j s v t := by
  obtain ⟨v, t, hv, hrun, hfin⟩ := exec_ledgerRound_commitDue hs h
  have hk := he v hv
  have ht := hfin (hv.job h hk.jobs)
  have hall := (hv.keepsRings hs h).trans hk
  have hbeat : (applyEffect i v).clk.beat = s.clk.beat := by
    have : (applyEffect i v).clk = v.clk := by simp
    rw [this, hv.rest]
  have hdone : Completed j 0 i.detail s (finish j 0 0 i.detail (applyEffect i v)) :=
    finish_completed_of ((applyEffect_keeps ..).1 hv.sound) hall.jobs hall.up hall.dma (fun _ => hall.rings) hbeat
  exact ⟨v, t, hv, hrun, by rw [ht]; exact hdone, ht⟩
/-- An admin command's COMMIT leaves the wards of its effect. -/
theorem Committed.wards_of_admin {i : Intent} {j : Job} {s v t : State} (h : CommitDue i j s) (ht : Committed i j s v t)
    (hc : i.ctx = .admin) : t.wards = (applyEffect i v).wards := by
  rw [ht.rest]
  exact finish_wards_of_admin (h.ctx.symm.trans hc) ..
/-- A COMMIT leaves each ward as its effect does, but for rings. -/
theorem Committed.ward {i : Intent} {j : Job} {s v t : State} (ht : Committed i j s v t) (u : WardId) :
    t.ward u = { (applyEffect i v).ward u with ring := (t.ward u).ring } := by
  have hw : t.ward u = (finish j 0 0 i.detail (applyEffect i v)).ward u := by rw [ht.rest]; rfl
  rw [hw]
  exact finish_ward_of ((applyEffect_keeps ..).1 ht.begins.sound) rfl ..
/-- A ward command's COMMIT leaves every other ward as its effect does. -/
theorem Committed.ward_ne {i : Intent} {j : Job} {s v t : State} (h : CommitDue i j s) (ht : Committed i j s v t) {u : WardId}
    (hc : i.ctx ≠ .ward u) : t.ward u = (applyEffect i v).ward u := by
  have hw : t.ward u = (finish j 0 0 i.detail (applyEffect i v)).ward u := by rw [ht.rest]; rfl
  rw [hw]
  exact finish_ward_ne ((applyEffect_keeps ..).1 ht.begins.sound) (h.ctx ▸ hc) ..
end Sys2Proof.Machine

/-! ## WRITE and TRIM (O39) -/

namespace Sys2Proof.Machine

/-- A job replaced by one with as many reads out leaves their number. -/
theorem asked_listUpd {l : List Job} {j k : Job} (hj : l.find? (fun x => x.id == k.id) = some j) (hk : k.asked = j.asked) :
    ((listUpd (fun x => x.id == k.id) (fun _ => k) l).map Job.asked).sum = (l.map Job.asked).sum := by
  induction l with
  | nil => cases hj
  | cons x l ih =>
    unfold listUpd
    cases hx : x.id == k.id with
    | true =>
      have hxj : x = j := by simpa [List.find?_cons, hx] using hj
      simp [hxj, hk]
    | false =>
      rw [List.find?_cons, hx] at hj
      simp [ih hj]
/-- Reads that go out join what was sent. -/
theorem foldl_emit_reads (l : List (DWord × Nat)) (s : State) :
    (l.foldl (fun s p => emit (.read p.1 p.2) s) s).host.out = s.host.out ++ l.map (fun p => Out.read p.1 p.2) ∧
    l.foldl (fun s p => emit (.read p.1 p.2) s) s = { s with host := (l.foldl (fun s p => emit (.read p.1 p.2) s) s).host } := by
  induction l generalizing s with
  | nil => simp
  | cons p l ih =>
    obtain ⟨hout, hrest⟩ := ih (emit (.read p.1 p.2) s)
    rw [List.foldl_cons]
    refine ⟨by rw [hout]; simp [emit], ?_⟩
    rw [hrest]
    rfl
/-- A WRITE asks for its data as far as tags are free (R121, R169). -/
theorem askData_asks {s : State} {j : Job} (hj : s.job j.id = some j) :
    let ask := j.segs.flatMap (fun p => s.requestsFor p.1 p.2)
    let n := s.tagLimit - s.readsOut
    (askData j s).job j.id = some { j with
      phase := .needData, since := s.clk.beat, asked := j.asked + (ask.take n).length, toAsk := ask.drop n } ∧
    (askData j s).host.out = s.host.out ++ (ask.take n).map (fun p => Out.read p.1 p.2) ∧
    askData j s = { s with ring := (askData j s).ring, host := (askData j s).host } := by
  intro ask n
  generalize hk : ({ j with phase := .needData, since := s.clk.beat, toAsk := ask } : Job) = k
  have hid : k.id = j.id := by subst hk; rfl
  have hout : (s.setJob k).readsOut = s.readsOut := by
    unfold State.readsOut
    exact congrArg _ (asked_listUpd (j := j) (hid.symm ▸ hj) (by subst hk; rfl))
  have hn : (s.setJob k).tagLimit - (s.setJob k).readsOut = n := by rw [hout]; rfl
  have hfound : (s.setJob k).job j.id = some k := hid ▸ job_setJob (k := k) (hid.symm ▸ hj)
  have hask : askData j s = askNext k (s.setJob k) := by subst hk; rfl
  have hk2 : k.toAsk = ask := by subst hk; rfl
  have hjob := job_setJob (s := s.setJob k) (k := { k with asked := k.asked + (ask.take n).length, toAsk := ask.drop n })
    (hid.symm ▸ hfound)
  rw [hask, askNext, hn, hk2]
  obtain ⟨hout, hrest⟩ := foldl_emit_reads (ask.take n)
    ((s.setJob k).setJob { k with asked := k.asked + (ask.take n).length, toAsk := ask.drop n })
  refine ⟨?_, hout, ?_⟩
  · rw [hrest]
    subst hk
    exact hjob
  · rw [hrest]
    rfl

/-- The COMMIT of TRIM records its blocks as unwritten (R170). -/
theorem entryEffect_trim {i : Intent} {w : WardId} (hc : i.ctx = .ward w) (hop : i.op = 0x03) (he : i.effect = .entry) (v : State) :
    applyEffect i v = v.updWard w (fun x => { x with trims := (i.block, i.count) :: x.trims }) := by
  unfold applyEffect
  rw [he]
  unfold entryEffect
  simp only [hc, hop, if_true]
/-- A change of a ward that leaves its rings keeps the rings of every context. -/
theorem keepsRings_updWard {v : State} (hv : Sound v) (c : Ctx) (w : WardId) {f : Ward → Ward}
    (hf : ∀ x, (f x).ring = x.ring ∧ (f x).configured = x.configured) : KeepsRings c v (v.updWard w f) := by
  cases c with
  | admin => exact ⟨rfl, rfl, rfl, rfl⟩
  | ward u =>
    have h : ((v.updWard w f).ward u).ring = (v.ward u).ring ∧ ((v.updWard w f).ward u).configured = (v.ward u).configured := by
      rcases eq_or_ne u w with rfl | hu
      · rw [ward_updWard_self hv]; exact hf _
      · rw [ward_updWard_ne hv hu]; exact ⟨rfl, rfl⟩
    exact ⟨rfl, h.2, h.1, rfl⟩
/-- The COMMIT of TRIM (R157, R170, R240). -/
theorem commit_trim {i : Intent} {j : Job} {s : State} {w : WardId} (hs : Sound s) (h : CommitDue i j s) (hc : i.ctx = .ward w)
    (hop : i.op = 0x03) (he : i.effect = .entry) :
    ∃ t, exec (.ledgerRound [] none) s = .next t ∧ Completed j 0 i.detail s t ∧
      (t.ward w).trims = (i.block, i.count) :: (s.ward w).trims ∧
      (t.ward w).high = (if (s.ward w).high < i.number then i.number else (s.ward w).high) ∧
      (t.ward w).epoch = (s.ward w).epoch ∧ (t.ward w).block = (s.ward w).block ∧ ∀ u, u ≠ w → t.ward u = s.ward u := by
  obtain ⟨v, t, ht⟩ := exec_commit hs h fun v hv => by
    rw [entryEffect_trim hc hop he]
    exact keepsRings_updWard hv.sound _ _ fun _ => ⟨rfl, rfl⟩
  have hv := ht.begins
  have hw : (applyEffect i v).ward w = { v.ward w with trims := (i.block, i.count) :: (v.ward w).trims } := by
    rw [entryEffect_trim hc hop he, ward_updWard_self hv.sound]
  rw [hv.ward_self hs h hc] at hw
  refine ⟨t, ht.run, ht.completed, ?_, ?_, ?_, ?_, fun u hu => ?_⟩
  · rw [ht.ward, hw]
  · rw [ht.ward, hw]
  · rw [ht.ward, hw]
  · rw [ht.ward, hw]
  · have hcu : i.ctx ≠ .ward u := hc ▸ fun e => hu (Ctx.ward.inj e).symm
    rw [ht.ward_ne h hcu, entryEffect_trim hc hop he, ward_updWard_ne hv.sound hu, hv.ward_ne hs h hcu]

/-- Past the end of the block space nothing is written (R53). -/
theorem writeBar_past_end {w : WardId} {j : Job} {s : State} (h : 16 * (s.ward w).block.units < j.range.2.1 + j.range.2.2) :
    writeBar w j s = some 0x24 := by
  unfold writeBar
  exact if_pos (.inr h)

/-- Settles O39: each row is its command's own work, and TRIM's COMMIT changes its ward's trims and high mark. -/
theorem wardWrites : Obligations.WardWrites := by
  unfold Obligations.WardWrites
  intro s id w j hs
  refine ⟨fun h hb => ?_, fun h hb => ?_, fun h hb ho => ?_, fun i h hc hop he => commit_trim hs h hc hop he,
    fun st hb => ⟨fun h => ?_, fun h => ?_⟩, writeBar_past_end⟩
  · obtain ⟨hid, hj, -, -⟩ := id_of_jobFor h.job
    have hrun : exec (.write id) s = .next (askData j s) := by
      refine congrArg Host.Outcome.next ((runWard_begins h (.inl rfl) _).trans ?_)
      unfold writeCmd
      simp only [hb, h.phase]
      rfl
    exact ⟨_, hrun, hid ▸ askData_asks hj⟩
  · obtain ⟨hid, hj, -, -⟩ := id_of_jobFor h.job
    have hrun : exec (.write id) s = .next (refreshCap (s.setJob { j with phase := .intake, since := s.clk.beat })) := by
      refine congrArg Host.Outcome.next ((runWard_begins h (.inr rfl) _).trans ?_)
      unfold writeCmd
      simp only [hb, h.phase]
      rfl
    have hring (u : State) : (refreshCap u).ring = u.ring := by simp
    refine ⟨_, hrun, ?_, by apply State.eq_of <;> simp⟩
    have := job_setJob (k := { j with phase := .intake, since := s.clk.beat }) hj
    unfold State.job at this ⊢
    rw [hring, ← hid]
    exact this
  · obtain ⟨-, hj, -, -⟩ := id_of_jobFor h.job
    have hrun : exec (.trim id) s = .next (journal .journal j .entry 0 s) := by
      refine congrArg Host.Outcome.next ((runWard_begins h (.inl rfl) _).trans ?_)
      unfold trimCmd
      rw [hb]
    exact ⟨_, hrun, journal_journaled ho hj _ _⟩
  · have hrun : exec (.write id) s = .next (finish j st 0 0 s) := by
      refine congrArg Host.Outcome.next ((runWard_begins h (.inl rfl) _).trans ?_)
      unfold writeCmd
      rw [hb]
    exact ⟨_, hrun, finish_completed j st 0 hs⟩
  · have hrun : exec (.trim id) s = .next (finish j st 0 0 s) := by
      refine congrArg Host.Outcome.next ((runWard_begins h (.inl rfl) _).trans ?_)
      unfold trimCmd
      rw [hb]
    obtain ⟨r, n, x, f, hw⟩ := finish_ward hs j st 0 0 w
    exact ⟨_, hrun, finish_completed j st 0 hs, by rw [hw]⟩
end Sys2Proof.Machine

/-! ## OPEN_WARD, SEAL_WARD and SET_CREDENTIAL (O40) -/

namespace Sys2Proof.Machine

/-- A fault of a SEALED or OPEN ward keeps the rings of every context. -/
theorem keepsRings_faultWard {v : State} (hv : Sound v) (c : Ctx) {w : WardId} (k : BitVec 2)
    (h : (v.ward w).state = .sealed ∨ (v.ward w).state = .opened) : KeepsRings c v (faultWard w k v) := by
  have hr : (faultWard w k v).ring = v.ring := by simp
  have hd : (faultWard w k v).dmaOpen = v.dmaOpen := by simp [State.dmaOpen, State.awake]
  cases c with
  | admin => exact ⟨by rw [hr], by simp only [State.ringUp, hr], by simp only [State.ringOf, hr], hd⟩
  | ward u =>
    have hu : ((faultWard w k v).ward u).ring = (v.ward u).ring ∧
        ((faultWard w k v).ward u).configured = (v.ward u).configured := by
      rcases eq_or_ne u w with rfl | hu
      · rw [faultWard_self hv u k h]; exact ⟨rfl, rfl⟩
      · rw [faultWard_ne hv hu]; exact ⟨rfl, rfl⟩
    exact ⟨by rw [hr], hu.2, hu.1, hd⟩
/-- A completion on a state that keeps the rings and the beat. -/
theorem finish_completed_of_keeps {j : Job} {st d : Nat} {s u : State} (hu : Sound u) (hk : KeepsRings j.ctx s u)
    (hb : u.clk.beat = s.clk.beat) : Completed j st d s (finish j st 0 d u) :=
  finish_completed_of hu hk.jobs hk.up hk.dma (fun _ => hk.rings) hb

/-- A job of ward `w` completes, between `s` and `t`, with a status that does not count as malformed, after its work has changed
this ward alone, to `x` but for its rings. -/
structure WardDone (w : WardId) (j : Job) (st d : Nat) (x : Ward) (s t : State) : Prop where
  completed : Completed j st d s t
  ward : t.ward w = { x with ring := (t.ward w).ring }
  others : ∀ u, u ≠ w → t.ward u = s.ward u
/-- A ward job's work `u` that changes its ward alone, and its completion. -/
theorem finish_wardDone {w : WardId} {j : Job} {st d : Nat} {s u : State} (hu : Sound u) (hj : j.ctx = .ward w)
    (hst : countsMalformed st = false) (hk : KeepsRings (.ward w) s u) (hb : u.clk.beat = s.clk.beat)
    (ho : ∀ v, v ≠ w → u.ward v = s.ward v) : WardDone w j st d (u.ward w) s (finish j st 0 d u) where
  completed := finish_completed_of_keeps hu (hj ▸ hk) hb
  ward := finish_ward_of hu hst ..
  others v hv := (finish_ward_ne hu (hj ▸ fun e => hv (Ctx.ward.inj e).symm) ..).trans (ho v hv)
/-- The work of a ward job changes its ward by `f`, and the job completes. -/
theorem finish_updWard_done {w : WardId} {j : Job} {st d : Nat} {s : State} (hs : Sound s) (hj : j.ctx = .ward w)
    (hst : countsMalformed st = false) {f : Ward → Ward} (hf : ∀ x, (f x).ring = x.ring ∧ (f x).configured = x.configured) :
    WardDone w j st d (f (s.ward w)) s (finish j st 0 d (s.updWard w f)) :=
  ward_updWard_self hs w f ▸ finish_wardDone ((State_updWard_keeps ..).1 hs) hj hst (keepsRings_updWard hs _ w hf) rfl
    fun _ hv => ward_updWard_ne hs hv f
/-- The work of a ward job faults its ward, and the job completes. -/
theorem finish_faultWard_done {w : WardId} {j : Job} {st d : Nat} {s : State} (hs : Sound s) (hj : j.ctx = .ward w)
    (hst : countsMalformed st = false) (c : BitVec 2) (h : (s.ward w).state = .sealed ∨ (s.ward w).state = .opened) :
    WardDone w j st d { s.ward w with state := .faulted, lastFault := c } s (finish j st 0 d (faultWard w c s)) :=
  faultWard_self hs w c h ▸ finish_wardDone ((faultWard_keeps ..).1 hs) hj hst (keepsRings_faultWard hs _ c h) (by simp)
    fun _ hv => faultWard_ne hs hv c

/-- OPEN_WARD of a SEALED ward runs on its slot and its credential. -/
theorem exec_openWard_sealed {s : State} {id : Nat} {w : WardId} {j : Job} (h : WardBegins id 0x04 w .ready j s)
    (hst : (s.ward w).state = .sealed) (intact : Bool) : exec (.openWard id intact) s = .next (
      if !intact then slotBad w j s
      else if wardMac s w (s.ward w).epoch j.cred = (s.ward w).verifier then
        finish j 0x00 0 0 (s.updWard w fun x => { x with state := .opened, fails := 0 })
      else finish j 0x30 0 ((s.ward w).fails + 1) (wardLockout w (s.updWard w fun x => { x with fails := x.fails + 1 }))) := by
  refine congrArg Host.Outcome.next ((runWard_begins h (.inl rfl) _).trans ?_)
  unfold openCmd
  dsimp only
  split
  · next ho => rw [hst] at ho; cases ho
  · rfl
  · next hns => exact absurd hst hns
/-- A failed credential counts, and the eighth faults the ward (R50, R56, R57). -/
theorem openWard_fails {s : State} (hs : Sound s) {w : WardId} {j : Job} (hj : j.ctx = .ward w) (hst : (s.ward w).state = .sealed) :
    ∃ x : Ward, WardDone w j 0x30 ((s.ward w).fails + 1) x s
        (finish j 0x30 0 ((s.ward w).fails + 1) (wardLockout w (s.updWard w fun x => { x with fails := x.fails + 1 }))) ∧
      x.fails = (s.ward w).fails + 1 ∧ x.state = (if 8 ≤ (s.ward w).fails + 1 then .faulted else .sealed) ∧
      (8 ≤ (s.ward w).fails + 1 → x.lastFault = 3) := by
  have hu : Sound (s.updWard w fun x => { x with fails := x.fails + 1 }) := (State_updWard_keeps ..).1 hs
  have hk := keepsRings_updWard hs (.ward w) w (f := fun x => { x with fails := x.fails + 1 }) fun _ => ⟨rfl, rfl⟩
  have hward := ward_updWard_self hs w fun x => { x with fails := x.fails + 1 }
  have hothers := fun v (hv : v ≠ w) => ward_updWard_ne hs hv fun x => { x with fails := x.fails + 1 }
  have hbeat : (s.updWard w fun x => { x with fails := x.fails + 1 }).clk.beat = s.clk.beat := rfl
  generalize s.updWard w (fun x => { x with fails := x.fails + 1 }) = u at hu hk hward hothers hbeat ⊢
  unfold wardLockout
  rw [hward]
  by_cases h8 : 8 ≤ (s.ward w).fails + 1
  · have hst' : (u.ward w).state = .sealed ∨ (u.ward w).state = .opened := by rw [hward]; exact .inl hst
    refine ⟨(faultWard w 3 u).ward w, ?_, ?_⟩
    · rw [if_pos h8]
      exact finish_wardDone ((faultWard_keeps ..).1 hu) hj rfl (hk.trans (keepsRings_faultWard hu _ 3 hst')) (by simp [hbeat])
        fun v hv => (faultWard_ne hu hv 3).trans (hothers v hv)
    · rw [faultWard_self hu w 3 hst', hward]
      simp [h8]
  · rw [if_neg h8]
    exact ⟨_, finish_wardDone hu hj rfl hk hbeat hothers, by simp [hward, h8, hst]⟩

/-- The COMMIT of SET_CREDENTIAL (R57, R78, R240). -/
theorem commit_verifier {i : Intent} {j : Job} {s : State} {w : WardId} {v : BitVec 256} (hs : Sound s) (h : CommitDue i j s)
    (hc : i.ctx = .ward w) (he : i.effect = .verifier w v) :
    ∃ t, exec (.ledgerRound [] none) s = .next t ∧ Completed j 0 i.detail s t ∧
      (t.ward w).verifier = v ∧ (t.ward w).enrol = false ∧ (t.ward w).fails = (s.ward w).fails ∧
      (t.ward w).state = (s.ward w).state ∧ ∀ u, u ≠ w → t.ward u = s.ward u := by
  have heff (y : State) : applyEffect i y = y.updWard w fun x => { x with verifier := v, enrol := false } := by
    unfold applyEffect
    rw [he]
  obtain ⟨y, t, ht⟩ := exec_commit hs h fun y hy => by
    rw [heff]
    exact keepsRings_updWard hy.sound _ _ fun _ => ⟨rfl, rfl⟩
  have hy := ht.begins
  have hw : (applyEffect i y).ward w = { y.ward w with verifier := v, enrol := false } := by
    rw [heff, ward_updWard_self hy.sound]
  rw [hy.ward_self hs h hc] at hw
  refine ⟨t, ht.run, ht.completed, ?_, ?_, ?_, ?_, fun u hu => ?_⟩
  · rw [ht.ward, hw]
  · rw [ht.ward, hw]
  · rw [ht.ward, hw]
  · rw [ht.ward, hw]
  · have hcu : i.ctx ≠ .ward u := hc ▸ fun e => hu (Ctx.ward.inj e).symm
    rw [ht.ward_ne h hcu, heff, ward_updWard_ne hy.sound hu, hy.ward_ne hs h hcu]

/-- Settles O40: each row's work changes its ward alone, and the COMMIT of SET_CREDENTIAL its verifier and ENROL. -/
theorem wardCredentials : Obligations.WardCredentials := by
  unfold Obligations.WardCredentials
  intro s id w j hs
  refine ⟨fun h hst => ⟨fun hm => ?_, fun hm => ?_, ?_⟩, fun h hst => ?_, fun h hc ho => ?_,
    fun i v h hc he => commit_verifier hs h hc he, fun h hc => ?_⟩
  · have hrun := exec_openWard_sealed h hst true
    rw [if_neg (by simp), if_pos hm] at hrun
    have hd := finish_updWard_done (st := 0) (d := 0) hs h.ctx rfl (f := fun x => { x with state := .opened, fails := 0 })
      fun _ => ⟨rfl, rfl⟩
    exact ⟨_, hrun, hd.completed, by rw [hd.ward], by rw [hd.ward], hd.others⟩
  · have hrun := exec_openWard_sealed h hst true
    rw [if_neg (by simp), if_neg hm] at hrun
    obtain ⟨x, hd, hfails, hstate, hcause⟩ := openWard_fails hs h.ctx hst
    exact ⟨_, hrun, hd.completed, by rw [hd.ward, hfails], by rw [hd.ward, hstate], fun h8 => by rw [hd.ward, hcause h8],
      hd.others⟩
  · have hd := finish_faultWard_done (st := 0x31) (d := 0) hs h.ctx rfl 1 (.inl hst)
    have hrun := exec_openWard_sealed h hst false
    rw [if_pos (by simp), slotBad] at hrun
    exact ⟨_, hrun, hd.completed, by rw [hd.ward], by rw [hd.ward], hd.others⟩
  · have hrun : exec (.sealWard id) s = .next (finish j 0 0 0 (s.updWard w fun x => { x with state := .sealed })) :=
      congrArg Host.Outcome.next ((runWard_begins h (.inl rfl) _).trans (if_pos hst))
    have hd := finish_updWard_done (st := 0) (d := 0) hs h.ctx rfl (f := fun x => { x with state := .sealed })
      fun _ => ⟨rfl, rfl⟩
    exact ⟨_, hrun, hd.completed, by rw [hd.ward], hd.others⟩
  · obtain ⟨-, hj, -, -⟩ := id_of_jobFor h.job
    have hrun : exec (.setCredential id true) s =
        .next (journal .journal j (.verifier w (wardMac s w (s.ward w).epoch j.cred)) 0 s) := by
      refine congrArg Host.Outcome.next ((runWard_begins h (.inl rfl) _).trans ?_)
      unfold credCmd
      rw [hc]
      rfl
    exact ⟨_, hrun, journal_journaled ho hj _ _⟩
  · have hrun : exec (.setCredential id true) s = .next (finish j 0x21 0 0x20 s) :=
      congrArg Host.Outcome.next ((runWard_begins h (.inl rfl) _).trans (if_pos hc))
    obtain ⟨r, n, x, f, hw⟩ := finish_ward hs j 0x21 0 0x20 w
    exact ⟨_, hrun, finish_completed j 0x21 0x20 hs, by rw [hw]⟩

end Sys2Proof.Machine

/-! ## READ and WARD_INFO (O38) -/

namespace Sys2Proof.Machine

/-! What a Ledger record that fails its tag leaves set (R84, R246). -/

@[simp] theorem toPort_tagFail (l : List (PortItem × Nat)) (s : State) : (toPort l s).ledger.tagFail = s.ledger.tagFail := by
  unfold toPort; split <;> rfl
@[simp] theorem addMark_tagFail (k : MarkKind) (s : State) : (addMark k s).ledger.tagFail = s.ledger.tagFail := by
  simp [addMark]
@[simp] theorem dropGate_tagFail (c : CellId) (s : State) : (dropGate c s).ledger.tagFail = s.ledger.tagFail := by
  unfold dropGate
  dsimp only
  (repeat' split) <;> simp
@[simp] theorem endAndPark_tagFail (due : DWord) (c : CellId) (s : State) :
    (endAndPark due c s).ledger.tagFail = s.ledger.tagFail := by
  unfold endAndPark
  split <;> simp
/-- The write gates that end at Safe Hold leave the flag of a failed tag. -/
theorem endAll_tagFail (l : List CellId) (s : State) :
    (l.foldl (fun s c => endAndPark (s.clk.beat + 5000) c s) s).ledger.tagFail = s.ledger.tagFail := by
  induction l generalizing s with
  | nil => rfl
  | cons c l ih => rw [List.foldl_cons, ih, endAndPark_tagFail]
/-- Safe Hold leaves the flag of a failed tag. -/
theorem safeHold_tagFail (cause : BitVec 7) (s : State) : (safeHold cause s).ledger.tagFail = s.ledger.tagFail := by
  have hlog (c i a b : Nat) (u : State) : (logEvent c i a b u).ledger = u.ledger := by simp
  have hdrop (u : State) : (dropMedia u).ledger = u.ledger := by simp
  have hfin (f : Job → Bool) (st : Nat) (u : State) : (finishWhere f st u).ledger = u.ledger := by simp
  have hup (u : State) : (bringUpAll u).ledger = u.ledger := by simp
  have hwins (u : State) : (holdWins u).ledger = u.ledger := by simp
  unfold safeHold
  dsimp only
  rw [hlog, hdrop, hfin, hup, endAll_tagFail]
  exact congrArg (·.tagFail) (hwins s)
/-- A record read that fails its tag brings Safe Hold with LEDGER_FAIL (R84, R246, R349). -/
theorem tagFails_holds (slot : Nat) (s : State) :
    (tagFails slot s).ledger.tagFail = true ∧ (tagFails slot s).pwr.mode = .safeHold ∧
    (tagFails slot s).pwr.holdCause.getLsbD 2 = true := by
  obtain ⟨hmode, hcause⟩ := safeHold_pwr 0x04 (logEvent 0x0602 0 0 slot (mark 0x10000 8 { s with
    ledger := { s.ledger with tagFail := true } }))
  refine ⟨(safeHold_tagFail ..).trans (by simp), hmode, ?_⟩
  unfold tagFails
  rw [hcause]
  simp

/-! Data for the host and the completion behind it (R119, R121, R136). -/

/-- Data that is written changes of the state what was sent and the link's idleness alone. -/
theorem foldl_emit_data (l : List (DWord × Bytes)) (r : Bool) (s : State) :
    ∃ o b, l.foldl (fun t p => emit (.data p.1 p.2 r) t) s = { s with host := { s.host with out := o, inL1 := b } } := by
  induction l generalizing s with
  | nil => exact ⟨s.host.out, s.host.inL1, rfl⟩
  | cons p l ih =>
    obtain ⟨o, b, h⟩ := ih (emit (.data p.1 p.2 r) s)
    exact ⟨o, b, by rw [List.foldl_cons, h]; rfl⟩
/-- Data goes out or is held, and nothing else changes. -/
theorem send_data_changes (a : DWord) (d : Bytes) (s : State) :
    ∃ o h b, send (.data a d) s = { s with host := { s.host with out := o, held := h, inL1 := b } } := by
  unfold send
  split
  · obtain ⟨o, b, h⟩ := foldl_emit_data (pieces s.maxPayload (d.length / s.maxPayload + 2) a d) s.relaxed s
    exact ⟨o, s.host.held, b, h⟩
  · exact ⟨s.host.out, _, s.host.inL1, rfl⟩
/-- A completion entry leaves what was sent and held before it. -/
theorem send_entry_keeps (e : Entry) (s : State) :
    (∀ o ∈ s.host.out, o ∈ (send (.entry e) s).host.out) ∧ (∀ h ∈ s.host.held, h ∈ (send (.entry e) s).host.held) := by
  unfold send
  split
  · refine ⟨fun o ho => fireVector_out _ _ ?_, fun h hh => ?_⟩
    · unfold putOut
      rw [joinPend_out]
      exact List.mem_append_left _ ho
    · rw [fireVector_held]
      unfold putOut
      rw [joinPend_held]
      exact hh
  · exact ⟨fun _ ho => ho, fun _ hh => List.mem_append_left _ hh⟩
/-- A job's completion leaves what was sent and held before it. -/
theorem finish_keeps_output (j : Job) (st or d : Nat) (s : State) :
    (∀ o ∈ s.host.out, o ∈ (finish j st or d s).host.out) ∧ (∀ h ∈ s.host.held, h ∈ (finish j st or d s).host.held) := by
  have ha (t : State) : (applyWhenClear t).host = t.host := by simp
  unfold finish postCompletion
  rw [ha]
  split
  · dsimp only
    rw [countMalformed_host]
    generalize hu : (if st = 16 then _ else _) = u
    have hhost : u.host = s.host := by
      subst hu
      (repeat' split) <;> simp
    rw [← hhost]
    exact send_entry_keeps _ u
  · exact ⟨fun _ ho => ho, fun _ hh => hh⟩

/-- Between `s` and `u` only the job `id`, and what neither output nor completions read, has changed. -/
structure OutputReady (id : Nat) (s u : State) : Prop where
  sound : Sound u
  jobs : listDrop (fun x => x.id == id) u.ring.jobs = listDrop (fun x => x.id == id) s.ring.jobs
  rings : u.ring.admin = s.ring.admin ∧ u.ring.placed = s.ring.placed
  wards : u.wards = s.wards
  host : u.host = s.host
  pwr : u.pwr = s.pwr
  clk : u.clk = s.clk
theorem OutputReady.refl {s : State} (hs : Sound s) (id : Nat) : OutputReady id s s :=
  ⟨hs, rfl, ⟨rfl, rfl⟩, rfl, rfl, rfl, rfl⟩

/-- The data of a command with one segment goes to it, and the command completes. -/
theorem finish_scatter {j : Job} {s u : State} (h : OutputReady j.id s u) {a : DWord} {n : Nat} (hseg : j.segs = [(a, n)])
    {d : Bytes} (hd : d ≠ []) (st dt : Nat) :
    Completed j st dt s (finish j st 0 dt (scatter j.segs d u)) ∧
    DataSent a (d.take n) s (finish j st 0 dt (scatter j.segs d u)) := by
  have hsc : scatter j.segs d u = send (.data a (d.take n)) u := by
    rw [hseg, scatter, if_neg hd]
    rfl
  rw [hsc]
  have hopen : u.dmaOpen = s.dmaOpen := by simp only [State.dmaOpen, State.awake, h.host, h.pwr]
  obtain ⟨o, hl, b, hsend⟩ := send_data_changes a (d.take n) u
  have hsound : Sound (send (.data a (d.take n)) u) := by have := (scatter_keeps j.segs d u).1 h.sound; rwa [hsc] at this
  have hup : (send (.data a (d.take n)) u).ringUp j.ctx = s.ringUp j.ctx := by
    rw [hsend]
    cases j.ctx with
    | admin => exact h.rings.2
    | ward w => simp only [State.ringUp, State.ward, h.wards]
  have hof : (send (.data a (d.take n)) u).ringOf j.ctx = s.ringOf j.ctx := by
    rw [hsend]
    cases j.ctx with
    | admin => exact h.rings.1
    | ward w => simp only [State.ringOf, State.ward, h.wards]
  have hdma : (send (.data a (d.take n)) u).dmaOpen = s.dmaOpen := by rw [← hopen, hsend]; rfl
  have hbeat : (send (.data a (d.take n)) u).clk = s.clk := by rw [hsend]; exact h.clk
  have hjobs : (send (.data a (d.take n)) u).ring = u.ring := by rw [hsend]
  have hkeep := finish_keeps_output j st 0 dt (send (.data a (d.take n)) u)
  have hdone := finish_completed j st dt hsound
  unfold Completed at hdone ⊢
  rw [hup, hof, hdma, hbeat, hjobs, h.jobs] at hdone
  refine ⟨hdone, fun ho p hp => hkeep.1 _ ?_, fun hc => hkeep.2 _ ?_⟩
  · rw [send_data (hopen.trans ho)]
    have hm : u.maxPayload = s.maxPayload := by simp only [State.maxPayload, h.host]
    have hr : u.relaxed = s.relaxed := by simp only [State.relaxed, h.host]
    rw [hm, hr]
    exact List.mem_append_right _ (List.mem_map.2 ⟨p, hp, rfl⟩)
  · rw [send_shut (hopen.trans hc)]
    exact List.mem_append_right _ List.mem_cons_self

/-! The READ. -/

/-- A READ within its space, with room in the host read buffer and the cache of keys ready, looks its key up (R168, R226). -/
theorem exec_read_within {s : State} {id : Nat} {w : WardId} {j : Job} {space first count : Nat}
    (h : WardBegins id 0x01 w .ready j s) (hr : j.range = (space, first, count))
    (hend : first + count ≤ readEnd (s.ward w) space) (hroom : s.readBlocks + count ≤ 512) (hk : s.kccReady = true)
    (tf : Option Nat) : exec (.read id tf) s = .next (
      match (kccLookup w s).1, tf with
      | none, _ => (kccLookup w s).2.setJob { j with phase := .needKey }
      | some k, none => beginRead w k j (kccLookup w s).2
      | some k, some slot =>
        if readsRecord w j slot (kccLookup w s).2 then tagFails slot (kccLookup w s).2
        else beginRead w k j (kccLookup w s).2) := by
  refine congrArg Host.Outcome.next ((runWard_begins h (.inl rfl) _).trans ?_)
  unfold readCmd
  rw [hr]
  dsimp only
  rw [if_neg (by omega), if_neg (by omega), hk]
  rfl
/-- Without its ward's key a lookup is a miss, queued once (R227). -/
theorem kccLookup_miss {s : State} {w : WardId} (hk : s.kccReady = true) (h : s.kccEntry w = none) :
    (kccLookup w s).1 = none ∧ w ∈ (kccLookup w s).2.kcc.misses := by
  unfold kccLookup
  rw [hk, h]
  dsimp only
  simp only [Bool.not_true, Bool.false_eq_true, if_false]
  split
  · next hc => exact ⟨rfl, by simpa using hc⟩
  · exact ⟨rfl, List.mem_append_right _ List.mem_cons_self⟩
/-- With its ward's key a lookup gives it, and changes the cache of keys and the counters alone (R226). -/
theorem kccLookup_hit {s : State} {w : WardId} {k : KccEntry} (hk : s.kccReady = true) (h : s.kccEntry w = some k) :
    (kccLookup w s).1 = some k.keys ∧ ∃ c o, (kccLookup w s).2 = { s with kcc := c, obs := o } := by
  unfold kccLookup
  rw [hk, h]
  exact ⟨rfl, _, _, rfl⟩

theorem fit_ne_nil {n : Nat} (hn : n ≠ 0) (b : Bytes) : fit n b ≠ [] := by
  intro h
  have := congrArg List.length h
  simp [fit, zeros] at this
  omega
/-- What a READ knows of a block as it begins: zeros, its 4 KiB, that it is lost, or that it must be read (R63, R168). -/
theorem firstLook_cases (w : WardId) (space b : Nat) (keys : BitVec 512) (s : State) :
    firstLook w space b keys s = .zero ∨ (∃ d : Bytes, d ≠ [] ∧ firstLook w space b keys s = .plain d) ∨
    firstLook w space b keys s = .unrecoverable ∨ firstLook w space b keys s = .wait := by
  unfold firstLook
  split
  · exact .inl rfl
  · split
    · exact .inl rfl
    · split
      · next x _ =>
        unfold plainOf
        split
        · refine .inr (.inl ⟨_, ?_, rfl⟩)
          exact fit_ne_nil (by decide) _
        · exact .inl rfl
      · dsimp only
        split
        · exact .inr (.inr (.inl rfl))
        · exact .inr (.inr (.inr rfl))
/-- The blocks of a READ that are all known on die. -/
def KnownOnDie (l : List BlkRes) : Prop :=
  ∀ b ∈ l, b = .zero ∨ (∃ d : Bytes, d ≠ [] ∧ b = .plain d) ∨ b = .unrecoverable
theorem knownOnDie_looks {w : WardId} {space first count : Nat} {keys : BitVec 512} {s : State}
    (h : ∀ b ∈ (List.range count).map (fun i => firstLook w space (first + i) keys s), b.waits = false) :
    KnownOnDie ((List.range count).map (fun i => firstLook w space (first + i) keys s)) := by
  intro b hb
  obtain ⟨i, -, rfl⟩ := List.mem_map.1 hb
  obtain hz | hp | hu | hw := firstLook_cases w space (first + i) keys s
  · exact .inl hz
  · exact .inr (.inl hp)
  · exact .inr (.inr hu)
  · have := h _ hb
    rw [hw] at this
    cases this
/-- Known blocks have bytes. -/
theorem bytes_ne_nil {l : List BlkRes} (h : KnownOnDie l) (hl : l ≠ []) : l.flatMap BlkRes.bytes ≠ [] := by
  cases l with
  | nil => exact absurd rfl hl
  | cons b l =>
    have hb : b.bytes ≠ [] := by
      obtain rfl | ⟨d, hd, rfl⟩ | rfl := h b List.mem_cons_self
      · exact List.cons_ne_nil _ _
      · exact hd
      · exact List.cons_ne_nil _ _
    rw [List.flatMap_cons]
    exact fun he => hb (List.append_eq_nil_iff.1 he).1
/-- Known blocks came neither from parity nor from a retry, and none failed its check. -/
theorem counts_of_knownOnDie {l : List BlkRes} (h : KnownOnDie l) :
    parityCount l = 0 ∧ retryCount l = 0 ∧
    l.findIdx? (fun b => decide (b = .unrecoverable) || decide (b = .integrity)) =
      l.findIdx? (fun b => decide (b = .unrecoverable)) := by
  induction l with
  | nil => exact ⟨rfl, rfl, rfl⟩
  | cons b l ih =>
    obtain ⟨hp, hr, hi⟩ := ih fun x hx => h x (List.mem_cons_of_mem _ hx)
    have hfind (p : BlkRes → Bool) : (b :: l).findIdx? p = if p b then some 0 else (l.findIdx? p).map (· + 1) :=
      List.findIdx?_cons
    unfold parityCount retryCount at *
    obtain rfl | ⟨d, -, rfl⟩ | rfl := h b List.mem_cons_self
    · exact ⟨hp, hr, by simp [hfind, hi]⟩
    · exact ⟨hp, hr, by simp [hfind, hi]⟩
    · exact ⟨hp, hr, by simp [hfind]⟩
/-- A READ whose blocks are all on die or lost sends their bytes and completes, with the first lost block where there is one
(R168). -/
theorem endRead_known {j : Job} (h : KnownOnDie j.blks) (s : State) :
    (BlkRes.unrecoverable ∉ j.blks → endRead j s = finish j 0 0 0 (scatter j.segs (j.blks.flatMap BlkRes.bytes) s)) ∧
    (∀ i, j.blks.findIdx? (fun b => decide (b = .unrecoverable)) = some i →
      endRead j s = finish j 0x40 0 i (scatter j.segs (j.blks.flatMap BlkRes.bytes) s)) := by
  obtain ⟨hp, hr, hi⟩ := counts_of_knownOnDie h
  unfold endRead
  rw [hi]
  refine ⟨fun hu => ?_, fun i hs => ?_⟩
  · have hn : j.blks.findIdx? (fun b => decide (b = .unrecoverable)) = none := by
      rw [List.findIdx?_eq_none_iff]
      exact fun x hx => decide_eq_false fun e => hu (e ▸ hx)
    rw [hn, hp, hr]
    rfl
  · rw [hs]
    have hat : j.blks.getD i .wait ≠ .integrity := by
      rw [List.getD_eq_getElem?_getD]
      cases hb : j.blks[i]? with
      | none => exact nofun
      | some b => obtain rfl | ⟨d, -, rfl⟩ | rfl := h b (List.mem_of_getElem? hb) <;> exact nofun
    dsimp only
    rw [if_neg hat]
/-- A READ that finds all its blocks on die or lost ends at once, its hits counted. -/
theorem beginRead_known {s : State} {j : Job} {w : WardId} {space first count : Nat} {keys : BitVec 512} (hs : Sound s)
    (hj : s.job j.id = some j) (hr : j.range = (space, first, count))
    (h : ∀ b ∈ (List.range count).map (fun i => firstLook w space (first + i) keys s), b.waits = false) :
    ∃ u, OutputReady j.id s u ∧ beginRead w keys j s = endRead { j with
      phase := .media, blks := (List.range count).map (fun i => firstLook w space (first + i) keys s) } u := by
  generalize hl : (List.range count).map (fun i => firstLook w space (first + i) keys s) = looks at h ⊢
  generalize hk : ({ j with phase := .media, blks := looks } : Job) = k
  have hid : k.id = j.id := by subst hk; rfl
  have hblks : k.blks = looks := by subst hk; rfl
  have hring : (countHits w space first count s).ring = s.ring := by simp
  have hfound : ((countHits w space first count s).setJob k).job j.id = some k := by
    refine hid ▸ job_setJob (j := j) (k := k) ?_
    unfold State.job
    rw [hring, hid]
    exact hj
  refine ⟨(countHits w space first count s).setJob k, ⟨?_, ?_, ?_, ?_, ?_, ?_, ?_⟩, ?_⟩
  · exact (State_setJob_keeps ..).1 ((countHits_keeps ..).1 hs)
  · show listDrop _ (listUpd _ _ (countHits w space first count s).ring.jobs) = _
    rw [hring, hid]
    exact listDrop_listUpd _ _ (by simp [hid]) _
  · exact ⟨by simp [State.setJob], by simp [State.setJob]⟩
  · simp [State.setJob]
  · simp [State.setJob]
  · simp [State.setJob]
  · simp [State.setJob]
  · have hnone : looks.zipIdx.filter (fun p => decide (p.1 = .wait)) = [] := by
      rw [List.filter_eq_nil_iff]
      intro p hp
      have hw := h _ (List.fst_mem_of_mem_zipIdx hp)
      simp only [decide_eq_true_eq]
      intro he
      rw [he] at hw
      cases hw
    have hset : settleRead k ((countHits w space first count s).setJob k) =
        endRead k ((countHits w space first count s).setJob k) := by
      refine if_neg ?_
      rw [hblks, Bool.not_eq_true, List.any_eq_false]
      exact fun b hb => by rw [h b hb]; exact Bool.false_ne_true
    unfold beginRead
    rw [hr]
    dsimp only
    rw [hl, hk, hnone, List.foldl_nil, hfound]
    exact hset
/-- A READ that finds all its blocks on die or lost completes with their bytes, zeros for the others (R168). -/
theorem beginRead_completes {s u : State} {j : Job} {w : WardId} {space first count : Nat} {keys : BitVec 512} (hu : Sound u)
    (hus : ∃ c o, u = { s with kcc := c, obs := o }) (hj : s.job j.id = some j) (hr : j.range = (space, first, count))
    (hc : 0 < count) {a : DWord} {n : Nat} (hseg : j.segs = [(a, n)]) :
    let looks := (List.range count).map (fun i => firstLook w space (first + i) keys s)
    (∀ b ∈ looks, b.waits = false) →
    (BlkRes.unrecoverable ∉ looks →
      Completed j 0 0 s (beginRead w keys j u) ∧ DataSent a ((looks.flatMap BlkRes.bytes).take n) s (beginRead w keys j u)) ∧
    (∀ i, looks.findIdx? (fun b => decide (b = .unrecoverable)) = some i →
      Completed j 0x40 i s (beginRead w keys j u) ∧
        DataSent a ((looks.flatMap BlkRes.bytes).take n) s (beginRead w keys j u)) := by
  intro looks hw
  obtain ⟨c, o, rfl⟩ := hus
  have hlooks : (List.range count).map (fun i => firstLook w space (first + i) keys { s with kcc := c, obs := o }) = looks := rfl
  obtain ⟨v, hv, hbegin⟩ := beginRead_known (keys := keys) (w := w) hu hj hr (by rw [hlooks]; exact hw)
  rw [hlooks] at hbegin
  have hready : OutputReady j.id s v := ⟨hv.sound, hv.jobs, hv.rings, hv.wards, hv.host, hv.pwr, hv.clk⟩
  have hknown : KnownOnDie looks := knownOnDie_looks hw
  have hne : looks.flatMap BlkRes.bytes ≠ [] := by
    refine bytes_ne_nil hknown fun h0 => ?_
    have := congrArg List.length h0
    simp [looks] at this
    omega
  obtain ⟨hok, hlost⟩ := endRead_known (j := { j with phase := .media, blks := looks }) hknown v
  refine ⟨fun hn => ?_, fun i hi => ?_⟩
  · rw [hbegin, hok hn]
    exact finish_scatter hready hseg hne 0 0
  · rw [hbegin, hlost i hi]
    exact finish_scatter hready hseg hne 0x40 i

/-- Settles O38: a READ ends by where its blocks are, WARD_INFO with the ward's record. -/
theorem wardReads : Obligations.WardReads := by
  unfold Obligations.WardReads
  intro s id w j hs
  refine ⟨fun space first count h hr => ⟨fun hpast => ?_, fun hend hroom hk => ⟨fun hnone => ?_, fun k a n he hc hseg => ?_,
    fun k slot he hrec => ?_⟩⟩, fun a n h hseg => ?_⟩
  · have hrun : exec (.read id none) s = .next (finish j 0x24 0 0 s) := by
      refine congrArg Host.Outcome.next ((runWard_begins h (.inl rfl) _).trans ?_)
      unfold readCmd
      rw [hr]
      exact if_pos hpast
    exact ⟨_, hrun, finish_completed j 0x24 0 hs⟩
  · obtain ⟨hid, hj, -, -⟩ := id_of_jobFor h.job
    obtain ⟨hmiss, hqueued⟩ := kccLookup_miss (w := w) hk hnone
    have hrun := exec_read_within h hr hend hroom hk none
    rw [hmiss] at hrun
    refine ⟨_, hrun, ?_, hqueued⟩
    have hring : (kccLookup w s).2.ring = s.ring := by simp
    have hfound : (kccLookup w s).2.job j.id = some j := by unfold State.job; rw [hring]; exact hj
    exact hid ▸ job_setJob (k := { j with phase := .needKey }) hfound
  · intro looks hw
    obtain ⟨-, hj, -, -⟩ := id_of_jobFor h.job
    obtain ⟨hkey, hsame⟩ := kccLookup_hit hk he
    have hrun := exec_read_within h hr hend hroom hk none
    rw [hkey] at hrun
    obtain ⟨hok, hlost⟩ := beginRead_completes (keys := k.keys) (w := w) ((kccLookup_keeps w s).1 hs) hsame hj hr hc hseg hw
    exact ⟨fun hn => ⟨_, hrun, hok hn⟩, fun i hi => ⟨_, hrun, hlost i hi⟩⟩
  · obtain ⟨hkey, c, o, hsame⟩ := kccLookup_hit hk he
    have hrun := exec_read_within h hr hend hroom hk (some slot)
    have hrec' : readsRecord w j slot (kccLookup w s).2 = true := by rw [hsame]; exact hrec
    rw [hkey] at hrun
    dsimp only at hrun
    rw [if_pos hrec'] at hrun
    exact ⟨_, hrun, tagFails_holds slot _⟩
  · have hrun : exec (.wardInfo id) s = .next (finish j 0 0 0 (scatter j.segs (wardRecord w s) s)) :=
      congrArg Host.Outcome.next (runWard_begins h (.inl rfl) _)
    exact ⟨_, hrun, finish_scatter (.refl hs j.id) hseg (List.cons_ne_nil _ _) 0 0⟩

end Sys2Proof.Machine

/-! ## Extents, rings, schedule and flush of a ward (O45) -/

namespace Sys2Proof.Machine

/-- A command on a ward with a key does its own work (R180). -/
theorem withKey_live {f : WardId → Job → State → State} {j : Job} {s : State}
    (h : (s.ward j.named).state = .sealed ∨ (s.ward j.named).state = .opened ∨ (s.ward j.named).state = .faulted) :
    withKey f j s = f j.named j s := by
  unfold withKey
  rcases h with h | h | h <;> rw [h]
/-- The cap's flags change nothing that intake reads. -/
theorem refreshCap_eq (s : State) : ∃ a o, refreshCap s = { s with ledger := { s.ledger with atCap := a, owed := o } } := by
  unfold refreshCap
  split
  · exact ⟨_, _, rfl⟩
  · split <;> exact ⟨_, _, rfl⟩

/-! A flush of an empty queue. -/

/-- With no intent gone, every item stays at the port. -/
theorem dropItems_none (l : List (PortItem × Nat)) :
    dropItems (fun n => ([] : List Intent).any (fun i => i.serial == n)) l = l := by
  unfold dropItems
  rw [List.filter_eq_self]
  intro p _
  split <;> rfl
/-- Where no intent is picked, abandoning leaves the state. -/
theorem abandonIntents_of_none {s : State} (h : LedgerOpen s) {f : Intent → Bool} (hf : ∀ i ∈ s.ledger.intents, f i = false) :
    abandonIntents f s = s := by
  have hopen := h.intake
  simp only [intakeOpen, Bool.and_eq_true, beq_iff_eq] at hopen
  have hout : s.ledger.intents.filter (fun i => !i.replay && decide (i.phase ≠ .committed) && f i) = [] := by
    rw [List.filter_eq_nil_iff]
    intro i hi
    simp [hf i hi]
  have hin : s.ledger.intents.filter (fun i => !(!i.replay && decide (i.phase ≠ .committed) && f i)) = s.ledger.intents := by
    rw [List.filter_eq_self]
    intro i hi
    simp [hf i hi]
  unfold abandonIntents
  dsimp only
  rw [hout, hin]
  rw [dropItems_none, dropItems_none]
  obtain ⟨-, hwaits⟩ := hopen
  refine Eq.trans (b := { s with ledger := { s.ledger with waits := [] } }) ?_ (by rw [← hwaits])
  unfold toPort pumpPort
  simp [hwaits]
/-- Where no job is of the ward and no intent is, ABORTED entries there are none: the misses of the ward go. -/
theorem abortWard_of_none {s : State} (h : LedgerOpen s) {w : WardId} (hi : ∀ i ∈ s.ledger.intents, i.ctx ≠ .ward w)
    (hj : ∀ j ∈ s.ring.jobs, j.ctx ≠ .ward w) :
    ∃ k a o, abortWard w s = (0, { s with kcc := k, ledger := { s.ledger with atCap := a, owed := o } }) := by
  have hab := abandonIntents_of_none h (f := fun i => decide (i.ctx = .ward w) && !i.capture) fun i hmem => by simp [hi i hmem]
  have hnone : s.ring.jobs.filter (fun j => decide (j.ctx = .ward w)) = [] := by
    rw [List.filter_eq_nil_iff]
    intro j hmem
    simp [hj j hmem]
  unfold abortWard finishWhere
  dsimp only
  rw [hab, hnone]
  obtain ⟨a, o, hc⟩ := refreshCap_eq { s with kcc := { s.kcc with
    misses := s.kcc.misses.filter (fun x => x != w || s.cap.queue.any (fun b => b.ward == w)) } }
  exact ⟨_, a, o, congrArg (Prod.mk 0) hc⟩
/-- A flush that has reached its tail, with no chain open and no doorbell kept, journals its counts (R154). -/
theorem flushStep_ends {s : State} {w : WardId} {f : Flush} {j : Job} (hf : (s.ward w).flush = some f)
    (hq : (s.ward w).ring.sqHead = f.tail) (hc : (s.ward w).ring.chain = none) (hb : f.sqBell = none ∧ f.cqBell = none)
    (hj : s.job f.job = some j) :
    flushStep w s = journal .journal j .none (f.aborted + 65536 * f.torn) (s.updWard w fun x => { x with flush := none }) := by
  have hj' : (s.updWard w fun x => { x with flush := none }).job f.job = some j := hj
  unfold flushStep
  simp only [hf, hq, hc, hb.1, hb.2, hj', ne_eq, not_true_eq_false, if_false]
  rfl
/-- A flush of a queue with nothing in it (R154): it journals with nothing aborted, and its ward is as it was. -/
theorem flushBegin_empty {s : State} (hs : Sound s) {j : Job} (h : LedgerOpen s) (hctx : j.ctx = .admin) (hj : s.ring.jobs = [j])
    (hf : (s.ward j.named).flush = none) (hq : (s.ward j.named).ring.sqHead = (s.ward j.named).ring.sqTail)
    (hc : (s.ward j.named).ring.chain = none) (hi : ∀ i ∈ s.ledger.intents, i.ctx ≠ .ward j.named) :
    ∃ u, flushBegin j s = journal .journal { j with phase := .running } .none 0 u ∧ LedgerOpen u ∧
      u.job j.id = some { j with phase := .running } ∧ ∀ w, u.ward w = s.ward w := by
  generalize hk : ({ j with phase := .running } : Job) = k
  have hkid : k.id = j.id := by subst hk; rfl
  have hkctx : k.ctx = .admin := by subst hk; exact hctx
  generalize hv : (if (s.setJob k).ring.turn = some j.named then endTurn (s.setJob k) else s.setJob k) = v
  have hjobs : v.ring.jobs = [k] := by
    have h1 : (s.setJob k).ring.jobs = [k] := by simp [State.setJob, hj, listUpd, hkid]
    subst hv
    split
    · exact h1
    · exact h1
  obtain ⟨r, hvr⟩ : ∃ r, v = { s with ring := r } := by
    subst hv
    split
    · exact ⟨_, rfl⟩
    · exact ⟨_, rfl⟩
  have hvs : Sound v := hvr ▸ { hs with }
  have hopen : LedgerOpen v := hvr ▸ ⟨h.alive, h.intake, h.pool⟩
  have hvw (w : WardId) : v.ward w = s.ward w := by rw [hvr]; rfl
  obtain ⟨c, a, o, hab⟩ := abortWard_of_none hopen (w := j.named) (by rw [hvr]; exact hi) fun x hx => by
    rw [hjobs, List.mem_singleton] at hx
    rw [hx, hkctx]
    exact nofun
  generalize hm : ({ v with kcc := c, ledger := { v.ledger with atCap := a, owed := o } } : State) = m at hab
  have hms : Sound m := hm ▸ { hvs with }
  have hmw (w : WardId) : m.ward w = s.ward w := by rw [← hvw w, ← hm]; rfl
  have hmjob : m.job j.id = some k := by
    have hmj : m.ring.jobs = [k] := by rw [← hm]; exact hjobs
    simp [State.job, hmj, hkid]
  have hmopen : LedgerOpen m := by rw [← hm]; exact ⟨hopen.alive, hopen.intake, hopen.pool⟩
  have hbegin : flushBegin j s = flushStep j.named (m.updWard j.named fun x => { x with
      flush := some { job := j.id, tail := x.ring.sqTail, at_ := m.clk.beat, aborted := 0 } }) := by
    unfold flushBegin
    dsimp only
    rw [hf, hk, hv, hab, h.alive]
    rfl
  generalize hn : (m.updWard j.named fun x => { x with
      flush := some { job := j.id, tail := x.ring.sqTail, at_ := m.clk.beat, aborted := 0 } }) = n at hbegin
  have hns : Sound n := hn ▸ (State_updWard_keeps ..).1 hms
  have hnw : n.ward j.named = { s.ward j.named with
      flush := some { job := j.id, tail := (s.ward j.named).ring.sqTail, at_ := m.clk.beat, aborted := 0 } } := by
    rw [← hn, ward_updWard_self hms, hmw]
  have hstep := flushStep_ends (s := n) (w := j.named) (j := k) (by rw [hnw]) (by rw [hnw]; exact hq) (by rw [hnw]; exact hc)
    ⟨rfl, rfl⟩ (by rw [← hn]; exact hmjob)
  refine ⟨_, hbegin.trans hstep, ?_, ?_, fun w => ?_⟩
  · rw [← hn]; exact ⟨hmopen.alive, hmopen.intake, hmopen.pool⟩
  · rw [← hn]; exact hmjob
  · rcases eq_or_ne w j.named with rfl | hw
    · rw [ward_updWard_self hns, hnw, ← hf]
    · rw [ward_updWard_ne hns hw, ← hn, ward_updWard_ne hms hw, hmw]

/-! The COMMITs. -/

/-- Reads that are dropped change of the wards the rings of their context alone. -/
theorem dropReads_ward {s : State} (hs : Sound s) (c : Ctx) (u : WardId) :
    (dropReads c s).ward u = if c = .ward u then { s.ward u with ring := { s.ringOf c with
      reserved := (s.ringOf c).reserved - (readsOf c s).length, next := (s.ringOf c).sqHead } } else s.ward u :=
  setRing_ward hs c _ u
/-- Fetching stops with the rings of the ward alone changed. -/
theorem stopRings_ward {s : State} (hs : Sound s) (w u : WardId) :
    (stopRings w s).ward u = { s.ward u with ring := ((stopRings w s).ward u).ring } ∧
    (u ≠ w → (stopRings w s).ward u = s.ward u) := by
  have ht : Sound (if s.ring.turn = some w then endTurn s else s) := by
    split
    · exact { hs with }
    · exact hs
  have hw : (if s.ring.turn = some w then endTurn s else s).ward u = s.ward u := by split <;> rfl
  unfold stopRings
  rw [dropReads_ward ht, hw]
  refine ⟨by split <;> rfl, fun hu => if_neg fun e => hu (Ctx.ward.inj e).symm⟩
/-- Fetching of a ward stops with the admin rings, the jobs and DMA as they were. -/
theorem keepsRings_stopRings (w : WardId) (s : State) : KeepsRings .admin s (stopRings w s) := by
  unfold stopRings dropReads
  split <;> exact ⟨rfl, rfl, rfl, rfl⟩
/-- The effect of an admin command by its opcode: the rings of SET_WARD_RINGS, the schedule of SET_WARD_SCHED (R134, R151). -/
theorem entryEffect_admin {i : Intent} (hc : i.ctx = .admin) (he : i.effect = .entry) (v : State) :
    (i.op = 0x4C → applyEffect i v = setRings i.asJob.named i.asJob v) ∧
    (i.op = 0x4D → applyEffect i v = setSched i.asJob.named i.asJob v) := by
  unfold applyEffect
  rw [he]
  unfold entryEffect
  refine ⟨fun h => ?_, fun h => ?_⟩ <;> simp [hc, h]
/-- SET_WARD_RINGS keeps the admin rings. -/
theorem keepsRings_setRings (w : WardId) (j : Job) (s : State) : KeepsRings .admin s (setRings w j s) := by
  refine (keepsRings_stopRings w s).trans ?_
  unfold setRings
  split <;> exact ⟨rfl, rfl, rfl, rfl⟩
/-- The wards after SET_WARD_RINGS with rings, or with 30 zero bytes (R134, R181). -/
theorem setRings_ward {s : State} (hs : Sound s) (w : WardId) (j : Job) :
    ((j.entry.drop 0x22).all (· == 0) = false → ∃ r : Ring, (setRings w j s).ward w = { s.ward w with
      configured := true
      ring := {
        sqBase := BitVec.ofNat 64 (j.cmd 0x28 8), cqBase := BitVec.ofNat 64 (j.cmd 0x30 8)
        sqLog := j.cmd 0x22 1, cqLog := j.cmd 0x23 1, phase := true, rangeBit := r.rangeBit, aheadBit := r.aheadBit }
      weight := BitVec.ofNat 8 (j.cmd 0x24 1), burst := j.cmd 0x25 1, credit := j.cmd 0x24 1, sched := none
      vector := BitVec.ofNat 8 (j.cmd 0x26 1), coalCount := BitVec.ofNat 8 (j.cmd 0x27 1)
      coalTime := BitVec.ofNat 8 (j.cmd 0x38 1) }) ∧
    ((j.entry.drop 0x22).all (· == 0) = true → (setRings w j s).ward w = (s.ward w).noRings) ∧
    ∀ u, u ≠ w → (setRings w j s).ward u = s.ward u := by
  have ht : Sound (stopRings w s) := (stopRings_keeps ..).1 hs
  have hw := (stopRings_ward hs w w).1
  unfold setRings
  refine ⟨fun h => ⟨((stopRings w s).ward w).ring, ?_⟩, fun h => ?_, fun u hu => ?_⟩
  · rw [h, if_neg Bool.false_ne_true, applyRings, ward_updWard_self ht, hw]
  · rw [if_pos h]
    show ((stopRings w s).updWard w Ward.noRings).ward w = _
    rw [ward_updWard_self ht, hw]
    rfl
  · rw [← (stopRings_ward hs w u).2 hu]
    split
    · exact ward_updWard_ne ht hu _
    · exact ward_updWard_ne ht hu _

/-- The COMMIT of an admin command whose effect on the wards is known. -/
structure AdminCommitted (i : Intent) (j : Job) (s v t : State) : Prop where
  run : exec (.ledgerRound [] none) s = .next t
  completed : Completed j 0 i.detail s t
  sound : Sound v
  before : ∀ u, v.ward u = s.ward u
  after : ∀ u, t.ward u = (applyEffect i v).ward u
/-- An admin command whose effect keeps the admin rings commits. -/
theorem exec_commit_admin {i : Intent} {j : Job} {s : State} (hs : Sound s) (h : CommitDue i j s) (hc : i.ctx = .admin)
    (he : ∀ v, KeepsRings .admin v (applyEffect i v)) : ∃ v t, Committed i j s v t ∧ AdminCommitted i j s v t := by
  have hj : j.ctx = .admin := h.ctx.symm.trans hc
  obtain ⟨v, t, ht⟩ := exec_commit hs h fun v _ => hj ▸ he v
  have hb := ht.begins.wards_of_admin hc
  have ha := ht.wards_of_admin h hc
  exact ⟨v, t, ht, ht.run, ht.completed, ht.begins.sound, fun u => by simp only [State.ward, hb], fun u => by
    simp only [State.ward, ha]⟩

/-- The COMMIT of RESIZE_WARD brings its extents (R53). -/
theorem commit_resize {i : Intent} {j : Job} {s : State} (hs : Sound s) (h : CommitDue i j s) (hc : i.ctx = .admin) {w : WardId}
    {b p : Extent} (he : i.effect = .resize w b p) :
    ∃ t, exec (.ledgerRound [] none) s = .next t ∧ Completed j 0 i.detail s t ∧ (t.ward w).block = b ∧ (t.ward w).append = p ∧
      (t.ward w).epoch = (s.ward w).epoch ∧ (t.ward w).state = (s.ward w).state ∧ ∀ u, u ≠ w → t.ward u = s.ward u := by
  have heff (v : State) : applyEffect i v = resizeTo w b p v := by unfold applyEffect; rw [he]
  obtain ⟨v, t, -, hrun, hdone, hv, hb, ha⟩ := exec_commit_admin hs h hc fun v => by rw [heff]; exact ⟨rfl, rfl, rfl, rfl⟩
  have hw : t.ward w = _ := (ha w).trans ((congrArg (State.ward · w) (heff v)).trans (ward_updWard_self hv ..))
  rw [hb] at hw
  refine ⟨t, hrun, hdone, by rw [hw], by rw [hw], by rw [hw], by rw [hw], fun u hu => ?_⟩
  rw [ha, heff, resizeTo, ward_updWard_ne hv hu, hb]
/-- A weight and burst act at once from a weight of 0 or to one, else at the ward's next turn (R151). -/
theorem schedule_eq (x : Ward) (n : Byte) (b : Nat) :
    x.schedule n b = { x with
      weight := if x.weight = 0 ∨ n = 0 then n else x.weight
      burst := if x.weight = 0 ∨ n = 0 then b else x.burst
      sched := if x.weight = 0 ∨ n = 0 then none else some (n, b)
      credit := if x.weight = 0 then n.toNat else x.credit } := by
  unfold Ward.schedule
  by_cases h0 : x.weight = 0
  · have hor : x.weight = 0 ∨ n = 0 := .inl h0
    simp only [if_pos h0, if_pos hor]
  · by_cases hn : n = 0
    · have hor : x.weight = 0 ∨ n = 0 := .inr hn
      simp only [if_neg h0, if_pos hn, if_pos hor]
      rw [hn]
    · have hor : ¬(x.weight = 0 ∨ n = 0) := fun h => h.elim h0 hn
      simp only [if_neg h0, if_neg hn, if_neg hor]

/-- Settles O45: each row journals where it may, a flush of an empty queue with nothing aborted, and each COMMIT changes its ward
alone. -/
theorem wardSettings : Obligations.WardSettings := by
  unfold Obligations.WardSettings
  intro s id j hs live
  refine ⟨fun eb ep h hl ho hb hp hdb hdp hgb hgp => ?_, fun h hl ho hc hj => ?_, fun h hl ho hc => ?_,
    fun h hl ho hjobs hf hq hc hi => ?_, fun i h hc => ?_⟩
  · obtain ⟨-, hfound, -, -⟩ := id_of_jobFor h.job
    have hrun : exec (.resizeWard id) s = .next (journal .journal j (.resize j.named eb ep) 0 s) := by
      refine congrArg Host.Outcome.next ((runAdmin_begins h (.inl rfl) _).trans ((withKey_live hl).trans ?_))
      unfold resizeWard
      dsimp only
      rw [if_neg (by omega), if_neg (by omega), hdb, hdp, if_neg (by simp), hgb]
      dsimp only
      rw [hgp]
    exact ⟨_, hrun, journal_journaled ho hfound _ _⟩
  · obtain ⟨-, hfound, -, -⟩ := id_of_jobFor h.job
    have hrun : exec (.setWardRings id) s = .next (journal .journal j .entry 0 s) := by
      refine congrArg Host.Outcome.next ((runAdmin_begins h (.inl rfl) _).trans ((withKey_live hl).trans (if_neg ?_)))
      simpa [hc] using hj
    exact ⟨_, hrun, journal_journaled ho hfound _ _⟩
  · obtain ⟨-, hfound, -, -⟩ := id_of_jobFor h.job
    have hrun : exec (.setWardSched id) s = .next (journal .journal j .entry 0 s) :=
      congrArg Host.Outcome.next ((runAdmin_begins h (.inl rfl) _).trans ((withKey_live hl).trans (if_neg (by simp [hc]))))
    exact ⟨_, hrun, journal_journaled ho hfound _ _⟩
  · obtain ⟨-, -, -, hadmin⟩ := id_of_jobFor h.job
    obtain ⟨u, hbegin, hopen, hfound, hwards⟩ := flushBegin_empty hs ho (of_decide_eq_true hadmin) hjobs hf hq hc hi
    have hrun : exec (.flushQueue id) s = .next (journal .journal { j with phase := .running } .none 0 u) := by
      refine congrArg Host.Outcome.next (Eq.trans ?_ ((runAdmin_begins h (.inl rfl) _).trans hbegin))
      rw [h.job]
      exact if_neg (by rw [h.phase]; exact fun hp => nomatch hp.1)
    obtain ⟨hjob, ⟨i, hmem, -, -, hij, hnum, -, -, -, hdet, heff, -⟩, -, -, hrest⟩ := journal_journaled (j := { j with
      phase := .running }) hopen hfound .none 0
    refine ⟨_, hrun, hjob, ⟨i, ?_, hij, heff, hdet, hnum⟩, ?_, fun w _ => ?_⟩
    · rw [hmem]; exact List.mem_append_right _ List.mem_cons_self
    · rw [hrest]; exact hwards _
    · rw [hrest]; exact hwards w
  · intro k w others
    refine ⟨fun v b p he => commit_resize hs h hc he, fun he hop => ?_, fun he hop => ?_⟩
    · have heff (v : State) : applyEffect i v = setRings w k v := (entryEffect_admin hc he v).1 hop
      obtain ⟨v, t, -, hrun, hdone, hv, hb, ha⟩ := exec_commit_admin hs h hc fun v => by rw [heff]; exact keepsRings_setRings ..
      obtain ⟨hsome, hnone, hne⟩ := setRings_ward hv w k
      have hothers : others t := fun u hu => by rw [ha, heff, hne u hu, hb]
      refine ⟨fun hz => ?_, fun hz => ?_⟩
      · obtain ⟨r, hr⟩ := hsome hz
        have hw : t.ward w = _ := (ha w).trans ((congrArg (State.ward · w) (heff v)).trans hr)
        rw [hb] at hw
        exact ⟨t, hrun, hdone, hothers, by rw [hw]; exact ⟨rfl, rfl, rfl, rfl, rfl, rfl, rfl, rfl, rfl, rfl, rfl, rfl, rfl, rfl,
          rfl, rfl, rfl⟩⟩
      · have hw : t.ward w = _ := (ha w).trans ((congrArg (State.ward · w) (heff v)).trans (hnone hz))
        rw [hb] at hw
        exact ⟨t, hrun, hdone, hothers, hw⟩
    · intro n now
      have heff (v : State) : applyEffect i v = setSched w k v := (entryEffect_admin hc he v).2 hop
      obtain ⟨v, t, -, hrun, hdone, hv, hb, ha⟩ := exec_commit_admin hs h hc fun v => by rw [heff]; exact ⟨rfl, rfl, rfl, rfl⟩
      have hothers : others t := fun u hu => by rw [ha, heff, setSched, ward_updWard_ne hv hu, hb]
      have hw : t.ward w = _ := (ha w).trans ((congrArg (State.ward · w) (heff v)).trans (ward_updWard_self hv ..))
      rw [hb, schedule_eq] at hw
      exact ⟨t, hrun, hdone, hothers, by rw [hw]; exact ⟨rfl, rfl, rfl, rfl, rfl, rfl, rfl, rfl⟩⟩

end Sys2Proof.Machine

/-! ## CREATE_WARD, RESET_WARD and DESTROY_WARD (O44) -/

namespace Sys2Proof.Machine

/-! What a reset leaves through its steps (R59). -/

/-- Through the steps of a reset of ward `w` by job `k`: the ward keeps its epoch and key and stands as `st`, the other wards stay,
the job stands alone and the intent `i` lives. -/
structure ResetKeeps (w : WardId) (k : Job) (i : Intent) (st : WardState) (s u : State) : Prop where
  sound : Sound u
  state : (u.ward w).state = st
  epoch : (u.ward w).epoch = (s.ward w).epoch
  key : (u.ward w).wrapped = (s.ward w).wrapped
  others : ∀ v, v ≠ w → u.ward v = s.ward v
  jobs : u.ring.jobs = [k]
  next : k.id < u.ring.nextJob
  intent : i ∈ u.ledger.intents

section
variable {w : WardId} {k : Job} {i : Intent} {st : WardState} {s u v : State}

/-- A step that changes of the wards only parts of `w` that a reset does not keep. -/
theorem ResetKeeps.step (h : ResetKeeps w k i st s u) (hv : Sound v)
    (hw : (v.ward w).state = (u.ward w).state ∧ (v.ward w).epoch = (u.ward w).epoch ∧ (v.ward w).wrapped = (u.ward w).wrapped)
    (ho : ∀ x, x ≠ w → v.ward x = u.ward x) (hj : v.ring.jobs = u.ring.jobs) (hn : u.ring.nextJob ≤ v.ring.nextJob)
    (hi : i ∈ u.ledger.intents → i ∈ v.ledger.intents) : ResetKeeps w k i st s v where
  sound := hv
  state := hw.1.trans h.state
  epoch := hw.2.1.trans h.epoch
  key := hw.2.2.trans h.key
  others x hx := (ho x hx).trans (h.others x hx)
  jobs := hj.trans h.jobs
  next := Nat.lt_of_lt_of_le h.next hn
  intent := hi h.intent
/-- A change of the ward that a reset allows. -/
theorem ResetKeeps.updWard (h : ResetKeeps w k i st s u) (f : Ward → Ward)
    (hf : ∀ x, (f x).state = x.state ∧ (f x).epoch = x.epoch ∧ (f x).wrapped = x.wrapped) :
    ResetKeeps w k i st s (u.updWard w f) :=
  h.step ((State_updWard_keeps ..).1 h.sound) (by rw [ward_updWard_self h.sound]; exact hf _)
    (fun _ hx => ward_updWard_ne h.sound hx f) rfl (Nat.le_refl _) id
/-- A doorbell that is taken back changes of the wards its own rings alone. -/
theorem orphanBell_ward (hu : Sound u) (w : WardId) (d : BellDone) (x : WardId) :
    (orphanBell w d u).ward x = { u.ward x with ring := ((orphanBell w d u).ward x).ring } ∧
    (x ≠ w → (orphanBell w d u).ward x = u.ward x) := by
  have hupd (t : State) (ht : t.wards = u.wards) (r : Ring → Ring) :
      (t.updWard w fun y => { y with ring := r y.ring }).ward x =
        { u.ward x with ring := ((t.updWard w fun y => { y with ring := r y.ring }).ward x).ring } ∧
      (x ≠ w → (t.updWard w fun y => { y with ring := r y.ring }).ward x = u.ward x) := by
    have he : (t.updWard w fun y => { y with ring := r y.ring }).ward x =
        (u.updWard w fun y => { y with ring := r y.ring }).ward x := by
      simp only [State.updWard, State.setWard, State.ward, ht]
    rw [he]
    refine ⟨?_, fun hx => ward_updWard_ne hu hx _⟩
    rcases eq_or_ne x w with rfl | hx
    · rw [ward_updWard_self hu]
    · rw [ward_updWard_ne hu hx]
  unfold orphanBell
  cases d with
  | taken =>
    have hb : (bump (cQueue (.ward w) 2) 1 u).ward x = u.ward x := rfl
    dsimp only
    rw [hb]
    exact ⟨rfl, fun _ => rfl⟩
  | range was => exact hupd _ (by simp) fun r => { r with rangeBit := was }
  | ahead was => exact hupd _ (by simp) fun r => { r with aheadBit := was }
theorem ResetKeeps.orphanBells (h : ResetKeeps w k i st s u) : ResetKeeps w k i st s (orphanBells w u) := by
  unfold Machine.orphanBells
  split
  · refine ResetKeeps.updWard (foldl_keeps (fun t => ResetKeeps w k i st s t) _ (fun t d ht => ?_) _ u h) _ fun _ => ⟨rfl, rfl, rfl⟩
    refine ht.step ((orphanBell_keeps ..).1 ht.sound) ?_ (fun x hx => (orphanBell_ward ht.sound w d x).2 hx)
      (by simp) (by simp) (by simp)
    rw [(orphanBell_ward ht.sound w d w).1]
    exact ⟨rfl, rfl, rfl⟩
  · exact h
theorem ResetKeeps.stopRings (h : ResetKeeps w k i st s u) : ResetKeeps w k i st s (stopRings w u) := by
  refine h.step ((stopRings_keeps ..).1 h.sound) ?_ (fun x hx => (stopRings_ward h.sound w x).2 hx) ?_ ?_ (by simp)
  · rw [(stopRings_ward h.sound w w).1]
    exact ⟨rfl, rfl, rfl⟩
  · exact (keepsRings_stopRings w u).jobs
  · unfold Machine.stopRings dropReads
    split <;> exact Nat.le_refl _
theorem ResetKeeps.closeBlock (h : ResetKeeps w k i st s u) (code : Nat) (next : DWord) :
    ResetKeeps w k i st s (closeBlock w code next u) ∧ ((closeBlock w code next u).ward w).openBlk = none := by
  unfold Machine.closeBlock
  split
  · next hb => exact ⟨h, hb⟩
  · have hk := h.updWard (fun x => { x with openBlk := none, openPos := x.openPos + 1 }) fun _ => ⟨rfl, rfl, rfl⟩
    refine ⟨⟨{ hk.sound with }, hk.state, hk.epoch, hk.key, hk.others, hk.jobs, Nat.lt_succ_of_lt hk.next, hk.intent⟩, ?_⟩
    exact congrArg Ward.openBlk (ward_updWard_self h.sound w fun x => { x with openBlk := none, openPos := x.openPos + 1 })
/-- A completion keeps the next job number. -/
theorem finish_nextJob (j : Job) (st or d : Nat) (s : State) : (finish j st or d s).ring.nextJob = s.ring.nextJob := by
  have hset (c : Ctx) (r : Ring) (t : State) : (t.setRing c r).ring.nextJob = t.ring.nextJob := by cases c <;> rfl
  have hsend (o : Held) (t : State) : (send o t).ring = t.ring := by simp
  have hcount (c : Ctx) (t : State) : (countMalformed c st t).ring = t.ring := by simp
  unfold finish
  rw [(applyWhenClear_jobs _).2]
  unfold postCompletion
  split
  · dsimp only
    rw [hcount, hsend]
    (repeat' split) <;> exact hset ..
  · rfl
/-- A job that is not among those that a completion ends stays. -/
theorem finish_jobs (j : Job) (st or d : Nat) (s : State) :
    (finish j st or d s).ring.jobs = listDrop (fun x => x.id == j.id) s.ring.jobs := by
  unfold finish
  rw [(applyWhenClear_jobs _).1, postCompletion_jobs]
  rfl
/-- The open chain of the ward ends ABORTED: its job is new, and not the reset's. -/
theorem ResetKeeps.endOpen (h : ResetKeeps w k i st s u) : ResetKeeps w k i st s (endOpen (.ward w) 0x10 u) := by
  unfold Machine.endOpen
  split
  · next ch _ =>
    unfold endChain
    dsimp only
    generalize hj : (newJob (.ward w) (ch.first :: ch.rest) u).1 = j
    have hid : j.id = u.ring.nextJob := by rw [← hj]; rfl
    have hctx : j.ctx = .ward w := by rw [← hj]; rfl
    generalize hv : (newJob (.ward w) (ch.first :: ch.rest) u).2 = v
    have hvw (x : WardId) : v.ward x = u.ward x := by rw [← hv]; rfl
    have hvs : Sound v := by rw [← hv]; exact { h.sound with }
    generalize hm : v.setRing (.ward w) { v.ringOf (.ward w) with chain := none } = m
    have hms : Sound m := by rw [← hm]; exact (State_setRing_keeps ..).1 hvs
    have hmw (x : WardId) : m.ward x = { u.ward x with ring := (m.ward x).ring } ∧ (x ≠ w → m.ward x = u.ward x) := by
      rw [← hm, setRing_ward hvs, hvw]
      exact ⟨by split <;> rfl, fun hx => if_neg fun e => hx (Ctx.ward.inj e).symm⟩
    have hmr : m.ring.jobs = u.ring.jobs ∧ m.ring.nextJob = u.ring.nextJob + 1 := by rw [← hm, ← hv]; exact ⟨rfl, rfl⟩
    have hml : m.ledger = u.ledger := by rw [← hm, ← hv]; rfl
    have hl (t : State) : (finish j 0x10 0 0 t).ledger = t.ledger := by simp
    refine h.step ((finish_keeps ..).1 hms) ?_ (fun x hx => ?_) ?_ ?_ ?_
    · rw [finish_ward_of hms rfl, (hmw w).1]
      exact ⟨rfl, rfl, rfl⟩
    · rw [finish_ward_ne hms (by rw [hctx]; exact fun e => hx (Ctx.ward.inj e).symm), (hmw x).2 hx]
    · rw [finish_jobs, hmr.1, h.jobs, hid]
      have hne : ¬k.id = u.ring.nextJob := Nat.ne_of_lt h.next
      simp [listDrop, hne]
    · rw [finish_nextJob, hmr.2]
      exact Nat.le_succ _
    · rw [hl, hml]
      exact id
  · exact h
/-- What waits for the port brings no intent and takes none. -/
theorem toPort_liveIntents (l : List (PortItem × Nat)) (s : State) : (toPort l s).ledger.intents = s.ledger.intents := by
  unfold toPort
  split <;> rfl
/-- Where no job is of the ward, its intents alone end with its misses. -/
theorem abortWard_no_jobs {w : WardId} {u : State} (h : u.ring.jobs.filter (fun j => decide (j.ctx = .ward w)) = []) :
    (abortWard w u).2.wards = u.wards ∧ (abortWard w u).2.ring = u.ring ∧ ∀ i ∈ u.ledger.intents, i.ctx = .admin →
      i ∈ (abortWard w u).2.ledger.intents := by
  have hring (f : Intent → Bool) : (abandonIntents f u).ring = u.ring := by simp
  have hcap (t : State) : (refreshCap t).wards = t.wards ∧ (refreshCap t).ring = t.ring := by simp
  have hcapl (t : State) : (refreshCap t).ledger.intents = t.ledger.intents := by
    obtain ⟨a, o, ht⟩ := refreshCap_eq t
    rw [ht]
  unfold Machine.abortWard finishWhere
  dsimp only
  rw [hring, h, List.foldl_nil, (hcap _).1, (hcap _).2, hcapl]
  refine ⟨by simp, by simp, fun i hi hc => ?_⟩
  show i ∈ (abandonIntents _ u).ledger.intents
  unfold abandonIntents
  rw [toPort_liveIntents]
  exact List.mem_filter.2 ⟨hi, by simp [hc]⟩
/-- The jobs and intents of a ward end ABORTED; the reset's own, of the admin context, stay. -/
theorem ResetKeeps.abortWard (h : ResetKeeps w k i st s u) (hk : k.ctx = .admin) (hi : i.ctx = .admin) :
    ResetKeeps w k i st s (abortWard w u).2 := by
  obtain ⟨hwards, hring, hintents⟩ := abortWard_no_jobs (w := w) (u := u) (by rw [h.jobs]; simp [hk])
  have hw (x : WardId) : (Machine.abortWard w u).2.ward x = u.ward x := by simp only [State.ward, hwards]
  exact h.step ((abortWard_keeps ..).1 h.sound) (by rw [hw]; exact ⟨rfl, rfl, rfl⟩) (fun x _ => hw x) (by rw [hring])
    (by rw [hring]) fun hm => hintents i hm hi
/-- Steps 1 to 5 of a reset (R59): the ward is RESETTING with empty rings, no failures, no open block and no key on die. -/
theorem resetBegin_resets (h : ResetKeeps w k i st s u) (hk : k.ctx = .admin) (hi : i.ctx = .admin) (hop : k.op ≠ 0x4E) :
    ResetKeeps w k i .resetting s (resetBegin w u) ∧
    ((resetBegin w u).ward w).fails = 0 ∧ ((resetBegin w u).ward w).ring.sqHead = 0 ∧ ((resetBegin w u).ward w).ring.sqTail = 0 ∧
    ((resetBegin w u).ward w).ring.cqHead = 0 ∧ ((resetBegin w u).ward w).ring.cqTail = 0 ∧
    ((resetBegin w u).ward w).openBlk = none ∧ ∀ e ∈ (resetBegin w u).kcc.entries, e.ward ≠ w := by
  have h0 := h.orphanBells
  have h1 : ResetKeeps w k i .resetting s ((orphanBells w u).updWard w fun x => { x with state := .resetting, flush := none }) := by
    have hw := ward_updWard_self h0.sound w fun x => { x with state := .resetting, flush := none }
    exact ⟨(State_updWard_keeps ..).1 h0.sound, by rw [hw], by rw [hw]; exact h0.epoch, by rw [hw]; exact h0.key,
      fun x hx => (ward_updWard_ne h0.sound hx _).trans (h0.others x hx), h0.jobs, h0.next, h0.intent⟩
  have h2 := (h1.stopRings.endOpen).abortWard hk hi
  unfold resetBegin
  dsimp only
  generalize (Machine.abortWard w (Machine.endOpen (.ward w) 0x10 (Machine.stopRings w ((orphanBells w u).updWard w fun x =>
    { x with state := .resetting, flush := none })))).2 = v at h2
  have hnone : v.ring.jobs.filter (flushJobs w) = [] := by
    have hf : flushJobs w k = false := by
      unfold flushJobs
      rw [beq_eq_false_iff_ne.2 hop]
      simp
    rw [h2.jobs, List.filter_cons, hf]
    rfl
  have hfin : finishWhere (flushJobs w) 0x10 v = v := by
    unfold finishWhere
    rw [hnone, List.foldl_nil]
  rw [hfin]
  obtain ⟨h3, hopen⟩ := h2.closeBlock 2 (v.ward w).nextSeq
  generalize Machine.closeBlock w 2 (v.ward w).nextSeq v = m at h3 hopen
  generalize hf : (fun x : Ward => { x with
      ring := { x.ring with
        sqHead := 0, sqTail := 0, cqHead := 0, cqTail := 0, next := 0, reserved := 0, phase := true, chain := none
        chainTicks := 0 }
      fails := 0, malformed := 0 }) = f
  have h4 : ResetKeeps w k i .resetting s (m.updWard w f) := h3.updWard f fun x => by rw [← hf]; exact ⟨rfl, rfl, rfl⟩
  have hw : (m.updWard w f).ward w = f (m.ward w) := ward_updWard_self h3.sound w f
  generalize m.updWard w f = n at h4 hw
  have hd (x : WardId) : (dropKey w n).ward x = n.ward x := rfl
  refine ⟨⟨{ h4.sound with }, h4.state, h4.epoch, h4.key, h4.others, h4.jobs, h4.next, h4.intent⟩, ?_⟩
  rw [hd, hw, ← hf]
  refine ⟨rfl, rfl, rfl, rfl, rfl, hopen, fun e he => ?_⟩
  simpa using (List.mem_filter.1 he).2
end

/-- RESET_WARD or DESTROY_WARD, its job alone on die, journals and puts the ward in RESETTING (R51, R59). -/
theorem resetRow_begins {s : State} (hs : Sound s) {id op : Nat} {destroy : Bool} {j : Job} (h : AdminBegins id op .ready j s)
    (ho : LedgerOpen s) (hj : s.ring.jobs = [j]) (hn : j.id < s.ring.nextJob)
    (hl : (s.ward j.named).state = .sealed ∨ (s.ward j.named).state = .opened ∨ (s.ward j.named).state = .faulted) :
    ∃ u i, resetRow id op destroy s = resetBegin j.named u ∧
      ResetKeeps j.named { j with phase := .running } i (s.ward j.named).state s u ∧ i.ctx = .admin ∧
      i.effect = .reset j.named destroy ∧ i.job = some j.id ∧ i.number = j.intent := by
  obtain ⟨-, hfound, hjop, hadmin⟩ := id_of_jobFor h.job
  have hctx : j.ctx = .admin := of_decide_eq_true hadmin
  have hjobs : (s.setJob { j with phase := .running }).ring.jobs = [{ j with phase := .running }] := by
    simp [State.setJob, hj, listUpd]
  have hrow : resetRow id op destroy s = resetCmd destroy j s := by
    have hheld : s.ring.jobs.any (fun k => heldBack k j && !(flushJobs j.named k && !k.fence && !j.fence)) = false := by
      rw [hj]
      simp [heldBack]
    unfold resetRow
    simp only [h.job, h.awake, h.phase, h.allowed, h.todo, hheld]
    simp
  have hcmd : resetCmd destroy j s = resetBegin j.named (journal .running j (.reset j.named destroy) 0 s) := by
    have hrun : ((journal .running j (.reset j.named destroy) 0 s).job j.id).map (·.phase) = some .running := by
      rw [journal_open ho]
      exact congrArg (Option.map (·.phase)) (job_setJob (k := { j with phase := .running }) hfound)
    unfold resetCmd
    dsimp only
    rcases hl with hl | hl | hl <;> rw [hl] <;> exact if_pos hrun
  refine ⟨_, { commandIntent j (.reset j.named destroy) 0 with
      serial := s.ledger.nextSerial, boot := s.sec.bootCount, slot := ((s.setJob { j with phase := .running }).singles 2).getD 0 0
      commits := [(s.ledger.nextSerial + 1, ((s.setJob { j with phase := .running }).singles 2).getD 1 0)] },
    hrow.trans hcmd, ?_, hctx, rfl, rfl, rfl⟩
  have hsound := (journal_keeps .running j (.reset j.named destroy) 0 s).1 hs
  rw [journal_open ho] at hsound ⊢
  exact ⟨hsound, rfl, rfl, rfl, fun _ _ => rfl, hjobs, hn, List.mem_append_right _ List.mem_cons_self⟩
/-! CREATE_WARD. -/

/-- CREATE_WARD with its extents found draws a key pair, and journals the ward it makes where the halves differ (R76, R179). -/
theorem createCmd_draws {s : State} {j : Job} {b p : Extent} (hp : j.phase = .dataIn)
    (hst : (s.ward j.named).state = .unprovisioned ∨ (s.ward j.named).state = .destroyed) (hd : allEqual j.data = false)
    (hb : (createAsk j).1.2 = 0 ∨ (s.group (createAsk j).1.1).defined = true)
    (hq : (createAsk j).2.2 = 0 ∨ (s.group (createAsk j).2.1).defined = true) (he : createExtents j s = some (b, p)) :
    let drawn := { s with sec := { s.sec with drbgSince := 2, drbgIndex := s.sec.drbgIndex + 2 } }
    createCmd j s =
      if Config.drbg s.sec.drbgIndex = Config.drbg (s.sec.drbgIndex + 1) then drawn
      else journal .journal j (.create j.named (newWard j.named j.data
        (Config.drbg s.sec.drbgIndex, Config.drbg (s.sec.drbgIndex + 1)) (if b.runs = [] then {} else b)
        (if p.runs = [] then {} else p) drawn)) ((s.ward j.named).epoch + 1).toNat drawn := by
  intro drawn
  have hgroups : ¬(((createAsk j).1.2 ≠ 0 ∧ (!(s.group (createAsk j).1.1).defined) = true) ∨
      ((createAsk j).2.2 ≠ 0 ∧ (!(s.group (createAsk j).2.1).defined) = true)) := by
    rintro (⟨hne, hdef⟩ | ⟨hne, hdef⟩)
    · exact hb.elim hne fun hb => by simp [hb] at hdef
    · exact hq.elim hne fun hq => by simp [hq] at hdef
  have hmake : createCmd j s = makeWard j (if b.runs = [] then {} else b) (if p.runs = [] then {} else p) s := by
    unfold createCmd
    dsimp only
    rcases hst with hst | hst <;>
    · rw [hst]
      dsimp only
      rw [if_neg (fun h => h hp), hd, if_neg Bool.false_ne_true, if_neg hgroups, he]
  rw [hmake]
  rfl
/-- An extent without runs is the empty one. -/
theorem runs_ite (b : Extent) : (if b.runs = [] then ({} : Extent) else b).runs = b.runs := by
  split
  · next h => rw [h]
  · rfl

/-! The COMMITs. -/

/-- An admin job's completion logs nothing. -/
theorem finish_events_of_admin {j : Job} (h : j.ctx = .admin) (st or d : Nat) (s : State) :
    (finish j st or d s).obs.events = s.obs.events := by
  have ha (t : State) : (applyWhenClear t).obs = t.obs := by simp
  have hsend (o : Held) (t : State) : (send o t).obs = t.obs := by simp
  unfold finish postCompletion
  rw [ha, h]
  split
  · dsimp only [countMalformed]
    rw [hsend]
    (repeat' split) <;> rfl
  · rfl
/-- The end of RESET_WARD logs it and seals the ward (R59). -/
theorem commit_reset {i : Intent} {j : Job} {s : State} {w : WardId} (hs : Sound s) (h : CommitDue i j s) (hc : i.ctx = .admin)
    (he : i.effect = .reset w false) :
    ∃ t, exec (.ledgerRound [] none) s = .next t ∧ Completed j 0 i.detail s t ∧
      t.ward w = { s.ward w with state := .sealed } ∧ (∀ e ∈ t.kcc.entries, e.ward ≠ w) ∧
      (s.obs.events.length < 512 → ∃ e ∈ t.obs.events, e.code = 0x0402 ∧ e.beat = s.clk.beat) ∧
      ∀ u, u ≠ w → t.ward u = s.ward u := by
  have heff (v : State) : applyEffect i v = resetEnds w v := by unfold applyEffect; rw [he]; rfl
  have hlog (v : State) : (resetEnds w v).wards = (v.updWard w fun x => { x with state := .sealed }).wards ∧
      (resetEnds w v).kcc = (dropKey w v).kcc ∧ (resetEnds w v).ring = v.ring ∧ (resetEnds w v).dmaOpen = v.dmaOpen := by
    unfold resetEnds
    rw [logEvent_eq]
    exact ⟨rfl, rfl, rfl, rfl⟩
  have hward (v : State) (u : WardId) : (resetEnds w v).ward u = (v.updWard w fun x => { x with state := .sealed }).ward u := by
    simp only [State.ward, (hlog v).1]
  obtain ⟨v, t, ht, hrun, hdone, hv, hb, ha⟩ := exec_commit_admin hs h hc fun v => by
    obtain ⟨-, -, hring, hdma⟩ := hlog v
    rw [heff]
    exact ⟨by rw [hring], by simp only [State.ringUp, hring], by simp only [State.ringOf, hring], hdma⟩
  have hj : j.ctx = .admin := h.ctx.symm.trans hc
  have hkcc : t.kcc = (dropKey w v).kcc := by
    have hf (u : State) : (finish j 0 0 i.detail u).kcc = u.kcc := by simp
    rw [ht.rest, ← (hlog v).2.1, ← heff]
    exact hf _
  refine ⟨t, hrun, hdone, ?_, fun e hm => ?_, fun hroom => ?_, fun u hu => ?_⟩
  · rw [ha, heff, hward, ward_updWard_self hv, hb]
  · rw [hkcc] at hm
    simpa using (List.mem_filter.1 hm).2
  · have hroom' : v.obs.events.length < 512 := by rw [ht.begins.events]; exact hroom
    obtain ⟨e, hm, hcode, -, -, hbeat⟩ := logEvent_logged
      (s := dropKey w (v.updWard w fun x => { x with state := .sealed })) hroom' 0x0402 w.val 0 0
    refine ⟨e, ?_, hcode, ?_⟩
    · rw [ht.rest, heff]
      exact (finish_events_of_admin hj 0 0 i.detail (resetEnds w v)).symm ▸ hm
    · rw [hbeat, ht.begins.rest]
      rfl
  · rw [ha, heff, hward, ward_updWard_ne hv hu, hb]
/-- The end of DESTROY_WARD leaves the epoch, the limit and the cause alone (R61). -/
theorem commit_destroy {i : Intent} {j : Job} {s : State} {w : WardId} (hs : Sound s) (h : CommitDue i j s) (hc : i.ctx = .admin)
    (he : i.effect = .reset w true) :
    ∃ t, exec (.ledgerRound [] none) s = .next t ∧ Completed j 0 i.detail s t ∧
      t.ward w = { state := .destroyed, epoch := (s.ward w).epoch, malformedLimit := (s.ward w).malformedLimit,
                   lastFault := (s.ward w).lastFault } ∧
      (∀ e ∈ t.kcc.entries, e.ward ≠ w) ∧ ∀ u, u ≠ w → t.ward u = s.ward u := by
  have heff (v : State) : applyEffect i v = destroyEnds w v := by unfold applyEffect; rw [he]; rfl
  have hward (v : State) (u : WardId) : (destroyEnds w v).ward u = (v.updWard w fun x =>
      { state := .destroyed, epoch := x.epoch, malformedLimit := x.malformedLimit, lastFault := x.lastFault }).ward u := rfl
  obtain ⟨v, t, ht, hrun, hdone, hv, hb, ha⟩ := exec_commit_admin hs h hc fun v => by rw [heff]; exact ⟨rfl, rfl, rfl, rfl⟩
  have hkcc : t.kcc = (dropKey w v).kcc := by
    have hf (u : State) : (finish j 0 0 i.detail u).kcc = u.kcc := by simp
    rw [ht.rest, heff]
    exact hf _
  refine ⟨t, hrun, hdone, ?_, fun e hm => ?_, fun u hu => ?_⟩
  · rw [ha, heff, hward, ward_updWard_self hv, hb]
  · rw [hkcc] at hm
    simpa using (List.mem_filter.1 hm).2
  · rw [ha, heff, hward, ward_updWard_ne hv hu, hb]
/-- The COMMIT of CREATE_WARD brings its ward (R179). -/
theorem commit_created {i : Intent} {j : Job} {s : State} {w : WardId} {x : Ward} (hs : Sound s) (h : CommitDue i j s)
    (hc : i.ctx = .admin) (he : i.effect = .create w x) :
    ∃ t, exec (.ledgerRound [] none) s = .next t ∧ Completed j 0 i.detail s t ∧
      t.ward w = { x with malformedLimit := (s.ward w).malformedLimit, appendFull := (t.ward w).appendFull } ∧
      ∀ u, u ≠ w → t.ward u = s.ward u := by
  obtain ⟨v, t, -, hrun, hdone, hv, hb, ha⟩ := exec_commit_admin hs h hc fun v => by
    have hring := create_ring (v := v) he
    refine ⟨by rw [hring], by simp only [State.ringUp, hring], by simp only [State.ringOf, hring], ?_⟩
    unfold applyEffect
    rw [he]
    simp [State.dmaOpen, State.awake]
  refine ⟨t, hrun, hdone, ?_, fun u hu => ?_⟩
  · rw [ha, ← hb]
    exact create_ward hv he
  · have heff : applyEffect i v = checkAppendFull w (v.setWard w { x with malformedLimit := (v.ward w).malformedLimit }) := by
      unfold applyEffect; rw [he]
    rw [ha, heff, checkAppendFull_ward_ne ((State_setWard_keeps ..).1 hv) hu, ward_setWard_ne hv hu, hb]

/-- Settles O44: CREATE_WARD journals what `makeWard` draws, a reset runs `resetBegin`, and each COMMIT changes its ward alone. -/
theorem wardLifecycle : Obligations.WardLifecycle := by
  unfold Obligations.WardLifecycle
  intro s id j hs
  refine ⟨fun b p h hst hd hb hq he => ?_, fun destroy => ?_, fun i w h hc => ⟨fun x he => commit_created hs h hc he,
    fun he => commit_reset hs h hc he, fun he => commit_destroy hs h hc he⟩⟩
  · intro drawn
    have hdraw := createCmd_draws h.phase hst hd hb hq he
    obtain ⟨-, hfound, -, -⟩ := id_of_jobFor h.job
    refine ⟨createCmd j s, congrArg Host.Outcome.next (runAdmin_begins h (.inr rfl) _), fun heq => ?_, fun hne ho => ?_⟩
    · rw [hdraw, if_pos heq]
    · rw [hdraw, if_neg hne]
      have ho' : LedgerOpen drawn := ⟨ho.alive, ho.intake, ho.pool⟩
      exact ⟨_, journal_journaled ho' hfound _ _, rfl, rfl, rfl, rfl, rfl, runs_ite b, runs_ite p, rfl⟩
  · intro row h ho hj hn hl
    obtain ⟨u, i, hrow, hkeeps, hctx, heff, hjob, hnum⟩ := resetRow_begins (destroy := destroy) hs h ho hj hn hl
    obtain ⟨hid, hfound, hop, hadmin⟩ := id_of_jobFor h.job
    have hne : ({ j with phase := .running } : Job).op ≠ 0x4E := by
      intro e
      have h4E : j.op.toNat = 0x4E := congrArg BitVec.toNat e
      rw [hop] at h4E
      cases destroy <;> cases h4E
    obtain ⟨ht, hfails, hsqh, hsqt, hcqh, hcqt, hopen, hkcc⟩ := resetBegin_resets hkeeps (of_decide_eq_true hadmin) hctx hne
    have hrun : exec row s = .next (resetBegin j.named u) := by
      rw [← hrow]
      cases destroy <;> rfl
    refine ⟨_, hrun, ht.state, ⟨i, ht.intent, heff, hjob, hnum⟩, ?_, hfails, hsqh, hsqt, hcqh, hcqt, hopen, ht.epoch, ht.key, hkcc,
      ht.others⟩
    simp [State.job, ht.jobs]

end Sys2Proof.Machine

/-! ## A function level reset (O17) -/

namespace Sys2Proof.Machine

/-! What stops with the link (R125 steps 1 to 3). -/

/-- The state as `linkStop` ends the session: fetched work abandoned, OPEN wards sealed, the rings clear. -/
def linkCleared (s : State) : State :=
  let s1 := abandonIntents (fun i => !i.capture && !i.isReset) s
  clearRings { s1 with
    ring := { s1.ring with jobs := [] }
    host := { s1.host with reads := [], pend := [], held := [] }
    wards := s1.wards.mapAll {} (fun _ x => flrWard x)
    obs := { s1.obs with enabled := false }
    kcc := { s1.kcc with
      entries := [], busyUntil := s1.clk.beat + 48
      misses := s1.kcc.misses.filter (fun w => s1.cap.queue.any (fun b => b.ward == w)) } }
/-- What an FLR leaves of a ward: sealed where it was OPEN, and without rings (R61). -/
def flrLeft (x : Ward) : Ward := { (flrWard x).noRings with flush := none }

/-- With no job left, the session ends as the link stops and completes nothing. -/
theorem linkStop_eq (s : State) : ∃ l, linkStop s =
    { linkCleared s with ledger := l, sec := { s.sec with session := false, idleTicks := 0 } } := by
  have hsec : (linkCleared s).sec = s.sec := by simp [linkCleared]
  have hend : endSession (linkCleared s) = { linkCleared s with sec := { s.sec with session := false, idleTicks := 0 } } := by
    rw [← hsec]
    refine endSession_of_none fun j hj => ?_
    simp [linkCleared, clearRings] at hj
  obtain ⟨a, o, hcap⟩ := refreshCap_eq (endSession (linkCleared s))
  exact ⟨_, hcap.trans (by rw [hend])⟩
/-- Every ward is sealed where it was OPEN and loses its rings. -/
theorem linkStop_ward {s : State} (hs : Sound s) (w : WardId) : (linkStop s).ward w = flrLeft (s.ward w) := by
  let u : State := { s with wards := s.wards.mapAll {} (fun _ x => flrWard x) }
  have hu : Sound u := { hs with wards := Tab.mapAll_wf' _ _ _ hs.wards }
  have hw : (linkStop s).wards = u.wards.mapAll {} (fun _ x => { x.noRings with flush := none }) := by
    obtain ⟨l, hl⟩ := linkStop_eq s
    simp [hl, linkCleared, clearRings, u]
  calc (linkStop s).ward w
    _ = Tab.get {} (u.wards.mapAll {} (fun _ x => { x.noRings with flush := none })) w.val := by rw [← hw]; rfl
    _ = { (u.ward w).noRings with flush := none } := ward_mapAll hu (fun x => { x.noRings with flush := none }) rfl w
    _ = flrLeft (s.ward w) := by rw [show u.ward w = flrWard (s.ward w) from ward_mapAll hs flrWard rfl w]; rfl
/-- The request queues and the outputs of the host link are empty, and what was sent stays sent. -/
theorem linkStop_host (s : State) : (linkStop s).host = { s.host with reads := [], pend := [], held := [] } := by
  obtain ⟨l, hl⟩ := linkStop_eq s
  simp [hl, linkCleared, clearRings, dropPend]
/-- No job is left, the session is over, and the Key Context Cache is empty for 48 beats. -/
theorem linkStop_cleared (s : State) :
    (linkStop s).ring.jobs = [] ∧ (linkStop s).ring.adminHigh = s.ring.adminHigh ∧ (linkStop s).sec.session = false ∧
    (linkStop s).kcc.entries = [] ∧ (linkStop s).kcc.busyUntil = s.clk.beat + 48 ∧ (linkStop s).obs.enabled = false ∧
    (linkStop s).regs = s.regs.filter (fun p => !(decide (0x08000 ≤ p.1) && decide (p.1 ≤ 0x08010))) := by
  obtain ⟨l, hl⟩ := linkStop_eq s
  simp [hl, linkCleared, clearRings, dropPend]

/-! What returns to reset (R125 step 5, R126). -/

/-- An MSI-X vector is masked at reset. -/
theorem regReset_msixCtl {a : Nat} (hlo : 0x06000 ≤ a) (hhi : a < 0x07000) (ha : a % 16 = 12) : regReset a = 1 := by
  have h4 : a % 4 = 0 := by omega
  have hoff : (a - 0x06000) % 16 = 12 := by omega
  simp [regReset, regInfo, msixReg, h4, hlo, hhi, hoff]
/-- Where the MSI-X table is dropped from the registers, every vector is masked. -/
theorem msixCtl_filtered {s t : State} {P : Nat → Bool} (h : t.regs = s.regs.filter fun p => P p.1)
    (hP : ∀ a, 0x06000 ≤ a → a < 0x07000 → P a = false) (v : Fin 256) : t.reg (0x06000 + 16 * v.val + 12) = 1 := by
  unfold State.reg
  rw [h, get_filter_gone _ P _ (hP _ (by omega) (by omega)), regReset_msixCtl (by omega) (by omega) (by omega)]
/-- The event goes into the queue where there is room. -/
theorem insertEvent_mem {s : State} (h : s.obs.events.length < 512) (i : Nat) (e : Event) :
    e ∈ (insertEvent i e s).obs.events := by
  simp [insertEvent, h]
/-- A running FLR answers every configuration request with Retry Status (R125). -/
theorem cfgWrite_running {s : State} (hc : s.cfgOpen = true) (hf : s.host.flr.isSome = true) (f : State → State) :
    cfgWrite f s = answer .retry s := by
  simp [cfgWrite, hc, hf]

/-- After hand-off an FLR stops the link and pauses admission (R125 steps 1 to 3). -/
theorem flrBegin_running {s : State} (hc : s.cfgOpen = true) (hh : s.handedOff = true) (hf : s.host.flr = none) :
    flrBegin s = { linkStop s with host := { (linkStop s).host with flr := some s.clk.beat, capPaused := true } } := by
  simp [flrBegin, hc, hh, hf]
/-- Before hand-off an FLR resets configuration space and the MSI-X table alone (R126). -/
theorem flrBegin_early {s : State} (hc : s.cfgOpen = true) (hh : s.handedOff = false) (hf : s.host.flr = none) :
    flrBegin s = configReset s := by
  simp [flrBegin, hc, hh, hf]
/-- The end of an FLR is the reset of the HOST registers and its event (R125 steps 5 and 6). -/
theorem flrEnd_running {s : State} (hf : s.host.flr.isSome = true) : ∃ i, flrEnd s =
    insertEvent i (mkEvent s 0x0301 0 0 0) (hostRegsReset { s with host := { s.host with flr := none, capPaused := false } }) :=
  ⟨_, by rw [flrEnd, if_pos hf]; rfl⟩

/-- What is sent and the link itself are all that the end of an FLR leaves of the host link. -/
theorem flrEnd_host {s : State} (hf : s.host.flr.isSome = true) : (flrEnd s).host =
    { out := s.host.out, resp := s.host.resp, speed := s.host.speed, width := s.host.width, flr := none,
      capPaused := false } := by
  obtain ⟨i, hi⟩ := flrEnd_running hf
  simp [hi, hostRegsReset]
/-- At the end of an FLR every vector is masked. -/
theorem flrEnd_masked {s : State} (hf : s.host.flr.isSome = true) (v : Fin 256) :
    (flrEnd s).reg (0x06000 + 16 * v.val + 12) = 1 := by
  obtain ⟨i, hi⟩ := flrEnd_running hf
  refine msixCtl_filtered (s := s) (P := fun a => !((0x04000 ≤ a ∧ a < 0x08000) || (0x08000 ≤ a ∧ a ≤ 0x08010)))
    (by simp [hi, hostRegsReset, linkRegs]) (fun a h1 h2 => ?_) v
  have hin : 0x04000 ≤ a ∧ a < 0x08000 := by omega
  simp [hin]

/-- Settles O17, by the start, step 4 and the end of an FLR in turn. -/
theorem functionLevelReset : Obligations.FunctionLevelReset := by
  intro s hs
  refine ⟨fun hc hh hf => ?_, fun hc hh hf => ?_, fun hf => ?_, fun hf => ?_, fun hc hf q => ?_⟩
  · obtain ⟨hjobs, hhigh, hses, hkcc, hbusy, hlog, hregs⟩ := linkStop_cleared s
    have hhost := linkStop_host s
    refine ⟨flrBegin s, rfl, ?_⟩
    rw [flrBegin_running hc hh hf]
    refine ⟨rfl, rfl, hjobs, hses, hkcc, hbusy, hhigh, by rw [hhost], by rw [hhost], by rw [hhost], by rw [hhost], hlog,
      by simp, by simp, hregs, fun w => ?_⟩
    have hw := linkStop_ward hs w
    exact ⟨congrArg Ward.state hw, congrArg Ward.configured hw, congrArg Ward.weight hw, congrArg Ward.vector hw,
      (congrArg Ward.high hw :), (congrArg Ward.epoch hw :)⟩
  · refine ⟨configReset s, congrArg _ (flrBegin_early hc hh hf), rfl, rfl, rfl, rfl, rfl, hf, msixCtl_filtered (s := s)
      (P := fun a => !(decide (0x06000 ≤ a) && decide (a < 0x07000))) rfl fun a h1 h2 => ?_⟩
    simp [h1, h2]
  · have hsome : s.host.flr.isSome = true := Option.isSome_iff_ne_none.mpr hf
    exact congrArg Host.Outcome.next (if_pos hsome)
  · have hsome : s.host.flr.isSome = true := Option.isSome_iff_ne_none.mpr hf
    have hhost := flrEnd_host hsome
    obtain ⟨i, hi⟩ := flrEnd_running hsome
    refine ⟨flrEnd s, rfl, by rw [hhost], by rw [hhost], by rw [hhost], by rw [hhost], by rw [hhost], by rw [hhost],
      flrEnd_masked hsome, fun h => ?_, ?_⟩
    · rw [hi]
      exact ⟨mkEvent s 0x0301 0 0 0, insertEvent_mem (by simpa using h) _ _, rfl, rfl⟩
    · rw [hi]
      exact State.eq_of (by simp) (by simp) (by simp) (by simp) rfl (by simp) (by simp) (by simp) (by simp) (by simp)
        (by simp) (by simp) (by simp) (by simp) (by simp) (by simp) rfl rfl rfl (by simp) (by simp)
  · have hsome : s.host.flr.isSome = true := Option.isSome_iff_ne_none.mpr hf
    have hretry (f : State → State) : Host.Outcome.next (cfgWrite f s) =
        (.next { s with host := { s.host with resp := .retry } } : Host.Outcome State Fault Refusal) :=
      congrArg _ (cfgWrite_running hc hsome f)
    refine ⟨congrArg Host.Outcome.next ?_, hretry _, hretry _, hretry _, hretry _, hretry _⟩
    simp [flrBegin, hc, hsome, answer]

end Sys2Proof.Machine

/-! ## Safe Hold's triggers and the reseed (O33) -/

namespace Sys2Proof.Machine

/-- The error state holds its cause, no volatile CSP, and Safe Hold for SELFTEST (R80, R85). -/
theorem errorState_spec (cause : Nat) (s : State) :
    (errorState cause s).sec = { s.sec with
      error := true, errorCause := BitVec.ofNat 8 cause, keys := none, drbgReady := false } ∧
    (errorState cause s).kcc.entries = [] ∧ (errorState cause s).pwr.mode = .safeHold ∧
    (errorState cause s).pwr.holdCause.getLsbD 0 = true := by
  have hpwr : (errorState cause s).pwr = (safeHold 0x01 (logEvent 0x0202 0 cause 0 (clearCsps { s with
      sec := { s.sec with error := true, errorCause := BitVec.ofNat 8 cause } }))).pwr := by simp [errorState]
  obtain ⟨hmode, hcause⟩ := safeHold_pwr 0x01 (logEvent 0x0202 0 cause 0 (clearCsps { s with
    sec := { s.sec with error := true, errorCause := BitVec.ofNat 8 cause } }))
  refine ⟨by simp [errorState, clearCsps], by simp [errorState, clearCsps], by rw [hpwr, hmode], ?_⟩
  rw [hpwr, hcause]
  simp

/-- Settles O33: a stall and the error state by what Safe Hold sets, the reseed by its one field. -/
theorem safeHoldTriggers : Obligations.SafeHoldTriggers := by
  unfold Obligations.SafeHoldTriggers
  refine ⟨fun s adaptive => ⟨fun hserv hstall => ?_, fun hoff hready herr => ?_⟩, fun s hready hdue => ?_⟩
  · obtain ⟨hmode, hcause⟩ := safeHold_pwr 0x20 (logEvent 0x010A 0 0 0 (mark 0x0001C 16 { s with
      sys := { s.sys with stalled := true } }))
    have hrun : exec .mediaStall s = .next (safeHold 0x20 (logEvent 0x010A 0 0 0 (mark 0x0001C 16 { s with
        sys := { s.sys with stalled := true } }))) := congrArg Host.Outcome.next (if_pos ⟨hserv, hstall⟩)
    exact ⟨_, hrun, by simp, hmode, by rw [hcause]; simp⟩
  · have hrun : exec (.noiseHealthFail adaptive) s = .next (noiseFail adaptive s) :=
      congrArg Host.Outcome.next (if_pos (by simp [hoff, hready, herr]))
    obtain ⟨hsec, hkcc, hmode, hcause⟩ := errorState_spec (if adaptive then 0x12 else 0x11) s
    refine ⟨_, hrun, ?_⟩
    unfold noiseFail
    rw [hsec]
    exact ⟨rfl, by cases adaptive <;> rfl, rfl, rfl, hkcc, hmode, hcause⟩
  · exact congrArg Host.Outcome.next (if_pos ⟨hready, hdue⟩)

end Sys2Proof.Machine

/-! ## The TAP, SMBus, the console and the LED pins (O60) -/

namespace Sys2Proof.Machine

/-- A refused TAP instruction leaves BYPASS, JTAG_LOCKED and one more in JTAG_REFUSED (R90). -/
theorem tapRefuse_spec {s : State} (hs : Sound s) :
    (tapRefuse s).pin = { s.pin with jtag := 0xF } ∧ (tapRefuse s).sec = { s.sec with jtagLocked := true } ∧
    (tapRefuse s).counter (cDev 5) = s.counter (cDev 5) + 1 ∧
    tapRefuse s = { s with pin := (tapRefuse s).pin, sec := (tapRefuse s).sec, obs := (tapRefuse s).obs } :=
  ⟨rfl, rfl, counter_bump_self (s := setTap 0xF { s with sec := { s.sec with jtagLocked := true } }) { hs with } _ 1, rfl⟩

/-- At stepping 0x1n IDCODE reads as R391 gives it. -/
theorem idcode_of_stepping (h : Config.fuseStepping.toNat / 16 = 1) : idcode = 0x10024B6D := by
  rw [idcode, h]
  rfl

/-- What a Read Word brings back: the word low byte first, and the PEC where it is read (R397). -/
def smbReply (addr : BitVec 7) (cmd : Byte) (pec : Bool) (w : BitVec 16) : Bytes :=
  if pec then leBytes 2 w.toNat ++
    [smbPec ([BitVec.ofNat 8 (2 * addr.toNat), cmd, BitVec.ofNat 8 (2 * addr.toNat + 1)] ++ leBytes 2 w.toNat)]
  else leBytes 2 w.toNat
/-- A Read Word at the target's address answers the command's word (R397). -/
theorem smbRead_word {s : State} {addr : BitVec 7} {cmd : Byte} {w : BitVec 16} (ho : smbOpen s = true)
    (ha : addr.toNat = bits 0 7 (s.reg 0x1B08C)) (hw : smbWord cmd.toNat s = some w) (pec : Bool) :
    smbRead addr cmd pec s = answer (.bytes (smbReply addr cmd pec w)) (smbBegin s) := by
  unfold smbRead
  rw [if_neg (by simp [ho]), if_neg (not_not.2 ha), hw]
  rfl
/-- A command without a word is NACKed (R397). -/
theorem smbRead_undefined {s : State} {addr : BitVec 7} {cmd : Byte} (ho : smbOpen s = true)
    (ha : addr.toNat = bits 0 7 (s.reg 0x1B08C)) (hw : smbWord cmd.toNat s = none) (pec : Bool) :
    smbRead addr cmd pec s = answer .nack (smbBegin s) := by
  unfold smbRead
  rw [if_neg (by simp [ho]), if_neg (not_not.2 ha), hw]

/-- No word stands behind a command above 0x0B. -/
theorem smbWord_undefined {cmd : Nat} (h : 0x0B < cmd) (s : State) : smbWord cmd s = none := by
  have hw : within 0x02 0x05 cmd = false := by simp only [within, Bool.and_eq_false_iff, decide_eq_false_iff_not]; omega
  simp only [smbWord, hw, Bool.false_eq_true, if_false]
  rw [if_neg, if_neg, if_neg, if_neg, if_neg, if_neg, if_neg, if_neg] <;> omega

/-- While time passes the console loses no line (R398). -/
theorem uartAfter_lines (n : Nat) (p : PinBlk) : (uartAfter n p).uartOut ++ (uartAfter n p).uart = p.uartOut ++ p.uart := by
  unfold uartAfter
  split
  · rfl
  · simp

/-- XOFF ends the current character and pauses, the lines kept (R398). -/
theorem uartXoff_spec {s : State} (h : s.awake = true) : (uartXoff s).pin.uartPaused = true ∧
    (uartXoff s).pin.uartOut ++ (uartXoff s).pin.uart = s.pin.uartOut ++ s.pin.uart ∧
    uartXoff s = { s with pin := (uartXoff s).pin, clk := (uartXoff s).clk, obs := (uartXoff s).obs } := by
  unfold uartXoff
  refine ⟨rfl, ?_, ?_⟩
  · dsimp only
    rw [elapse_pin _ h]
    exact uartAfter_lines ..
  · dsimp only
    rw [elapse_eq]

/-- A settled LED pin sinks by its source (R392, R399). -/
theorem pinDrive_led {s : State} {n : Nat} (ho : s.handedOff = true) (hb : s.pinBusy n = false) (hf : s.pinFunc n = 8) :
    pinDrive n s = .sink (ledSource (bits 4 4 (s.pinCfg n)) s) := by
  have hsettled : s.pin.switching.get none n = none := by simpa [State.pinBusy] using hb
  unfold pinDrive
  rw [ho, hsettled, hf]
  rfl

/-- Settles O60: the TAP by provisioning, SMBus by the command's word, the console by what time leaves of its lines. -/
theorem sidePorts : Obligations.SidePorts := by
  unfold Obligations.SidePorts
  refine ⟨fun s code haw => ⟨fun hp => ⟨?_, ?_⟩, fun hp hc => ?_, fun hp => ?_, ?_⟩,
    fun s addr cmd ho => ⟨fun ha => ⟨fun w hw => ⟨?_, ?_⟩, fun hc => ?_⟩, ⟨rfl, rfl, ?_⟩, ?_⟩,
    fun s ho hrx => ⟨?_, ?_⟩, fun s n ho hb hf => pinDrive_led ho hb hf⟩
  · simp [exec, execJtagExtest, haw, hp, setTap]
  · simp [exec, execJtagSamplePreload, haw, hp, setTap]
  · have hplain : ¬ (code ≠ 0xF ∧ s.sec.provisioned = true) := by
      rcases hp with hp | rfl
      · simp [hp]
      · simp
    exact congrArg Host.Outcome.next ((if_neg (by simp [haw, hc])).trans (if_neg hplain))
  · intro refused hs
    refine ⟨⟨tapRefuse s, ?_, tapRefuse_spec hs⟩, ⟨tapRefuse s, ?_, tapRefuse_spec hs⟩,
      fun hc hne => ⟨tapRefuse s, ?_, tapRefuse_spec hs⟩⟩
    · simp [exec, execJtagExtest, haw, hp]
    · simp [exec, execJtagSamplePreload, haw, hp]
    · exact congrArg Host.Outcome.next ((if_neg (by simp [haw, hc])).trans (if_pos ⟨hne, hp⟩))
  · have hrun : exec .jtagIdcode s = .next (answer (.bytes (wordBytes idcode)) (setTap 0x1 s)) :=
      congrArg Host.Outcome.next (if_pos haw)
    exact ⟨_, hrun, rfl, rfl, rfl, idcode_of_stepping⟩
  · exact congrArg Host.Outcome.next (smbRead_word ho ha hw false)
  · exact congrArg Host.Outcome.next (smbRead_word ho ha hw true)
  · exact congrArg Host.Outcome.next (smbRead_undefined ho ha (smbWord_undefined hc s) false)
  · simp [smbWord, within, pwrImage]
  · exact congrArg Host.Outcome.next (if_pos ho)
  · exact ⟨uartXoff s, congrArg Host.Outcome.next (if_pos (by simp [ho, hrx])), uartXoff_spec (awake_of_handedOff ho)⟩
  · exact congrArg Host.Outcome.next (if_pos (by simp [ho, hrx]))

end Sys2Proof.Machine

/-! ## IDENTIFY and the officer session (O41) -/

namespace Sys2Proof.Machine

/-- An admin job's completion changes the rings, what is sent and the counters alone (R136). -/
theorem finish_changes_of_admin {j : Job} (h : j.ctx = .admin) (st or d : Nat) (s : State) : finish j st or d s = { s with
    host := (finish j st or d s).host, ring := (finish j st or d s).ring, obs := (finish j st or d s).obs } := by
  have hpin : (finish j st or d s).pin = s.pin := by
    have ha (t : State) : (applyWhenClear t).pin = t.pin := by simp
    have hsend (o : Held) (t : State) : (send o t).pin = t.pin := by simp
    unfold finish postCompletion
    rw [ha, h]
    split
    · dsimp only [countMalformed]
      rw [hsend]
      (repeat' split) <;> rfl
    · rfl
  apply State.eq_of <;> simp [hpin, finish_wards_of_admin h]

/-- A failure counts, and the eighth locks the officer out (R70). -/
theorem officerLockout_counted {s : State} (hl : s.sec.officerLocked = false) (hf : s.sec.officerFails.toNat < 8) :
    let t := officerLockout { s with sec := { s.sec with officerFails := s.sec.officerFails + 1 } }
    t.sec.session = s.sec.session ∧ t.sec.officerFails.toNat = s.sec.officerFails.toNat + 1 ∧
    t.sec.officerLocked = decide (s.sec.officerFails.toNat = 7) ∧ t = { s with obs := t.obs, sec := t.sec, pin := t.pin } := by
  have hcount : (s.sec.officerFails + 1).toNat = s.sec.officerFails.toNat + 1 := by
    rw [BitVec.toNat_add]
    exact Nat.mod_eq_of_lt (by simpa using (by omega : s.sec.officerFails.toNat + 1 < 16))
  dsimp only
  unfold officerLockout
  by_cases h8 : s.sec.officerFails.toNat = 7
  · rw [if_pos (by simp [hl, h8]), logEvent_eq]
    exact ⟨rfl, hcount, by simp [h8], rfl⟩
  · rw [if_neg (by simp; omega)]
    exact ⟨rfl, hcount, by simp [h8, hl], rfl⟩
/-- An OFFICER_AUTH with another credential ends the session, counts and completes with the count (R70, R71). -/
theorem officerAuth_fails {s : State} {j : Job} {v : BitVec 256} (hv : s.sec.verifier = some v) (hl : s.sec.officerLocked = false)
    (hmac : officerMac s j.cred ≠ v) (hf : s.sec.officerFails.toNat < 8)
    (hnone : ∀ k ∈ s.ring.jobs, k.needsSession = true → k.at_ ≠ s.clk.beat) :
    ∃ u, officerAuth j s = finish j 0x33 0 (s.sec.officerFails.toNat + 1) u ∧ u.sec.session = false ∧
      u.sec.officerFails.toNat = s.sec.officerFails.toNat + 1 ∧ u.sec.officerLocked = decide (s.sec.officerFails.toNat = 7) ∧
      u = { s with obs := u.obs, sec := u.sec, pin := u.pin } := by
  obtain ⟨hsess, hcount, hlock, hsame⟩ := officerLockout_counted
    (s := { s with sec := { s.sec with session := false, idleTicks := 0 } }) hl hf
  refine ⟨_, ?_, hsess, hcount, hlock, hsame⟩
  unfold officerAuth
  rw [hv]
  dsimp only
  rw [if_neg (by simp [hl]), if_neg hmac, endSession_of_none hnone]
  exact congrArg (finish j 0x33 0 · _) hcount

/-- Settles O41: each row is one completion, with the identity record or behind what it does to the session. -/
theorem officerCommands : Obligations.OfficerCommands := by
  unfold Obligations.OfficerCommands
  intro s id j hs
  have hadmin {op : Nat} (h : AdminBegins id op .ready j s) : j.ctx = .admin := of_decide_eq_true (id_of_jobFor h.job).2.2.2
  refine ⟨fun a n h hseg => ?_, fun v h hv => ⟨fun hl hmac => ?_, fun hl hmac hf hnone => ?_, fun hl => ?_⟩, fun h hnone => ?_⟩
  · have hrun : exec (.identify id) s = .next (finish j 0 0 0 (scatter j.segs (identityRecord s) s)) :=
      congrArg Host.Outcome.next (runAdmin_begins h (.inl rfl) _)
    obtain ⟨hdone, hdata⟩ := finish_scatter (.refl hs j.id) hseg (d := identityRecord s) (List.cons_ne_nil _ _) 0 0
    refine ⟨_, hrun, hdone, hdata, ?_⟩
    rw [finish_changes_of_admin (hadmin h)]
    apply State.eq_of <;> simp
  · have hrun : exec (.officerAuth id) s = .next (finish j 0 0 0 { s with sec := { s.sec with
        session := true, idleTicks := 0, fetchedThisTick := true, officerFails := 0 } }) := by
      refine congrArg Host.Outcome.next ((runAdmin_begins h (.inl rfl) _).trans ?_)
      simp [officerAuth, hv, hl, hmac]
    refine ⟨_, hrun, finish_completed_of_admin (hadmin h) 0 0 _, by simp, ?_⟩
    rw [finish_changes_of_admin (hadmin h)]
  · obtain ⟨u, hfail, hsess, hcount, hlock, hsame⟩ := officerAuth_fails hv hl hmac hf hnone
    have hrun : exec (.officerAuth id) s = .next (finish j 0x33 0 (s.sec.officerFails.toNat + 1) u) :=
      congrArg Host.Outcome.next ((runAdmin_begins h (.inl rfl) _).trans hfail)
    have hsec : (finish j 0x33 0 (s.sec.officerFails.toNat + 1) u).sec = u.sec := by simp
    refine ⟨_, hrun, ?_, by rw [hsec, hsess], by rw [hsec, hcount], by rw [hsec, hlock], ?_⟩
    · rw [hsame]
      exact finish_completed_of_admin (hadmin h) _ _ _
    · rw [finish_changes_of_admin (hadmin h), hsame]
  · have hrun : exec (.officerAuth id) s = .next (finish j 0x33 0 s.sec.officerFails.toNat s) := by
      refine congrArg Host.Outcome.next ((runAdmin_begins h (.inl rfl) _).trans ?_)
      simp [officerAuth, hv, hl]
    exact ⟨_, hrun, finish_completed j 0x33 _ hs, by simp⟩
  · have hdone := finish_completed j 0 0 hs
    have hclk : (finish j 0 0 0 s).clk = s.clk := by simp
    have hend := endSession_of_none (s := finish j 0 0 0 s) (by rw [hdone.1, hclk]; exact hnone)
    have hrun : exec (.officerLogout id) s = .next (endSession (finish j 0 0 0 s)) :=
      congrArg Host.Outcome.next (runAdmin_begins h (.inl rfl) _)
    rw [hend] at hrun
    refine ⟨_, hrun, hdone, by simp, ?_⟩
    dsimp only
    rw [finish_changes_of_admin (hadmin h)]

end Sys2Proof.Machine

/-! ## Provisioning, the telemetry key and the self-test (O42) -/

namespace Sys2Proof.Machine

/-- The security block at step 5 of R105: the keys are derived, and salt and verifier wait in the staging area. -/
def stagedSec (cred : Bytes) (s : State) : SecBlk :=
  { s.sec with
    drbgIndex := s.sec.drbgIndex + 1, drbgSince := s.sec.drbgSince + 1
    keys := some (deriveKeys (Config.drbg s.sec.drbgIndex))
    staging := some (Config.drbg s.sec.drbgIndex,
      Config.hmac (deriveKeys (Config.drbg s.sec.drbgIndex)).verify (0x4F :: cred)) }
/-- Steps 2 to 5 of R105 change the security block alone. -/
theorem stage_eq (cred : Bytes) (s : State) : stage cred s = { s with sec := stagedSec cred s } := rfl
/-- What a fresh device does with its first officer credential: to step 5, or on to Management (R105, R175). -/
theorem setOfficerCredential_fresh {j : Job} {s : State} (hq : allEqual j.cred = false) (hp : s.sec.provisioned = false)
    (hst : s.sec.staging = none) :
    setOfficerCredential false j s = { s with sec := stagedSec j.cred s } ∧
    setOfficerCredential true j s =
      evalMode (finish j 0 0 0 (recordCommit .admin j.intent 0 (provision { s with sec := stagedSec j.cred s }))) := by
  have hrun (whole : Bool) : setOfficerCredential whole j s = if whole then
      evalMode (finish j 0 0 0 (recordCommit .admin j.intent 0 (provision (stage j.cred s)))) else stage j.cred s := by
    unfold setOfficerCredential
    rw [if_neg (by simp [hq]), if_neg (by simp [hp]), hst]
    dsimp only [Option.isSome]
    rw [if_neg Bool.false_ne_true]
  exact ⟨(hrun false).trans (if_neg Bool.false_ne_true), (hrun true).trans (if_pos rfl)⟩

/-- A provisioned device with no service vote goes from Provisioning to Management (R334). -/
theorem evalMode_provisioned {s : State} (hm : s.pwr.mode = .provisioning) (ht : s.pwr.transition = none)
    (hz : s.sec.zeroizePending = false) (hc : s.pwr.holdCause = 0) (hv : s.pwr.votes ≠ 0)
    (hs : s.pwr.votes &&& serviceSlots = 0) (hq : s.pwr.sleepVote = false) (hp : s.sec.provisioned = true) :
    evalMode s = { s with pwr := { s.pwr with mode := .management } } := by
  have hsel : selectMode s = .management := by
    unfold selectMode
    rw [if_neg (fun h => h.1 hc), if_neg hv]
    simp [hs, hq, hp]
  unfold evalMode
  rw [if_neg (by simp [ht, hz]), hsel]
  dsimp only
  rw [if_neg (by simp [hm])]
  simp only [hm]

/-- With no job fetched there is none to complete. -/
theorem finishWhere_of_no_jobs {s : State} (h : s.ring.jobs = []) (f : Job → Bool) (status : Nat) :
    finishWhere f status s = s := by
  unfold finishWhere
  rw [h]
  rfl
/-- With no job fetched Safe Hold completes none, and sends nothing. -/
theorem safeHold_of_no_jobs {s : State} (h : s.ring.jobs = []) (cause : BitVec 7) :
    (safeHold cause s).host = s.host ∧ (safeHold cause s).ring.jobs = [] := by
  unfold safeHold
  dsimp only
  rw [finishWhere_of_no_jobs (by simp [h])]
  exact ⟨by simp, by simp [h]⟩
/-- With no job fetched the error state completes none, and sends nothing. -/
theorem errorState_of_no_jobs {s : State} (h : s.ring.jobs = []) (cause : Nat) :
    (errorState cause s).host = s.host ∧ (errorState cause s).ring.jobs = [] := by
  obtain ⟨hhost, hjobs⟩ := safeHold_of_no_jobs (s := logEvent 0x0202 0 cause 0 (clearCsps { s with
    sec := { s.sec with error := true, errorCause := BitVec.ofNat 8 cause } })) (by simp [h]) 0x01
  unfold errorState
  dsimp only
  rw [finishWhere_of_no_jobs hjobs]
  exact ⟨by rw [hhost]; simp, hjobs⟩

/-- What is written after a completion, while the jobs and what was sent stay, leaves the job completed. -/
theorem Completed.of_host {j : Job} {st d : Nat} {s t u : State} (h : Completed j st d s t) (hh : u.host = t.host)
    (hj : u.ring.jobs = t.ring.jobs) : Completed j st d s u := by
  unfold Completed at h ⊢
  rw [hh, hj]
  exact h

/-- The COMMIT of an admin command whose effect is one secret of the security block. -/
theorem commit_secret {i : Intent} {j : Job} {s : State} (hs : Sound s) (h : CommitDue i j s) (hc : i.ctx = .admin)
    {x : SecBlk → SecBlk} (he : ∀ v, applyEffect i v = { v with sec := x v.sec }) :
    ∃ t, exec (.ledgerRound [] none) s = .next t ∧ Completed j 0 i.detail s t ∧ t.sec = x s.sec ∧ t.wards = s.wards ∧
      t.pwr = s.pwr := by
  obtain ⟨v, t, ht, hrun, hdone, -⟩ := exec_commit_admin hs h hc fun v => by rw [he]; exact ⟨rfl, rfl, rfl, rfl⟩
  have hsec : t.sec = (applyEffect i v).sec := by rw [ht.rest]; simp
  have hpwr : t.pwr = (applyEffect i v).pwr := by rw [ht.rest]; simp
  have hv := ht.begins.rest
  refine ⟨t, hrun, hdone, ?_, ?_, ?_⟩
  · rw [hsec, he, hv]
  · rw [ht.wards_of_admin h hc, he]
    exact ht.begins.wards_of_admin hc
  · rw [hpwr, he, hv]

/-- Settles O42: a fresh device provisions in one go, a provisioned one journals; each COMMIT brings one secret; the self-test
ends with its own completion or in the error state. -/
theorem keysAndTests : Obligations.KeysAndTests := by
  unfold Obligations.KeysAndTests
  intro s id j hs
  have hadmin {op : Nat} (h : AdminBegins id op .ready j s) : j.ctx = .admin := of_decide_eq_true (id_of_jobFor h.job).2.2.2
  refine ⟨fun h hq => ⟨fun hp ho => ?_, fun hp hst => ⟨?_, fun hm ht hz hc hv hsv hsl => ?_⟩⟩, fun h hq => ?_, fun k h ho hk => ?_,
    fun i h hc => ⟨fun v he => ?_, fun key he => ?_⟩, fun h => ⟨fun hm => ⟨?_, fun f cause hf hjobs => ?_⟩, fun hm => ?_⟩⟩
  · have hrun : exec (.setOfficerCredential id true) s = .next (journal .journal j (.officer (officerMac s j.cred)) 0 s) := by
      refine congrArg Host.Outcome.next ((runAdmin_begins h (.inl rfl) _).trans ?_)
      simp [setOfficerCredential, hq, hp]
    exact ⟨_, hrun, journal_journaled ho (id_of_jobFor h.job).2.1 _ _⟩
  · have hrun : exec (.setOfficerCredential id false) s = .next { s with sec := stagedSec j.cred s } :=
      congrArg Host.Outcome.next ((runAdmin_begins h (.inl rfl) _).trans (setOfficerCredential_fresh hq hp hst).1)
    exact ⟨_, hrun, rfl, rfl, rfl, hp⟩
  · generalize hu : recordCommit .admin j.intent 0 (provision { s with sec := stagedSec j.cred s }) = u
    have hsec : (finish j 0 0 0 u).sec = u.sec := by simp
    have hpwr : (finish j 0 0 0 u).pwr = s.pwr := by rw [← hu]; simp [provision, stagedSec]
    have hmode : evalMode (finish j 0 0 0 u) = { finish j 0 0 0 u with pwr := { s.pwr with mode := .management } } := by
      have hz' : (finish j 0 0 0 u).sec.zeroizePending = false := by rw [hsec, ← hu]; exact hz
      have hp' : (finish j 0 0 0 u).sec.provisioned = true := by rw [hsec, ← hu]; rfl
      rw [← hpwr] at hm ht hc hv hsv hsl ⊢
      exact evalMode_provisioned hm ht hz' hc hv hsv hsl hp'
    have hrun : exec (.setOfficerCredential id true) s = .next (evalMode (finish j 0 0 0 u)) := by
      refine congrArg Host.Outcome.next ((runAdmin_begins h (.inl rfl) _).trans ?_)
      rw [(setOfficerCredential_fresh hq hp hst).2, hu]
    rw [hmode] at hrun
    refine ⟨_, hrun, ?_, ?_⟩
    · have hdone : Completed j 0 0 s (finish j 0 0 0 u) := by rw [← hu]; exact finish_completed_of_admin (hadmin h) 0 0 _
      exact hdone.of_host rfl rfl
    · rw [hsec, ← hu]
      exact ⟨rfl, rfl, rfl, rfl, rfl, rfl⟩
  · have hrun : exec (.setOfficerCredential id true) s = .next (finish j 0x21 0 0x20 s) :=
      congrArg Host.Outcome.next ((runAdmin_begins h (.inl rfl) _).trans (if_pos hq))
    exact ⟨_, hrun, finish_completed j 0x21 0x20 hs, by simp⟩
  · have hrun : exec (.setTelemetryKey id) s =
        .next (journal .journal j (.telemetry (fit 40 (Config.kwWrap k.kek j.cred))) 0 s) := by
      refine congrArg Host.Outcome.next ((runAdmin_begins h (.inl rfl) _).trans ?_)
      unfold setTelemetryKey
      rw [hk]
    exact ⟨_, hrun, journal_journaled ho (id_of_jobFor h.job).2.1 _ _⟩
  · exact commit_secret hs h hc (x := fun c => { c with verifier := some v }) fun v => by unfold applyEffect; rw [he]
  · exact commit_secret hs h hc (x := fun c => { c with telemetry := some key }) fun v => by unfold applyEffect; rw [he]
  · have hrun : exec (.runSelfTest id none) s = .next (finish j 0 0 (s.sec.selftest ||| allPassed).toNat
        { s with sec := { s.sec with selftest := s.sec.selftest ||| allPassed } }) :=
      congrArg Host.Outcome.next ((runAdmin_begins h (.inl rfl) _).trans (if_neg (not_not.2 hm)))
    refine ⟨_, hrun, finish_completed_of_admin (hadmin h) _ _ _, by simp, ?_⟩
    rw [finish_changes_of_admin (hadmin h)]
  · have hrun : exec (.runSelfTest id (some f)) s = .next (errorState cause (finish j 0x12 0 s.sec.selftest.toNat s)) := by
      refine congrArg Host.Outcome.next ((runAdmin_begins h (.inl rfl) _).trans ((if_neg (not_not.2 hm)).trans ?_))
      rw [Option.bind_some, hf]
    have hdone := finish_completed j 0x12 s.sec.selftest.toNat hs
    have hnone : (finish j 0x12 0 s.sec.selftest.toNat s).ring.jobs = [] := by rw [hdone.1, hjobs]; simp [listDrop]
    obtain ⟨hhost, hleft⟩ := errorState_of_no_jobs hnone cause
    obtain ⟨hsec, -, hmode, -⟩ := errorState_spec cause (finish j 0x12 0 s.sec.selftest.toNat s)
    refine ⟨_, hrun, hdone.of_host hhost (hleft.trans hnone.symm), ?_⟩
    rw [hsec]
    exact ⟨rfl, rfl, rfl, hmode⟩
  · have hrun : exec (.runSelfTest id none) s = .next (failWith j 0x21 none s) :=
      congrArg Host.Outcome.next ((runAdmin_begins h (.inl rfl) _).trans (if_pos hm))
    exact ⟨_, _, hrun, finish_completed_of_admin (hadmin h) _ _ _, by simp [failWith]⟩

end Sys2Proof.Machine

/-! ## Fills, ageing and the start of a destage (O50) -/

namespace Sys2Proof.Machine

/-! Where nothing on die waits for media, what waits has nothing to do. -/

/-- No recovery is under way and nothing waits for media, so that a step on media leaves what waited as it was. -/
structure Idle (s : State) : Prop where
  quiet : Quiet s
  recoveries : s.recoveries = []
/-- What the rest reads of a state that is idle. -/
theorem Idle.of_same {s t : State} (h : Idle s) (hr : t.ring = s.ring) (hl : t.ledger = s.ledger)
    (hw : t.cache.waits = s.cache.waits) (hc : t.recoveries = s.recoveries) : Idle t :=
  ⟨⟨hr ▸ h.quiet.jobs, hw.trans h.quiet.waits, hl ▸ h.quiet.replay⟩, hc.trans h.recoveries⟩
/-- No READ is at its blocks. -/
theorem Idle.no_media {s : State} (h : Idle s) : s.ring.jobs.filter (fun j => decide (j.phase = .media)) = [] := by
  rw [List.filter_eq_nil_iff]
  intro j hj
  simpa using h.quiet.jobs j hj
/-- With no READ at its blocks a supplied sub-block reaches none. -/
theorem Idle.supply {s : State} (h : Idle s) (a : SubAddr) (x : Sector) (how : Nat) : supply a x how s = s := by
  unfold Machine.supply serveReads answerReads
  rw [h.no_media]
  split <;> rfl
/-- What waits goes on by nothing but AT_CAP (R239). -/
theorem Idle.moveOn {s : State} (h : Idle s) : ∃ p o, moveOn s = { s with ledger := { s.ledger with atCap := p, owed := o } } := by
  have hretry : retryWaits s = s := by
    unfold retryWaits
    refine List.foldlRecOn (motive := (· = s)) _ _ rfl ?_
    rintro _ rfl c -
    rw [h.quiet.waits]
    rfl
  have hpump : pumpReads s = s := by
    unfold pumpReads
    rw [h.no_media]
    rfl
  obtain ⟨p, o, hcap⟩ := refreshCap_eq s
  refine ⟨p, o, ?_⟩
  have hrec : s.recoveries.foldl (fun s r => checkRecovery r.key s) s = s := by rw [h.recoveries]; rfl
  unfold Machine.moveOn
  dsimp only
  rw [hretry, hpump, hrec, hcap]
  exact if_neg (by simp [h.quiet.replay])

/-! A sub-block in its line. -/

/-- A cached sub-block that is changed reads as it was changed. -/
theorem line_updCached {s : State} (hs : Sound s) {a : SubAddr} {k : Nat} {x y : Sub} {f : Sub → Option Sub}
    (hk : findLine a s = some k) (hx : cached a s = some x) (hf : f x = some y) :
    ((updCached a f s).line k).subs.get none a.sub = some y := by
  unfold updCached
  rw [hk, hx]
  dsimp only
  rw [line_setLine_self hs, hf]
  exact Tab.get_put_self ..
/-- A sub-block installed in the line of its stripe unit stands in it. -/
theorem line_install {s : State} (hs : Sound s) {a : SubAddr} {k : Nat} (hk : findLine a s = some k) (c : Nat) (x : Sub) :
    ((install c a x s).line k).subs.get none a.sub = some x := by
  unfold install
  rw [hk]
  dsimp only
  generalize hl : ({ s.line k with subs := (s.line k).subs.set none a.sub (some x) } : Line) = l
  have hu : Sound (s.setLine k l) := (State_setLine_keeps ..).1 hs
  have htouch : (touch k (s.setLine k l)).line k = { l with used := s.cache.clock + 1 } := by
    show ((s.setLine k l).setLine k { (s.setLine k l).line k with used := s.cache.clock + 1 }).line k = _
    rw [line_setLine_self hu, line_setLine_self hs]
  rw [htouch, ← hl]
  exact Tab.get_put_self ..
/-- BUSY follows the fills; the sub-blocks of a line stay. -/
theorem line_settleBusy {s : State} (hs : Sound s) {k i : Nat} {y : Sub} (h : (s.line k).subs.get none i = some y) (a : SubAddr) :
    ((settleBusy a s).line k).subs.get none i = some y := by
  unfold settleBusy
  split
  · next m _ =>
    dsimp only
    rcases eq_or_ne k m with rfl | hm
    · have hne : (s.line k).subs ≠ [] := fun h0 => by rw [h0] at h; cases h
      rw [line_setLine_self hs, if_neg (fun h0 => hne h0.1)]
      exact h
    · rw [line_setLine_ne hs hm]
      exact h
  · exact h

/-- A sub-block that is changed changes the lines of the cache alone. -/
theorem updCached_cache (a : SubAddr) (f : Sub → Option Sub) (s : State) :
    (updCached a f s).cache = { s.cache with lines := (updCached a f s).cache.lines } := by
  unfold updCached
  split <;> rfl
/-- BUSY changes the lines of the cache alone. -/
theorem settleBusy_cache (a : SubAddr) (s : State) :
    (settleBusy a s).cache = { s.cache with lines := (settleBusy a s).cache.lines } := by
  unfold settleBusy
  split <;> rfl
/-- Where a line waits for it a sector asks for no other, and no block joins those that wait for a way. -/
theorem fillLine_waits {a : SubAddr} {k : Nat} {s : State} (hk : findLine a s = some k) (cls : Nat) (asked : Bool) (x : Sector) :
    (fillLine cls asked a x s).cache.waits = s.cache.waits := by
  unfold fillLine install
  rw [hk]
  dsimp only
  split
  · rfl
  · split <;> rfl

/-- A verified sector that nothing on die supersedes enters the line that waits for it, clean (R213, R217). -/
theorem line_fillLine {s : State} (hs : Sound s) {a : SubAddr} {k : Nat} (hk : findLine a s = some k) (hc : cached a s = none)
    (hd : ledgerData a s = none) (hcol : a.column < (s.group a.group).d) (cls : Nat) (asked : Bool) (x : Sector) :
    ((fillLine cls asked a x s).line k).subs.get none a.sub = some { sector := x } := by
  have hdie : onDie a s = none := by unfold onDie; rw [hc]; exact hd
  have hclean : filled asked a x s = { sector := x } := if_neg (by omega)
  unfold fillLine
  rw [hdie, hk, hclean]
  exact line_install hs hk cls _

/-! The write queue of a cell. -/

/-- A cell replaced by one with the same write queue leaves every write queue. -/
theorem queue_setCell {s : State} (hs : Sound s) {c : CellId} {x : Cell} (hx : x.queue = (s.cell c).queue) (d : CellId) :
    ((s.setCell c x).cell d).queue = (s.cell d).queue := by
  rcases eq_or_ne d c with rfl | hd
  · rw [cell_setCell_self hs, hx]
  · rw [cell_setCell_ne hs hd]
/-- A seek leaves every write queue. -/
theorem startSeek_queue {s : State} (hs : Sound s) (c : CellId) (track : Int) (surface : Nat) (d : CellId) :
    ((startSeek c track surface s).cell d).queue = (s.cell d).queue := by
  generalize hu : (if (s.cell c).servo.target = track then s else bump (cCell c 0xB8) 1 s) = u
  have hsu : Sound u := by subst hu; split; exacts [hs, (bump_keeps ..).1 hs]
  have hcu : u.cell d = s.cell d := by subst hu; split <;> rfl
  generalize hv : (if (s.cell c).servo.surface = surface then u else armSend c 0x1 surface u) = v
  have hsv : Sound v := by subst hv; split; exacts [hsu, (armSend_keeps ..).1 hsu]
  have hcv : (v.cell d).queue = (u.cell d).queue := by
    subst hv
    split
    · rfl
    · exact queue_setCell hsu (by rfl) d
  unfold startSeek
  dsimp only
  rw [hu, hv, ← hcu, ← hcv]
  exact queue_setCell hsv (by rfl) d
/-- What a cell turns to next leaves every write queue. -/
theorem serveNext_queue {s : State} (hs : Sound s) (c d : CellId) : ((serveNext c s).cell d).queue = (s.cell d).queue := by
  unfold serveNext
  dsimp only
  (repeat' split)
  · rfl
  · rfl
  · rfl
  · exact startSeek_queue hs ..
/-- A sector write that begins leaves every write queue. -/
theorem startWrite_queue {s : State} (hs : Sound s) (c d : CellId) : ((startWrite c s).cell d).queue = (s.cell d).queue := by
  unfold startWrite
  dsimp only
  split
  · split
    · exact (queue_setCell ((State_updCell_keeps ..).1 hs) (by rfl) d).trans (queue_setCell hs (by rfl) d)
    · exact serveNext_queue hs c d
  · exact serveNext_queue hs c d
/-- A request for a cell leaves every write queue. -/
theorem requestCell_queue {s : State} (hs : Sound s) (c d : CellId) : ((requestCell c s).cell d).queue = (s.cell d).queue := by
  unfold requestCell
  dsimp only
  split
  · exact queue_setCell hs (by rfl) d
  · exact queue_setCell hs (by rfl) d
/-- A destage that begins joins the write queue of its cell with the sector it has (R320, R321). -/
theorem beginDestage_queue {s : State} (hs : Sound s) {a : SubAddr} (x : Sector)
    (ho : queueOpen ((s.group a.group).cellOf a.stripe a.column) a s = true) :
    ((beginDestage a x s).cell ((s.group a.group).cellOf a.stripe a.column)).queue =
      (s.cell ((s.group a.group).cellOf a.stripe a.column)).queue ++
        [{ addr := a, sector := x, key := s.nextRead, drain := draining a s }] := by
  unfold beginDestage
  dsimp only
  rw [if_pos ho]
  generalize (s.group a.group).cellOf a.stripe a.column = c
  have he : Sound (enqueueWrite c a x s) := (enqueueWrite_keeps ..).1 hs
  rw [startWrite_queue ((requestCell_keeps ..).1 he), requestCell_queue he]
  exact congrArg Cell.queue (cell_updCell_self hs c fun y => { y with queue := y.queue ++ [{
    addr := a, sector := x, key := s.nextRead, drain := draining a s }] })

/-- Settles O50: a fill and a destage are followed through the line and the write queue they change; nothing else is waiting. -/
theorem cacheAndDestage : Obligations.CacheAndDestage := by
  unfold Obligations.CacheAndDestage
  intro s a k hs hq hrec
  have hidle : Idle s := ⟨hq, hrec⟩
  refine ⟨fun hk => ⟨fun r x haw hfind himg hwhy haround hc hd hcol => ?_, fun x hx hdirty hqueued h0 hage hcell => ?_,
    fun x hx hdirty hqueued hserv halive hdef hlost hwq hdefer hopen => ?_⟩, fun slot hc hu hserv halive => ?_⟩
  · have hdrop : Idle (dropRead r.key s) := hidle.of_same rfl rfl rfl rfl
    have hsd : Sound (dropRead r.key s) := (dropRead_keeps ..).1 hs
    have hdeliver : deliver r.why r.cls.toNat r.around a x 0 (dropRead r.key s) =
        settleBusy a (fillLine r.cls.toNat false a x (dropRead r.key s)) := by
      rw [hwhy, haround]
      unfold deliver
      dsimp only
      rw [if_neg Bool.false_ne_true, hdrop.supply]
    have hline := line_settleBusy ((fillLine_keeps ..).1 hsd)
      (line_fillLine hsd (k := k) hk hc hd hcol r.cls.toNat false x) a
    generalize hv : settleBusy a (fillLine r.cls.toNat false a x (dropRead r.key s)) = v at hdeliver hline
    have hwaits : v.cache.waits = s.cache.waits := by
      rw [← hv, settleBusy_cache]
      exact fillLine_waits (s := dropRead r.key s) hk ..
    have hvi : Idle v := hdrop.of_same (by simp [← hv]) (by simp [← hv]) hwaits (by simp [← hv])
    obtain ⟨p, o, hmove⟩ := hvi.moveOn
    have hrun : exec (.cacheFill a) s = .next (moveOn v) := by
      refine congrArg Host.Outcome.next ?_
      unfold cacheFill
      rw [if_neg (by simp [haw]), hfind]
      dsimp only
      rw [himg]
      dsimp only
      rw [hdeliver]
    rw [hmove] at hrun
    exact ⟨_, hrun, by simp [← hv, dropRead], hline⟩
  · have hrun : exec (.destageAge a) s = .next (updCached a (fun y => some { y with queued := true }) s) := by
      refine congrArg Host.Outcome.next ?_
      unfold destageAged
      rw [hx]
      exact if_pos ⟨hdirty, by simp [hqueued], h0, hage, by simp [hcell]⟩
    exact ⟨_, hrun, by apply State.eq_of <;> simp, line_updCached hs hk hx rfl⟩
  · generalize hv : updCached a (fun y => some { y with queued := false }) s = v
    have hsv : Sound v := hv ▸ (updCached_keeps ..).1 hs
    have hgroup : v.group a.group = s.group a.group := by simp [← hv, State.group]
    have hcell (c : CellId) : v.cell c = s.cell c := by simp [← hv, State.cell]
    have hcache := updCached_cache a (fun y => some { y with queued := false }) s
    rw [hv] at hcache
    have hdrain : draining a v = draining a s := by unfold draining; rw [hcache]
    have hopen' : queueOpen ((v.group a.group).cellOf a.stripe a.column) a v = true := by
      rw [hgroup]
      unfold queueOpen at hopen ⊢
      rw [hcell, hdrain]
      exact hopen
    have hbegin := beginDestage_queue hsv x.sector hopen'
    rw [hgroup, hcell, hdrain] at hbegin
    have hkept : (beginDestage a x.sector v).cache = v.cache := by simp
    have hvi : Idle (beginDestage a x.sector v) :=
      hidle.of_same (by simp [← hv]) (by simp [← hv]) (by rw [hkept, hcache]) (by simp [← hv])
    obtain ⟨p, o, hmove⟩ := hvi.moveOn
    have hrun : exec (.destageStart a none) s = .next (moveOn (beginDestage a x.sector v)) := by
      refine congrArg (fun u => Host.Outcome.next (moveOn u)) ?_
      unfold destageStart
      dsimp only
      rw [if_neg (by simp [hserv, halive, hdef, hwq]), if_neg (by simp [hlost]), if_neg (by simp [hdefer]), hx]
      dsimp only
      rw [if_pos (by simp [hdirty, hqueued, hopen]), hv]
    rw [hmove] at hrun
    refine ⟨_, hrun, hbegin.trans (by rw [← hv]; simp), ?_⟩
    show ((beginDestage a x.sector v).line k).subs.get none a.sub = _
    unfold State.line
    rw [hkept, ← hv]
    exact line_updCached hs hk hx rfl
  · have hrun : exec (.destageStart a (some slot)) s = .next (tagFails slot s) :=
      congrArg Host.Outcome.next (if_pos ⟨hserv, by simp [halive], by simp [hc], hu⟩)
    exact ⟨_, hrun, tagFails_holds slot s⟩

end Sys2Proof.Machine

/-! ## What zeroization leaves (O43) -/

namespace Sys2Proof.Machine

/-! No fetched entry is left: every job completes, and a chain that ends adds none. -/

/-- Completing every job leaves none. -/
theorem foldl_finish_jobs (status : Nat) (l : List Job) (s : State) (h : s.ring.jobs = l) :
    (l.foldl (fun s j => finish j status 0 0 s) s).ring.jobs = [] := by
  induction l generalizing s with
  | nil => exact h
  | cons j l ih => exact ih _ (by rw [finish_jobs, h]; simp [listDrop])
/-- Completing every job leaves none. -/
theorem finishWhere_all_jobs (status : Nat) (s : State) : (finishWhere (fun _ => true) status s).ring.jobs = [] := by
  unfold finishWhere
  rw [List.filter_true]
  exact foldl_finish_jobs status _ s rfl
/-- The completion of an open chain leaves no job where there was none. -/
theorem endOpen_no_jobs {s : State} (h : s.ring.jobs = []) (c : Ctx) (status : Nat) :
    (endOpen c status s).ring.jobs = [] := by
  unfold endOpen
  split
  · unfold endChain
    dsimp only
    rw [finish_jobs, State.setRing_jobs]
    simp [newJob, h, listDrop]
  · exact h
/-- Step 4 of zeroization leaves no job. -/
theorem zeroComplete_jobs (s : State) : (zeroComplete s).ring.jobs = [] :=
  foldl_keeps (fun t : State => t.ring.jobs = []) _ (fun _ _ h => endOpen_no_jobs h _ _) _ _
    (endOpen_no_jobs (finishWhere_all_jobs _ _) _ _)

/-! What stopping the media and entering Safe Hold do not bring back. -/

/-- A place at the port changes no intent and no written slot. -/
theorem toPort_records (l : List (PortItem × Nat)) (s : State) :
    (toPort l s).ledger.intents = s.ledger.intents ∧ (toPort l s).ledger.slots = s.ledger.slots := by
  unfold toPort
  split <;> exact ⟨rfl, rfl⟩
/-- A gate that falls changes no intent and no written slot: its mark waits at the port. -/
theorem dropGate_records (c : CellId) (s : State) :
    (dropGate c s).ledger.intents = s.ledger.intents ∧ (dropGate c s).ledger.slots = s.ledger.slots := by
  have hm (k : MarkKind) (u : State) :
      (addMark k u).ledger.intents = u.ledger.intents ∧ (addMark k u).ledger.slots = u.ledger.slots := toPort_records _ _
  unfold dropGate
  dsimp only
  (repeat' split) <;> simp [hm]
/-- Nor does the end of a cell's writing. -/
theorem endAndPark_records (due : DWord) (c : CellId) (s : State) :
    (endAndPark due c s).ledger.intents = s.ledger.intents ∧ (endAndPark due c s).ledger.slots = s.ledger.slots := by
  unfold endAndPark
  split <;> simp [dropGate_records]
/-- Nor does the end of every cell's writing. -/
theorem endAll_records (due : State → DWord) (l : List CellId) (s : State) :
    (l.foldl (fun s c => endAndPark (due s) c s) s).ledger.intents = s.ledger.intents ∧
    (l.foldl (fun s c => endAndPark (due s) c s) s).ledger.slots = s.ledger.slots :=
  foldl_keeps (fun t => t.ledger.intents = s.ledger.intents ∧ t.ledger.slots = s.ledger.slots) _
    (fun t c h => by simpa only [endAndPark_records] using h) l s ⟨rfl, rfl⟩

/-- What zeroization has emptied, and what Safe Hold and a stop of the media do not fill again. -/
structure Emptied (s : State) : Prop where
  jobs : s.ring.jobs = []
  lines : s.cache.lines = []
  intents : s.ledger.intents = []
  slots : s.ledger.slots = []

/-- With no line in the cache nothing is queued for destage again. -/
theorem cellOff_cache {s : State} (h : s.cache.lines = []) (c : CellId) : (cellOff c s).cache = s.cache := by
  have hupd (a : SubAddr) (f : Sub → Option Sub) (t : State) (ht : t.cache = s.cache) : updCached a f t = t := by
    have hf : findLine a t = none := by
      unfold findLine State.line
      rw [ht, h]
      simp [Tab.get, Line.valid]
    unfold updCached
    rw [hf]
  have hfold (l : List QWrite) (t : State) (ht : t.cache = s.cache) :
      l.foldl (fun s q => updCached q.addr (fun y => some { y with queued := y.dirty || y.queued }) s) t = t := by
    induction l with
    | nil => rfl
    | cons q l ih => rw [List.foldl_cons, hupd _ _ _ ht, ih]
  unfold cellOff
  dsimp only
  rw [hfold _ _ (by simp)]
  simp
/-- A cell's port that stops changes no intent and no written slot. -/
theorem cellOff_records (c : CellId) (s : State) :
    (cellOff c s).ledger.intents = s.ledger.intents ∧ (cellOff c s).ledger.slots = s.ledger.slots := by
  simp [cellOff, dropGate_records]
/-- Switching MEDIA off leaves an empty cache as it is. -/
theorem mediaOff_cache {s : State} (h : s.cache.lines = []) : (mediaOff s).cache = s.cache := by
  have : (cellsOff s).cache = s.cache :=
    foldl_keeps (fun t => t.cache = s.cache) _ (fun t c ht => (cellOff_cache (ht ▸ h) c).trans ht) _ s rfl
  simpa [mediaOff] using this
/-- Switching MEDIA off changes the domains alone in the power block. -/
theorem mediaOff_pwr (s : State) : (mediaOff s).pwr = { s.pwr with domains := s.pwr.domains &&& 0x37 } := by
  simp [mediaOff, cellsOff]
/-- Switching MEDIA off keeps what is empty. -/
theorem mediaOff_emptied {s : State} (h : Emptied s) : Emptied (mediaOff s) := by
  have hl : (cellsOff s).ledger.intents = s.ledger.intents ∧ (cellsOff s).ledger.slots = s.ledger.slots :=
    foldl_keeps (fun t => t.ledger.intents = s.ledger.intents ∧ t.ledger.slots = s.ledger.slots) _
      (fun t c ht => by simpa only [cellOff_records] using ht) _ s ⟨rfl, rfl⟩
  exact ⟨by simp [h.jobs], by rw [mediaOff_cache h.lines, h.lines], by simp [mediaOff, hl, h.intents],
    by simp [mediaOff, hl, h.slots]⟩

/-- Safe Hold, with no job to complete, keeps what is empty, the wards and the votes. -/
theorem safeHold_emptied {s : State} (h : Emptied s) (cause : BitVec 7) :
    Emptied (safeHold cause s) ∧ (safeHold cause s).wards = s.wards ∧ (safeHold cause s).pwr.votes = s.pwr.votes ∧
    (safeHold cause s).ring.adminHigh = s.ring.adminHigh := by
  have hvotes : (holdWins s).pwr.votes = s.pwr.votes := by
    unfold holdWins refuseVote
    dsimp only
    (repeat' split) <;> simp
  unfold safeHold
  dsimp only
  rw [finishWhere_of_no_jobs (by simp [h.jobs])]
  refine ⟨⟨by simp [h.jobs], by simp [dropMedia, h.lines, Tab.mapAll], ?_, ?_⟩, by simp, by simp [hvotes], by simp⟩
  · simp [endAll_records, pauseWork, h.intents]
  · simp [endAll_records, pauseWork, h.slots]
/-- The error state, with no job to complete, keeps what is empty, the wards and the votes. -/
theorem errorState_emptied {s : State} (h : Emptied s) (cause : Nat) :
    Emptied (errorState cause s) ∧ (errorState cause s).wards = s.wards ∧ (errorState cause s).pwr.votes = s.pwr.votes ∧
    (errorState cause s).ring.adminHigh = s.ring.adminHigh := by
  generalize hu : logEvent 0x0202 0 cause 0 (clearCsps { s with
    sec := { s.sec with error := true, errorCause := BitVec.ofNat 8 cause } }) = u
  have he : Emptied u := by subst hu; exact ⟨by simp [h.jobs], by simp [h.lines], by simp [h.intents], by simp [h.slots]⟩
  obtain ⟨hk, hw, hv, ha⟩ := safeHold_emptied he 0x01
  have hrun : errorState cause s = safeHold 0x01 u := by
    subst hu
    exact finishWhere_of_no_jobs hk.jobs _ _
  rw [hrun]
  subst hu
  exact ⟨hk, by rw [hw]; simp, by rw [hv]; simp, by rw [ha]; simp⟩

/-! The end of zeroization. -/

/-- A ward that zeroization leaves: UNPROVISIONED, with its epoch alone. -/
structure WardZeroed (e : Word) (x : Ward) : Prop where
  state : x.state = .unprovisioned
  keyPresent : x.keyPresent = false
  wrapped : x.wrapped = []
  verifier : x.verifier = 0
  epoch : x.epoch = e
  configured : x.configured = false

/-- No secret of the device, and no officer, is left. -/
structure NoSecrets (x : SecBlk) : Prop where
  keys : x.keys = none
  salt : x.salt = none
  verifier : x.verifier = none
  telemetry : x.telemetry = none
  staging : x.staging = none
  provisioned : x.provisioned = false

/-- What steps 3 to 5 of R87 leave: no secret, no record, no work, wards with their epochs `e` alone, `n` zeroizations counted,
and the vote of slot 0. -/
structure Overwritten (e : WardId → Word) (n : Word) (u : State) : Prop extends Emptied u where
  secrets : NoSecrets u.sec
  count : u.sec.zeroCount = n
  kcc : u.kcc.entries = []
  adminHigh : u.ring.adminHigh = 0
  canonical : Tab.wf (fun _ => ({} : Ward)) u.wards = true
  wards : ∀ w, WardZeroed (e w) (u.ward w)
  vote : u.pwr.votes.getLsbD 0 = true

variable {e : WardId → Word} {n : Word} {u : State}

/-- Step 5 overwrites what step 3 left (R87). -/
theorem zeroWipe_overwritten (hu : Sound u) (hj : u.ring.jobs = []) (hk : u.sec.keys = none)
    (hs : u.sec.salt = none) (hst : u.sec.staging = none) (hv : u.pwr.votes.getLsbD 0 = true) :
    Overwritten (fun w => (u.ward w).epoch) u.sec.zeroCount (zeroWipe u) ∧ (zeroWipe u).sec.error = u.sec.error ∧
    (zeroWipe u).cache.retired = u.cache.retired := by
  have hward (w : WardId) : (zeroWipe u).ward w = zeroWard (u.ward w) := by
    have h : (zeroWipe u).wards = u.wards.mapAll {} (fun _ x => zeroWard x) := by simp [zeroWipe]
    unfold State.ward
    rw [h]
    exact ward_mapAll hu zeroWard rfl w
  have hsec : (zeroWipe u).sec = { u.sec with
      provisioned := false, verifier := none, telemetry := none
      officerFails := 0, officerLocked := false, lockoutLeft := 0 } := by simp [zeroWipe]
  have hemp : Emptied (zeroWipe u) := ⟨by simp [zeroWipe, hj], rfl, rfl, rfl⟩
  refine ⟨⟨hemp, ?_, by rw [hsec], rfl, rfl, ?_, fun w => ?_, by simp [zeroWipe, hv]⟩, by rw [hsec], by simp [zeroWipe]⟩
  · rw [hsec]; exact ⟨hk, hs, rfl, rfl, hst, rfl⟩
  · exact ((zeroWipe_keeps u).1 hu).wards
  · rw [hward]; exact ⟨rfl, rfl, rfl, rfl, rfl, rfl⟩

/-- A failed test leaves the error state, with what was overwritten as it is (R85, R87 step 6). -/
theorem Overwritten.errorState (h : Overwritten e n u) (cause : Nat) : Overwritten e n (errorState cause u) := by
  obtain ⟨hsec, hkcc, -, -⟩ := errorState_spec cause u
  obtain ⟨hemp, hwards, hvotes, hhigh⟩ := errorState_emptied h.toEmptied cause
  refine ⟨hemp, ?_, by rw [hsec]; exact h.count, hkcc, hhigh.trans h.adminHigh, hwards ▸ h.canonical, fun w => ?_,
    hvotes ▸ h.vote⟩
  · rw [hsec]
    exact ⟨rfl, h.secrets.salt, h.secrets.verifier, h.secrets.telemetry, h.secrets.staging, h.secrets.provisioned⟩
  · unfold State.ward; rw [hwards]; exact h.wards w
/-- Switching MEDIA off leaves what was overwritten as it is. -/
theorem Overwritten.mediaOff (h : Overwritten e n u) : Overwritten e n (mediaOff u) := by
  refine ⟨mediaOff_emptied h.toEmptied, ?_, ?_, ?_, ?_, ?_, fun w => ?_, ?_⟩
  · simpa using h.secrets
  · simpa using h.count
  · simpa using h.kcc
  · simpa using h.adminHigh
  · simpa using h.canonical
  · simpa [State.ward] using h.wards w
  · rw [mediaOff_pwr]; exact h.vote

/-- What the end of step 6 sets in the power and the security block (R87, R346). -/
theorem zeroClose_spec (hj : u.ring.jobs = []) :
    (zeroClose u).sec = { u.sec with
      session := false, idleTicks := 0, zeroizePending := false, zeroCount := u.sec.zeroCount + 1 } ∧
    (zeroClose u).pwr = { u.pwr with
      votes := u.pwr.votes &&& ~~~serviceSlots, votesInv := ~~~(u.pwr.votes &&& ~~~serviceSlots), sleepVote := false
      transition := none, zeroLatched := false } ∧
    (zeroClose u).ring.jobs = [] ∧ (zeroClose u).ring.adminHigh = u.ring.adminHigh ∧
    (zeroClose u).wards = u.wards.mapAll {} (fun _ x => { x.noRings with flush := none }) := by
  have hend : endSession u = { u with sec := { u.sec with session := false, idleTicks := 0 } } :=
    endSession_of_none (by simp [hj])
  unfold zeroClose
  rw [hend]
  simp [clearRings, State.setVotes, hj]
/-- The end of step 6 leaves what was overwritten as it is, and counts the zeroization. -/
theorem Overwritten.zeroClose (h : Overwritten e n u) : Overwritten e (n + 1) (zeroClose u) := by
  obtain ⟨hsec, hpwr, hjobs, hhigh, hwards⟩ := zeroClose_spec h.jobs
  have hward (w : WardId) : (Machine.zeroClose u).ward w = { (u.ward w).noRings with flush := none } := by
    refine (congrArg (Tab.get {} · w.val) hwards).trans ?_
    exact Tab.get_mapAll ({} : Ward) (fun _ x => { x.noRings with flush := none }) (fun _ => rfl) u.wards w.val none h.canonical
  refine ⟨⟨hjobs, by simp [h.lines], by simp [h.intents], by simp [h.slots]⟩, ?_, by rw [hsec, h.count], by simp [h.kcc],
    hhigh.trans h.adminHigh, ?_, fun w => ?_, ?_⟩
  · rw [hsec]; exact { h.secrets with }
  · rw [hwards]; exact Tab.mapAll_wf' _ _ _ h.canonical
  · obtain ⟨hstate, hkey, hwrapped, hverifier, hepoch, -⟩ := h.wards w
    rw [hward]; exact ⟨hstate, hkey, hwrapped, hverifier, hepoch, rfl⟩
  · rw [hpwr]; simp [serviceSlots, h.vote]

/-- A device in the mode that its votes and causes select stays in it. -/
theorem evalMode_selected {s : State} (h : selectMode s = s.pwr.mode) : evalMode s = s := by
  unfold evalMode
  split
  · rfl
  · exact if_pos h

/-- What zeroization leaves at its end: all overwritten, no session, no pending flag, no vote of a service slot. -/
structure Zeroized (e : WardId → Word) (n : Word) (t : State) : Prop extends Overwritten e n t where
  session : t.sec.session = false
  pending : t.sec.zeroizePending = false
  slotVotes : t.pwr.votes &&& serviceSlots = 0

/-- After the end of step 6 the device is zeroized. -/
theorem Overwritten.closed (h : Overwritten e n u) : Zeroized e (n + 1) (Machine.zeroClose u) := by
  obtain ⟨hsec, hpwr, -⟩ := zeroClose_spec h.jobs
  refine ⟨h.zeroClose, by rw [hsec], by rw [hsec], ?_⟩
  rw [hpwr]
  dsimp only
  rw [BitVec.and_assoc]
  simp [serviceSlots]

/-- With a vote and no cause to hold, a zeroized device selects Provisioning; with a cause, Safe Hold (R334). -/
theorem Zeroized.selectMode {t : State} (h : Zeroized e n t) (hs : t.pwr.sleepVote = false) :
    selectMode t = if t.pwr.holdCause = 0 then .provisioning else .safeHold := by
  have hv : t.pwr.votes ≠ 0 := fun h0 => by simpa [h0] using h.vote
  unfold Machine.selectMode
  by_cases hc : t.pwr.holdCause = 0
  · rw [if_neg (fun hx => hx.1 hc), if_neg hv, if_pos hc]
    simp [hs, h.secrets.provisioned]
  · rw [if_pos ⟨hc, hv⟩, if_neg hc]

/-- Step 6 with no test that fails: Provisioning (R87). -/
theorem zeroEnd_passed (h : Overwritten e n u) (hr : u.cache.retired ≠ 0xFFFF) (again : Bool) :
    let t := evalMode (zeroEnd again none u)
    Zeroized e (n + 1) t ∧ t.pwr.mode = .provisioning ∧ t.sys.stage = 5 ∧ t.sec.error = false := by
  generalize hx : ({ u with
      sec := { u.sec with
        error := false, errorCause := 0, drbgReady := true
        selftest := if again then allPassed else u.sec.selftest }
      sys := { u.sys with stage := 0x5 }
      pwr := { u.pwr with mode := .provisioning, holdCause := 0 } } : State) = x
  have hox : Overwritten e n x := by
    subst hx
    exact { h with
      jobs := h.jobs
      secrets := { h.secrets with }
      wards := h.wards }
  have hm := hox.mediaOff
  obtain ⟨hsec, hpwr, -⟩ := zeroClose_spec hm.jobs
  have hend : zeroEnd again none u = zeroClose (mediaOff x) := by
    have hret : (zeroClose (mediaOff x)).cache.retired ≠ 0xFFFF := by
      rw [(zeroClose_frame _).2.2.2.1, mediaOff_cache hox.lines]
      subst hx
      exact hr
    have hrun : zeroEnd again none u = waysCheck (zeroClose (mediaOff x)) := by subst hx; cases again <;> rfl
    exact hrun.trans (if_neg hret)
  have hz := hm.closed
  have hmode : (zeroClose (mediaOff x)).pwr.mode = .provisioning := by rw [hpwr, mediaOff_pwr]; subst hx; rfl
  have hhold : (zeroClose (mediaOff x)).pwr.holdCause = 0 := by rw [hpwr, mediaOff_pwr]; subst hx; rfl
  dsimp only
  rw [hend, evalMode_selected (by rw [hz.selectMode (by rw [hpwr]), if_pos hhold, hmode])]
  refine ⟨hz, hmode, ?_, ?_⟩
  · rw [(zeroClose_frame _).1, (mediaOff_frame _).1]; subst hx; rfl
  · rw [hsec, (mediaOff_frame _).2.2.1]; subst hx; rfl

/-- Step 6 in the error state, with a test that fails: the error state again, in Safe Hold, zeroized (R85, R87). -/
theorem zeroEnd_failed (h : Overwritten e n u) (f : Fin 10) :
    let t := evalMode (zeroEnd true (some f) u)
    Zeroized e (n + 1) t ∧ t.sec.error = true ∧ t.sec.errorCause = BitVec.ofNat 8 (testBit f.val + 1) ∧ t.sys.stage = 7 ∧
    t.pwr.mode = .safeHold := by
  generalize hx : ({ u with
      sec := { u.sec with selftest := passedBefore f.val }
      sys := { u.sys with stage := 0x7 } } : State) = x
  have hox : Overwritten e n x := by
    subst hx
    exact { h with
      jobs := h.jobs
      secrets := { h.secrets with }
      wards := h.wards }
  have hm := hox.errorState (testBit f.val + 1)
  obtain ⟨hsec, hpwr, -⟩ := zeroClose_spec hm.jobs
  obtain ⟨hesec, -, hemode, hehold⟩ := errorState_spec (testBit f.val + 1) x
  have hend : zeroEnd true (some f) u = zeroClose (errorState (testBit f.val + 1) x) := by subst hx; rfl
  have hz := hm.closed
  have hmode : (zeroClose (errorState (testBit f.val + 1) x)).pwr.mode = .safeHold := by rw [hpwr]; exact hemode
  have hhold : (zeroClose (errorState (testBit f.val + 1) x)).pwr.holdCause ≠ 0 := by
    rw [hpwr]
    intro h0
    dsimp only at h0
    simp [h0] at hehold
  dsimp only
  rw [hend, evalMode_selected (by rw [hz.selectMode (by rw [hpwr]), if_neg hhold, hmode])]
  refine ⟨hz, by rw [hsec, hesec], by rw [hsec, hesec], ?_, hmode⟩
  rw [(zeroClose_frame _).1, (errorState_frame _ _).1]; subst hx; rfl

/-! The whole. -/

/-- What is law for epochs through step 4: each ward's as it was. -/
def sameEpochs (s : State) : EpochLaw := ⟨fun _ _ => False, fun w e => e = (s.ward w).epoch, fun _ _ h => h.elim⟩

/-- The first three steps (R87): the flag, no ring read out, no key, no salt; the jobs stand. -/
theorem zeroBegin_spec (s : State) :
    (zeroBegin s).sec = { s.sec with zeroizePending := true, keys := none, salt := none, staging := none, drbgReady := false } ∧
    (zeroBegin s).kcc.entries = [] ∧ (zeroBegin s).host.reads = [] ∧ (zeroBegin s).ring.jobs = s.ring.jobs := by
  simp [zeroBegin, zeroKeys, clearCsps]

/-- The transition in which a zeroization runs. -/
def zeroizing (s : State) : State :=
  { s with pwr := { s.pwr with transition := some .zeroize, transBeat := s.clk.beat } }
@[simp] theorem zeroizing_sec (s : State) : (zeroizing s).sec = s.sec := rfl
@[simp] theorem zeroizing_wards (s : State) : (zeroizing s).wards = s.wards := rfl
@[simp] theorem zeroizing_cache (s : State) : (zeroizing s).cache = s.cache := rfl
@[simp] theorem zeroizing_votes (s : State) : (zeroizing s).pwr.votes = s.pwr.votes := rfl
/-- The transition keeps what holds of every sound state. -/
theorem zeroizing_sound {s : State} (hs : Sound s) : Sound (zeroizing s) := { hs with }
/-- A zeroization is its first three steps, and the rest of them where it is whole (R87, R89). -/
theorem zeroizeNow_eq (whole : Bool) (test : Option (Fin 10)) (s : State) :
    zeroizeNow whole test s =
      if whole then zeroFinish test (zeroizing (zeroBegin s)) else zeroizing (zeroBegin s) := rfl

/-- Step 4 leaves each ward's epoch. -/
theorem zeroComplete_epoch {s : State} (hs : Sound s) (w : WardId) : ((zeroComplete s).ward w).epoch = (s.ward w).epoch :=
  (zeroComplete_epochs (law := sameEpochs s) ⟨hs.wards, fun _ => rfl⟩).has w

/-- Steps 1 to 5 of R87 leave each ward's epoch, and the error state for step 6 to see. -/
theorem zeroBegun_overwritten {s : State} (hs : Sound s) (hv : s.pwr.votes.getLsbD 0 = true) :
    let u := zeroWipe (zeroComplete (zeroizing (zeroBegin s)))
    Overwritten (fun w => (s.ward w).epoch) s.sec.zeroCount u ∧ u.sec.error = s.sec.error ∧
    u.cache.retired = s.cache.retired := by
  generalize hb : zeroizing (zeroBegin s) = v
  have hsound : Sound v := hb ▸ zeroizing_sound ((zeroBegin_keeps s).1 hs)
  have hsec : v.sec = { s.sec with
      zeroizePending := true, keys := none, salt := none, staging := none, drbgReady := false } := by
    rw [← hb, zeroizing_sec, (zeroBegin_spec s).1]
  have hcsec : (zeroComplete v).sec = v.sec := by simp
  have hvotes : (zeroComplete v).pwr.votes = s.pwr.votes := by simp [← hb]
  obtain ⟨how, herr, hret⟩ := zeroWipe_overwritten ((zeroComplete_keeps v).1 hsound) (zeroComplete_jobs v)
    (by rw [hcsec, hsec]) (by rw [hcsec, hsec]) (by rw [hcsec, hsec]) (hvotes ▸ hv)
  have he (w : WardId) : ((zeroComplete v).ward w).epoch = (s.ward w).epoch := by
    rw [zeroComplete_epoch hsound w]
    unfold State.ward
    simp [← hb]
  rw [funext he, hcsec, hsec] at how
  exact ⟨how, by rw [herr, hcsec, hsec], by rw [hret]; simp [← hb]⟩

/-- ZERO_N while awake, outside the start-up and with no zeroization in progress, begins one (R86, R89). -/
theorem execZeroN_awake {s : State} (ha : s.awake = true) (hz : s.sec.zeroizePending = false) (h8 : s.sys.stage ≠ 8)
    (hb : s.sys.boot = none) (he : entering s = false) (whole : Bool) (test : Option (Fin 10)) (b : Boot) :
    exec (.zeroN whole test b) s = .next (zeroizeNow whole test s) := by
  obtain ⟨⟨hp, hd⟩, hr⟩ : (s.pwr.powered = true ∧ s.pwr.mode ≠ .deepStandby) ∧ s.pwr.mode ≠ .retentionSleep := by
    simpa [State.awake] using ha
  show execZeroN whole test b s = _
  unfold execZeroN
  rw [if_neg (by simp [hp]), if_neg (by simp [asleep, hd, hr]), if_neg (by simp [he]), if_neg (by simp [hz]),
    if_neg (by simp [hb]), if_neg h8]

/-- The first three steps alone (R87, R89). -/
theorem zeroizeNow_begun (s : State) :
    let t := zeroizeNow false none s
    t.sec.zeroizePending = true ∧ t.pwr.transition = some .zeroize ∧ t.sec.keys = none ∧ t.sec.salt = none ∧
    t.kcc.entries = [] ∧ t.host.reads = [] ∧ t.ring.jobs = s.ring.jobs := by
  obtain ⟨hsec, hkcc, hreads, hjobs⟩ := zeroBegin_spec s
  rw [zeroizeNow_eq, if_neg Bool.false_ne_true]
  generalize zeroBegin s = u at *
  exact ⟨by rw [zeroizing_sec, hsec], rfl, by rw [zeroizing_sec, hsec], by rw [zeroizing_sec, hsec], hkcc, hreads, hjobs⟩
/-- A whole zeroization in which no test fails (R87). -/
theorem zeroizeNow_passed {s : State} (hs : Sound s) (hv : s.pwr.votes.getLsbD 0 = true) (hr : s.cache.retired ≠ 0xFFFF) :
    let t := zeroizeNow true none s
    Zeroized (fun w => (s.ward w).epoch) (s.sec.zeroCount + 1) t ∧ t.pwr.mode = .provisioning ∧ t.sys.stage = 5 ∧
    t.sec.error = false := by
  obtain ⟨how, -, hret⟩ := zeroBegun_overwritten hs hv
  rw [zeroizeNow_eq, if_pos rfl]
  unfold zeroFinish
  exact zeroEnd_passed how (by rw [hret]; exact hr) _
/-- A whole zeroization in the error state, where test `f` fails again (R85, R87). -/
theorem zeroizeNow_failed {s : State} (hs : Sound s) (hv : s.pwr.votes.getLsbD 0 = true) (herr : s.sec.error = true)
    (f : Fin 10) :
    let t := zeroizeNow true (some f) s
    Zeroized (fun w => (s.ward w).epoch) (s.sec.zeroCount + 1) t ∧ t.sec.error = true ∧
    t.sec.errorCause = BitVec.ofNat 8 (testBit f.val + 1) ∧ t.sys.stage = 7 ∧ t.pwr.mode = .safeHold := by
  obtain ⟨how, -, -⟩ := zeroBegun_overwritten hs hv
  have hagain : (zeroizing (zeroBegin s)).sec.error = true := by rw [zeroizing_sec, (zeroBegin_spec s).1]; exact herr
  rw [zeroizeNow_eq, if_pos rfl]
  unfold zeroFinish
  rw [hagain]
  exact zeroEnd_failed how f

/-- Settles O43: what the first five steps overwrite stands through step 6, whichever end it takes, and both commands run them. -/
theorem zeroization : Obligations.Zeroization := by
  unfold Obligations.Zeroization
  intro s id j b f hs ha hz hv h8 hb he hr
  extract_lets wiped gone begun
  have hwiped {t : State} (h : Zeroized (fun w => (s.ward w).epoch) (s.sec.zeroCount + 1) t) : wiped t :=
    ⟨h.secrets.keys, h.secrets.salt, h.secrets.verifier, h.secrets.telemetry, h.secrets.staging, h.secrets.provisioned,
      h.session, h.pending, h.count, h.kcc, h.jobs, h.adminHigh, h.lines, h.intents, h.slots, h.slotVotes, fun w =>
      ⟨(h.wards w).state, (h.wards w).keyPresent, (h.wards w).wrapped, (h.wards w).verifier, (h.wards w).epoch,
        (h.wards w).configured⟩⟩
  have hgone : gone (zeroizeNow true none s) :=
    have ⟨hzero, hrest⟩ := zeroizeNow_passed hs hv hr
    ⟨hwiped hzero, hrest⟩
  have hbegun : begun (zeroizeNow false none s) := zeroizeNow_begun s
  have hzeroN := execZeroN_awake ha hz h8 hb he
  refine ⟨⟨_, hzeroN _ _ _, hgone⟩, ⟨_, hzeroN _ _ _, hbegun⟩, fun h => ?_, fun herr => ⟨_, hzeroN _ _ _, ?_⟩⟩
  · have hrun (whole : Bool) : exec (.zeroize id whole none) s = .next (zeroizeNow whole none s) :=
      congrArg Host.Outcome.next (runAdmin_begins h (.inl rfl) _)
    exact ⟨⟨_, hrun true, hgone⟩, _, hrun false, hbegun⟩
  · obtain ⟨hzero, hrest⟩ := zeroizeNow_failed hs hv herr f
    exact ⟨hwiped hzero, hrest⟩

end Sys2Proof.Machine

namespace Sys2Proof.Machine

/-! ## How a wake begins (O8)

What `wakeNow` does in each of its cases, which every command that can wake the part ends with. -/

section Wakes

variable {s : State} (b : Boot) (test : Option (Fin 10))

/-- While PF_N is asserted no wake begins (R340). -/
theorem wakeNow_held (hf : s.pwr.pfLow = true) : wakeNow b test s = s := by
  simp [wakeNow, hf]
/-- While an island is clocked there is nothing to wake. -/
theorem wakeNow_awake (ha : s.awake = true) : wakeNow b test s = s := by
  obtain ⟨⟨-, hd⟩, hr⟩ : (s.pwr.powered = true ∧ s.pwr.mode ≠ .deepStandby) ∧ s.pwr.mode ≠ .retentionSleep := by
    simpa [State.awake] using ha
  unfold wakeNow
  split
  · rfl
  · split
    · contradiction
    · contradiction
    · rfl
/-- From Deep Standby a wake starts for the cold source that is due, or else for the oldest latched wake (R340). -/
theorem wakeNow_cold (hp : s.pwr.powered = true) (hf : s.pwr.pfLow = false) (hm : s.pwr.mode = .deepStandby) :
    (∀ src, s.pwr.coldDue = some src → wakeNow b test s = startUp src b s) ∧
    (∀ w r, s.pwr.coldDue = none → s.pwr.wakes = w :: r → wakeNow b test s = startUp w.source b s) := by
  refine ⟨fun src hc => ?_, fun w r hc hw => ?_⟩
  · simp [wakeNow, hp, hf, hm, hc]
  · simp [wakeNow, hp, hf, hm, hc, hw]
/-- In Deep Standby with no cold source due, and in Retention Sleep, no wake begins where none is latched. -/
theorem wakeNow_none (hm : (s.pwr.mode = .deepStandby ∧ s.pwr.coldDue = none) ∨ s.pwr.mode = .retentionSleep)
    (hw : s.pwr.wakes = []) : wakeNow b test s = s := by
  obtain ⟨hm, hc⟩ | hm := hm
  · simp [wakeNow, hm, hc, hw]
  · simp [wakeNow, hm, hw]

end Wakes

/-- The part as the detector's release leaves it (R380): AON is up with no slot held, and the power-on wake is due. -/
def aonUp (s : State) : State :=
  { s with pwr := { s.pwr with
      votes := 0, votesInv := ~~~0, powered := true, mode := .deepStandby, coldDue := some 0 } }
/-- POWER_ON brings AON up, and the power-on wake begins where PF_N lets it (R380). -/
theorem exec_powerOn {s : State} (hp : s.pwr.powered = false) (b : Boot) :
    exec (.powerOn b) s = .next (wakeNow b none (aonUp s)) :=
  congrArg Host.Outcome.next (if_neg (by simp [hp]))
/-- PF_N_DEASSERT lets the wake that is due begin (R340). -/
theorem exec_pfNDeassert {s : State} (hf : s.pwr.pfLow = true) (b : Boot) :
    exec (.pfNDeassert b) s = .next (wakeNow b none { s with pwr := { s.pwr with pfLow := false } }) :=
  congrArg Host.Outcome.next (if_pos hf)

/-- Settles O8: POWER_ON and PF_N_DEASSERT end with the wake that is due, which PF_N holds or lets begin. -/
theorem powerOnWaitsForPf : Obligations.PowerOnWaitsForPf := by
  unfold Obligations.PowerOnWaitsForPf
  intro s b started
  have hstart (src : BitVec 4) (p : PwrBlk) : started src (startUp src b { s with pwr := p }) :=
    ⟨rfl, rfl, rfl, rfl, rfl, rfl, rfl, rfl, rfl, rfl, rfl⟩
  refine ⟨fun hp hf => ?_, fun hp hf => ?_, fun hp hf hm => ?_⟩
  · rw [exec_powerOn hp, wakeNow_held b none (show (aonUp s).pwr.pfLow = true from hf)]
    exact ⟨_, rfl, rfl, rfl, hf, rfl, rfl, rfl⟩
  · rw [exec_powerOn hp, (wakeNow_cold (s := aonUp s) b none rfl hf rfl).1 0 rfl]
    exact ⟨_, rfl, rfl, hstart 0 _⟩
  · rw [exec_pfNDeassert hf]
    obtain ⟨hdue, hlatched⟩ := wakeNow_cold (s := { s with pwr := { s.pwr with pfLow := false } }) b none hp rfl hm
    refine ⟨fun src hc => ?_, fun w r hc hw => ?_, fun hc hw => ?_⟩
    · rw [hdue src hc]
      exact ⟨_, rfl, rfl, hstart src _⟩
    · rw [hlatched w r hc hw]
      exact ⟨_, rfl, rfl, hstart w.source _⟩
    · exact congrArg Host.Outcome.next (wakeNow_none b none (.inl ⟨hm, hc⟩) hw)

end Sys2Proof.Machine

namespace Sys2Proof.Machine

/-! ## A host-link reset (O16) -/

/-- What a host-link reset leaves of the host link: what was sent and answered, and nothing of the endpoint (R94). -/
theorem hostLinkReset_host (s : State) : (hostLinkReset s).host =
    { out := s.host.out, resp := s.host.resp, flr := s.host.flr, capPaused := s.host.capPaused } := by
  simp [hostLinkReset, hostRegsReset, linkStop_host]
/-- A host-link reset masks every vector (R94). -/
theorem hostLinkReset_masked (s : State) (v : Fin 256) : (hostLinkReset s).reg (0x06000 + 16 * v.val + 12) = 1 := by
  refine msixCtl_filtered (s := linkStop s)
    (P := fun a => !((0x04000 ≤ a ∧ a < 0x08000) || (0x08000 ≤ a ∧ a ≤ 0x08010))) rfl (fun a h1 h2 => ?_) v
  have hin : 0x04000 ≤ a ∧ a < 0x08000 := by omega
  simp [hin]
/-- The admin rings are neither placed nor enabled after the link has stopped (R125 step 3). -/
theorem linkStop_rings (s : State) : (linkStop s).ring.placed = false ∧ (linkStop s).ring.enable = false := by
  obtain ⟨l, hl⟩ := linkStop_eq s
  simp [hl, linkCleared, clearRings, dropPend]
/-- What a host-link reset does to rings, wards and session is what stops with the link (R94). -/
theorem hostLinkReset_stops (s : State) :
    (hostLinkReset s).ring = (linkStop s).ring ∧ (hostLinkReset s).wards = (linkStop s).wards ∧
    (hostLinkReset s).sec = (linkStop s).sec := by
  simp [hostLinkReset]
/-- No ward is OPEN as an FLR leaves it. -/
theorem flrLeft_state (x : Ward) : (flrLeft x).state ≠ .opened := by
  simp only [flrLeft, Ward.noRings, flrWard]
  split
  · decide
  · assumption

end Sys2Proof.Machine

namespace Sys2Proof

open Machine

/-- Settles O16: the endpoint by what its reset leaves, the rest by what stops with the link. -/
theorem hostLinkReset : Obligations.HostLinkReset := by
  unfold Obligations.HostLinkReset
  intro s r b hs ha
  extract_lets done
  have hdone (low : Bool) : done (Machine.hostLinkReset { s with pwr := { s.pwr with perstLow := low } }) := by
    generalize hu : ({ s with pwr := { s.pwr with perstLow := low } } : State) = u
    have hus : Sound u := hu ▸ { hs with }
    obtain ⟨hring, hwards, hsec⟩ := hostLinkReset_stops u
    obtain ⟨hjobs, hhigh, hses, -⟩ := linkStop_cleared u
    obtain ⟨hplaced, henable⟩ := linkStop_rings u
    obtain ⟨-, hclk, hpwr, -⟩ := hostLinkReset_frame u
    have hward (w : WardId) : (Machine.hostLinkReset u).ward w = flrLeft (s.ward w) := by
      unfold State.ward
      rw [hwards]
      exact (linkStop_ward hus w).trans (by subst hu; rfl)
    unfold done
    rw [hostLinkReset_host, hring, hsec, hclk, hpwr]
    simp only [hward, true_and]
    refine ⟨?_, hjobs, hplaced, henable, hses, hostLinkReset_masked u, fun w => ⟨flrLeft_state _, rfl, rfl⟩, ?_⟩
    · subst hu; rfl
    · subst hu; exact ⟨hhigh, rfl, rfl, rfl, fun w => ⟨rfl, rfl, rfl, rfl⟩⟩
  refine ⟨?_, fun hlow htrans => ?_⟩
  · refine ⟨Machine.hostLinkReset (if r = .perst then { s with pwr := { s.pwr with perstLow := true } } else s), ?_, ?_⟩
    · show execHostLinkReset r s = _
      simp [execHostLinkReset, ha]
    · split
      · exact hdone true
      · exact hdone s.pwr.perstLow
  · have hrun : exec (.perstN true b) s =
        .next (Machine.hostLinkReset { s with pwr := { s.pwr with perstLow := true } }) := by
      simp only [State.awake, Bool.and_eq_true, decide_eq_true_eq] at ha
      show execPerstN true b s = _
      simp [execPerstN, hlow, htrans, asleep, entering, State.awake, ha]
    exact ⟨_, hrun, hdone true, by simp⟩

end Sys2Proof

namespace Sys2Proof.Machine

/-! ## The ends of the four transitions (O14) -/

/-! Entering Service: every pending loss is counted (R336, R244). -/

/-- An index that does not read as the default is listed. -/
theorem Tab.mem_keys_of_get_ne {α : Type} {d : α} {k : Nat} : ∀ {t : Tab α}, t.get d k ≠ d → k ∈ t.keys
  | [], h => absurd rfl h
  | (j, v) :: t, h => by
    unfold Tab.get at h
    unfold Tab.keys
    split at h
    · next hk => simp [hk]
    · split at h
      · exact absurd rfl h
      · exact List.mem_cons_of_mem _ (Tab.mem_keys_of_get_ne h)
/-- A ward that differs from an unused one is among those in use. -/
theorem mem_usedWards {s : State} {w : WardId} (h : s.ward w ≠ {}) : w ∈ s.usedWards := by
  obtain ⟨⟨k, x⟩, hmem, rfl⟩ := List.mem_map.mp (Tab.mem_keys_of_get_ne h)
  exact List.mem_filterMap.mpr ⟨_, hmem, by simp⟩

/-- A loss that is counted is no longer pending on its ward, and stays on the others (R208). -/
theorem countLoss_pendingLoss {s : State} (hs : Sound s) (w u : WardId) :
    ((countLoss w s).ward u).pendingLoss = if u = w then 0 else (s.ward u).pendingLoss := by
  have hgap := (addGap_keeps w (s.ward w).pendingLoss s).1 hs
  have hward : (countLoss w s).ward u =
      ((addGap w (s.ward w).pendingLoss s).updWard w (fun x => { x with pendingLoss := 0 })).ward u := by
    simp [countLoss, State.ward, State.updWard, State.setWard]
  rw [hward]
  split
  · next h => rw [h, ward_updWard_self hgap]
  · next h => rw [ward_updWard_ne hgap h, addGap, ward_updWard_ne hs h]
/-- Counting the losses of some wards leaves none pending on them. -/
theorem foldl_countLoss_pendingLoss (w : WardId) : ∀ (l : List WardId) {s : State}, Sound s →
    ((l.foldl (fun s w => countLoss w s) s).ward w).pendingLoss = if w ∈ l then 0 else (s.ward w).pendingLoss
  | [], s, _ => by simp
  | v :: l, s, hs => by
    rw [List.foldl_cons, foldl_countLoss_pendingLoss w l ((countLoss_keeps v s).1 hs), countLoss_pendingLoss hs]
    by_cases hl : w ∈ l <;> by_cases hv : w = v <;> simp [hl, hv]
/-- On entry to Service no loss is pending. -/
theorem enterService_pendingLoss {s : State} (hs : Sound s) (w : WardId) : ((enterService s).ward w).pendingLoss = 0 := by
  have hward : (enterService s).ward w = ((s.usedWards.filter (fun w => decide (0 < (s.ward w).pendingLoss))).foldl
      (fun s w => countLoss w s) s).ward w := by
    simp only [State.ward, enterService, bringUpAll_frame]
  rw [hward, foldl_countLoss_pendingLoss w _ hs]
  split
  · rfl
  · next hl =>
    by_contra hpos
    have hused : w ∈ s.usedWards := mem_usedWards fun h => hpos (by rw [h])
    exact hl (List.mem_filter.mpr ⟨hused, by simpa using Nat.pos_of_ne_zero hpos⟩)
/-- Entering Service powers every switched domain and ends the transition (R336). -/
theorem enterService_pwr (s : State) :
    (enterService s).pwr = { s.pwr with mode := .service, transition := none, domains := 0x7F } := by
  simp [enterService]

/-- With a vote for a service slot, and nothing against it, a provisioned device selects Service (R334). -/
theorem selectMode_service {s : State} (hc : s.pwr.holdCause = 0) (hs : s.pwr.sleepVote = false)
    (hp : s.sec.provisioned = true) (hv : s.pwr.votes &&& serviceSlots ≠ 0) : selectMode s = .service := by
  have hv0 : s.pwr.votes ≠ 0 := fun h => hv (by rw [h]; rfl)
  unfold selectMode
  rw [if_neg (fun h => h.1 hc), if_neg hv0, if_neg (by simp [hs]), if_neg (by simp [hp]), if_pos hv]
/-- With a vote, but none for a service slot, it selects Management (R334). -/
theorem selectMode_management {s : State} (hc : s.pwr.holdCause = 0) (hs : s.pwr.sleepVote = false)
    (hp : s.sec.provisioned = true) (hv0 : s.pwr.votes ≠ 0) (hv : s.pwr.votes &&& serviceSlots = 0) :
    selectMode s = .management := by
  unfold selectMode
  rw [if_neg (fun h => h.1 hc), if_neg hv0, if_neg (by simp [hs]), if_neg (by simp [hp]), if_neg (fun h => h hv)]

/-! Deep Standby and Retention Sleep (R339, R341). -/

/-- Moving events to the AON queue keeps the state sound, and neither latches nor ends a wake. -/
theorem foldl_toAon (l : List Event) (s : State) :
    let u := l.foldl (fun s e => toAon e s) s
    (Sound s → Sound u) ∧ u.pwr.wakes = s.pwr.wakes ∧ u.pwr.coldDue = s.pwr.coldDue := by
  refine foldl_keeps (fun u : State => (Sound s → Sound u) ∧ u.pwr.wakes = s.pwr.wakes ∧ u.pwr.coldDue = s.pwr.coldDue)
    (fun s e => toAon e s) (fun u e ⟨hs, hw, hc⟩ => ⟨fun h => (toAon_keeps e u).1 (hs h), ?_⟩) l s ⟨id, rfl, rfl⟩
  unfold toAon
  split <;> exact ⟨hw, hc⟩

/-- What the entry to Deep Standby leaves on die before its domains go down: the final checkpoint, and every ward's gap as the
context entry holds it (R339, R356). -/
def checkpointed (s : State) : State :=
  { s with
    wards := s.wards.mapAll {} (fun _ x => { x with gapKept := x.shedGap })
    obs := { s.obs with
      checkOld := s.obs.checkpoint
      checkpoint := some { boot := s.sec.bootCount, beat := s.clk.beat, counters := s.obs.counters, final := true } } }
/-- With nothing in flight and no block that waits, the entry to Deep Standby ends: its events go to AON and the rest is lost. -/
theorem standbyEnd_quiet {s : State} (hl : ledgerQuiet s = true) (hp : s.pinsQuiet = true) (hq : s.cap.queue = []) :
    standbyEnd s = coldStore (s.obs.events.foldl (fun s e => toAon e s) (checkpointed s)) := by
  have hlose : loseQueue s = s := by simp [loseQueue, hq]
  simp [standbyEnd, hlose, hl, hp, checkpointed]
/-- The power block of a cold stop keeps what AON has latched. -/
theorem coldStore_wakes (s : State) :
    (coldStore s).pwr.wakes = s.pwr.wakes ∧ (coldStore s).pwr.coldDue = s.pwr.coldDue ∧
    (coldStore s).pwr.mode = .deepStandby ∧ (coldStore s).ledger.marks = s.ledger.marks ∧
    (coldStore s).obs.checkpoint = s.obs.checkpoint ∧ (coldStore s).obs.checkOld = s.obs.checkOld :=
  ⟨rfl, rfl, rfl, rfl, rfl, rfl⟩
/-- The entry to Retention Sleep ends with the link and the PLL off and the domains retained (R341). -/
theorem sleepEnd_quiet {s : State} (h : sleepQuiet s = true) :
    (sleepEnd s).pwr = { s.pwr with mode := .retentionSleep, transition := none, domains := 1 } ∧
    (sleepEnd s).host.speed = 0 ∧ (sleepEnd s).clk.lock = false := by
  have hrun : sleepEnd s = { portsOff s with
      pwr := { (portsOff s).pwr with mode := .retentionSleep, transition := none, domains := 1 }
      clk := { (portsOff s).clk with lock := false, pllEnabled := false }
      host := { (portsOff s).host with speed := 0, width := 0, inL1 := false } } := if_neg (by simp [h])
  rw [hrun]
  exact ⟨by simp, rfl, rfl⟩

/-- Settles O14: by the transition that runs, and with none by the cold source that is due. -/
theorem transitionsEnd : Obligations.TransitionsEnd := by
  unfold Obligations.TransitionsEnd
  intro s b hs
  have hexec : exec (.transitionEnd b) s = .next (transitionEnd b s) := rfl
  rw [hexec]
  unfold transitionEnd
  refine ⟨fun hz ht hc hsv hp hv => ?_, fun hz ht hm hc hsv hp hv0 hv => ?_, fun ht hw hc hl hpins hq => ?_,
    fun ht hw hq => ?_, fun src ht hp hf hm hc => ?_⟩
  · have hpwr := enterService_pwr s
    have hsec : (enterService s).sec = s.sec := by simp
    have hsel : selectMode (enterService s) = (enterService s).pwr.mode := by
      rw [selectMode_service (by rw [hpwr]; exact hc) (by rw [hpwr]; exact hsv) (by rw [hsec]; exact hp)
        (by rw [hpwr]; exact hv), hpwr]
    simp only [ht, evalMode_selected hsel]
    exact ⟨_, rfl, by rw [hpwr], by rw [hpwr], by rw [hpwr], enterService_pendingLoss hs, hsec, by simp⟩
  · simp only [ht, hm, Bool.false_eq_true, if_false, hp, if_true]
    have hsel := selectMode_management (s := { s with pwr := { s.pwr with mode := .management, transition := none } })
      hc hsv hp hv0 hv
    exact congrArg Host.Outcome.next (evalMode_selected hsel)
  · simp only [ht]
    generalize hu : s.obs.events.foldl (fun s e => toAon e s) (checkpointed s) = u
    obtain ⟨hus, huw, huc⟩ := foldl_toAon s.obs.events (checkpointed s)
    rw [hu] at hus huw huc
    have hsound : Sound u := hus { hs with wards := Tab.mapAll_wf' _ _ _ hs.wards, checkpoint := hs.counters }
    have hsec : u.sec = s.sec := by simp [← hu, checkpointed]
    have hregs : u.regs = s.regs := by simp [← hu, checkpointed]
    have hobs : u.obs = (checkpointed s).obs := by simp [← hu]
    have hmarks : u.ledger.marks = s.ledger.marks := by simp [← hu, checkpointed]
    obtain ⟨hwakes, hdue, hmode, hmk, hcp, hco⟩ := coldStore_wakes u
    rw [standbyEnd_quiet hl hpins hq, hu,
      wakeNow_none b _ (.inl ⟨hmode, by rw [hdue, huc]; exact hc⟩) (by rw [hwakes, huw]; exact hw)]
    exact ⟨_, rfl, coldStore_stop hsound (by rw [hsec]; simp) hregs, by rw [hmk, hmarks], by rw [hcp, hobs]; rfl,
      by rw [hco, hobs]; rfl⟩
  · obtain ⟨hpwr, hspeed, hlock⟩ := sleepEnd_quiet hq
    simp only [ht]
    rw [wakeNow_none b _ (.inr (by rw [hpwr])) (by rw [hpwr]; exact hw)]
    refine ⟨_, rfl, hpwr, by simp [State.domain, hpwr], fun d h1 h6 => ?_, hspeed, hlock, by simp, by simp, by simp, by simp⟩
    have hoff : (1#7).getLsbD d = false := by simp; omega
    simp [State.domain, hpwr, h1, h6, hoff]
  · simp only [ht]
    rw [(wakeNow_cold b _ hp hf hm).1 src hc]
    exact ⟨_, rfl, rfl, rfl, rfl, rfl⟩

end Sys2Proof.Machine

namespace Sys2Proof.Machine

/-! ## The stages of the start-up (O12) -/

/-- While no command waits, the start-up goes on by one stage (R96). -/
theorem step_boot {s : State} {b : Boot} (hp : s.pending = []) (ha : s.awake = true) (hb : s.sys.boot = some b) :
    (s.sys.stage = 1 → step s = .next (fuseDone b (elapseTo b.fuseEnd.toNat s))) ∧
    (s.sys.stage = 2 → step s = .next (zeroStage (elapseTo b.zeroEnd.toNat s))) ∧
    (s.sys.stage = 3 → step s = .next (testsDone b (elapseTo b.testEnd.toNat s))) ∧
    (s.sys.stage = 4 → step s = .next (scanDone b (elapseTo b.beats.toNat s))) := by
  have hstep : step s = .next (bootStep s) := by simp [step, idleStep, hp, hb]
  rw [hstep]
  refine ⟨fun h => ?_, fun h => ?_, fun h => ?_, fun h => ?_⟩ <;> simp [bootStep, hb, ha, h]

/-! The stage FUSE. -/

/-- What the end of FUSE sets whether or not the fuses can be read: vote slot 0, and a latched zeroization (R96, R98). -/
def fuseRead (b : Boot) (s : State) : State :=
  let s1 := s.setVotes 1
  { s1 with
    sys := { s1.sys with fuseCorrected := BitVec.ofNat 4 (min 15 b.fuseFixed) }
    pwr := { s1.pwr with domains := 0x37 }
    sec := { s1.sec with zeroizePending := s1.sec.zeroizePending || s1.pwr.zeroLatched } }
/-- The life that begins where the fuses can be read: both caches are invalidated, and the PLL is enabled (R96, R102). -/
def fuseGood (b : Boot) (s : State) : State :=
  { fuseRead b s with
    sys := { (fuseRead b s).sys with stage := if s.sec.zeroizePending || s.pwr.zeroLatched then 2 else 3 }
    clk := { s.clk with pllEnabled := true }
    cache := { s.cache with ready := true }
    kcc := { s.kcc with ready := true, busyUntil := s.clk.beat + 48 } }
/-- FUSE ends in FUSE_FAIL, or in a new life. -/
theorem fuseDone_eq (b : Boot) (s : State) :
    fuseDone b s = if b.fuseBad then bootEnds 8 (fuseRead b s) else bootLife (fuseGood b s) := rfl
/-- A new life keeps the stage; its boot count rises by one, its serials start again and the sequence goes on as it was, unless
the count is full (R74, R232). -/
theorem bootLife_spec (s : State) :
    (bootLife s).sys.stage = s.sys.stage ∧
    (s.sec.bootCount ≠ 0xFFFFFFFF → (bootLife s).sec.bootCount = s.sec.bootCount + 1 ∧
      (bootLife s).ledger.nextSerial = 1 ∧ (bootLife s).sys.boot = s.sys.boot) := by
  have hboot : s.sys.boot.map (fun b => { b with scanLate := b.scanLate || false }) = s.sys.boot := by simp
  unfold bootLife
  dsimp only
  refine ⟨by split <;> simp, fun hfull => ?_⟩
  rw [decide_eq_false hfull, hboot]
  split <;> simp

/-! The stage ZEROIZE. -/

/-- The session ends in the security block, whatever completes with it (R71). -/
theorem endSession_sec (s : State) : (endSession s).sec = { s.sec with session := false, idleTicks := 0 } := by
  simp [endSession]
/-- The end of step 6 ends the session and counts the zeroization (R87). -/
theorem zeroClose_sec (s : State) : (zeroClose s).sec = { s.sec with
    session := false, idleTicks := 0, zeroizePending := false, zeroCount := s.sec.zeroCount + 1 } := by
  simp [zeroClose, endSession_sec]
/-- Steps 3 and 5 of R87 in the security block: no salt, and the device is not provisioned. -/
theorem zeroWiped_sec (s : State) : (zeroWipe (zeroKeys s)).sec = { s.sec with
    salt := none, staging := none, keys := none, drbgReady := false
    provisioned := false, verifier := none, telemetry := none, officerFails := 0, officerLocked := false, lockoutLeft := 0 } := by
  simp [zeroWipe, zeroKeys, clearCsps]

/-! The hand-off. -/

/-- The sequence is over at the hand-off, in the stage given and with its beats in BOOT_BEATS (R96, R108). -/
theorem handOff_sys (stage : BitVec 4) (s : State) : (handOff stage s).sys =
    { s.sys with stage := stage, boot := none, zeroInBoot := false, bootBeats := s.clk.beat.setWidth 32 } := by
  simp [handOff, bootEnds]
/-- The events of AON leave it at the hand-off, and nothing else of the power block changes. -/
theorem frontAon_pwr (s : State) : (frontAon s).pwr = { s.pwr with aonEvents := [] } := by
  unfold frontAon
  rw [foldl_pwr _ _ (fun s e => by simp)]
/-- With no Safe Hold cause and a way in service the hand-off stays in its mode (R214). -/
theorem handOff_pwr {s : State} (hc : s.pwr.holdCause = 0) (hr : s.cache.retired ≠ 0xFFFF) (stage : BitVec 4) :
    (handOff stage s).pwr = { s.pwr with aonEvents := [] } := by
  obtain ⟨u, hrun, hpwr, hcache⟩ : ∃ u : State, handOff stage s =
      waysCheck (if u.pwr.holdCause = 0 then u else safeHold u.pwr.holdCause u) ∧
      u.pwr = { s.pwr with aonEvents := [] } ∧ u.cache = s.cache :=
    ⟨_, rfl, by simp [frontAon_pwr], by simp⟩
  have hways : waysCheck u = u := if_neg (by rw [hcache]; exact hr)
  rw [hrun, if_pos (by rw [hpwr]; exact hc), hways, hpwr]

/-! The scan. -/

/-- Applying one open intent leaves the cache as it is. -/
theorem scanOpen_cache (i : Intent) (s : State) : (scanOpen i s).cache = s.cache := by
  unfold scanOpen
  split
  · split <;> simp [addLoss]
  · next h =>
    unfold applyEffect
    rw [h]
    dsimp only
    split <;> simp
  · rfl
/-- Reading the intents of the Ledger leaves the cache as it is. -/
theorem scanLedger_cache (s : State) : (scanLedger s).cache = s.cache := by
  simp [scanLedger, scanOpen_cache]
/-- Time changes no record of the Ledger. -/
theorem scanLimit_elapseTo (b : Boot) (n : Nat) (s : State) : scanLimit b (elapseTo n s) = scanLimit b s := by
  simp [scanLimit, State.liveKeys]

/-! The ends of the later stages. -/

/-- ZEROIZE ends in SELFTEST with the secrets overwritten; step 6 follows at once (R87, R89). -/
theorem zeroStage_spec {s : State} (hz : s.sys.zeroInBoot = false) :
    (zeroStage s).sys = { s.sys with zeroizedAtWake := true, stage := 3 } ∧
    (zeroStage s).sec = { (zeroWipe (zeroKeys s)).sec with
      session := false, idleTicks := 0, zeroizePending := false, zeroCount := s.sec.zeroCount + 1 } := by
  have hsys : (zeroWipe (zeroKeys s)).sys = s.sys := by simp
  have hcount : (zeroWipe (zeroKeys s)).sec.zeroCount = s.sec.zeroCount := by rw [zeroWiped_sec]
  unfold zeroStage
  generalize zeroWipe (zeroKeys s) = u at *
  dsimp only
  rw [if_neg (by simp [hsys, hz]), zeroClose_sec, hcount, (zeroClose_frame _).1, hsys]
  exact ⟨rfl, rfl⟩
/-- A failed test ends SELFTEST in the error state, behind the hand-off (R83, R85). -/
theorem testsDone_failed {s : State} {b : Boot} {f : TestFail} (hf : b.test = some f) (hz : s.sys.zeroInBoot = false) :
    testsDone b s = errorState (failCause f) (handOff 7 { s with sec := { s.sec with selftest := failPassed f } }) := by
  simp [testsDone, hf, hz]
/-- The security block once every test has passed (R75, R82). -/
def testedSec (s : State) : SecBlk :=
  { s.sec with selftest := allPassed, drbgReady := true, keys := s.sec.salt.map deriveKeys }
/-- With every test passed a provisioned device goes on to the scan, any other to the hand-off in Provisioning, with no mark
left in the Ledger (R96, R99). -/
theorem testsDone_passed {s : State} {b : Boot} (hf : b.test = none) (hz : s.sys.zeroInBoot = false) :
    (s.sec.provisioned = true →
      testsDone b s = { s with sec := testedSec s, sys := { s.sys with stage := 4 } }) ∧
    (s.sec.provisioned = false → s.pwr.mode = .management →
      let u := freeMarks (fun _ => true) (elapseTo b.beats.toNat { s with sec := testedSec s })
      testsDone b s = handOff 5 { u with pwr := { s.pwr with mode := .provisioning } }) := by
  have hrun : zeroAfterTests { s with sec := testedSec s } = { s with sec := testedSec s } := if_neg (by simp [hz])
  unfold testsDone
  rw [hf]
  dsimp only
  rw [show ({ s with sec := { s.sec with selftest := allPassed, drbgReady := true, keys := s.sec.salt.map deriveKeys } } :
    State) = { s with sec := testedSec s } from rfl, hrun]
  refine ⟨fun hp => if_pos hp, fun hp hm => ?_⟩
  have hpwr : (freeMarks (fun _ => true) (elapseTo b.beats.toNat { s with sec := testedSec s })).pwr = s.pwr := by simp
  rw [if_neg (by simp [testedSec, hp]), hpwr, if_pos hm]
/-- A scan that cannot finish, or meets a record or an admin context entry that fails its tag, ends in Safe Hold (R99, R240). -/
theorem scanDone_failed {s : State} {b : Boot}
    (h : b.scanLate = true ∨ (scanLimit b s).isSome = true ∨ b.adminBad = true) :
    ∃ u, scanDone b s = safeHold 0x04 (handOff 9 u) := by
  refine ⟨_, if_pos ?_⟩
  obtain h | h | h := h <;> simp [h]
/-- A whole scan hands off in its mode (R99, R244). -/
theorem scanDone_whole {s : State} {b : Boot} (hl : b.scanLate = false) (hs : scanLimit b s = none)
    (ha : b.adminBad = false) : ∃ u : State, scanDone b s = handOff 6 u ∧ u.pwr = s.pwr ∧ u.cache = s.cache := by
  refine ⟨b.badWards.foldl (fun s w => faultWard w 1 s) (scanLedger s), ?_, by simp, by simp [scanLedger_cache]⟩
  simp [scanDone, hl, hs, ha]

/-- Settles O12: stage by stage, from what the sequence does at the stage's end after the time up to it. -/
theorem startUpStages : Obligations.StartUpStages := by
  unfold Obligations.StartUpStages
  intro s b hs hp ha hb hm
  obtain ⟨hfuse, hzero, htest, hscan⟩ := step_boot hp ha hb
  refine ⟨fun h => ?_, fun h hz => ?_, fun h hz => ⟨fun f hf => ?_, fun hf hprov => ?_, fun hf hprov hc hr => ?_⟩,
    fun h => ⟨fun hbad => ?_, fun hlate hlim hadm hc hr => ?_⟩⟩
  · generalize he : elapseTo b.fuseEnd.toNat s = e at hfuse
    have hsec : e.sec = s.sec := by simp [← he]
    have hpwr : e.pwr = s.pwr := by simp [← he]
    have hsys : e.sys = s.sys := by simp [← he]
    have hclk : (fuseDone b e).clk.beat = e.clk.beat := by rw [fuseDone_eq]; split <;> simp [fuseRead, fuseGood]
    refine ⟨_, hfuse h, ?_, fun hle => ?_, fun hbad => ?_, fun hgood => ?_⟩
    · rw [fuseDone_eq]
      split <;> simp [fuseRead, fuseGood, State.setVotes]
    · rw [hclk, ← he]
      exact elapseTo_beat _ ha (by omega) hle
    · rw [hclk, fuseDone_eq, if_pos hbad]
      exact ⟨rfl, rfl, rfl⟩
    · obtain ⟨hstage, hlife⟩ := bootLife_spec (fuseGood b e)
      rw [hclk, fuseDone_eq, if_neg (by simp [hgood])]
      refine ⟨?_, by simp [fuseGood], by simp [fuseGood], by simp [fuseGood], by simp [fuseGood], fun hfull => ?_⟩
      · rw [hstage, ← hsec, ← hpwr]
        rfl
      · rw [← hsec] at hfull ⊢
        obtain ⟨hcount, hserial, hboot⟩ := hlife hfull
        exact ⟨hcount, hserial, by rw [hboot, ← hb, ← hsys]; rfl⟩
  · generalize he : elapseTo b.zeroEnd.toNat s = e at hzero
    have hsec : e.sec = s.sec := by simp [← he]
    have hsys : e.sys = s.sys := by simp [← he]
    obtain ⟨hzsys, hzsec⟩ := zeroStage_spec (s := e) (by rw [hsys]; exact hz)
    refine ⟨_, hzero h, ?_⟩
    rw [hzsys, hzsec, zeroWiped_sec, hsec]
    exact ⟨rfl, rfl, rfl, rfl, rfl, rfl⟩
  · rw [htest h, testsDone_failed hf (by simpa using hz)]
    obtain ⟨hsec, -, hmode, -⟩ := errorState_spec (failCause f) (handOff 7 { elapseTo b.testEnd.toNat s with
      sec := { (elapseTo b.testEnd.toNat s).sec with selftest := failPassed f } })
    refine ⟨_, rfl, ?_⟩
    rw [(errorState_frame _ _).1, handOff_sys, hmode, hsec, (handOff_frame _ _).2.1]
    exact ⟨rfl, rfl, rfl, rfl, rfl, rfl, rfl⟩
  · rw [htest h, (testsDone_passed hf (by simpa using hz)).1 (by simpa using hprov)]
    exact ⟨_, rfl, rfl, by simpa using hb, rfl, by simp [testedSec], rfl⟩
  · rw [htest h, (testsDone_passed hf (by simpa using hz)).2 (by simpa using hprov) (by simpa using hm)]
    refine ⟨_, rfl, ?_⟩
    rw [handOff_sys, handOff_pwr (by simpa using hc) (by simpa using hr), (handOff_frame _ _).1]
    exact ⟨rfl, rfl, rfl, rfl⟩
  · obtain ⟨u, hrun⟩ := scanDone_failed (s := elapseTo b.beats.toNat s) (b := b) (by rwa [scanLimit_elapseTo])
    obtain ⟨hmode, hcause⟩ := safeHold_pwr 0x04 (handOff 9 u)
    rw [hscan h, hrun]
    refine ⟨_, rfl, ?_⟩
    rw [(safeHold_frame _ _).1, handOff_sys, hmode, hcause]
    exact ⟨rfl, rfl, rfl, by simp⟩
  · obtain ⟨u, hrun, hpwr, hcache⟩ := scanDone_whole (s := elapseTo b.beats.toNat s) hlate
      (by rwa [scanLimit_elapseTo]) hadm
    rw [hscan h, hrun]
    refine ⟨_, rfl, ?_⟩
    rw [handOff_sys, handOff_pwr (by rw [hpwr]; simpa using hc) (by rw [hcache]; simpa using hr), hpwr,
      (handOff_frame _ _).1]
    exact ⟨rfl, rfl, by simpa using hm, rfl⟩

end Sys2Proof.Machine

namespace Sys2Proof.Machine

/-! ## The seal, LP_OVERLOAD and COLD_RESTART (O10) -/

/-! Write rounds in which no slot fails: the power block and the boot count stay. -/

/-- No effect of a COMMIT is on the boot count. -/
theorem applyEffect_bootCount (i : Intent) (s : State) : (applyEffect i s).sec.bootCount = s.sec.bootCount := by
  unfold applyEffect
  split <;> simp
/-- A COMMIT leaves the boot count. -/
theorem commitDone_bootCount (i : Intent) (s : State) : (commitDone i s).sec.bootCount = s.sec.bootCount := by
  unfold commitDone
  dsimp only
  rw [(pruneIntents_frame _).2.2.1]
  split <;> simp [applyEffect_bootCount]
/-- What ends in a write round leaves the boot count. -/
theorem itemDone_bootCount (it : PortItem) (s : State) : (itemDone it s).sec.bootCount = s.sec.bootCount := by
  unfold itemDone
  dsimp only
  (repeat' split) <;> simp [commitDone_bootCount]
/-- Slots that all verify are written without Safe Hold. -/
theorem writeSlots_pwr (key : BitVec 256) (k n : Nat) (s : State) : (writeSlots key [] k n s).2.pwr = s.pwr := by
  induction k generalizing n s with
  | zero => rfl
  | succ k ih =>
    unfold writeSlots
    dsimp only
    (repeat' split) <;> simp_all
/-- A write round in which no slot fails leaves the power block and the boot count. -/
theorem ledgerRound_kept (s : State) :
    (ledgerRound [] s).pwr = s.pwr ∧ (ledgerRound [] s).sec.bootCount = s.sec.bootCount := by
  unfold ledgerRound
  split
  · exact ⟨rfl, rfl⟩
  · split
    · exact ⟨rfl, rfl⟩
    · refine ⟨by simp [writeSlots_pwr], ?_⟩
      dsimp only
      rw [(refreshCap_frame _).2.2.1, (pumpPort_frame _).2.2.1, (holdCheck_frame _).2.2.1]
      exact foldl_keeps (fun t : State => t.sec.bootCount = s.sec.bootCount) (fun t it => itemDone it t)
        (fun t it h => (itemDone_bootCount it t).trans h) _ _ (by simp)
/-- Emptying the port leaves the power block and the boot count. -/
theorem drainPort_kept (n : Nat) (s : State) :
    (drainPort n s).pwr = s.pwr ∧ (drainPort n s).sec.bootCount = s.sec.bootCount := by
  induction n generalizing s with
  | zero => exact ⟨rfl, rfl⟩
  | succ n ih =>
    unfold drainPort
    split
    · exact ⟨rfl, rfl⟩
    · rw [(ih _).1, (ih _).2]
      exact ledgerRound_kept s

/-! The records of the seal (R241). -/

/-- Slots that the die writes change no mark. -/
theorem putSlots_marks (n slot : Nat) (d : Bytes) (s : State) : (putSlots n slot d s).ledger.marks = s.ledger.marks := by
  induction n generalizing slot d s with
  | zero => rfl
  | succ n ih => exact ih _ _ _
/-- The mark that the die writes is among those on the Ledger, with the boot in which it was written (R238). -/
theorem putMark_mem (slot : Nat) (k : MarkKind) (s : State) :
    ∃ m ∈ (putMark slot k s).ledger.marks, m.kind = k ∧ m.slot = slot ∧ m.boot = s.sec.bootCount := by
  refine ⟨⟨k, s.sec.bootCount, s.ledger.nextSerial, slot⟩, ?_, rfl, rfl, rfl⟩
  unfold putMark
  dsimp only
  split <;> simp [putSlots_marks]
/-- Latching the zeroization leaves the boot count. -/
theorem sealZero_bootCount (s : State) : (sealZero s).sec.bootCount = s.sec.bootCount := by
  unfold sealZero
  split <;> simp
/-- The state in which the seal writes its own mark: steps 1 to 5 of R241 have run. -/
def sealBefore (ends : List CellId) (s : State) : State :=
  allCells.foldl sealTorn (sealOpen (drainPort 4096 (sealZero (allCells.foldl (sealGate ends) s))))
/-- The seal ends with its own mark, in the last slot (R241 step 6). -/
theorem sealRecords_eq (stop : BitVec 3) (ends : List CellId) (s : State) : sealRecords stop ends s =
    putMark 49151 (.sealed s.clk.beat s.tai (stop.toNat - 1)) (sealBefore ends s) := rfl
/-- What the seal writes before its own mark leaves the power block and the boot count. -/
theorem sealBefore_kept (ends : List CellId) (s : State) :
    (sealBefore ends s).pwr = s.pwr ∧ (sealBefore ends s).sec.bootCount = s.sec.bootCount := by
  have hgate : (allCells.foldl (sealGate ends) s).pwr = s.pwr ∧ (allCells.foldl (sealGate ends) s).sec = s.sec := by simp
  have htorn (t : State) : (allCells.foldl sealTorn t).pwr = t.pwr ∧ (allCells.foldl sealTorn t).sec = t.sec := by simp
  unfold sealBefore
  rw [(htorn _).1, (htorn _).2]
  simp [drainPort_kept, sealZero_bootCount, hgate]
/-- The seal leaves the power block, and its mark names the beat, TAI and the cause (R241 step 6, R354). -/
theorem sealRecords_spec (stop : BitVec 3) (ends : List CellId) (s : State) :
    (sealRecords stop ends s).pwr = s.pwr ∧
    ∃ m ∈ (sealRecords stop ends s).ledger.marks,
      m.kind = .sealed s.clk.beat s.tai (stop.toNat - 1) ∧ m.slot = 49151 ∧ m.boot = s.sec.bootCount := by
  obtain ⟨hpwr, hboot⟩ := sealBefore_kept ends s
  rw [sealRecords_eq, ← hboot]
  exact ⟨by simp [hpwr], putMark_mem _ _ _⟩

/-! COLD_RESTART (R107). -/

/-- A part of which an island is clocked is powered. -/
theorem powered_of_awake {s : State} (h : s.awake = true) : s.pwr.powered = true := by
  simp only [State.awake, Bool.and_eq_true] at h
  exact h.1.1
/-- COLD_RESTART where the function answers: the write of SYS.RESTART, and the wake that is due after it. -/
theorem exec_coldRestart {s : State} (h : s.hostOpen = true) (key : BitVec 16) (ends : List CellId) (b : Boot) :
    exec (.coldRestart key ends b) s = .next (wakeNow b none (restartWrite key ends s)) :=
  congrArg Host.Outcome.next (if_pos h)
/-- The key with a session is accepted, and the seal runs. -/
theorem restartWrite_accepted {s : State} (hh : s.handedOff = true) (hs : s.sec.session = true) (ends : List CellId) :
    restartWrite 0x5A17 ends s = powerSeal 3 6 ends s := by
  simp [restartWrite, hh, hs]
/-- Any other value, and the key with no session outside the failure stages, is logged alone. -/
theorem restartWrite_refused {s : State} {key : BitVec 16} (hh : s.handedOff = true)
    (hk : key ≠ 0x5A17 ∨ (s.sec.session = false ∧ s.sys.stage.toNat < 7)) (ends : List CellId) :
    restartWrite key ends s = logEvent 0x0205 0 0 0 s := by
  unfold restartWrite
  rw [if_neg (by simp [hh]), if_neg]
  rintro ⟨hkey, hsession⟩
  obtain hk | ⟨hno, hstage⟩ := hk
  · exact hk hkey
  · obtain hyes | ⟨hlow, -⟩ := hsession
    · simp [hno] at hyes
    · omega

/-! LP_OVERLOAD (R348). -/

/-- The state in which AON restarts after LP_OVERLOAD: the event is queued, the rest is cut without a seal, and the bank says why. -/
def overloaded (s : State) : State :=
  let e : Event := { code := 0x0906, late := true, replayed := true, boot := s.sec.bootCount, beat := s.clk.beat }
  let s1 := (coldStore (toAon e s)).setVotes 0
  { s1 with pwr := { s1.pwr with
      lpOverload := true, lastStop := 4, priorVotes := s.pwr.votes, sleepVote := false, coldDue := some 5 } }
/-- LP_OVERLOAD in Deep Standby and in Retention Sleep. -/
theorem exec_lpOverload {s : State} (hp : s.pwr.powered = true)
    (hm : s.pwr.mode = .deepStandby ∨ s.pwr.mode = .retentionSleep) (b : Boot) :
    exec (.lpOverload b) s = .next (wakeNow b none (overloaded s)) :=
  congrArg Host.Outcome.next (if_pos (by simp [asleep, hp, hm]))
/-- Queueing an event in AON leaves the supply and PF_N. -/
theorem toAon_supply (e : Event) (s : State) :
    (toAon e s).pwr.powered = s.pwr.powered ∧ (toAon e s).pwr.pfLow = s.pwr.pfLow := by
  unfold toAon
  split <;> exact ⟨rfl, rfl⟩
/-- LP_OVERLOAD leaves the supply and PF_N, writes no mark, and is a cold stop. -/
theorem overloaded_spec {s : State} (hs : Sound s) :
    (overloaded s).pwr.powered = s.pwr.powered ∧ (overloaded s).pwr.pfLow = s.pwr.pfLow ∧
    (overloaded s).ledger.marks = s.ledger.marks ∧ ColdStop s (overloaded s) := by
  have hstop (e : Event) : ColdStop s (coldStore (toAon e s)) :=
    coldStore_stop ((toAon_keeps e s).1 hs) (by simp) (by simp)
  have hmarks (e : Event) : (toAon e s).ledger.marks = s.ledger.marks := by simp
  exact ⟨(toAon_supply _ s).1, (toAon_supply _ s).2, hmarks _, (hstop _).of_pwr _ rfl rfl⟩
/-- Where the AON queue has room, the event is at its end. -/
theorem overloaded_events {s : State} (h : s.pwr.aonEvents.length < 64) :
    ∃ e, (overloaded s).pwr.aonEvents = s.pwr.aonEvents ++ [e] ∧ e.code = 0x0906 := by
  refine ⟨{ code := 0x0906, late := true, replayed := true, boot := s.sec.bootCount, beat := s.clk.beat }, ?_, rfl⟩
  show (toAon _ s).pwr.aonEvents = _
  simp [toAon, h]

/-- Settles O10: LP_OVERLOAD by PF_N, and COLD_RESTART by whether its write is accepted. -/
theorem restartsWithoutPower : Obligations.RestartsWithoutPower := by
  unfold Obligations.RestartsWithoutPower
  refine ⟨fun s b hs hp hm => ?_, fun s b key ends hopen hh => ⟨fun hk hsession hf => ?_, fun hk => ?_⟩⟩
  · rw [exec_lpOverload hp hm]
    obtain ⟨hpowered, hpf, hmarks, hstop⟩ := overloaded_spec hs
    refine ⟨fun hf => ?_, fun hf => ?_⟩
    · rw [wakeNow_held b none (hpf.trans hf)]
      exact ⟨_, rfl, hstop, rfl, rfl, rfl, rfl, rfl, hmarks, overloaded_events⟩
    · rw [(wakeNow_cold b none (hpowered.trans hp) (hpf.trans hf) rfl).1 5 rfl]
      exact ⟨_, rfl, rfl, rfl, rfl, rfl, rfl, rfl, hmarks, rfl⟩
  · obtain ⟨hpwr, hsealed⟩ := sealRecords_spec 3 ends s
    rw [exec_coldRestart hopen, hk, restartWrite_accepted hh hsession]
    unfold powerSeal
    generalize sealRecords 3 ends s = u at hpwr hsealed
    have hp : u.pwr.powered = true := by rw [hpwr]; exact powered_of_awake (awake_of_handedOff hh)
    have hf' : u.pwr.pfLow = false := by rw [hpwr]; exact hf
    rw [(wakeNow_cold (s := sealBank 3 6 s.pwr.votes (coldStore u)) b none hp hf' rfl).1 6 rfl]
    exact ⟨_, rfl, rfl, rfl, rfl, rfl, rfl, rfl, rfl, rfl, rfl, hsealed⟩
  · have ha : (logEvent 0x0205 0 0 0 s).awake = true := by simpa [State.awake] using awake_of_handedOff hh
    rw [exec_coldRestart hopen, restartWrite_refused hh hk, wakeNow_awake b none ha]
    refine ⟨_, rfl, logEvent_eq _ _ _ _ s, fun hroom => ?_⟩
    obtain ⟨e, hmem, hcode, -, -, hbeat⟩ := logEvent_logged hroom 0x0205 0 0 0
    exact ⟨e, hmem, hcode, hbeat⟩

end Sys2Proof.Machine

namespace Sys2Proof.Machine

/-! ## What is sent, and what was held (O18)

Output moves what was sent, the link's idleness and what is pending on the vectors; held output goes out as `heldOut` says. -/

section Output

variable {s t u : State}

/-- Between `s` and `t` the output `l` has been sent, and but for it only the link's idleness and what is pending on the vectors
have moved (R118, R129). -/
def Sent (l : List Out) (s t : State) : Prop :=
  ∃ idle pend pba, t = { s with host := { s.host with out := s.host.out ++ l, inL1 := idle, pend := pend, pba := pba } }
/-- Nothing but messages. -/
def MessagesOnly (l : List Out) : Prop := ∀ o ∈ l, ∃ v, o = .msix v

theorem Sent.refl (s : State) : Sent [] s s := ⟨s.host.inL1, s.host.pend, s.host.pba, by rw [List.append_nil]⟩
theorem Sent.trans {l m : List Out} (h : Sent l s t) (k : Sent m t u) : Sent (l ++ m) s u := by
  obtain ⟨_, _, _, rfl⟩ := h
  obtain ⟨idle, pend, pba, rfl⟩ := k
  exact ⟨idle, pend, pba, by rw [← List.append_assoc]⟩
/-- What held output is once written does not turn on what has been sent. -/
theorem Sent.heldOut_eq {l : List Out} (h : Sent l s t) : heldOut t = heldOut s := by
  obtain ⟨_, _, _, rfl⟩ := h
  rfl

theorem emit_sent (o : Out) (s : State) : Sent [o] s (emit o s) := ⟨false, s.host.pend, s.host.pba, rfl⟩
theorem sendMsix_sent (v : Nat) (s : State) : Sent [.msix v] s (sendMsix v s) := ⟨_, _, _, rfl⟩
theorem joinPend_sent (c : Ctx) (s : State) : Sent [] s (joinPend c s) := by
  unfold joinPend
  split
  · exact .refl s
  · exact ⟨s.host.inL1, _, s.host.pba, by rw [List.append_nil]⟩
/-- What fires on a vector is its message or nothing (R117, R120). -/
theorem fireVector_sent (v : Nat) (s : State) : ∃ l, MessagesOnly l ∧ Sent l s (fireVector v s) := by
  unfold fireVector
  split
  · split
    · exact ⟨[], by simp [MessagesOnly], s.host.inL1, s.host.pend, _, by rw [List.append_nil]⟩
    · exact ⟨[.msix v], by simp [MessagesOnly], sendMsix_sent v s⟩
  · exact ⟨[], by simp [MessagesOnly], .refl s⟩
/-- Outputs go out in the order of their list. -/
theorem foldl_emit_sent {α : Type} (f : α → Out) (l : List α) (s : State) :
    Sent (l.map f) s (l.foldl (fun t p => emit (f p) t) s) := by
  induction l generalizing s with
  | nil => exact .refl s
  | cons p l ih => exact (emit_sent (f p) s).trans (ih _)
/-- Held output goes out as `heldOut` says (R119, R121, R136). -/
theorem putOut_sent (h : Held) (s : State) : Sent (heldOut s h) s (putOut h s) := by
  cases h with
  | data a b => exact foldl_emit_sent (fun p : DWord × Bytes => Out.data p.1 p.2 s.relaxed) _ s
  | entry e => exact (emit_sent _ s).trans (joinPend_sent e.ctx _)
/-- Held outputs go out in their order. -/
theorem foldl_putOut_sent (l : List Held) (s : State) :
    Sent (l.flatMap (heldOut s)) s (l.foldl (fun s h => putOut h s) s) := by
  induction l generalizing s with
  | nil => exact .refl s
  | cons h l ih =>
    have hp := putOut_sent h s
    have hl := ih (putOut h s)
    rw [hp.heldOut_eq] at hl
    exact hp.trans hl
/-- Vectors taken in any order send messages alone. -/
theorem eachVector_sent {f : Nat → State → State} (hf : ∀ v s, ∃ l, MessagesOnly l ∧ Sent l s (f v s)) (vs : List Nat)
    (s : State) : ∃ n l, MessagesOnly l ∧ Sent l { s with fresh := n } (eachVector f vs s) := by
  refine ⟨s.fresh + (vs.length - 1), foldl_keeps (fun t => ∃ l, MessagesOnly l ∧ Sent l _ t) _ ?_ _ _
    ⟨[], by simp [MessagesOnly], .refl _⟩⟩
  rintro t v ⟨l, hl, ht⟩
  obtain ⟨m, hm, hv⟩ := hf v t
  exact ⟨l ++ m, fun o ho => (List.mem_append.1 ho).elim (hl o) (hm o), ht.trans hv⟩

/-- With DMA open what was held is released, and nothing else changes but what output moves (R127). -/
theorem releaseHeld_open (hd : s.dmaOpen = true) : Released s (releaseHeld s) ∧ ∃ out idle pend pba n, releaseHeld s =
    { s with host := { s.host with held := [], out := out, inL1 := idle, pend := pend, pba := pba }, fresh := n } := by
  unfold releaseHeld
  rw [if_pos hd]
  dsimp only
  generalize ht : s.host.held.foldl (fun s h => putOut h s) { s with host := { s.host with held := [] } } = t
  have hput : Sent (s.host.held.flatMap (heldOut s)) { s with host := { s.host with held := [] } } t :=
    ht ▸ foldl_putOut_sent s.host.held { s with host := { s.host with held := [] } }
  generalize (List.eraseDups _ : List Nat) = vs
  obtain ⟨n, m, hm, hmsg⟩ := eachVector_sent fireVector_sent vs t
  obtain ⟨_, _, _, rfl⟩ := hput
  obtain ⟨idle, pend, pba, hend⟩ := hmsg
  rw [hend]
  exact ⟨⟨rfl, m, rfl, hm⟩, _, idle, pend, pba, n, rfl⟩
/-- With DMA shut nothing is released. -/
theorem releaseHeld_shut (hd : s.dmaOpen = false) : releaseHeld s = s := by
  simp [releaseHeld, hd]

end Output

/-! The configuration requests that open and shut DMA (R109, R122, R127). -/

section Config

variable {s : State} (hc : s.cfgOpen = true) (hf : s.host.flr = none)
include hc

theorem awake_of_cfgOpen : s.awake = true := by
  simp only [State.cfgOpen, State.linkOpen, Bool.and_eq_true] at hc
  exact hc.1.1

include hf

/-- With no FLR running a configuration request is served. -/
theorem cfgWrite_served (f : State → State) : cfgWrite f s = f s := by
  simp [cfgWrite, hc, hf]
/-- With the link up and no FLR running, DMA turns on Bus Master Enable and on the power state (R127). -/
theorem dmaOpen_of_cfgOpen : s.dmaOpen = (s.host.bme && !s.host.d3hot) := by
  have ha := awake_of_cfgOpen hc
  simp only [State.cfgOpen, Bool.and_eq_true] at hc
  simp only [State.dmaOpen, ha, hc.2, hf, Option.isNone_none, Bool.true_and, Bool.and_true]

end Config

/-- A BAR register reads back the address bits that its size leaves it, with its type (R112). -/
theorem cfgImage_bar_cfgSet {s : State} (hs : Sound s) (i : Fin 6) (v : Word) :
    cfgImage (.bar i) (cfgSet (.bar i) v s) = v &&& (barBits i).1 ||| (barBits i).2 :=
  congrArg (· ||| (barBits i).2) (Tab.get_set_self 0 s.host.bars i.val _ hs.bars)

/-- The function back in D0, with BAR accesses from 50 µs on (R127). -/
def backInD0 (s : State) : State := { s with host := { s.host with d3hot := false, barFrom := s.clk.beat + 50000 } }
/-- The Command register as it is written (R109, R122). -/
def commandSet (v : Word) (s : State) : State := { s with host := { s.host with mse := v.getLsbD 1, bme := v.getLsbD 2 } }

/-- Settles O18: D3hot and Bus Master Enable by whether DMA is open behind the write, a BAR register by its table. -/
theorem heldOutputOrder : Obligations.HeldOutputOrder := by
  unfold Obligations.HeldOutputOrder
  intro s v hc hf
  have hrun (f : State → State) : Host.Outcome.next (cfgWrite f s) = (.next (f s) : Host.Outcome State Fault Refusal) :=
    congrArg _ (cfgWrite_served hc hf f)
  have hreturn : (backInD0 s).dmaOpen = s.host.bme := (dmaOpen_of_cfgOpen (s := backInD0 s) hc hf).trans (Bool.and_true _)
  have hcommand : (commandSet v s).dmaOpen = (v.getLsbD 2 && !s.host.d3hot) := dmaOpen_of_cfgOpen (s := commandSet v s) hc hf
  refine ⟨⟨d3hotEntry s, hrun _, rfl, ?_, ?_, rfl⟩, fun hd hb => ?_, fun hd hb => ?_, fun hd hv => ?_, fun hv => ?_,
    fun r => hrun _, fun i hs => ⟨cfgSet (.bar i) v s, hrun _, rfl, cfgImage_bar_cfgSet hs i v⟩⟩
  · simp [State.hostOpen, State.barsOn, d3hotEntry, endTurn]
  · simp [State.dmaOpen, d3hotEntry, endTurn]
  · rw [hb] at hreturn
    obtain ⟨hrel, _, _, _, _, _, heq⟩ := releaseHeld_open hreturn
    refine ⟨releaseHeld (backInD0 s), (hrun d0Return).trans (congrArg _ (if_pos hd)), ?_, ?_, hrel, ?_⟩ <;> rw [heq] <;> rfl
  · rw [hb] at hreturn
    exact (hrun d0Return).trans (congrArg _ ((if_pos hd).trans (releaseHeld_shut hreturn)))
  · rw [hv, hd] at hcommand
    obtain ⟨hrel, _, _, _, _, _, heq⟩ := releaseHeld_open hcommand
    refine ⟨releaseHeld (commandSet v s), hrun (cfgSet .command v), ?_, ?_, hrel, ?_⟩ <;> rw [heq]
    · exact hv
    · rfl
    · rfl
  · rw [hv] at hcommand
    have hset : commandSet v s = { s with host := { s.host with mse := v.getLsbD 1, bme := false } } := by
      rw [commandSet, hv]
    exact ⟨commandSet v s, (hrun (cfgSet .command v)).trans (congrArg _ (releaseHeld_shut hcommand)), hcommand, hset⟩

end Sys2Proof.Machine

namespace Sys2Proof.Machine

/-! ## When a vector's message is sent (O20) -/

/-- The vector control word of an MSI-X vector holds its mask bit alone (R120, R403). -/
theorem regInfo_msixCtl (v : Fin 256) : regInfo (0x06000 + 16 * v.val + 12) = some ⟨1, 1, false⟩ := by
  have hv := v.isLt
  have h4 : (0x06000 + 16 * v.val + 12) % 4 = 0 := by omega
  have hin : 0x06000 ≤ 0x06000 + 16 * v.val + 12 ∧ 0x06000 + 16 * v.val + 12 < 0x07000 := by omega
  have h0 : ¬ (0x06000 + 16 * v.val + 12 - 0x06000) % 16 = 0 := by omega
  have h12 : (0x06000 + 16 * v.val + 12 - 0x06000) % 16 = 12 := by omega
  rw [regInfo, if_neg (by omega), if_pos hin, msixReg, if_neg h0, if_pos h12]

/-- A cleared bit reads 0. -/
theorem getLsbD_clear {n : Nat} (x : BitVec n) (k : Nat) : (x &&& ~~~(1#n <<< k)).getLsbD k = false := by
  simp only [BitVec.getLsbD_and, BitVec.getLsbD_not, BitVec.getLsbD_shiftLeft, BitVec.getLsbD_one]
  by_cases hk : k < n
  · have hn : 0 < n := by omega
    simp [hk, hn]
  · simp [hk]
/-- A bit that is set reads 1. -/
theorem getLsbD_set {n : Nat} (x : BitVec n) {k : Nat} (hk : k < n) : (x ||| 1#n <<< k).getLsbD k = true := by
  simp [hk]

section Vectors

variable {s : State} {v : Nat}

/-- A due vector sends where it is enabled and not masked (R117). -/
theorem fireVector_sends (he : s.host.msixEnable = true) (hdue : vectorDue v s = true) (hd : s.dmaOpen = true)
    (h7 : s.sys.stage ≠ 7) (hm : masked v s = false) : fireVector v s = sendMsix v s := by
  rw [fireVector, if_pos (by simp only [he, hdue, hd, bne_iff_ne.2 h7, Bool.true_or, Bool.and_self]), if_neg (by simp [hm])]
/-- A due vector that is masked sets its Pending Bit Array bit (R120). -/
theorem fireVector_masked (he : s.host.msixEnable = true) (hdue : vectorDue v s = true) (hd : s.dmaOpen = true)
    (h7 : s.sys.stage ≠ 7) (hm : masked v s = true) :
    fireVector v s = { s with host := { s.host with pba := s.host.pba ||| (1#256 <<< v) } } := by
  rw [fireVector, if_pos (by simp only [he, hdue, hd, bne_iff_ne.2 h7, Bool.true_or, Bool.and_self]), if_pos hm]
/-- While Enable is 0 nothing fires (R117). -/
theorem fireVector_disabled (he : s.host.msixEnable = false) : fireVector v s = s := by
  simp [fireVector, he]
/-- A vector whose bit is set sends once it is not masked (R120). -/
theorem afterUnmask_sends (he : s.host.msixEnable = true) (hb : s.host.pba.getLsbD v = true) (hd : s.dmaOpen = true)
    (hm : masked v s = false) : afterUnmask v s = sendMsix v s := by
  simp [afterUnmask, he, hb, hd, hm]

/-- The one pending completion is due once its TIME has passed (R118). -/
theorem vectorDue_of_time {p : Pend} (hp : s.host.pend = [p]) (hv : p.vector = v)
    (ht : p.time = 0 ∨ p.beat.toNat + p.time.toNat * 1000 ≤ s.clk.beat.toNat) : vectorDue v s = true := by
  rcases ht with ht | ht <;> simp [vectorDue, hp, hv, ht]
/-- The one pending completion reaches its TIME at one beat. -/
theorem coalesceDue_of_one {p : Pend} (hp : s.host.pend = [p]) (hv : p.vector = v) :
    coalesceDue v s = some (p.beat.toNat + 1000 * p.time.toNat) := by
  simp [coalesceDue, hp, hv]
/-- Where one vector alone has something pending, it is the one that lives. -/
theorem liveVectors_of_one (hv : v < 256)
    (h : ∀ u, (s.host.pba.getLsbD u || s.host.pend.any fun p => p.vector == u) = (u == v)) : liveVectors s = [v] := by
  have hcount : (List.range 256).count v = 1 := List.count_eq_one_of_mem List.nodup_range (List.mem_range.2 hv)
  simp only [liveVectors, h]
  rw [List.filter_beq, hcount]
  rfl
/-- One vector is taken without a choice. -/
theorem eachVector_one (f : Nat → State → State) (v : Nat) (s : State) : eachVector f [v] s = f v s := by
  simp [eachVector, freeOrder, Nat.mod_one]

end Vectors

@[simp] theorem elapseTo_dmaOpen (b : Nat) (s : State) : (elapseTo b s).dmaOpen = s.dmaOpen := by
  simp [State.dmaOpen, State.awake]
@[simp] theorem elapseTo_masked (b v : Nat) (s : State) : masked v (elapseTo b s) = masked v s := by
  simp [masked, State.reg]
/-- COALESCE_TIME of a vector with one pending completion waits until its TIME has passed (R118). -/
theorem exec_coalesceTime {s : State} (ha : s.awake = true) {p : Pend} (hp : s.host.pend = [p]) {v : Fin 256}
    (hv : p.vector = v.val) :
    exec (.coalesceTime v) s = .next (fireVector v.val (elapseTo (p.beat.toNat + 1000 * p.time.toNat) s)) := by
  simp [exec, execCoalesceTime, coalesceDue_of_one hp hv, ha]

/-- While DMA may be issued an island is clocked and no FLR runs (R125). -/
theorem awake_and_flr_of_dmaOpen {s : State} (hd : s.dmaOpen = true) : s.awake = true ∧ s.host.flr = none := by
  simp only [State.dmaOpen, Bool.and_eq_true, Option.isNone_iff_eq_none] at hd
  obtain ⟨⟨⟨⟨ha, -⟩, -⟩, -⟩, hf⟩ := hd
  exact ⟨ha, hf⟩

/-- Settles O20: a message is sent where Enable, the masks and what is pending meet, and each row brings one of them. -/
theorem messageSignalling : Obligations.MessageSignalling := by
  unfold Obligations.MessageSignalling
  intro s v p hs hc hd h7
  obtain ⟨ha, hf⟩ := awake_and_flr_of_dmaOpen hd
  have hrun (f : State → State) : Host.Outcome.next (cfgWrite f s) = (.next (f s) : Host.Outcome State Fault Refusal) :=
    congrArg _ (cfgWrite_served hc hf f)
  refine ⟨fun hr he hm hb => ?_, fun he hpba hp hreg => ?_, fun hp hpv h64 hbeat => ?_, fun hp hpv htime he hpba hm => ?_⟩
  · obtain ⟨r, hset⟩ : ∃ r, s.setReg (0x06000 + 16 * v.val + 12) 0 = { s with regs := r } := ⟨_, setReg_eq ..⟩
    have hreg : (s.setReg (0x06000 + 16 * v.val + 12) 0).reg (0x06000 + 16 * v.val + 12) = 0 :=
      reg_setReg_self hs (regInfo_msixCtl v) 0
    rw [hset] at hreg
    have hmask : masked v.val { s with regs := r } = false := by
      simp only [masked, hreg, hm]
      rfl
    refine ⟨sendMsix v.val { s with regs := r }, congrArg Host.Outcome.next ((if_pos hr).trans ?_), rfl, getLsbD_clear ..,
      by simp [sendMsix, emit], hreg, rfl⟩
    rw [hset]
    exact afterUnmask_sends he hb hd hmask
  · have hlive : liveVectors { s with host := { s.host with msixMask := false } } = [v.val] :=
      liveVectors_of_one v.isLt fun u => by
        have hv := v.isLt
        simp only [hpba, hp, List.any_nil, Bool.or_false, BitVec.getLsbD_shiftLeft, BitVec.getLsbD_one]
        rw [Bool.eq_iff_iff]
        simp
        omega
    have hmask : masked v.val { s with host := { s.host with msixMask := false } } = false := by
      simp only [masked, Bool.false_or]
      exact hreg
    have hb : s.host.pba.getLsbD v.val = true := by simp [hpba]
    have hfun : funcUnmask s = sendMsix v.val { s with host := { s.host with msixMask := false } } := by
      rw [funcUnmask, hlive, eachVector_one]
      exact afterUnmask_sends he hb hd hmask
    refine ⟨funcUnmask s, hrun _, ?_⟩
    rw [hfun]
    exact ⟨rfl, rfl, by simp [sendMsix, emit, hpba], rfl⟩
  · have htime := p.time.isLt
    obtain ⟨hlo, -⟩ := elapseTo_beat (p.beat.toNat + 1000 * p.time.toNat) ha (by omega) hbeat
    rw [exec_coalesceTime ha hp hpv]
    generalize hu : elapseTo (p.beat.toNat + 1000 * p.time.toNat) s = u at hlo
    have hhost : u.host = s.host := by simp [← hu]
    have hsys : u.sys = s.sys := by simp [← hu]
    have hmask : masked v.val u = masked v.val s := by simp [← hu]
    have hopen : u.dmaOpen = true := by simp [← hu, hd]
    have hdue : vectorDue v.val u = true := vectorDue_of_time (by rw [hhost, hp]) hpv (.inr (by omega))
    refine ⟨fun he hm => ⟨_, rfl, ?_⟩, fun he hm => ⟨_, rfl, ?_⟩, fun he => ⟨_, rfl, ?_⟩⟩
    · rw [fireVector_sends (by rw [hhost, he]) hdue hopen (by rwa [hsys]) (hmask.trans hm)]
      exact ⟨by simp [sendMsix, emit, hhost], by simp [sendMsix, emit, hhost, hp, hpv], hlo⟩
    · rw [fireVector_masked (by rw [hhost, he]) hdue hopen (by rwa [hsys]) (hmask.trans hm)]
      exact ⟨by rw [hhost], by rw [hhost]; exact hp, getLsbD_set _ v.isLt⟩
    · rw [fireVector_disabled (by rw [hhost, he])]
      exact ⟨by rw [hhost], by rw [hhost]; exact hp⟩
  · have hlive : liveVectors { s with host := { s.host with msixEnable := true } } = [v.val] :=
      liveVectors_of_one v.isLt fun u => by
        simp [hpba, hp, hpv, eq_comm]
    have hfun : msixEnable s = sendMsix v.val { s with host := { s.host with msixEnable := true } } := by
      rw [msixEnable, hlive, eachVector_one]
      exact fireVector_sends rfl (vectorDue_of_time hp hpv (.inl htime)) hd h7 hm
    refine ⟨msixEnable s, hrun _, ?_⟩
    rw [hfun]
    exact ⟨rfl, rfl, by simp [sendMsix, emit, hp, hpv], rfl⟩

end Sys2Proof.Machine

namespace Sys2Proof.Machine

/-! ## A ring read that fails (O36) -/

/-! The first of a list that is picked, and the others. -/

/-- Changing the first element that `p` picks changes the first of those picked. -/
theorem filter_listUpd {α : Type} {p : α → Bool} {f : α → α} (hf : ∀ y, p y = true → p (f y) = true) {x : α} {t : List α} :
    ∀ {l : List α}, l.filter p = x :: t → (listUpd p f l).filter p = f x :: t
  | [], h => by cases h
  | y :: l, h => by
    unfold listUpd
    by_cases hy : p y = true
    · rw [List.filter_cons_of_pos hy] at h
      obtain ⟨rfl, rfl⟩ := List.cons.inj h
      rw [if_pos hy, List.filter_cons_of_pos (hf y hy)]
    · rw [List.filter_cons_of_neg hy] at h
      rw [if_neg hy, List.filter_cons_of_neg hy, filter_listUpd hf h]
/-- Dropping the first element that `p` picks leaves the others of those picked. -/
theorem filter_listDrop {α : Type} {p : α → Bool} {x : α} {t : List α} :
    ∀ {l : List α}, l.filter p = x :: t → (listDrop p l).filter p = t
  | [], h => by cases h
  | y :: l, h => by
    unfold listDrop
    by_cases hy : p y = true
    · rw [List.filter_cons_of_pos hy] at h
      rw [if_pos hy, (List.cons.inj h).2]
    · rw [List.filter_cons_of_neg hy] at h
      rw [if_neg hy, List.filter_cons_of_neg hy, filter_listDrop h]

section Reads

variable {s : State} {c : Ctx} {r : RingRead} {l : List RingRead}

/-- A read of the context that is marked is its oldest. -/
theorem readsOf_markRead {f : RingRead → RingRead} (hf : ∀ y, (f y).ctx = y.ctx) (h : readsOf c s = r :: l) :
    readsOf c (markRead c f s) = f r :: l :=
  filter_listUpd (fun y hy => by simpa [hf] using hy) h
/-- The read of the context that is given up is its oldest. -/
theorem readsOf_loseRead (h : readsOf c s = r :: l) : readsOf c (loseRead c s) = l := by
  have hhost : (loseRead c s).host = (takeRead c s).host := by simp [loseRead]
  rw [readsOf, hhost]
  exact filter_listDrop h
/-- A read given up releases its reservation (R141). -/
theorem ringOf_loseRead (hs : Sound s) :
    (loseRead c s).ringOf c = { s.ringOf c with reserved := (s.ringOf c).reserved - 1, next := (s.ringOf c).sqHead } := by
  have ht : Sound (takeRead c s) := { hs with }
  cases c with
  | admin => rfl
  | ward w => exact congrArg Ward.ring (ward_updWard_self ht w _)
/-- No read of the context is out once its reads are dropped. -/
theorem readsOf_dropReads (c : Ctx) (s : State) : readsOf c (dropReads c s) = [] := by
  simp [readsOf, dropReads]

/-- Without a turn in progress nothing goes on. -/
theorem goOnTurn_none (h : s.ring.turn = none) : goOnTurn s = s := by
  simp [goOnTurn, h]

/-! Time, and what a failed read reports. -/

/-- A wait moves the clock, the console and the counters alone, and logs nothing. -/
theorem elapseTo_changes (b : Nat) (s : State) :
    ∃ k p o, elapseTo b s = { s with clk := k, pin := p, obs := o } ∧ o.events = s.obs.events :=
  ⟨_, _, _, elapse_eq _ s, elapse_events _ s⟩
/-- The state in which a failed read that was sent at `sent` is known: a completion timeout has passed by then (R121). -/
def failedAt (why : ReadFail) (sent : DWord) (s : State) : State :=
  if why = .timeout then elapseTo (sent.toNat + s.timeout) s else s
/-- Only a timeout takes time. -/
theorem failedAt_changes (why : ReadFail) (sent : DWord) (s : State) :
    ∃ k p o, failedAt why sent s = { s with clk := k, pin := p, obs := o } ∧ o.events = s.obs.events ∧
      (why ≠ .timeout → k = s.clk ∧ o = s.obs) := by
  unfold failedAt
  split
  · next h =>
    obtain ⟨k, p, o, heq, hev⟩ := elapseTo_changes (sent.toNat + s.timeout) s
    exact ⟨k, p, o, heq, hev, fun hne => absurd h hne⟩
  · exact ⟨s.clk, s.pin, s.obs, rfl, rfl, fun _ => ⟨rfl, rfl⟩⟩
/-- A failed read is reported through AER by its kind, and changes nothing else of the host link (R122). -/
theorem readFails_eq (why : ReadFail) (sent : DWord) (s : State) : readFails why sent s =
    { failedAt why sent s with host := { s.host with aerUncorr := (aerRead why s).host.aerUncorr } } := by
  have hhost (b : Nat) : (elapseTo b s).host = s.host := by simp
  cases why with
  | timeout => simp only [readFails, failedAt, aerRead, aer, if_true, hhost]
  | poisoned => rfl
  | ecrc => rfl
  | unsupported => rfl
  | abort => rfl

theorem readFails_sound (hs : Sound s) (why : ReadFail) (sent : DWord) : Sound (readFails why sent s) := by
  unfold readFails
  refine (aerRead_keeps ..).1 ?_
  split
  · exact (elapseTo_keeps ..).1 hs
  · exact hs

/-! The two failures. -/

section Fails

variable (ha : s.awake = true) (h : readsOf c s = r :: l)
include ha h

/-- The first failure of a read marks it (R122). -/
theorem ringReadFail_first (ht : r.tries = 0) (why : ReadFail) : ringReadFail c why s =
    markRead c (fun y => { y with tries := 1, failed := (readFails why r.sent s).clk.beat }) (readFails why r.sent s) := by
  simp [ringReadFail, h, ha, ht]
/-- The second failure of a read loses it (R123). -/
theorem ringReadFail_second (ht : 2 ≤ r.tries) (why : ReadFail) :
    ringReadFail c why s = readLost c (readFails why r.sent s) := by
  have h0 : r.tries ≠ 0 := by omega
  have h1 : r.tries ≠ 1 := by omega
  simp [ringReadFail, h, ha, h0, h1]
/-- 1 µs after its failure a read is issued again, unless its slot lies at or beyond the tail by then (R122, R142). -/
theorem ringReadRetry_marked (ht : r.tries = 1) : ringReadRetry c s =
    let u := elapseTo (r.failed.toNat + 1000) s
    if modSub r.slot (s.ringOf c).sqHead (s.ringOf c).sqSize < modSub (s.ringOf c).sqTail (s.ringOf c).sqHead (s.ringOf c).sqSize
    then emit (.read ((s.ringOf c).sqBase + BitVec.ofNat 64 (64 * r.slot)) 64)
      (markRead c (fun y => { y with tries := 2, sent := u.clk.beat }) u)
    else goOnTurn (loseRead c u) := by
  obtain ⟨k, p, o, hu, -⟩ := elapseTo_changes (r.failed.toNat + 1000) s
  have hring : (elapseTo (r.failed.toNat + 1000) s).ringOf c = s.ringOf c := by rw [hu]; cases c <;> rfl
  simp only [ringReadRetry, h, ht, ha, and_self, if_true, hring]

end Fails

/-- The second failure of a read of the admin context stops its fetch with ADMIN_HALT and its event (R123). -/
theorem readLost_admin (s : State) : (readLost .admin s).host.adminHalt = true ∧ (readLost .admin s).ring.fetching = false ∧
    readsOf .admin (readLost .admin s) = [] ∧ (readLost .admin s).wards = s.wards ∧
    (s.obs.events.length < 512 → ∃ e ∈ (readLost .admin s).obs.events, e.code = 0x0302) := by
  have hreads := readsOf_dropReads .admin s
  refine ⟨?_, ?_, ?_, ?_, fun hroom => ?_⟩
  · rw [readLost, logEvent_eq]; rfl
  · rw [readLost, logEvent_eq]; rfl
  · rw [readLost, logEvent_eq]; exact hreads
  · rw [readLost, logEvent_eq]; rfl
  · exact ⟨_, logEvent_mem (by simpa [mark] using hroom) 0x0302 0 0 0, rfl⟩
/-- The second failure of a read of a ward is a fault of the ward with cause 1 (R123). -/
theorem readLost_ward (hs : Sound s) {w : WardId} (hst : (s.ward w).state = .sealed ∨ (s.ward w).state = .opened) :
    readsOf (.ward w) (readLost (.ward w) s) = [] ∧ ((readLost (.ward w) s).ward w).state = .faulted ∧
    ((readLost (.ward w) s).ward w).lastFault = 1 ∧ ∀ u, u ≠ w → (readLost (.ward w) s).ward u = s.ward u := by
  generalize hd : (if (dropReads (.ward w) s).ring.turn = some w then endTurn (dropReads (.ward w) s)
    else dropReads (.ward w) s) = d
  have hdrop : Sound (dropReads (.ward w) s) := (dropReads_keeps ..).1 hs
  have hsound : Sound d := by
    subst hd
    split
    · exact { hdrop with }
    · exact hdrop
  have hward (u : WardId) : d.ward u = (dropReads (.ward w) s).ward u := by subst hd; split <;> rfl
  have hhost : d.host = (dropReads (.ward w) s).host := by subst hd; split <;> rfl
  have hstate : (d.ward w).state = .sealed ∨ (d.ward w).state = .opened := by
    rw [hward, dropReads_ward hs, if_pos rfl]
    exact hst
  have hlost : readLost (.ward w) s = faultWard w 1 d := by rw [← hd]; rfl
  rw [hlost]
  refine ⟨?_, ?_, ?_, fun u hu => ?_⟩
  · have hf : (faultWard w 1 d).host = d.host := by simp
    rw [readsOf, hf, hhost]
    exact readsOf_dropReads (.ward w) s
  · rw [faultWard_self hsound w 1 hstate]
  · rw [faultWard_self hsound w 1 hstate]
  · rw [faultWard_ne hsound hu, hward, dropReads_ward hs, if_neg fun e => hu (Ctx.ward.inj e).symm]

end Reads

/-- Settles O36: a first failure by what it marks, a retry by where its slot lies, a second failure by its context. -/
theorem ringReadFailures : Obligations.RingReadFailures := by
  unfold Obligations.RingReadFailures
  intro s c why r l hs ha h
  obtain ⟨k, p, o, hfail, hevents, hquiet⟩ := failedAt_changes why r.sent s
  have hreport := readFails_eq why r.sent s
  rw [hfail] at hreport
  refine ⟨fun ht => ?_, fun ht hbeat h64 => ?_, fun ht hc => ?_, fun w ht hc hst => ?_⟩
  · refine ⟨_, congrArg Host.Outcome.next (ringReadFail_first ha h ht why), ?_⟩
    rw [hreport]
    refine ⟨rfl, rfl, readsOf_markRead (fun _ => rfl) h, hquiet, ?_, ?_, ?_⟩
    · rintro rfl; rfl
    · rintro rfl; rfl
    · rintro rfl; rfl
  · obtain ⟨k, p, o, hwait, -⟩ := elapseTo_changes (r.failed.toNat + 1000) s
    obtain ⟨hlo, hhi⟩ := elapseTo_beat (r.failed.toNat + 1000) ha (by omega) hbeat
    have hlt : (elapseTo (r.failed.toNat + 1000) s).clk.beat.toNat < r.failed.toNat + 1005 := by
      rcases period_cases s with hp | hp <;> omega
    have hrun : exec (.ringReadRetry c) s = .next _ := congrArg Host.Outcome.next (ringReadRetry_marked ha h ht)
    rw [hwait] at hlo hlt hrun
    refine ⟨fun hslot => ⟨_, hrun, ?_⟩, fun hslot hturn => ⟨_, hrun, ?_⟩⟩
    · rw [if_pos hslot]
      exact ⟨rfl, readsOf_markRead (fun _ => rfl) h, hlo, hlt, rfl⟩
    · have hs' : Sound { s with clk := k, pin := p, obs := o } := hwait ▸ (elapseTo_keeps ..).1 hs
      have hlose := ringOf_loseRead (c := c) hs'
      have hhost : (loseRead c { s with clk := k, pin := p, obs := o }).host.out = s.host.out := by simp [loseRead, takeRead]
      have hnone : (loseRead c { s with clk := k, pin := p, obs := o }).ring.turn = none := by
        rw [← hturn]
        cases c <;> rfl
      rw [if_neg (Nat.not_lt.2 hslot), goOnTurn_none hnone]
      refine ⟨hhost, readsOf_loseRead h, ?_⟩
      rw [hlose]
      cases c <;> rfl
  · subst hc
    obtain ⟨hhalt, hfetch, hreads, hwards, hlog⟩ := readLost_admin (readFails why r.sent s)
    refine ⟨_, congrArg Host.Outcome.next (ringReadFail_second ha h ht why), hreads, hhalt, hfetch, fun hroom => hlog ?_, ?_⟩
    · rw [hreport, hevents]; exact hroom
    · rw [hwards, hreport]
  · subst hc
    have hward (u : WardId) : (readFails why r.sent s).ward u = s.ward u := by rw [hreport]; rfl
    have hst' := (hward w).symm ▸ hst
    obtain ⟨hreads, hstate, hcause, hothers⟩ := readLost_ward (readFails_sound hs why r.sent) hst'
    exact ⟨_, congrArg Host.Outcome.next (ringReadFail_second ha h ht why), hreads, hstate, hcause,
      fun u hu => (hothers u hu).trans (hward u)⟩

end Sys2Proof.Machine

namespace Sys2Proof.Machine

/-! ## What moves a fetched job on (O37) -/

/-! Reads that wait for a tag. -/

/-- An element of a list in which the first pick has changed is one of the others, or what the pick has become. -/
theorem mem_listUpd {α : Type} {p : α → Bool} {f : α → α} {x : α} :
    ∀ {l : List α}, x ∈ listUpd p f l → x ∈ listDrop p l ∨ ∃ y, x = f y
  | [], h => by cases h
  | y :: l, h => by
    unfold listUpd at h
    unfold listDrop
    split
    · next hy =>
      rw [if_pos hy] at h
      exact (List.mem_cons.1 h).elim (fun e => .inr ⟨y, e⟩) .inl
    · next hy =>
      rw [if_neg hy] at h
      exact (List.mem_cons.1 h).elim (fun e => .inl (e ▸ List.mem_cons_self))
        fun h => (mem_listUpd h).imp_left (List.mem_cons_of_mem y)

section Jobs

variable {s : State} {j : Job}

/-- A job that is found carries its number. -/
theorem id_of_job {id : Nat} (h : s.job id = some j) : j.id = id := by
  simpa using List.find?_some h

/-- Where no job waits for a tag no read goes out. -/
theorem askWaiting_quiet (h : ∀ k ∈ s.ring.jobs, k.toAsk = []) : askWaiting s = s := by
  have hnone : s.ring.jobs.filter (fun k => k.toAsk != []) = [] := by
    rw [List.filter_eq_nil_iff]
    intro k hk
    simp [h k hk]
  rw [askWaiting, hnone, List.foldl_nil]
/-- A job ends where no other one waits for a tag, and no read goes out. -/
theorem askWaiting_finish (h : ∀ k ∈ listDrop (fun x => x.id == j.id) s.ring.jobs, k.toAsk = []) (st or d : Nat) :
    askWaiting (finish j st or d s) = finish j st or d s :=
  askWaiting_quiet (finish_jobs j st or d s ▸ h)
/-- A job that asks for nothing takes its place where no other one waits for a tag, and no read goes out. -/
theorem askWaiting_setJob (h : ∀ k ∈ listDrop (fun x => x.id == j.id) s.ring.jobs, k.toAsk = []) (hj : j.toAsk = []) :
    askWaiting (s.setJob j) = s.setJob j :=
  askWaiting_quiet fun k hk => (mem_listUpd hk).elim (h k) fun ⟨_, e⟩ => e ▸ hj
/-- The reads of a job that still waited for tags go out, and change the host link alone. -/
theorem foldl_emit_host (l : List (DWord × Nat)) (s : State) :
    ∃ x, l.foldl (fun s p => emit (.read p.1 p.2) s) s = { s with host := x } ∧ (l = [] → x = s.host) := by
  refine ⟨_, (foldl_emit_reads l s).2, ?_⟩
  rintro rfl
  rfl

/-! What a completion leaves of the host link and of the rings. -/

/-- Output that is sent or held leaves the DMA_ABORT bit. -/
theorem send_dmaAbort (h : Held) (s : State) : (send h s).host.dmaAbort = s.host.dmaAbort := by
  have hsent {l : List Out} {a b : State} (k : Sent l a b) : b.host.dmaAbort = a.host.dmaAbort := by
    obtain ⟨_, _, _, rfl⟩ := k
    rfl
  have hput := hsent (putOut_sent h s)
  unfold send
  split
  · cases h with
    | data a b => exact hput
    | entry e =>
      obtain ⟨_, -, hfire⟩ := fireVector_sent (vectorOf e.ctx s) (putOut (.entry e) s)
      exact (hsent hfire).trans hput
  · rfl
/-- A job's completion leaves the DMA_ABORT bit. -/
theorem finish_dmaAbort (j : Job) (st or d : Nat) (s : State) : (finish j st or d s).host.dmaAbort = s.host.dmaAbort := by
  have ha (t : State) : (applyWhenClear t).host = t.host := by simp
  unfold finish postCompletion
  rw [ha]
  split
  · dsimp only
    rw [countMalformed_host, send_dmaAbort]
    (repeat' split) <;> simp
  · rfl
/-- A completion entry takes its slot in its context's rings alone. -/
theorem postCompletion_ring (c : Ctx) (tag st or d : Nat) (ch : Bool) (s : State) :
    (postCompletion c tag st or d ch s).ring = (s.posted c).ring := by
  have hsend (o : Held) (t : State) : (send o t).ring = t.ring := by simp
  have hcount (t : State) : (countMalformed c st t).ring = t.ring := by simp
  unfold postCompletion State.posted
  split
  · dsimp only
    have hbump (o n : Nat) (t : State) : (bump o n t).ring = t.ring := rfl
    rw [hcount, hsend]
    simp only [apply_ite State.ring, hbump, ite_self]
    rfl
  · rfl
/-- With no placement waiting none is applied. -/
theorem applyWhenClear_idle (h : s.ring.applying = false) : applyWhenClear s = s := by
  simp [applyWhenClear, h]
/-- The rings of a context read back as they were set. -/
theorem ringOf_setRing_self (hs : Sound s) (c : Ctx) (r : Ring) : (s.setRing c r).ringOf c = r := by
  cases c with
  | admin => rfl
  | ward w => exact congrArg Ward.ring (ward_updWard_self hs w _)
/-- Setting the rings of a context leaves whether it has rings. -/
theorem ringUp_setRing (hs : Sound s) (c : Ctx) (r : Ring) : (s.setRing c r).ringUp c = s.ringUp c := by
  cases c with
  | admin => rfl
  | ward w => exact (congrArg Ward.configured (ward_updWard_self hs w fun x => { x with ring := r }) :)
/-- Without a placement that waits, a completion that does not count as malformed leaves the chain of its context. -/
theorem finish_chain (hs : Sound s) (happ : s.ring.applying = false) {st : Nat} (hst : countsMalformed st = false) (or d : Nat) :
    ((finish j st or d s).ringOf j.ctx).chain = (s.ringOf j.ctx).chain := by
  have hposted : ((s.posted j.ctx).ringOf j.ctx).chain = (s.ringOf j.ctx).chain := by
    unfold State.posted
    split
    · rw [ringOf_setRing_self hs]
      rfl
    · rfl
  rw [← hposted]
  generalize hc : j.ctx = c
  cases c with
  | ward w =>
    have hw : (finish j st or d s).wards = (s.posted (.ward w)).wards := hc ▸ finish_wards_of hst j or d s
    simp only [State.ringOf, State.ward, hw]
  | admin =>
    have hring : (postCompletion .admin j.tag st or d j.chained (s.dropJob j.id)).ring =
        ((s.dropJob j.id).posted .admin).ring := postCompletion_ring ..
    have hidle : (postCompletion .admin j.tag st or d j.chained (s.dropJob j.id)).ring.applying = false := by
      rw [hring, State.posted, ← happ]
      split <;> rfl
    have hadmin : ((s.dropJob j.id).posted .admin).ring.admin = (s.posted .admin).ring.admin := by
      have hup : (s.dropJob j.id).ringUp .admin = s.ringUp .admin := rfl
      rw [State.posted, State.posted, hup]
      split <;> rfl
    simp only [State.ringOf, finish, hc, applyWhenClear_idle hidle, hring, hadmin]

/-! A job that no intent number orders, and one that no ward holds. -/

/-- A command without an intent number waits for no reset and no flush of a ward. -/
theorem holds_plain (h : opIntent j.op.toNat = false) : holds j s = false := by
  simp only [opIntent, Bool.or_eq_false_iff] at h
  obtain ⟨-, hrange⟩ := h
  have hw : ¬(0x48 ≤ j.op.toNat ∧ j.op.toNat ≤ 0x55) := by simpa [within] using hrange
  have hin : within 0x48 0x4D j.op.toNat = false := by
    simp only [within, Bool.and_eq_false_iff, decide_eq_false_iff_not]
    omega
  have hflush : (j.op == 0x4E) = false := by
    rw [beq_eq_false_iff_ne]
    intro he
    rw [he] at hw
    exact hw (by decide)
  simp only [holds, hin, hflush, Bool.false_and, Bool.or_self, Bool.and_false]
/-- A job that step 8 lets run and that nothing holds is ready (R149). -/
theorem admitJob_ready (h8 : stepEight j s = .inl .ready) (hh : holds j s = false) :
    admitJob j s = s.setJob { j with phase := .ready } := by
  simp [admitJob, h8, hh]
/-- A job without an intent number is ready (R158). -/
theorem admitJob_plain (h : opIntent j.op.toNat = false) : admitJob j s = s.setJob { j with phase := .ready } :=
  admitJob_ready (by simp [stepEight, h]) (holds_plain h)

end Jobs

section Fetched

variable {s : State} {id : Nat} {j : Job} (hj : s.job id = some j)
include hj

/-- A job that is replaced reads so under its number. -/
theorem job_setJob_of {k : Job} (hk : k.id = j.id) {u : State} (hu : u.ring = s.ring) :
    (u.setJob k).job id = some k := by
  have hid := hk.trans (id_of_job hj)
  have hfound : u.job k.id = some j := by
    rw [hid]
    simpa only [State.job, hu] using hj
  exact hid ▸ job_setJob hfound

/-- The failed read of a job's table or data is reported, and the job ends ABORTED with the bit set (R122). -/
theorem dmaAbort_completes (hs : Sound s) (ha : s.awake = true) (hp : j.phase = .needTable ∨ j.phase = .needData)
    (hothers : ∀ k ∈ listDrop (fun x => x.id == j.id) s.ring.jobs, k.toAsk = []) (why : ReadFail) :
    Completed j 0x10 0 (failedAt why j.since s) (dmaAbort id why s) ∧ (dmaAbort id why s).host.dmaAbort = true := by
  obtain ⟨m, hm⟩ : ∃ m, m = mark 0x04014 4
      { readFails why j.since s with host := { (readFails why j.since s).host with dmaAbort := true } } := ⟨_, rfl⟩
  have hrun : dmaAbort id why s = askWaiting (finish j 0x10 0 0 m) := by
    simp only [dmaAbort, hj, hp, ha, and_self, if_true, hm]
  have hsound : Sound m := hm ▸ (mark_keeps ..).1 { readFails_sound hs why j.since with }
  obtain ⟨k, p, o, hfail, -⟩ := failedAt_changes why j.since s
  rw [readFails_eq, hfail] at hm
  rw [hrun, hfail]
  have hkeeps : KeepsRings j.ctx { s with clk := k, pin := p, obs := o } m := by
    subst hm
    cases j.ctx <;> exact ⟨rfl, rfl, rfl, rfl⟩
  have hjobs : m.ring.jobs = s.ring.jobs := hkeeps.jobs
  rw [askWaiting_finish (hjobs ▸ hothers), finish_dmaAbort]
  exact ⟨finish_completed_of_keeps hsound hkeeps (by rw [hm]; rfl), by rw [hm]; rfl⟩
/-- The data of a transfer comes (R147). -/
theorem dataFetch_data (hd : s.dmaOpen = true) (hp : j.phase = .needData) (data : Bytes) : dataFetch id data s =
    askWaiting ((j.toAsk.foldl (fun s p => emit (.read p.1 p.2) s) s).setJob
      { j with phase := .dataIn, data := fit (transferLen j.entry) data, asked := 0, toAsk := [] }) := by
  simp [dataFetch, hj, hp, hd]
/-- A fragment table comes that passes its checks: its job goes on to step 8 (R149). -/
theorem dataFetch_table_passes (hd : s.dmaOpen = true) (hp : j.phase = .needTable) {data : Bytes} {l : List (Nat × Nat × Nat)}
    (hl : l = fragments (entLen j.entry) (fit (16 * entLen j.entry) data)) (hc : checkTable j.entry l = .pass) :
    dataFetch id data s = askWaiting (admitJob
      { j with asked := 0, toAsk := [], segs := l.map (fun f => (BitVec.ofNat 64 f.1, f.2.1)) }
      (j.toAsk.foldl (fun s p => emit (.read p.1 p.2) s) s)) := by
  subst hl
  simp only [dataFetch, hj, hp, hd, true_or, and_self, if_true, hc]
/-- A fragment table comes that fails its checks: its job completes with what they find (R149). -/
theorem dataFetch_table_fails (hd : s.dmaOpen = true) (hp : j.phase = .needTable) {data : Bytes} {st : Nat} {d : Option Nat}
    (hc : checkTable j.entry (fragments (entLen j.entry) (fit (16 * entLen j.entry) data)) = .error st d) :
    dataFetch id data s = askWaiting (failWith { j with asked := 0, toAsk := [] } st d
      (j.toAsk.foldl (fun s p => emit (.read p.1 p.2) s) s)) := by
  simp only [dataFetch, hj, hp, hd, true_or, and_self, if_true, hc]
/-- A held command that its ward no longer holds goes on (R51, R156). -/
theorem heldEval_reset (hp : j.phase = .heldReset) (hh : holds j s = false) (hb : blocked j s = false)
    (ht : turnedAway j s = false) : heldEval id s =
      if j.op = 0x4E ∨ (j.op = 0x4A ∧ (s.ward j.named).state = .sealed) then journal .journal j .none 0 s
      else s.setJob { j with phase := if opMoves j.op.toNat ∧ j.data ≠ [] then .dataIn else .ready } := by
  simp [heldEval, hj, hp, hh, hb, ht]

end Fetched

/-! An open chain that ends TORN. -/

section Chains

variable {s : State} {c : Ctx} {ch : Chain}

/-- The state in which an open chain of the context has become a job, its rings without a chain. -/
def chainClosed (c : Ctx) (s : State) : State :=
  State.setRing { s with ring := { s.ring with nextJob := s.ring.nextJob + 1 } } c { s.ringOf c with chain := none }

theorem chainClosed_sound (hs : Sound s) (c : Ctx) : Sound (chainClosed c s) :=
  (State_setRing_keeps ..).1 { hs with }
theorem chainClosed_ringOf (hs : Sound s) (c : Ctx) : (chainClosed c s).ringOf c = { s.ringOf c with chain := none } :=
  ringOf_setRing_self (s := { s with ring := { s.ring with nextJob := s.ring.nextJob + 1 } }) { hs with } c _
theorem chainClosed_ringUp (hs : Sound s) (c : Ctx) : (chainClosed c s).ringUp c = s.ringUp c :=
  (ringUp_setRing (s := { s with ring := { s.ring with nextJob := s.ring.nextJob + 1 } }) { hs with } c _).trans
    (by cases c <;> rfl)

/-- An open chain whose timer has run out completes TORN as a job of its entries (R148). -/
theorem chainTorn_ends (ha : s.awake = true) (hc : (s.ringOf c).chain = some ch) (hcount : chainCounts c s = true)
    (h0 : bits 0 8 (s.reg 0x08030) ≠ 0) (hlim : bits 0 8 (s.reg 0x08030) < (s.ringOf c).chainTicks) :
    chainTorn c s = finish (newJob c (ch.first :: ch.rest) s).1 0x11 0 0 (chainClosed c s) := by
  have hof : (newJob c (ch.first :: ch.rest) s).2.ringOf c = s.ringOf c := by cases c <;> rfl
  simp only [chainTorn, endOpen, endChain, hc, hcount, ha, h0, hlim, hof, ne_eq, not_false_eq_true, and_self, if_true]
  rfl

end Chains

/-- Settles O37: each row by what its job waits for, and an open chain by its timer. -/
theorem jobsMoveOn : Obligations.JobsMoveOn := by
  unfold Obligations.JobsMoveOn
  intro s id j data why hs ha hj hothers
  have hid := id_of_job hj
  obtain ⟨x, hask, hsame⟩ := foldl_emit_host j.toAsk s
  have hothers' : ∀ k ∈ listDrop (fun x => x.id == j.id) s.ring.jobs, k.toAsk = [] := hid.symm ▸ hothers
  refine ⟨fun hp => ?_, fun hd hp => ?_, fun hd hp => ⟨fun hpass hop => ?_, fun herr hnone => ?_⟩, fun hp hb he => ?_,
    fun hp hb => ?_, fun hp hh hb ht hop h4a hdata => ?_, fun hp hh hb ht hopen hop => ?_, fun hp h8 hh => ?_,
    fun c ch hc hcount h0 hlim happ => ?_⟩
  · exact ⟨_, rfl, dmaAbort_completes hj hs ha hp.symm hothers' why⟩
  · refine ⟨_, congrArg Host.Outcome.next (dataFetch_data hj hd hp data), ?_⟩
    rw [hask, askWaiting_setJob (s := { s with host := x })
      (j := { j with phase := .dataIn, data := fit (transferLen j.entry) data, asked := 0, toAsk := [] }) hothers' rfl]
    exact ⟨job_setJob_of hj (by rfl) (by rfl), rfl, hsame⟩
  · refine ⟨_, congrArg Host.Outcome.next (dataFetch_table_passes hj hd hp rfl hpass), ?_⟩
    rw [hask, admitJob_plain, askWaiting_setJob]
    · exact job_setJob_of hj (by rfl) (by rfl)
    · exact hothers'
    · rfl
    · exact hop
  · refine ⟨_, congrArg Host.Outcome.next (dataFetch_table_fails hj hd hp herr), ?_⟩
    rw [hask, hsame hnone]
    exact askWaiting_finish (j := { j with asked := 0, toAsk := [] }) hothers' 0x23 0 0 ▸
      finish_completed { j with asked := 0, toAsk := [] } 0x23 0 hs
  · refine ⟨s.setJob { j with phase := .ready }, congrArg Host.Outcome.next ?_, job_setJob_of hj (by rfl) (by rfl), rfl⟩
    simp [jobBegin, hj, hp, ha, hb, he]
  · refine congrArg Host.Outcome.next ?_
    simp [jobBegin, hj, hb]
  · have hne : ¬(j.op = 0x4E ∨ (j.op = 0x4A ∧ (s.ward j.named).state = .sealed)) := fun h =>
      h.elim hop fun h => h4a h.1 h.2
    refine ⟨s.setJob { j with phase := .ready }, congrArg Host.Outcome.next ?_, job_setJob_of hj (by rfl) (by rfl), rfl⟩
    refine (if_pos ha).trans ?_
    rw [heldEval_reset hj hp hh hb ht, if_neg hne, if_neg fun h => h.2 hdata]
  · refine ⟨journal .journal j .none 0 s, congrArg Host.Outcome.next ?_, journal_journaled hopen (hid.symm ▸ hj) .none 0⟩
    refine (if_pos ha).trans ?_
    rw [heldEval_reset hj hp hh hb ht, if_pos hop]
  · refine ⟨s.setJob { j with phase := .ready }, congrArg Host.Outcome.next ?_, job_setJob_of hj (by rfl) (by rfl), rfl⟩
    refine (if_pos ha).trans ?_
    rw [← admitJob_ready h8 hh]
    simp [heldEval, hj, hp, h8]
  · have hclosed := chainClosed_sound hs c
    have hring := chainClosed_ringOf hs c
    have hup := chainClosed_ringUp hs c
    refine ⟨_, congrArg Host.Outcome.next (chainTorn_ends ha hc hcount h0 hlim), ?_, fun hr hd => ?_⟩
    · have happ' : (chainClosed c s).ring.applying = false := by rw [← happ]; cases c <;> rfl
      have hchain := finish_chain (j := (newJob c (ch.first :: ch.rest) s).1) hclosed happ' (st := 0x11) rfl 0 0
      exact hchain.trans (congrArg Ring.chain hring)
    · have hdma : (chainClosed c s).dmaOpen = true := by rw [← hd]; cases c <;> rfl
      have hbeat : (chainClosed c s).clk = s.clk := by cases c <;> rfl
      obtain ⟨-, hout, -⟩ := finish_completed (newJob c (ch.first :: ch.rest) s).1 0x11 0 hclosed
      have hmem := hout (hup.trans hr) hdma
      have hctx : (newJob c (ch.first :: ch.rest) s).1.ctx = c := rfl
      rw [hctx, hring, hbeat] at hmem
      exact hmem

end Sys2Proof.Machine

namespace Sys2Proof.Machine

/-! ## Training, ASPM L1 and discarded requests (O19) -/

/-- A release with nothing held changes nothing (R127). -/
theorem releaseHeld_empty {s : State} (h : s.host.held = []) : releaseHeld s = s := by
  unfold releaseHeld
  split
  · simp only [h, List.filterMap_nil, List.foldl_nil]
    rw [← h]
    rfl
  · rfl
/-- The width that trains is one of x1, x4 and x8 (R110). -/
theorem ofNat_trainedWidth (n : Nat) : BitVec.ofNat 4 (trainedWidth n) = if n < 4 then 1 else if n < 8 then 4 else 8 := by
  unfold trainedWidth
  by_cases h8 : 8 ≤ n
  · rw [if_pos h8, if_neg (by omega : ¬n < 4), if_neg (by omega : ¬n < 8)]
    rfl
  · by_cases h4 : 4 ≤ n
    · rw [if_neg h8, if_pos h4, if_neg (by omega : ¬n < 4), if_pos (by omega : n < 8)]
      rfl
    · rw [if_neg h8, if_neg h4, if_pos (by omega : n < 4)]
      rfl
/-- A wait of whole periods of either source takes its own length (R27). -/
theorem wait_beat {s : State} (ha : s.awake = true) {n : Nat} (hn : n % 5 = 0) :
    (wait n s).clk.beat = s.clk.beat + BitVec.ofNat 64 n := by
  have hup : s.upTo (s.clk.beat.toNat + n) = n := by
    unfold State.upTo
    rcases period_cases s with hp | hp <;> rw [hp] <;> omega
  rw [wait, elapseTo, hup, elapse_beat n ha]

/-- Settles O19: training with nothing held, L1 by who initiates it, and a discarded request by its error. -/
theorem linkStates : Obligations.LinkStates := by
  unfold Obligations.LinkStates
  refine ⟨fun s speed width hl hpe h1 h4 hw hheld => ?_, fun s => ⟨fun hc hl1 haspm hidle hheld hout => ?_, fun hc => ?_,
    fun hno => ?_, fun ha => ?_⟩, fun s hc => ?_⟩
  · have hin : s.linkOpen ∧ !s.pwr.perstLow ∧ within 1 4 speed ∧ 1 ≤ width := by
      simp [hl, hpe, within, h1, h4, hw]
    refine ⟨_, congrArg Host.Outcome.next ((if_pos hin).trans (releaseHeld_empty hheld)), ?_, ?_⟩
    · show (BitVec.ofNat 4 speed).toNat = speed
      rw [BitVec.toNat_ofNat]
      omega
    · rw [ofNat_trainedWidth]
  · have hrun : l1Entry false s = { wait (1000 * bits 0 8 (s.reg 0x04004)) s with
        host := { (wait (1000 * bits 0 8 (s.reg 0x04004)) s).host with inL1 := true } } := by
      simp [l1Entry, hc, hl1, haspm, hidle, hheld, hout]
    refine ⟨l1Entry false s, rfl, ?_⟩
    rw [hrun]
    refine ⟨wait_beat (awake_of_cfgOpen hc) (by omega), ?_⟩
    obtain ⟨k, p, o, heq, -⟩ := elapseTo_changes (s.clk.beat.toNat + 1000 * bits 0 8 (s.reg 0x04004)) s
    rw [wait, heq]
  · refine congrArg Host.Outcome.next ?_
    cases hl1 : s.host.inL1
    · simp [l1Entry, hc, hl1]
    · simp only [l1Entry, hl1, Bool.or_true, if_true]
      rw [← hl1]
  · have hnot : ¬(s.host.linkCtl.getLsbD 1 = true ∧ bits 0 8 (s.reg 0x04004) ≠ 0 ∧ s.readsOut = 0 ∧ s.host.held = []) := by
      rintro ⟨haspm, hidle, -⟩
      exact hno.elim hidle fun h => by rw [h] at haspm; cases haspm
    refine congrArg Host.Outcome.next ?_
    unfold l1Entry
    split
    · rfl
    · exact if_neg hnot
  · exact congrArg Host.Outcome.next (if_pos ha)
  · have hrun (e : TlpError) (f : State) (h : tlpDiscard e s = f) : exec (.tlpDiscard e) s = .next f := congrArg _ h
    refine ⟨hrun _ _ ?_, hrun _ _ ?_, hrun _ _ ?_, hrun _ _ ?_⟩ <;> simp [tlpDiscard, hc, aer]

end Sys2Proof.Machine

namespace Sys2Proof.Machine

/-! ## Registers with a write rule of their own (O23) -/

/-- With no rejection in its beat a clear leaves nothing latched and nothing counted (R407). -/
theorem rejectClear_clears {s : State} (h : s.sys.rejBeat ≠ s.clk.beat ∨ s.sys.rejNow = []) :
    rejectClear 0x80000000 s = { s with sys := { s.sys with
      rejValid := false, rejMore := 0, rejBeat := s.clk.beat, rejNow := [], rejFresh := true } } := by
  have hnone : s.rejections = [] := by
    unfold State.rejections
    split
    · next hb => exact h.resolve_left (not_not_intro hb)
    · rfl
  have hbit : (0x80000000 : Word).getLsbD 31 = true := by decide
  unfold rejectClear
  rw [if_pos hbit, hnone]
  rfl

/-- With no admin job fetched and no chain open, ENABLE applies the staged placement at once (R162). -/
theorem adminCtrl_enables {s : State} (hc : s.ring.admin.chain = none) (hj : ∀ j ∈ s.ring.jobs, j.ctx ≠ .admin) :
    adminCtrl true s = applyAdmin { dropReads .admin s with ring := { (dropReads .admin s).ring with
      enable := true, fetching := false, applying := true, stopping := false } } := by
  have hany : s.ring.jobs.any (fun j => decide (j.ctx = .admin)) = false := by
    rw [List.any_eq_false]
    exact fun j hm => by simpa using hj j hm
  generalize hu : ({ dropReads .admin s with ring := { (dropReads .admin s).ring with
    enable := true, fetching := false, applying := true, stopping := false } } : State) = u
  have hopen : endOpen .admin 0x11 u = u := by
    have hchain : (u.ringOf .admin).chain = none := hu ▸ hc
    rw [endOpen, hchain]
  have happ : (u.ring.applying && !u.ring.jobs.any fun j => decide (j.ctx = .admin)) = true := by
    subst hu
    exact congrArg (fun b => !b) hany
  have hrun : adminCtrl true s = applyWhenClear (endOpen .admin 0x11 u) := by rw [← hu]; rfl
  rw [hrun, hopen, applyWhenClear, if_pos happ]

/-- The head index as it is stored (R363). -/
theorem ofNat_bits16 (v : Word) : BitVec.ofNat 16 (bits 0 16 v) = v.setWidth 16 := by
  apply BitVec.eq_of_toNat_eq
  simp [bits]

/-- Every RAT_B word is a plain register of 14 bits (R218, R403). -/
theorem regInfo_ratB (n : Fin 16) : regInfo (0x0E104 + 8 * n.val) = some ⟨0x3FFF, 0, true⟩ := by
  have hn := n.isLt
  have h1 : inBlock 0x11000 4 (0x0E104 + 8 * n.val) = none := if_neg (by omega)
  have h2 : inBlock 0x12000 16 (0x0E104 + 8 * n.val) = none := if_neg (by omega)
  have h3 : inBlock 0x16000 16 (0x0E104 + 8 * n.val) = none := if_neg (by omega)
  rw [regInfo, if_neg (by omega), if_neg (by omega), h1, h2, h3]
  simp (disch := omega) only [topReg, if_neg, if_pos]
/-- When a RAT_B word is legal (R218, R406). -/
theorem regLegal_ratB (n : Fin 16) (s : State) (v : Word) : regLegal s (0x0E104 + 8 * n.val) v = true ↔
    bits 1 3 v ≤ 3 ∧ (bits 0 1 v = 0 ∨
      (bits 0 12 (s.reg (0x0E100 + 8 * n.val)) ≤ bits 16 12 (s.reg (0x0E100 + 8 * n.val)) ∧
        bits 8 4 v ≠ 0 ∧ bits 12 2 v ≠ 0)) := by
  have hn := n.isLt
  have hin : 0x0E100 ≤ 0x0E104 + 8 * n.val ∧ 0x0E104 + 8 * n.val < 0x0E180 ∧ (0x0E104 + 8 * n.val) % 8 = 4 := by omega
  have hA : 0x0E104 + 8 * n.val - 4 = 0x0E100 + 8 * n.val := by omega
  rw [regLegal, if_neg (by omega), if_neg (by omega), if_neg (by omega), if_neg (by omega), if_neg (by omega),
    if_neg (by omega), if_neg (by omega), if_pos hin, hA]
  simp [within, and_assoc]
/-- Where register writes reach their block, a command of BAR0 does its work. -/
theorem next_of_regOpen {s t u : State} (ho : s.regOpen = true) (h : t = u) :
    (Host.Outcome.next (if s.regOpen then t else s) : Host.Outcome State Fault Refusal) = .next u :=
  congrArg Host.Outcome.next ((if_pos ho).trans h)

/-- Settles O23: a clear without a rejection in its beat; ENABLE by what waits for it; the head by where it lies; RAT_B by whether
its word is legal. -/
theorem ownWriteRules : Obligations.OwnWriteRules := by
  unfold Obligations.OwnWriteRules
  refine ⟨fun s ho h => ?_, fun s ho => ⟨?_, fun hc hj => ?_⟩, fun s v ho => ⟨fun hp => ?_, fun hp hin => ?_, fun hp hout => ?_⟩,
    fun s n v hs ho => ⟨fun hcls hok => ?_, fun hvalid hbad hb => ?_⟩⟩
  · exact ⟨_, next_of_regOpen ho (rejectClear_clears h), rfl, rfl⟩
  · refine ⟨adminCtrl false s, next_of_regOpen ho rfl, rfl, rfl, rfl, rfl, rfl, rfl, fun x hx => ?_, rfl⟩
    exact of_decide_eq_true (List.mem_filter.1 hx).2
  · exact ⟨_, next_of_regOpen ho (adminCtrl_enables hc hj), rfl, rfl, rfl, rfl, rfl, rfl, rfl, rfl, rfl, rfl, rfl, rfl, rfl, rfl⟩
  · refine next_of_regOpen ho ?_
    simp [evlogHeadWrite, hp]
  · refine next_of_regOpen ho ?_
    simp [evlogHeadWrite, hp, hin, ofNat_bits16]
  · refine next_of_regOpen ho ?_
    simp [evlogHeadWrite, hp, hout]
  · have hleg := (regLegal_ratB n s v).2 ⟨hcls, hok⟩
    have hA : 0x0E104 + 8 * n.val - 4 = 0x0E100 + 8 * n.val := by omega
    have hrun : ratBWrite n.val v s = _ := if_pos hleg
    rw [hA] at hrun
    refine ⟨_, next_of_regOpen ho hrun, ?_, ?_, ?_⟩
    · exact reg_setReg_self hs (regInfo_ratB n) v
    · have hcache : (s.setReg (0x0E104 + 8 * n.val) v).cache = s.cache := by rw [setReg_eq]
      rw [hcache]
      exact Tab.get_set_self _ _ _ _ hs.ranges
    · rw [setReg_eq]
  · have hill : ¬regLegal s (0x0E104 + 8 * n.val) v = true := by
      rw [regLegal_ratB]
      rintro ⟨-, h0 | ⟨hrange, hmask, hset⟩⟩
      · omega
      · rcases hbad with h | h | h
        · omega
        · exact hmask h
        · exact hset h
    have hrun : ratBWrite n.val v s = _ := if_neg hill
    exact ⟨_, next_of_regOpen ho hrun, reject_eq hb ..⟩

end Sys2Proof.Machine

namespace Sys2Proof.Machine

/-! ## Admin fetch and the Roundabout turn (O34) -/

section Requests

variable {s : State}

/-- The read that requests a context's next entry goes out and is kept among the reads (R141, R142). -/
theorem request_host (c : Ctx) (s : State) : (request c s).host = { s.host with
    out := s.host.out ++ [.read ((s.ringOf c).sqBase + BitVec.ofNat 64 (64 * (s.ringOf c).next)) 64], inL1 := false
    reads := s.host.reads ++ [{ ctx := c, slot := (s.ringOf c).next, sent := s.clk.beat }] } := by
  cases c <;> rfl
/-- A request reserves a completion slot and moves on to the next entry (R142, R143). -/
theorem request_ward (hs : Sound s) (w : WardId) : (request (.ward w) s).ward w = { s.ward w with ring := { (s.ward w).ring with
    reserved := (s.ward w).ring.reserved + 1, next := ((s.ward w).ring.next + 1) % (s.ward w).ring.sqSize } } :=
  ward_updWard_self hs w fun x => { x with ring := { (s.ward w).ring with
    reserved := (s.ward w).ring.reserved + 1, next := ((s.ward w).ring.next + 1) % (s.ward w).ring.sqSize } }

/-! Admin fetch (R153). -/

/-- With no entry to request, or no completion slot free, no admin entry is requested (R142, R143). -/
theorem requestAdmin_idle (h : s.ring.admin.avail = 0 ∨ s.ring.admin.free = 0) (n : Nat) : requestAdmin n s = s := by
  cases n with
  | zero => rfl
  | succ n =>
    refine if_neg ?_
    rintro ⟨havail, hfree, -⟩
    omega
/-- The admin fetch requests nothing while it is not active, with no entry to request, and with no slot free. -/
theorem adminFetch_idle
    (h : s.ring.enable = false ∨ s.ring.fetching = false ∨ s.ring.admin.avail = 0 ∨ s.ring.admin.free = 0) :
    adminFetch s = s := by
  unfold adminFetch
  split
  · next hon =>
    obtain ⟨he, hf⟩ := Bool.and_eq_true_iff.1 hon
    refine requestAdmin_idle ?_ _
    rcases h with h | h | h
    · rw [he] at h; cases h
    · rw [hf] at h; cases h
    · exact h
  · rfl
/-- The admin fetch requests nothing once 8 entries have been taken (R153). -/
theorem adminFetch_full (h : s.ring.adminTaken = 8) : adminFetch s = s := by
  unfold adminFetch
  rw [h]
  exact ite_self _

/-- A single entry that is to be requested is requested, and no other one (R142, R153). -/
theorem adminFetch_one (ho : fetchOpen s = true) (he : s.ring.enable = true) (hf : s.ring.fetching = true)
    (htaken : s.ring.adminTaken < 8) (havail : s.ring.admin.avail = 1) (hfree : 0 < s.ring.admin.free)
    (hnext : modSub s.ring.admin.next s.ring.admin.sqHead s.ring.admin.sqSize + 1 =
      modSub ((s.ring.admin.next + 1) % s.ring.admin.sqSize) s.ring.admin.sqHead s.ring.admin.sqSize) :
    adminFetch s = { request .admin s with
      ring := { (request .admin s).ring with adminTaken := s.ring.adminTaken + 1 } } := by
  obtain ⟨n, hn⟩ : ∃ n, 8 - s.ring.adminTaken = n + 1 := ⟨7 - s.ring.adminTaken, by omega⟩
  have hon : (s.ring.enable && s.ring.fetching) = true := by rw [he, hf]; rfl
  generalize hu : ({ request .admin s with
    ring := { (request .admin s).ring with adminTaken := s.ring.adminTaken + 1 } } : State) = u
  have hnone : u.ring.admin.avail = 0 := by
    subst hu
    have hcount : modSub s.ring.admin.sqTail s.ring.admin.sqHead s.ring.admin.sqSize -
        modSub s.ring.admin.next s.ring.admin.sqHead s.ring.admin.sqSize = 1 := havail
    show modSub s.ring.admin.sqTail s.ring.admin.sqHead s.ring.admin.sqSize -
      modSub ((s.ring.admin.next + 1) % s.ring.admin.sqSize) s.ring.admin.sqHead s.ring.admin.sqSize = 0
    omega
  rw [adminFetch, if_pos hon, hn]
  refine (if_pos ⟨by omega, hfree, ho⟩).trans ?_
  exact hu ▸ requestAdmin_idle (.inl hnone) n

/-- While fetch may go on, ADMIN_FETCH is the admin fetch, unless 8 entries have been taken (R153). -/
theorem adminTurn_below (ho : fetchOpen s = true) (h : s.ring.adminTaken < 8) : adminTurn s = adminFetch s := by
  have h8 : ¬(s.ring.adminTaken = 8 ∧ (!(scanOrder s).any (eligible s)) = true) := fun h8 => by omega
  simp only [adminTurn, ho, if_neg h8, Bool.not_true, Bool.false_eq_true, if_false]
/-- Every ward in use is scanned (R151). -/
theorem mem_scanOrder {w : WardId} : w ∈ scanOrder s ↔ w ∈ s.usedWards := by
  unfold scanOrder
  rw [List.mem_append, List.mem_filter, List.mem_filter, ← and_or_left, decide_eq_true_eq, decide_eq_true_eq]
  exact and_iff_left (Nat.lt_or_ge _ _)
/-- With 8 entries taken and a ward that may take a turn, ADMIN_FETCH waits for the turn (R153). -/
theorem adminTurn_waits {w : WardId} (h8 : s.ring.adminTaken = 8) (hw : w ∈ s.usedWards) (he : eligible s w = true) :
    adminTurn s = s := by
  have hany : (scanOrder s).any (eligible s) = true := List.any_eq_true.2 ⟨w, mem_scanOrder.2 hw, he⟩
  have hnot : ¬(s.ring.adminTaken = 8 ∧ (!(scanOrder s).any (eligible s)) = true) := fun h => by
    rw [hany] at h
    cases h.2
  unfold adminTurn
  rw [if_neg hnot, adminFetch_full h8]
  exact ite_self _

end Requests

section Turns

variable {s u : State} {w : WardId}

/-- A new round changes of a ward its credit alone (R151). -/
theorem newRound_ward (hs : Sound s) (w : WardId) :
    (newRound s).ward w = { s.ward w with credit := ((newRound s).ward w).credit } := by
  have hw : (newRound s).ward w = if (s.ward w).configured = true then { s.ward w with credit := (s.ward w).weight.toNat }
      else s.ward w := ward_mapAll hs (fun x => if x.configured then { x with credit := x.weight.toNat } else x) rfl w
  rw [hw]
  split <;> rfl

/-- What the turn is given in differs from `s` in the credits of wards alone. -/
structure Credited (s u : State) : Prop where
  sound : Sound u
  rest : u = { s with wards := u.wards }
  ward : ∀ w, u.ward w = { s.ward w with credit := (u.ward w).credit }

/-- A ward that may take a turn is not flushing and has a completion slot free (R150). -/
theorem free_of_eligible (h : eligible s w = true) : (s.ward w).flush = none ∧ 0 < (s.ward w).ring.free := by
  simp only [eligible, Bool.and_eq_true, decide_eq_true_eq, Option.isNone_iff_eq_none] at h
  obtain ⟨⟨⟨-, hfree⟩, hflush⟩, -⟩ := h
  exact ⟨hflush, hfree⟩
/-- The next turn goes to an eligible ward, in this round or in the next (R150, R151). -/
theorem nextTurn_some (hs : Sound s) (h : nextTurn s = (some w, u)) : eligible s w = true ∧ Credited s u := by
  unfold nextTurn at h
  dsimp only at h
  split at h
  · next v hv =>
    obtain ⟨rfl, rfl⟩ : v = w ∧ s = u := by simpa using h
    exact ⟨(List.mem_filter.1 (List.mem_of_find?_eq_some hv)).2, hs, rfl, fun _ => rfl⟩
  · obtain ⟨hhead, rfl⟩ := Prod.mk.inj h
    exact ⟨(List.mem_filter.1 (List.mem_of_head? hhead)).2, (newRound_keeps s).1 hs, rfl, newRound_ward hs⟩

/-- What the start of its turn does to a ward (R151). -/
def Ward.turnTaken (x : Ward) : Ward :=
  { x with
    credit := x.credit - 1
    weight := (x.sched.map Prod.fst).getD x.weight, burst := (x.sched.map Prod.snd).getD x.burst, sched := none }
/-- A weight and a burst that waited for the turn act (R151). -/
theorem Ward.turnTaken_sched {x : Ward} {n : Byte} {b : Nat} (h : x.sched = some (n, b)) :
    x.turnTaken.weight = n ∧ x.turnTaken.burst = b := by
  unfold Ward.turnTaken
  rw [h]
  exact ⟨rfl, rfl⟩
/-- A ward's turn has begun, and no entry has been requested in it (R151, R152). -/
def turnBegun (w : WardId) (s : State) : State :=
  let s1 := s.updWard w Ward.turnTaken
  { s1 with ring := { s1.ring with
    lastServed := w.val, turn := some w, turnLeft := (s1.ward w).burst, turnPast := false, adminTaken := 0 } }
theorem beginTurn_eq (w : WardId) (s : State) : beginTurn w s = goOnTurn (turnBegun w s) := rfl
theorem turnBegun_ward (hs : Sound s) (w : WardId) : (turnBegun w s).ward w = (s.ward w).turnTaken :=
  ward_updWard_self hs w _
theorem turnBegun_sound (hs : Sound s) (w : WardId) : Sound (turnBegun w s) := by
  have h := (State_updWard_keeps s w Ward.turnTaken).1 hs
  exact { h with }

/-- The turn requests its next entry while its burst lasts and everything is free for it (R152, R327). -/
theorem goOnTurn_requests (ht : s.ring.turn = some w) (havail : 0 < (s.ward w).ring.avail) (hfree : 0 < (s.ward w).ring.free)
    (hflush : (s.ward w).flush = none) (hin : s.intake < 2) (hleft : 0 < s.ring.turnLeft) (ho : fetchOpen s = true) :
    goOnTurn s = { request (.ward w) s with ring := { (request (.ward w) s).ring with
      turnLeft := (request (.ward w) s).ring.turnLeft - 1, turnPast := false } } := by
  have hpast : decide (s.ring.turnLeft = 0) = false := by simpa using hleft.ne'
  simp only [goOnTurn, ht, havail, hfree, hflush, hin, hleft, ho, true_or, Option.isNone_none, and_self, if_true, hpast]
/-- A turn that goes on, or ends, changes of its ward the rings alone, and leaves who was served last and what the admin context
has taken. -/
theorem goOnTurn_keeps_turn (hs : Sound s) (ht : s.ring.turn = some w) :
    (goOnTurn s).ward w = { s.ward w with ring := ((goOnTurn s).ward w).ring } ∧
    (goOnTurn s).ring.lastServed = s.ring.lastServed ∧ (goOnTurn s).ring.adminTaken = s.ring.adminTaken := by
  unfold goOnTurn
  rw [ht]
  dsimp only
  split
  · refine ⟨?_, rfl, rfl⟩
    show (request (.ward w) s).ward w = { s.ward w with ring := ((request (.ward w) s).ward w).ring }
    rw [request_ward hs]
  · split
    · exact ⟨rfl, rfl, rfl⟩
    · exact ⟨rfl, rfl, rfl⟩

/-- While fetch may go on, between turns and with intake free, a turn begins at the ward that is next (R151). -/
theorem roundaboutTurn_begins (ho : fetchOpen s = true) (ht : s.ring.turn = none) (hin : s.intake < 2)
    (hidle : adminFetch s = s) (h : nextTurn s = (some w, u)) : roundaboutTurn s = goOnTurn (turnBegun w u) := by
  have hnot : ¬2 ≤ s.intake := by omega
  simp [roundaboutTurn, ho, ht, hnot, hidle, h, beginTurn_eq]

end Turns

/-- Settles O34: the admin fetch by what there is to request, a turn by what its ward brings to it. -/
theorem entriesAreRequested : Obligations.EntriesAreRequested := by
  unfold Obligations.EntriesAreRequested
  intro s hs ho
  refine ⟨fun he hf htaken havail hfree hnext => ?_, fun h htaken => ?_, fun w h8 hw he => ?_, fun h hturn hin w u hnt => ?_⟩
  · have hrun := (adminTurn_below ho htaken).trans (adminFetch_one ho he hf htaken havail hfree hnext)
    exact ⟨_, congrArg Host.Outcome.next hrun, rfl, rfl, rfl, rfl, rfl, rfl, rfl⟩
  · exact congrArg Host.Outcome.next ((adminTurn_below ho htaken).trans (adminFetch_idle h))
  · exact congrArg Host.Outcome.next (adminTurn_waits h8 hw he)
  · have hidle : adminFetch s = s := adminFetch_idle (h.imp_right (Or.imp_right .inl))
    obtain ⟨helig, hu, hrest, hward⟩ := nextTurn_some hs hnt
    have hb := turnBegun_sound hu w
    have hbw := turnBegun_ward hu w
    obtain ⟨hkept, hserved, htaken⟩ := goOnTurn_keeps_turn (w := w) hb rfl
    refine ⟨helig, _, congrArg Host.Outcome.next (roundaboutTurn_begins ho hturn hin hidle hnt), hserved, htaken,
      ?_, ?_, ?_, ?_⟩
    · rw [hkept, hbw]
      rfl
    · rw [hkept, hbw]
      rfl
    · intro n b hsched
      have hwaits : (u.ward w).sched = some (n, b) := by rw [hward]; exact hsched
      rw [hkept, hbw]
      exact Ward.turnTaken_sched hwaits
    · intro hburst havail
      rw [hkept] at hburst
      obtain ⟨hflush, hfree⟩ := free_of_eligible helig
      have hring : ((turnBegun w u).ward w).ring = (s.ward w).ring := by rw [hbw, hward]; rfl
      have hnone : ((turnBegun w u).ward w).flush = none := by rw [hbw, hward]; exact hflush
      have hgo := goOnTurn_requests (w := w) (s := turnBegun w u) rfl (hring ▸ havail) (hring ▸ hfree) hnone
        (by rw [hrest]; exact hin) hburst (by rw [hrest]; exact ho)
      have hhost : (turnBegun w u).host = s.host := by rw [hrest]; rfl
      have hbeat : (turnBegun w u).clk = s.clk := by rw [hrest]; rfl
      have hrings : (turnBegun w u).ringOf (.ward w) = (s.ward w).ring := hring
      rw [hgo, request_host, hhost, hbeat, hrings]
      exact ⟨rfl, rfl, rfl⟩

end Sys2Proof.Machine

namespace Sys2Proof.Machine

/-! ## What an arriving entry becomes (O35) -/

/-- Bytes that are as many as asked for stay as they are. -/
theorem fit_self {n : Nat} {b : Bytes} (h : b.length = n) : fit n b = b := by
  unfold fit
  rw [← h, List.take_left']
  rfl
/-- Changing the first element that `p` picks changes the last one where `p` picks no other. -/
theorem listUpd_append_last {α : Type} {p : α → Bool} {f : α → α} {x : α} (hx : p x = true) :
    ∀ {l : List α}, (∀ y ∈ l, p y = false) → listUpd p f (l ++ [x]) = l ++ [f x]
  | [], _ => if_pos hx
  | y :: l, h => by
    have hy : ¬p y = true := by rw [h y List.mem_cons_self]; exact Bool.false_ne_true
    rw [List.cons_append, List.cons_append, listUpd, if_neg hy,
      listUpd_append_last hx fun z hz => h z (List.mem_cons_of_mem y hz)]

/-- Between turns, with no flush of the context and no read of a job waiting for a tag, nothing follows an entry. -/
structure Settled (c : Ctx) (s : State) : Prop where
  turn : s.ring.turn = none
  asked : ∀ j ∈ s.ring.jobs, j.toAsk = []
  flush : ∀ w, c = .ward w → (s.ward w).flush = none

/-- What follows an entry that has come: reads that waited for a tag, the flush and the turn of its ward (R121, R152, R154). -/
def entryDone (c : Ctx) (s : State) : State :=
  match c with
  | .admin => askWaiting s
  | .ward w => afterEntry w (flushStep w (askWaiting s))

section Arrivals

variable {s : State} {c : Ctx} {e : Bytes} {r : RingRead} {l : List RingRead}

/-- No flush goes on where there is none. -/
theorem flushStep_none {w : WardId} (h : (s.ward w).flush = none) : flushStep w s = s := by
  rw [flushStep, h]
theorem Settled.entryDone (h : Settled c s) : entryDone c s = s := by
  have hask := askWaiting_quiet h.asked
  cases c with
  | admin => exact hask
  | ward w =>
    have hnot : ¬s.ring.turn = some w := by rw [h.turn]; exact nofun
    show afterEntry w (flushStep w (askWaiting s)) = s
    rw [hask, flushStep_none (h.flush w rfl), afterEntry, if_neg hnot, goOnTurn_none h.turn]
theorem loseRead_jobs (c : Ctx) (s : State) : (loseRead c s).ring.jobs = s.ring.jobs := by simp [loseRead]
theorem loseRead_settled (hs : Sound s) (h : Settled c s) : Settled c (loseRead c s) := by
  refine ⟨?_, loseRead_jobs c s ▸ h.asked, ?_⟩
  · rw [← h.turn]
    cases c <;> rfl
  · rintro w rfl
    have hw := setRing_ward ((takeRead_keeps (.ward w) s).1 hs) (.ward w) { s.ringOf (.ward w) with
      reserved := (s.ringOf (.ward w)).reserved - 1, next := (s.ringOf (.ward w)).sqHead } w
    rw [if_pos rfl] at hw
    exact (congrArg Ward.flush hw).trans (h.flush w rfl)
/-- Between turns no entry is read past a burst. -/
theorem turnOver_none (h : s.ring.turn = none) : turnOver c e s = false := by
  simp [turnOver, h]

section Read

variable (h : readsOf c s = r :: l) (ht : r.tries ≠ 1) (ha : s.awake = true)
include h ht ha

/-- An entry that no longer lies at the head is discarded (R141). -/
theorem entryArrival_stray (hslot : r.slot ≠ (s.ringOf c).sqHead ∨ (s.ringOf c).sqHead = (s.ringOf c).sqTail) :
    entryArrival c e s = entryDone c (loseRead c s) := by
  have hnot : ¬(r.slot = (s.ringOf c).sqHead ∧ (s.ringOf c).sqHead ≠ (s.ringOf c).sqTail) := by
    rintro ⟨hhead, htail⟩
    exact hslot.elim (fun k => k hhead) htail
  simp only [entryArrival, h, ht, ha, if_neg hnot, decide_false, Bool.not_true, Bool.or_self, Bool.false_eq_true, if_false]
  rfl
/-- An entry at the head is taken (R141). -/
theorem entryArrival_head (hturn : s.ring.turn = none) (he : e.length = 64) (hslot : r.slot = (s.ringOf c).sqHead)
    (htail : (s.ringOf c).sqHead ≠ (s.ringOf c).sqTail) :
    entryArrival c e s = entryDone c (accept c e (takeRead c s)) := by
  simp only [entryArrival, h, ht, ha, if_pos (And.intro hslot htail), turnOver_none hturn, fit_self he, decide_false,
    Bool.not_true, Bool.or_self, Bool.false_eq_true, if_false]
  rfl

end Read

/-- The rings from which the entry at the head has been taken, with `ch` as the chain that is then open (R133, R145). -/
def Ring.headTaken (ch : Option Chain) (r : Ring) : Ring :=
  { r with sqHead := (r.sqHead + 1) % r.sqSize, chain := ch, chainTicks := 0 }
/-- The entry at the head has been taken, and `ch` is the chain that is then open (R133, R144, R145). -/
def headTaken (c : Ctx) (ch : Option Chain) (s : State) : State :=
  let s1 := bump (cQueue c 3) 1 (s.setRing c ((s.ringOf c).headTaken ch))
  if c = .admin then { s1 with sec := { s1.sec with idleTicks := 0, fetchedThisTick := true } } else s1

theorem headTaken_ringOf (hs : Sound s) (c : Ctx) (ch : Option Chain) :
    (headTaken c ch s).ringOf c = (s.ringOf c).headTaken ch := by
  cases c with
  | admin => rfl
  | ward w => exact ringOf_setRing_self hs (.ward w) _
theorem headTaken_counter (hs : Sound s) (c : Ctx) (ch : Option Chain) :
    (headTaken c ch s).counter (cQueue c 3) = s.counter (cQueue c 3) + 1 := by
  have hb := counter_bump_self ((State_setRing_keeps s c ((s.ringOf c).headTaken ch)).1 hs) (cQueue c 3) 1
  cases c <;> exact hb
/-- The taken entry leaves the jobs, the number of the next one and the turn. -/
theorem headTaken_jobs (c : Ctx) (ch : Option Chain) (s : State) : (headTaken c ch s).ring.jobs = s.ring.jobs ∧
    (headTaken c ch s).ring.nextJob = s.ring.nextJob ∧ (headTaken c ch s).ring.turn = s.ring.turn ∧
    (headTaken c ch s).clk = s.clk := by
  cases c <;> exact ⟨rfl, rfl, rfl, rfl⟩
/-- The taken entry changes of its ward the rings alone. -/
theorem headTaken_ward (hs : Sound s) (w : WardId) (ch : Option Chain) : (headTaken (.ward w) ch s).ward w =
    { s.ward w with ring := (headTaken (.ward w) ch s).ringOf (.ward w) } := by
  rw [headTaken_ringOf hs]
  exact ward_updWard_self hs w fun x => { x with ring := _ }
theorem headTaken_settled (hs : Sound s) (h : Settled c s) (ch : Option Chain) : Settled c (headTaken c ch s) := by
  obtain ⟨hjobs, -, hturn, -⟩ := headTaken_jobs c ch s
  refine ⟨hturn.trans h.turn, hjobs ▸ h.asked, ?_⟩
  rintro w rfl
  rw [headTaken_ward hs]
  exact h.flush w rfl

/-- Steps 1 to 7 of R149 depend on the state by steps 1 to 4 alone. -/
theorem checkEntries_of_gate {t : State} {es : List Bytes} (h : ∀ op, gate c op t = gate c op s) (bad : Option Nat) :
    checkEntries c bad es t = checkEntries c bad es s := by
  simp only [checkEntries, h]
/-- Steps 1 to 4 of R149 judge the taken entry as they judged it before. -/
theorem headTaken_gate (hs : Sound s) (c : Ctx) (ch : Option Chain) (op : Nat) : gate c op (headTaken c ch s) = gate c op s := by
  cases c with
  | admin => rfl
  | ward w =>
    have hw := headTaken_ward hs w ch
    simp only [gate, wardGate, hw]
    rfl

/-- Where no flush runs, an entry that continues no chain is taken, and what it ends are jobs (R145, R149). -/
theorem accept_taken (hq : ∀ w, c = .ward w → (s.ward w).flush = none) {cut : Cut}
    (hcut : cutEntry (s.ringOf c).chain e = cut) (hj : cut.joined = false) :
    accept c e s = cut.jobs.foldl (fun s p => submit c p.1 p.2 s) (headTaken c cut.open_ s) := by
  cases c with
  | admin =>
    simp only [accept, hcut, hj]
    rfl
  | ward w =>
    simp only [accept, hcut, hj, hq w rfl]
    rfl
/-- With no chain open an entry with FIRST and without LAST opens one (R145). -/
theorem cutEntry_opens {ch : Option Chain} (hc : ch = none) (hf : entFirst e = true) (hl : entLast e = false) :
    cutEntry ch e = { jobs := [], open_ := some { first := e }, joined := false } := by
  simp [cutEntry, hc, hf, hl]
/-- With no chain open an entry with FIRST and LAST is a job of its own (R145). -/
theorem cutEntry_alone {ch : Option Chain} (hc : ch = none) (hf : entFirst e = true) (hl : entLast e = true) :
    cutEntry ch e = { jobs := [(none, [e])], open_ := none, joined := false } := by
  simp [cutEntry, hc, hf, hl]

/-- The job of a single entry, ready to run (R149). -/
def readyJob (c : Ctx) (e : Bytes) (s : State) : Job :=
  { id := s.ring.nextJob, ctx := c, entry := e, segs := segsOf [e], phase := .ready, at_ := s.clk.beat }

/-- A new job has joined the fetched ones. -/
def jobJoined (j : Job) (s : State) : State :=
  { s with ring := { s.ring with jobs := s.ring.jobs ++ [j], nextJob := s.ring.nextJob + 1 } }
theorem jobJoined_ringOf (j : Job) (c : Ctx) (s : State) : (jobJoined j s).ringOf c = s.ringOf c := by
  cases c <;> rfl
theorem jobJoined_settled {j : Job} (h : Settled c s) (hj : j.toAsk = []) : Settled c (jobJoined j s) := by
  refine ⟨h.turn, fun k hk => ?_, h.flush⟩
  rcases List.mem_append.1 hk with hk | hk
  · exact h.asked k hk
  · rw [List.mem_singleton.1 hk, hj]

/-- A single entry that passes every check and carries no intent number becomes the newest job, ready to run (R149, R158). -/
theorem submit_ready (hop : opIntent (byteAt 0 e).toNat = false) (hcheck : checkEntries c none [e] s = .pass)
    (hid : ∀ j ∈ s.ring.jobs, j.id < s.ring.nextJob) : submit c none [e] s = jobJoined (readyJob c e s) s := by
  have hnew : newJob c [e] s = (readyJob c e s, { s with ring := { s.ring with nextJob := s.ring.nextJob + 1 } }) := rfl
  have hpass : checkEntries c none [e] { s with ring := { s.ring with nextJob := s.ring.nextJob + 1 } } = .pass :=
    (checkEntries_of_gate (fun _ => by cases c <;> rfl) none).trans hcheck
  have hothers : ∀ j ∈ s.ring.jobs, (j.id == s.ring.nextJob) = false := fun j hj => by
    simpa using (hid j hj).ne
  have hlast := listUpd_append_last (p := fun j : Job => j.id == s.ring.nextJob) (f := fun _ => readyJob c e s)
    (x := readyJob c e s) (beq_self_eq_true _) hothers
  unfold submit
  rw [hnew]
  dsimp only
  rw [hpass]
  refine (admitJob_plain (j := readyJob c e s) hop).trans ?_
  exact congrArg (fun l => { s with ring := { s.ring with jobs := l, nextJob := s.ring.nextJob + 1 } }) hlast

end Arrivals

/-- Settles O35: an entry away from the head by what giving up its read does, one at the head by its flags. -/
theorem entriesBecomeJobs : Obligations.EntriesBecomeJobs := by
  unfold Obligations.EntriesBecomeJobs
  intro s c e r l hs ha h ht hturn he hflush hchain hask
  have hsound : Sound (takeRead c s) := (takeRead_keeps c s).1 hs
  have hset : Settled c (takeRead c s) := ⟨hturn, hask, hflush⟩
  have hrings : (takeRead c s).ringOf c = s.ringOf c := by cases c <;> rfl
  have htchain : ((takeRead c s).ringOf c).chain = none := hrings ▸ hchain
  refine ⟨fun hslot => ?_, fun hslot htail hf hl => ?_, fun hslot htail hf hl hop hcheck hid => ?_⟩
  · have hlost := loseRead_settled hs ⟨hturn, hask, hflush⟩
    have hhost : (loseRead c s).host = (takeRead c s).host := by simp [loseRead]
    have hring := ringOf_loseRead (c := c) hs
    refine ⟨_, congrArg Host.Outcome.next ((entryArrival_stray h ht ha hslot).trans hlost.entryDone), ?_⟩
    rw [hring, hhost]
    exact ⟨loseRead_jobs c s, rfl, rfl, rfl, rfl⟩
  · obtain ⟨hjobs, -⟩ := headTaken_jobs c (some { first := e }) (takeRead c s)
    have hacc : accept c e (takeRead c s) = headTaken c (some { first := e }) (takeRead c s) :=
      accept_taken (s := takeRead c s) hflush (cutEntry_opens htchain hf hl) rfl
    have hrun := hacc ▸ entryArrival_head h ht ha hturn he hslot htail
    have hdone := (headTaken_settled hsound hset (some { first := e })).entryDone
    refine ⟨_, congrArg Host.Outcome.next (hrun.trans hdone), hjobs, ?_⟩
    rw [headTaken_ringOf hsound, hrings, headTaken_counter hsound]
    exact ⟨rfl, rfl, rfl⟩
  · obtain ⟨u, hu⟩ : ∃ u, u = headTaken c none (takeRead c s) := ⟨_, rfl⟩
    obtain ⟨hjobs, hnext, -, hclk⟩ := headTaken_jobs c none (takeRead c s)
    have huset := headTaken_settled hsound hset none
    have huring := headTaken_ringOf hsound c none
    have hgate (op : Nat) : gate c op u = gate c op s := by
      rw [hu, headTaken_gate hsound]
      cases c <;> rfl
    rw [← hu] at hjobs hnext hclk huset huring
    have hready : readyJob c e u = readyJob c e s := by
      unfold readyJob
      rw [hnext, hclk]
      rfl
    have hacc : accept c e (takeRead c s) = submit c none [e] u :=
      hu ▸ accept_taken (s := takeRead c s) hflush (cutEntry_alone htchain hf hl) rfl
    have hsubmit : submit c none [e] u = jobJoined (readyJob c e u) u :=
      submit_ready hop ((checkEntries_of_gate hgate none).trans hcheck) (by rw [hjobs, hnext]; exact hid)
    have hrun := entryArrival_head h ht ha hturn he hslot htail
    have hdone : Settled c (jobJoined (readyJob c e s) u) := jobJoined_settled huset rfl
    rw [hacc, hsubmit, hready, hdone.entryDone] at hrun
    refine ⟨_, congrArg Host.Outcome.next hrun, ?_, ?_, ?_⟩
    · exact congrArg (· ++ [readyJob c e s]) hjobs
    · exact congrArg (· + 1) hnext
    · rw [jobJoined_ringOf, huring, hrings]
      exact ⟨rfl, rfl⟩

end Sys2Proof.Machine

/-! ## Groups, rebuild and scrub under command (O46) -/

namespace Sys2Proof.Machine

/-- An effect that leaves the rings, the power and the host link keeps the admin rings. -/
theorem keepsRings_of_parts {u v : State} (hr : v.ring = u.ring) (hp : v.pwr = u.pwr) (hh : v.host = u.host) :
    KeepsRings .admin u v := by
  refine ⟨by rw [hr], ?_, ?_, ?_⟩
  · simp only [State.ringUp, hr]
  · simp only [State.ringOf, hr]
  · simp only [State.dmaOpen, State.awake, hp, hh]

/-! How the commands begin. -/

/-- A GROUP_SET that begins does the work of its ACTION (R184). -/
theorem groupSet_begins {s : State} {id a : Nat} {j : Job} (h : AdminBegins id 0x51 .ready j s) (ha : j.cmd 0x21 1 = a)
    (f : Job → State → State) : groupSet id a f s = f j s := by
  unfold groupSet
  rw [h.job]
  exact (if_pos ha).trans (runAdmin_begins h (.inl rfl) f)
/-- A REBUILD_CTRL or SCRUB_CTRL on a defined group that begins does the work of its ACTION (R185). -/
theorem workCtrl_begins {s : State} {id op a : Nat} {j : Job} (h : AdminBegins id op .ready j s) (ha : j.cmd 0x21 1 = a)
    (hd : (s.group j.grp).defined = true) (f : Job → State → State) : workCtrl id op a f s = f j s := by
  unfold workCtrl
  rw [h.job]
  exact (if_pos ha).trans ((runAdmin_begins h (.inl rfl) _).trans (if_pos hd))
/-- GROUP_SET CREATE of a new group with a fit spare and enough members of no other group journals (R184). -/
theorem groupCreate_journals {s : State} {j : Job} (hd : (s.group j.grp).defined = false)
    (hb : badSpare j.grp j.members j.spare s = false) (hl : (if j.cmd 0x22 1 = 3 then 4 else 3) ≤ j.members.length)
    (ho : ∀ c ∈ j.members, inOther j.grp c s = false) : groupCreate j s = journal .journal j .entry 0 s := by
  have hfew : ¬(j.members.length < (if j.cmd 0x22 1 = 3 then 4 else 3) ∨ j.members.any (fun c => inOther j.grp c s) = true) := by
    rw [not_or, Nat.not_lt, List.any_eq_true]
    exact ⟨hl, fun ⟨c, hc, hin⟩ => by simp [ho c hc] at hin⟩
  unfold groupCreate
  simp only [hd, hb, Bool.false_eq_true, if_false]
  exact if_neg hfew
/-- GROUP_SET SET_SPARE of a defined group without a rebuild journals a fit spare (R184, R272). -/
theorem groupSpare_journals {s : State} {j : Job} (hd : (s.group j.grp).defined = true)
    (ha : (s.group j.grp).rebuild.active = false) (hp : (s.group j.grp).rebuild.paused = false)
    (hb : badSpare j.grp (s.group j.grp).members j.spare s = false) : groupSpare j s = journal .journal j .entry 0 s := by
  unfold groupSpare
  simp [hd, ha, hp, hb]
/-- GROUP_SET DELETE of a defined group without a ward's extent journals (R184). -/
theorem groupDelete_journals {s : State} {j : Job} (hd : (s.group j.grp).defined = true) (hu : groupUsed j.grp s = false) :
    groupDelete j s = journal .journal j .entry 0 s := by
  unfold groupDelete
  simp [hd, hu]
/-- REBUILD_CTRL START of a member journals where no other member's rebuild runs, and, where none runs, a spare is there (R185,
R268). -/
theorem rebuildStart_journals {s : State} {j : Job} {m : Nat}
    (hm : (s.group j.grp).members.findIdx? (· == cellOf (j.cmd 0x22 1)) = some m)
    (hsame : (s.group j.grp).rebuild.active = true → (s.group j.grp).rebuild.member = m)
    (hspare : (s.group j.grp).rebuild.active = false → (s.group j.grp).spare ≠ none) :
    rebuildStart j s = journal .journal j .entry 0 s := by
  unfold rebuildStart
  dsimp only
  rw [hm]
  refine (if_neg fun h => h.2 (hsame h.1)).trans (if_neg fun h => ?_)
  simp only [Bool.not_eq_true', Option.isNone_iff_eq_none] at h
  exact hspare h.1 h.2

/-! What their COMMITs bring. -/

/-- The effects of the set-up commands: groups, rebuild and scrub, ways and the event log, by opcode. -/
structure SetupEffects (i : Intent) (v : State) : Prop where
  groups : i.op = 0x51 → applyEffect i v = groupSetTo i.asJob v
  rebuild : i.op = 0x52 → applyEffect i v = rebuildTo i.asJob v
  scrub : i.op = 0x53 → applyEffect i v = scrubTo i.asJob v
  ways : i.op = 0x54 → applyEffect i v = waysBack (BitVec.ofNat 16 (i.asJob.cmd 0x20 2)) v
  log : i.op = 0x55 → applyEffect i v = logTo i.asJob v
/-- The entry of an admin command brings the effect of its opcode (R157, R235). -/
theorem entryEffect_setup {i : Intent} (hc : i.ctx = .admin) (he : i.effect = .entry) (v : State) : SetupEffects i v := by
  have happly : applyEffect i v = entryEffect i v := by unfold applyEffect; rw [he]
  constructor <;> intro hop <;> rw [happly, entryEffect] <;> simp [hc, hop]

/-- A DELETE leaves its group undefined and the others as they were (R184). -/
theorem groupGone_group {v : State} (hv : Sound v) (g : GroupId) :
    (groupGone g v).group g = {} ∧ ∀ u, u ≠ g → (groupGone g v).group u = v.group u := by
  have hgroups (u : GroupId) : (groupGone g v).group u = (v.setGroup g {}).group u := by
    unfold State.group
    simp [groupGone]
  exact ⟨by rw [hgroups, group_setGroup_self hv], fun u hu => by rw [hgroups, group_setGroup_ne hv hu]⟩
/-- GROUP_SET by its ACTION (R184, R248, R259): the group it makes of the one that stood, and the others as they were. -/
theorem groupSetTo_group {v : State} (hv : Sound v) (j : Job) :
    (groupSetTo j v).group j.grp =
      (if j.cmd 0x21 1 = 1 then
        { defined := true, level := j.cmd 0x22 1, members := j.members, spare := j.spare, stripes := cellBlocks / 16 }
      else if j.cmd 0x21 1 = 2 then { v.group j.grp with spare := j.spare } else {}) ∧
    ∀ u, u ≠ j.grp → (groupSetTo j v).group u = v.group u := by
  unfold groupSetTo
  split
  · exact ⟨group_setGroup_self hv .., fun u hu => group_setGroup_ne hv hu _⟩
  · split
    · exact ⟨group_updGroup_self hv .., fun u hu => group_updGroup_ne hv hu _⟩
    · exact groupGone_group hv _
/-- REBUILD_CTRL leaves every group but its own (R185). -/
theorem rebuildTo_group_ne {v : State} (hv : Sound v) (j : Job) {u : GroupId} (hu : u ≠ j.grp) :
    (rebuildTo j v).group u = v.group u := by
  have hstart (m rate : Nat) (copy : Bool) : (startRebuild j.grp m rate copy v).group u = v.group u :=
    group_updGroup_ne hv hu _
  unfold rebuildTo
  dsimp only
  split
  · split
    · rfl
    · split
      · exact group_updGroup_ne hv hu _
      · split
        · exact hstart ..
        · exact (group_updGroup_ne ((startRebuild_keeps ..).1 hv) hu _).trans (hstart ..)
  · exact group_updGroup_ne hv hu _
/-- A START on the member whose rebuild runs changes its rate (R268). -/
theorem rebuildTo_rate {v : State} (hv : Sound v) {j : Job} {m : Nat} (ha : j.cmd 0x21 1 = 1)
    (hm : (v.group j.grp).members.findIdx? (· == cellOf (j.cmd 0x22 1)) = some m)
    (hact : (v.group j.grp).rebuild.active = true) (hmem : (v.group j.grp).rebuild.member = m) :
    (rebuildTo j v).group j.grp =
      { v.group j.grp with rebuild := { (v.group j.grp).rebuild with rate := j.cmd 0x24 2 } } := by
  unfold rebuildTo
  simp [ha, hm, hact, hmem, hv]
/-- A START where no rebuild runs or pauses begins one in Service, and records it outside (R185, R268, R272). -/
theorem rebuildTo_start {v : State} (hv : Sound v) {j : Job} {m : Nat} (ha : j.cmd 0x21 1 = 1)
    (hm : (v.group j.grp).members.findIdx? (· == cellOf (j.cmd 0x22 1)) = some m)
    (hact : (v.group j.grp).rebuild.active = false) (hp : (v.group j.grp).rebuild.paused = false) :
    ((rebuildTo j v).group j.grp).rebuild = {
      member := m, active := v.inService, pending := !v.inService, rate := j.cmd 0x24 2
      copy := !(v.group j.grp).failed.contains m } := by
  have hstart : ((startRebuild j.grp m (j.cmd 0x24 2) (!(v.group j.grp).failed.contains m) v).group j.grp).rebuild =
      { member := m, active := true, copy := !(v.group j.grp).failed.contains m, rate := j.cmd 0x24 2 } := by
    unfold startRebuild
    rw [group_updGroup_self hv]
    simp [hp]
  unfold rebuildTo
  simp only [ha, hm, hact, hp, if_true, Bool.false_and, Bool.false_eq_true, if_false]
  split
  · next hin => rw [hstart, hin]; rfl
  · next hin =>
    rw [group_updGroup_self ((startRebuild_keeps ..).1 hv)]
    dsimp only
    rw [hstart, Bool.eq_false_iff.2 hin]
    rfl
/-- A STOP ends the group's rebuild with its front kept (R272). -/
theorem rebuildTo_stop {v : State} (hv : Sound v) {j : Job} (ha : j.cmd 0x21 1 ≠ 1) :
    (rebuildTo j v).group j.grp = { v.group j.grp with rebuild := { (v.group j.grp).rebuild with
      active := false, pending := false, sub := 0
      paused := (v.group j.grp).rebuild.active || (v.group j.grp).rebuild.paused } } := by
  unfold rebuildTo
  rw [if_neg ha]
  exact group_updGroup_self hv ..
/-- SCRUB_CTRL by its ACTION (R185, R273): the scrub it makes of the one that stood, and the other groups as they were. -/
theorem scrubTo_group {v : State} (hv : Sound v) (j : Job) :
    ((scrubTo j v).group j.grp).scrub =
      (if j.cmd 0x21 1 = 1 then { (v.group j.grp).scrub with
        rate := j.cmd 0x24 2, active := (v.group j.grp).scrub.active || v.inService
        pending := !((v.group j.grp).scrub.active || v.inService) }
      else { (v.group j.grp).scrub with active := false, pending := false }) ∧
    ∀ u, u ≠ j.grp → (scrubTo j v).group u = v.group u := by
  unfold scrubTo
  split
  · exact ⟨by rw [group_updGroup_self hv], fun u hu => group_updGroup_ne hv hu _⟩
  · exact ⟨by rw [group_updGroup_self hv], fun u hu => group_updGroup_ne hv hu _⟩

/-- The COMMIT of an admin command that leaves every group but its own: that group is its effect's, on the groups as they
stood. -/
theorem commit_group {i : Intent} {j : Job} {s : State} (hs : Sound s) (h : CommitDue i j s) (hc : i.ctx = .admin)
    {e : Job → State → State} (heff : ∀ v, applyEffect i v = e i.asJob v) (hkeep : ∀ v, KeepsRings .admin v (e i.asJob v))
    (hne : ∀ v, Sound v → ∀ u, u ≠ i.asJob.grp → (e i.asJob v).group u = v.group u) :
    ∃ v t, (exec (.ledgerRound [] none) s = .next t ∧ Completed j 0 i.detail s t ∧
        ∀ u, u ≠ i.asJob.grp → t.group u = s.group u) ∧
      t.group i.asJob.grp = (e i.asJob v).group i.asJob.grp ∧ Sound v ∧ v.group i.asJob.grp = s.group i.asJob.grp ∧
      v.inService = s.inService := by
  obtain ⟨v, t, ht, -⟩ := exec_commit_admin hs h hc fun v => by rw [heff]; exact hkeep v
  have hafter (u : GroupId) : t.group u = (e i.asJob v).group u := by
    unfold State.group
    rw [ht.rest, ← heff]
    simp
  have hbefore (u : GroupId) : v.group u = s.group u := by rw [ht.begins.rest]; rfl
  have hv := ht.begins.sound
  exact ⟨v, t, ⟨ht.run, ht.completed, fun u hu => by rw [hafter, hne v hv u hu, hbefore]⟩, hafter _, hv, hbefore _,
    by rw [ht.begins.rest]; rfl⟩

/-- Settles O46: each row journals where its conditions hold, and each COMMIT leaves the group that its effect makes. -/
theorem groupCommands : Obligations.GroupCommands := by
  unfold Obligations.GroupCommands
  intro s id j hs
  refine ⟨fun ho => ?_, fun i h hc he => ?_⟩
  · intro g
    have hjournal {a op : Nat} {p : JobPhase} (h : AdminBegins a op p j s) :
        Journaled j .entry 0 s (journal .journal j .entry 0 s) := journal_journaled ho (id_of_jobFor h.job).2.1 _ _
    refine ⟨fun h ha hd hb hl hin => ⟨_, ?_, hjournal h⟩, fun h ha hd hact hp hb => ⟨_, ?_, hjournal h⟩,
      fun h ha hd hu => ⟨_, ?_, hjournal h⟩, fun m h ha hd hm hsame hspare => ⟨_, ?_, hjournal h⟩,
      fun h ha hd => ⟨_, ?_, hjournal h⟩, fun h ha hd => ⟨_, ?_, hjournal h⟩, fun h ha hd => ⟨_, ?_, hjournal h⟩⟩
    · exact congrArg Host.Outcome.next ((groupSet_begins h ha _).trans (groupCreate_journals hd hb hl hin))
    · exact congrArg Host.Outcome.next ((groupSet_begins h ha _).trans (groupSpare_journals hd hact hp hb))
    · exact congrArg Host.Outcome.next ((groupSet_begins h ha _).trans (groupDelete_journals hd hu))
    · exact congrArg Host.Outcome.next ((workCtrl_begins h ha hd _).trans (rebuildStart_journals hm hsame hspare))
    · exact congrArg Host.Outcome.next (workCtrl_begins h ha hd _)
    · exact congrArg Host.Outcome.next (workCtrl_begins h ha hd _)
    · exact congrArg Host.Outcome.next (workCtrl_begins h ha hd _)
  · intro k g done
    have hset (hop : i.op = 0x51) := commit_group hs h hc (fun v => (entryEffect_setup hc he v).groups hop)
      (fun v => keepsRings_of_parts (by simp) (by simp) (by simp)) fun v hv => (groupSetTo_group hv _).2
    have hrebuild (hop : i.op = 0x52) := commit_group hs h hc (fun v => (entryEffect_setup hc he v).rebuild hop)
      (fun v => keepsRings_of_parts (by simp) (by simp) (by simp)) fun v hv _ hu => rebuildTo_group_ne hv _ hu
    have hscrub (hop : i.op = 0x53) := commit_group hs h hc (fun v => (entryEffect_setup hc he v).scrub hop)
      (fun v => keepsRings_of_parts (by simp) (by simp) (by simp)) fun v hv => (scrubTo_group hv _).2
    refine ⟨fun hop ha => ?_, fun hop ha => ?_, fun hop ha => ?_, fun m hop ha hm => ⟨fun hact hmem => ?_, fun hact hp => ?_⟩,
      fun hop ha => ?_, fun hop ha hact => ?_, fun hop ha => ?_⟩
    · obtain ⟨v, t, ht, hg, hv, -, -⟩ := hset hop
      exact ⟨t, ht, by rw [hg, (groupSetTo_group hv _).1, if_pos ha]⟩
    · obtain ⟨v, t, ht, hg, hv, hb, -⟩ := hset hop
      have hno : i.asJob.cmd 0x21 1 ≠ 1 := ha.trans_ne (by decide)
      exact ⟨t, ht, by rw [hg, (groupSetTo_group hv _).1, if_neg hno, if_pos ha, hb]⟩
    · obtain ⟨v, t, ht, hg, hv, -, -⟩ := hset hop
      have hno : i.asJob.cmd 0x21 1 ≠ 1 ∧ i.asJob.cmd 0x21 1 ≠ 2 := ⟨ha.trans_ne (by decide), ha.trans_ne (by decide)⟩
      exact ⟨t, ht, by rw [hg, (groupSetTo_group hv _).1, if_neg hno.1, if_neg hno.2]⟩
    · obtain ⟨v, t, ht, hg, hv, hb, -⟩ := hrebuild hop
      exact ⟨t, ht, by rw [hg, rebuildTo_rate hv ha (hb ▸ hm) (hb ▸ hact) (hb ▸ hmem), hb]⟩
    · obtain ⟨v, t, ht, hg, hv, hb, hin⟩ := hrebuild hop
      have hr := rebuildTo_start hv ha (hb ▸ hm) (hb ▸ hact) (hb ▸ hp)
      rw [← hg, hb, hin] at hr
      exact ⟨t, ht, by rw [hr]; exact ⟨rfl, rfl, rfl, rfl, rfl, rfl⟩⟩
    · obtain ⟨v, t, ht, hg, hv, hb, -⟩ := hrebuild hop
      have hr := rebuildTo_stop hv (j := i.asJob) (ha.trans_ne (by decide))
      rw [← hg, hb] at hr
      exact ⟨t, ht, by rw [hr]; exact ⟨rfl, rfl, rfl, rfl⟩⟩
    · obtain ⟨v, t, ht, hg, hv, hb, hin⟩ := hscrub hop
      have hr := (scrubTo_group hv i.asJob).1
      rw [← hg, if_pos ha, hb, hin, hact, Bool.false_or] at hr
      exact ⟨t, ht, by rw [hr]; exact ⟨rfl, rfl, rfl⟩⟩
    · obtain ⟨v, t, ht, hg, hv, hb, -⟩ := hscrub hop
      have hno : i.asJob.cmd 0x21 1 ≠ 1 := ha.trans_ne (by decide)
      have hr := (scrubTo_group hv i.asJob).1
      rw [← hg, if_neg hno, hb] at hr
      exact ⟨t, ht, by rw [hr]; exact ⟨rfl, rfl, rfl⟩⟩

end Sys2Proof.Machine

/-! ## TUMBLER_WRITE, WAY_RESTORE and EVENT_LOG_SET (O47) -/

namespace Sys2Proof.Machine

/-! How the commands begin. -/

/-- An EVENT_LOG_SET that begins journals under its ENABLE (R363). -/
theorem eventLogSet_begins {s : State} {id on : Nat} {j : Job} (h : AdminBegins id 0x55 .ready j s) (ho : j.cmd 0x29 1 = on) :
    eventLogSet id on s = journal .journal j .entry 0 s := by
  unfold eventLogSet
  rw [h.job]
  exact (if_pos ho).trans (runAdmin_begins h (.inl rfl) _)
/-- A TUMBLER_WRITE whose data is in, within the Tumbler and without a reserved encoding, journals its images (R183). -/
theorem tumblerWrite_journals {s : State} {j : Job} (hp : j.phase = .dataIn) (hl : j.cmd 0x20 2 + j.cmd 0x22 2 ≤ 8192)
    (hr : (tumbImages j).any tumbReserved = false) :
    tumblerWrite j s = journal .journal j (.tumbler (j.cmd 0x20 2) (tumbImages j)) 0 s := by
  unfold tumblerWrite
  rw [if_neg (by omega), if_neg (by simp [hp]), hr, if_neg Bool.false_ne_true]

/-! What their COMMITs leave of the Tumbler, the cache and the event log. -/

/-- The event log: where it is placed, whether it is written, how far, and the queue of events. -/
structure EventLog where
  events : List Event
  enabled : Bool
  placed : Bool
  base : DWord
  size : Nat
  head : BitVec 16
  tail : BitVec 16
  phase : Bool
/-- The event log of an observation block. -/
def ObsBlk.log (o : ObsBlk) : EventLog :=
  { events := o.events, enabled := o.enabled, placed := o.placed, base := o.logBase, size := o.logLog, head := o.head
    tail := o.tail, phase := o.phase }
/-- The event log of a block that reads like another's, one by one. -/
theorem ObsBlk.of_log {o : ObsBlk} {l : EventLog} (h : o.log = l) : o.events = l.events ∧ o.enabled = l.enabled ∧
    o.placed = l.placed ∧ o.logBase = l.base ∧ o.logLog = l.size ∧ o.head = l.head ∧ o.tail = l.tail ∧ o.phase = l.phase :=
  h ▸ ⟨rfl, rfl, rfl, rfl, rfl, rfl, rfl, rfl⟩
/-- Counters are no part of the event log. -/
@[simp] theorem bump_log (o n : Nat) (s : State) : (bump o n s).obs.log = s.obs.log := rfl
/-- A completion that does not count as malformed leaves the event log (R136). -/
theorem finish_log {st : Nat} (h : countsMalformed st = false) (j : Job) (or d : Nat) (s : State) :
    (finish j st or d s).obs.log = s.obs.log := by
  have ha (t : State) : (applyWhenClear t).obs = t.obs := by simp
  have hsend (o : Held) (t : State) : (send o t).obs = t.obs := by simp
  have hcount (c : Ctx) (t : State) : countMalformed c st t = t := by
    unfold countMalformed
    split
    · rfl
    · rw [h]; rfl
  have hring (c : Ctx) (r : Ring) (t : State) : (t.setRing c r).obs = t.obs := by simp
  unfold finish postCompletion
  rw [ha]
  split
  · rw [hcount, hsend]
    (repeat' split) <;> simp only [bump_log, hring] <;> rfl
  · rfl
/-- A write round without a failed slot leaves the event log (R231). -/
theorem writeSlots_log (key : BitVec 256) (k n : Nat) (s : State) : (writeSlots key [] k n s).2.obs.log = s.obs.log := by
  induction k generalizing n s with
  | zero => rfl
  | succ k ih =>
    have hput (slot m : Nat) (b : Bytes) (t : State) : (bump (cDev 9) m (putSlots 1 slot b t)).obs.log = t.obs.log := rfl
    unfold writeSlots
    split
    · rfl
    · split
      · rfl
      · split
        · exact ih ..
        · dsimp only
          rw [List.contains_nil, if_neg Bool.false_ne_true]
          split
          · exact (ih ..).trans (hput ..)
          · exact (ih ..).trans (hput ..)

/-- The COMMIT of an admin command without payload: cache and event log are those of its effect, on what stood. -/
theorem ledgerRound_commitDue_parts {i : Intent} {j : Job} {s : State} (hs : Sound s) (h : CommitDue i j s)
    (hc : i.ctx = .admin) :
    ∃ v, v.cache = s.cache ∧ v.clk = s.clk ∧ v.obs.log = s.obs.log ∧ (ledgerRound [] s).cache = (applyEffect i v).cache ∧
      (ledgerRound [] s).obs.log = (applyEffect i v).obs.log := by
  obtain ⟨keys, hk⟩ := Option.ne_none_iff_exists'.1 h.keys
  obtain ⟨u, hw, hu⟩ := writeSlots_commitDue hs h keys.ledger
  obtain ⟨-, hdata, hpar⟩ := h.plain
  have hlog : u.obs.log = s.obs.log := (congrArg (·.2.obs.log) hw).symm.trans (writeSlots_log keys.ledger 8 0 s)
  have hround : ledgerRound [] s = refreshCap (pumpPort (holdCheck (commitDone i u))) := by
    have hdone : itemDone (.commit i.serial) u = commitDone i u := by simp [itemDone, intentOf_of_commitDue h hu.intents]
    unfold ledgerRound
    simp [hk, h.alive, h.awake, h.port, hw, hdone]
  generalize hv : commitContext i (bump (cDev 7) 1 (u.updIntent i.serial fun x => { x with phase := .committed })) = v
  have hcontext : v = { u with ring := v.ring, ledger := v.ledger, obs := v.obs } ∧ v.obs.log = u.obs.log := by
    subst hv
    unfold commitContext
    rw [hc]
    exact ⟨rfl, rfl⟩
  have hplain : commitPayload i v = v := by
    unfold commitPayload
    rw [if_pos (by simp [Intent.payloads, hdata, hpar])]
  have hcommit : (commitDone i u).cache = (applyEffect i v).cache ∧ (commitDone i u).obs.log = (applyEffect i v).obs.log := by
    unfold commitDone
    dsimp only
    rw [hv, hplain]
    split
    · next k _ => exact ⟨by simp, by simpa using finish_log (st := 0) rfl k 0 i.detail (applyEffect i v)⟩
    · exact ⟨by simp, by simp⟩
  refine ⟨v, ?_, ?_, hcontext.2.trans hlog, ?_, ?_⟩
  · rw [hcontext.1, hu.rest]
  · rw [hcontext.1, hu.rest]
  · rw [hround, ← hcommit.1]; simp
  · rw [hround, ← hcommit.2]; simp
/-- The COMMIT of an admin command without payload, with what it leaves of cache and event log. -/
theorem exec_commit_parts {i : Intent} {j : Job} {s : State} (hs : Sound s) (h : CommitDue i j s) (hc : i.ctx = .admin)
    (he : ∀ v, KeepsRings .admin v (applyEffect i v)) :
    ∃ v t, (exec (.ledgerRound [] none) s = .next t ∧ Completed j 0 i.detail s t) ∧ v.cache = s.cache ∧ v.clk = s.clk ∧
      v.obs.log = s.obs.log ∧ t.cache = (applyEffect i v).cache ∧ t.obs.log = (applyEffect i v).obs.log := by
  obtain ⟨_, t, -, ht⟩ := exec_commit_admin hs h hc he
  obtain ⟨v, hv⟩ := ledgerRound_commitDue_parts hs h hc
  have hround : ledgerRound [] s = t := Host.Outcome.next.inj ht.run
  exact ⟨v, t, ⟨ht.run, ht.completed⟩, hround ▸ hv⟩

/-- One image takes effect in its entry, with a full bucket; the generation rises and the other entries stay (R183, R204). -/
theorem tumblerApply_one {v : State} (hv : Sound v) (first : Nat) (image : Bytes) :
    (tumblerApply first [image] v).cap.tumbGen = v.cap.tumbGen + 1 ∧
    (tumblerApply first [image] v).tumb first =
      { image := if image.all (· == 0) then [] else image, level := tumbBurst image, at_ := v.clk.beat } ∧
    ∀ n, n ≠ first → (tumblerApply first [image] v).tumb n = v.tumb n :=
  ⟨rfl, tumb_setTumb_self hv .., fun _ hn => tumb_setTumb_ne hv hn _⟩
/-- Where nothing drains and no way retired in the beat, the named ways return with their lines invalid (R186, R225). -/
theorem waysBack_all {v : State} (m : BitVec 16) (hd : v.cache.drain = []) (hr : v.cache.retBeat ≠ v.clk.beat) :
    (waysBack m v).cache.retired = v.cache.retired &&& ~~~m ∧
    ∀ e, (m &&& v.cache.retired).getLsbD (e % 16) = true → (waysBack m v).line e = {} := by
  have hgo : m &&& ~~~((if v.cache.retBeat = v.clk.beat then v.cache.retNow else 0) |||
      v.cache.drain.foldl (fun m p => m ||| (1#16 <<< p.1)) 0) &&& v.cache.retired = m &&& v.cache.retired := by
    rw [if_neg hr, hd, List.foldl_nil, BitVec.or_self]
    exact congrArg (· &&& _) BitVec.and_allOnes
  unfold waysBack
  dsimp only
  rw [hgo]
  refine ⟨?_, fun e he => ?_⟩
  · ext b hb
    simp only [BitVec.getElem_and, BitVec.getElem_not]
    cases v.cache.retired[b] <;> simp
  · exact get_filter_gone ({} : Line) (fun k => !(m &&& v.cache.retired).getLsbD (k % 16)) e (by simp [he]) v.cache.lines
/-- EVENT_LOG_SET by its ENABLE (R363). -/
theorem logTo_log (k : Job) (v : State) : (logTo k v).obs.log =
    if k.cmd 0x29 1 = 1 then { v.obs.log with
      enabled := true, placed := true, base := BitVec.ofNat 64 (k.cmd 0x20 8), size := k.cmd 0x28 1, head := 0, tail := 0
      phase := true }
    else { v.obs.log with enabled := false } := by
  unfold logTo
  split <;> rfl

/-- Settles O47: each row journals where its conditions hold, and each COMMIT leaves what its effect makes of the Tumbler, the
ways or the event log. -/
theorem captureAndLogCommands : Obligations.CaptureAndLogCommands := by
  unfold Obligations.CaptureAndLogCommands
  intro s id j hs
  refine ⟨fun ho => ⟨fun h hl hr => ?_, fun h => ⟨fun hd => ?_, fun hd => ?_⟩, fun h => ⟨fun hon => ?_, fun hon => ?_⟩⟩,
    fun i h hc => ?_⟩
  · have hrun := (runAdmin_begins h (.inr rfl) _).trans (tumblerWrite_journals h.phase hl hr)
    exact ⟨_, congrArg Host.Outcome.next hrun, journal_journaled ho (id_of_jobFor h.job).2.1 _ _⟩
  · have hrun : runAdmin id 0x54 wayRestore s = journal .journal j .entry 0 s :=
      (runAdmin_begins h (.inl rfl) _).trans (if_neg (by rw [hd]; exact Bool.false_ne_true))
    exact ⟨_, congrArg Host.Outcome.next hrun, journal_journaled ho (id_of_jobFor h.job).2.1 _ _⟩
  · exact congrArg Host.Outcome.next ((runAdmin_begins h (.inl rfl) _).trans (if_pos hd))
  · exact ⟨_, congrArg Host.Outcome.next (eventLogSet_begins h hon), journal_journaled ho (id_of_jobFor h.job).2.1 _ _⟩
  · exact ⟨_, congrArg Host.Outcome.next (eventLogSet_begins h hon), journal_journaled ho (id_of_jobFor h.job).2.1 _ _⟩
  · intro k done
    have hlogged (he : i.effect = .entry) (hop : i.op = 0x55) := exec_commit_parts hs h hc fun v => by
      rw [(entryEffect_setup hc he v).log hop]
      exact keepsRings_of_parts (by simp) (by simp) (by simp)
    refine ⟨fun first image he => ?_, fun he hop hd hr => ?_, fun he hop hon => ?_, fun he hop hon => ?_⟩
    · have heff (v : State) : applyEffect i v = tumblerApply first [image] v := by unfold applyEffect; rw [he]
      obtain ⟨v, t, ht, -⟩ := exec_commit_admin hs h hc fun v => by
        rw [heff]
        exact keepsRings_of_parts (by simp) (by simp) (by simp)
      have hcap : t.cap = (tumblerApply first [image] v).cap := by rw [ht.rest, ← heff]; simp
      have htumb (n : Nat) : t.tumb n = (tumblerApply first [image] v).tumb n := by simp only [State.tumb, hcap]
      have hbefore : v.cap = s.cap := by rw [ht.begins.rest]
      obtain ⟨hgen, hnew, hold⟩ := tumblerApply_one ht.begins.sound first image
      refine ⟨t, ⟨ht.run, ht.completed⟩, by rw [hcap, hgen, hbefore], ?_, ?_, ?_, fun n hn => ?_⟩
      · rw [htumb, hnew]
      · rw [htumb, hnew]
      · rw [htumb, hnew]
      · rw [htumb, hold n hn]
        simp only [State.tumb, hbefore]
    · obtain ⟨v, t, ht, hv, hclk, -, hcache, -⟩ := exec_commit_parts hs h hc fun v => by
        rw [(entryEffect_setup hc he v).ways hop]
        exact keepsRings_of_parts (by simp) (by simp) (by simp)
      obtain ⟨hret, hline⟩ := waysBack_all (v := v) (BitVec.ofNat 16 (i.asJob.cmd 0x20 2)) (by rw [hv, hd])
        (by rw [hv, hclk]; exact hr)
      rw [(entryEffect_setup hc he v).ways hop] at hcache
      rw [← hcache, hv] at hret
      refine ⟨t, ht, hret, fun e hgo => ?_⟩
      rw [State.line, hcache]
      exact hline e (hv ▸ hgo)
    · obtain ⟨v, t, ht, -, -, hv, -, hlog⟩ := hlogged he hop
      rw [(entryEffect_setup hc he v).log hop, logTo_log, if_pos hon, hv] at hlog
      obtain ⟨hevents, henabled, hplaced, hbase, hsize, hhead, htail, hphase⟩ := ObsBlk.of_log hlog
      exact ⟨t, ht, henabled, hplaced, hbase, hsize, hhead, htail, hphase, hevents⟩
    · obtain ⟨v, t, ht, -, -, hv, -, hlog⟩ := hlogged he hop
      have hno : i.asJob.cmd 0x29 1 ≠ 1 := hon.trans_ne (by decide)
      rw [(entryEffect_setup hc he v).log hop, logTo_log, if_neg hno, hv] at hlog
      obtain ⟨hevents, henabled, -, -, -, -, htail, -⟩ := ObsBlk.of_log hlog
      exact ⟨t, ht, henabled, htail, hevents⟩

end Sys2Proof.Machine

/-! ## Frames, ports, append blocks and event records (O53) -/

namespace Sys2Proof.Machine

/-! Ports and what they receive. -/

/-- A CAPTURE_FRAME with an event on one port alone: the beats pass and the event comes (R206). -/
theorem exec_captureFrame_one (n : Nat) (p : PortId) (e : RxEvent) (s : State) :
    exec (.captureFrame n (if p = 0 then some e else none) (if p = 0 then none else some e)) s =
      .next (rxEvent p e (wait (n + 1) s)) := by
  rcases Fin.exists_fin_two.1 ⟨p, rfl⟩ with rfl | rfl <;> rfl
/-- What is in reception is all that changes of a port. -/
@[simp] theorem port_setRx_self {s : State} (hs : Sound s) (p : PortId) (r : Option Rx) :
    (setRx p r s).port p = { s.port p with rx := r } := port_setPort_self hs ..
/-- An SFD where no frame is in reception latches TAI or the beat (R198). -/
theorem rxEvent_sfd {s : State} {p : PortId} (h : receiving p s = true) (hr : (s.port p).rx = none) (fixed : Bool) :
    rxEvent p (.sfd fixed) s =
      setRx p (some { stamp := if s.clk.taiValid then s.tai else s.clk.beat, valid := s.clk.taiValid, fixed := fixed }) s := by
  simp [rxEvent, h, hr]
/-- The end of the frame in reception (R196). -/
theorem rxEvent_ends {s : State} {p : PortId} (h : receiving p s = true) {r : Rx} (hr : (s.port p).rx = some r) (f : Frame) :
    rxEvent p (.ends f) s = frameEnds p r f s := by
  simp [rxEvent, h, hr]
/-- A frame with an error counts it (R196). -/
theorem frameEnds_error {s : State} {p : PortId} {f : Frame} {k : Nat} (h : frameError (portMode p s) f = some k) (r : Rx) :
    frameEnds p r f s = countError p k (setRx p none s) := by
  have h' : frameError (portMode p (setRx p none s)) f = some k := h
  unfold frameEnds
  dsimp only [setRx] at h' ⊢
  rw [h']
/-- A frame without an error that no entry matched counts as received and as UNMATCHED (R209). -/
theorem frameEnds_unmatched {s : State} {p : PortId} {f : Frame} {r : Rx} (h : frameError (portMode p s) f = none)
    (hr : r.cls = .unmatched) : frameEnds p r f s = bump (cPort p 7) 1 (bump (cPort p 0) 1 (setRx p none s)) := by
  have h' : frameError (portMode p (setRx p none s)) f = none := h
  unfold frameEnds
  dsimp only [setRx] at h' ⊢
  rw [h', hr]
  rfl
/-- The counts of a frame that entry `i` of the Tumbler won, over another or not (R209). -/
def wonCounts (i : Nat) (tie : Bool) (p : PortId) (s : State) : State :=
  let s1 := bump (cTumb i 0) 1 (bump (cPort p 0) 1 s)
  if tie then bump (cTumb i 1) 1 s1 else s1
/-- The counts change the observation block alone. -/
theorem wonCounts_eq (i : Nat) (tie : Bool) (p : PortId) (s : State) :
    wonCounts i tie p s = { s with obs := (wonCounts i tie p s).obs } := by
  apply State.eq_of <;> cases tie <;> simp [wonCounts]
/-- The counts keep the state sound. -/
theorem wonCounts_sound {s : State} (hs : Sound s) (i : Nat) (tie : Bool) (p : PortId) : Sound (wonCounts i tie p s) := by
  have hone : Sound (bump (cTumb i 0) 1 (bump (cPort p 0) 1 s)) := (bump_keeps ..).1 ((bump_keeps ..).1 hs)
  unfold wonCounts
  dsimp only
  split
  · exact (bump_keeps ..).1 hone
  · exact hone
/-- A frame without an error that an entry won is counted and decided (R203). -/
theorem frameEnds_won {s : State} {p : PortId} {f : Frame} {r : Rx} {i : Nat} {tie : Bool}
    (h : frameError (portMode p s) f = none) (hr : r.cls = .won i tie none) :
    frameEnds p r f s = decideFrame i none p r f.bytes (wonCounts i tie p (setRx p none s)) := by
  have h' : frameError (portMode p (setRx p none s)) f = none := h
  unfold frameEnds
  dsimp only [setRx] at h' ⊢
  rw [h', hr]
  rfl
/-- An error other than an uncorrected codeword changes counters alone, its own by one (R196). -/
theorem countError_counts {s : State} (hs : Sound s) (p : PortId) {k : Nat} (h0 : k ≠ 0) (h5 : k ≠ 5) :
    (countError p k s).counter (cPort p k) = s.counter (cPort p k) + 1 ∧ (countError p k s).cap = s.cap ∧
    (countError p k s).obs.events = s.obs.events := by
  have hne : cPort p k ≠ cPort p 0 := by unfold cPort; omega
  unfold countError
  dsimp only
  rw [if_neg h5]
  refine ⟨?_, by simp, by simp [bump]⟩
  rw [counter_bump_self ((bump_keeps ..).1 hs), counter_bump_ne hs hne]
  rfl

/-! A frame becomes a record. -/

/-- What record bytes leave as it was as they join ward `w`'s stream: its sequence number and gap, the other wards, the ports and
the Tumbler. -/
structure Appended (w : WardId) (s t : State) : Prop where
  seq : (t.ward w).nextSeq = (s.ward w).nextSeq
  gap : (t.ward w).shedGap = (s.ward w).shedGap
  others : ∀ u, u ≠ w → t.ward u = s.ward u
  ports : t.cap.ports = s.cap.ports
  tumbler : t.cap.tumbler = s.cap.tumbler
theorem Appended.trans {w : WardId} {s t u : State} (h : Appended w s t) (k : Appended w t u) : Appended w s u :=
  ⟨k.seq.trans h.seq, k.gap.trans h.gap, fun x hx => (k.others x hx).trans (h.others x hx), k.ports.trans h.ports,
    k.tumbler.trans h.tumbler⟩
/-- A change of the ward that keeps its sequence number and gap. -/
theorem Appended.updWard {s : State} (hs : Sound s) {w : WardId} {f : Ward → Ward}
    (hf : ∀ x, (f x).nextSeq = x.nextSeq ∧ (f x).shedGap = x.shedGap) : Appended w s (s.updWard w f) := by
  obtain ⟨hseq, hgap⟩ := hf (s.ward w)
  exact ⟨by rw [ward_updWard_self hs, hseq], by rw [ward_updWard_self hs, hgap], fun u hu => ward_updWard_ne hs hu f, rfl, rfl⟩
/-- A ward whose open block is closed. -/
def Ward.blockClosed (x : Ward) : Ward := { x with openBlk := none, openPos := x.openPos + 1 }
/-- An open block that closes goes to the queue (R207). -/
theorem closeBlock_open {s : State} {w : WardId} {b : OpenBlk} (hb : (s.ward w).openBlk = some b) (code : Nat) (next : DWord) :
    closeBlock w code next s = { s.updWard w Ward.blockClosed with
      cap := { s.cap with queue := s.cap.queue ++ [⟨s.ring.nextJob, s.clk.beat, w, (s.ward w).openPos, blockBytes b code, b.count,
        b.firstSeq, next⟩] }
      ring := { s.ring with nextJob := s.ring.nextJob + 1 } } := by
  unfold closeBlock
  rw [hb]
  rfl
/-- Closing the block keeps the sequence number, the gap and what is not the ward's stream. -/
theorem closeBlock_appended {s : State} (hs : Sound s) (w : WardId) (code : Nat) (next : DWord) :
    Appended w s (closeBlock w code next s) := by
  cases hb : (s.ward w).openBlk with
  | none =>
    have hsame : closeBlock w code next s = s := by unfold closeBlock; rw [hb]
    rw [hsame]
    exact ⟨rfl, rfl, fun _ _ => rfl, rfl, rfl⟩
  | some b =>
    obtain ⟨hseq, hgap, hothers, -, -⟩ := Appended.updWard hs (w := w) (f := Ward.blockClosed) fun _ => ⟨rfl, rfl⟩
    rw [closeBlock_open hb]
    exact ⟨hseq, hgap, hothers, rfl, rfl⟩
/-- The bytes of a record, over as many blocks as they fill (R206). -/
theorem appendBytes_appended (fuel : Nat) (w : WardId) (start : Bool) (seq : DWord) (pad : Nat) (d : Bytes) {s : State}
    (hs : Sound s) : Appended w s (appendBytes fuel w start seq pad d s) := by
  induction fuel generalizing start d s with
  | zero => exact ⟨rfl, rfl, fun _ _ => rfl, rfl, rfl⟩
  | succ fuel ih =>
    unfold appendBytes
    dsimp only
    generalize (if start then ((s.ward w).openBlk.getD {}).begins seq else (s.ward w).openBlk.getD {}) = b
    have htake := Appended.updWard hs (w := w) (f := fun x => { x with openBlk := some (b.takes pad d) }) fun _ => ⟨rfl, rfl⟩
    have hsound : Sound (s.updWard w fun x => { x with openBlk := some (b.takes pad d) }) := (State_updWard_keeps ..).1 hs
    have hclose := closeBlock_appended hsound w 0 (seq + 1)
    split
    · exact htake.trans (hclose.trans (ih _ _ ((closeBlock_keeps ..).1 hsound)))
    · split
      · exact htake.trans hclose
      · exact htake

/-- What a record stores of a frame (R199, R203). -/
def storedLength (image : Bytes) (n : Nat) : Nat := match tumbSnap image with | some k => min n k | none => n
/-- Shedding looks at the link, the modes, the keys' state, the wards, the groups and the queue of sealed blocks (R203). -/
theorem shedHere_congr {s t : State} (hh : t.host = s.host) (hp : t.pwr = s.pwr) (hc : t.sec = s.sec) (hw : t.wards = s.wards)
    (hg : t.groups = s.groups) (hq : t.cap.queue = s.cap.queue) (w : WardId) (n : Nat) : shedHere w n t = shedHere w n s := by
  have hb : t.buffers = s.buffers := by simp only [State.buffers, hw, hq]
  have ha : admissionStopped t = admissionStopped s := by unfold admissionStopped; rw [hh, hp, hc]
  have hx : t.ward w = s.ward w := by simp only [State.ward, hw]
  have hg' (g : GroupId) : t.group g = s.group g := by simp only [State.group, hg]
  unfold shedHere
  dsimp only
  rw [ha, hx, hb, hg']
/-- A frame counted in its entry, with the ward's next sequence number taken and its gap cleared (R203, R205). -/
def numbered (i : Nat) (w : WardId) (s : State) : State :=
  (s.setTumb i { s.tumb i with count := (s.tumb i).count + 1 }).updWard w
    fun y => { y with nextSeq := y.nextSeq + 1, shedGap := 0 }
/-- What taking a number changes. -/
theorem numbered_spec {s : State} (hs : Sound s) (i : Nat) (w : WardId) :
    Sound (numbered i w s) ∧ (numbered i w s).cap.ports = s.cap.ports ∧
    (numbered i w s).ward w = { s.ward w with nextSeq := (s.ward w).nextSeq + 1, shedGap := 0 } ∧
    (numbered i w s).tumb i = { s.tumb i with count := (s.tumb i).count + 1 } ∧
    ∀ u, u ≠ w → (numbered i w s).ward u = s.ward u := by
  have hset := (State_setTumb_keeps s i { s.tumb i with count := (s.tumb i).count + 1 }).1 hs
  exact ⟨(State_updWard_keeps ..).1 hset, rfl, ward_updWard_self hset .., tumb_setTumb_self hs ..,
    fun u hu => ward_updWard_ne hset hu _⟩
/-- Shedding is judged alike before the frame's beats have passed and it is counted. -/
theorem shedHere_received (w : WardId) (len n i : Nat) (tie : Bool) (p : PortId) (s : State) :
    shedHere w len (wonCounts i tie p (setRx p none (wait n s))) = shedHere w len s := by
  rw [wonCounts_eq]
  refine shedHere_congr ?_ ?_ ?_ ?_ ?_ ?_ w len
  · simp
  · simp
  · simp
  · simp
  · simp
  · simp [setRx, State.setPort]
/-- A sampled frame of an entry without a rate that is not shed becomes a record (R203, R205). -/
theorem decideFrame_records {s : State} {i : Nat} {p : PortId} {r : Rx} {b : Bytes} {w : WardId} {image : Bytes}
    (hi : (s.tumb i).image = image) (hw : tumbWard image = w)
    (hc : (s.tumb i).count.toNat % 2 ^ (byteAt 0x29 image).toNat = 0) (hr : tumbRate image = 0)
    (hs : shedHere w (charge (storedLength image b.length)) s = false) :
    ∃ c n d m pad rec_, decideFrame i none p r b s =
      bump c n (bump d m (appendBytes 4 w true (s.ward w).nextSeq pad rec_ (numbered i w s))) := by
  subst hi hw
  have hkeep : ¬shedHere (tumbWard (s.tumb i).image) (charge (storedLength (s.tumb i).image b.length)) s = true := by simp [hs]
  have hrun : decideFrame i none p r b s = _ := (if_neg (not_not.2 hc)).trans ((if_neg hkeep).trans (if_neg fun h => h.1 hr))
  rw [hrun]
  dsimp only [Option.getD_none, keepEntry]
  rw [if_neg (not_not.2 hr)]
  exact ⟨_, _, _, _, _, _, rfl⟩
/-- A record takes the ward's next sequence number and clears its gap; its entry counts the frame, and the other wards and the
ports stay (R203, R205). -/
theorem decideFrame_recorded {s : State} (hs : Sound s) {i : Nat} {p : PortId} {r : Rx} {b : Bytes} {w : WardId} {image : Bytes}
    (hi : (s.tumb i).image = image) (hw : tumbWard image = w)
    (hc : (s.tumb i).count.toNat % 2 ^ (byteAt 0x29 image).toNat = 0) (hr : tumbRate image = 0)
    (hshed : shedHere w (charge (storedLength image b.length)) s = false) :
    let t := decideFrame i none p r b s
    t.cap.ports = s.cap.ports ∧ (t.ward w).nextSeq = (s.ward w).nextSeq + 1 ∧ (t.ward w).shedGap = 0 ∧
    (t.tumb i).count = (s.tumb i).count + 1 ∧ ∀ u, u ≠ w → t.ward u = s.ward u := by
  obtain ⟨c, n, d, m, pad, rec_, hrun⟩ := decideFrame_records (p := p) (r := r) hi hw hc hr hshed
  obtain ⟨hsound, hports, hward, htumb, hothers⟩ := numbered_spec hs i w
  have happ := appendBytes_appended 4 w true (s.ward w).nextSeq pad rec_ hsound
  generalize appendBytes 4 w true (s.ward w).nextSeq pad rec_ (numbered i w s) = x at hrun happ
  have hcap : (decideFrame i none p r b s).cap = x.cap := by simp [hrun]
  have hwards (u : WardId) : (decideFrame i none p r b s).ward u = x.ward u := by simp [hrun, State.ward]
  intro t
  refine ⟨by rw [hcap, happ.ports, hports], by rw [hwards, happ.seq, hward], by rw [hwards, happ.gap, hward], ?_,
    fun u hu => by rw [hwards, happ.others u hu, hothers u hu]⟩
  rw [State.tumb, hcap, happ.tumbler]
  exact congrArg TumbEntry.count htumb

/-! Links of the ports. -/

/-- LINK_UP follows from the lock bits of the port and the mode (R195). -/
theorem linkUp_setPort {s : State} (hs : Sound s) (p : PortId) (x : Port) :
    linkUp p (s.setPort p x) = (x.blockLock && !x.hiBer && (x.amLock || portMode p s != 4)) := by
  unfold linkUp
  rw [port_setPort_self hs]
  rfl
/-- A port that gains all its locks is up (R195). -/
theorem linkUp_of_whole {s : State} (hs : Sound s) (p : PortId) :
    linkUp p (s.setPort p ((s.port p).lock .whole true (portMode p s))) = true := by
  rw [linkUp_setPort hs]
  cases hm : portMode p s == 4 <;> simp [Port.lock, bne, hm]
/-- A port that loses a part which LINK_UP needs is down (R195). -/
theorem linkUp_of_lost {s : State} (hs : Sound s) (p : PortId) {what : PcsPart} (h : what = .marker → portMode p s = 4) :
    linkUp p (s.setPort p ((s.port p).lock what false (portMode p s))) = false := by
  rw [linkUp_setPort hs]
  cases what with
  | marker => simp [Port.lock, h rfl]
  | block => simp [Port.lock]
  | ber => simp [Port.lock]
  | whole => simp [Port.lock]
/-- A frame that is cut leaves its port without one, the other ports as they were, and nothing logged (R195, R196). -/
theorem cutFrame_cuts {s : State} (hs : Sound s) (p : PortId) (got : Nat) :
    (cutFrame p got s).port p = { s.port p with rx := none } ∧ (∀ q, q ≠ p → (cutFrame p got s).port q = s.port q) ∧
    (cutFrame p got s).obs.events = s.obs.events := by
  unfold cutFrame
  split
  · next hrx =>
    generalize hk : (if got < 64 then 1 else if 9216 < got then 2 else 4) = k
    have hk' : k ≠ 0 ∧ k ≠ 5 := by subst hk; (repeat' split) <;> decide
    generalize hu : s.setPort p { s.port p with rx := none } = u
    obtain ⟨-, hcap, hevents⟩ := countError_counts (s := u) (hu ▸ (State_setPort_keeps ..).1 hs) p hk'.1 hk'.2
    have hport (q : PortId) : (countError p k u).port q = u.port q := by simp only [State.port, hcap]
    refine ⟨by rw [hport, ← hu, port_setPort_self hs], fun q hq => by rw [hport, ← hu, port_setPort_ne hs hq], ?_⟩
    rw [hevents, ← hu]
    rfl
  · next hrx =>
    have hnone : (s.port p).rx = none := by simpa using hrx
    exact ⟨by rw [← hnone], fun _ _ => rfl, rfl⟩
/-- Lock bits whose change takes a link down (R195): LINK_LOST is set, the event is logged, and the frame in reception ends. -/
theorem changeLock_lost {s : State} (hs : Sound s) {p : PortId} {x : Port} {f : State → State} (hf : f s = s.setPort p x)
    (hup : linkUp p s = true) (hdown : linkUp p (s.setPort p x) = false) (got : Nat) :
    let t := changeLock p got f s
    linkUp p t = false ∧ t.port p = { x with linkLost := true, rx := none } ∧ (∀ q, q ≠ p → t.port q = s.port q) ∧
    t = { s with cap := t.cap, obs := t.obs, pin := t.pin } ∧
    (s.obs.events.length < 512 → ∃ e ∈ t.obs.events, e.code = 0x0501 ∧ e.beat = s.clk.beat) := by
  have hfirst : Sound (s.setPort p x) := (State_setPort_keeps ..).1 hs
  have hx := port_setPort_self hs p x
  generalize hu : (s.setPort p x).setPort p { x with linkLost := true } = u
  have husound : Sound u := hu ▸ (State_setPort_keeps ..).1 hfirst
  have hrun : changeLock p got f s = cutFrame p got (mark (0x0C004 + 0x400 * p.val) 8 (logEvent 0x0501 p.val 0 0 u)) := by
    unfold changeLock
    dsimp only
    rw [hf, hup, hdown, hx, hu]
    rfl
  have hu0 : u = { s with cap := u.cap } := by rw [← hu]; rfl
  have hself : u.port p = { x with linkLost := true } := by rw [← hu, port_setPort_self hfirst]
  have hothers (q : PortId) (hq : q ≠ p) : u.port q = s.port q := by
    rw [← hu, port_setPort_ne hfirst hq, port_setPort_ne hs hq]
  generalize hv : mark (0x0C004 + 0x400 * p.val) 8 (logEvent 0x0501 p.val 0 0 u) = v at hrun
  have hvport (q : PortId) : v.port q = u.port q := by simp [← hv, State.port]
  obtain ⟨hcut, hkept, hevents⟩ := cutFrame_cuts (s := v) (hv ▸ (mark_keeps ..).1 ((logEvent_keeps ..).1 husound)) p got
  intro t
  have ht : t = cutFrame p got v := hrun
  have hport : t.port p = { x with linkLost := true, rx := none } := by rw [ht, hcut, hvport, hself]
  have hmode : portMode p t = portMode p s := by
    unfold portMode portCtrl State.reg
    rw [ht, ← hv, hu0]
    simp
  refine ⟨?_, hport, fun q hq => by rw [ht, hkept q hq, hvport, hothers q hq], ?_, fun hroom => ?_⟩
  · rw [← hdown, linkUp_setPort hs, linkUp, hport, hmode]
  · rw [ht]
    apply State.eq_of <;> simp [← hv] <;> rw [hu0]
  · obtain ⟨e, he, hcode, -, -, hbeat⟩ := logEvent_logged (s := u) (by rw [hu0]; exact hroom) 0x0501 p.val 0 0
    rw [ht, hevents, ← hv]
    exact ⟨e, he, hcode, by rw [hbeat, hu0]⟩

/-! The event log. -/

/-- The oldest event is written at the log's tail, and the tail moves on (R363, R364). -/
theorem eventRecord_writes {s : State} {e : Event} {l : List Event} (hh : s.handedOff = true) (ho : s.obs.enabled = true)
    (hf : s.evlogFull = false) (hd : s.dmaOpen = true) (hr : s.host.flr = none) (he : s.obs.events = e :: l)
    (hl : s.obs.lost = 0) :
    (eventRecord s).obs.events = l ∧
    (eventRecord s).obs.tail = BitVec.ofNat 16 ((s.obs.tail.toNat + 1) % 2 ^ s.obs.logLog) ∧
    Out.event (s.obs.logBase + BitVec.ofNat 64 (32 * s.obs.tail.toNat)) (e.bytes s.obs.phase) ∈ (eventRecord s).host.out := by
  have hopen : (!s.handedOff || !s.obs.enabled || s.evlogFull || !s.dmaOpen || s.host.flr.isSome) = false := by
    simp [hh, ho, hf, hd, hr]
  unfold eventRecord
  rw [hopen, if_neg Bool.false_ne_true, he]
  dsimp only
  rw [if_pos hl]
  refine ⟨by simp [bump, emit], by simp [bump, emit], ?_⟩
  refine fireVector_out _ _ ?_
  rw [joinPend_out]
  exact List.mem_append_right _ List.mem_cons_self

/-- Settles O53: each event of a port does what its frame is found to be, a loss of its link ends the frame, and the open block and
the oldest event go on. -/
theorem captureUnits : Obligations.CaptureUnits := by
  unfold Obligations.CaptureUnits
  refine ⟨?_, fun s p w hs => ⟨fun ha hd => ⟨fun hen => ?_, fun what got hup hneed => ?_⟩,
    fun b hb h0 hage ha => ?_, fun e l hh ho hf hd hr he hl => ?_⟩⟩
  · intro s n p e hs u run hrec
    have hrun : run = .next (rxEvent p e u) := exec_captureFrame_one n p e s
    have husound : Sound u := (wait_keeps ..).1 hs
    have hwards : u.wards = s.wards := by simp [u]
    have hfree := (setRx_keeps p none u).1 husound
    have hnone : ((setRx p none u).port p).rx = none := by rw [port_setRx_self husound]
    refine ⟨fun fixed he hr => ?_, fun f r he hr => ?_⟩
    · subst he
      rw [rxEvent_sfd hrec hr] at hrun
      exact ⟨_, hrun, rfl, by rw [port_setRx_self husound]⟩
    · subst he
      rw [rxEvent_ends hrec hr] at hrun
      have hmode : portMode p u = portMode p s := by simp [u, portMode, portCtrl, State.reg]
      refine ⟨fun hshort => ?_, fun hok => ⟨fun hcls => ?_, fun i tie len hcls hcount hrate hlen hshed => ?_⟩⟩
      · have herr : frameError (portMode p u) f = some 1 := if_pos hshort
        obtain ⟨hcounter, hcap, -⟩ := countError_counts hfree p (k := 1) (by decide) (by decide)
        rw [frameEnds_error herr] at hrun
        refine ⟨_, hrun, hcounter, ?_, by simp [hwards]⟩
        unfold State.port
        rw [hcap]
        exact hnone
      · rw [frameEnds_unmatched (hmode ▸ hok) hcls] at hrun
        have hne : cPort p 7 ≠ cPort p 0 := by unfold cPort; omega
        refine ⟨_, hrun, ?_, by simpa [State.port] using hnone, by simp [hwards]⟩
        rw [counter_bump_self ((bump_keeps ..).1 hfree), counter_bump_ne hfree hne]
        rfl
      · rw [frameEnds_won (hmode ▸ hok) hcls] at hrun
        generalize hv : wonCounts i tie p (setRx p none u) = v at hrun
        have hv0 : v = { setRx p none u with obs := v.obs } := hv ▸ wonCounts_eq i tie p _
        have hvsound : Sound v := hv ▸ wonCounts_sound hfree i tie p
        have htumb : v.tumb i = s.tumb i := by rw [hv0]; simp [u, State.tumb, setRx, State.setPort]
        have hward (x : WardId) : v.ward x = s.ward x := by rw [hv0]; simp [u, State.ward]
        have hshed' : shedHere (tumbWard (s.tumb i).image) (charge (storedLength (s.tumb i).image f.bytes.length)) v = false := by
          have hlen' : len = storedLength (s.tumb i).image f.bytes.length := hlen
          rw [← hv, ← hlen']
          exact (shedHere_received ..).trans hshed
        obtain ⟨hports, hseq, hgap, hcnt, hothers⟩ := decideFrame_recorded hvsound (p := p) (r := r)
          (congrArg TumbEntry.image htumb) rfl (htumb.symm ▸ hcount) hrate hshed'
        refine ⟨_, hrun, ?_, by rw [hseq, hward], hgap, by rw [hcnt, htumb], fun x hx => by rw [hothers x hx, hward]⟩
        unfold State.port
        rw [hports, hv0]
        exact hnone
  · have hrun : exec (.capLinkUp p .whole) s = .next (s.setPort p ((s.port p).lock .whole true (portMode p s))) :=
      congrArg Host.Outcome.next (if_pos ⟨ha, hd, hen⟩)
    exact ⟨_, hrun, linkUp_of_whole hs p, fun q hq => port_setPort_ne hs hq _, rfl⟩
  · have hdown := linkUp_of_lost hs p hneed
    obtain ⟨hlink, hport, hothers, hrest, hevent⟩ := changeLock_lost
      (f := fun s => s.setPort p ((s.port p).lock what false (portMode p s))) hs rfl hup hdown got
    have hrun : exec (.capLinkLost p what got) s =
        .next (changeLock p got (fun s => s.setPort p ((s.port p).lock what false (portMode p s))) s) :=
      congrArg Host.Outcome.next (if_pos ⟨ha, hd⟩)
    exact ⟨_, hrun, hlink, by rw [hport], by rw [hport], hothers, hrest, hevent⟩
  · have hrun : exec (.appendAge w) s = .next (closeBlock w 1 (s.ward w).nextSeq s) := by
      refine congrArg Host.Outcome.next ?_
      unfold ageBlock
      rw [hb]
      exact if_pos ⟨h0, hage, ha⟩
    rw [closeBlock_open hb] at hrun
    have hself := ward_updWard_self hs w Ward.blockClosed
    refine ⟨_, hrun, congrArg Ward.openBlk hself, congrArg Ward.openPos hself, ⟨_, rfl, rfl, rfl, rfl, rfl, rfl⟩,
      fun x hx => ward_updWard_ne hs hx Ward.blockClosed⟩
  · exact ⟨_, rfl, eventRecord_writes hh ho hf hd hr he hl⟩

end Sys2Proof.Machine

/-! ## How a queued sector write ends (O51) -/

namespace Sys2Proof.Machine

/-! A cached sub-block that is changed. -/

/-- What is cached depends on the lines and the retired ways alone. -/
theorem cached_of_lines {s t : State} (hl : t.cache.lines = s.cache.lines) (hr : t.cache.retired = s.cache.retired)
    (a : SubAddr) : cached a t = cached a s := by
  unfold cached findLine State.line
  rw [hl, hr]
/-- A line that goes on holding its stripe unit is found again. -/
theorem findLine_setLine {s : State} (hs : Sound s) {a : SubAddr} {k : Nat} {l : Line} (hk : findLine a s = some k)
    (hv : l.valid = true) (hl : l.group = (s.line k).group ∧ l.stripe = (s.line k).stripe ∧ l.column = (s.line k).column) :
    findLine a (s.setLine k l) = some k := by
  obtain ⟨v, -, hfound⟩ := List.exists_of_findSome?_eq_some hk
  dsimp only at hfound
  split at hfound
  · next hcond =>
    obtain rfl := Option.some.inj hfound
    refine Eq.trans ?_ hk
    unfold findLine
    refine congrArg (List.findSome? · (List.range 16)) (funext fun w => ?_)
    rcases eq_or_ne w v with rfl | hw
    · dsimp only
      rw [line_setLine_self hs, if_pos hcond, hl.1, hl.2.1, hl.2.2, hv]
      simp only [Bool.and_eq_true] at hcond
      obtain ⟨⟨⟨⟨-, hret⟩, hgroup⟩, hstripe⟩, hcol⟩ := hcond
      exact if_pos (by simp only [hgroup, hstripe, hcol, Bool.and_true, Bool.true_and]; exact hret)
    · dsimp only
      rw [line_setLine_ne hs (by omega)]
      rfl
  · cases hfound
/-- A cached sub-block that is changed stands in the cache as it was changed. -/
theorem cached_updCached {s : State} (hs : Sound s) {a : SubAddr} {x y : Sub} {f : Sub → Option Sub}
    (hx : cached a s = some x) (hf : f x = some y) : cached a (updCached a f s) = some y := by
  obtain ⟨k, hk⟩ : ∃ k, findLine a s = some k := by
    cases h : findLine a s with
    | none => unfold cached at hx; rw [h] at hx; cases hx
    | some k => exact ⟨k, rfl⟩
  have hline := line_updCached hs hk hx hf
  have hupd : updCached a f s = s.setLine k { s.line k with subs := (s.line k).subs.set none a.sub (f x) } := by
    unfold updCached
    rw [hk, hx]
  have hvalid : ({ s.line k with subs := (s.line k).subs.set none a.sub (f x) } : Line).valid = true := by
    rw [hupd, line_setLine_self hs] at hline
    have hne : (s.line k).subs.set none a.sub (f x) ≠ [] := fun h0 => by
      rw [h0] at hline
      cases hline
    simp [Line.valid, hne]
  unfold cached
  rw [hupd, findLine_setLine hs hk hvalid ⟨rfl, rfl, rfl⟩]
  rw [hupd] at hline
  exact hline

/-! Replay goes on as it was while records are released. -/

theorem toPort_replaying (l : List (PortItem × Nat)) (s : State) : (toPort l s).ledger.replaying = s.ledger.replaying := by
  unfold toPort
  split <;> rfl
theorem dropMarks_replaying (f : Mark → Bool) (s : State) : (dropMarks f s).ledger.replaying = s.ledger.replaying := by
  unfold dropMarks
  split
  · rfl
  · exact toPort_replaying ..
theorem releaseWhere_replaying (f : Intent → DataRec → Bool) (h : Intent → ParRec → Bool) (s : State) :
    (releaseWhere f h s).ledger.replaying = s.ledger.replaying := by
  have hprune (u : State) : (pruneIntents u).ledger.replaying = u.ledger.replaying := by
    unfold pruneIntents
    split
    · rfl
    · exact toPort_replaying ..
  unfold releaseWhere
  dsimp only
  split
  · rfl
  · exact (hprune _).trans (toPort_replaying ..)

/-! What a sector written whole leaves. -/

/-- The sector of `q` is on media as it was queued, and `q` has left the queue of its cell. -/
structure Written (c : CellId) (q : QWrite) (s t : State) : Prop where
  media : t.obs.media = s.obs.media ++ [(c, 16 * q.addr.stripe + q.addr.sub, q.sector)]
  queue : (t.cell c).queue = listDrop (fun x => x.key == q.key) (s.cell c).queue

/-- A sector written whole joins what is on media and is counted on its cell (R295). -/
theorem writeOn_obs (c : CellId) (a : SubAddr) (x : Sector) (s : State) : (writeOn c a x s).obs =
    { (bump (cCell c 0x08) 1 s).obs with media := s.obs.media ++ [(c, 16 * a.stripe + a.sub, x)] } := by
  unfold writeOn
  simp [bump]
/-- The counters of groups stand before those of cells (R359). -/
theorem cGroup_ne_cCell (g : GroupId) {i : Nat} (hi : i < 16) (c : CellId) (o : Nat) : cGroup g i ≠ cCell c o := by
  have := g.isLt
  unfold cGroup cCell
  omega
/-- A sector written whole is counted for no group. -/
theorem counter_writeOn_group {s : State} (hs : Sound s) (c : CellId) (a : SubAddr) (x : Sector) (g : GroupId) {i : Nat} (hi : i < 16) :
    (writeOn c a x s).counter (cGroup g i) = s.counter (cGroup g i) := by
  have hbump := counter_bump_ne hs (cGroup_ne_cCell g hi c 0x08) 1
  unfold State.counter at hbump ⊢
  rw [writeOn_obs]
  exact hbump
/-- A sector written whole leaves idle what is idle: it releases its marks alone (R296). -/
theorem Idle.writeOn {s : State} (h : Idle s) (c : CellId) (a : SubAddr) (x : Sector) : Idle (writeOn c a x s) := by
  have hcache : (Machine.writeOn c a x s).cache = s.cache := by simp
  have hring : (Machine.writeOn c a x s).ring = s.ring := by simp
  have hrec : (Machine.writeOn c a x s).recoveries = s.recoveries := by simp
  exact ⟨⟨hring ▸ h.quiet.jobs, hcache ▸ h.quiet.waits, (dropMarks_replaying ..).trans h.quiet.replay⟩,
    hrec.trans h.recoveries⟩
/-- A write leaves the queue of its cell; where no gate waits to fall the cell does not park. -/
theorem takeWrite_ungated {s : State} {c : CellId} (hg : (s.cell c).gateDue = none) (k : Nat) :
    takeWrite c k s = s.updCell c (fun x => { x with
      gateDue := none
      queue := listDrop (fun q => q.key == k) x.queue
      writing := if x.writing = some k then none else x.writing, wg := if x.writing = some k then false else x.wg }) := by
  unfold takeWrite
  rw [hg]
  rfl
/-- A write taken out of its queue and written whole, nothing else waiting. -/
theorem Idle.written {s : State} (hi : Idle s) (hs : Sound s) {c : CellId} (hg : (s.cell c).gateDue = none) (q : QWrite) :
    Written c q s (Machine.writeOn c q.addr q.sector (takeWrite c q.key s)) ∧
    Sound (Machine.writeOn c q.addr q.sector (takeWrite c q.key s)) ∧
    Idle (Machine.writeOn c q.addr q.sector (takeWrite c q.key s)) := by
  refine ⟨?_, (writeOn_keeps ..).1 ((takeWrite_keeps ..).1 hs),
    Idle.writeOn (hi.of_same (by simp) (by simp) (by simp) (by simp)) ..⟩
  rw [takeWrite_ungated hg]
  refine ⟨?_, ?_⟩
  · rw [writeOn_obs]
    rfl
  · have hcells (u : State) : (Machine.writeOn c q.addr q.sector u).cell c = u.cell c := by simp [State.cell]
    rw [hcells, cell_updCell_self hs]

/-- The written sub-block is clean where the line holds what was written and its policy keeps it (R217, R221). -/
theorem cached_subWritten {s : State} (hs : Sound s) {a : SubAddr} {y : Sub} (hy : cached a s = some y) (hp : y.policy ≠ 2) :
    cached a (subWritten a y.sector s) = some { y with dirty := false, queued := false, age := 0 } := by
  unfold subWritten
  dsimp only
  generalize hu : releaseWhere _ _ s = u
  have hsu : Sound u := hu ▸ (releaseWhere_keeps ..).1 hs
  have hcu : cached a u = some y := (cached_of_lines (by simp [← hu]) (by simp [← hu]) a).trans hy
  have hclean := cached_updCached hsu hcu (f := fun z =>
    if z.sector = y.sector then (if z.policy = 2 then none else some { z with dirty := false, queued := false, age := 0 })
    else some z) ((if_pos rfl).trans (if_neg hp))
  split
  · exact (cached_of_lines (by rfl) (by rfl) a).trans hclean
  · exact hclean
/-- A written sub-block leaves idle what is idle. -/
theorem Idle.subWritten {s : State} (h : Idle s) (a : SubAddr) (x : Sector) : Idle (subWritten a x s) := by
  have hring : (Machine.subWritten a x s).ring = s.ring := by simp
  have hrec : (Machine.subWritten a x s).recoveries = s.recoveries := by simp
  have hkept : (Machine.subWritten a x s).cache.waits = s.cache.waits ∧
      (Machine.subWritten a x s).ledger.replaying = s.ledger.replaying := by
    unfold Machine.subWritten
    dsimp only
    generalize hu : releaseWhere _ _ s = u
    have hcache : u.cache = s.cache := by simp [← hu]
    have hrep : u.ledger.replaying = s.ledger.replaying := hu ▸ releaseWhere_replaying ..
    generalize hv : updCached a _ u = v
    have hcv : v.cache.waits = u.cache.waits := by rw [← hv, updCached_cache]
    have hlv : v.ledger = u.ledger := by simp [← hv]
    split
    · exact ⟨by rw [← hcache, ← hcv], by rw [← hrep, ← hlv]⟩
    · exact ⟨by rw [← hcache, ← hcv], by rw [← hrep, ← hlv]⟩
  exact ⟨⟨hring ▸ h.quiet.jobs, hkept.1.trans h.quiet.waits, hkept.2.trans h.quiet.replay⟩, hrec.trans h.recoveries⟩

/-! What a cell turns to when a write has ended. -/

/-- A cell that turns to its next request counts a seek at most (R313). -/
theorem serveNext_obs (c : CellId) (s : State) :
    (serveNext c s).obs = s.obs ∨ (serveNext c s).obs = (bump (cCell c 0xB8) 1 s).obs := by
  unfold serveNext
  dsimp only
  (repeat' split)
  · exact .inl rfl
  · exact .inl rfl
  · exact .inl rfl
  · next a _ _ =>
    have harm (n : Nat) (u : State) : (armSend c 1 n u).obs = u.obs := rfl
    generalize (256 * ((placeOn c a s).track : Int)) = track
    generalize (placeOn c a s).surface = surface
    have hobs : (startSeek c track surface s).obs =
        (if (s.cell c).servo.target = track then s else bump (cCell c 0xB8) 1 s).obs := by
      unfold startSeek State.updServo
      dsimp only
      split
      · rfl
      · exact harm surface _
    rw [hobs]
    split
    · exact .inl rfl
    · exact .inr rfl
/-- So does a cell that begins its next write or turns to its next request. -/
theorem startWrite_obs (c : CellId) (s : State) :
    (startWrite c s).obs = s.obs ∨ (startWrite c s).obs = (bump (cCell c 0xB8) 1 s).obs := by
  unfold startWrite
  dsimp only
  split
  · split
    · exact .inl rfl
    · exact serveNext_obs c s
  · exact serveNext_obs c s

/-- What an ended write leaves stands when its cell has turned to its next request, nothing else waiting. -/
theorem Written.next {c : CellId} {q : QWrite} {s u : State} (hs : Sound u) (h : Written c q s u) (hi : Idle u) :
    Written c q s (startWrite c (moveOn u)) ∧ (startWrite c (moveOn u)).cache = u.cache ∧
    (startWrite c (moveOn u)).reads = u.reads ∧
    ∀ g i, i < 16 → (startWrite c (moveOn u)).counter (cGroup g i) = u.counter (cGroup g i) := by
  obtain ⟨p, o, hmove⟩ := hi.moveOn
  have hsv := (moveOn_keeps u).1 hs
  generalize moveOn u = v at hmove hsv
  have hcells : v.cell c = u.cell c := by rw [hmove]; rfl
  have hobs : v.obs = u.obs := by rw [hmove]
  refine ⟨⟨?_, ?_⟩, ?_, ?_, fun g i hlt => ?_⟩
  · refine Eq.trans ?_ h.media
    rw [← hobs]
    rcases startWrite_obs c v with hsame | hseek
    · rw [hsame]
    · rw [hseek]
      rfl
  · rw [startWrite_queue hsv, hcells, h.queue]
  · rw [(show (startWrite c v).cache = v.cache by simp), hmove]
  · rw [(show (startWrite c v).reads = v.reads by simp), hmove]
  · have hbump := counter_bump_ne hsv (cGroup_ne_cCell g hlt c 0xB8) 1
    unfold State.counter at hbump ⊢
    rw [← hobs]
    rcases startWrite_obs c v with hsame | hseek
    · rw [hsame]
    · rw [hseek, hbump]

/-- A write that is no repair: its sector is on media, and the sub-block that holds it is clean (R217, R221). -/
theorem writeDone_written {s : State} (hs : Sound s) (hi : Idle s) {c : CellId} (hg : (s.cell c).gateDue = none) {q : QWrite}
    (hq : q.repair = false) :
    Written c q s (writeDone c q s) ∧ ∀ y, cached q.addr s = some y → y.sector = q.sector → y.policy ≠ 2 →
      cached q.addr (writeDone c q s) = some { y with dirty := false, queued := false, age := 0 } := by
  obtain ⟨hwritten, hsu, hiu⟩ := hi.written hs hg q
  have hcache : (writeOn c q.addr q.sector (takeWrite c q.key s)).cache = s.cache := by simp
  have hdone : writeDone c q s =
      startWrite c (moveOn (subWritten q.addr q.sector (writeOn c q.addr q.sector (takeWrite c q.key s)))) := by
    unfold writeDone
    rw [hq]
    rfl
  generalize writeOn c q.addr q.sector (takeWrite c q.key s) = u at *
  have hsub : Written c q s (subWritten q.addr q.sector u) :=
    ⟨by simpa using hwritten.media, by simpa [State.cell] using hwritten.queue⟩
  obtain ⟨hnext, hkept, -, -⟩ := hsub.next ((subWritten_keeps ..).1 hsu) (hiu.subWritten ..)
  rw [hdone]
  refine ⟨hnext, fun y hy hsec hp => ?_⟩
  rw [cached_of_lines (congrArg _ hkept) (congrArg _ hkept), ← hsec]
  exact cached_subWritten hsu ((cached_of_lines (congrArg _ hcache) (congrArg _ hcache) _).trans hy) hp
/-- A repair that nothing overtakes: its sector is on media, it is counted and read back (R266). -/
theorem writeDone_repaired {s : State} (hs : Sound s) (hi : Idle s) {c : CellId} (hg : (s.cell c).gateDue = none) {q : QWrite}
    (hq : q.repair = true) (hstale : repairStale c q s = false) :
    Written c q s (writeDone c q s) ∧
    (writeDone c q s).counter (cGroup q.addr.group 4) = s.counter (cGroup q.addr.group 4) + 1 ∧
    (writeDone c q s).reads = s.reads ++
      [{ key := s.nextRead, addr := q.addr, cell := c, why := .verify, cls := 3, img := some q.sector }] := by
  obtain ⟨hwritten, hsu, hiu⟩ := hi.written hs hg q
  have hcount := (counter_writeOn_group ((takeWrite_keeps c q.key s).1 hs) c q.addr q.sector q.addr.group (i := 4)
    (by decide)).trans (show (takeWrite c q.key s).counter _ = s.counter _ by rw [takeWrite_ungated hg]; rfl)
  have hreads : (writeOn c q.addr q.sector (takeWrite c q.key s)).reads = s.reads := by simp
  have hnum : (writeOn c q.addr q.sector (takeWrite c q.key s)).nextRead = s.nextRead := by simp
  generalize hv : repairDone c q s = v
  have hsv : Sound v := hv ▸ (repairDone_keeps ..).1 hs
  have hdone : writeDone c q s = startWrite c (moveOn v) := by
    unfold writeDone
    rw [hq, hv]
    rfl
  unfold repairDone at hv
  dsimp only at hv
  rw [hstale, if_neg Bool.false_ne_true] at hv
  generalize writeOn c q.addr q.sector (takeWrite c q.key s) = u at *
  have hwv : Written c q s v := by subst hv; exact ⟨hwritten.media, hwritten.queue⟩
  have hiv : Idle v := by subst hv; exact hiu.of_same rfl rfl rfl rfl
  obtain ⟨hnext, -, hread, hcounter⟩ := hwv.next hsv hiv
  rw [hdone]
  refine ⟨hnext, ?_, ?_⟩
  · rw [hcounter _ _ (by decide), ← hcount, ← hv]
    exact counter_bump_self hsu ..
  · rw [hread, ← hreads, ← hnum, ← hv]
    rfl

/-! The rows. -/

/-- The channel settings with which a sector begins touch neither queue nor gate of its cell. -/
theorem cell_beginSector {s : State} (hs : Sound s) (c : CellId) (block : Nat) :
    ((beginSector c block s).cell c).queue = (s.cell c).queue ∧ ((beginSector c block s).cell c).gateDue = (s.cell c).gateDue := by
  unfold beginSector
  rw [cell_updCell_self hs]
  exact ⟨rfl, rfl⟩
/-- What is written once the sector has begun is written. -/
theorem Written.of_beginSector {s t u : State} (hs : Sound s) {c : CellId} {q : QWrite} {block : Nat}
    (hu : beginSector c block s = u) (h : Written c q u t) : Written c q s t := by
  subst hu
  exact ⟨by simpa using h.media, by rw [h.queue, (cell_beginSector hs c block).1]⟩
/-- Where no gate waits to fall none falls. -/
theorem lateGates_none {s : State} (h : ∀ d, (s.cell d).gateDue = none) : lateGates s = s := by
  unfold lateGates
  refine List.foldlRecOn (motive := (· = s)) _ _ rfl ?_
  rintro _ rfl c -
  unfold lateGate
  rw [h c]

/-- Settles O51: each row ends its write by `writeDone`, as a destage or as a repair; nothing else is waiting. -/
theorem sectorsAreWritten : Obligations.SectorsAreWritten := by
  unfold Obligations.SectorsAreWritten
  intro s c k q hs hquiet hrec hq hgate written clean
  have hi : Idle s := ⟨hquiet, hrec⟩
  obtain rfl : q.key = k := by simpa using List.find?_some hq
  generalize hv : beginSector c (16 * q.addr.stripe + q.addr.sub) s = v
  have hsv : Sound v := hv ▸ (beginSector_keeps ..).1 hs
  have hiv : Idle v := by subst hv; exact hi.of_same (by simp) (by simp) (by simp) (by simp)
  have hgv : (v.cell c).gateDue = none := by rw [← hv, (cell_beginSector hs ..).2, hgate]
  have hcv : v.cache = s.cache := by simp [← hv]
  have hcached : cached q.addr v = cached q.addr s := cached_of_lines (congrArg _ hcv) (congrArg _ hcv) _
  refine ⟨fun hr hw => ?_, fun hr ht hserv hwrite htrack => ?_, fun hfound _ hserv hwrite htrack hstale hr => ?_⟩
  · have hrun : exec (.sectorWriteDone c q.key) s = .next (writeDone c q s) := by
      refine congrArg Host.Outcome.next ?_
      rw [lateGates_none hgate, hq]
      exact if_pos hw
    obtain ⟨⟨hmedia, hqueue⟩, hclean⟩ := writeDone_written hs hi (hgate c) hr
    exact ⟨_, hrun, ⟨hmedia, hqueue⟩, hclean⟩
  · have hrun : exec (.tornRewrite c q.key) s = .next (writeDone c q v) := by
      refine congrArg Host.Outcome.next ?_
      rw [hq]
      dsimp only
      rw [if_pos ⟨ht, hserv, hwrite, htrack⟩, hv]
    obtain ⟨hwritten, hclean⟩ := writeDone_written hsv hiv hgv hr
    obtain ⟨hmedia, hqueue⟩ := hwritten.of_beginSector hs hv
    exact ⟨_, hrun, ⟨hmedia, hqueue⟩, fun y hy => hclean y (hcached.trans hy)⟩
  · have hrun : exec (.repairRewrite q.key) s = .next (writeDone c q v) := by
      refine congrArg Host.Outcome.next ?_
      rw [hfound]
      dsimp only
      rw [if_pos ⟨hserv, hwrite, htrack⟩, hv]
    have hstale' : repairStale c q v = false := by
      have hgroup : v.group q.addr.group = s.group q.addr.group := by simp [← hv, State.group]
      unfold repairStale at hstale ⊢
      rw [hgroup, hcached]
      exact hstale
    obtain ⟨hwritten, hcount, hreads⟩ := writeDone_repaired hsv hiv hgv hr hstale'
    obtain ⟨hmedia, hqueue⟩ := hwritten.of_beginSector hs hv
    refine ⟨_, hrun, ⟨hmedia, hqueue⟩, hcount.trans ?_, hreads.trans ?_⟩
    · simp [← hv, State.counter]
    · simp [← hv]

end Sys2Proof.Machine

/-! ## Ledger intake, write rounds and key unwraps (O48) -/

namespace Sys2Proof.Machine

/-! Intake: an intent takes the next serial and joins the port (R235, R238). -/

/-- What records are given to slots: all else of them stays. -/
theorem placeRecs_addr (datas : List DataRec) (parities : List ParRec) (units heads : List Nat) :
    (placeRecs datas parities units heads).1.map DataRec.addr = datas.map DataRec.addr := by
  unfold placeRecs
  dsimp only
  rw [List.map_map]
  exact (List.map_map (f := Prod.fst) (g := DataRec.addr)).symm.trans (congrArg _ (List.zipIdx_map_fst ..))
/-- The DATA records of an intent name its sub-blocks in block order (R234). -/
theorem dataRecs_addr (x : Waiting) (keys : BitVec 512) (n : DWord) (s : State) :
    (dataRecs x keys n s).map DataRec.addr = x.blocks s := by
  unfold dataRecs
  dsimp only
  rw [List.map_map]
  exact List.zipIdx_map_fst ..
/-- With nothing waiting for the port and room in it, an intent takes the next serial and its INTENT joins the port. -/
theorem newIntent_joins {s : State} (ha : s.ledgerDead = false) (hw : s.ledger.waits = []) (hp : s.portSlots < 56) (i : Intent) :
    ∃ x n, newIntent i s = { s with ledger := { s.ledger with
        intents := s.ledger.intents ++ [x], nextSerial := n
        port := s.ledger.port ++ [(.intent s.ledger.nextSerial, 1)], waits := [] } } ∧
      x.serial = s.ledger.nextSerial ∧ x.number = i.number ∧ x.job = i.job ∧ x.phase = i.phase ∧
      x.datas.map DataRec.addr = i.datas.map DataRec.addr := by
  unfold newIntent
  dsimp only
  rw [toPort_joins]
  · exact ⟨_, _, rfl, rfl, rfl, rfl, rfl, placeRecs_addr i.datas i.parities _ (s.singles (2 + i.parities.length))⟩
  · exact ha
  · exact hw
  · exact hp
/-- The WRITE `j` has been taken in between `s` and `t` (R235 rule 1): its INTENT is at the port, with a DATA record for each of its
blocks, and it waits for the COMMIT. -/
structure TakenIn (j : Job) (s t : State) : Prop where
  port : t.ledger.port = s.ledger.port ++ [(.intent s.ledger.nextSerial, 1)]
  job : t.job j.id = some { j with phase := .journal }
  intent : ∃ x, t.ledger.intents = s.ledger.intents ++ [x] ∧ x.serial = s.ledger.nextSerial ∧ x.number = j.intent ∧
    x.job = some j.id ∧ x.phase = .intent ∧ x.datas.map (fun d => d.addr) = (Waiting.job j).blocks s
/-- A WRITE is taken in where the Ledger can write and the port has room. -/
theorem takeIntent_takes {s : State} (ha : s.ledgerDead = false) (hw : s.ledger.waits = []) (hp : s.portSlots < 56) {j : Job}
    (hj : s.job j.id = some j) (keys : BitVec 512) : TakenIn j s (takeIntent (.job j) keys s) := by
  generalize hd : dataRecs (.job j) keys s.ledger.nextSerial s = datas
  generalize hu : touchOld (Waiting.group (.job j) s) datas s = u
  have hpwr : u.pwr = s.pwr := by simp [← hu]
  have hledger : u.ledger = s.ledger := by simp [← hu]
  have hring : u.ring = s.ring := by simp [← hu]
  have ha' : u.ledgerDead = false := by rw [State.ledgerDead, hpwr]; exact ha
  have hp' : u.portSlots < 56 := by rw [State.portSlots, hledger]; exact hp
  have hw' : u.ledger.waits = [] := hledger ▸ hw
  have hj' : u.job j.id = some j := by rw [State.job, hring]; exact hj
  unfold takeIntent
  dsimp only
  rw [hd, hu]
  generalize parityRecs _ _ _ _ = parities
  obtain ⟨x, n, hnew, hserial, hnumber, hjob, hphase, hdatas⟩ := newIntent_joins ha' hw' hp' {
    serial := s.ledger.nextSerial, boot := s.sec.bootCount, ctx := .ward (Waiting.ward (.job j))
    group := Waiting.group (.job j) s, space := BitVec.ofNat 8 (Waiting.space (.job j)), block := Waiting.first (.job j)
    datas, parities, count := datas.length, job := some j.id, number := j.intent, op := 2 }
  rw [hnew]
  refine ⟨?_, job_setJob (k := { j with phase := .journal }) hj', x, ?_, ?_, hnumber, hjob, hphase, ?_⟩
  · rw [← hledger]; rfl
  · rw [← hledger]; rfl
  · rw [hserial, hledger]
  · exact hdatas.trans (hd ▸ dataRecs_addr ..)
/-- AT_CAP takes nothing back (R239). -/
theorem TakenIn.refreshCap {j : Job} {s t : State} (h : TakenIn j s t) : TakenIn j s (refreshCap t) := by
  obtain ⟨p, o, hcap⟩ := refreshCap_eq t
  rw [hcap]
  exact ⟨h.port, h.job, h.intent⟩

/-- The next waiting WRITE reserves its intent under its ward's key (R226, R235, R238). -/
theorem reserve_takes {s : State} {j : Job} (hopen : intakeOpen s = true) (hnext : nextIntake s = some (.job j)) (hop : j.op = 2)
    (hup : (s.group (Waiting.group (.job j) s)).down = false) (hj : s.job j.id = some j)
    (hcan : canReserve (.job j) s = true) (hready : s.kccReady = true) (hkey : s.kccEntry (Waiting.ward (.job j)) ≠ none) :
    TakenIn j s (reserve s) := by
  obtain ⟨e, he⟩ := Option.ne_none_iff_exists'.1 hkey
  obtain ⟨hfound, c, o, hlook⟩ := kccLookup_hit hready he
  have hrun : reserve s = refreshCap (takeIntent (.job j) e.keys { s with kcc := c, obs := o }) := by
    unfold reserve
    rw [hopen, hnext]
    dsimp only
    rw [hup, hcan]
    simp only [hop, Bool.not_true, Bool.false_eq_true, ne_eq, not_true_eq_false, if_false]
    unfold takeKeyed
    dsimp only
    rw [hfound, hlook]
  simp only [intakeOpen, Bool.and_eq_true, beq_iff_eq, decide_eq_true_eq, Bool.not_eq_true'] at hopen
  obtain ⟨⟨⟨⟨⟨⟨halive, -⟩, -⟩, -⟩, -⟩, hroom⟩, hwaits⟩ := hopen
  have htaken := takeIntent_takes (s := { s with kcc := c, obs := o }) halive hwaits hroom hj e.keys
  rw [hrun]
  exact TakenIn.refreshCap ⟨htaken.port, htaken.job, htaken.intent⟩
/-- The next waiting WRITE that cannot reserve sets AT_CAP (R239). -/
theorem reserve_atCap {s : State} {j : Job} (hopen : intakeOpen s = true) (hnext : nextIntake s = some (.job j)) (hop : j.op = 2)
    (hup : (s.group (Waiting.group (.job j) s)).down = false) (hcan : canReserve (.job j) s = false) :
    reserve s = { s with ledger := { s.ledger with atCap := true } } := by
  unfold reserve
  rw [hopen, hnext]
  dsimp only
  rw [hup, hcan]
  simp [hop]

/-! A write round of one slot (R231). -/

/-- `n` bytes are asked for and given. -/
@[simp] theorem length_fit (n : Nat) (b : Bytes) : (fit n b).length = n := by simp [fit, zeros]
/-- A record without payload fills its one slot (R232, R233). -/
theorem length_recordBytes_head (key : BitVec 256) (h : Head) (body : Bytes) : (recordBytes key h body []).length = 256 := by
  simp [recordBytes, Head.bytes, beBytes, zeros]

/-- The state once a round has written its one slot, before what ends in it takes effect. -/
def oneWritten (slot : Nat) (b : Bytes) (s : State) : State :=
  bump (cDev 9) 1 { s with ledger := { s.ledger with slots := s.ledger.slots.set [] slot b, port := [] } }
theorem oneWritten_sound {s : State} (hs : Sound s) (slot : Nat) (b : Bytes) : Sound (oneWritten slot b s) :=
  (bump_keeps ..).1 { hs with slots := Tab.set_wf' _ _ _ _ hs.slots }
theorem oneWritten_slot {s : State} (hs : Sound s) (slot : Nat) (b : Bytes) :
    (oneWritten slot b s).ledger.slots.get [] slot = b := Tab.get_set_self _ _ _ _ hs.slots
/-- With one item of one slot at the port, a round writes that slot. -/
theorem writeSlots_one {s : State} (ha : s.ledgerDead = false) {it : PortItem} (hport : s.ledger.port = [(it, 1)])
    {key : BitVec 256} {slot : Nat} {b : Bytes} (hb : itemBytes key it s = some (slot, b)) (h0 : b ≠ []) (hlen : b.length ≤ 256) :
    writeSlots key [] 8 0 s = ([it], oneWritten slot (fit 256 b) s) := by
  have hpos := List.length_pos_iff.2 h0
  have hdone : (b.length + 255) / 256 - 1 = 0 := by omega
  unfold writeSlots
  rw [ha, hport]
  dsimp only
  rw [hb]
  dsimp only
  rw [hdone, writeSlots_of_empty (by rfl)]
  rfl
/-- Between rounds the Ledger can write, nothing waits for the port, and no intent waits to queue its COMMIT. -/
structure RoundReady (k : Keys) (s : State) : Prop where
  alive : s.ledgerDead = false
  awake : s.awake = true
  keys : s.sec.keys = some k
  waits : s.ledger.waits = []
  held : ∀ i ∈ s.ledger.intents, i.phase ≠ .held
/-- What ends in a round of one slot takes effect after it. -/
theorem ledgerRound_one {s : State} {k : Keys} (h : RoundReady k s) {it : PortItem} (hport : s.ledger.port = [(it, 1)])
    {slot : Nat} {b : Bytes} (hb : itemBytes k.ledger it s = some (slot, b)) (h0 : b ≠ []) (hlen : b.length ≤ 256) :
    ledgerRound [] s = refreshCap (pumpPort (holdCheck (itemDone it (oneWritten slot (fit 256 b) s)))) := by
  unfold ledgerRound
  rw [h.keys]
  dsimp only
  rw [writeSlots_one h.alive hport hb h0 hlen, if_neg (by simp [h.alive, h.awake, hport])]
  rfl

/-- With no intent that waits to queue its COMMIT none tries. -/
theorem holdCheck_none {s : State} (h : ∀ i ∈ s.ledger.intents, i.phase ≠ .held) : holdCheck s = s := by
  have hnone : s.ledger.intents.filter (fun i => decide (i.phase = .held) && !i.replay) = [] := by
    rw [List.filter_eq_nil_iff]
    intro i hi
    simp [h i hi]
  unfold holdCheck
  rw [hnone]
  rfl
/-- With nothing waiting for the port nothing joins it. -/
theorem pumpPort_none {s : State} (h : s.ledger.waits = []) : pumpPort s = s := by
  unfold pumpPort
  rw [h, List.foldl_nil]
  exact State.eq_of rfl rfl rfl rfl rfl rfl rfl rfl rfl rfl (by rw [← h]) rfl rfl rfl rfl rfl rfl rfl rfl rfl rfl
/-- An item that waits joins the port where it fits: one step of `pumpPort`. -/
def joinPort (acc : List (PortItem × Nat) × List (PortItem × Nat)) (it : PortItem × Nat) :
    List (PortItem × Nat) × List (PortItem × Nat) :=
  if (acc.1.map Prod.snd).sum + it.2 ≤ portLimit it.1 then (acc.1 ++ [it], acc.2) else (acc.1, acc.2 ++ [it])
/-- What stands at the port stays there as other items join. -/
theorem foldl_joinPort_port (l : List (PortItem × Nat)) (acc : List (PortItem × Nat) × List (PortItem × Nat)) (h : acc.1 ≠ []) :
    (l.foldl joinPort acc).1 ≠ [] := by
  refine foldl_keeps (fun acc => acc.1 ≠ []) joinPort (fun acc it hacc => ?_) l acc h
  unfold joinPort
  split
  · simp
  · exact hacc
/-- The first of some items joins a port with nothing in it. -/
theorem toPort_port {s : State} (ha : s.ledgerDead = false) (hw : s.ledger.waits = []) (hp : s.ledger.port = [])
    {it : PortItem × Nat} {l : List (PortItem × Nat)} (hfit : it.2 ≤ portLimit it.1) :
    (toPort (it :: l) s).ledger.port ≠ [] := by
  unfold toPort pumpPort
  rw [ha, if_neg Bool.false_ne_true]
  dsimp only
  rw [hw, hp, List.nil_append, List.foldl_cons, if_pos (by simpa using hfit)]
  exact foldl_joinPort_port l ([it], []) (by simp)
/-- An intent with payload has items for the port, and each fits in it (R231, R320). -/
theorem items_fit {i : Intent} (h : 0 < i.payloads) : ∃ it l, i.items = it :: l ∧ it.2 ≤ portLimit it.1 := by
  have hfit : ∀ it ∈ i.items, it.2 ≤ portLimit it.1 := by
    intro it hit
    unfold Intent.items at hit
    rcases List.mem_append.1 hit with hit | hit
    · obtain ⟨k, -, rfl⟩ := List.mem_map.1 hit
      show 17 ≤ 56
      decide
    · obtain ⟨p, -, rfl⟩ := List.mem_map.1 hit
      dsimp only [portLimit]
      split <;> decide
  have hlen : i.items.length = i.payloads := by simp [Intent.items, Intent.payloads]
  cases hl : i.items with
  | nil => rw [hl] at hlen; exact absurd hlen (Nat.ne_of_lt h)
  | cons it l => exact ⟨it, l, rfl, hfit it (hl ▸ List.mem_cons_self)⟩

/-- An INTENT that is written is counted, and its payload comes to the port (R235 rule 2). -/
theorem itemDone_intent {s : State} {n : DWord} {i : Intent} (hi : s.intentOf n = some i) (hpay : 0 < i.payloads) :
    itemDone (.intent n) s = toPort i.items ((bump (cDev 6) 1 s).updIntent n (fun x => { x with phase := .records })) := by
  have hfound : (bump (cDev 6) 1 s).intentOf n = some i := hi
  unfold itemDone
  dsimp only
  rw [hfound]
  exact if_neg (Nat.ne_of_gt hpay)
/-- The one intent there is, is changed. -/
theorem intents_updIntent {s : State} {n : DWord} {i : Intent} (hi : s.intentOf n = some i) (honly : s.ledger.intents = [i])
    (f : Intent → Intent) : (s.updIntent n f).ledger.intents = [f i] := by
  have hmine : (i.serial == n && !i.replay) = true :=
    List.find?_some (p := fun i : Intent => i.serial == n && !i.replay) hi
  show listUpd _ f s.ledger.intents = _
  rw [honly]
  exact if_pos hmine
/-- A round that writes an INTENT with payload: its sealed record stands in its slot, and its payload comes to the port (R231, R235
rule 2). -/
theorem ledgerRound_intent {s : State} {k : Keys} (hs : Sound s) (h : RoundReady k s) {n : DWord} {i : Intent}
    (hport : s.ledger.port = [(.intent n, 1)]) (hi : s.intentOf n = some i) (hpay : 0 < i.payloads) (honly : s.ledger.intents = [i]) :
    let t := ledgerRound [] s
    (∃ q ∈ t.ledger.intents, q.serial = i.serial ∧ q.phase = .records) ∧
    t.ledger.slots.get [] i.slot = i.record k.ledger 1 1 i.serial 0 (intentBody i) [] ∧
    t.ledger.port ≠ [] ∧ t.counter (cDev 6) = s.counter (cDev 6) + 1 := by
  intro t
  have hlen : (i.record k.ledger 1 1 i.serial 0 (intentBody i) []).length = 256 := length_recordBytes_head ..
  have hb : itemBytes k.ledger (.intent n) s = some (i.slot, i.record k.ledger 1 1 i.serial 0 (intentBody i) []) := by
    simp [itemBytes, hi]
  generalize i.record k.ledger 1 1 i.serial 0 (intentBody i) [] = b at *
  have hround := ledgerRound_one h hport hb (by rintro rfl; cases hlen) hlen.le
  rw [fit_self hlen] at hround
  generalize hv : (bump (cDev 6) 1 (oneWritten i.slot b s)).updIntent n (fun x => { x with phase := .records }) = v
  have hvi : v.ledger.intents = [{ i with phase := .records }] :=
    hv ▸ intents_updIntent (s := bump (cDev 6) 1 (oneWritten i.slot b s)) hi honly _
  have hvs : v.ledger.slots.get [] i.slot = b := hv ▸ oneWritten_slot hs i.slot b
  have hvc : v.counter (cDev 6) = s.counter (cDev 6) + 1 := by
    subst hv
    refine (counter_bump_self (oneWritten_sound hs i.slot b) (cDev 6) 1).trans ?_
    exact congrArg (· + 1) (counter_bump_ne hs (by decide) 1)
  have hdone : itemDone (.intent n) (oneWritten i.slot b s) = toPort i.items v :=
    hv ▸ itemDone_intent (s := oneWritten i.slot b s) hi hpay
  obtain ⟨it, l, hitems, hfit⟩ := items_fit hpay
  have hport' : (toPort i.items v).ledger.port ≠ [] :=
    hitems ▸ toPort_port (by subst hv; exact h.alive) (by subst hv; exact h.waits) (by subst hv; rfl) hfit
  obtain ⟨hintents, hslots⟩ := toPort_records i.items v
  have hobs : (toPort i.items v).obs = v.obs := by simp
  have hheld : holdCheck (toPort i.items v) = toPort i.items v := holdCheck_none (by simp [hintents, hvi])
  obtain ⟨p, o, hcap⟩ := refreshCap_eq (pumpPort (toPort i.items v))
  have ht : t = _ := hround.trans (by rw [hdone, hheld, hcap])
  rw [ht]
  refine ⟨⟨{ i with phase := .records }, ?_, rfl, rfl⟩, ?_, foldl_joinPort_port _ _ hport', ?_⟩
  · show _ ∈ (toPort i.items v).ledger.intents
    rw [hintents, hvi]
    exact List.mem_cons_self
  · show (toPort i.items v).ledger.slots.get [] i.slot = b
    rw [hslots, hvs]
  · rw [← hvc]
    show (toPort i.items v).obs.counters.get 0 _ = v.obs.counters.get 0 _
    rw [hobs]

/-- A release that is written is counted; one of a payload unit counts for the tick too (R329). -/
theorem itemDone_release (slot : Nat) (unit : Bool) (s : State) :
    ∃ x, itemDone (.release slot unit) s = { bump (cDev 8) 1 s with sys := x } := by
  unfold itemDone
  dsimp only
  split <;> exact ⟨_, rfl⟩
/-- A round that writes a release: the slot is free, and nothing is left at the port (R235 rule 6). -/
theorem ledgerRound_release {s : State} {k : Keys} (hs : Sound s) (h : RoundReady k s) {slot : Nat} {unit : Bool}
    (hport : s.ledger.port = [(.release slot unit, 1)]) (hlen : (s.ledger.slots.get [] slot).length ≤ 256) :
    let t := ledgerRound [] s
    t.ledger.port = [] ∧ t.ledger.slots.get [] slot = fit 256 (0 :: (s.ledger.slots.get [] slot).drop 1) ∧
    t.counter (cDev 8) = s.counter (cDev 8) + 1 ∧ t.counter (cDev 9) = s.counter (cDev 9) + 1 := by
  intro t
  have hround := ledgerRound_one h hport (b := 0 :: (s.ledger.slots.get [] slot).drop 1) rfl
    (List.cons_ne_nil _ _) (by rw [List.length_cons, List.length_drop]; omega)
  generalize fit 256 (0 :: (s.ledger.slots.get [] slot).drop 1) = b at *
  have hsu := oneWritten_sound hs slot b
  have hslot := oneWritten_slot hs slot b
  have h8 : (oneWritten slot b s).counter (cDev 8) = s.counter (cDev 8) := counter_bump_ne hs (by decide) 1
  have h9 : (oneWritten slot b s).counter (cDev 9) = s.counter (cDev 9) + 1 := counter_bump_self hs ..
  have hport' : (oneWritten slot b s).ledger.port = [] := rfl
  have hwaits : (oneWritten slot b s).ledger.waits = [] := h.waits
  have hheld : ∀ i ∈ (oneWritten slot b s).ledger.intents, i.phase ≠ .held := h.held
  generalize oneWritten slot b s = u at *
  obtain ⟨x, hx⟩ := itemDone_release slot unit u
  obtain ⟨p, o, hcap⟩ := refreshCap_eq { bump (cDev 8) 1 u with sys := x }
  have ht : t = _ := hround.trans (by rw [hx, holdCheck_none (by exact hheld), pumpPort_none (by exact hwaits), hcap])
  rw [ht]
  exact ⟨hport', hslot, (counter_bump_self hsu ..).trans (congrArg (· + 1) h8), (counter_bump_ne hsu (by decide) 1).trans h9⟩

/-! A COMMIT that brings nothing beside its number (R240). -/

/-- The context entry of a command takes its number up, with SUCCESS (R240). -/
theorem commitContext_records {s : State} (hs : Sound s) {i : Intent} (hp : i.capture = false) :
    (commitContext i s).highOf i.ctx = (if s.highOf i.ctx < i.number then i.number else s.highOf i.ctx) ∧
    (commitContext i s).windowOf i.ctx = pushWindow i.number 0 (s.windowOf i.ctx) := by
  have hself (w : WardId) (f g : Ward → Ward) : ((s.updWard w f).updWard w g).ward w = g (f (s.ward w)) := by
    rw [ward_updWard_self ((State_updWard_keeps ..).1 hs), ward_updWard_self hs]
  unfold commitContext
  rw [hp]
  cases i.ctx with
  | admin => exact ⟨rfl, rfl⟩
  | ward w =>
    simp only [Bool.false_eq_true, if_false]
    unfold recordCommit
    exact ⟨congrArg Ward.high (hself w _ _), congrArg Ward.window (hself w _ _)⟩
/-- A completion that does not count as malformed leaves the numbers recorded of every context. -/
theorem finish_recorded {s : State} (hs : Sound s) {st : Nat} (hst : countsMalformed st = false) (j : Job) (or d : Nat) (c : Ctx) :
    (finish j st or d s).highOf c = s.highOf c ∧ (finish j st or d s).windowOf c = s.windowOf c := by
  cases c with
  | ward w =>
    have hw := finish_ward_of hs hst j or d w
    exact ⟨by simp only [State.highOf]; rw [hw], by simp only [State.windowOf]; rw [hw]⟩
  | admin =>
    have hposted (u : State) (c : Ctx) : (u.posted c).ring.adminHigh = u.ring.adminHigh ∧
        (u.posted c).ring.adminWindow = u.ring.adminWindow := by
      unfold State.posted
      split
      · cases c <;> exact ⟨rfl, rfl⟩
      · exact ⟨rfl, rfl⟩
    have hclear (u : State) : (applyWhenClear u).ring.adminHigh = u.ring.adminHigh ∧
        (applyWhenClear u).ring.adminWindow = u.ring.adminWindow := by
      unfold applyWhenClear
      split <;> exact ⟨rfl, rfl⟩
    simp only [State.highOf, State.windowOf, finish, hclear, postCompletion_ring, hposted]
    exact ⟨rfl, rfl⟩
/-- The round that writes a COMMIT with no effect of its own completes its command and records its number (R235 rule 4, R240). -/
theorem commit_recorded {s : State} (hs : Sound s) {i : Intent} {j : Job} (h : CommitDue i j s) (he : i.effect = .none) :
    ∃ t, exec (.ledgerRound [] none) s = .next t ∧ Completed j 0 i.detail s t ∧
      t.highOf i.ctx = (if s.highOf i.ctx < i.number then i.number else s.highOf i.ctx) ∧
      t.windowOf i.ctx = pushWindow i.number 0 (s.windowOf i.ctx) := by
  have hnone (v : State) : applyEffect i v = v := by unfold applyEffect; rw [he]
  obtain ⟨v, t, ht⟩ := exec_commit hs h fun v _ => by rw [hnone]; exact ⟨rfl, rfl, rfl, rfl⟩
  have hrest := ht.rest
  rw [hnone] at hrest
  have hv := ht.begins
  have hrec := commitContext_records hs (i := i) h.plain.1
  have hfin := finish_recorded hv.sound (st := 0) rfl j 0 i.detail i.ctx
  have hcontext : v.highOf i.ctx = (commitContext i s).highOf i.ctx ∧ v.windowOf i.ctx = (commitContext i s).windowOf i.ctx := by
    cases i.ctx <;> simp only [State.highOf, State.windowOf, State.ward, hv.ring, hv.wards, and_self]
  have hsame : t.highOf i.ctx = (finish j 0 0 i.detail v).highOf i.ctx ∧
      t.windowOf i.ctx = (finish j 0 0 i.detail v).windowOf i.ctx := by
    rw [hrest]
    cases i.ctx <;> exact ⟨rfl, rfl⟩
  exact ⟨t, ht.run, ht.completed, hsame.1.trans (hfin.1.trans (hcontext.1.trans hrec.1)),
    hsame.2.trans (hfin.2.trans (hcontext.2.trans hrec.2))⟩

/-! Unwraps (R227, R228). -/

/-- The entry that an unwrap brings: the ward's key pair under its present epoch. -/
def unwrapped (w : WardId) (k : Keys) (s : State) : KccEntry :=
  { ward := w, epoch := (s.ward w).epoch, keys := Config.kwUnwrap k.kek (s.ward w).wrapped }
/-- The state in which the oldest miss's entry has joined the cache as its newest, before its jobs go on. -/
def keyJoined (w : WardId) (l : List WardId) (k : Keys) (s : State) : State :=
  bump (cDev 12) 1 { s with kcc := { s.kcc with
    misses := l, entries := s.kcc.entries.filter (fun y => !(y.ward == w)) ++ [unwrapped w k s] } }
/-- A job whose key has come goes on: a WRITE to its intent, any other to its work. -/
def Job.keyed (j : Job) : Job := { j with phase := if j.op = 2 then .intake else .ready }
/-- Where the cache has room the oldest miss's key joins it, and its jobs go on. -/
theorem kccUnwrap_joins {s : State} {w : WardId} {l : List WardId} {k : Keys} (hm : s.kcc.misses = w :: l)
    (hk : s.sec.keys = some k) (hr : s.kccReady = true) (hp : (s.ward w).keyPresent = true) (hroom : s.kcc.entries.length < 48) :
    kccUnwrap true s = (keyJobs w s).foldl (fun s j => s.setJob j.keyed) (keyJoined w l k s) := by
  have hold : (s.kcc.entries.filter (fun y => !(y.ward == w))).length < 48 :=
    Nat.lt_of_le_of_lt (List.length_filter_le ..) hroom
  unfold kccUnwrap
  rw [hm, hk]
  dsimp only
  rw [hr, hp, if_neg (by decide), if_pos (by decide), if_neg (by omega), if_pos hold]
  rfl
/-- Where the slot or the unwrap check fails the ward faults with cause 1; with no job and no sealed block waiting that is all. -/
theorem kccUnwrap_faults {s : State} {w : WardId} {l : List WardId} {k : Keys} (hm : s.kcc.misses = w :: l)
    (hk : s.sec.keys = some k) (hr : s.kccReady = true) (hj : s.ring.jobs = []) (hq : s.cap.queue = []) :
    kccUnwrap false s = faultWard w 1 { s with kcc := { s.kcc with misses := l } } := by
  have hnojobs : keyJobs w { s with kcc := { s.kcc with misses := l } } = [] := by simp [keyJobs, hj]
  have hcap : (faultWard w 1 { s with kcc := { s.kcc with misses := l } }).cap = s.cap := by simp
  unfold kccUnwrap
  rw [hm, hk]
  dsimp only
  rw [hr, hnojobs, if_neg (by decide), if_neg (by simp), List.foldl_nil, hcap, hq]
  rfl

/-- Settles O48: intake, the round and the unwrap are each followed from what the statement finds to what takes effect. -/
theorem ledgerAndKeys : Obligations.LedgerAndKeys := by
  unfold Obligations.LedgerAndKeys
  refine ⟨fun s j hs => ⟨fun hopen hnext hop hup hj => ⟨fun hcan hready hkey => ?_, fun hcan => ?_⟩,
    fun k ha haw hk hw hheld => ⟨fun n i hport hi hpay honly => ?_, fun slot unit hport hlen => ?_, fun slot hport => ?_⟩,
    fun i h he => commit_recorded hs h he⟩,
    fun s w l k hs hm hk hr => ⟨fun hp hroom => ?_, fun hst hj hq => ?_⟩⟩
  · obtain ⟨hport, hjob, x, hx, hserial, hnumber, hid, hphase, haddr⟩ := reserve_takes hopen hnext hop hup hj hcan hready hkey
    exact ⟨_, rfl, hport, by rw [hx]; simp, hjob, x, by rw [hx]; simp, hserial, hnumber, hid, hphase, haddr⟩
  · exact congrArg Host.Outcome.next (reserve_atCap hopen hnext hop hup hcan)
  · exact ⟨_, rfl, ledgerRound_intent hs ⟨ha, haw, hk, hw, hheld⟩ hport hi hpay honly⟩
  · exact ⟨_, rfl, ledgerRound_release hs ⟨ha, haw, hk, hw, hheld⟩ hport hlen⟩
  · have hrun : exec (.ledgerRound [] (some slot)) s = .next (tagFails slot s) :=
      congrArg Host.Outcome.next (if_pos ⟨haw, by simp [hk], by simp [ha], hport⟩)
    exact ⟨_, hrun, tagFails_holds slot s⟩
  · have hrun : exec (.kccUnwrap true) s = .next _ := congrArg Host.Outcome.next (kccUnwrap_joins hm hk hr hp hroom)
    have hjobs : (keyJobs w s).foldl (fun s j => s.setJob j.keyed) (keyJoined w l k s) =
        { keyJoined w l k s with ring := ((keyJobs w s).foldl (fun s j => s.setJob j.keyed) (keyJoined w l k s)).ring } :=
      foldl_keeps (fun t : State => t = { keyJoined w l k s with ring := t.ring }) _ (fun t j ht => by rw [ht]; rfl) _ _ rfl
    refine ⟨_, hrun, by rw [hjobs]; rfl, by rw [hjobs]; rfl, by rw [hjobs]; rfl, ?_, fun j hone hj => ?_⟩
    · rw [hjobs]
      exact counter_bump_self (s := { s with kcc := _ }) { hs with } ..
    · rw [hone]
      exact job_setJob (s := keyJoined w l k s) (k := j.keyed) hj
  · have hrun : exec (.kccUnwrap false) s = .next _ := congrArg Host.Outcome.next (kccUnwrap_faults hm hk hr hj hq)
    have hsu : Sound { s with kcc := { s.kcc with misses := l } } := { hs with }
    have hkcc : (faultWard w 1 { s with kcc := { s.kcc with misses := l } }).kcc = { s.kcc with misses := l } := by simp
    have hself := faultWard_self hsu w 1 hst
    exact ⟨_, hrun, by rw [hkcc], by rw [hkcc], by rw [hself], by rw [hself], fun u hu => faultWard_ne hsu hu 1⟩

end Sys2Proof.Machine

namespace Sys2Proof.Machine

/-! ## The seal at PF_N_ASSERT (O9)

The statement keeps the officer verifier where nothing stands at the Ledger port, in every sound state. `Sound` does not bind the port
to what waits for room at it (R320), so a COMMIT may wait there alone: the sector that ends within step 1 of R241 hands its releases to
the port, which lets in what waits, and step 3 completes that too. -/

/-- The intent of a SET_OFFICER_CREDENTIAL whose records are written. -/
def officerIntent : Intent :=
  { serial := 1, boot := 0, ctx := .admin, op := 0x43, phase := .commit, commits := [(2, 1)], effect := .officer 1 }
/-- A sector write on cell 0. -/
def endingWrite : QWrite := { addr := ⟨0, 0, 0, 0⟩, sector := ⟨[], [], 0, 0, 0, 0, 0, 0⟩, key := 0 }
/-- Service with nothing at the Ledger port: the COMMIT of `officerIntent` waits for room, and cell 0 writes a sector. -/
def commitWaits : State :=
  { sys := { stage := 6 }
    sec := { provisioned := true, keys := some ⟨1, 2, 3, 4⟩ }
    pwr := { powered := true, pfLow := false, mode := .service, domains := 0x7F }
    cells := [(0, { ready := true, wg := true, queue := [endingWrite], writing := some 0 })]
    ledger := { nextSerial := 3, waits := [(.commit 1, 1)], intents := [officerIntent] } }
theorem commitWaits_sound : Sound commitWaits := by constructor <;> rfl
/-- The seal writes the COMMIT that waited, and the officer verifier is the new one. -/
theorem commitWaits_sealed : ∃ t, exec (.pfNAssert [0]) commitWaits = .next t ∧ t.sec.verifier = some 1 :=
  ⟨_, rfl, by decide +kernel⟩

/-- Refutes O9: with nothing at the port the seal can still change the officer verifier, by a COMMIT that waits for room at it and joins
it with the sector that ends. -/
theorem not_powerIsTakenAway : ¬ Obligations.PowerIsTakenAway := by
  unfold Obligations.PowerIsTakenAway
  rintro ⟨hassert, -⟩
  obtain ⟨t, hrun, -, -, -, -, -, -, -, -, -, hkept⟩ := (hassert commitWaits [0] commitWaits_sound rfl rfl).1 (by decide)
  obtain ⟨u, hsealed, hnew⟩ := commitWaits_sealed
  obtain rfl : t = u := Host.Outcome.next.inj (hrun.symm.trans hsealed)
  have hold : t.sec.verifier = none := (hkept rfl).1
  rw [hnew] at hold
  cases hold

end Sys2Proof.Machine

namespace Sys2Proof.Machine

/-! ## Deferred deltas and replay (O49) -/

/-! The Ledger port and the live intents. -/

/-- An item that stands at the port or waits for it still does as others join. -/
theorem mem_foldl_joinPort {it : PortItem × Nat} (l : List (PortItem × Nat)) (acc : List (PortItem × Nat) × List (PortItem × Nat))
    (h : it ∈ acc.1 ++ acc.2 ∨ it ∈ l) : it ∈ (l.foldl joinPort acc).1 ++ (l.foldl joinPort acc).2 := by
  induction l generalizing acc with
  | nil => exact h.resolve_right List.not_mem_nil
  | cons x l ih =>
    refine ih _ ?_
    unfold joinPort
    split <;> simp only [List.mem_append, List.mem_cons] at h ⊢ <;> tauto
/-- Where the Ledger can be written, what is handed to the port stands at it or waits for room; nothing else changes (R231, R320). -/
theorem toPort_eq {s : State} (ha : s.ledgerDead = false) (l : List (PortItem × Nat)) :
    ∃ p w, toPort l s = { s with ledger := { s.ledger with port := p, waits := w } } ∧ ∀ it ∈ l, it ∈ p ++ w := by
  unfold toPort
  rw [ha, if_neg Bool.false_ne_true]
  refine ⟨_, _, rfl, fun it hit => ?_⟩
  exact mem_foldl_joinPort _ (s.ledger.port, []) (.inr (List.mem_append_right _ hit))
/-- A live intent that is changed, but for its serial and its life, is found as it was changed. -/
theorem intentOf_updIntent {s : State} {n : DWord} {i : Intent} (h : s.intentOf n = some i) {f : Intent → Intent}
    (hf : ∀ x, (f x).serial = x.serial ∧ (f x).replay = x.replay) : (s.updIntent n f).intentOf n = some (f i) := by
  unfold State.intentOf State.updIntent
  rw [find_listUpd _ _ (fun x hx => by rw [(hf x).1, (hf x).2]; exact hx)]
  exact congrArg (Option.map f) h

/-! Deferred deltas (R236). -/

/-- Old data for the DATA record `d` is due: record `k` of intent `i`, the parity record `p`, is deferred at record `m`. -/
structure DeltaDue (n : DWord) (i : Intent) (k m : Nat) (p : ParRec) (d : DataRec) (s : State) : Prop where
  service : s.inService = true
  alive : s.ledgerDead = false
  found : deferredOf n s = some (i, k, p)
  names : p.deferred = some m
  data : i.datas[m]? = some d
  live : s.intentOf i.serial = some i

/-- A deferred record that is found is not on its way to be resolved. -/
theorem not_resolving_of_deferredOf {n : DWord} {s : State} {i : Intent} {k : Nat} {p : ParRec}
    (h : deferredOf n s = some (i, k, p)) : ∀ r ∈ i.resolving, r.1 ≠ k := by
  obtain ⟨x, -, hx⟩ := List.exists_of_findSome?_eq_some h
  split at hx
  · obtain ⟨q, hq, heq⟩ := Option.map_eq_some_iff.1 hx
    obtain ⟨rfl, rfl, -⟩ := Prod.mk.injEq .. ▸ heq
    have hpick := List.find?_some hq
    simp at hpick
    exact fun r hr hrk => hpick.2 r.1 r.2 hr hrk
  · cases hx
/-- A record that starts to be resolved is the resolved record of its index. -/
theorem resolvedOf_of_joined {i y : Intent} {k : Nat} {q : ParRec} (hnew : ∀ r ∈ i.resolving, r.1 ≠ k)
    (hy : y.resolving = i.resolving ++ [(k, q)]) : y.resolvedOf k = some q := by
  have hnone : i.resolving.find? (fun r => r.1 == k) = none := by simpa using hnew
  simp [Intent.resolvedOf, hy, List.find?_append, hnone]

/-- The delta of record `p` with the old data `o` of the DATA record `d` taken in (R236, R255). -/
def deltaWith (p : ParRec) (d : DataRec) (o : Sector) : Bytes × Bytes :=
  addDelta (p.delta, p.covDelta) (deltaOf p.kind.toNat o d.sector)
/-- The record that resolves `p`: it takes the serial `ser`, and the unit reserved for it (R236, R238). -/
def resolvedRec (p : ParRec) (x : Bytes × Bytes) (ser : DWord) : ParRec :=
  { p with serial := ser, delta := x.1, covDelta := x.2, deferred := none, slot := p.unit }
/-- The intent whose record `k` has become `p`. -/
def Intent.withParity (k : Nat) (p : ParRec) (x : Intent) : Intent := { x with parities := x.parities.set k p }
/-- The intent whose record `k` is on its way to be resolved by `q`, with the COMMIT behind it in `slot` (R236). -/
def Intent.resolve (k : Nat) (q : ParRec) (slot : Nat) (x : Intent) : Intent :=
  { x with resolving := x.resolving ++ [(k, q)], commits := x.commits ++ [(q.serial + 1, slot)] }

section Deltas
variable {n : DWord} {i : Intent} {k m : Nat} {p : ParRec} {d : DataRec} {s : State} {old : Option Sector}
  (h : DeltaDue n i k m p d s)
include h

/-- Without old data the record stays deferred: the failed sub-block is counted and logged. -/
theorem resolveDeferred_unknown (ho : oldData d old s = none) : resolveDeferred n old s =
    logEvent 0x0705 p.addr.group.val (d.addr.column + 256 * d.addr.sub) d.addr.stripe (bump (cGroup p.addr.group 3) 1 s) := by
  unfold resolveDeferred
  rw [h.alive, h.service, h.found]
  simp only [h.names, Option.bind_some, h.data, ho]
  rfl
/-- Old data that is not the last of its row leaves the record waiting for the next. -/
theorem resolveDeferred_next {o : Sector} (ho : oldData d old s = some o) {m' : Nat} (hm : nextInRow i p m = some m') :
    resolveDeferred n old s = s.updIntent i.serial (Intent.withParity k
      { p with delta := (deltaWith p d o).1, covDelta := (deltaWith p d o).2, deferred := some m' }) := by
  unfold resolveDeferred
  rw [h.alive, h.service, h.found]
  simp only [h.names, Option.bind_some, h.data, ho, Option.getD_some, hm]
  rfl
/-- The last old data of the row resolves the record: it takes the next serial, and goes to the port with its COMMIT behind it. -/
theorem resolveDeferred_last {o : Sector} (ho : oldData d old s = some o) (hm : nextInRow i p m = none) :
    let t := resolveDeferred n old s
    t.ledger.nextSerial = s.ledger.nextSerial + 2 ∧
      (t.intentOf i.serial).bind (fun y => y.resolvedOf k) = some (resolvedRec p (deltaWith p d o) s.ledger.nextSerial) ∧
      (.resolved i.serial k, 17) ∈ t.ledger.port ++ t.ledger.waits ∧ t = { s with ledger := t.ledger } := by
  intro t
  generalize hq : resolvedRec p (deltaWith p d o) s.ledger.nextSerial = q
  generalize hu : s.updIntent i.serial (Intent.resolve k q ((s.singles 1).headD 0)) = u
  have hrun : t =
      toPort [(.resolved i.serial k, 17)] { u with ledger := { u.ledger with nextSerial := s.ledger.nextSerial + 2 } } := by
    subst hu hq t
    unfold resolveDeferred
    rw [h.alive, h.service, h.found]
    simp only [h.names, Option.bind_some, h.data, ho, Option.getD_some, hm]
    rfl
  have hintent : (u.intentOf i.serial).bind (fun y => y.resolvedOf k) = some q := by
    rw [← hu, intentOf_updIntent (f := Intent.resolve k q _) h.live (fun _ => ⟨rfl, rfl⟩)]
    exact resolvedOf_of_joined (not_resolving_of_deferredOf h.found) rfl
  have halive : u.ledgerDead = false := hu ▸ h.alive
  obtain ⟨port, waits, hport, hjoins⟩ := toPort_eq
    (s := { u with ledger := { u.ledger with nextSerial := s.ledger.nextSerial + 2 } }) halive [(.resolved i.serial k, 17)]
  rw [hrun, hport]
  exact ⟨rfl, hintent, hjoins _ List.mem_cons_self, hu ▸ rfl⟩

end Deltas

/-! Replay (R245). -/

/-- Replay has one committed intent left to take up, with one DATA record and no parity; media holds `m` at its address. -/
structure ReplayDue (i : Intent) (d : DataRec) (m : Sector) (s : State) : Prop where
  service : s.inService = true
  alive : s.ledgerDead = false
  only : s.ledger.intents = [i]
  replay : i.replay = true
  fresh : i.applied = false
  committed : i.phase = .committed
  datas : i.datas = [d]
  parities : i.parities = []
  live : d.live = true
  place : (s.group d.addr.group).lostCol d.addr.stripe d.addr.column = false
  uncached : cached d.addr s = none
  verified : verified (s.group d.addr.group).d d.addr m = true

/-- Replay has taken its one intent up. -/
def takenUp (i : Intent) (s : State) : State :=
  { s with ledger := { s.ledger with replaying := true, intents := [{ i with applied := true }] } }

/-- With nothing left to replay, REPLAYING clears and REPLAY_DONE is logged (R245). -/
theorem replayCheck_ends {s : State} (hr : s.ledger.replaying = true) (hl : s.replayLeft = []) :
    replayCheck s = logEvent 0x0603 0 0 0 { s with ledger := { s.ledger with replaying := false } } := by
  unfold replayCheck
  rw [hr, hl]
  rfl
/-- While an intent is left, replay goes on. -/
theorem replayCheck_goesOn {s : State} (hl : s.replayLeft ≠ []) : replayCheck s = s :=
  if_neg (by simp [hl])

section Replay
variable {i : Intent} {d : DataRec} {m : Sector} {s : State} (h : ReplayDue i d m s)
include h

/-- REPLAY takes the intent up, applies its record and looks for the end. -/
theorem exec_replay_one :
    exec (.replay [some m] [] none) s = .next (replayCheck (replayData i d (some m) (takenUp i s))) := by
  have hleft : s.replayLeft = [i] := by simp [State.replayLeft, h.only, h.replay]
  have hup : updReplay i (fun x => { x with applied := true }) { s with ledger := { s.ledger with replaying := true } } =
      takenUp i s := by
    simp [updReplay, takenUp, h.only, listUpd]
  have hone : replayOne [some m] [] { s with ledger := { s.ledger with replaying := true } } =
      replayCheck (replayData i d (some m) (takenUp i s)) := by
    unfold replayOne
    rw [show State.replayLeft { s with ledger := { s.ledger with replaying := true } } = [i] from hleft]
    simp [h.fresh, h.parities, h.datas, h.live, hup]
  refine congrArg Host.Outcome.next ((if_neg ?_).trans hone)
  simp [h.service, h.alive, hleft]
/-- What replay finds at the address is the sector on media. -/
theorem replayFound_media : replayFound d.addr (some m) (takenUp i s) = some m := by
  unfold replayFound
  rw [show cached d.addr (takenUp i s) = none from h.uncached]
  exact if_pos h.verified
/-- A record whose key is newer than the one found is applied. -/
theorem replayData_newer (hk : keyLt (secKey m) (secKey d.sector) = true) :
    replayData i d (some m) (takenUp i s) = replayInstall d.addr d.sector (takenUp i s) := by
  unfold replayData
  rw [if_neg (by exact h.place ▸ Bool.false_ne_true), replayFound_media h]
  exact if_pos hk
/-- A record that media already carries is released. -/
theorem replayData_older (hk : keyLt (secKey m) (secKey d.sector) = false) :
    replayData i d (some m) (takenUp i s) = replayed i d.serial (takenUp i s) := by
  unfold replayData
  rw [if_neg (by exact h.place ▸ Bool.false_ne_true), replayFound_media h]
  exact if_neg (hk ▸ Bool.false_ne_true)
/-- With its one record released the intent is gone. -/
theorem replayed_intents_nil : (replayed i d.serial (takenUp i s)).ledger.intents = [] := by
  have halive : (takenUp i s).ledgerDead = false := h.alive
  unfold replayed releaseWhere
  dsimp only
  rw [halive, if_neg Bool.false_ne_true]
  unfold pruneIntents
  rw [if_neg (by simpa [State.ledgerDead] using halive), toPort_liveIntents, toPort_liveIntents]
  simp [takenUp, Intent.done, h.committed, h.datas, h.parities]

/-- A record that media already carries ends the replay: nothing but the Ledger changes, and REPLAY_DONE is logged. -/
theorem exec_replay_older (hk : keyLt (secKey m) (secKey d.sector) = false) :
    ∃ t, exec (.replay [some m] [] none) s = .next t ∧ t.ledger.intents = [] ∧ t.ledger.replaying = false ∧
      t.cache = s.cache ∧ (s.obs.events.length < 512 → ∃ e ∈ t.obs.events, e.code = 0x0603 ∧ e.beat = s.clk.beat) := by
  have hnone := replayed_intents_nil h
  have hrep : (replayed i d.serial (takenUp i s)).ledger.replaying = true := releaseWhere_replaying ..
  have hobs : (replayed i d.serial (takenUp i s)).obs = s.obs := by simp [takenUp]
  have hclk : (replayed i d.serial (takenUp i s)).clk = s.clk := by simp [takenUp]
  have hcache : (replayed i d.serial (takenUp i s)).cache = s.cache := by simp [takenUp]
  have hrun := exec_replay_one h
  rw [replayData_older h hk] at hrun
  generalize replayed i d.serial (takenUp i s) = u at *
  rw [replayCheck_ends hrep (by simp [State.replayLeft, hnone]), logEvent_eq] at hrun
  refine ⟨_, hrun, hnone, rfl, hcache, fun hroom => ?_⟩
  obtain ⟨e, hmem, hcode, -, -, hbeat⟩ := logEvent_logged
    (s := { u with ledger := { u.ledger with replaying := false } }) (by exact hobs ▸ hroom) 0x0603 0 0 0
  exact ⟨e, hmem, hcode, hbeat.trans (congrArg _ hclk)⟩
/-- A newer record stands in the line of its stripe unit, queued for destage, and replay goes on. -/
theorem exec_replay_newer (hs : Sound s) (hk : keyLt (secKey m) (secKey d.sector) = true) {k : Nat} (hl : findLine d.addr s = some k) :
    ∃ t, exec (.replay [some m] [] none) s = .next t ∧ t.ledger.replaying = true ∧
      t.ledger.intents = [{ i with applied := true }] ∧
      (t.line k).subs.get none d.addr.sub = some { sector := d.sector, dirty := true, policy := 1, queued := true } := by
  have hledger : (replayInstall d.addr d.sector (takenUp i s)).ledger = (takenUp i s).ledger := by simp
  have hleft : (replayInstall d.addr d.sector (takenUp i s)).replayLeft ≠ [] := by
    simp [State.replayLeft, takenUp, h.replay]
  have hrun := exec_replay_one h
  rw [replayData_newer h hk, replayCheck_goesOn hleft] at hrun
  exact ⟨_, hrun, hledger ▸ rfl, hledger ▸ rfl, line_install (s := takenUp i s) { hs with } hl 5 _⟩

end Replay

/-- Settles O49: a deferred delta by what is known of its old data, replay by which key is newer, and a tag failure in each. -/
theorem deferredAndReplay : Obligations.DeferredAndReplay := by
  unfold Obligations.DeferredAndReplay
  intro s hs hservice halive
  refine ⟨fun n i k m p d old hfound hm hd hi hk => ?_,
    fun i d m honly hreplay hfresh hphase hdatas hpars hlive hplace hcached hver => ?_, fun media rows slot hleft => ?_⟩
  · have h : DeltaDue (BitVec.ofNat 64 n) i k m p d s := ⟨hservice, halive, hfound, hm, hd, hi⟩
    refine ⟨fun o ho => ⟨fun hnext => ?_, fun m' hnext => ?_⟩, fun ho => ?_, fun slot => ?_⟩
    · obtain ⟨hserial, hq, hport, hrest⟩ := resolveDeferred_last h ho hnext
      exact ⟨_, _, rfl, hserial, hq, rfl, rfl, rfl, rfl, hport, hrest⟩
    · refine ⟨_, congrArg Host.Outcome.next (resolveDeferred_next h ho hnext), ?_, rfl⟩
      rw [intentOf_updIntent (f := Intent.withParity k _) hi (fun _ => ⟨rfl, rfl⟩)]
      exact List.getElem?_set_self hk
    · refine ⟨_, congrArg Host.Outcome.next (resolveDeferred_unknown h ho), logEvent_eq .., ?_, fun hroom => ?_⟩
      · rw [logEvent_counter ((bump_keeps ..).1 hs) _ _ _ _ (by unfold cGroup cDev; omega)]
        exact counter_bump_self hs ..
      · obtain ⟨e, hmem, hcode, -, -, hbeat⟩ := logEvent_logged (s := bump (cGroup p.addr.group 3) 1 s) hroom 0x0705
          p.addr.group.val (d.addr.column + 256 * d.addr.sub) d.addr.stripe
        exact ⟨e, hmem, hcode, hbeat⟩
    · have hrun : exec (.deferredDelta n old (some slot)) s = .next (tagFails slot s) :=
        congrArg Host.Outcome.next (if_pos ⟨hservice, by simp [halive], by simp [hfound]⟩)
      exact ⟨_, hrun, tagFails_holds slot s⟩
  · have h : ReplayDue i d m s :=
      ⟨hservice, halive, honly, hreplay, hfresh, hphase, hdatas, hpars, hlive, hplace, hcached, hver⟩
    exact ⟨exec_replay_older h, fun k hkey hline => exec_replay_newer h hs hkey hline⟩
  · have hrun : exec (.replay media rows (some slot)) s = .next (tagFails slot s) :=
      congrArg Host.Outcome.next (if_neg (by simp [hservice, halive, hleft]))
    exact ⟨_, hrun, tagFails_holds slot s⟩

end Sys2Proof.Machine

/-! ## Media reads, recoveries and background work (O54, O58) -/

namespace Sys2Proof.Machine

/-! What a step of media work leaves: how much it writes to media, that nothing comes to wait, and a counter that it does not count. -/

/-- Between `s` and `t` `n` sectors are written to media, nothing comes to wait for media, and counter `o` stands. -/
structure MediaWork (o n : Nat) (s t : State) : Prop where
  sound : Sound t
  media : t.obs.media.length = s.obs.media.length + n
  quiet : Quiet s → Quiet t
  counter : t.counter o = s.counter o
/-- A counter that counts neither what happens in a way of the cache, nor a seek, nor a lost event (R359). -/
structure Apart (o : Nat) : Prop where
  way : ∀ v i, v < 16 → i < 4 → o ≠ cWay v i
  seek : ∀ c, o ≠ cCell c 0xB8
  lost : o ≠ cDev 1
/-- The counters of groups are such. -/
theorem apart_cGroup (g : GroupId) {i : Nat} (hi : i < 16) : Apart (cGroup g i) := by
  have := g.isLt
  refine ⟨fun v j _ _ => ?_, fun c => cGroup_ne_cCell g hi c _, ?_⟩ <;> unfold cGroup <;> [unfold cWay; unfold cDev] <;> omega
/-- So are those of cells but SEEKS. -/
theorem apart_cCell (c : CellId) {x : Nat} (hx : x < 0x200) (hne : x ≠ 0xB8) : Apart (cCell c x) := by
  refine ⟨fun v j hv hj => ?_, fun d => ?_, ?_⟩ <;> unfold cCell <;> [unfold cWay; skip; unfold cDev] <;> omega
/-- Two counters of groups with unlike numbers are two. -/
theorem cGroup_ne (g h : GroupId) {i j : Nat} (hi : i < 16) (hj : j < 16) (hne : i ≠ j) : cGroup g i ≠ cGroup h j := by
  unfold cGroup
  omega

namespace MediaWork

variable {o m n : Nat} {s t u : State}

theorem refl (hs : Sound s) : MediaWork o 0 s s := ⟨hs, rfl, id, rfl⟩
/-- One step after another. -/
theorem andThen (h : MediaWork o m s t) (k : Sound t → MediaWork o n t u) : MediaWork o (m + n) s u where
  sound := (k h.sound).sound
  media := by rw [(k h.sound).media, h.media, Nat.add_assoc]
  quiet := (k h.sound).quiet ∘ h.quiet
  counter := (k h.sound).counter.trans h.counter
/-- A step that leaves the observation block, the rings, the Ledger and what waits for a way. -/
theorem of_same (ht : Sound t) (ho : t.obs = s.obs) (hr : t.ring = s.ring) (hl : t.ledger = s.ledger)
    (hw : t.cache.waits = s.cache.waits) : MediaWork o 0 s t :=
  ⟨ht, by rw [ho, Nat.add_zero], fun h => ⟨hr ▸ h.jobs, hw.trans h.waits, hl ▸ h.replay⟩, by unfold State.counter; rw [ho]⟩
/-- What counts elsewhere leaves the counter. -/
theorem bump {p : Nat} (h : o ≠ p) (k : Nat) (hs : Sound s) : MediaWork o 0 s (bump p k s) :=
  ⟨(bump_keeps ..).1 hs, rfl, fun h => ⟨h.jobs, h.waits, h.replay⟩, counter_bump_ne hs h k⟩
/-- A choice between two steps. -/
theorem ite {c : Prop} [Decidable c] (ht : MediaWork o n s t) (hu : MediaWork o n s u) : MediaWork o n s (if c then t else u) := by
  split
  · exact ht
  · exact hu
/-- A repetition writes what its steps write. -/
theorem foldl {β : Type} {f : State → β → State} (hf : ∀ s x, Sound s → MediaWork o n s (f s x)) :
    ∀ (l : List β) {s : State}, Sound s → MediaWork o (n * l.length) s (l.foldl f s)
  | [], _, hs => refl hs
  | x :: l, s, hs => by
    have h := (hf s x hs).andThen (foldl hf l)
    rwa [Nat.add_comm, ← Nat.mul_succ] at h
/-- A repetition of steps that write nothing writes nothing. -/
theorem foldl_zero {β : Type} {f : State → β → State} (hf : ∀ s x, Sound s → MediaWork o 0 s (f s x)) (l : List β)
    (hs : Sound s) : MediaWork o 0 s (l.foldl f s) := by
  simpa using foldl hf l hs
/-- What is idle stays idle where no recovery begins. -/
theorem idle (h : MediaWork o n s t) (hr : t.recoveries = s.recoveries) (hi : Idle s) : Idle t :=
  ⟨h.quiet hi.quiet, hr.trans hi.recoveries⟩

end MediaWork

/-! The cache. -/

/-- A way is one of 16 (R211). -/
theorem victim_lt {cls set v : Nat} {s : State} (h : victim cls set s = some v) : v < 16 := by
  have hway : ∀ w ∈ (List.range 16).filter (fun v => (classWays cls s).getLsbD v), w < 16 := fun w hw =>
    List.mem_range.mp (List.mem_filter.mp hw).1
  unfold victim at h
  dsimp only at h
  split at h
  · next w hfind =>
    obtain rfl := Option.some.inj h
    exact hway w (List.mem_of_find?_eq_some hfind)
  · refine List.foldlRecOn (motive := fun b => ∀ v, b = some v → v < 16) _ _ (fun _ h0 => by cases h0) ?_ v h
    intro best ih w hw v hv
    split at hv
    · exact Option.some.inj hv ▸ hway w (List.mem_filter.mp hw).1
    · split at hv
      · exact Option.some.inj hv ▸ hway w (List.mem_filter.mp hw).1
      · exact ih v hv

section Steps

variable {o : Nat} {s : State}

/-- An event is no sector. -/
theorem logEvent_mediaWork (ho : Apart o) (c i a b : Nat) (hs : Sound s) : MediaWork o 0 s (logEvent c i a b s) where
  sound := (logEvent_keeps ..).1 hs
  media := by
    unfold logEvent joinEvent insertEvent
    split
    · rw [console_obs]
      rfl
    · rfl
  quiet h := by
    rw [logEvent_eq]
    exact ⟨h.jobs, h.waits, h.replay⟩
  counter := logEvent_counter hs _ _ _ _ ho.lost
theorem setLine_mediaWork (k : Nat) (l : Line) (hs : Sound s) : MediaWork o 0 s (s.setLine k l) :=
  .of_same ((State_setLine_keeps ..).1 hs) rfl rfl rfl rfl
theorem touch_mediaWork (k : Nat) (hs : Sound s) : MediaWork o 0 s (touch k s) :=
  .of_same ((touch_keeps ..).1 hs) rfl rfl rfl rfl
theorem settleBusy_mediaWork (a : SubAddr) (hs : Sound s) : MediaWork o 0 s (settleBusy a s) :=
  .of_same ((settleBusy_keeps ..).1 hs) (by simp) (by simp) (by simp) (by rw [settleBusy_cache])
theorem countHit_mediaWork (ho : Apart o) (a : SubAddr) (hs : Sound s) : MediaWork o 0 s (countHit a s) := by
  unfold countHit
  split
  · next k _ =>
    exact (MediaWork.bump (ho.way (k % 16) 0 (Nat.mod_lt _ (by decide)) (by decide)) 1 hs).andThen (touch_mediaWork k)
  · exact .refl hs
/-- A line that gives way to another counts in its way alone (R220). -/
theorem newLine_mediaWork (ho : Apart o) {v : Nat} (hv : v < 16) (k : Nat) (l : Line) (hs : Sound s) :
    MediaWork o 0 s (bump (cWay v 2) 1 (touch k ((if (s.line k).valid then bump (cWay v 3) 1 s else s).setLine k l))) :=
  (((MediaWork.ite (.bump (ho.way v 3 hv (by decide)) 1 hs) (.refl hs)).andThen (setLine_mediaWork k l)).andThen
    (touch_mediaWork k)).andThen (.bump (ho.way v 2 hv (by decide)) 1)
theorem claim_mediaWork (ho : Apart o) (cls : Nat) (a : SubAddr) (hs : Sound s) : MediaWork o 0 s (claim cls a s).2 := by
  unfold claim
  split
  · next k _ =>
    exact ((setLine_mediaWork k _ hs).andThen
      (.bump (ho.way (k % 16) 1 (Nat.mod_lt _ (by decide)) (by decide)) 1)).andThen (touch_mediaWork k)
  · split
    · next v hvic =>
      have hv := victim_lt hvic
      exact (newLine_mediaWork ho hv _ _ hs).andThen (.bump (ho.way v 1 hv (by decide)) 1)
    · exact .refl hs
/-- A sub-block whose line is there or can be had enters the cache, and no block comes to wait for a way (R219, R220). -/
theorem install_mediaWork (ho : Apart o) (cls : Nat) {a : SubAddr} (x : Sub)
    (hway : ((findLine a s).isSome || (victim cls (cacheSet a) s).isSome) = true) (hs : Sound s) :
    MediaWork o 0 s (install cls a x s) := by
  unfold install
  split
  · next k _ => exact (setLine_mediaWork k _ hs).andThen (touch_mediaWork k)
  · next hnone =>
    split
    · next hvic => exact newLine_mediaWork ho (victim_lt hvic) _ _ hs
    · next hvic => simp [hnone, hvic] at hway
theorem fillLine_mediaWork (ho : Apart o) (cls : Nat) (asked : Bool) (a : SubAddr) (x : Sector) (hs : Sound s) :
    MediaWork o 0 s (fillLine cls asked a x s) := by
  unfold fillLine
  split
  · exact .refl hs
  · split
    · next hway => exact install_mediaWork ho cls _ hway hs
    · exact .refl hs
theorem keepRow_mediaWork (ho : Apart o) (cls : Nat) (a : SubAddr) (x : Sector) (hs : Sound s) :
    MediaWork o 0 s (keepRow cls a x s) :=
  ((claim_mediaWork ho cls a hs).andThen (fillLine_mediaWork ho cls false a x)).andThen (settleBusy_mediaWork a)
theorem updCached_mediaWork (a : SubAddr) (f : Sub → Option Sub) (hs : Sound s) : MediaWork o 0 s (updCached a f s) :=
  .of_same ((updCached_keeps ..).1 hs) (by simp) (by simp) (by simp) (by rw [updCached_cache])

/-! Cells. -/

theorem setCell_mediaWork (c : CellId) (x : Cell) (hs : Sound s) : MediaWork o 0 s (s.setCell c x) :=
  .of_same ((State_setCell_keeps ..).1 hs) rfl rfl rfl rfl
theorem beginSector_mediaWork (c : CellId) (block : Nat) (hs : Sound s) : MediaWork o 0 s (beginSector c block s) :=
  setCell_mediaWork c _ hs
theorem dropRetry_mediaWork (k : Nat) (c : CellId) (hs : Sound s) : MediaWork o 0 s (dropRetry k c s) :=
  .of_same ((dropRetry_keeps ..).1 hs) (by simp) (by simp) (by simp) (by simp)
theorem requestCell_mediaWork (c : CellId) (hs : Sound s) : MediaWork o 0 s (requestCell c s) :=
  .of_same ((requestCell_keeps ..).1 hs) (by simp) (by simp) (by simp) (by simp)
theorem queueRepair_mediaWork (c : CellId) (a : SubAddr) (x : Sector) (hs : Sound s) : MediaWork o 0 s (queueRepair c a x s) :=
  .of_same ((queueRepair_keeps ..).1 hs) (by simp) (by simp) (by simp) (by simp)
theorem enqueueWrite_mediaWork (c : CellId) (a : SubAddr) (x : Sector) (hs : Sound s) : MediaWork o 0 s (enqueueWrite c a x s) :=
  .of_same ((enqueueWrite_keeps ..).1 hs) (by simp) (by simp) (by simp) (by simp)
/-- A cell that turns to its next request counts a seek at most (R313). -/
theorem serveNext_mediaWork (ho : Apart o) (c : CellId) (hs : Sound s) : MediaWork o 0 s (serveNext c s) := by
  have hbump := counter_bump_ne hs (ho.seek c) 1
  have hring : (serveNext c s).ring = s.ring := by simp
  have hcache : (serveNext c s).cache = s.cache := by simp
  have hledger : (serveNext c s).ledger = s.ledger := by simp
  refine ⟨(serveNext_keeps ..).1 hs, ?_, fun h => ⟨hring ▸ h.jobs, hcache ▸ h.waits, hledger ▸ h.replay⟩, ?_⟩
  · rcases serveNext_obs c s with h | h <;> rw [h] <;> rfl
  · unfold State.counter at hbump ⊢
    rcases serveNext_obs c s with h | h <;> rw [h]
    exact hbump
/-- The media reads on their way are none of it. -/
theorem reads_mediaWork (l : List MediaRead) (n : Nat) (hs : Sound s) : MediaWork o 0 s { s with reads := l, nextRead := n } :=
  .of_same { hs with } rfl rfl rfl rfl
theorem addRead_mediaWork (ho : Apart o) (a : SubAddr) (why : ReadFor) (cls : Nat) (around : Bool) (path : Option Nat) (hs : Sound s) :
    MediaWork o 0 s (addRead a why cls around path s) := by
  unfold addRead
  exact ((requestCell_mediaWork _ hs).andThen (reads_mediaWork _ _)).andThen (serveNext_mediaWork ho _)

/-! What a pass counts on its cell (R292, R293, R315). -/

/-- Where on its cell a pass counts, and how much. -/
def passCounts (block : Nat) (ob : SectorObs) (good : Bool) : List (Nat × Nat) :=
  [(0x100 + 0x10 * zoneOf block, 1), (0x00, 1), (0x28, ob.doubles), (0x20, ob.corrected)] ++
    (if ob.markB then [(0x18, 1)] else []) ++ (if good then [] else [(0x100 + 0x10 * zoneOf block + 8, 1), (0x10, 1)])
theorem countPass_eq (c : CellId) (block : Nat) (ob : SectorObs) (good : Bool) (s : State) : countPass c block ob good s =
    (passCounts block ob good).foldl (fun s p => bump (cCell c p.1) p.2 s) s := by
  unfold countPass passCounts
  cases good <;> cases ob.markB <;> rfl
/-- A pass counts on its cell alone. -/
theorem countPass_mediaWork {c : CellId} (ho : ∀ x, o ≠ cCell c x) (block : Nat) (ob : SectorObs) (good : Bool) (hs : Sound s) :
    MediaWork o 0 s (countPass c block ob good s) := by
  rw [countPass_eq]
  exact .foldl_zero (fun _ (p : Nat × Nat) => .bump (ho p.1) p.2) _ hs
/-- A counter of a cell is what it was plus what was added to it. -/
theorem counter_foldl_bump (c : CellId) (x : Nat) (l : List (Nat × Nat)) (hs : Sound s) :
    (l.foldl (fun s p => bump (cCell c p.1) p.2 s) s).counter (cCell c x) =
      s.counter (cCell c x) + BitVec.ofNat 64 ((l.filter (fun p => p.1 == x)).map Prod.snd).sum := by
  induction l generalizing s with
  | nil => simp
  | cons p l ih =>
    rw [List.foldl_cons, ih ((bump_keeps ..).1 hs)]
    rcases eq_or_ne p.1 x with rfl | hne
    · rw [counter_bump_self hs]
      simp [BitVec.ofNat_add, BitVec.add_assoc]
    · rw [counter_bump_ne hs (by unfold cCell; omega)]
      simp [hne]
/-- A pass is one of the sectors read on its cell, and where it is not good one of those not verified. -/
theorem countPass_counter (c : CellId) (block : Nat) (ob : SectorObs) (good : Bool) (hs : Sound s) :
    (countPass c block ob good s).counter (cCell c 0x00) = s.counter (cCell c 0x00) + 1 ∧
    (good = false → (countPass c block ob good s).counter (cCell c 0x10) = s.counter (cCell c 0x10) + 1) := by
  rw [countPass_eq, counter_foldl_bump c _ _ hs, counter_foldl_bump c _ _ hs]
  unfold passCounts
  refine ⟨?_, fun hgood => ?_⟩
  · cases good <;> cases ob.markB <;> simp
  · have hzone : 0x100 + 0x10 * zoneOf block ≠ 0x10 ∧ 0x100 + 0x10 * zoneOf block ≠ 8 := by omega
    subst hgood
    cases ob.markB <;> simp [hzone]

end Steps

/-! What waits goes on, where a recovery is under way. -/

/-- The recoveries under way look at their paths again (R265). -/
def recheck (s : State) : State := s.recoveries.foldl (fun s r => checkRecovery r.key s) s
theorem recheck_ledger (s : State) : (recheck s).ledger = s.ledger := by simp [recheck]
/-- Where nothing else on die waits for media, what goes on is the recoveries and AT_CAP (R239, R265). -/
theorem Quiet.moveOn {s : State} (h : Quiet s) :
    ∃ p o, moveOn s = { recheck s with ledger := { s.ledger with atCap := p, owed := o } } := by
  have hretry : retryWaits s = s := by
    unfold retryWaits
    refine List.foldlRecOn (motive := (· = s)) _ _ rfl ?_
    rintro _ rfl c -
    rw [h.waits]
    rfl
  have hpump : pumpReads s = s := by
    unfold pumpReads
    rw [List.filter_eq_nil_iff.mpr fun j hj => by simpa using h.jobs j hj]
    rfl
  obtain ⟨p, o, hcap⟩ := refreshCap_eq (recheck s)
  refine ⟨p, o, ?_⟩
  unfold Machine.moveOn
  dsimp only
  rw [hretry, hpump]
  show replayCheck (refreshCap (recheck s)) = _
  rw [hcap, recheck_ledger]
  exact if_neg (by simp [h.replay])

/-! The one recovery under way. -/

section Recovery

variable {s : State} {r q : Recovery} {k : Nat}

theorem recovery_of_only (h : s.recoveries = [r]) (hk : r.key = k) : s.recovery k = some r := by
  simp [State.recovery, h, hk]
theorem recoveries_setRecovery (h : s.recoveries = [r]) (hk : r.key = q.key) : (s.setRecovery q).recoveries = [q] := by
  simp [State.setRecovery, h, listUpd, hk]
/-- With one recovery under way, that one looks at its paths. -/
theorem recheck_of_only (h : s.recoveries = [r]) (hk : r.key = k) : recheck s = checkRecovery k s := by
  simp [recheck, h, hk]
/-- A recovery that goes on by its retry alone has nothing to look at. -/
theorem checkRecovery_retrying (h : s.recovery k = some r) (hw : r.won = none) (hp : r.parity = false) (hr : r.retry = true) :
    checkRecovery k s = s := by
  unfold checkRecovery
  simp [h, hw, hp, hr]
/-- One with no path left fails. -/
theorem checkRecovery_fails (h : s.recovery k = some r) (hw : r.won = none) (hp : r.parity = false) (hr : r.retry = false) :
    checkRecovery k s = recoveryFailed r s := by
  unfold checkRecovery
  simp [h, hw, hp, hr]

end Recovery

/-- The one recovery under way is of `a` under key `k`; its retry goes on, or its parity path has won (R265). -/
def Recovering (a : SubAddr) (k : Nat) (s : State) : Prop :=
  ∃ q, s.recoveries = [q] ∧ q.addr = a ∧ q.key = k ∧ (q.won ≠ none ∨ q.retry = true)

section Recovering

variable {o k : Nat} {a : SubAddr} {s : State}

theorem setRecovery_mediaWork (r : Recovery) (hs : Sound s) : MediaWork o 0 s (s.setRecovery r) :=
  .of_same ((State_setRecovery_keeps ..).1 hs) (by simp) (by simp) (by simp) (by simp)
/-- A column asked for is had from the die or read; the recovery is as it was but for what it has. -/
theorem askColumn_asks (ho : Apart o) {q : Recovery} (hq : s.recoveries = [q]) (hk : q.key = k) (c : Nat) (hs : Sound s) :
    MediaWork o 0 s (askColumn k s c) ∧ ∃ got, (askColumn k s c).recoveries = [{ q with got }] := by
  unfold askColumn
  rw [recovery_of_only hq hk]
  dsimp only
  split
  · exact ⟨.refl hs, q.got, hq⟩
  · split
    · next x _ =>
      refine ⟨(setRecovery_mediaWork _ hs).andThen (countHit_mediaWork ho _), q.got ++ [(c, x)], ?_⟩
      simpa using recoveries_setRecovery (q := { q with got := q.got ++ [(c, x)] }) hq rfl
    · exact ⟨(claim_mediaWork ho 3 _ hs).andThen (addRead_mediaWork ho _ .fill 3 false (some k)), q.got, by simpa using hq⟩
theorem askPath_asks (ho : Apart o) {q : Recovery} (hq : s.recoveries = [q]) (hk : q.key = k) (hs : Sound s) :
    MediaWork o 0 s (askPath k s) ∧ ∃ got, (askPath k s).recoveries = [{ q with got }] := by
  unfold askPath
  rw [recovery_of_only hq hk]
  refine List.foldlRecOn (motive := fun u => MediaWork o 0 s u ∧ ∃ got, u.recoveries = [{ q with got }]) _ _
    ⟨.refl hs, q.got, hq⟩ ?_
  rintro u ⟨hu, got, hgot⟩ c -
  obtain ⟨hv, got', hgot'⟩ := askColumn_asks ho hgot hk c hu.sound
  exact ⟨hu.andThen fun _ => hv, got', hgot'⟩
/-- A recovery whose parity path has won stands until its sector reaches the cache (R265). -/
theorem pathWon_recovering {q r : Recovery} (hr : s.recoveries = [r]) (hk : r.key = q.key) (x : Sector) (hs : Sound s) :
    MediaWork o 0 s (pathWon q x s) ∧ Recovering q.addr q.key (pathWon q x s) := by
  unfold pathWon
  generalize hw : ({ q with
    parity := false, won := some (s.clk.beat, x), retry := q.retry && decide ((s.cell q.cell).retry = some q.key) } : Recovery) = w
  obtain ⟨haddr, hkey, hwon⟩ : w.addr = q.addr ∧ w.key = q.key ∧ w.won ≠ none := by
    subst hw
    exact ⟨rfl, rfl, Option.some_ne_none _⟩
  exact ⟨(setRecovery_mediaWork w hs).andThen (dropRetry_mediaWork _ _), w,
    by simpa using recoveries_setRecovery hr (hk.trans hkey.symm), haddr, hkey, .inl hwon⟩
/-- One whose parity path ends without data goes on by its retry (R265). -/
theorem pathFails_recovering {q r : Recovery} (hr : s.recoveries = [r]) (hk : r.key = q.key) (hretry : q.retry = true) (hs : Sound s) :
    MediaWork o 0 s (pathFails q s) ∧ Recovering q.addr q.key (pathFails q s) := by
  unfold pathFails
  rw [if_pos hretry]
  exact ⟨setRecovery_mediaWork q hs, q, recoveries_setRecovery hr hk, rfl, rfl, .inr hretry⟩
/-- While its retry goes on a recovery outlives its parity path (R265). -/
theorem checkRecovery_recovering (ho : Apart o) (h : Recovering a k s) (hs : Sound s) :
    MediaWork o 0 s (checkRecovery k s) ∧ Recovering a k (checkRecovery k s) := by
  obtain ⟨q, hq, rfl, rfl, hpath⟩ := h
  unfold checkRecovery
  rw [recovery_of_only hq rfl]
  dsimp only
  split
  · exact ⟨.refl hs, q, hq, rfl, rfl, hpath⟩
  · next hwon =>
    have hretry : q.retry = true := hpath.resolve_left fun h => hwon (Option.isSome_iff_ne_none.mpr h)
    split
    · split
      · exact pathFails_recovering (q := { q with parity := false }) hq rfl hretry hs
      · obtain ⟨hask, got, hgot⟩ := askPath_asks ho hq rfl hs
        generalize askPath q.key s = u at hask hgot
        have andThen {t : State} (h : MediaWork o 0 u t ∧ Recovering q.addr q.key t) :
            MediaWork o 0 s t ∧ Recovering q.addr q.key t := ⟨hask.andThen fun _ => h.1, h.2⟩
        rw [recovery_of_only hgot rfl]
        dsimp only
        split
        · split
          · split
            · exact andThen (pathWon_recovering hgot rfl _ hask.sound)
            · exact andThen (pathFails_recovering (q := noteCopy (some _) { q with got, parity := false }) hgot rfl hretry hask.sound)
          · exact andThen (pathFails_recovering (q := { q with got, parity := false }) hgot rfl hretry hask.sound)
        · exact ⟨hask, _, hgot, rfl, rfl, .inr hretry⟩
    · exact ⟨.refl hs, q, hq, rfl, rfl, hpath⟩
/-- A copy that is not verified says nothing of where a recovery is of or how it goes on. -/
theorem noteCopy_keeps (x : Option Sector) (r : Recovery) : (noteCopy x r).addr = r.addr ∧ (noteCopy x r).key = r.key ∧
    (noteCopy x r).retry = r.retry := by
  cases x <;> exact ⟨rfl, rfl, rfl⟩
/-- A read that is not verified starts a recovery in its place, which goes on by its retry (R263). -/
theorem startRecovery_recovering (ho : Apart o) (hr : s.recoveries = []) (why : ReadFor) (cls : Nat) (around : Bool)
    (obs : Option Sector) (hs : Sound s) : MediaWork o 0 s (startRecovery a why cls around true obs s) ∧
    Recovering a s.nextRead (startRecovery a why cls around true obs s) := by
  unfold startRecovery
  dsimp only
  generalize hrec : noteCopy obs _ = r
  obtain ⟨haddr, hkey, hretry⟩ := hrec ▸ noteCopy_keeps obs _
  rw [if_neg (by decide)]
  generalize hjoin : ({ s with recoveries := s.recoveries ++ [r], nextRead := s.nextRead + 1 } : State) = u
  have hwork : MediaWork o 0 s u := hjoin ▸ .of_same { hs with } rfl rfl rfl rfl
  have hrecs : u.recoveries = [r] := by subst hjoin; simp [hr]
  have hcell (c : CellId) (f : Cell → Cell) : MediaWork o 0 s (checkRecovery s.nextRead (u.updCell c f)) ∧
      Recovering a s.nextRead (checkRecovery s.nextRead (u.updCell c f)) := by
    have hupd := hwork.andThen (setCell_mediaWork c (f (u.cell c)))
    obtain ⟨hcheck, hgoes⟩ := checkRecovery_recovering ho (s := u.updCell c f)
      ⟨r, by simpa using hrecs, haddr, hkey, .inr hretry⟩ hupd.sound
    exact ⟨hupd.andThen fun _ => hcheck, hgoes⟩
  split <;> exact hcell _ _

end Recovering

/-! A pass of a media read or of a retry. -/

/-- A cell has turned to its next request after a pass, and nothing that waited has changed. -/
structure GoneOn (s t : State) : Prop where
  reads : t.reads = s.reads
  recoveries : t.recoveries = s.recoveries
  cache : t.cache = s.cache
  ring : t.ring = s.ring
  queue : ∀ d, (t.cell d).queue = (s.cell d).queue
  events : t.obs.events = s.obs.events
  counter : ∀ o, Apart o → t.counter o = s.counter o
/-- Where the recoveries under way have nothing to look at, a cell turns to its next request alone. -/
theorem Quiet.goesOn {s : State} (h : Quiet s) (hs : Sound s) (c : CellId)
    (hr : ∀ t : State, t.recoveries = s.recoveries → recheck t = t) : GoneOn s (Machine.moveOn (serveNext c s)) := by
  have hwork {o : Nat} (ho : Apart o) := serveNext_mediaWork ho c hs
  obtain ⟨p, o, hmove⟩ := ((hwork (apart_cGroup 0 (i := 0) (by decide))).quiet h).moveOn
  rw [hr _ (by simp)] at hmove
  rw [hmove]
  refine ⟨by simp, by simp, by simp, by simp, serveNext_queue hs c, ?_, fun o ho => (hwork ho).counter⟩
  rcases serveNext_obs c s with hsame | hseek
  · exact congrArg ObsBlk.events hsame
  · exact (congrArg ObsBlk.events hseek).trans rfl
theorem Idle.goesOn {s : State} (h : Idle s) (hs : Sound s) (c : CellId) : GoneOn s (Machine.moveOn (serveNext c s)) :=
  h.quiet.goesOn hs c fun t ht => by
    unfold recheck
    rw [ht, h.recoveries]
    rfl

/-- The read `r` of a sub-block is on its way under key `k`, past no parity path, and its cell stands on the track (R258, R315). -/
structure ReadDue (k : Nat) (r : MediaRead) (s : State) : Prop where
  service : s.inService = true
  found : s.reads.find? (fun r => r.key == k) = some r
  unread : r.img = none
  why : r.why ≠ .verify
  path : r.path = none
  kept : (s.group r.addr.group).lostCol r.addr.stripe r.addr.column = false
  cell : (s.group r.addr.group).cellOf r.addr.stripe r.addr.column = r.cell
  readable : (s.cell r.cell).readable = true
  track : onTrack r.cell r.addr s = true

/-- A sector begins on the cell of `r`, with the settings of that beat (R293, R294). -/
def MediaRead.begun (r : MediaRead) (s : State) : State := beginSector r.cell (16 * r.addr.stripe + r.addr.sub) s
/-- A pass of the read `r` is counted. -/
def MediaRead.passed (r : MediaRead) (o : SectorObs) (good : Bool) (s : State) : State :=
  countPass r.cell (16 * r.addr.stripe + r.addr.sub) o good (r.begun s)
/-- A read pass is abandoned, settles its read, or starts a recovery. -/
theorem ReadDue.sectorRead_cases {k : Nat} {r : MediaRead} {s : State} (h : ReadDue k r s) (o : SectorObs) :
    (o.offTrack = true → sectorRead k o s = bump (cCell r.cell 0xB0) 1 (r.begun s)) ∧
    (o.offTrack = false →
      (∀ x, o.img = some x → verified (s.group r.addr.group).d r.addr x = true → sectorRead k o s =
        { r.passed o true s with reads := listUpd (fun m => m.key == k) (fun m => { m with img := some x }) (r.passed o true s).reads }) ∧
      (o.img = none → sectorRead k o s =
        startRecovery r.addr r.why r.cls.toNat r.around true none (dropRead k (r.passed o false s)))) := by
  have hcell : ((s.group r.addr.group).cellOf r.addr.stripe r.addr.column != r.cell) = false := by simp [h.cell]
  unfold sectorRead
  rw [h.found]
  dsimp only
  rw [if_neg (by simp [h.unread]), h.kept, hcell, if_neg (by decide), h.service, h.readable, h.track, if_neg (by decide), h.path]
  dsimp only
  refine ⟨fun ho => if_pos ho, fun ho => ?_⟩
  rw [ho, if_neg (by decide), if_neg h.why]
  refine ⟨fun x hx hv => ?_, fun hnone => ?_⟩
  · rw [hx]
    dsimp only
    rw [hv]
    rfl
  · rw [hnone]
    rfl

/-- The row turns the cell to its next request when the pass has ended. -/
theorem ReadDue.exec_sectorRead {k : Nat} {r : MediaRead} {s : State} (h : ReadDue k r s) (o : SectorObs) :
    exec (.sectorRead k o) s = .next (moveOn (serveNext r.cell (Machine.sectorRead k o s))) := by
  refine congrArg Host.Outcome.next ?_
  rw [h.found]
/-- A pass leaves idle what is idle and is counted among those of its cell. -/
theorem MediaRead.passed_spec {s : State} (hs : Sound s) (hi : Idle s) (r : MediaRead) (o : SectorObs) (good : Bool) :
    Sound (r.passed o good s) ∧ Idle (r.passed o good s) ∧
    (r.passed o good s).counter (cCell r.cell 0x00) = s.counter (cCell r.cell 0x00) + 1 ∧
    (good = false → (r.passed o good s).counter (cCell r.cell 0x10) = s.counter (cCell r.cell 0x10) + 1) := by
  have hb {x : Nat} : MediaWork x 0 s (r.begun s) := beginSector_mediaWork _ _ hs
  have hp : MediaWork (cGroup 0 0) 0 s (r.passed o good s) :=
    hb.andThen (countPass_mediaWork (fun x => cGroup_ne_cCell 0 (by decide) _ x) _ o good)
  obtain ⟨hread, hbad⟩ := countPass_counter r.cell (16 * r.addr.stripe + r.addr.sub) o good (hb (x := 0)).sound
  exact ⟨hp.sound, hp.idle (by simp [MediaRead.passed, MediaRead.begun]) hi, hread.trans (by rw [hb.counter]),
    fun hg => (hbad hg).trans (by rw [hb.counter])⟩

section Read

variable {k : Nat} {r : MediaRead} {o : SectorObs} {s : State} (h : ReadDue k r s) (hs : Sound s) (hi : Idle s)
include h hs hi

/-- A pass that leaves the track is abandoned and counted (R315). -/
theorem sectorRead_abandoned (ho : o.offTrack = true) : ∃ t, exec (.sectorRead k o) s = .next t ∧ t.reads = s.reads ∧
    t.recoveries = [] ∧ t.counter (cCell r.cell 0xB0) = s.counter (cCell r.cell 0xB0) + 1 := by
  have hb : MediaWork (cCell r.cell 0xB0) 0 s (r.begun s) := beginSector_mediaWork _ _ hs
  have hsame : (r.begun s).reads = s.reads ∧ (r.begun s).recoveries = s.recoveries := by simp [MediaRead.begun]
  have hib := hb.idle hsame.2 hi
  refine ⟨_, h.exec_sectorRead o, ?_⟩
  rw [(h.sectorRead_cases o).1 ho]
  have hgo := Idle.goesOn (s := bump (cCell r.cell 0xB0) 1 (r.begun s)) (hib.of_same rfl rfl rfl rfl) ((bump_keeps ..).1 hb.sound) r.cell
  refine ⟨hgo.reads.trans hsame.1, hgo.recoveries.trans hib.recoveries, ?_⟩
  rw [hgo.counter _ (apart_cCell r.cell (by decide) (by decide)), counter_bump_self hb.sound, hb.counter]
  rfl
/-- A pass that delivers the verified sector settles the read with it (R258). -/
theorem sectorRead_settles (ho : o.offTrack = false) {x : Sector} (hx : o.img = some x)
    (hv : verified (s.group r.addr.group).d r.addr x = true) : ∃ t, exec (.sectorRead k o) s = .next t ∧
    t.reads = listUpd (fun m => m.key == k) (fun m => { m with img := some x }) s.reads ∧
    t.recoveries = [] ∧ t.cache = s.cache ∧ t.ring = s.ring ∧
    t.counter (cCell r.cell 0x00) = s.counter (cCell r.cell 0x00) + 1 := by
  obtain ⟨hsp, hip, hcount, -⟩ := MediaRead.passed_spec hs hi r o true
  refine ⟨_, h.exec_sectorRead o, ?_⟩
  rw [((h.sectorRead_cases o).2 ho).1 x hx hv]
  have hsame : (r.passed o true s).reads = s.reads ∧ (r.passed o true s).cache = s.cache ∧ (r.passed o true s).ring = s.ring := by
    simp [MediaRead.passed, MediaRead.begun]
  generalize r.passed o true s = u at hsp hip hcount hsame
  obtain ⟨hreads, hcache, hring⟩ := hsame
  have hgo := Idle.goesOn (s := { u with reads := listUpd (fun m => m.key == k) (fun m => { m with img := some x }) u.reads })
    (hip.of_same rfl rfl rfl rfl) { hsp with } r.cell
  exact ⟨by rw [hgo.reads, hreads], hgo.recoveries.trans hip.recoveries, hgo.cache.trans hcache, hgo.ring.trans hring,
    (hgo.counter _ (apart_cCell r.cell (by decide) (by decide))).trans hcount⟩
/-- A pass that delivers nothing starts a recovery in place of the read (R263). -/
theorem sectorRead_recovers (ho : o.offTrack = false) (hx : o.img = none) :
    ∃ t q, exec (.sectorRead k o) s = .next t ∧ t.recoveries = [q] ∧ q.addr = r.addr ∧ q.key = s.nextRead ∧
      t.counter (cCell r.cell 0x10) = s.counter (cCell r.cell 0x10) + 1 := by
  obtain ⟨hsp, hip, -, hcount⟩ := MediaRead.passed_spec hs hi r o false
  have hnum : (r.passed o false s).nextRead = s.nextRead := by simp [MediaRead.passed, MediaRead.begun]
  have ha : Apart (cCell r.cell 0x10) := apart_cCell r.cell (by decide) (by decide)
  have hrun := h.exec_sectorRead o
  rw [((h.sectorRead_cases o).2 ho).2 hx] at hrun
  generalize r.passed o false s = u at hsp hip hcount hnum hrun
  obtain ⟨hstart, q, hq, hqa⟩ := startRecovery_recovering (a := r.addr) ha (s := dropRead k u) hip.recoveries r.why r.cls.toNat
    r.around none { hsp with }
  have hserve := hstart.andThen (serveNext_mediaWork ha r.cell)
  generalize hv : serveNext r.cell (startRecovery r.addr r.why r.cls.toNat r.around true none (dropRead k u)) = v at hserve hrun
  have hqv : v.recoveries = [q] := by rw [← hv]; simpa using hq
  obtain ⟨hcheck, q', hq', haddr, hkey, -⟩ := checkRecovery_recovering ha (s := v) ⟨q, hqv, hqa⟩ hserve.sound
  obtain ⟨p, w, hmove⟩ := (hserve.quiet ⟨hip.quiet.jobs, hip.quiet.waits, hip.quiet.replay⟩).moveOn
  rw [recheck_of_only hqv hqa.2.1] at hmove
  refine ⟨_, q', hrun, by rw [hmove]; exact hq', haddr, hkey.trans hnum, ?_⟩
  rw [hmove]
  exact hcheck.counter.trans (hserve.counter.trans (hcount rfl))

end Read

/-- The recovery `r` is the one under way; its retry holds the averaging buffer of its cell, which stands on the track (R265, R297). -/
structure RetryDue (k : Nat) (r : Recovery) (s : State) : Prop where
  service : s.inService = true
  only : s.recoveries = [r]
  key : r.key = k
  retry : r.retry = true
  won : r.won = none
  buffer : (s.cell r.cell).retry = some k
  readable : (s.cell r.cell).readable = true
  track : onTrack r.cell r.addr s = true
/-- A pass of the retry of `r` is begun, with its cell's settings but for the one that a retry keeps, and counted (R294, R297). -/
def Recovery.tried (r : Recovery) (s : State) : State :=
  bump (cCell r.cell 0x30) 1 ((beginSector r.cell (16 * r.addr.stripe + r.addr.sub) s).updCell r.cell (fun x =>
    { x with chan := (x.chan.1, (s.cell r.cell).chan.2) }))
/-- A retry pass that is not abandoned ends its recovery, counts, or, the sixteenth, ends the retry path (R265, R297). -/
theorem RetryDue.retryPass_cases {k : Nat} {r : Recovery} {s : State} (h : RetryDue k r s) {o : SectorObs} (ho : o.offTrack = false) :
    (∀ x, o.img = some x → verified (s.group r.addr.group).d r.addr x = true → retryPass k o s = recovered r x 2 (r.tried s)) ∧
    (o.img = none → retryPass k o s =
      if r.pass + 1 < 16 then (r.tried s).setRecovery { r with pass := r.pass + 1 }
      else checkRecovery k (dropRetry k r.cell ((r.tried s).setRecovery { r with pass := r.pass + 1, retry := false }))) := by
  have hopen : retryOpen r s = true := by simp [retryOpen, h.retry, h.won, h.buffer, h.key]
  unfold retryPass
  rw [recovery_of_only h.only h.key]
  dsimp only
  rw [h.retry, if_neg (by decide), hopen, h.service, h.readable, h.track, if_neg (by decide), ho, if_neg (by decide)]
  refine ⟨fun x hx hv => ?_, fun hnone => ?_⟩
  · rw [hx]
    dsimp only
    rw [hv]
    rfl
  · rw [hnone]
    rfl

section Retry

variable {k : Nat} {r : Recovery} {o : SectorObs} {s : State}

/-- The row turns the cell to its next request when the pass has ended. -/
theorem RetryDue.exec_retryPass (h : RetryDue k r s) (o : SectorObs) :
    exec (.retryPass k o) s = .next (moveOn (serveNext r.cell (Machine.retryPass k o s))) := by
  refine congrArg Host.Outcome.next ?_
  rw [recovery_of_only h.only h.key]
theorem Recovery.tried_mediaWork {c : Nat} (hc : c ≠ cCell r.cell 0x30) (hs : Sound s) : MediaWork c 0 s (r.tried s) :=
  ((beginSector_mediaWork _ _ hs).andThen (setCell_mediaWork _ _)).andThen (.bump hc 1)
/-- A retry pass that is begun and counted leaves all but its cell's settings. -/
theorem Recovery.tried_keeps (r : Recovery) (s : State) : (r.tried s).recoveries = s.recoveries ∧ (r.tried s).reads = s.reads ∧
    (r.tried s).groups = s.groups ∧ (r.tried s).clk = s.clk ∧ (r.tried s).obs.events = s.obs.events :=
  ⟨rfl, rfl, rfl, rfl, rfl⟩
/-- A repair joins the write queue of the cell that holds its column (R266). -/
theorem queueRepair_queue (hs : Sound s) {c : CellId} {a : SubAddr} (hl : (s.group a.group).lostCol a.stripe a.column = false)
    (hc : (s.group a.group).cellOf a.stripe a.column = c) (x : Sector) :
    ∃ q ∈ ((queueRepair c a x s).cell c).queue, q.addr = a ∧ q.sector = x ∧ q.repair = true := by
  unfold queueRepair
  dsimp only
  rw [hl, hc, if_neg (by simp)]
  generalize hq : ({ addr := a, sector := x, key := s.nextRead, repair := true } : QWrite) = q
  have hqueue := congrArg Cell.queue (cell_updCell_self hs c fun y => { y with queue := y.queue ++ [q] })
  exact ⟨q, hqueue ▸ List.mem_append_right _ (List.mem_singleton_self q), by subst hq; exact ⟨rfl, rfl, rfl⟩⟩
/-- The recovery `r` is no longer under way, and its cell's averaging buffer is freed (R265). -/
def recoveryEnded (r : Recovery) (s : State) : State :=
  dropRetry r.key r.cell { s with recoveries := listDrop (fun y => y.key == r.key) s.recoveries }
theorem recoveryEnded_keeps (r : Recovery) (s : State) : (recoveryEnded r s).groups = s.groups ∧
    (recoveryEnded r s).obs.events = s.obs.events ∧ (recoveryEnded r s).clk = s.clk := by
  simp [recoveryEnded]
theorem recoveryEnded_mediaWork {c : Nat} (hs : Sound s) : MediaWork c 0 s (recoveryEnded r s) :=
  (MediaWork.of_same (s := s) (t := { s with recoveries := listDrop (fun y => y.key == r.key) s.recoveries }) { hs with } rfl rfl rfl
    rfl).andThen (dropRetry_mediaWork r.key r.cell)
/-- Where the only recovery has ended nothing else is under way. -/
theorem recoveryEnded_idle (hq : Quiet s) (hs : Sound s) (hr : s.recoveries = [r]) : Idle (recoveryEnded r s) :=
  ⟨(recoveryEnded_mediaWork hs (c := 0)).quiet hq, by simp [recoveryEnded, hr, listDrop]⟩
/-- A recovery that ends with the sector, nothing else being under way, counts and queues the repair (R265, R266). -/
theorem recovered_repairs (hq : Quiet s) (hs : Sound s) (hr : s.recoveries = [r]) (hwhy : r.why = .fill)
    (hd : r.degraded = false) (hl : (s.group r.addr.group).lostCol r.addr.stripe r.addr.column = false)
    (hc : (s.group r.addr.group).cellOf r.addr.stripe r.addr.column = r.cell) (x : Sector) {how : Nat} (hh : how < 16) :
    Sound (recovered r x how s) ∧ Idle (recovered r x how s) ∧
    (recovered r x how s).counter (cGroup r.addr.group how) = s.counter (cGroup r.addr.group how) + 1 ∧
    ∃ q ∈ ((recovered r x how s).cell r.cell).queue, q.addr = r.addr ∧ q.sector = x ∧ q.repair = true := by
  have ha := apart_cGroup r.addr.group hh
  have hend := recoveryEnded_mediaWork hs (r := r) (c := cGroup r.addr.group how)
  have hidle := recoveryEnded_idle hq hs hr
  have hgroups := (recoveryEnded_keeps r s).1
  have hrun : recovered r x how s = deliver .fill r.cls.toNat r.around r.addr x how
      (queueRepair r.cell r.addr x (bump (cGroup r.addr.group how) 1 (recoveryEnded r s))) := by
    unfold recovered
    rw [hd, hwhy]
    rfl
  rw [hrun]
  generalize recoveryEnded r s = u at hend hidle hgroups
  have hsb : Sound (bump (cGroup r.addr.group how) 1 u) := (bump_keeps ..).1 hend.sound
  have hgroup : (bump (cGroup r.addr.group how) 1 u).group r.addr.group = s.group r.addr.group := by
    unfold State.group
    rw [← hgroups]
    rfl
  obtain ⟨q, hmem, hrep⟩ := queueRepair_queue hsb (a := r.addr) (by rw [hgroup, hl]) (by rw [hgroup, hc]) x
  have hrepair := queueRepair_mediaWork (o := cGroup r.addr.group how) r.cell r.addr x hsb
  have hcount := hrepair.counter.trans (counter_bump_self hend.sound (cGroup r.addr.group how) 1)
  rw [hend.counter] at hcount
  have hidle := hrepair.idle (by simp) (hidle.of_same rfl rfl rfl rfl)
  have hsv := hrepair.sound
  generalize queueRepair r.cell r.addr x (bump (cGroup r.addr.group how) 1 u) = v at hmem hcount hidle hsv
  unfold deliver
  dsimp only
  rw [hidle.supply]
  have hwork : MediaWork (cGroup r.addr.group how) 0 v
      (settleBusy r.addr (if r.around then v else fillLine r.cls.toNat false r.addr x v)) :=
    (MediaWork.ite (.refl hsv) (fillLine_mediaWork ha _ _ _ _ hsv)).andThen (settleBusy_mediaWork _)
  have hcells : (settleBusy r.addr (if r.around then v else fillLine r.cls.toNat false r.addr x v)).cells = v.cells := by simp
  exact ⟨hwork.sound, hwork.idle (by simp) hidle, hwork.counter.trans hcount, q, by unfold State.cell; rw [hcells]; exact hmem, hrep⟩
/-- A recovery that fails, nothing else being under way, counts and is logged (R265). -/
theorem recoveryFailed_logs (hq : Quiet s) (hs : Sound s) (hr : s.recoveries = [r]) :
    Sound (recoveryFailed r s) ∧ Idle (recoveryFailed r s) ∧
    (recoveryFailed r s).counter (cGroup r.addr.group 3) = s.counter (cGroup r.addr.group 3) + 1 ∧
    (s.obs.events.length < 512 → ∃ e ∈ (recoveryFailed r s).obs.events, e.code = 0x0705 ∧ e.beat = s.clk.beat) := by
  have ha := apart_cGroup r.addr.group (i := 3) (by decide)
  have hend := recoveryEnded_mediaWork hs (r := r) (c := cGroup r.addr.group 3)
  have hidle := recoveryEnded_idle hq hs hr
  obtain ⟨-, hevents, hclk⟩ := recoveryEnded_keeps r s
  unfold recoveryFailed
  dsimp only
  rw [← recoveryEnded]
  generalize recoveryEnded r s = u at hend hidle hevents hclk
  have hlog := logEvent_mediaWork ha 0x0705 r.addr.group.val (r.addr.column + 256 * r.addr.sub) r.addr.stripe
    (s := bump (cGroup r.addr.group 3) 1 u) ((bump_keeps ..).1 hend.sound)
  have hidle := hlog.idle (by simp) (hidle.of_same rfl rfl rfl rfl)
  have hnone (f) (v : State) (hv : Idle v) : answerReads r.addr f v = v := by
    unfold answerReads
    rw [hv.no_media]
    rfl
  rw [hnone _ _ hidle]
  have hbusy {c : Nat} := settleBusy_mediaWork (o := c) r.addr hlog.sound
  refine ⟨(hbusy (c := 0)).sound, (hbusy (c := 0)).idle (by simp) hidle, ?_, fun hroom => ?_⟩
  · rw [hbusy.counter, hlog.counter, counter_bump_self hend.sound, hend.counter]
    rfl
  · obtain ⟨e, hmem, hcode, -, -, hbeat⟩ := logEvent_logged (s := bump (cGroup r.addr.group 3) 1 u) (by rw [← hevents] at hroom; exact hroom)
      0x0705 r.addr.group.val (r.addr.column + 256 * r.addr.sub) r.addr.stripe
    exact ⟨e, by simpa using hmem, hcode, hbeat.trans (by rw [← hclk]; rfl)⟩

end Retry

section RetryRows

variable {k : Nat} {r : Recovery} {o : SectorObs} {s : State} (h : RetryDue k r s) (hs : Sound s) (hq : Quiet s)
  (ho : o.offTrack = false)
include h hs hq ho

/-- A retry pass that delivers the verified sector ends its recovery and queues the repair (R265, R266). -/
theorem retryPass_repairs {x : Sector} (hx : o.img = some x) (hv : verified (s.group r.addr.group).d r.addr x = true)
    (hwhy : r.why = .fill) (hd : r.degraded = false)
    (hl : (s.group r.addr.group).lostCol r.addr.stripe r.addr.column = false)
    (hc : (s.group r.addr.group).cellOf r.addr.stripe r.addr.column = r.cell) :
    ∃ t, exec (.retryPass k o) s = .next t ∧ t.recoveries = [] ∧
      (∃ q ∈ (t.cell r.cell).queue, q.addr = r.addr ∧ q.sector = x ∧ q.repair = true) ∧
      t.counter (cGroup r.addr.group 2) = s.counter (cGroup r.addr.group 2) + 1 := by
  refine ⟨_, h.exec_retryPass o, ?_⟩
  rw [(h.retryPass_cases ho).1 x hx hv]
  have htry := Recovery.tried_mediaWork (cGroup_ne_cCell r.addr.group (i := 2) (by decide) r.cell 0x30) hs
  obtain ⟨hrec, -, hgroups, -, -⟩ := r.tried_keeps s
  have hgroup : (r.tried s).group r.addr.group = s.group r.addr.group := by unfold State.group; rw [hgroups]
  obtain ⟨hsound, hidle, hcount, q, hmem, hrep⟩ := recovered_repairs (htry.quiet hq) htry.sound (hrec.trans h.only) hwhy hd
    (by rw [hgroup, hl]) (by rw [hgroup, hc]) x (how := 2) (by decide)
  have hgo := hidle.goesOn hsound r.cell
  exact ⟨hgo.recoveries.trans hidle.recoveries, ⟨q, by rw [hgo.queue]; exact hmem, hrep⟩,
    (hgo.counter _ (apart_cGroup _ (by decide))).trans (hcount.trans (by rw [htry.counter]))⟩
/-- One that delivers nothing, below the sixteenth, counts (R265, R297). -/
theorem retryPass_counts (hx : o.img = none) (hp : r.parity = false) (hpass : r.pass < 15) :
    ∃ t, exec (.retryPass k o) s = .next t ∧ t.recoveries = [{ r with pass := r.pass + 1 }] ∧
      t.counter (cCell r.cell 0x30) = s.counter (cCell r.cell 0x30) + 1 ∧ t.reads = s.reads := by
  refine ⟨_, h.exec_retryPass o, ?_⟩
  rw [(h.retryPass_cases ho).2 hx, if_pos (by omega)]
  have htry := Recovery.tried_mediaWork (cGroup_ne_cCell 0 (i := 0) (by decide) r.cell 0x30) hs
  have hset := htry.andThen (setRecovery_mediaWork { r with pass := r.pass + 1 })
  obtain ⟨hrec, hreads, -, -, -⟩ := r.tried_keeps s
  have hnow : ((r.tried s).setRecovery { r with pass := r.pass + 1 }).recoveries = [{ r with pass := r.pass + 1 }] :=
    recoveries_setRecovery (hrec.trans h.only) rfl
  have hcount : (r.tried s).counter (cCell r.cell 0x30) = s.counter (cCell r.cell 0x30) + 1 :=
    counter_bump_self ((setCell_mediaWork (o := 0) _ _ (beginSector_mediaWork (o := 0) _ _ hs).sound).sound) _ _
  have hgo := (hset.quiet hq).goesOn hset.sound r.cell fun t ht => by
    rw [recheck_of_only (ht.trans hnow) rfl]
    exact checkRecovery_retrying (recovery_of_only (ht.trans hnow) rfl) h.won hp h.retry
  exact ⟨hgo.recoveries.trans hnow, (hgo.counter _ (apart_cCell _ (by decide) (by decide))).trans
    ((setRecovery_mediaWork _ htry.sound).counter.trans hcount), hgo.reads.trans ((by simp : _ = (r.tried s).reads).trans hreads)⟩
/-- The sixteenth, with no parity path left, fails the sub-block (R265). -/
theorem retryPass_fails (hx : o.img = none) (hp : r.parity = false) (hpass : r.pass = 15) :
    ∃ t, exec (.retryPass k o) s = .next t ∧ t.recoveries = [] ∧
      t.counter (cGroup r.addr.group 3) = s.counter (cGroup r.addr.group 3) + 1 ∧
      (s.obs.events.length < 512 → ∃ e ∈ t.obs.events, e.code = 0x0705 ∧ e.beat = s.clk.beat) := by
  refine ⟨_, h.exec_retryPass o, ?_⟩
  rw [(h.retryPass_cases ho).2 hx, if_neg (by omega)]
  have htry := Recovery.tried_mediaWork (cGroup_ne_cCell r.addr.group (i := 3) (by decide) r.cell 0x30) hs
  obtain ⟨hrec, -, -, hclk, hevents⟩ := r.tried_keeps s
  generalize hw : ({ r with pass := r.pass + 1, retry := false } : Recovery) = w
  obtain ⟨haddr, hkey, hretry, hwon, hpar⟩ : w.addr = r.addr ∧ w.key = r.key ∧ w.retry = false ∧ w.won = none ∧ w.parity = false := by
    subst hw
    exact ⟨rfl, rfl, rfl, h.won, hp⟩
  have hset := (htry.andThen (setRecovery_mediaWork w)).andThen (dropRetry_mediaWork k r.cell)
  have hsame : (dropRetry k r.cell ((r.tried s).setRecovery w)).obs = (r.tried s).obs ∧
      (dropRetry k r.cell ((r.tried s).setRecovery w)).clk = (r.tried s).clk := by simp
  have hnow : (dropRetry k r.cell ((r.tried s).setRecovery w)).recoveries = [w] := by
    simpa using recoveries_setRecovery (hrec.trans h.only) hkey.symm
  generalize dropRetry k r.cell ((r.tried s).setRecovery w) = u at hset hsame hnow
  rw [checkRecovery_fails (recovery_of_only hnow (hkey.trans h.key)) hwon hpar hretry]
  obtain ⟨hsound, hidle, hcount, hlog⟩ := recoveryFailed_logs (hset.quiet hq) hset.sound hnow
  have hgo := hidle.goesOn hsound r.cell
  refine ⟨hgo.recoveries.trans hidle.recoveries, ?_, fun hroom => ?_⟩
  · rw [hgo.counter _ (apart_cGroup _ (by decide)), ← haddr, hcount, haddr, hset.counter]
  · obtain ⟨e, hmem, hcode, hbeat⟩ := hlog (by rw [hsame.1, hevents]; exact hroom)
    exact ⟨e, by rw [hgo.events]; exact hmem, hcode, by rw [hbeat, hsame.2, hclk]⟩

end RetryRows

/-- Settles O54: each pass ends its read or its recovery or leaves it as it was, and nothing else goes on. -/
theorem sectorsAreRead : Obligations.SectorsAreRead := by
  unfold Obligations.SectorsAreRead
  intro s k o hs hq hserv
  refine ⟨fun r hrec hfound himg hwhy hpath hlost hcell hread htrack => ?_, fun r hrec hkey hretry hwon hbuf hread htrack ho => ?_⟩
  · have h : ReadDue k r s := ⟨hserv, hfound, himg, hwhy, hpath, hlost, hcell, hread, htrack⟩
    have hi : Idle s := ⟨hq, hrec⟩
    exact ⟨fun ho => ⟨fun x hx hv => sectorRead_settles h hs hi ho hx hv, fun hx => sectorRead_recovers h hs hi ho hx⟩,
      fun ho => sectorRead_abandoned h hs hi ho⟩
  · have h : RetryDue k r s := ⟨hserv, hrec, hkey, hretry, hwon, hbuf, hread, htrack⟩
    exact ⟨fun x hx hv hwhy hdeg hlost hcell => retryPass_repairs h hs hq ho hx hv hwhy hdeg hlost hcell,
      fun hx hp hpass => retryPass_counts h hs hq ho hx hp hpass, fun hx hp hpass => retryPass_fails h hs hq ho hx hp hpass⟩

/-! Rows as background work reads and repairs them: none of it is written, and the counter of scrubbed stripes stands. -/

section Rows

variable {g : GroupId} {s : State}

theorem scrubbed_apart (g : GroupId) : Apart (cGroup g 8) := apart_cGroup g (by decide)
/-- What is counted under another number of a group leaves the counter of scrubbed stripes. -/
theorem groupBump_mediaWork (h : GroupId) {i : Nat} (hi : i < 16) (hne : 8 ≠ i) (n : Nat) (hs : Sound s) :
    MediaWork (cGroup g 8) 0 s (bump (cGroup h i) n s) := .bump (cGroup_ne g h (by decide) hi hne) n hs
theorem readCol_mediaWork (cls : Nat) (x : Group) (a : SubAddr) (row : List RowRead) (c : Nat) (hs : Sound s) :
    MediaWork (cGroup g 8) 0 s (readCol cls x a row c s).2 := by
  have hpass (ob : SectorObs) (good : Bool) : MediaWork (cGroup g 8) 0 s (countPass (x.cellOf a.stripe c) (16 * a.stripe + a.sub) ob
      good (beginSector (x.cellOf a.stripe c) (16 * a.stripe + a.sub) s)) :=
    (beginSector_mediaWork _ _ hs).andThen (countPass_mediaWork (fun y => cGroup_ne_cCell g (by decide) _ y) _ ob good)
  unfold readCol
  dsimp only
  split
  · exact .refl hs
  · split
    · exact countHit_mediaWork (scrubbed_apart g) _ hs
    · split
      · exact (hpass _ _).andThen (keepRow_mediaWork (scrubbed_apart g) _ _ _)
      · split
        · split
          · exact ((((hpass _ _).andThen (.bump (cGroup_ne_cCell g (by decide) _ 0x30) 1)).andThen
              (groupBump_mediaWork a.group (by decide) (by decide) 1)).andThen (queueRepair_mediaWork _ _ _)).andThen
              (keepRow_mediaWork (scrubbed_apart g) _ _ _)
          · exact hpass _ _
        · exact hpass _ _
theorem readCols_mediaWork (cls : Nat) (x : Group) (a : SubAddr) (row : List RowRead) (enough : List (Nat × Sector) → Bool) :
    ∀ (cols : List Nat) (acc : List (Nat × Sector) × State), Sound acc.2 →
      MediaWork (cGroup g 8) 0 acc.2 (readCols cls x a row enough cols acc).2
  | [], _, hs => .refl hs
  | c :: cols, acc, hs => by
    have hnext : MediaWork (cGroup g 8) 0 acc.2 (readNext cls x a row enough acc c).2 := by
      unfold readNext
      split
      · exact .refl hs
      · exact readCol_mediaWork cls x a row c hs
    exact hnext.andThen (readCols_mediaWork cls x a row enough cols _)
theorem readRow_mediaWork (cls own : Nat) (x : Group) (a : SubAddr) (row : List RowRead) (hs : Sound s) :
    MediaWork (cGroup g 8) 0 s (readRow cls own x a row s).2 :=
  (readCols_mediaWork cls x a row _ _ ([], s) hs).andThen (readCols_mediaWork cls x a row _ _ _)
theorem repairCols_mediaWork (x : Group) (a : SubAddr) (got : List (Nat × Sector)) (cols : List Nat) (hs : Sound s) :
    MediaWork (cGroup g 8) 0 s (repairCols x a got cols s) := by
  unfold repairCols
  refine .foldl_zero (fun u c hu => ?_) _ hs
  dsimp only
  split
  · exact (groupBump_mediaWork a.group (by decide) (by decide) 1 hu).andThen (queueRepair_mediaWork _ _ _)
  · exact .refl hu
/-- Producing a sub-block of the rebuilt column reads and queues repairs, and writes nothing (R260, R268). -/
theorem produce_mediaWork (x : Group) (a : SubAddr) (row : List RowRead) (hs : Sound s) :
    MediaWork (cGroup g 8) 0 s (produce x a row s).2 := by
  unfold produce
  dsimp only
  split
  · exact (readRow_mediaWork 3 _ x a row hs).andThen (repairCols_mediaWork x a _ _)
  · have hown := readCol_mediaWork (g := g) 3 x a row a.column hs
    have hrow := hown.andThen (readRow_mediaWork 3 a.column x a row)
    split
    · exact hown
    · split
      · exact (hrow.andThen (groupBump_mediaWork a.group (by decide) (by decide) 1)).andThen (queueRepair_mediaWork _ _ _)
      · exact hrow
theorem scrubRepair_mediaWork (x : Group) (a : SubAddr) (got : List (Nat × Sector)) (hs : Sound s) :
    MediaWork (cGroup g 8) 0 s (scrubRepair x a got s).2 :=
  (repairCols_mediaWork x a got _ hs).andThen (groupBump_mediaWork a.group (by decide) (by decide) _)
theorem scrubParity_mediaWork (x : Group) (a : SubAddr) (got : List (Nat × Sector)) (hs : Sound s) :
    MediaWork (cGroup g 8) 0 s (scrubParity x a got s) := by
  unfold scrubParity
  split
  · exact .refl hs
  · refine .foldl_zero (fun u k hu => ?_) _ hs
    unfold scrubCheck
    dsimp only
    split
    · split
      · exact .refl hu
      · exact (((enqueueWrite_mediaWork _ _ _ hu).andThen (updCached_mediaWork _ _)).andThen
          (groupBump_mediaWork a.group (by decide) (by decide) 1)).andThen (logEvent_mediaWork (scrubbed_apart g) _ _ _ _)
    · exact .refl hu

end Rows

/-! Sectors written in the background. -/

section Writes

variable {g : GroupId} {i : Nat} {s : State}

/-- A sector put on a cell is one more on media, and counts for no group (R295). -/
theorem putSector_mediaWork (hi : i < 16) (c : CellId) (a : SubAddr) (x : Sector) (hs : Sound s) :
    MediaWork (cGroup g i) 1 s (putSector c a x s) := by
  have hbegin := beginSector_mediaWork (o := cGroup g i) c (16 * a.stripe + a.sub) hs
  unfold putSector
  refine hbegin.andThen (n := 1) fun hu => ⟨(writeOn_keeps ..).1 hu, ?_, fun h => ⟨?_, ?_, ?_⟩, counter_writeOn_group hu c a x g hi⟩
  · rw [writeOn_obs]
    simp
  · simpa using h.jobs
  · simpa using h.waits
  · exact (dropMarks_replaying ..).trans h.replay
/-- A column is 16 sectors (R251). -/
theorem writeColumn_mediaWork (hi : i < 16) (c : CellId) (h : GroupId) (stripe col : Nat) (f : Nat → Sector) (hs : Sound s) :
    MediaWork (cGroup g i) 16 s (writeColumn c h stripe col f s) := by
  simpa [writeColumn] using MediaWork.foldl (n := 1) (fun _ k hu => putSector_mediaWork hi c ⟨h, stripe, col, k⟩ (f k) hu) (List.range 16) hs

end Writes

/-! Groups. -/

/-- A group depends on the groups alone. -/
theorem group_of_groups {s t : State} (h : t.groups = s.groups) (g : GroupId) : t.group g = s.group g := by
  unfold State.group
  rw [h]
theorem updGroup_mediaWork {o : Nat} {s : State} (g : GroupId) (f : Group → Group) (hs : Sound s) : MediaWork o 0 s (s.updGroup g f) :=
  .of_same ((State_updGroup_keeps ..).1 hs) rfl rfl rfl rfl
@[simp] theorem logEvent_group (c i a b : Nat) (s : State) (g : GroupId) : (logEvent c i a b s).group g = s.group g :=
  group_of_groups (by simp) g
@[simp] theorem bump_group (o n : Nat) (s : State) (g : GroupId) : (bump o n s).group g = s.group g := rfl

/-! Initialisation (R259). -/

section Init

variable {s : State} {g : GroupId}

/-- The stripe at the front of `x` is written on every ONLINE member. -/
def initMembers (x : Group) (g : GroupId) (s : State) : State :=
  ((List.range x.n).filter (fun m => !x.failed.contains m)).foldl (fun s m => writeColumn (x.members.getD m 0) g x.initFront
    (x.columnOf x.initFront m) (fun k => zeroSector x ⟨g, x.initFront, x.columnOf x.initFront m, k⟩) s) s
/-- And on the spare, where there is one. -/
def initSpare (x : Group) (g : GroupId) (s : State) : State :=
  match x.spare with
  | some c => writeColumn c g x.initFront (spareColumn x x.initFront s).1
      (fun k => zeroSector x ⟨g, x.initFront, (spareColumn x x.initFront s).1, k⟩) (spareColumn x x.initFront s).2
  | none => s
theorem initMembers_mediaWork (x : Group) (hs : Sound s) : MediaWork (cGroup g 5)
    (16 * ((List.range x.n).filter (fun m => !x.failed.contains m)).length) s (initMembers x g s) :=
  .foldl (fun _ _ hu => writeColumn_mediaWork (by decide) _ _ _ _ _ hu) _ hs
theorem initSpare_mediaWork (x : Group) (hs : Sound s) : MediaWork (cGroup g 5) (16 * bit x.spare.isSome) s (initSpare x g s) := by
  unfold initSpare
  cases x.spare with
  | none => exact .refl hs
  | some c =>
    have hdraw : MediaWork (cGroup g 5) 0 s (spareColumn x x.initFront s).2 := by
      unfold spareColumn
      split
      · exact .refl hs
      · exact .of_same { hs with } rfl rfl rfl rfl
    exact hdraw.andThen (n := 16) fun hu => writeColumn_mediaWork (by decide) _ _ _ _ _ hu
theorem initMembers_groups (x : Group) (s : State) : (initMembers x g s).groups = s.groups := by simp [initMembers]
theorem initSpare_groups (x : Group) (s : State) : (initSpare x g s).groups = s.groups := by
  unfold initSpare spareColumn
  (repeat' split) <;> simp [freeWord]
/-- The front moves on by one, the stripe is counted, and the last one is logged. -/
theorem initStripe_due (hserv : s.inService = true) (hdef : (s.group g).defined = true) (hdown : (s.group g).down = false)
    (hfront : (s.group g).initFront < (s.group g).stripes) (hidle : groupIdle (s.group g) s = true)
    (hreb : (s.group g).rebuild.active = false) : ∃ u : State,
    u = bump (cGroup g 5) 1 ((initSpare (s.group g) g (initMembers (s.group g) g s)).updGroup g
      (fun y => { y with initFront := (s.group g).initFront + 1 })) ∧
    initStripe g s = if (s.group g).initFront + 1 = (s.group g).stripes then logEvent 0x0703 g.val 0 0 u else u := by
  refine ⟨_, rfl, ?_⟩
  unfold initStripe
  dsimp only
  rw [hserv, hdef, hdown, hidle, hreb, decide_eq_false (by omega), if_neg (by decide)]
  simp only [Bool.false_and, Bool.false_eq_true, if_false]
  rfl
/-- An initialised stripe is on media whole, and nothing else of the groups changes. -/
theorem initStripe_writes (hs : Sound s) (hserv : s.inService = true) (hdef : (s.group g).defined = true)
    (hdown : (s.group g).down = false) (hfront : (s.group g).initFront < (s.group g).stripes)
    (hidle : groupIdle (s.group g) s = true) (hreb : (s.group g).rebuild.active = false) :
    (initStripe g s).group g = { s.group g with initFront := (s.group g).initFront + 1 } ∧
    (initStripe g s).counter (cGroup g 5) = s.counter (cGroup g 5) + 1 ∧
    (initStripe g s).obs.media.length = s.obs.media.length +
      16 * (((List.range (s.group g).n).filter (fun m => !(s.group g).failed.contains m)).length + bit (s.group g).spare.isSome) ∧
    ∀ h, h ≠ g → (initStripe g s).group h = s.group h := by
  obtain ⟨u, hu, hrun⟩ := initStripe_due hserv hdef hdown hfront hidle hreb
  have hwrite := (initMembers_mediaWork (g := g) (s.group g) hs).andThen (initSpare_mediaWork (g := g) (s.group g))
  have hgroup (h : GroupId) : (initSpare (s.group g) g (initMembers (s.group g) g s)).group h = s.group h :=
    group_of_groups (by rw [initSpare_groups, initMembers_groups]) h
  generalize initSpare (s.group g) g (initMembers (s.group g) g s) = v at hu hwrite hgroup
  have hupd := hwrite.andThen (updGroup_mediaWork g fun y => { y with initFront := (s.group g).initFront + 1 })
  have hlog : MediaWork (cGroup g 5) 0 u (initStripe g s) := by
    have hsu : Sound u := hu ▸ (bump_keeps ..).1 hupd.sound
    rw [hrun]
    exact .ite (logEvent_mediaWork (apart_cGroup g (by decide)) _ _ _ _ hsu) (.refl hsu)
  have hsame (h : GroupId) : (initStripe g s).group h = u.group h := by
    rw [hrun]
    split
    · exact logEvent_group ..
    · rfl
  refine ⟨?_, ?_, ?_, fun h hne => ?_⟩
  · rw [hsame, hu, bump_group, group_updGroup_self hwrite.sound, hgroup]
  · rw [hlog.counter, hu, counter_bump_self hupd.sound, hupd.counter]
    rfl
  · rw [hlog.media, hu]
    exact hupd.media.trans (by omega)
  · rw [hsame, hu, bump_group, group_updGroup_ne hwrite.sound hne, hgroup]

end Init

/-! Rows whose reads all stay on the track. -/

/-- None of the reads that the command gives is abandoned (R315). -/
def NoneOffTrack (row : List RowRead) : Prop := ∀ o ∈ row, o.first.offTrack = false
theorem rowObs_onTrack {row : List RowRead} (h : NoneOffTrack row) (c : Nat) : (rowObs row c).first.offTrack = false := by
  unfold rowObs
  rw [List.getD_eq_getElem?_getD]
  cases hc : row[c]? with
  | none => rfl
  | some o => exact h o (List.mem_of_getElem? hc)
theorem rowOnTrack_of {row : List RowRead} (h : NoneOffTrack row) (x : Group) (a : SubAddr) (s : State) : rowOnTrack x a row s = true := by
  unfold rowOnTrack
  rw [List.all_eq_true]
  intro c _
  rw [rowObs_onTrack h c]
  rfl
theorem noneOffTrack_getD {rows : List (List RowRead)} (h : ∀ l ∈ rows, NoneOffTrack l) (k : Nat) : NoneOffTrack (rows.getD k []) := by
  rw [List.getD_eq_getElem?_getD]
  cases hk : rows[k]? with
  | none => exact fun _ h0 => nomatch h0
  | some l => exact h l (List.mem_of_getElem? hk)

/-! Rebuild (R269, R270, R271). -/

section Rebuild

variable {s : State} {g : GroupId}

/-- The group with `k` sub-blocks of the column at its rebuild front on the spare, and their credit taken. -/
def Group.rebuiltTo (x : Group) (k : Nat) : Group :=
  { x with rebuild := { x.rebuild with sub := k, credit := x.rebuild.credit - 4096 * k } }
theorem Group.rebuiltTo_zero {x : Group} (h : x.rebuild.sub = 0) : x.rebuiltTo 0 = x := by
  obtain ⟨_, _, _, _, _, _, _, _, ⟨_, _, _, _, _, _, _, _, _⟩, _⟩ := x
  obtain rfl := h
  rfl
/-- A sub-block of the rebuilt column is produced, or lost and logged, and is one more sector on media (R269). -/
theorem rebuildSub_mediaWork (c : CellId) (x : Group) (a : SubAddr) (row : List RowRead) (hs : Sound s) :
    MediaWork (cGroup g 8) 1 s (rebuildSub c x a row s) := by
  have hprod := (produce_mediaWork (g := g) x a row hs).andThen (updGroup_mediaWork a.group (fun y => { y with rebuild :=
    { y.rebuild with sub := a.sub + 1, credit := y.rebuild.credit - 4096 } }))
  have hput (y : Sector) := hprod.andThen (putSector_mediaWork (g := g) (i := 8) (by decide) c a y)
  unfold rebuildSub
  dsimp only
  split
  · exact hput _
  · exact ((hput _).andThen (groupBump_mediaWork a.group (by decide) (by decide) 1)).andThen
      (logEvent_mediaWork (scrubbed_apart g) _ _ _ _)
theorem rebuildSub_group (c : CellId) (x : Group) (a : SubAddr) (row : List RowRead) (hs : Sound s) :
    (rebuildSub c x a row s).group a.group = { s.group a.group with rebuild := { (s.group a.group).rebuild with
      sub := a.sub + 1, credit := (s.group a.group).rebuild.credit - 4096 } } := by
  have hput (y : Sector) (u : State) : (putSector c a y u).group a.group = u.group a.group := group_of_groups (by simp [putSector]) _
  have hprod : (produce x a row s).2.group a.group = s.group a.group := group_of_groups (by simp) _
  have hsp := (produce_mediaWork (g := 0) x a row hs).sound
  unfold rebuildSub
  dsimp only
  split
  · rw [hput, group_updGroup_self hsp, hprod]
  · rw [logEvent_group, bump_group, hput, group_updGroup_self hsp, hprod]
/-- What a rebuild does for sub-block `k` of the stripe at its front (R270). -/
def rebuildAt (g : GroupId) (c : CellId) (rows : List (List RowRead)) (s : State) (k : Nat) : State :=
  let x := s.group g
  let a : SubAddr := ⟨g, x.rebuild.front, x.columnOf x.rebuild.front x.rebuild.member, k⟩
  if x.rebuild.sub = k ∧ 4096 ≤ x.rebuild.credit then
    (if rowOnTrack x a (rows.getD k []) s then rebuildSub c x a (rows.getD k []) s
     else countOffTrack x a (rows.getD k []) s)
  else s
theorem rebuildSubs_eq (c : CellId) (rows : List (List RowRead)) : rebuildSubs g c rows s = (List.range 16).foldl (rebuildAt g c rows) s :=
  rfl
/-- With the credit for all of them, the first `n` sub-blocks of the column are written one after another. -/
theorem rebuildAt_writes (hs : Sound s) (c : CellId) {rows : List (List RowRead)} (hrows : ∀ l ∈ rows, NoneOffTrack l)
    (hcredit : 65536 ≤ (s.group g).rebuild.credit) (hsub : (s.group g).rebuild.sub = 0) :
    ∀ n ≤ 16, MediaWork (cGroup g 8) n s ((List.range n).foldl (rebuildAt g c rows) s) ∧
      ((List.range n).foldl (rebuildAt g c rows) s).group g = (s.group g).rebuiltTo n
  | 0, _ => ⟨.refl hs, (Group.rebuiltTo_zero hsub).symm⟩
  | n + 1, hn => by
    obtain ⟨hwork, hgroup⟩ := rebuildAt_writes hs c hrows hcredit hsub n (by omega)
    rw [List.range_succ, List.foldl_append]
    generalize (List.range n).foldl (rebuildAt g c rows) s = u at hwork hgroup
    have hdue : (u.group g).rebuild.sub = n ∧ 4096 ≤ (u.group g).rebuild.credit := by
      rw [hgroup]
      exact ⟨rfl, by unfold Group.rebuiltTo; dsimp only; omega⟩
    show MediaWork _ _ _ (rebuildAt g c rows u n) ∧ (rebuildAt g c rows u n).group g = _
    unfold rebuildAt
    dsimp only
    rw [if_pos hdue, if_pos (rowOnTrack_of (noneOffTrack_getD hrows n) ..)]
    refine ⟨hwork.andThen (rebuildSub_mediaWork c _ _ _), ?_⟩
    rw [rebuildSub_group c _ ⟨g, _, _, n⟩ _ hwork.sound, hgroup]
    unfold Group.rebuiltTo
    simp [Nat.mul_succ, Nat.sub_sub]

/-- A rebuild may take the stripe at its front to the spare `c`: the group is not FAILED and the stripe is initialised (R269). -/
structure RebuildDue (g : GroupId) (c : CellId) (s : State) : Prop where
  service : s.inService = true
  spare : (s.group g).spare = some c
  active : (s.group g).rebuild.active = true
  up : (s.group g).down = false
  stripes : (s.group g).rebuild.front < (s.group g).stripes
  front : (s.group g).rebuild.front < (s.group g).initFront
/-- A stripe with live records is not taken; its dirty sub-blocks are queued for destage (R269). -/
theorem rebuildStripe_waits {c : CellId} (h : RebuildDue g c s) (hlive : stripeLive g (s.group g).rebuild.front s = true)
    (rows : List (List RowRead)) : rebuildStripe g rows s = queueStripe g (s.group g).rebuild.front s := by
  unfold rebuildStripe
  dsimp only
  rw [h.spare]
  dsimp only
  rw [h.service, h.active, h.up, decide_eq_false (by have := h.stripes; have := h.front; omega), if_neg (by decide), if_pos hlive]
theorem queueStripe_line (hs : Sound s) (st k : Nat) (hg : (s.line k).group = g) (hst : (s.line k).stripe = st) :
    (queueStripe g st s).line k = (s.line k).queueAll := by
  have hread := Tab.get_mapAll ({} : Line) (fun _ l => if l.group = g ∧ l.stripe = st then l.queueAll else l)
    (fun _ => by split <;> rfl) s.cache.lines k none hs.lines
  exact hread.trans (if_pos ⟨hg, hst⟩)
/-- The group whose rebuild has written the stripe at its front (R269, R270). -/
def Group.stripeRebuilt (x : Group) : Group :=
  { x with rebuild := { x.rebuild with front := x.rebuild.front + 1, sub := 0, credit := x.rebuild.credit - 65536 } }
/-- The group whose rebuild is at its end: the spare `c` is the member (R271). -/
def Group.rebuildEnded (x : Group) (c : CellId) : Group :=
  { x with members := x.members.set x.rebuild.member c, failed := x.failed.filter (· != x.rebuild.member), spare := none, rebuild := {} }
/-- The column of a stripe without live records is written to the spare, and the front moves on by one; past the last stripe the
spare becomes the member (R269, R270, R271). -/
theorem rebuildStripe_writes {c : CellId} (h : RebuildDue g c s) (hs : Sound s)
    (hlive : stripeLive g (s.group g).rebuild.front s = false) (hcredit : 65536 ≤ (s.group g).rebuild.credit)
    (hsub : (s.group g).rebuild.sub = 0) (hidle : groupIdle (s.group g) s = true) {rows : List (List RowRead)}
    (hrows : ∀ l ∈ rows, NoneOffTrack l) :
    MediaWork (cGroup g 8) 16 s (rebuildStripe g rows s) ∧ (rebuildStripe g rows s).group g =
      if (s.group g).rebuild.front + 1 = (s.group g).stripes then (s.group g).rebuildEnded c else (s.group g).stripeRebuilt := by
  obtain ⟨hwork, hgroup⟩ := rebuildAt_writes hs c hrows hcredit hsub 16 le_rfl
  unfold rebuildStripe
  dsimp only
  rw [h.spare]
  dsimp only
  rw [h.service, h.active, h.up, decide_eq_false (by have := h.stripes; have := h.front; omega), if_neg (by decide), hlive,
    if_neg (by decide), hidle, if_neg (by decide), rebuildSubs_eq]
  generalize (List.range 16).foldl (rebuildAt g c rows) s = u at hwork hgroup
  rw [if_neg (by rw [hgroup]; exact Nat.lt_irrefl 16)]
  generalize hv : bump (cGroup g 6) 1 (u.updGroup g fun y => { y with rebuild := { y.rebuild with
    front := (s.group g).rebuild.front + 1, sub := 0 } }) = v
  have hvwork : MediaWork (cGroup g 8) 16 s v := by
    subst hv
    exact (hwork.andThen (updGroup_mediaWork g _)).andThen (groupBump_mediaWork g (by decide) (by decide) 1)
  have hvgroup : v.group g = (s.group g).stripeRebuilt := by
    subst hv
    rw [bump_group, group_updGroup_self hwork.sound, hgroup]
    rfl
  split
  · have hend : rebuildEnd g v = logEvent 0x0707 g.val c.val 0 (v.setGroup g ((s.group g).rebuildEnded c)) := by
      unfold rebuildEnd
      dsimp only
      rw [hvgroup]
      unfold Group.stripeRebuilt
      dsimp only
      rw [h.spare]
      rfl
    rw [hend]
    have hset : MediaWork (cGroup g 8) 16 s (v.setGroup g ((s.group g).rebuildEnded c)) :=
      hvwork.andThen (n := 0) fun hu => .of_same ((State_setGroup_keeps ..).1 hu) rfl rfl rfl rfl
    exact ⟨hset.andThen (logEvent_mediaWork (scrubbed_apart g) _ _ _ _),
      (logEvent_group ..).trans (group_setGroup_self hvwork.sound g _)⟩
  · exact ⟨hvwork, hvgroup⟩

end Rebuild

/-! Scrub (R273). -/

section Scrub

variable {s : State} {g : GroupId}

/-- The group whose scrub moves on to sub-block `sub` of stripe `front` with the credit for a row taken. -/
def Group.scrubbedTo (x : Group) (front sub : Nat) : Group :=
  { x with scrub := { x.scrub with front, sub, credit := x.scrub.credit - 4096 * x.n } }
/-- The scrub front moves past a row. -/
theorem scrubNext_within (hs : Sound s) (hsub : (s.group g).scrub.sub < 15) :
    (scrubNext g s).group g = (s.group g).scrubbedTo (s.group g).scrub.front ((s.group g).scrub.sub + 1) ∧
    ∀ h, h ≠ g → (scrubNext g s).group h = s.group h := by
  unfold scrubNext
  dsimp only
  have hcredit := (State_updGroup_keeps s g fun y => { y with scrub := { y.scrub with credit := y.scrub.credit - 4096 * y.n } }).1 hs
  rw [if_pos hsub]
  refine ⟨?_, fun h hne => ?_⟩
  · rw [group_updGroup_self hcredit, group_updGroup_self hs]
    rfl
  · rw [group_updGroup_ne hcredit hne, group_updGroup_ne hs hne]
/-- Past the last row of a stripe that is not the last, the stripe is counted. -/
theorem scrubNext_stripe (hs : Sound s) (hsub : (s.group g).scrub.sub = 15)
    (hfront : (s.group g).scrub.front + 1 < (s.group g).initFront) :
    (scrubNext g s).group g = (s.group g).scrubbedTo ((s.group g).scrub.front + 1) 0 ∧
    (scrubNext g s).counter (cGroup g 8) = s.counter (cGroup g 8) + 1 := by
  unfold scrubNext
  dsimp only
  have hcredit := (State_updGroup_keeps s g fun y => { y with scrub := { y.scrub with credit := y.scrub.credit - 4096 * y.n } }).1 hs
  rw [if_neg (by omega), if_pos hfront]
  refine ⟨?_, counter_bump_self hcredit (cGroup g 8) 1⟩
  rw [group_updGroup_self ((bump_keeps ..).1 hcredit), bump_group, group_updGroup_self hs]
  rfl
/-- Where a row may be scrubbed it is read, repaired and compared, and the front moves past it; the groups are as they were till then. -/
theorem scrubRow_due (hs : Sound s) (hserv : s.inService = true) (hact : (s.group g).scrub.active = true)
    (hst : (s.group g).state = 0) (hfront : (s.group g).scrub.front < (s.group g).initFront)
    (hlive : stripeLive g (s.group g).scrub.front s = false) (hcredit : 4096 * (s.group g).n ≤ (s.group g).scrub.credit)
    (hidle : groupIdle (s.group g) s = true) {row : List RowRead} (hrow : NoneOffTrack row) :
    ∃ u, scrubRow g row s = scrubNext g u ∧ MediaWork (cGroup g 8) 0 s u ∧ u.groups = s.groups ∧ u.recoveries = s.recoveries := by
  unfold scrubRow
  dsimp only
  rw [hserv, hact, hst, decide_eq_false (by omega), if_neg (by decide), hlive, decide_eq_false (by omega), hidle, if_neg (by decide),
    rowOnTrack_of hrow, if_neg (by decide)]
  refine ⟨_, rfl, ?_, by simp, by simp⟩
  generalize (⟨g, (s.group g).scrub.front, 0, (s.group g).scrub.sub⟩ : SubAddr) = a
  have hrepair (got) := (readCols_mediaWork (g := g) 4 (s.group g) a row (fun _ => false) (List.range (s.group g).n) ([], s) hs).andThen
    (scrubRepair_mediaWork (s.group g) a got)
  exact .ite ((hrepair _).andThen (scrubParity_mediaWork _ _ _)) (hrepair _)

end Scrub

/-- Settles O58: each row's work is followed through what it writes and the group it moves on; nothing else is waiting. -/
theorem backgroundRows : Obligations.BackgroundRows := by
  unfold Obligations.BackgroundRows
  intro s g rows row hs hq hrec hserv htrack
  have hi : Idle s := ⟨hq, hrec⟩
  have hrow : NoneOffTrack row := htrack row List.mem_cons_self
  have hrows : ∀ l ∈ rows, NoneOffTrack l := fun l hl => htrack l (List.mem_cons_of_mem _ hl)
  refine ⟨fun hdef hdown hfront hidle hreb => ⟨_, rfl, initStripe_writes hs hserv hdef hdown hfront hidle hreb⟩,
    fun c hspare hact hdown hstripes hfront => ?_, fun hact hst hfront hlive hcredit hidle => ?_⟩
  · have h : RebuildDue g c s := ⟨hserv, hspare, hact, hdown, hstripes, hfront⟩
    refine ⟨fun hlive => ?_, fun hlive hcredit hsub hidle => ?_⟩
    · obtain ⟨p, o, hmove⟩ := Idle.moveOn (s := queueStripe g (s.group g).rebuild.front s) (hi.of_same rfl rfl rfl rfl)
      refine ⟨_, congrArg (fun u => Host.Outcome.next (moveOn u)) (rebuildStripe_waits h hlive rows), ?_, fun k hg hst => ?_⟩
      · rw [hmove]
        rfl
      · rw [hmove]
        exact queueStripe_line hs _ k hg hst
    · obtain ⟨hwork, hgroup⟩ := rebuildStripe_writes h hs hlive hcredit hsub hidle hrows
      obtain ⟨p, o, hmove⟩ := (hwork.idle (by simp) hi).moveOn
      have hmoved : (moveOn (rebuildStripe g rows s)).group g = (rebuildStripe g rows s).group g := by rw [hmove]; rfl
      have hmedia : (moveOn (rebuildStripe g rows s)).obs.media.length = s.obs.media.length + 16 := by rw [hmove]; exact hwork.media
      refine ⟨fun hnext => ⟨_, rfl, ?_⟩, fun hlast => ⟨_, rfl, ?_⟩⟩
      · rw [hmoved, hgroup, if_neg (by omega)]
        exact ⟨rfl, rfl, rfl, hmedia⟩
      · rw [hmoved, hgroup, if_pos hlast]
        exact ⟨rfl, rfl, rfl, rfl, hmedia⟩
  · obtain ⟨u, hrun, hwork, hgroups, hrecs⟩ := scrubRow_due hs hserv hact hst hfront hlive hcredit hidle hrow
    have hgroup (h : GroupId) : u.group h = s.group h := group_of_groups hgroups h
    obtain ⟨p, o, hmove⟩ := Idle.moveOn (s := scrubNext g u) ((hwork.idle hrecs hi).of_same (by simp) (by simp) (by simp) (by simp))
    have hnext : exec (.scrubRow g row) s = .next (moveOn (scrubNext g u)) := congrArg (fun u => Host.Outcome.next (moveOn u)) hrun
    have hmoved (h : GroupId) : (moveOn (scrubNext g u)).group h = (scrubNext g u).group h := by rw [hmove]; rfl
    refine ⟨fun hsub => ⟨_, hnext, ?_⟩, fun hsub hmore => ⟨_, hnext, ?_⟩⟩
    · obtain ⟨hself, hothers⟩ := scrubNext_within hwork.sound (g := g) (by rw [hgroup]; exact hsub)
      rw [hmoved, hself, hgroup]
      exact ⟨rfl, rfl, rfl, fun h hne => by rw [hmoved, hothers h hne, hgroup]⟩
    · obtain ⟨hself, hcount⟩ := scrubNext_stripe hwork.sound (g := g) (by rw [hgroup]; exact hsub) (by rw [hgroup]; exact hmore)
      rw [hmoved, hself, hgroup]
      refine ⟨rfl, rfl, ?_⟩
      rw [hmove]
      exact hcount.trans (by rw [hwork.counter])

end Sys2Proof.Machine

/-! ## A step runs the front command, and goes on (O1, O6) -/

namespace Sys2Proof.Machine

/-- Settles O1. -/
theorem stepRunsFrontCommand : Obligations.StepRunsFrontCommand := by
  intro s c r hq
  simp only [step, hq]

/-- What SUPPLY_LOSS faults on is a reading above the rail's absolute maximum (R377). -/
theorem exec_supplyLoss_cases (rail : Fin 4) (mv : Nat) (s : State) :
    (∃ t, exec (.supplyLoss rail mv) s = .next t ∧ t.pending = s.pending) ∨
    (([900, 1050, 2100, 2100] : List Nat).getD rail.val 0 < mv ∧ exec (.supplyLoss rail mv) s = .fault .ratingExceeded) := by
  have hmax : (supplyRange rail).2.2 = ([900, 1050, 2100, 2100] : List Nat).getD rail.val 0 := by
    fin_cases rail <;> rfl
  simp only [exec, execSupplyLoss, hmax]
  split
  · exact .inr ⟨‹_›, rfl⟩
  · exact .inl ⟨_, rfl, by simp⟩

/-- Every other command answers a next state, and none of the operations it is built of reaches for the queue. -/
theorem exec_goes_on {c : Instr} (hc : ∀ rail mv, c ≠ .supplyLoss rail mv) (s : State) :
    ∃ t, exec c s = .next t ∧ t.pending = s.pending := by
  cases c with
  | supplyLoss rail mv => exact absurd rfl (hc rail mv)
  | coalesceTime | setAtPpsTimeout | flushQueue | ledgerRound | destageStart | sectorWriteDone | deferredDelta | sectorRead
  | retryPass | repairRewrite | tornRewrite =>
    refine ⟨_, rfl, ?_⟩
    split <;> simp
  | replay =>
    refine ⟨_, rfl, ?_⟩
    split
    · rfl
    · split <;> simp
  | _ => exact ⟨_, rfl, by simp⟩

/-- Settles O6: SUPPLY_LOSS alone has a fault, and no command a refusal. -/
theorem everyCommandGoesOn : Obligations.EveryCommandGoesOn := by
  intro c s
  by_cases hc : ∃ rail mv, c = .supplyLoss rail mv
  · obtain ⟨rail, mv, rfl⟩ := hc
    rcases exec_supplyLoss_cases rail mv s with h | ⟨hmv, h⟩
    · exact .inl h
    · exact .inr ⟨rail, mv, rfl, hmv, h⟩
  · exact .inl (exec_goes_on (fun rail mv h => hc ⟨rail, mv, h⟩) s)

end Sys2Proof.Machine

/-! ## Every step keeps the state sound (O4)

The lemmas of Laws/Keep*.lean say that each operation keeps the state sound; here they are put together for the 157 commands
and the idle step. -/

namespace Sys2Proof.Machine

/-- A sound state stays sound under another power block whose vote table agrees with its complement. -/
theorem Sound.of_pwr {s : State} (hS : Sound s) {p : PwrBlk} (hv : p.votesInv = ~~~p.votes) (hw : p.scratch = s.pwr.scratch) :
    Sound { s with pwr := p } := { hS with votes := hv, scratch := by rw [hw]; exact hS.scratch }

/-! Commands that write the power block themselves before they run a shared operation. -/

theorem exec_powerOn_sound (b : Boot) {s t : State} (hS : Sound s) (h : exec (.powerOn b) s = .next t) : Sound t := by
  have hv : Sound (s.setVotes 0) := (State_setVotes_keeps s 0).1 hS
  obtain rfl := Host.Outcome.next.inj h
  split
  · exact hS
  · exact (wakeNow_keeps b none _).1 (hv.of_pwr hv.votes rfl)

theorem exec_pfNAssert_sound (ends : List CellId) {s t : State} (hS : Sound s) (h : exec (.pfNAssert ends) s = .next t) :
    Sound t := by
  have hp : Sound { s with pwr := { s.pwr with pfLow := true } } := hS.of_pwr hS.votes rfl
  obtain rfl := Host.Outcome.next.inj h
  split
  · exact hS
  · dsimp only
    split
    · exact (powerSeal_keeps 2 4 ends _).1 hp
    · exact hp

theorem exec_perstN_sound (low : Bool) (b : Boot) {s t : State} (hS : Sound s) (h : exec (.perstN low b) s = .next t) :
    Sound t := by
  have hp : Sound { s with pwr := { s.pwr with perstLow := low } } := hS.of_pwr hS.votes rfl
  obtain rfl := Host.Outcome.next.inj h
  split
  · exact hS
  · dsimp only
    generalize ({ s with pwr := { s.pwr with perstLow := low } } : State) = u at hp ⊢
    (repeat' split) <;> simp [hp]

theorem exec_zeroN_sound (whole : Bool) (test : Option (Fin 10)) (b : Boot) {s t : State} (hS : Sound s)
    (h : exec (.zeroN whole test b) s = .next t) : Sound t := by
  have hz : Sound { s with pwr := { s.pwr with zeroLatched := true } } := hS.of_pwr hS.votes rfl
  obtain rfl := Host.Outcome.next.inj h
  generalize ({ s with pwr := { s.pwr with zeroLatched := true } } : State) = u at hz ⊢
  (repeat' split) <;> simp [hS, hz]

theorem exec_lpOverload_sound (b : Boot) {s t : State} (hS : Sound s) (h : exec (.lpOverload b) s = .next t) : Sound t := by
  have hv (e : Event) : Sound ((coldStore (toAon e s)).setVotes 0) :=
    (State_setVotes_keeps _ 0).1 ((coldStore_keeps _).1 ((toAon_keeps e s).1 hS))
  obtain rfl := Host.Outcome.next.inj h
  split
  · exact (wakeNow_keeps b none _).1 (Sound.of_pwr (hv _) rfl rfl)
  · exact hS

theorem exec_supplyLoss_sound (rail : Fin 4) (mv : Nat) {s t : State} (hS : Sound s)
    (h : exec (.supplyLoss rail mv) s = .next t) : Sound t := by
  simp only [exec, execSupplyLoss] at h
  split at h
  · cases h
  · obtain rfl := Host.Outcome.next.inj h
    simp [hS]

theorem exec_replay_sound (media : List (Option Sector)) (rows : List (List (Option Sector))) (tagFail : Option Nat)
    {s t : State} (hS : Sound s) (h : exec (.replay media rows tagFail) s = .next t) : Sound t := by
  obtain rfl := Host.Outcome.next.inj h
  by_cases hr : (!s.inService || s.ledgerDead || s.replayLeft == []) = true
  · rw [if_pos hr]; exact hS
  · rw [if_neg hr]
    cases tagFail with
    | some slot => exact (tagFails_keeps slot s).1 hS
    | none => exact (replayOne_keeps media rows _).1 { hS with }

/-! The commands together. -/

/-- Commands that work at no cell. -/
theorem exec_sound_of_cells_kept {c : Instr} {s t : State} (hk : (touches c).contains .cells = false) (hS : Sound s)
    (h : exec c s = .next t) : Sound t := by
  cases c with
  | write | trim | openWard | sealWard | setCredential | wardInfo =>
    obtain rfl := Host.Outcome.next.inj h
    exact runWard_sound _ _ _ _ (by simp +contextual) hS
  | identify | officerAuth | officerLogout | setTelemetryKey | createWard | tumblerWrite | wayRestore =>
    obtain rfl := Host.Outcome.next.inj h
    exact runAdmin_sound _ _ _ _ (by simp +contextual) hS
  | resizeWard | setWardRings | setWardSched =>
    obtain rfl := Host.Outcome.next.inj h
    exact runAdmin_sound _ _ _ _ (fun _ _ => withKey_sound _ _ _ (by simp +contextual)) hS
  | groupSetCreate | groupSetSetSpare | groupSetDelete =>
    obtain rfl := Host.Outcome.next.inj h
    exact groupSet_sound _ _ _ _ (by simp +contextual) hS
  | rebuildCtrlStart | rebuildCtrlStop | scrubCtrlStart | scrubCtrlStop =>
    obtain rfl := Host.Outcome.next.inj h
    exact workCtrl_sound _ _ _ _ _ (by simp +contextual) hS
  | d3hotEntry | d0Return | msixEnable | busMasterEnable =>
    obtain rfl := Host.Outcome.next.inj h
    exact cfgWrite_sound _ _ (by simp +contextual) hS
  | coalesceTime | setAtPpsTimeout | flushQueue | capLinkLost =>
    obtain rfl := Host.Outcome.next.inj h
    split <;> simp +contextual [hS]
  | captureFrame =>
    obtain rfl := Host.Outcome.next.inj h
    exact (rxMaybe_keeps ..).1 ((rxMaybe_keeps ..).1 ((wait_keeps _ s).1 hS))
  | hostLinkReset | linkTrained | flr | flrCaptureResume | flrDone | l1Entry | msixUnmask | tlpDiscard | bar0ReadAbort
  | bar2Stray | bar4Read | bar4Write | cfgRejectClear | beatLoRead | taiLoRead | wardHighLoRead | serialLoRead | srcPll
  | srcOscillator | setNow | setAtPps | taiRateWrite | ppsCtrlWrite | ppsEdge | taiSlew | holdover | ppsOutRise | ppsOutFall
  | pllLock | imagePublish | officerIdle | officerLockoutEnd | officerLockout | lockout | malformedRate | appendAge
  | destageAge | chainWaitTimeout | drbgReseed | adminEnable | adminDisable | evlogHeadWrite | ratBWrite | adminFetch
  | roundaboutTurn | entryArrival | ringReadFail | ringReadRetry | dmaAbort | jobBegin | heldCommandEval | destroyWard
  | resetWard | eventLogSetEnable | eventLogSetDisable | intentReserve | kccUnwrap | eventRecord | jtagIdcode | jtagBypass
  | jtagExtest | jtagSamplePreload | smbReadWord | smbUnsupported | uartXoff | uartXon | capLinkUp | l1Exit | gpioInChange
  | dataFetch =>
    obtain rfl := Host.Outcome.next.inj h
    simp [hS]
  | _ => cases hk

/-- Commands that work at cells. -/
theorem exec_sound_of_cells_changed {c : Instr} {s t : State} (hk : (touches c).contains .cells = true) (hS : Sound s)
    (h : exec c s = .next t) : Sound t := by
  cases c with
  | powerOn b => exact exec_powerOn_sound b hS h
  | supplyLoss rail mv => exact exec_supplyLoss_sound rail mv hS h
  | pfNAssert ends => exact exec_pfNAssert_sound ends hS h
  | perstN low b => exact exec_perstN_sound low b hS h
  | zeroN whole test b => exact exec_zeroN_sound whole test b hS h
  | lpOverload b => exact exec_lpOverload_sound b hS h
  | replay media rows tagFail => exact exec_replay_sound media rows tagFail hS h
  | read =>
    obtain rfl := Host.Outcome.next.inj h
    exact runWard_sound _ _ _ _ (by simp +contextual) hS
  | setOfficerCredential | runSelfTest | zeroize =>
    obtain rfl := Host.Outcome.next.inj h
    exact runAdmin_sound _ _ _ _ (by simp +contextual) hS
  | ledgerRound | destageStart | sectorWriteDone | deferredDelta | repairRewrite | tornRewrite =>
    obtain rfl := Host.Outcome.next.inj h
    split <;> simp +contextual [hS]
  | sectorRead | retryPass | spinUpTimeout =>
    obtain rfl := Host.Outcome.next.inj h
    split <;> simp (maxDischargeDepth := 4) [hS]
  | pfNDeassert | wakeN | registerWrite | pllLoss | tick | mediaStall | noiseHealthFail | coldRestart | voteSet | voteClr
  | sleepVote | transitionEnd | holdRelease | scacheEccError | wayRetired | armLinkResponse | powerRemoval | parkTimeout
  | idlePark | upCfgWrite | pinSwitchSettle | cacheFill | armLinkLost | presentAbsent | clockLockLoss | colzorFrame | wedge
  | reacquisition | seekFail | headLoadFail | servoDoubt | initStripe | rebuildStripe | scrubRow | clockLock =>
    obtain rfl := Host.Outcome.next.inj h
    simp [hS]
  | _ => cases hk

/-- A command that goes on from a sound state ends in one. -/
theorem exec_sound {c : Instr} {s t : State} (hS : Sound s) (h : exec c s = .next t) : Sound t := by
  cases hk : (touches c).contains .cells
  · exact exec_sound_of_cells_kept hk hS h
  · exact exec_sound_of_cells_changed hk hS h

/-- Settles O4: a step is the idle step, or the front command on the rest of the queue, which soundness does not speak of. -/
theorem stepKeepsSound : Obligations.StepKeepsSound := by
  intro s t hS h
  unfold step at h
  cases hq : s.pending with
  | nil =>
    rw [hq] at h
    obtain rfl := Host.Outcome.next.inj h
    exact (idleStep_keeps s).1 hS
  | cons c r =>
    rw [hq] at h
    have hr : Sound { s with pending := r } := { hS with }
    exact exec_sound hr h

end Sys2Proof.Machine

/-! ## The state right after reset (O3) -/

namespace Sys2Proof.Machine

/-- Every table of the reset state is empty, and the vote table holds slot 0 with its complement. -/
theorem reset_sound : Sound State.reset :=
  { votes := rfl, scratch := rfl, wards := rfl, groups := rfl, cells := rfl, ports := rfl, tumbler := rfl, lines := rfl,
    errors := rfl, ranges := rfl, counters := rfl, image0 := rfl, image1 := rfl, checkpoint := rfl, volts := rfl,
    pins := rfl, switching := rfl, regs := rfl, bars := rfl, slots := rfl }

/-- Settles O3: each register image of the reset state evaluates to its reset value (R403). -/
theorem resetState : Obligations.ResetState := by
  refine ⟨?_, reset_sound⟩
  refine ⟨?_, ?_, ?_, ?_, ?_, ?_, ?_, ?_, ?_, ?_, ?_, ?_, ?_, ?_, ?_, ?_, ?_, ?_, ?_, ?_, ?_, ?_⟩
  all_goals rfl

end Sys2Proof.Machine

/-! ## Functions and levels of the utility pins (O59) -/

namespace Sys2Proof.Machine

/-! One bit of a word. -/

@[simp] theorem getLsbD_setBit_self {n : Nat} (hn : n < 32) (level : Bool) (w : Word) :
    (setBit n level w).getLsbD n = level := by
  cases level <;> simp [setBit, hn]
@[simp] theorem getLsbD_setBit_ne {n k : Nat} (hk : k ≠ n) (level : Bool) (w : Word) :
    (setBit n level w).getLsbD k = w.getLsbD k := by
  have hbit : (1#32 <<< n).getLsbD k = false := (BitVec.getLsbD_twoPow n k).trans (by simp [hk.symm])
  have hlt : w.getLsbD k = true → k < 32 := BitVec.lt_of_getLsbD
  have hlevel : (if level then 1#32 <<< n else 0).getLsbD k = false := by cases level <;> simp [hbit]
  simp only [setBit, BitVec.getLsbD_or, BitVec.getLsbD_and, BitVec.getLsbD_not, hbit, hlevel]
  simpa using hlt

/-! What makes a write of PIN.UP_CFG_n illegal (R392, R393). -/

theorem pinLegal_reserved_func {v : Word} (hf : 9 < bits 0 4 v) (n : Nat) (s : State) : pinLegal n v s = false := by
  simp [pinLegal, within, show ¬ bits 0 4 v ≤ 9 by omega]
theorem pinLegal_reserved_pull {v : Word} (hp : bits 8 2 v = 3) (n : Nat) (s : State) : pinLegal n v s = false := by
  simp [pinLegal, hp]
theorem pinLegal_held_func {v : Word} {s : State} {n k : Nat} (hk : k < 32) (hn : k ≠ n) (hl : 2 ≤ bits 0 4 v)
    (hu : bits 0 4 v ≤ 7) (hf : s.pinFunc k = bits 0 4 v) : pinLegal n v s = false := by
  have hother : (List.range 32).any (fun k => k != n &&
      ((singular (bits 0 4 v) && s.pinFunc k == bits 0 4 v) ||
        (bits 0 4 v == 0x9 && s.pinFunc k == 0x9 && bits 4 4 (s.pinCfg k) == bits 4 4 v))) = true :=
    List.any_eq_true.mpr ⟨k, List.mem_range.mpr hk, by simp [hn, singular, within, hl, hu, hf]⟩
  simp only [pinLegal, hother, Bool.not_true, Bool.and_false]

/-! Writes of PIN.UP_CFG_n (R393–R395). -/

theorem exec_upCfgWrite {s : State} (h : s.regOpen = true) (n : Fin 32) (v : Word) :
    exec (.upCfgWrite n v) s = .next (upCfgWrite n.val v s) := by
  simp [exec, execUpCfgWrite, h]
/-- A write to a pin that is not switching is judged at once. -/
theorem upCfgWrite_idle {s : State} {n : Nat} (hb : s.pinBusy n = false) (v : Word) :
    upCfgWrite n v s = judgePin n v s := by
  simp only [State.pinBusy, Option.isSome_eq_false_iff, Option.isNone_iff_eq_none] at hb
  simp only [upCfgWrite, hb]
/-- A legal write to a pin whose function nothing else depends on changes the pins alone. -/
theorem judgePin_legal {s : State} {n : Nat} {v : Word} (hl : pinLegal n v s = true)
    (hf : s.pinFunc n ∉ [2, 3, 6, 9]) : judgePin n v s = { s with pin := { s.pin with
      keeper := setBit n (pinLevel n s) s.pin.keeper
      cfg := s.pin.cfg.set 0 n (v &&& 0x7FF)
      switching := s.pin.switching.set none n (some { start := s.clk.beat }) } } := by
  simp only [List.mem_cons, List.not_mem_nil, not_or, or_false] at hf
  obtain ⟨h2, h3, h6, h9⟩ := hf
  have hlose : loseFunction n s = s := by simp [loseFunction, h2, h3, h6, h9]
  simp only [judgePin, hl, if_true, switchPin, hlose]

/-- A legal write stores its word and the pin switches; every other pin is as it was (R394). -/
theorem upCfgWrite_legal {s : State} (hS : Sound s) (ho : s.regOpen = true) {n : Fin 32} {v : Word}
    (hb : s.pinBusy n.val = false) (hl : pinLegal n.val v s = true) (hf : s.pinFunc n.val ∉ [2, 3, 6, 9]) :
    ∃ t, exec (.upCfgWrite n v) s = .next t ∧ t = { s with pin := t.pin } ∧ t.pinCfg n.val = v &&& 0x7FF ∧
      t.pinBusy n.val = true ∧ ∀ k, k ≠ n.val → t.pinCfg k = s.pinCfg k ∧ t.pinBusy k = s.pinBusy k := by
  refine ⟨_, by rw [exec_upCfgWrite ho, upCfgWrite_idle hb, judgePin_legal hl hf], rfl, ?_, ?_, fun k hk => ⟨?_, ?_⟩⟩
  · exact Tab.get_set_self _ _ _ _ hS.pins
  · simp [State.pinBusy, hS.switching]
  · exact Tab.get_set_ne _ _ hk _ hS.pins
  · simp only [State.pinBusy, Tab.get_set_ne none s.pin.switching hk _ hS.switching]
/-- A write that is not legal is dropped whole and latched as a configuration rejection (R393, R407). -/
theorem upCfgWrite_illegal {s : State} (ho : s.regOpen = true) {n : Fin 32} {v : Word} (hb : s.pinBusy n.val = false)
    (hl : pinLegal n.val v s = false) (hr : s.sys.rejBeat ≠ s.clk.beat) :
    ∃ t, exec (.upCfgWrite n v) s = .next t ∧ t = { s with sys := t.sys } ∧ t.sys.rejValid = true ∧
      (s.sys.rejValid = false → t.sys.rejAddr.toNat = 0x1B000 + 4 * n.val ∧ t.sys.rejValue = v) := by
  have hj : judgePin n.val v s = reject (0x1B000 + 4 * n.val) v s := by simp [judgePin, hl]
  obtain ⟨heq, hvalid⟩ := reject_eq hr (0x1B000 + 4 * n.val) v
  refine ⟨_, by rw [exec_upCfgWrite ho, upCfgWrite_idle hb, hj], heq, hvalid, fun hv => ?_⟩
  rw [reject_latches hr hv]
  exact ⟨BitVec.toNat_ofNat .. |>.trans (Nat.mod_eq_of_lt (by omega)), rfl⟩
/-- A write that lands while the pin switches is held (R395). -/
theorem upCfgWrite_held {s : State} (hS : Sound s) (ho : s.regOpen = true) {n : Fin 32} {v : Word}
    (hb : s.pinBusy n.val = true) :
    ∃ t, exec (.upCfgWrite n v) s = .next t ∧ t = { s with pin := t.pin } ∧ t.pinBusy n.val = true ∧
      ∀ k, t.pinCfg k = s.pinCfg k := by
  obtain ⟨sw, hsw⟩ := Option.isSome_iff_exists.mp hb
  refine ⟨_, exec_upCfgWrite ho n v, ?_⟩
  simp [upCfgWrite, hsw, State.pinBusy, State.pinCfg, hS.switching]

/-! The end of a switch, and a level that changes (R392, R394, R395). -/

/-- The levels at the pins stay while time passes. -/
@[simp] theorem elapseTo_levels (b : Nat) (s : State) : (elapseTo b s).pin.levels = s.pin.levels := by
  cases h : s.awake
  · rw [elapseTo, elapse_asleep _ h]
  · rw [elapseTo, elapse_pin _ h, uartAfter_eq]

/-- 10 beats after a switch began it has ended, and a GPIO_IN pin shows its level. -/
theorem pinSettle_ends {s : State} (hS : Sound s) (ho : s.handedOff = true) {n : Fin 32} {b : DWord}
    (hsw : s.pin.switching.get none n.val = some { start := b, next := none }) (hlate : s.clk.beat.toNat ≤ b.toNat + 10)
    (hfar : b.toNat + 20 < 2 ^ 64) :
    ∃ t, exec (.pinSwitchSettle n) s = .next t ∧ t.pinBusy n.val = false ∧ b.toNat + 10 ≤ t.clk.beat.toNat ∧
      t.pinCfg n.val = s.pinCfg n.val ∧ t = { s with pin := t.pin, clk := t.clk, obs := t.obs } ∧
      (s.pinFunc n.val = 0 → t.pin.gpioIn.getLsbD n.val = s.pin.levels.getLsbD n.val) := by
  have hbeat := (elapseTo_beat (b.toNat + 10) (awake_of_handedOff ho) (by omega) hlate).1
  have helapse : elapseTo (b.toNat + 10) s = { s with
      clk := (elapseTo (b.toNat + 10) s).clk, pin := (elapseTo (b.toNat + 10) s).pin
      obs := (elapseTo (b.toNat + 10) s).obs } := elapse_eq _ s
  have hcfg : (elapseTo (b.toNat + 10) s).pin.cfg = s.pin.cfg := elapseTo_cfg _ s
  have hswitching : (elapseTo (b.toNat + 10) s).pin.switching = s.pin.switching := elapseTo_switching _ s
  have hlevels := elapseTo_levels (b.toNat + 10) s
  refine ⟨pinSettle n.val s, by simp [exec, execPinSwitchSettle, ho], ?_⟩
  simp only [pinSettle, hsw]
  generalize elapseTo (b.toNat + 10) s = u at hbeat helapse hcfg hswitching hlevels ⊢
  have hfunc : State.pinFunc { u with pin := { u.pin with switching := u.pin.switching.set none n.val none } } n.val =
      s.pinFunc n.val := by simp only [State.pinFunc, State.pinCfg, hcfg]
  have hidle : Tab.get none (u.pin.switching.set none n.val none) n.val = none :=
    Tab.get_set_self _ _ _ _ (hswitching ▸ hS.switching)
  rw [hfunc]
  by_cases hg : s.pinFunc n.val = 0
  · rw [if_pos hg]
    refine ⟨by simp [State.pinBusy, setGpio, hidle], hbeat, by simp [State.pinCfg, setGpio, hcfg], ?_, fun _ => ?_⟩
    · rw [helapse]; rfl
    · exact (getLsbD_setBit_self n.isLt _ _).trans (by rw [hlevels])
  · rw [if_neg hg]
    refine ⟨by simp [State.pinBusy, hidle], hbeat, by simp [State.pinCfg, hcfg], ?_, fun h => absurd h hg⟩
    rw [helapse]

/-- A level that changes at a pin reaches PIN.GPIO_IN where the pin is GPIO_IN and not switching. -/
theorem gpioChange_spec {s : State} (ho : s.handedOff = true) (n : Fin 32) (level : Bool) :
    ∃ t, exec (.gpioInChange n level) s = .next t ∧ t = { s with pin := t.pin } ∧ t.pin.levels.getLsbD n.val = level ∧
      (s.pinFunc n.val = 0 → s.pinBusy n.val = false → t.pin.gpioIn.getLsbD n.val = level) ∧
      ((s.pinFunc n.val ≠ 0 ∨ s.pinBusy n.val = true) → t.pin.gpioIn = s.pin.gpioIn) ∧
      ∀ k, k ≠ n.val → t.pin.gpioIn.getLsbD k = s.pin.gpioIn.getLsbD k := by
  refine ⟨gpioChange n.val level s, rfl, ?_⟩
  by_cases hg : s.pinFunc n.val = 0 ∧ s.pinBusy n.val = false
  · have hseen : gpioChange n.val level s =
        { s with pin := { s.pin with levels := setBit n.val level s.pin.levels, gpioIn := setBit n.val level s.pin.gpioIn } } := by
      simp [gpioChange, setGpio, ho, hg]
    rw [hseen]
    refine ⟨rfl, getLsbD_setBit_self n.isLt _ _, fun _ _ => getLsbD_setBit_self n.isLt _ _, fun h => ?_,
      fun k hk => getLsbD_setBit_ne hk _ _⟩
    rcases h with h | h
    · exact absurd hg.1 h
    · rw [hg.2] at h; cases h
  · have hunseen : gpioChange n.val level s = { s with pin := { s.pin with levels := setBit n.val level s.pin.levels } } := by
      have : ¬ (s.handedOff && s.pinFunc n.val == 0 && !s.pinBusy n.val) = true := by simpa [ho] using hg
      simp only [gpioChange, this]; rfl
    rw [hunseen]
    exact ⟨rfl, getLsbD_setBit_self n.isLt _ _, fun h0 hb => absurd ⟨h0, hb⟩ hg, fun _ => rfl, fun _ _ => rfl⟩

/-- Settles O59. -/
theorem pinCells : Obligations.PinCells := by
  refine ⟨fun s n v hS ho => ⟨upCfgWrite_legal hS ho, upCfgWrite_illegal ho, upCfgWrite_held hS ho⟩,
    fun s n v => ⟨fun h => pinLegal_reserved_func h n s, fun h => pinLegal_reserved_pull h n s,
      fun _ => pinLegal_held_func⟩,
    fun s n level hS ho => ⟨fun b hsw _ => pinSettle_ends hS ho hsw, gpioChange_spec ho n level⟩⟩

end Sys2Proof.Machine

/-! ## A wake that is latched (O11) -/

namespace Sys2Proof.Machine

/-! The wake record (R344, R346). -/

/-- An event that joins the AON queue, or is counted lost there, changes the power block alone. -/
theorem toAon_eq (e : Event) (s : State) : toAon e s = { s with pwr := { s.pwr with
    aonEvents := (toAon e s).pwr.aonEvents, aonLost := (toAon e s).pwr.aonLost } } := by
  unfold toAon
  split <;> rfl
/-- A latched wake writes the wake record, and the event for the wake goes to the AON queue. -/
theorem latchWake_pwr (src : BitVec 4) (s : State) : (latchWake src s).pwr = { s.pwr with
    wakes := s.pwr.wakes ++ [⟨src, s.clk.beat, !s.awake, s.sec.bootCount⟩]
    wakeCause := src, wakeStamp := s.clk.beat, wakeLate := !s.awake, wakeBoot := s.sec.bootCount
    aonEvents := (latchWake src s).pwr.aonEvents, aonLost := (latchWake src s).pwr.aonLost } :=
  congrArg State.pwr (toAon_eq _ _)
/-- It changes the power block alone. -/
theorem latchWake_eq (src : BitVec 4) (s : State) : latchWake src s = { s with pwr := (latchWake src s).pwr } :=
  (toAon_eq _ _).trans (by rw [latchWake_pwr]; rfl)
/-- In the two sleep modes no island is clocked. -/
theorem awake_of_asleep {s : State} (h : asleep s = true) : s.awake = false := by
  obtain ⟨-, hm⟩ : s.pwr.powered = true ∧ (s.pwr.mode = .deepStandby ∨ s.pwr.mode = .retentionSleep) := by
    simpa [asleep] using h
  rcases hm with hm | hm <;> simp [State.awake, hm]

/-- What the wake record of source `src` is after a wake that finds the counter stopped at its value in `s`. -/
def LateWake (src : BitVec 4) (s t : State) : Prop :=
  t = { s with pwr := t.pwr } ∧ t.pwr.wakes = s.pwr.wakes ++ [⟨src, s.clk.beat, true, s.sec.bootCount⟩] ∧
  t.pwr.wakeCause = src ∧ t.pwr.wakeStamp = s.clk.beat ∧ t.pwr.wakeLate = true ∧ t.pwr.mode = s.pwr.mode
/-- A wake latched asleep is late, whatever its pin has just changed in the power block. -/
theorem latchWake_late {s : State} {p : PwrBlk} (ha : asleep { s with pwr := p } = true) (hw : p.wakes = s.pwr.wakes)
    (hm : p.mode = s.pwr.mode) (src : BitVec 4) : LateWake src s (latchWake src { s with pwr := p }) := by
  have hp := latchWake_pwr src { s with pwr := p }
  have hl := awake_of_asleep ha
  rw [hl, hw] at hp
  exact ⟨latchWake_eq src _, by rw [hp]; rfl, by rw [hp], by rw [hp], by rw [hp]; rfl, by rw [hp]; exact hm⟩

/-! The three wakes, asleep. -/

section Asleep

variable {s : State} (ha : asleep s = true) (b : Boot)

include ha

theorem exec_wakeN_asleep : exec (.wakeN b) s = .next (wakeNow b none (latchWake 1 s)) :=
  congrArg Host.Outcome.next (if_pos ha)
/-- The rising edge of PERST_N wakes from both modes (R95). -/
theorem exec_perstN_asleep (hl : s.pwr.perstLow = true) : exec (.perstN false b) s =
    .next (wakeNow b none (latchWake 2 { s with pwr := { s.pwr with perstLow := false } })) := by
  simp [exec, execPerstN, hl, ha]
theorem exec_zeroN_asleep (whole : Bool) (test : Option (Fin 10)) : exec (.zeroN whole test b) s =
    .next (wakeNow b test (latchWake 3 { s with pwr := { s.pwr with zeroLatched := true } })) := by
  have hp : s.pwr.powered = true := by simp only [asleep, Bool.and_eq_true] at ha; exact ha.1
  simp [exec, execZeroN, hp, ha]

end Asleep

/-! What begins once PF_N lets it. -/

/-- From Deep Standby, with nothing else due, the wake just latched starts the sequence (R340). -/
theorem wakeNow_latched {u : State} (b : Boot) (test : Option (Fin 10)) (src : BitVec 4) (hp : u.pwr.powered = true)
    (hf : u.pwr.pfLow = false) (hm : u.pwr.mode = .deepStandby) (hc : u.pwr.coldDue = none) (hw : u.pwr.wakes = []) :
    wakeNow b test (latchWake src u) = startUp src b (latchWake src u) := by
  have hpwr := latchWake_pwr src u
  exact (wakeNow_cold b test (by rw [hpwr]; exact hp) (by rw [hpwr]; exact hf) (by rw [hpwr]; exact hm)).2
    ⟨src, u.clk.beat, !u.awake, u.sec.bootCount⟩ [] (by rw [hpwr]; exact hc) (by rw [hpwr]; simp [hw])

/-- From Retention Sleep a wake that is neither PERST_N's nor ZERO_N's restores what the domains hold, and no more (R343). -/
theorem wakeNow_retention {u : State} (b : Boot) (test : Option (Fin 10)) (hp : u.pwr.powered = true)
    (hf : u.pwr.pfLow = false) (hm : u.pwr.mode = .retentionSleep) (hw : u.pwr.wakes ≠ [])
    (hn : ∀ w ∈ u.pwr.wakes, w.source ≠ 2) (hz : u.pwr.zeroLatched = false) : wakeNow b test u = retentionWake u := by
  have hperst : (u.pwr.wakes.any fun w => w.source == 2) = false :=
    List.any_eq_false.mpr fun w h => by simpa using hn w h
  simp only [wakeNow, hp, hf, hm, hw, hz, hperst]
  rfl

/-- Switching every cell's port off changes no intent. -/
theorem cellsOff_intents_eq (s : State) : (cellsOff s).ledger.intents = s.ledger.intents :=
  foldl_keeps (fun t => t.ledger.intents = s.ledger.intents) _ (fun t c h => (cellOff_records c t).1.trans h) _ s rfl
/-- The events that AON replays leave the power block but for their queue. -/
theorem replayAon_pwr (s : State) : (replayAon s).pwr = { s.pwr with aonEvents := [] } := by
  unfold replayAon
  simp [-List.foldl_reverse]
/-- A wake from Retention Sleep with votes, but none for a service slot, ends in Management with TAI no longer valid (R343). -/
theorem retentionWake_management {s : State} (hc : s.pwr.holdCause = 0) (hp : s.sec.provisioned = true)
    (hv0 : s.pwr.votes ≠ 0) (hv : s.pwr.votes &&& serviceSlots = 0) :
    (retentionWake s).pwr = { s.pwr with
      sleepVote := false, mode := .management, transition := none, wakes := [], domains := 0x37, aonEvents := [] } ∧
    (retentionWake s).clk.taiValid = false ∧ (retentionWake s).clk.beat = s.clk.beat ∧
    (retentionWake s).ledger.intents = s.ledger.intents := by
  generalize hu : ppsOutAfter s.tai { s with
    clk := { s.clk with pllEnabled := true, lock := s.clk.src, srcActive := s.clk.src, taiValid := false }
    pwr := { s.pwr with sleepVote := false, mode := .management, transition := none, wakes := [], domains := 0x37 } } = u
  have hpwr : (cellsOff (replayAon u)).pwr = { s.pwr with
      sleepVote := false, mode := .management, transition := none, wakes := [], domains := 0x37, aonEvents := [] } := by
    rw [(cellsOff_frame _).2.2.2.1, replayAon_pwr, ← hu, (ppsOutAfter_frame _ _).2.2.1]
  have hsec : (cellsOff (replayAon u)).sec = s.sec := by simp [← hu]
  have hclk : (cellsOff (replayAon u)).clk = u.clk := by simp
  have hintents : (cellsOff (replayAon u)).ledger.intents = s.ledger.intents := by
    rw [cellsOff_intents_eq]; simp [← hu]
  have hsel : selectMode (cellsOff (replayAon u)) = (cellsOff (replayAon u)).pwr.mode := by
    rw [selectMode_management (by rw [hpwr]; exact hc) (by rw [hpwr]) (by rw [hsec]; exact hp) (by rw [hpwr]; exact hv0)
      (by rw [hpwr]; exact hv), hpwr]
  have hrun : retentionWake s = cellsOff (replayAon u) := by
    unfold retentionWake
    dsimp only
    rw [hu, if_neg (by simp [hv]), evalMode_selected hsel]
  rw [hrun, hclk, ← hu, ppsOutAfter_clk, hu]
  exact ⟨hpwr, rfl, rfl, hintents⟩

/-- Settles O11: PF_N holds the wake that each of the three latches, and lets it begin where it is deasserted. -/
theorem wakesAreLatched : Obligations.WakesAreLatched := by
  unfold Obligations.WakesAreLatched
  intro s b whole test hp hm
  have ha : asleep s = true := by
    rcases hm with hm | hm <;> simp [asleep, hp, hm]
  have hperst : asleep { s with pwr := { s.pwr with perstLow := false } } = true := ha
  have hzero : asleep { s with pwr := { s.pwr with zeroLatched := true } } = true := ha
  refine ⟨fun hf => ?_, fun hf hd hc hw => ?_, fun hf hr hw hz _ hh hpv hv0 hv => ?_⟩
  · intro latched
    have hheld (test : Option (Fin 10)) (src : BitVec 4) (p : PwrBlk) (hpf : p.pfLow = true) :
        wakeNow b test (latchWake src { s with pwr := p }) = latchWake src { s with pwr := p } :=
      wakeNow_held b test (by rw [latchWake_pwr]; exact hpf)
    refine ⟨⟨_, (exec_wakeN_asleep ha b).trans (congrArg _ (hheld none 1 s.pwr hf)), latchWake_late ha rfl rfl 1⟩,
      fun hl => ⟨_, (exec_perstN_asleep ha b hl).trans (congrArg _ (hheld none 2 _ hf)), latchWake_late hperst rfl rfl 2, ?_⟩,
      _, (exec_zeroN_asleep ha b whole test).trans (congrArg _ (hheld test 3 _ hf)), latchWake_late hzero rfl rfl 3, ?_⟩
    · rw [latchWake_pwr]
    · rw [latchWake_pwr]
  · intro started
    have hstart (src : BitVec 4) (u : State) : started src (startUp src b (latchWake src u)) :=
      ⟨rfl, rfl, rfl, rfl, congrArg PwrBlk.wakeCause (latchWake_pwr src u)⟩
    refine ⟨⟨_, (exec_wakeN_asleep ha b).trans (congrArg _ (wakeNow_latched b none 1 hp hf hd hc hw)), hstart 1 _⟩,
      fun hl => ⟨_, (exec_perstN_asleep ha b hl).trans (congrArg _ (wakeNow_latched b none 2 hp hf hd hc hw)), hstart 2 _⟩,
      _, (exec_zeroN_asleep ha b whole test).trans (congrArg _ (wakeNow_latched b test 3 hp hf hd hc hw)), hstart 3 _, ?_⟩
    exact congrArg PwrBlk.zeroLatched (latchWake_pwr 3 _)
  · have hpwr := latchWake_pwr 1 s
    have hwake : wakeNow b none (latchWake 1 s) = retentionWake (latchWake 1 s) :=
      wakeNow_retention b none (by rw [hpwr]; exact hp) (by rw [hpwr]; exact hf) (by rw [hpwr]; exact hr)
        (by rw [hpwr]; simp) (by rw [hpwr]; simp [hw]) (by rw [hpwr]; exact hz)
    obtain ⟨hrp, htai, hbeat, hint⟩ := retentionWake_management (s := latchWake 1 s) (by rw [hpwr]; exact hh)
      (by simp [hpv]) (by rw [hpwr]; exact hv0) (by rw [hpwr]; exact hv)
    refine ⟨_, (exec_wakeN_asleep ha b).trans (congrArg _ hwake), ?_, ?_, ?_, htai, ?_, ?_, ?_⟩
    · rw [hrp]
    · rw [hrp]
    · rw [hrp]
    · rw [hbeat, (latchWake_frame 1 s).2.1]
    · rw [(retentionWake_frame _).1, (latchWake_frame 1 s).2.2.1]
    · rw [hint]; simp

end Sys2Proof.Machine

/-! ## Votes, the sleep vote and their refusals (O13) -/

namespace Sys2Proof.Machine

/-! The mode that is selected (R334), and what a change of mode begins. -/

/-- With no vote left the device selects Deep Standby. -/
theorem selectMode_deepStandby {s : State} (hv : s.pwr.votes = 0) : selectMode s = .deepStandby := by
  unfold selectMode
  rw [if_neg (fun h => h.2 hv), if_pos hv]
/-- With the sleep vote recorded it selects Retention Sleep. -/
theorem selectMode_retentionSleep {s : State} (hc : s.pwr.holdCause = 0) (hv : s.pwr.votes ≠ 0)
    (hs : s.pwr.sleepVote = true) : selectMode s = .retentionSleep := by
  unfold selectMode
  rw [if_neg (fun h => h.1 hc), if_neg hv, if_pos hs]
/-- Before provisioning it selects Provisioning, whatever slots are voted for. -/
theorem selectMode_provisioning {s : State} (hc : s.pwr.holdCause = 0) (hv : s.pwr.votes ≠ 0)
    (hs : s.pwr.sleepVote = false) (hp : s.sec.provisioned = false) : selectMode s = .provisioning := by
  unfold selectMode
  rw [if_neg (fun h => h.1 hc), if_neg hv, if_neg (by simp [hs]), if_pos (by simp [hp])]

section Transitions

variable {s : State} (ht : s.pwr.transition = none) (hz : s.sec.zeroizePending = false)

include ht hz

/-- From Management a vote for a service slot begins the entry to Service: every switched domain is powered (R336). -/
theorem evalMode_enterService (hm : s.pwr.mode = .management) (hsel : selectMode s = .service) : evalMode s =
    { s with pwr := { s.pwr with transition := some .enterService, transBeat := s.clk.beat, domains := 0x7F } } := by
  simp [evalMode, ht, hz, hm, hsel]
/-- From Management the last vote's withdrawal begins the entry to Deep Standby (R339). -/
theorem evalMode_standbyBegin (hm : s.pwr.mode = .management) (hsel : selectMode s = .deepStandby) :
    evalMode s = standbyBegin s := by
  simp [evalMode, ht, hz, hm, hsel]
/-- From Management the sleep vote begins the entry to Retention Sleep (R341). -/
theorem evalMode_sleepBegin (hm : s.pwr.mode = .management) (hsel : selectMode s = .retentionSleep) :
    evalMode s = sleepBegin s := by
  simp [evalMode, ht, hz, hm, hsel]
/-- From Service the withdrawal of every service vote begins the way back (R337). -/
theorem evalMode_leaveService (hm : s.pwr.mode = .service) (hsel : selectMode s = .management) : evalMode s =
    { quiesceMedia s with pwr := { (quiesceMedia s).pwr with
      transition := some .leaveService, transBeat := (quiesceMedia s).clk.beat } } := by
  simp [evalMode, ht, hz, hm, hsel]
/-- From Safe Hold with no cause left and no service vote the device goes to Management, with MEDIA off (R351). -/
theorem evalMode_releaseHold (hm : s.pwr.mode = .safeHold) (hsel : selectMode s = .management) : evalMode s =
    { mediaOff s with pwr := { (mediaOff s).pwr with mode := .management } } := by
  simp [evalMode, ht, hz, hm, hsel]

end Transitions

/-! The vote table. -/

/-- Slots asked for that are not yet held join those that are. -/
theorem or_and_not_self (a x : BitVec 24) : a ||| (x &&& ~~~a) = a ||| x := by
  ext i hi
  simp only [BitVec.getElem_or, BitVec.getElem_and, BitVec.getElem_not]
  cases a[i] <;> simp
/-- Refused among them are those of `m`. -/
theorem or_and_not_refused (a x m : BitVec 24) :
    a ||| (x &&& ~~~a &&& ~~~(x &&& ~~~a &&& m)) = a ||| (x &&& ~~~m) := by
  ext i hi
  simp only [BitVec.getElem_or, BitVec.getElem_and, BitVec.getElem_not]
  cases a[i] <;> cases x[i] <;> simp
/-- Withdrawing the slots of `m` that are held leaves those outside `m`. -/
theorem and_not_held (a m : BitVec 24) : a &&& ~~~(m &&& a) = a &&& ~~~m := by
  ext i hi
  simp only [BitVec.getElem_and, BitVec.getElem_not]
  cases a[i] <;> simp
/-- Slot 7, which does not exist, is no service slot. -/
theorem and_serviceSlots (v : BitVec 24) : v &&& 0xFFFF7F &&& serviceSlots = v &&& serviceSlots := by
  rw [BitVec.and_assoc]
  rfl

/-- In a sound state the table agrees with its complement (R347). -/
theorem votesBad_of_sound {s : State} (hS : Sound s) : votesBad s = false := by simp [votesBad, hS.votes]
/-- Cells that come up for their slots change the cells alone. -/
theorem openSlots_eq (got : BitVec 24) (s : State) : openSlots got s = { s with cells := (openSlots got s).cells } := by
  apply State.eq_of <;> simp

section Votes

variable {s : State} {v : Word} (hS : Sound s) (ho : s.regOpen = true)

include hS ho

/-- A write of PWR.VOTE_SET asks for the slots not yet held, and records those that are not refused (R334, R335). -/
theorem voteSet_recorded : let asked := v.setWidth 24 &&& 0xFFFF7F &&& ~~~s.pwr.votes
    voteSet v s = evalMode (openSlots (asked &&& ~~~refusedSlots asked s)
      (recordVotes (asked &&& ~~~refusedSlots asked s) (refusedSlots asked s) s)) := by
  simp only [voteSet, ho, votesBad_of_sound hS, Bool.not_true, Bool.false_eq_true, if_false]
/-- On the PLL and provisioned, every slot of the write is granted (R335). -/
theorem voteSet_granted (hr : serviceRefusal s = none) : ∃ got, voteSet v s =
    evalMode (openSlots got (s.setVotes (s.pwr.votes ||| (v.setWidth 24 &&& 0xFFFF7F)))) := by
  have hnone (req : BitVec 24) : refusedSlots req s = 0 := by simp [refusedSlots, hr]
  have hand (x : BitVec 24) : x &&& ~~~0 = x :=
    (congrArg (x &&& ·) BitVec.not_zero).trans BitVec.and_allOnes
  refine ⟨v.setWidth 24 &&& 0xFFFF7F &&& ~~~s.pwr.votes, (voteSet_recorded hS ho).trans ?_⟩
  simp only [hnone, hand, recordVotes, hr, or_and_not_self]
/-- Where service slots are refused, the first of them is recorded with the cause, and the other slots are granted (R335). -/
theorem voteSet_refused {c : Nat} (hr : serviceRefusal s = some c)
    (hv : v.setWidth 24 &&& ~~~s.pwr.votes &&& serviceSlots ≠ 0) : ∃ slot got, voteSet v s =
      evalMode (openSlots got (refuseVote slot c
        (s.setVotes (s.pwr.votes ||| (v.setWidth 24 &&& 0xFFFF7F &&& ~~~serviceSlots))))) := by
  have hbad : v.setWidth 24 &&& 0xFFFF7F &&& ~~~s.pwr.votes &&& serviceSlots ≠ 0 := by
    rwa [BitVec.and_assoc (x := v.setWidth 24), BitVec.and_comm 0xFFFF7F, ← BitVec.and_assoc, and_serviceSlots]
  generalize hasked : v.setWidth 24 &&& 0xFFFF7F &&& ~~~s.pwr.votes = asked at hbad
  have hrefused : refusedSlots asked s = asked &&& serviceSlots := by simp [refusedSlots, hr]
  refine ⟨((List.range 24).find? fun k => (asked &&& serviceSlots).getLsbD k).getD 0, asked &&& ~~~(asked &&& serviceSlots),
    (voteSet_recorded hS ho).trans ?_⟩
  simp only [hasked, hrefused, recordVotes, hr, if_neg hbad]
  rw [← hasked, or_and_not_refused]
/-- A withdrawal closes the ports of the cells whose slots it withdraws (R333). -/
theorem voteClr_withdrawn : voteClr v s =
    evalMode (closeSlots (v.setWidth 24 &&& s.pwr.votes) (withdrawVotes (v.setWidth 24 &&& s.pwr.votes) s)) := by
  simp [voteClr, ho, votesBad_of_sound hS]

end Votes

/-- The last votes that are withdrawn are kept as the prior ones (R346). -/
theorem withdrawVotes_last {s : State} {gone : BitVec 24} (h : s.pwr.votes &&& ~~~gone = 0) :
    (withdrawVotes gone s).pwr = { s.pwr with votes := 0, votesInv := ~~~0, priorVotes := s.pwr.votes } := by
  simp [withdrawVotes, State.setVotes, h]
/-- Others leave the prior ones as they were. -/
theorem withdrawVotes_some {s : State} {gone : BitVec 24} (h : s.pwr.votes &&& ~~~gone ≠ 0) :
    (withdrawVotes gone s).pwr =
      { s.pwr with votes := s.pwr.votes &&& ~~~gone, votesInv := ~~~(s.pwr.votes &&& ~~~gone) } := by
  unfold withdrawVotes State.setVotes
  rw [if_neg h]

/-- A refused vote is recorded in the power block and logged, and changes nothing else (R335). -/
theorem refuseVote_eq (slot cause : Nat) (s : State) : refuseVote slot cause s =
    { s with pwr := (refuseVote slot cause s).pwr, obs := (refuseVote slot cause s).obs, pin := (refuseVote slot cause s).pin } := by
  apply State.eq_of <;> simp
theorem refuseVote_pwr (slot cause : Nat) (s : State) : (refuseVote slot cause s).pwr = { s.pwr with
    voteRefused := true, refuseCause := BitVec.ofNat 3 cause, refusedSlot := BitVec.ofNat 5 slot } := by
  simp [refuseVote]
theorem refuseVote_logged {s : State} (h : s.obs.events.length < 512) (slot cause : Nat) :
    ∃ e ∈ (refuseVote slot cause s).obs.events, e.code = 0x0904 ∧ e.beat = s.clk.beat :=
  ⟨_, logEvent_mem (by simpa [mark] using h) .., rfl, rfl⟩

/-! The commands. -/

section Commands

variable {s : State} {v : Word} (hS : Sound s) (ho : s.regOpen = true) (ht : s.pwr.transition = none)
  (hz : s.sec.zeroizePending = false)

include hS ho ht hz

/-- A service vote begins the entry to Service (R334, R336). -/
theorem voteSet_enterService (hc : s.pwr.holdCause = 0) (hs : s.pwr.sleepVote = false) (hm : s.pwr.mode = .management)
    (hpll : s.clk.srcActive = true) (hp : s.sec.provisioned = true) (hv : v.setWidth 24 &&& serviceSlots ≠ 0) :
    ∃ t, exec (.voteSet v) s = .next t ∧ t.pwr.votes = s.pwr.votes ||| (v.setWidth 24 &&& 0xFFFF7F) ∧
      t.pwr.votesInv = ~~~t.pwr.votes ∧ t.pwr.transition = some .enterService ∧ t.pwr.mode = .management ∧
      t.pwr.domains = 0x7F ∧ t = { s with pwr := t.pwr, cells := t.cells } := by
  obtain ⟨got, hrun⟩ := voteSet_granted (v := v) hS ho (by simp [serviceRefusal, hpll, hp])
  generalize hvotes : s.pwr.votes ||| (v.setWidth 24 &&& 0xFFFF7F) = votes at hrun ⊢
  have hsvc : votes &&& serviceSlots ≠ 0 := by
    rw [← hvotes, BitVec.and_or_distrib_right, and_serviceSlots]
    exact fun h => hv (BitVec.or_eq_zero_iff.mp h).2
  rw [openSlots_eq] at hrun
  have hbegin := evalMode_enterService (s := { s.setVotes votes with cells := (openSlots got (s.setVotes votes)).cells })
    ht hz hm (selectMode_service hc hs hp hsvc)
  exact ⟨_, congrArg Host.Outcome.next (hrun.trans hbegin), rfl, rfl, rfl, hm, rfl, rfl⟩

/-- Withdrawing the last vote begins the entry to Deep Standby (R339, R346). -/
theorem voteClr_standby (hm : s.pwr.mode = .management) (hv : s.pwr.votes &&& ~~~(v.setWidth 24) = 0) :
    ∃ t, exec (.voteClr v) s = .next t ∧ t.pwr.votes = 0 ∧ t.pwr.priorVotes = s.pwr.votes ∧
      t.pwr.transition = some .enterStandby ∧ t.pwr.lastStop = 1 := by
  have hrun := voteClr_withdrawn (v := v) hS ho
  have hpwr := withdrawVotes_last (s := s) (gone := v.setWidth 24 &&& s.pwr.votes) (by rw [and_not_held]; exact hv)
  generalize hu : closeSlots (v.setWidth 24 &&& s.pwr.votes) (withdrawVotes (v.setWidth 24 &&& s.pwr.votes) s) = u at hrun
  have hup : u.pwr = { s.pwr with votes := 0, votesInv := ~~~0, priorVotes := s.pwr.votes } := by
    rw [← hpwr, ← hu]; simp
  have hus : u.sec = s.sec := by rw [← hu]; simp
  rw [evalMode_standbyBegin (by rw [hup]; exact ht) (by rw [hus]; exact hz) (by rw [hup]; exact hm)
    (selectMode_deepStandby (by rw [hup]))] at hrun
  refine ⟨_, congrArg Host.Outcome.next hrun, ?_⟩
  simp [standbyBegin, hup]

/-- Withdrawing every service vote begins the way back from Service (R337). -/
theorem voteClr_leaveService (hc : s.pwr.holdCause = 0) (hs : s.pwr.sleepVote = false) (hm : s.pwr.mode = .service)
    (hp : s.sec.provisioned = true) (h0 : s.pwr.votes.getLsbD 0 = true) (hv : v.setWidth 24 = serviceSlots) :
    ∃ t, exec (.voteClr v) s = .next t ∧ t.pwr.votes = s.pwr.votes &&& ~~~serviceSlots ∧
      t.pwr.transition = some .leaveService ∧ t.pwr.mode = .service := by
  have hleft : s.pwr.votes &&& ~~~serviceSlots ≠ 0 := fun h => by
    have hbit : (s.pwr.votes &&& ~~~serviceSlots).getLsbD 0 = true := by
      rw [BitVec.getLsbD_and, h0]; rfl
    rw [h] at hbit
    cases hbit
  have hnone : s.pwr.votes &&& ~~~serviceSlots &&& serviceSlots = 0 := by
    rw [BitVec.and_assoc, BitVec.and_comm (~~~serviceSlots)]
    exact BitVec.and_zero
  have hrun := voteClr_withdrawn (v := v) hS ho
  rw [hv] at hrun
  have hpwr := withdrawVotes_some (s := s) (gone := serviceSlots &&& s.pwr.votes) (by rw [and_not_held]; exact hleft)
  rw [and_not_held] at hpwr
  generalize hu : closeSlots (serviceSlots &&& s.pwr.votes) (withdrawVotes (serviceSlots &&& s.pwr.votes) s) = u at hrun
  have hup : u.pwr = { s.pwr with votes := s.pwr.votes &&& ~~~serviceSlots, votesInv := ~~~(s.pwr.votes &&& ~~~serviceSlots) } := by
    rw [← hpwr, ← hu]; simp
  have hus : u.sec = s.sec := by rw [← hu]; simp
  have hsel : selectMode u = .management := selectMode_management (by rw [hup]; exact hc) (by rw [hup]; exact hs)
    (by rw [hus]; exact hp) (by rw [hup]; exact hleft) (by rw [hup]; exact hnone)
  rw [evalMode_leaveService (by rw [hup]; exact ht) (by rw [hus]; exact hz) (by rw [hup]; exact hm) hsel] at hrun
  refine ⟨_, congrArg Host.Outcome.next hrun, ?_⟩
  simp [hup, hm]

omit hS in
/-- The sleep vote begins the entry to Retention Sleep (R341). -/
theorem sleepVote_begins (hc : s.pwr.holdCause = 0) (hm : s.pwr.mode = .management) (hv : s.pwr.votes ≠ 0) :
    ∃ t, exec .sleepVote s = .next t ∧ t.pwr.sleepVote = true ∧ t.pwr.transition = some .enterSleep ∧
      t.pwr.votes = s.pwr.votes := by
  have hrun : exec .sleepVote s =
      .next (evalMode { s with pwr := { s.pwr with sleepVote := true, slept := some s.clk.beat } }) := by
    simp [exec, execSleepVote, sleepVote, ho, State.inHold, hm]
  rw [evalMode_sleepBegin (s := { s with pwr := { s.pwr with sleepVote := true, slept := some s.clk.beat } }) ht hz hm
    (selectMode_retentionSleep hc hv rfl)] at hrun
  refine ⟨_, hrun, ?_⟩
  simp [sleepBegin, hm]

omit hS ht hz in
/-- In Safe Hold and in Provisioning the sleep vote is refused (R335). -/
theorem sleepVote_refused {c : BitVec 3} (hm : (s.pwr.mode = .safeHold ∧ c = 3) ∨ (s.pwr.mode = .provisioning ∧ c = 4)) :
    ∃ t, exec .sleepVote s = .next t ∧ t = { s with pwr := t.pwr, obs := t.obs, pin := t.pin } ∧
      t.pwr = { s.pwr with voteRefused := true, refuseCause := c, refusedSlot := 24 } ∧
      (s.obs.events.length < 512 → ∃ e ∈ t.obs.events, e.code = 0x0904 ∧ e.beat = s.clk.beat) := by
  have hrun : exec .sleepVote s = .next (refuseVote 24 c.toNat s) := by
    rcases hm with ⟨hm, rfl⟩ | ⟨hm, rfl⟩ <;> simp [exec, execSleepVote, sleepVote, ho, State.inHold, hm]
  exact ⟨_, hrun, refuseVote_eq .., by rw [refuseVote_pwr, BitVec.ofNat_toNat]; simp, fun h => refuseVote_logged h ..⟩

omit hz in
/-- Before provisioning service slots are refused, the others recorded, and no transition begins (R335). -/
theorem voteSet_refuses {c : BitVec 3}
    (hcause : (s.clk.srcActive = false ∧ c = 1) ∨ (s.clk.srcActive = true ∧ s.sec.provisioned = false ∧ c = 2))
    (hm : s.pwr.mode = .provisioning) (hp : s.sec.provisioned = false) (hc : s.pwr.holdCause = 0)
    (hs : s.pwr.sleepVote = false) (hv0 : s.pwr.votes ≠ 0) (hv : v.setWidth 24 &&& ~~~s.pwr.votes &&& serviceSlots ≠ 0) :
    ∃ t, exec (.voteSet v) s = .next t ∧ t.pwr.voteRefused = true ∧ t.pwr.refuseCause = c ∧
      t.pwr.votes = s.pwr.votes ||| (v.setWidth 24 &&& 0xFFFF7F &&& ~~~serviceSlots) ∧
      t.pwr.votesInv = ~~~t.pwr.votes ∧ t.pwr.transition = none ∧ t.pwr.mode = .provisioning := by
  have hr : serviceRefusal s = some c.toNat := by
    rcases hcause with ⟨hpll, rfl⟩ | ⟨hpll, hp, rfl⟩ <;> simp [serviceRefusal, hpll, hp]
  obtain ⟨slot, got, hrun⟩ := voteSet_refused hS ho hr hv
  generalize hvotes : s.pwr.votes ||| (v.setWidth 24 &&& 0xFFFF7F &&& ~~~serviceSlots) = votes at hrun ⊢
  have hleft : votes ≠ 0 := fun h => hv0 (BitVec.or_eq_zero_iff.mp (hvotes.trans h)).1
  have hpwr := refuseVote_pwr slot c.toNat (s.setVotes votes)
  rw [BitVec.ofNat_toNat, BitVec.setWidth_eq] at hpwr
  rw [openSlots_eq] at hrun
  generalize hu : refuseVote slot c.toNat (s.setVotes votes) = u at hrun hpwr
  have hus : u.sec = s.sec := by rw [← hu]; simp
  have hsel : selectMode { u with cells := (openSlots got u).cells } = u.pwr.mode := by
    have hmode : u.pwr.mode = .provisioning := by rw [hpwr]; exact hm
    rw [hmode]
    exact selectMode_provisioning (by rw [hpwr]; exact hc) (by rw [hpwr]; exact hleft) (by rw [hpwr]; exact hs)
      (by rw [hus]; exact hp)
  rw [evalMode_selected hsel] at hrun
  exact ⟨_, congrArg Host.Outcome.next hrun, by rw [hpwr], by rw [hpwr], by rw [hpwr]; rfl, by rw [hpwr]; rfl, by rw [hpwr]; exact ht,
    by rw [hpwr]; exact hm⟩

end Commands

/-- Settles O13: a write of the vote table, a withdrawal or the sleep vote, and the mode that is then selected. -/
theorem votesMoveMode : Obligations.VotesMoveMode := by
  intro s v hS ho ht hz
  exact ⟨voteSet_enterService hS ho ht hz, fun hm _ => voteClr_standby hS ho ht hz hm, voteClr_leaveService hS ho ht hz,
    sleepVote_begins ho ht hz, fun c => sleepVote_refused ho, fun c hcause => voteSet_refuses hS ho ht hcause⟩

end Sys2Proof.Machine

/-! ## Cells: the write gate, parking, and the loss of a cell -/

namespace Sys2Proof.Machine

/-! A cell as PARK and a fallen gate leave it. -/

/-- The cell that is told to park (R312). -/
def Cell.park (x : Cell) : Cell :=
  if x.servo.loaded && !x.arm.parking then { x with
    arm := { x.arm with parking := true }
    servo := { x.servo with tracking := false, writeSettled := false, seeking := false } }
  else x
/-- The cell whose write of sector `k` is cut (R296). -/
def Cell.cut (k : Nat) (x : Cell) : Cell := { x with
  wg := false, writing := none, torn := true, gateDue := none
  queue := x.queue.map (fun q => if q.key = k then { q with torn := true } else q) }
/-- The cell whose write gate falls (R296). -/
def Cell.dropGate (x : Cell) : Cell :=
  match x.writing with
  | none => { x with wg := false, gateDue := none }
  | some k => if x.gateDue.isSome then (x.cut k).park else x.cut k

/-- PARK stops tracking and seeking, and nothing else of the servo. -/
theorem Cell.park_eq (x : Cell) : x.park = { x with arm := x.park.arm, servo := { x.servo with
    tracking := x.park.servo.tracking, writeSettled := x.park.servo.writeSettled, seeking := x.park.servo.seeking } } := by
  unfold Cell.park
  split <;> rfl
/-- A gate that falls is low, and beside the write it cuts touches the cell as PARK does. -/
theorem Cell.dropGate_eq (x : Cell) : x.dropGate = { x with
    wg := false, gateDue := none, writing := none, torn := x.dropGate.torn, queue := x.dropGate.queue, arm := x.dropGate.arm
    servo := { x.servo with
      tracking := x.dropGate.servo.tracking, writeSettled := x.dropGate.servo.writeSettled
      seeking := x.dropGate.servo.seeking } } := by
  unfold Cell.dropGate
  split
  · next h => rw [← h]
  · next k _ =>
    split
    · rw [Cell.park_eq (x.cut k)]; rfl
    · rfl

/-! The cell layer of the state. -/

/-- The cells are read from their table alone. -/
theorem cell_of_cells {s t : State} (h : t.cells = s.cells) (u : CellId) : t.cell u = s.cell u := by
  unfold State.cell
  rw [h]

section CellLayer

variable {s : State} (hs : Sound s)

include hs

theorem cell_parkCell_self (c : CellId) : (parkCell c s).cell c = (s.cell c).park := by
  unfold parkCell Cell.park
  dsimp only
  split
  · exact cell_setCell_self hs ..
  · rfl
theorem cell_parkCell_ne {c u : CellId} (hu : u ≠ c) : (parkCell c s).cell u = s.cell u := by
  unfold parkCell
  dsimp only
  split
  · exact cell_setCell_ne hs hu _
  · rfl
/-- PARK counts a park at most. -/
theorem parkCell_counter {c : CellId} {o : Nat} (h : o ≠ cCell c 0xD0) : (parkCell c s).counter o = s.counter o := by
  unfold parkCell
  dsimp only
  split
  · exact counter_bump_ne ((State_setCell_keeps ..).1 hs) h 1
  · rfl
/-- A write that is cut: what then parks, where that was asked, differs from the state before in the cell, two counts and
the mark alone. -/
theorem dropGate_writing {c : CellId} {k : Nat} (hw : (s.cell c).writing = some k) :
    ∃ u, dropGate c s = parkAfter c (s.cell c).gateDue u ∧ Sound u ∧
      (∀ d, u.cell d = (s.setCell c ((s.cell c).cut k)).cell d) ∧
      ∀ o, o ≠ cCell c 0x38 → u.counter o = s.counter o := by
  have hset : Sound (s.setCell c ((s.cell c).cut k)) := (State_setCell_keeps ..).1 hs
  have hbump := fun o (ho : o ≠ cCell c 0x38) => counter_bump_ne hset ho 1
  unfold dropGate
  simp only [hw]
  refine ⟨_, rfl, ?_, ?_, fun o ho => (Eq.trans ?_ (hbump o ho))⟩
  · have hmark : Sound (mark (0x12000 + 0x400 * c.val) 16 (bump (cCell c 0x38) 1 (s.setCell c ((s.cell c).cut k)))) :=
      (mark_keeps ..).1 ((bump_keeps ..).1 hset)
    split
    · split
      · exact hmark
      · exact (addMark_keeps ..).1 hmark
    · exact hmark
  · refine fun d => cell_of_cells ?_ d
    (repeat' split) <;> simp [Cell.cut, mark, bump]
  · (repeat' split) <;> simp [Cell.cut, mark, State.counter]
theorem cell_dropGate_self (c : CellId) : (dropGate c s).cell c = (s.cell c).dropGate := by
  rcases hw : (s.cell c).writing with _ | k
  · unfold dropGate Cell.dropGate
    simp only [hw]
    exact cell_setCell_self hs ..
  · obtain ⟨u, hu, hsu, hcells, -⟩ := dropGate_writing hs hw
    have hcut : u.cell c = (s.cell c).cut k := (hcells c).trans (cell_setCell_self hs ..)
    unfold Cell.dropGate parkAfter at *
    simp only [hw, hu]
    split
    · rw [cell_parkCell_self hsu, hcut]
    · exact hcut
theorem cell_dropGate_ne {c u : CellId} (hu : u ≠ c) : (dropGate c s).cell u = s.cell u := by
  rcases hw : (s.cell c).writing with _ | k
  · unfold dropGate
    simp only [hw]
    exact cell_setCell_ne hs hu _
  · obtain ⟨t, ht, hst, hcells, -⟩ := dropGate_writing hs hw
    have hcut : t.cell u = s.cell u := (hcells u).trans (cell_setCell_ne hs hu _)
    unfold parkAfter at ht
    rw [ht]
    split
    · rw [cell_parkCell_ne hst hu, hcut]
    · exact hcut
/-- A gate that falls counts a torn sector and a park at most. -/
theorem dropGate_counter {c : CellId} {o : Nat} (htorn : o ≠ cCell c 0x38) (hpark : o ≠ cCell c 0xD0) :
    (dropGate c s).counter o = s.counter o := by
  rcases hw : (s.cell c).writing with _ | k
  · unfold dropGate
    simp only [hw]
    rfl
  · obtain ⟨t, ht, hst, -, hcount⟩ := dropGate_writing hs hw
    unfold parkAfter at ht
    rw [ht]
    split
    · rw [parkCell_counter hst hpark, hcount o htorn]
    · exact hcount o htorn

/-- Cancelled retries leave the cell its other fields. -/
theorem cell_cancelRetries_self (c : CellId) :
    (cancelRetries c s).cell c = { s.cell c with retry := none, retryWait := [] } :=
  cell_updCell_self hs c (fun x => { x with retry := none, retryWait := [] })
theorem cell_cancelRetries_ne {c u : CellId} (hu : u ≠ c) : (cancelRetries c s).cell u = s.cell u :=
  cell_updCell_ne hs hu (fun x => { x with retry := none, retryWait := [] })

/-- A cell whose port stops, as the fields of its row that are read in bring-up show it (R333). -/
theorem cellOff_stopped (c : CellId) : ((cellOff c s).cell c).ready = false ∧ ((cellOff c s).cell c).bring = .off ∧
    ((cellOff c s).cell c).closing = none ∧ ((cellOff c s).cell c).queue = [] := by
  have hcancel : Sound (cancelRetries c (dropGate c s)) := (cancelRetries_keeps ..).1 ((dropGate_keeps ..).1 hs)
  unfold cellOff
  rw [cell_updCell_self (foldl_keeps Sound _ (fun _ _ h => (updCached_keeps ..).1 h) _ _ hcancel)]
  exact ⟨rfl, rfl, rfl, rfl⟩
/-- Its port stops no other cell. -/
theorem cell_cellOff_ne {c u : CellId} (hu : u ≠ c) : (cellOff c s).cell u = s.cell u := by
  have hdrop := (dropGate_keeps c s).1 hs
  have hcancel := (cancelRetries_keeps c (dropGate c s)).1 hdrop
  unfold cellOff
  rw [cell_updCell_ne (foldl_keeps Sound _ (fun _ _ h => (updCached_keeps ..).1 h) _ _ hcancel) hu]
  exact (cell_of_cells (foldl_keeps (fun t : State => t.cells = (cancelRetries c (dropGate c s)).cells) _
    (fun t q h => by simpa using h) _ _ rfl) u).trans
    ((cell_cancelRetries_ne hdrop hu).trans (cell_dropGate_ne hs hu))

end CellLayer

/-- With every port stopped no cell is READY or in bring-up. -/
theorem cellsOff_stopped {s : State} (hs : Sound s) (u : CellId) :
    ((cellsOff s).cell u).ready = false ∧ ((cellsOff s).cell u).bring = .off := by
  have hstep (l : List CellId) (s : State) (hs : Sound s) (h : u ∈ l ∨ (s.cell u).ready = false ∧ (s.cell u).bring = .off) :
      ((l.foldl (fun s c => cellOff c s) s).cell u).ready = false ∧
        ((l.foldl (fun s c => cellOff c s) s).cell u).bring = .off := by
    induction l generalizing s with
    | nil => simpa using h
    | cons c l ih =>
      refine ih (cellOff c s) ((cellOff_keeps ..).1 hs) ?_
      obtain ⟨hready, hbring, -, -⟩ := cellOff_stopped hs c
      rcases eq_or_ne u c with rfl | hu
      · exact .inr ⟨hready, hbring⟩
      · rw [cell_cellOff_ne hs hu]
        exact h.imp_left (List.mem_of_ne_of_mem hu)
  exact hstep allCells s hs (.inl (List.mem_finRange u))

/-! Queued events stand. -/

/-- A cell that is told to park leaves the event queue. -/
theorem parkCell_events (c : CellId) (s : State) : (parkCell c s).obs.events = s.obs.events := by
  unfold parkCell
  dsimp only
  split <;> rfl
theorem dropGate_events (c : CellId) (s : State) : (dropGate c s).obs.events = s.obs.events := by
  have hpark (due : Option DWord) (u : State) : (parkAfter c due u).obs.events = u.obs.events := by
    unfold parkAfter
    split
    · exact parkCell_events c u
    · rfl
  unfold dropGate
  dsimp only
  (repeat' split) <;> simp [hpark, mark, bump]
/-- So does MEDIA as it goes off. -/
theorem mediaOff_events (s : State) : (mediaOff s).obs.events = s.obs.events := by
  have hcell (c : CellId) (u : State) : (cellOff c u).obs.events = u.obs.events := by simp [cellOff, dropGate_events]
  have hcells : (cellsOff s).obs.events = s.obs.events :=
    foldl_keeps (fun t => t.obs.events = s.obs.events) _ (fun t c h => (hcell c t).trans h) _ s rfl
  simpa [mediaOff] using hcells

end Sys2Proof.Machine

/-! ## HOLD_RELEASE and PARK_TIMEOUT (O15) -/

namespace Sys2Proof.Machine

/-- A wait changes the clock, the counts and the pins alone. -/
theorem elapseTo_frame_eq (b : Nat) (s : State) :
    elapseTo b s = { s with clk := (elapseTo b s).clk, obs := (elapseTo b s).obs, pin := (elapseTo b s).pin } :=
  elapse_eq ..
/-- With MEDIA switched off its domain is not powered (R337). -/
theorem mediaOff_mediaOn (s : State) : (mediaOff s).mediaOn = false := by
  have hmask (d : BitVec 7) : (d &&& 0x37).getLsbD 6 = false := by
    rw [BitVec.getLsbD_and]
    exact Bool.and_false _
  unfold State.mediaOn
  rw [mediaOff_pwr]
  exact hmask s.pwr.domains
/-- No cell is READY or in bring-up with MEDIA switched off (R337). -/
theorem mediaOff_stopped {s : State} (hs : Sound s) (u : CellId) :
    ((mediaOff s).cell u).ready = false ∧ ((mediaOff s).cell u).bring = .off := by
  have hcells : (mediaOff s).cell u = (cellsOff s).cell u := cell_of_cells (by simp [mediaOff]) u
  rw [hcells]
  exact cellsOff_stopped hs u
/-- A cell without its slot does not come up. -/
theorem bringUp_unheld {c : CellId} {s : State} (h : s.slotHeld c = false) : bringUp c s = s := by
  simp [bringUp, h]

section Release

variable {s : State} {key : BitVec 16} (ho : s.regOpen = true)

include ho

/-- With the key, a session and every cause over, Safe Hold ends in Management where no service vote stands (R351). -/
theorem holdRelease_leaves (hk : key = 0x5AFE) (hh : s.inHold = true) (hsess : s.sec.session = true)
    (hrel : causesReleased s = true) (ht : s.pwr.transition = none) (hz : s.sec.zeroizePending = false)
    (hp : s.sec.provisioned = true) (hv0 : s.pwr.votes ≠ 0) (hsleep : s.pwr.sleepVote = false)
    (hv : s.pwr.votes &&& serviceSlots = 0) :
    ∃ t, exec (.holdRelease key) s = .next t ∧ t.pwr.holdCause = 0 ∧ t.pwr.mode = .management ∧ t.mediaOn = false ∧
      (s.obs.events.length < 512 → ∃ e ∈ t.obs.events, e.code = 0x0902) := by
  generalize hr : { s with pwr := { s.pwr with holdCause := 0, released := some (s.clk.beat, s.pwr.holdCause) } } = r
  have hrp : r.pwr = { s.pwr with holdCause := 0, released := some (s.clk.beat, s.pwr.holdCause) } := by rw [← hr]
  have hrs : r.sec = s.sec := by rw [← hr]
  have hro : r.obs = s.obs := by rw [← hr]
  generalize hu : logEvent 0x0902 0 0 0 r = u
  have hup : u.pwr = r.pwr := by rw [← hu]; simp
  have hus : u.sec = r.sec := by rw [← hu]; simp
  have hmode : u.pwr.mode = .safeHold := by
    rw [hup, hrp]
    exact of_decide_eq_true hh
  have hsel : selectMode u = .management := selectMode_management (by rw [hup, hrp]) (by rw [hup, hrp]; exact hsleep)
    (by rw [hus, hrs]; exact hp) (by rw [hup, hrp]; exact hv0) (by rw [hup, hrp]; exact hv)
  have hrun : exec (.holdRelease key) s = .next (evalMode u) := by
    rw [← hu, ← hr]
    simp [exec, execHoldRelease, holdRelease, ho, hk, hh, hsess, hrel]
  rw [evalMode_releaseHold (by rw [hup, hrp]; exact ht) (by rw [hus, hrs]; exact hz) hmode hsel] at hrun
  have hpwr := mediaOff_pwr u
  have hoff := mediaOff_mediaOn u
  have hlogged := fun hroom : r.obs.events.length < 512 => logEvent_mem hroom 0x0902 0 0 0
  rw [hu, ← mediaOff_events u] at hlogged
  generalize mediaOff u = m at hrun hpwr hoff hlogged
  exact ⟨_, hrun, by rw [hpwr, hup, hrp], rfl, hoff, fun hroom => ⟨_, hlogged (by rw [hro]; exact hroom), rfl⟩⟩

/-- Any other attempt is logged alone (R351). -/
theorem holdRelease_refused
    (h : key ≠ 0x5AFE ∨ s.inHold = false ∨ s.sec.session = false ∨ causesReleased s = false) :
    ∃ t, exec (.holdRelease key) s = .next t ∧ t = { s with obs := t.obs, pin := t.pin } ∧
      (s.obs.events.length < 512 → ∃ e ∈ t.obs.events, e.code = 0x0903) := by
  have hrun : exec (.holdRelease key) s = .next (logEvent 0x0903 0 0 0 s) := by
    have hno : ¬(key = 0x5AFE ∧ s.inHold ∧ s.sec.session ∧ causesReleased s) := by
      rintro ⟨hk, hh, hsess, hrel⟩
      simp [hk, hh, hsess, hrel] at h
    simp only [exec, execHoldRelease, holdRelease, ho, Bool.not_true, Bool.false_eq_true, if_false, if_neg hno]
  exact ⟨_, hrun, logEvent_eq .., fun hroom => ⟨_, logEvent_mem hroom .., rfl⟩⟩

end Release

section Park

variable {s : State}

/-- 20 ms after Service began to be left MEDIA goes off (R337). -/
theorem parkTimeout_leaves (hs : Sound s) (ht : s.pwr.transition = some .leaveService) (hm : s.mediaOn = true) :
    ∃ t, exec (.parkTimeout none) s = .next t ∧ t.mediaOn = false ∧ t.pwr.transition = some .leaveService ∧
      ∀ k, (t.cell k).ready = false ∧ (t.cell k).bring = .off := by
  have hrun : exec (.parkTimeout none) s = .next (mediaOff (elapseTo (s.pwr.transBeat.toNat + 20000000) s)) := by
    simp [exec, execParkTimeout, parkTimeout, ht, hm]
  refine ⟨_, hrun, mediaOff_mediaOn _, ?_, mediaOff_stopped ((elapseTo_keeps ..).1 hs)⟩
  rw [mediaOff_pwr, elapseTo_frame_eq]
  exact ht
/-- The entry to Retention Sleep goes on 20 ms after it began (R341). -/
theorem parkTimeout_sleeps (ht : s.pwr.transition = some .enterSleep) (ha : s.awake = true)
    (hle : s.clk.beat.toNat ≤ s.pwr.transBeat.toNat + 20000000) (hlt : s.pwr.transBeat.toNat + 20000005 < 2 ^ 64) :
    ∃ t, exec (.parkTimeout none) s = .next t ∧ s.pwr.transBeat.toNat + 20000000 ≤ t.clk.beat.toNat ∧
      t = { s with clk := t.clk, obs := t.obs, pin := t.pin } := by
  have hrun : exec (.parkTimeout none) s = .next (elapseTo (s.pwr.transBeat.toNat + 20000000) s) := by
    simp [exec, execParkTimeout, parkTimeout, ht]
  exact ⟨_, hrun, (elapseTo_beat _ ha hlt hle).1, elapseTo_frame_eq ..⟩
/-- A cell's port is closed 25 ms after its slot was withdrawn (R333). -/
theorem parkTimeout_closes (hs : Sound s) {c : CellId} (hc : (s.cell c).closing ≠ none) (hv : s.slotHeld c = false)
    (ha : s.awake = true) : ∃ t, exec (.parkTimeout (some c)) s = .next t ∧ (t.cell c).closing = none ∧
      (t.cell c).bring = .off ∧ (t.cell c).ready = false ∧ (t.cell c).queue = [] := by
  obtain ⟨b, hb⟩ := Option.ne_none_iff_exists'.mp hc
  have hunheld : (cellOff c (elapseTo (b.toNat + 25000000) s)).slotHeld c = false := by
    rw [← hv]
    simp [State.slotHeld]
  have hrun : exec (.parkTimeout (some c)) s = .next (cellOff c (elapseTo (b.toNat + 25000000) s)) := by
    simp [exec, execParkTimeout, parkTimeout, hb, ha, bringUp_unheld hunheld]
  obtain ⟨hready, hbring, hclosing, hqueue⟩ := cellOff_stopped ((elapseTo_keeps (b.toNat + 25000000) s).1 hs) c
  exact ⟨_, hrun, hclosing, hbring, hready, hqueue⟩

end Park

/-- Settles O15: what ends Safe Hold, and what ends a wait for PARKED. -/
theorem holdAndParkEnds : Obligations.HoldAndParkEnds :=
  fun _ _ _ hs => ⟨holdRelease_leaves, holdRelease_refused, parkTimeout_leaves hs, parkTimeout_sleeps, parkTimeout_closes hs⟩

end Sys2Proof.Machine

/-! ## The loss of a cell, and what ends its bring-up (O56) -/

namespace Sys2Proof.Machine

/-- A cell without the writes and the retries that wait on it. -/
def Cell.core (x : Cell) : Cell := { x with queue := [], writing := none, retry := none, retryWait := [] }

/-- Between `s` and `t` no cell changes but for the writes and the retries that wait on it, and no wedge is counted. -/
structure LeavesCells (s t : State) : Prop where
  sound : Sound t
  core : ∀ u, (t.cell u).core = (s.cell u).core
  wedges : ∀ c, t.counter (cCell c 0x80) = s.counter (cCell c 0x80)

namespace LeavesCells

variable {s t u : State}

theorem refl (hs : Sound s) : LeavesCells s s := ⟨hs, fun _ => rfl, fun _ => rfl⟩
/-- One step after another. -/
theorem andThen (h : LeavesCells s t) (k : Sound t → LeavesCells t u) : LeavesCells s u where
  sound := (k h.sound).sound
  core c := ((k h.sound).core c).trans (h.core c)
  wedges c := ((k h.sound).wedges c).trans (h.wedges c)
/-- A step that leaves the cells and the observation block. -/
theorem of_same (ht : Sound t) (hc : t.cells = s.cells) (ho : t.obs = s.obs) : LeavesCells s t :=
  ⟨ht, fun u => congrArg Cell.core (cell_of_cells hc u), fun _ => by unfold State.counter; rw [ho]⟩
theorem ite {c : Prop} [Decidable c] (ht : LeavesCells s t) (hu : LeavesCells s u) : LeavesCells s (if c then t else u) := by
  split
  · exact ht
  · exact hu
theorem foldl {β : Type} {f : State → β → State} (hf : ∀ s x, Sound s → LeavesCells s (f s x)) (l : List β) (hs : Sound s) :
    LeavesCells s (l.foldl f s) := by
  induction l generalizing s with
  | nil => exact refl hs
  | cons x l ih => exact (hf s x hs).andThen ih
/-- A cell that is replaced by one with the same core. -/
theorem setCell (hs : Sound s) {c : CellId} {x : Cell} (hx : x.core = (s.cell c).core) : LeavesCells s (s.setCell c x) where
  sound := (State_setCell_keeps ..).1 hs
  core u := by
    rcases eq_or_ne u c with rfl | hu
    · rw [cell_setCell_self hs, hx]
    · rw [cell_setCell_ne hs hu]
  wedges _ := rfl

end LeavesCells

/-! The members of a group (R250, R261, R262, R268, R272). -/

section Members

variable {s : State} (hs : Sound s)

include hs

theorem logEvent_leavesCells (code i a b : Nat) : LeavesCells s (logEvent code i a b s) where
  sound := (logEvent_keeps ..).1 hs
  core u := congrArg Cell.core (cell_of_cells (by simp) u)
  wedges c := logEvent_counter hs _ _ _ _ (by unfold cCell cDev; omega)
theorem updGroup_leavesCells (g : GroupId) (f : Group → Group) : LeavesCells s (s.updGroup g f) :=
  .of_same ((State_updGroup_keeps ..).1 hs) (by simp) (by simp)
theorem abortRebuild_leavesCells (g : GroupId) : LeavesCells s (abortRebuild g s) :=
  .ite ((updGroup_leavesCells hs g _).andThen (logEvent_leavesCells · ..)) (.refl hs)
theorem bump_leavesCells {o : Nat} (h : ∀ c, cCell c 0x80 ≠ o) (n : Nat) : LeavesCells s (bump o n s) where
  sound := (bump_keeps ..).1 hs
  core _ := rfl
  wedges c := counter_bump_ne hs (h c) n
theorem releaseWhere_leavesCells (f : Intent → DataRec → Bool) (h : Intent → ParRec → Bool) : LeavesCells s (releaseWhere f h s) :=
  .of_same ((releaseWhere_keeps ..).1 hs) (by simp) (by simp)
/-- A group that goes down counts the records that it releases, and no wedge. -/
theorem groupDown_leavesCells (g : GroupId) : LeavesCells s (groupDown g s) where
  sound := (groupDown_keeps ..).1 hs
  core u := congrArg Cell.core (cell_of_cells (by simp) u)
  wedges c := by
    unfold groupDown
    dsimp only
    generalize hu : releaseWhere _ _ _ = u
    have hreleased : LeavesCells s u := by
      rw [← hu]
      exact (((updGroup_leavesCells hs g _).andThen (logEvent_leavesCells · ..)).andThen (abortRebuild_leavesCells · g)).andThen
        (releaseWhere_leavesCells · ..)
    exact (hreleased.andThen (bump_leavesCells · (fun c => (cGroup_ne_cCell g (by decide) c _).symm) _)).wedges c
theorem startRebuild_leavesCells (g : GroupId) (m rate : Nat) (copy : Bool) : LeavesCells s (startRebuild g m rate copy s) :=
  updGroup_leavesCells hs ..
theorem failMember_leavesCells (g : GroupId) (m : Nat) : LeavesCells s (failMember g m s) := by
  have hfail : LeavesCells s (logEvent 0x0701 g.val m 0 (s.updGroup g fun x => { x with failed := x.failed ++ [m] })) :=
    (updGroup_leavesCells hs g _).andThen (logEvent_leavesCells · ..)
  unfold failMember
  dsimp only
  exact .ite (.refl hs) (.ite (.ite hfail (hfail.andThen (groupDown_leavesCells · g)))
    (.ite (hfail.andThen (updGroup_leavesCells · g _)) (.ite (hfail.andThen (startRebuild_leavesCells · g m _ _)) hfail)))
/-- The writes queued on a cell leave it. -/
theorem requeue_leavesCells (c : CellId) : LeavesCells s (requeue c s) :=
  ((LeavesCells.setCell hs (by rfl)).andThen
    (fun h => .of_same ((dropMarks_keeps ..).1 h) (by simp) (by simp))).andThen
    (LeavesCells.foldl (fun _ _ h => .of_same ((updCached_keeps ..).1 h) (by simp) (by simp)) _)
theorem cancelRetries_leavesCells (c : CellId) : LeavesCells s (cancelRetries c s) :=
  (LeavesCells.setCell (c := c) (x := { s.cell c with retry := none, retryWait := [] }) hs rfl).andThen
    fun h => .of_same { h with } rfl rfl
theorem cellGone_leavesCells (c : CellId) (g : GroupId) : LeavesCells s (cellGone c s g) := by
  unfold cellGone
  dsimp only
  split
  · exact .refl hs
  · split
    · exact (requeue_leavesCells hs c).andThen (failMember_leavesCells · g _)
    · exact .ite (((abortRebuild_leavesCells hs g).andThen (updGroup_leavesCells · g _)).andThen (logEvent_leavesCells · ..))
        (.refl hs)
/-- A cell that is lost leaves its group: every cell keeps what is not its queued work. -/
theorem cellLost_leavesCells (c : CellId) : LeavesCells s (cellLost c s) :=
  (cancelRetries_leavesCells hs c).andThen (LeavesCells.foldl (fun _ g h => cellGone_leavesCells h c g) _)

end Members

/-! Faults of a cell (R279, R281, R317). -/

/-- The cell that meets a cell-scope fault, but for its queued work. -/
def Cell.faulted (code : BitVec 3) (x : Cell) : Cell := { x.dropGate with
  fault := code, ready := false
  arm := { x.dropGate.arm with parking := true }
  servo := { x.dropGate.servo with tracking := false, writeSettled := false, seeking := false, reacquiring := false } }

section Faults

variable {s : State} (hs : Sound s)

include hs

/-- The cell that meets a fault, as it stands before it is lost: its gate has fallen, and it parks. -/
theorem cellFault_before (c : CellId) (code : BitVec 3) : ∃ u, cellFault c code s = cellLost c u ∧ Sound u ∧
    u.cell c = (s.cell c).faulted code ∧ ∀ d, u.counter (cCell d 0x80) = s.counter (cCell d 0x80) := by
  have hne (d : CellId) {x : Nat} (hx : x < 0x80 ∨ 0x80 < x ∧ x < 0x200) : cCell d 0x80 ≠ cCell c x := by
    unfold cCell; omega
  have hcounted : ∃ v, Sound v ∧ v.cells = s.cells ∧ (∀ d, v.counter (cCell d 0x80) = s.counter (cCell d 0x80)) ∧
      (if (s.cell c).servo.loaded && !(s.cell c).arm.parking then bump (cCell c 0xD0) 1 s else s) = v := by
    split
    · exact ⟨_, (bump_keeps ..).1 hs, rfl, fun d => counter_bump_ne hs (hne d (.inr (by decide))) 1, rfl⟩
    · exact ⟨s, hs, rfl, fun _ => rfl, rfl⟩
  obtain ⟨v, hv, hcells, hcount, heq⟩ := hcounted
  have hdrop := (dropGate_keeps c v).1 hv
  unfold cellFault
  simp only [heq]
  refine ⟨_, rfl, (State_updCell_keeps ..).1 hdrop, ?_, fun d => ?_⟩
  · rw [cell_updCell_self hdrop, cell_dropGate_self hv, cell_of_cells hcells]
    rfl
  · exact (dropGate_counter hv (hne d (.inl (by decide))) (hne d (.inr (by decide)))).trans (hcount d)
/-- A cell-scope fault leaves the cell faulted, and counts no wedge. -/
theorem cellFault_faulted (c : CellId) (code : BitVec 3) :
    Sound (cellFault c code s) ∧ ((cellFault c code s).cell c).core = ((s.cell c).faulted code).core ∧
      ∀ d, (cellFault c code s).counter (cCell d 0x80) = s.counter (cCell d 0x80) := by
  obtain ⟨u, hu, hsu, hcell, hcount⟩ := cellFault_before hs c code
  have hlost := cellLost_leavesCells hsu c
  rw [hu]
  exact ⟨hlost.sound, by rw [hlost.core, hcell], fun d => (hlost.wedges d).trans (hcount d)⟩

/-- A servo doubt where none stands leaves the cell faulted with its cause (R317, R318). -/
theorem servoDoubt_doubted {c : CellId} (hf : (s.cell c).fault ≠ 2) (cause : BitVec 3) : ∃ code,
    ((s.cell c).fault = 0 → code = 2) ∧ Sound (servoDoubt c cause s) ∧
    ((servoDoubt c cause s).cell c).core =
      { ((s.cell c).faulted code).core with servo := { ((s.cell c).faulted code).servo with doubt := cause } } ∧
    ∀ d, (servoDoubt c cause s).counter (cCell d 0x80) = s.counter (cCell d 0x80) := by
  generalize hcode : (if (s.cell c).fault = 1 then (1 : BitVec 3) else 2) = code
  have hrun : servoDoubt c cause s = logEvent 0x0806 c.val cause.toNat 0
      ((cellFault c code s).updServo c (fun v => { v with doubt := cause })) := by
    unfold servoDoubt
    rw [if_neg hf, ← hcode]
  obtain ⟨hsound, hcore, hcount⟩ := cellFault_faulted hs c code
  rw [hrun]
  generalize cellFault c code s = u at hsound hcore hcount
  have hlog := logEvent_leavesCells ((State_updServo_keeps u c (fun v => { v with doubt := cause })).1 hsound) 0x0806 c.val
    cause.toNat 0
  refine ⟨code, fun h0 => ?_, hlog.sound, ?_, fun d => (hlog.wedges d).trans (hcount d)⟩
  · rw [← hcode, h0]; rfl
  · rw [hlog.core, cell_updServo_self hsound]
    have hservo : (u.cell c).servo = ((s.cell c).faulted code).servo := (congrArg Cell.servo hcore :)
    rw [hservo, ← hcore]
    rfl

/-- A servo doubt parks a cell that has no fault, with FAULT 2 and its cause (R317). -/
theorem servoDoubt_parks {c : CellId} (hf : (s.cell c).fault = 0) (cause : BitVec 3) :
    ((servoDoubt c cause s).cell c).fault = 2 ∧ ((servoDoubt c cause s).cell c).servo.doubt = cause ∧
    ((servoDoubt c cause s).cell c).ready = false ∧ ((servoDoubt c cause s).cell c).arm.parking = true ∧
    ((servoDoubt c cause s).cell c).clockLock = (s.cell c).clockLock := by
  obtain ⟨code, hcode, -, hcore, -⟩ := servoDoubt_doubted hs (by rw [hf]; decide) cause
  generalize (servoDoubt c cause s).cell c = x at hcore
  have hlock : ((s.cell c).faulted code).clockLock = (s.cell c).clockLock := (congrArg Cell.clockLock (Cell.dropGate_eq _) :)
  exact ⟨(congrArg Cell.fault hcore :).trans (hcode hf), (congrArg (fun x => x.servo.doubt) hcore :),
    (congrArg Cell.ready hcore :), (congrArg (fun x => x.arm.parking) hcore :), (congrArg Cell.clockLock hcore :).trans hlock⟩

/-- A cell that is treated as absent is off, with FAULT 4 (R250, R282). -/
theorem treatAbsent_absent (c : CellId) : ((treatAbsent c s).cell c).fault = 4 ∧ ((treatAbsent c s).cell c).bring = .off ∧
    ((treatAbsent c s).cell c).ready = false := by
  obtain ⟨hready, hbring, -, -⟩ := cellOff_stopped hs c
  have hoff := (cellOff_keeps c s).1 hs
  have hcore := (cellLost_leavesCells ((State_updCell_keeps _ c (fun x => { x with fault := 4 })).1 hoff) c).core c
  rw [cell_updCell_self hoff] at hcore
  unfold treatAbsent
  generalize (cellOff c s).cell c = x at hcore hready hbring
  generalize (cellLost c _).cell c = y at hcore
  exact ⟨(congrArg Cell.fault hcore :), (congrArg Cell.bring hcore :).trans hbring, (congrArg Cell.ready hcore :).trans hready⟩
/-- So is one whose PRESENT pin reads high twice (R396). -/
theorem presentAbsent_absent (c : CellId) : ((presentAbsent c s).cell c).absent = true ∧
    ((presentAbsent c s).cell c).fault = 4 ∧ ((presentAbsent c s).cell c).ready = false ∧
    ((presentAbsent c s).cell c).bring = .off := by
  have hdrop := (dropGate_keeps c s).1 hs
  have hoff := (cellOff_keeps c _).1 hdrop
  obtain ⟨-, hbring, -, -⟩ := cellOff_stopped hdrop c
  have hcore := (cellLost_leavesCells ((State_updCell_keeps _ c
    (fun x => { x with absent := true, fault := 4, ready := false })).1 hoff) c).core c
  rw [cell_updCell_self hoff] at hcore
  unfold presentAbsent
  generalize (cellOff c _).cell c = x at hcore hbring
  generalize (cellLost c _).cell c = y at hcore
  exact ⟨(congrArg Cell.absent hcore :), (congrArg Cell.fault hcore :), (congrArg Cell.ready hcore :),
    (congrArg Cell.bring hcore :).trans hbring⟩

end Faults

/-! The commands. -/

section BringUp

variable {s : State} (hs : Sound s) {c : CellId} (ha : s.awake = true)

include hs

include ha in
/-- The clock track locks: a loading cell begins to acquire wedges (R282 step 6, R311). -/
theorem clockLock_acquires (hb : (s.cell c).bring = .loading) (hl : (s.cell c).servo.loaded = true) :
    ∃ t, exec (.clockLock c) s = .next t ∧ (t.cell c).clockLock = true ∧ (t.cell c).bring = .acquiring ∧
      (t.cell c).servo.target = 0 ∧ (t.cell c).servo.surface = 1 ∧ (∀ u, u ≠ c → t.cell u = s.cell u) ∧
      t = { s with cells := t.cells } := by
  simp only [exec, execClockLock, hb, hl, ha, and_self, if_true]
  refine ⟨_, rfl, ?_⟩
  rw [cell_updCell_self hs]
  exact ⟨rfl, rfl, rfl, rfl, fun u hu => cell_updCell_ne hs hu _, rfl⟩
include ha in
/-- The loss of its lock is a servo doubt of a loaded cell (R284, R317). -/
theorem clockLockLoss_doubt (hk : (s.cell c).clockLock = true) (hl : (s.cell c).servo.loaded = true)
    (hf : (s.cell c).fault = 0) :
    ∃ t, exec (.clockLockLoss c) s = .next t ∧ (t.cell c).clockLock = false ∧ (t.cell c).fault = 2 ∧
      (t.cell c).servo.doubt = 1 ∧ (t.cell c).ready = false ∧ (t.cell c).arm.parking = true := by
  have hcell := cell_updCell_self hs c (fun x => { x with clockLock := false })
  have hsound := (State_updCell_keeps s c (fun x => { x with clockLock := false })).1 hs
  have hrun : exec (.clockLockLoss c) s = .next (servoDoubt c 1 (s.updCell c fun x => { x with clockLock := false })) := by
    simp only [exec, execClockLockLoss, hk, hl, ha, and_self, if_true]
  generalize s.updCell c (fun x => { x with clockLock := false }) = u at hcell hsound hrun
  obtain ⟨hfault, hdoubt, hready, hpark, hlock⟩ := servoDoubt_parks (c := c) hsound (by rw [hcell]; exact hf) 1
  exact ⟨_, hrun, by rw [hlock, hcell], hfault, hdoubt, hready, hpark⟩
include ha in
/-- A cell that does not reach its speed in time is treated as absent (R282). -/
theorem spinUpTimeout_absent (hb : (s.cell c).bring = .spinning) (hh : s.inHold = true) :
    ∃ t, exec (.spinUpTimeout c) s = .next t ∧ (t.cell c).fault = 4 ∧ (t.cell c).bring = .off ∧ (t.cell c).ready = false := by
  generalize hu : elapseTo ((s.cell c).since.toNat + 15000000000) s = u
  have hsu : Sound u := hu ▸ (elapseTo_keeps ..).1 hs
  have hhold : (treatAbsent c u).inHold = true := by
    rw [← hh, ← hu]
    simp [State.inHold]
  have hrun : exec (.spinUpTimeout c) s = .next (treatAbsent c u) := by
    have hspins : startSpins (treatAbsent c u) = treatAbsent c u := if_pos hhold
    simp only [exec, execSpinUpTimeout, hb, ha, hu, hspins, and_self, if_true]
  exact ⟨_, hrun, treatAbsent_absent hsu c⟩
include ha in
/-- The second high sample of its PRESENT pin makes a cell absent (R396). -/
theorem presentAbsent_leaves (h1 : 1 ≤ (s.cell c).high) (hp : s.presentHigh c = some true)
    (hn : (s.cell c).absent = false) :
    ∃ t, exec (.presentAbsent c) s = .next t ∧ (t.cell c).absent = true ∧ (t.cell c).fault = 4 ∧ (t.cell c).ready = false ∧
      (t.cell c).bring = .off := by
  have hrun : exec (.presentAbsent c) s =
      .next (presentAbsent c (s.updCell c fun x => { x with high := 2, low := 0 })) := by
    simp [exec, execPresentAbsent, ha, h1, hp, hn]
  exact ⟨_, hrun, presentAbsent_absent ((State_updCell_keeps ..).1 hs) c⟩
/-- An idle cell past its limit parks, which is counted (R312). -/
theorem idlePark_parks (h0 : bits 0 16 (s.reg (0x16020 + 0x400 * c.val)) ≠ 0)
    (hlt : bits 0 16 (s.reg (0x16020 + 0x400 * c.val)) < (s.cell c).idle) (hl : (s.cell c).servo.loaded = true)
    (hp : (s.cell c).arm.parking = false) :
    ∃ t, exec (.idlePark c) s = .next t ∧ (t.cell c).arm.parking = true ∧ (t.cell c).servo.tracking = false ∧
      t.counter (cCell c 0xD0) = s.counter (cCell c 0xD0) + 1 ∧ (∀ u, u ≠ c → t.cell u = s.cell u) ∧
      t = { s with cells := t.cells, obs := t.obs } := by
  have hpark : (s.cell c).park = { s.cell c with
      arm := { (s.cell c).arm with parking := true }
      servo := { (s.cell c).servo with tracking := false, writeSettled := false, seeking := false } } := by
    simp [Cell.park, hl, hp]
  have hrun : exec (.idlePark c) s = .next (parkCell c s) := by
    simp only [exec, execIdlePark, idlePark, if_pos (And.intro h0 hlt)]
  refine ⟨_, hrun, ?_, ?_, ?_, fun u hu => cell_parkCell_ne hs hu, ?_⟩
  · rw [cell_parkCell_self hs, hpark]
  · rw [cell_parkCell_self hs, hpark]
  · simp [parkCell, hl, hp, counter_bump_self ((State_setCell_keeps ..).1 hs)]
    rfl
  · apply State.eq_of <;> simp

end BringUp

/-- Settles O56: each row of bring-up and what it leaves of its cell. -/
theorem cellBringUp : Obligations.CellBringUp :=
  fun _ _ hs ha => ⟨clockLock_acquires hs ha, clockLockLoss_doubt hs ha, spinUpTimeout_absent hs ha,
    presentAbsent_leaves hs ha, idlePark_parks hs⟩

end Sys2Proof.Machine

/-! ## Wedges, seeks and servo doubts (O57) -/

namespace Sys2Proof.Machine

/-! What follows from a decided wedge leaves what was decided. -/

/-- What a wedge decides of the place of the heads: its number and its estimate (R305, R307). -/
def Servo.decided (v : Servo) : Nat × Option Int := (v.wedge, v.estimate)

/-- Between `s` and `t` cell `c` keeps its last wedge as decided, and counts no other. -/
structure LeavesWedge (c : CellId) (s t : State) : Prop where
  sound : Sound t
  decided : (t.cell c).servo.decided = (s.cell c).servo.decided
  counter : t.counter (cCell c 0x80) = s.counter (cCell c 0x80)

namespace LeavesWedge

variable {c : CellId} {s t u : State}

theorem refl (hs : Sound s) : LeavesWedge c s s := ⟨hs, rfl, rfl⟩
/-- One step after another. -/
theorem andThen (h : LeavesWedge c s t) (k : Sound t → LeavesWedge c t u) : LeavesWedge c s u where
  sound := (k h.sound).sound
  decided := (k h.sound).decided.trans h.decided
  counter := (k h.sound).counter.trans h.counter
theorem ite {p : Prop} [Decidable p] (ht : LeavesWedge c s t) (hu : LeavesWedge c s u) :
    LeavesWedge c s (if p then t else u) := by
  split
  · exact ht
  · exact hu
/-- A cell that is replaced by one with the same wedge. -/
theorem setCell (hs : Sound s) {x : Cell} (hx : x.servo.decided = (s.cell c).servo.decided) :
    LeavesWedge c s (s.setCell c x) where
  sound := (State_setCell_keeps ..).1 hs
  decided := by rw [cell_setCell_self hs, hx]
  counter := rfl
/-- Another count of the cell. -/
theorem bump (hs : Sound s) {x : Nat} (hx : x ≠ 0x80) (n : Nat) : LeavesWedge c s (bump (cCell c x) n s) where
  sound := (bump_keeps ..).1 hs
  decided := rfl
  counter := counter_bump_ne hs (by unfold cCell; omega) n
theorem mark (hs : Sound s) (a k : Nat) : LeavesWedge c s (mark a k s) := ⟨(mark_keeps ..).1 hs, rfl, rfl⟩
theorem of_leavesCells (h : LeavesCells s t) : LeavesWedge c s t :=
  ⟨h.sound, (congrArg (fun x => x.servo.decided) (h.core c) :), h.wedges c⟩

end LeavesWedge

section Follows

variable {s : State} (hs : Sound s) (c : CellId)

include hs

/-- A gate that falls. -/
theorem dropGate_leavesWedge : LeavesWedge c s (dropGate c s) where
  sound := (dropGate_keeps ..).1 hs
  decided := by
    rw [cell_dropGate_self hs, Cell.dropGate_eq]
    rfl
  counter := dropGate_counter hs (by unfold cCell; omega) (by unfold cCell; omega)
/-- The write-gate rule (R314). -/
theorem gateRule_leavesWedge : LeavesWedge c s (gateRule c s) := by
  unfold gateRule
  extract_lets x v
  split
  · exact .refl hs
  · next s1 s2 _ =>
    have h1 : LeavesWedge c s s1 :=
      .ite (.refl hs) (((LeavesWedge.setCell hs (by rfl)).andThen (.mark · _ _)).andThen (.bump · (x := 0xA0) (by decide) 1))
    have h2 : LeavesWedge c s s2 := .ite h1 (((((h1.andThen (.setCell · (by rfl))).andThen (.mark · _ _)).andThen
      (.bump · (x := 0xA8) (by decide) 1)).andThen fun h => .of_leavesCells (logEvent_leavesCells h ..)))
    exact .ite h2 (h2.andThen (dropGate_leavesWedge · c))

/-- The demand for the wedge (R309). -/
theorem sendDemand_leavesWedge : LeavesWedge c s (sendDemand c s) := by
  refine .setCell hs ?_
  dsimp only
  split <;> rfl
/-- Reacquisition (R316). -/
theorem reacquire_leavesWedge : LeavesWedge c s (reacquire c s) :=
  .ite (((dropGate_leavesWedge hs c).andThen (.setCell · (by rfl))).andThen (.bump · (x := 0xC8) (by decide) 1)) (.refl hs)
theorem armSend_leavesWedge (cmd arg : Nat) : LeavesWedge c s (armSend c cmd arg s) := .setCell hs rfl
/-- A seek that begins (R313). -/
theorem startSeek_leavesWedge (track : Int) (surface : Nat) : LeavesWedge c s (startSeek c track surface s) :=
  (LeavesWedge.andThen (.ite (.refl hs) (.bump hs (x := 0xB8) (by decide) 1))
    fun h => .ite (.refl h) (armSend_leavesWedge h c _ _)).andThen (.setCell · (by rfl))
theorem serveNext_leavesWedge : LeavesWedge c s (serveNext c s) := by
  unfold serveNext
  dsimp only
  split
  · exact .refl hs
  · split
    · exact .refl hs
    · exact .ite (.refl hs) (startSeek_leavesWedge hs c _ _)
/-- The write that waits (R295, R314). -/
theorem startWrite_leavesWedge : LeavesWedge c s (startWrite c s) := by
  unfold startWrite
  dsimp only
  split
  · exact .ite ((LeavesWedge.setCell hs (by rfl)).andThen (.setCell · (by rfl))) (serveNext_leavesWedge hs c)
  · exact serveNext_leavesWedge hs c
/-- The bring-up of a cell that acquires wedges (R311). -/
theorem acquireStep_leavesWedge : LeavesWedge c s (acquireStep c s) := by
  unfold acquireStep
  dsimp only
  split
  · exact .refl hs
  · split
    · exact .ite (.setCell hs rfl) (.refl hs)
    · split
      · split
        · exact ((LeavesWedge.setCell hs (by rfl)).andThen (.setCell · (by rfl))).andThen (armSend_leavesWedge · c _ _)
        · exact .setCell hs rfl
      · exact (LeavesWedge.setCell hs (by rfl)).andThen (serveNext_leavesWedge · c)
/-- A servo doubt (R317). -/
theorem servoDoubt_leavesWedge (cause : BitVec 3) : LeavesWedge c s (servoDoubt c cause s) := by
  by_cases hf : (s.cell c).fault = 2
  · rw [servoDoubt, if_pos hf]
    exact .refl hs
  · obtain ⟨code, -, hsound, hcore, hcount⟩ := servoDoubt_doubted hs hf cause
    have hkeeps := Cell.dropGate_eq (s.cell c)
    generalize servoDoubt c cause s = t at hsound hcore hcount
    exact ⟨hsound, (congrArg (fun x => x.servo.decided) hcore :).trans (congrArg (fun x => x.servo.decided) hkeeps :), hcount c⟩
/-- All that follows from a wedge once its demand is sent. -/
theorem wedgeEnd_leavesWedge (v : Servo) : LeavesWedge c s (wedgeEnd c v s) :=
  .ite (servoDoubt_leavesWedge hs c 2) (.ite (servoDoubt_leavesWedge hs c 4)
    ((acquireStep_leavesWedge hs c).andThen (startWrite_leavesWedge · c)))

omit hs in
/-- The servo after a wedge: the number is the next, the estimate the one decided. -/
theorem servoAfter_decided (v : Servo) (d : WedgeDec) (o : WedgeObs) (loop : Word) (rl settle : Nat) (profile : Int) :
    (servoAfter v d o loop rl settle profile).decided = ((v.wedge + 1) % 360, d.est) := rfl
/-- A wedge is decided, counted, and stands as decided in what follows (R305–R307). -/
theorem wedgeTaken_decides (o : WedgeObs) :
    ((wedgeTaken c o s).cell c).servo.decided = (((s.cell c).servo.wedge + 1) % 360,
      (decideWedge (s.cell c).servo (bits 8 8 (s.reg (0x16014 + 0x400 * c.val))) o).est) ∧
    (wedgeTaken c o s).counter (cCell c 0x80) = s.counter (cCell c 0x80) + 1 := by
  have hne (x : Nat) (hx : x ≠ 0x80) : cCell c 0x80 ≠ cCell c x := by unfold cCell; omega
  unfold wedgeTaken
  extract_lets x lim d f v s1
  have hf : Sound f.2 := (profileDemand_keeps ..).1 hs
  have hobs : f.2.obs = s.obs := by simp [f]
  have hv : v.decided = ((x.servo.wedge + 1) % 360, d.est) := servoAfter_decided ..
  clear_value v f
  have hset : Sound (f.2.setCell c { x with servo := v }) := (State_setCell_keeps ..).1 hf
  have hlost : Sound (bump (cCell c 0x90) d.lost (f.2.setCell c { x with servo := v })) := (bump_keeps ..).1 hset
  have hdegraded := (bump_keeps (cCell c 0x88) (bit d.degraded) _).1 hlost
  have hcell : s1.cell c = { x with servo := v } :=
    (cell_of_cells (s := f.2.setCell c { x with servo := v }) rfl c).trans (cell_setCell_self hf c _)
  have hcount : s1.counter (cCell c 0x80) = s.counter (cCell c 0x80) + 1 := by
    rw [counter_bump_self hdegraded, counter_bump_ne hlost (hne _ (by decide)), counter_bump_ne hset (hne _ (by decide))]
    exact congrArg (fun b => b.counters.get 0 (cCell c 0x80) + 1) hobs
  have hs1 : Sound s1 := (bump_keeps ..).1 hdegraded
  clear_value s1
  have hend := (((gateRule_leavesWedge hs1 c).andThen (sendDemand_leavesWedge · c)).andThen
    (reacquire_leavesWedge · c)).andThen (wedgeEnd_leavesWedge · c v)
  exact ⟨hend.decided.trans (by rw [hcell, hv]), hend.counter.trans hcount⟩

end Follows

/-! The commands. -/

section Servo

variable {s : State} {c : CellId} (hs : Sound s) (ha : s.awake = true) (hl : (s.cell c).servo.loaded = true)

include hs ha hl

/-- A frame that does not decode is counted as missed (R303). -/
theorem colzorFrame_missed (o : ColzorObs) (hm : s.mediaOn = true) (ho : o.sync = false) (hn : (s.cell c).servo.missed ≠ 15) :
    ∃ t, exec (.colzorFrame c o) s = .next t ∧ (t.cell c).servo.missed = (s.cell c).servo.missed + 1 ∧
      t.counter (cCell c 0x98) = s.counter (cCell c 0x98) + 1 ∧ ∀ u, u ≠ c → t.cell u = s.cell u := by
  have hrun : exec (.colzorFrame c o) s =
      .next (bump (cCell c 0x98) 1 (s.updServo c fun v => { v with missed := v.missed + 1 })) := by
    simp [exec, execColzorFrame, colzorFrame, ha, hl, hm, ho, hn]
  have hcell := cell_updServo_self hs c (fun v => { v with missed := v.missed + 1 })
  exact ⟨_, hrun, congrArg (fun x => x.servo.missed) hcell, counter_bump_self ((State_updServo_keeps ..).1 hs) _ 1,
    fun u hu => cell_updServo_ne hs hu (fun v => { v with missed := v.missed + 1 })⟩
/-- A frame that decodes ends the run of missed ones (R303). -/
theorem colzorFrame_heard (o : ColzorObs) (hm : s.mediaOn = true) (ho : o.sync = true) (hk : o.codeOk = true)
    (hp : 6 ≤ o.pairs.length) :
    ∃ t, exec (.colzorFrame c o) s = .next t ∧ (t.cell c).servo.missed = 0 ∧ t = { s with cells := t.cells } := by
  simp only [exec, execColzorFrame, colzorFrame, ha, hl, hm, ho, hk, Nat.not_lt.mpr hp, decide_false, Bool.not_true,
    Bool.or_self, Bool.false_eq_true, if_false]
  refine ⟨_, rfl, ?_, rfl⟩
  rw [cell_updServo_self hs]
/-- A wedge moves the wedge number on, is counted, and leaves its estimate (R305, R307). -/
theorem wedge_decides (o : WedgeObs) (hk : (s.cell c).clockLock = true)
    (hb : (s.cell c).bring = .acquiring ∨ (s.cell c).bring = .ready) (hg : ∀ d, (s.cell d).gateDue = none) :
    ∃ t, exec (.wedge c o) s = .next t ∧ (t.cell c).servo.wedge = ((s.cell c).servo.wedge + 1) % 360 ∧
      (t.cell c).servo.estimate = (decideWedge (s.cell c).servo (bits 8 8 (s.reg (0x16014 + 0x400 * c.val))) o).est ∧
      t.counter (cCell c 0x80) = s.counter (cCell c 0x80) + 1 := by
  have hrun : exec (.wedge c o) s = .next (wedgeTaken c o s) := by
    have htakes : takesWedge c s = true := by simp [takesWedge, ha, hl, hk, hb]
    simp only [exec, execWedge, wedgeStep, lateGates_none hg, htakes, if_true]
  obtain ⟨hdecided, hcount⟩ := wedgeTaken_decides hs c o
  obtain ⟨hwedge, hest⟩ := Prod.mk.inj hdecided
  exact ⟨_, hrun, hwedge, hest, hcount⟩
/-- Eight degraded wedges in a row begin reacquisition, with the write gate low (R316). -/
theorem reacquisition_begins (hb : (s.cell c).bring = .ready) (hr : (s.cell c).servo.reacquiring = false)
    (h8 : 8 ≤ (s.cell c).servo.run) :
    ∃ t, exec (.reacquisition c) s = .next t ∧ (t.cell c).servo.reacquiring = true ∧ (t.cell c).wg = false ∧
      (t.cell c).servo.tracking = false ∧ t.counter (cCell c 0xC8) = s.counter (cCell c 0xC8) + 1 := by
  have hdrop := (dropGate_keeps c s).1 hs
  have hcount : (dropGate c s).counter (cCell c 0xC8) = s.counter (cCell c 0xC8) :=
    dropGate_counter hs (by unfold cCell; omega) (by unfold cCell; omega)
  have hwg : ((dropGate c s).cell c).wg = false := by rw [cell_dropGate_self hs, Cell.dropGate_eq]
  have hrun : exec (.reacquisition c) s = .next (reacquire c s) := rfl
  rw [reacquire, if_pos (by simp [ha, hb, hl, hr, h8])] at hrun
  generalize dropGate c s = u at hrun hdrop hcount hwg
  refine ⟨_, hrun, ?_⟩
  rw [counter_bump_self ((State_updServo_keeps ..).1 hdrop)]
  have hcell (o n : Nat) (t : State) : (bump o n t).cell c = t.cell c := rfl
  rw [hcell, cell_updServo_self hdrop]
  exact ⟨rfl, hwg, rfl, congrArg (· + 1) hcount⟩
/-- A seek that is not settled is counted and made again below the third (R313). -/
theorem seekFail_again (hk : (s.cell c).servo.seeking = true) (h2 : (s.cell c).servo.seekFails < 2) :
    ∃ t, exec (.seekFail c) s = .next t ∧ (t.cell c).servo.seekFails = (s.cell c).servo.seekFails + 1 ∧
      (t.cell c).servo.seekFail = true ∧ (t.cell c).servo.seeking = true ∧ (t.cell c).fault = (s.cell c).fault := by
  simp only [exec, execSeekFail, seekFail, hk, hl, ha, Bool.not_true, Bool.or_self, Bool.false_eq_true, if_false,
    show ¬3 ≤ (s.cell c).servo.seekFails + 1 by omega]
  generalize hu : elapseTo _ s = u
  have hsu : Sound u := hu ▸ (elapseTo_keeps ..).1 hs
  have hcu : u.cell c = s.cell c := cell_of_cells (by rw [← hu]; simp) c
  refine ⟨_, rfl, ?_⟩
  have hcell (a k o n p m : Nat) (t : State) : (bump o n (bump p m (mark a k t))).cell c = t.cell c := rfl
  rw [hcell, cell_updServo_self hsu, hcu]
  exact ⟨rfl, rfl, hk, rfl⟩
omit ha hl in
/-- A head load without a Colzor frame is a servo doubt (R311, R317). -/
theorem headLoadFail_doubt (hf : loadFails c s = true) (h0 : (s.cell c).fault = 0) :
    ∃ t, exec (.headLoadFail c) s = .next t ∧ (t.cell c).fault = 2 ∧ (t.cell c).servo.doubt = 6 ∧ (t.cell c).ready = false := by
  generalize hu : elapseTo ((s.cell c).since.toNat + 300000000) s = u
  have hsu : Sound u := hu ▸ (elapseTo_keeps ..).1 hs
  have hcu : u.cell c = s.cell c := cell_of_cells (by rw [← hu]; simp) c
  have hrun : exec (.headLoadFail c) s = .next (servoDoubt c 6 u) := by
    simp only [exec, execHeadLoadFail, hf, hu, if_true]
  obtain ⟨hfault, hdoubt, hready, -, -⟩ := servoDoubt_parks hsu (by rw [hcu]; exact h0) 6
  exact ⟨_, hrun, hfault, hdoubt, hready⟩
omit hl in
/-- A doubt whose trigger stands parks its cell (R317). -/
theorem servoDoubt_stands (cause : BitVec 3) (hd : doubtStands c cause s = true) (h0 : (s.cell c).fault = 0) :
    ∃ t, exec (.servoDoubt c cause) s = .next t ∧ (t.cell c).fault = 2 ∧ (t.cell c).servo.doubt = cause ∧
      (t.cell c).ready = false ∧ (t.cell c).arm.parking = true := by
  have hrun : exec (.servoDoubt c cause) s = .next (servoDoubt c cause s) := by
    simp only [exec, execServoDoubt, ha, hd, and_self, if_true]
  obtain ⟨hfault, hdoubt, hready, hpark, -⟩ := servoDoubt_parks hs h0 cause
  exact ⟨_, hrun, hfault, hdoubt, hready, hpark⟩

end Servo

/-- Settles O57: each row of the servo and what it leaves of its cell. -/
theorem servoRows : Obligations.ServoRows :=
  fun _ _ hs ha hl => ⟨colzorFrame_missed hs ha hl, colzorFrame_heard hs ha hl, wedge_decides hs ha hl,
    reacquisition_begins hs ha hl, seekFail_again hs ha hl, headLoadFail_doubt hs, servoDoubt_stands hs ha⟩

end Sys2Proof.Machine
